-- ==== Sys2Proof/Word.lean ====
section
/-! DEFINITION. The words of the AZ-9416: 32-bit registers (R14), bytes, 64-bit words. -/

namespace Sys2Proof

/-- A register or an engine general register (R14, R24). -/
abbrev Word := BitVec 32

/-- A byte of memory or of a frame (R15). -/
abbrev Byte := BitVec 8

/-- A 64-bit quantity: a bundle, an 8-byte load, a time in nanoseconds. -/
abbrev DWord := BitVec 64

end Sys2Proof
end

