-- ==== Sys2Proof/Config.lean ====
section
/-! DEFINITION. What an implementation fixes and the spec does not state: free values and uninterpreted functions. -/

namespace Sys2Proof

/-- The n-th free value: a value the spec leaves open (log entry 1). -/
opaque Config.freeWord : Nat → BitVec 64

/-- What destructive march number `k` leaves in byte `a` of a memory: the spec says the data are lost (R381; log entry 1). -/
opaque Config.lostByte : Nat → Nat → BitVec 8

/-- SHA-384 of a byte string, as 48 bytes (log entry 2). -/
opaque Config.sha384 : List Byte → List Byte

/-- Whether an ECDSA P-384 signature verifies: public key, signed bytes, signature (log entry 2). -/
opaque Config.ecdsaOk : List Byte → List Byte → List Byte → Bool

/-- Whether a firmware image's signature verifies against a fused, unrevoked key: image bytes, version (log entry 2). -/
opaque Config.imageSigOk : List Byte → Nat → Bool

/-- Whether a firmware image's SHA-384 hash matches its header: image bytes, version (log entry 2). -/
opaque Config.imageHashOk : List Byte → Nat → Bool

/-- A ring oscillator count normalised to 60 degrees by the factory coefficient of a unit: unit key, count (R974; log entry 1). -/
opaque Config.roNorm : Nat → Nat → Nat

/-- The SHA-384 of the personality key fused into the module (R254; log entry 2). -/
opaque Config.fusedKeyHash : Unit → List Byte

end Sys2Proof
end

