-- ==== Sys2Proof/Syntax.lean ====
section
/-! DEFINITION. The commands and events of the AZ-9416: one constructor per row of the opcode table, with its operands. -/

namespace Sys2Proof

/-- What an ECC check finds in the word an access or a scrubber reads (R150, R362, R363). -/
inductive Ecc where
  | ok | single | double
  deriving DecidableEq, Repr

/-- What a bus's wake mode reports (R814, R825). -/
inductive WakeSrc where
  | activity | pattern | selective | frameErr
  deriving DecidableEq, Repr

/-- What an armed wake filter sees that is not a wake event (R815, R817): a short dominant phase, a frame that does not
decode, a frame decoded without error. -/
inductive FilterSeen where
  | short | badFrame | goodFrame
  deriving DecidableEq, Repr

/-- The commands: one constructor per row of the opcode table. -/
inductive Instr where
  /-- REGISTER_WRITE (R18): A host write to a register field with no row of its own sets, clears or ignores the field according to its access code. -/
  | registerWrite (port : Fin 2) (word : BitVec 22) (value : Word)
  /-- RC_READ (R18): A read of an RC field returns its value and then clears it, with no event lost. -/
  | rcRead (port : Fin 2) (word : BitVec 22)
  /-- REG64_LOWER_WRITE (R1034): A write of the lower word of a 64-bit register sets the holding value that both host ports share, and does not act on its own. -/
  | reg64LowerWrite (port : Fin 2) (word : BitVec 22) (value : Word)
  /-- REG64_LOWER_READ (R67): A read of the lower word of a 64-bit register latches the upper word for the next upper-word read from the same port. -/
  | reg64LowerRead (port : Fin 2) (word : BitVec 22)
  /-- MW0_UNMAPPED_ACCESS (R65): An access to an unassigned MW0 offset reads 0 or is discarded, and REG_UNMAPPED is raised. -/
  | mw0UnmappedAccess (port : Fin 2) (word : BitVec 22) (store : Bool)
  /-- MW0_ACCESS_TIMEOUT (R62): An MW0 access with no response within 2 µs is completed by HIF with all ones or a discard, and REG_TIMEOUT is raised. -/
  | mw0AccessTimeout (port : Fin 2) (word : BitVec 22) (store : Bool)
  /-- MW2_ACCESS (R453): A host access through MW2 reaches engine memory, a shared bank or the FCT, or is denied and raises MW2_DENIED. -/
  | mw2Access (port : Fin 2) (off : BitVec 26) (len : Fin 513) (data : Option (List Byte)) (ecc : Ecc)
  /-- REFCLK_LOSS (R40): Four missing REFCLK_IN edges make the PLLs hold and move to the on-module oscillator, and REF_LOSS is raised. -/
  | refclkLoss
  /-- REF_REVERT (R41): After 1 s of clean REFCLK_IN with REF_REVERT set, the reference returns to REFCLK_IN. -/
  | refRevert
  /-- REF_SEL_WRITE (R77): A write to CLK_REF_CFG.REF_SEL changes the reference without loss of lock. -/
  | refSelWrite (port : Fin 2) (value : Word)
  /-- PLL_LOCK_LOSS (R43): The active PLL of a main domain loses lock, and the domain switches to its standby PLL, or a FATAL fault is raised when the standby is not locked. -/
  | pllLockLoss (pll : Fin 6)
  /-- PLL_SWITCH (R75): A write of CLK_PLL_CTRL.SWITCH requests a hitless switch of a main domain to its standby PLL. -/
  | pllSwitch (port : Fin 2) (value : Word)
  /-- FREQ_MON_WINDOW_END (R50): At the end of each monitor window, the cycle counts of the monitored clocks are compared with nominal, and failing domains are switched or SIO_SUSPECT is raised. -/
  | freqMonWindowEnd (counts : List (BitVec 24))
  /-- CLK_FALLBACK (R47): A failure of PLL_MDB or PLL_PSQ moves the domain to its fallback from CK_SW until PORST_N. -/
  | clkFallback (psq : Bool)
  /-- HIF_CLOCK_FAIL (R48): A failure of CK_HIF_A or CK_HIF_B takes only that host port down and orphans its rings. -/
  | hifClockFail (port : Fin 2)
  /-- PORST_N_ASSERT (R90): PORST_N low resets the whole module, sticky fields included, and FLT_N goes low. -/
  | porstNAssert
  /-- PORST_N_DEASSERT (R101): PORST_N deasserted with all supplies valid starts the boot flow at STAGE 0x0. -/
  | porstNDeassert
  /-- BOOT_SELF_TEST_DONE (R102): The supervisors finish their self-tests, the active supervisor is chosen, and the destructive march and PCIe training start. -/
  | bootSelfTestDone (ok0 ok1 : Bool)
  /-- BOOT_MARCH_DONE (R358): The BOOT march ends, failed units are marked, the bank maps are built and the NVM copies are compared. -/
  | bootMarchDone (fails : List (Fin 9 × Fin 128)) (nvmOk0 nvmOk1 : Bool)
  /-- FLASH_HEADERS_READ (R105): Slot headers and valid markers are read, update-log and trial records are settled, and the image is chosen or BOOT waits for a host image. -/
  | flashHeadersRead
  /-- IMAGE_HASH_DONE (R101): The chosen image has been read and hashed with SHA-384. -/
  | imageHashDone
  /-- SIGNATURE_CHECK_DONE (R106): The ECDSA signature check ends; firmware starts, or the other slot is tried, or BOOT waits for a host image. -/
  | signatureCheckDone
  /-- GEN_HOSTIMG_GO (R107): A write of GO while BOOT waits for a host image starts a DMA read of the host image. -/
  | genHostimgGo (port : Fin 2) (value : Word)
  /-- HOSTIMG_CHECK_DONE (R108): The host image has been read and checked; firmware starts, or the image is rejected and BOOT waits again. -/
  | hostimgCheckDone (version : Word) (dma : Option (List Byte))
  /-- GEN_MODE_REQ (R84): A write of GEN_MODE_REQ requests a mode transition, which is taken or refused with a cause. -/
  | genModeReq (port : Fin 2) (value : Word)
  /-- MODE (R494): The MODE command requests a mode transition exactly as a GEN_MODE_REQ write does, and completes when the transition has happened. -/
  | mode (ring : Fin 512) (p0 : BitVec 64)
  /-- WARM_RESET_REQUEST (R91): A write of GEN_RESET.WARM with the key starts the quiesce sequence that ends in a warm reset. -/
  | warmResetRequest (port : Fin 2) (key : BitVec 8)
  /-- BLOCK_RESET (R95): A write of GEN_RESET.BLK_GO with the key resets the named block, or is discarded with RESET_KEY. -/
  | blockReset (port : Fin 2) (key : BitVec 8) (blk : BitVec 5)
  /-- BLOCK_RESET_DONE (R95): A block reset completes within its stated time, and the block serves MW0 accesses again. -/
  | blockResetDone (blk : BitVec 5)
  /-- SC_LOCKSTEP_FAIL (R98): The active supervisor fails its lockstep self-check, and the standby takes over. -/
  | scLockstepFail
  /-- SC_WATCHDOG_EXPIRY (R98): The active supervisor misses its watchdog for 1 ms, and the standby takes over or, with both failed, a warm reset follows. -/
  | scWatchdogExpiry
  /-- SUPERVISOR_DOUBLE_FAIL (R100): Failure of both supervisors causes an immediate warm reset without quiesce. -/
  | supervisorDoubleFail
  /-- EJECT_N_ASSERT (R117): An accepted assertion of EJECT_N enters SAFE with cause EJECT and starts the eject quiesce. -/
  | ejectNAssert
  /-- EJECT_N_DEASSERT (R119): An accepted deassertion of EJECT_N with PRESENT_N low ends the eject quiesce, resumes polling and writes EJECT_ABORTED. -/
  | ejectNDeassert
  /-- QUIESCE_DRAIN_DONE (R117): Every started descriptor has completed and the rest are completed EJECTED or FLUSHED, and the EVT entry is written. -/
  | quiesceDrainDone
  /-- NVM_FLUSH_DONE (R117): Wear records, fault records and logs have been flushed to NVM during a quiesce. -/
  | nvmFlushDone
  /-- QUIESCE_COMPLETE (R117): GEN_MODE_STAT.QUIESCED becomes 1 and no further DMA is issued; a pending warm reset or STANDBY entry then proceeds. -/
  | quiesceComplete
  /-- STANDBY_REACHED (R823): The STANDBY entry sequence ends: filters are armed, clocks stop and the PCIe links go down. -/
  | standbyReached
  /-- STANDBY_WAKE (R825): A wake event in STANDBY records its source and starts a full boot. -/
  | standbyWake (src : Fin 8) (bus : Fin 8) (ide : Bool) (id : BitVec 29)
  /-- NOP (R225): An engine NOP in either slot does nothing. -/
  | nop (n : Fin 18) (last : Bool)
  /-- ADD (R225): rd = ra + rb modulo 2^32. -/
  | add (n : Fin 18) (rd ra rb : Fin 32) (last : Bool)
  /-- SUB (R225): rd = ra - rb modulo 2^32. -/
  | sub (n : Fin 18) (rd ra rb : Fin 32) (last : Bool)
  /-- AND (R225): rd = ra AND rb. -/
  | and (n : Fin 18) (rd ra rb : Fin 32) (last : Bool)
  /-- OR (R225): rd = ra OR rb. -/
  | or (n : Fin 18) (rd ra rb : Fin 32) (last : Bool)
  /-- XOR (R225): rd = ra XOR rb. -/
  | xor (n : Fin 18) (rd ra rb : Fin 32) (last : Bool)
  /-- SHL (R225): rd = ra shifted left by rb[4:0]. -/
  | shl (n : Fin 18) (rd ra rb : Fin 32) (last : Bool)
  /-- SHR (R225): rd = ra shifted right logically by rb[4:0]. -/
  | shr (n : Fin 18) (rd ra rb : Fin 32) (last : Bool)
  /-- SAR (R225): rd = ra shifted right arithmetically by rb[4:0]. -/
  | sar (n : Fin 18) (rd ra rb : Fin 32) (last : Bool)
  /-- SLT (R225): rd = 1 when ra < rb signed, else 0. -/
  | slt (n : Fin 18) (rd ra rb : Fin 32) (last : Bool)
  /-- SLTU (R225): rd = 1 when ra < rb unsigned, else 0. -/
  | sltu (n : Fin 18) (rd ra rb : Fin 32) (last : Bool)
  /-- MIN (R225): rd = signed minimum of ra and rb. -/
  | min (n : Fin 18) (rd ra rb : Fin 32) (last : Bool)
  /-- MAX (R225): rd = signed maximum of ra and rb. -/
  | max (n : Fin 18) (rd ra rb : Fin 32) (last : Bool)
  /-- ADDS (R225): rd = ra + rb clamped to Q1.31, setting RSAT on clamp. -/
  | adds (n : Fin 18) (rd ra rb : Fin 32) (last : Bool)
  /-- SUBS (R225): rd = ra - rb clamped to Q1.31, setting RSAT on clamp. -/
  | subs (n : Fin 18) (rd ra rb : Fin 32) (last : Bool)
  /-- ADDI (R225): rd = ra + sext(imm16). -/
  | addi (n : Fin 18) (rd ra : Fin 32) (imm : BitVec 16) (last : Bool)
  /-- ANDI (R225): rd = ra AND zext(imm16). -/
  | andi (n : Fin 18) (rd ra : Fin 32) (imm : BitVec 16) (last : Bool)
  /-- ORI (R225): rd = ra OR zext(imm16). -/
  | ori (n : Fin 18) (rd ra : Fin 32) (imm : BitVec 16) (last : Bool)
  /-- XORI (R225): rd = ra XOR zext(imm16). -/
  | xori (n : Fin 18) (rd ra : Fin 32) (imm : BitVec 16) (last : Bool)
  /-- SHLI (R225): rd = ra shifted left by imm16[4:0]. -/
  | shli (n : Fin 18) (rd ra : Fin 32) (imm : BitVec 16) (last : Bool)
  /-- SHRI (R225): rd = ra shifted right logically by imm16[4:0]. -/
  | shri (n : Fin 18) (rd ra : Fin 32) (imm : BitVec 16) (last : Bool)
  /-- SARI (R225): rd = ra shifted right arithmetically by imm16[4:0]. -/
  | sari (n : Fin 18) (rd ra : Fin 32) (imm : BitVec 16) (last : Bool)
  /-- SLTI (R225): rd = 1 when ra < sext(imm16) signed, else 0. -/
  | slti (n : Fin 18) (rd ra : Fin 32) (imm : BitVec 16) (last : Bool)
  /-- MOVI (R225): rd = sext(imm16). -/
  | movi (n : Fin 18) (rd : Fin 32) (imm : BitVec 16) (last : Bool)
  /-- LUI (R225): rd = imm16 shifted left by 16. -/
  | lui (n : Fin 18) (rd : Fin 32) (imm : BitVec 16) (last : Bool)
  /-- ABS (R225): rd = absolute value of ra, saturating 0x8000_0000 and setting RSAT. -/
  | abs (n : Fin 18) (rd ra : Fin 32) (last : Bool)
  /-- CLZ (R225): rd = number of leading zeros of ra. -/
  | clz (n : Fin 18) (rd ra : Fin 32) (last : Bool)
  /-- POPC (R225): rd = number of 1 bits in ra. -/
  | popc (n : Fin 18) (rd ra : Fin 32) (last : Bool)
  /-- BSWAP (R225): rd = ra with byte order reversed. -/
  | bswap (n : Fin 18) (rd ra : Fin 32) (last : Bool)
  /-- BREV (R225): rd = ra with bit order reversed. -/
  | brev (n : Fin 18) (rd ra : Fin 32) (last : Bool)
  /-- EXTU (R225): rd = zero-extended bit field of ra. -/
  | extu (n : Fin 18) (rd ra pos wm1 : Fin 32) (last : Bool)
  /-- EXTS (R225): rd = sign-extended bit field of ra. -/
  | exts (n : Fin 18) (rd ra pos wm1 : Fin 32) (last : Bool)
  /-- INS (R225): The low WIDTH bits of ra are inserted into rd at POS. -/
  | ins (n : Fin 18) (rd ra pos wm1 : Fin 32) (last : Bool)
  /-- CRC (R247): The CRC state in rd is updated with SIZE bytes of ra under the selected polynomial. -/
  | crc (n : Fin 18) (rd ra rb : Fin 32) (poly : Fin 8) (size uw : Fin 4) (uref : Bool) (last : Bool)
  /-- MPY (R243): The accumulator takes the rounded product of ra and rb. -/
  | mpy (n : Fin 18) (acc : Fin 4) (ra rb : Fin 32) (sat : Bool) (rnd : Fin 4) (last : Bool)
  /-- MAC (R244): The rounded product of ra and rb is added to the accumulator, saturating or wrapping. -/
  | mac (n : Fin 18) (acc : Fin 4) (ra rb : Fin 32) (sat : Bool) (rnd : Fin 4) (last : Bool)
  /-- MSU (R244): The rounded product of ra and rb is subtracted from the accumulator, saturating or wrapping. -/
  | msu (n : Fin 18) (acc : Fin 4) (ra rb : Fin 32) (sat : Bool) (rnd : Fin 4) (last : Bool)
  /-- MUL (R225): rd = low 32 bits of the integer product of ra and rb. -/
  | mul (n : Fin 18) (rd ra rb : Fin 32) (last : Bool)
  /-- EXT (R245): rd = accumulator scaled by 2^-SH, rounded and fitted to 32 bits. -/
  | ext (n : Fin 18) (rd : Fin 32) (acc : Fin 4) (sh : Fin 16) (sat : Bool) (rnd : Fin 4) (last : Bool)
  /-- SETACC (R246): The accumulator takes ra sign-extended to 40 bits. -/
  | setacc (n : Fin 18) (acc : Fin 4) (ra : Fin 32) (last : Bool)
  /-- SETG (R246): The accumulator guard bits take ra[7:0]. -/
  | setg (n : Fin 18) (acc : Fin 4) (ra : Fin 32) (last : Bool)
  /-- EXTG (R246): rd = sign-extended guard bits of the accumulator. -/
  | extg (n : Fin 18) (rd : Fin 32) (acc : Fin 4) (last : Bool)
  /-- GETF (R225): rd = sticky flag word. -/
  | getf (n : Fin 18) (rd : Fin 32) (last : Bool)
  /-- CLRF (R227): The sticky flag bits selected in imm16 are cleared. -/
  | clrf (n : Fin 18) (imm : BitVec 16) (last : Bool)
  /-- LB (R231): rd = sign-extended byte loaded from ra + simm16. -/
  | lb (n : Fin 18) (rd ra : Fin 32) (imm : BitVec 16) (ecc : Ecc)
  /-- LBU (R231): rd = zero-extended byte loaded. -/
  | lbu (n : Fin 18) (rd ra : Fin 32) (imm : BitVec 16) (ecc : Ecc)
  /-- LH (R231): rd = sign-extended 2 bytes loaded. -/
  | lh (n : Fin 18) (rd ra : Fin 32) (imm : BitVec 16) (ecc : Ecc)
  /-- LHU (R231): rd = zero-extended 2 bytes loaded. -/
  | lhu (n : Fin 18) (rd ra : Fin 32) (imm : BitVec 16) (ecc : Ecc)
  /-- LW (R231): rd = 4 bytes loaded. -/
  | lw (n : Fin 18) (rd ra : Fin 32) (imm : BitVec 16) (ecc : Ecc)
  /-- LD (R232): rd and rd + 1 = 8 bytes loaded. -/
  | ld (n : Fin 18) (rd ra : Fin 32) (imm : BitVec 16) (ecc : Ecc)
  /-- SB (R231): The byte rs[7:0] is stored. -/
  | sb (n : Fin 18) (rs ra : Fin 32) (imm : BitVec 16)
  /-- SH (R231): 2 bytes of rs are stored. -/
  | sh (n : Fin 18) (rs ra : Fin 32) (imm : BitVec 16)
  /-- SW (R231): 4 bytes of rs are stored. -/
  | sw (n : Fin 18) (rs ra : Fin 32) (imm : BitVec 16)
  /-- SD (R232): 8 bytes of rs and rs + 1 are stored. -/
  | sd (n : Fin 18) (rs ra : Fin 32) (imm : BitVec 16)
  /-- BEQ (R235): Branch with two delay slots when ra = rb. -/
  | beq (n : Fin 18) (ra rb : Fin 32) (imm : BitVec 16)
  /-- BNE (R235): Branch with two delay slots when ra differs from rb. -/
  | bne (n : Fin 18) (ra rb : Fin 32) (imm : BitVec 16)
  /-- BLT (R235): Branch when ra < rb signed. -/
  | blt (n : Fin 18) (ra rb : Fin 32) (imm : BitVec 16)
  /-- BGE (R235): Branch when ra >= rb signed. -/
  | bge (n : Fin 18) (ra rb : Fin 32) (imm : BitVec 16)
  /-- BLTU (R235): Branch when ra < rb unsigned. -/
  | bltu (n : Fin 18) (ra rb : Fin 32) (imm : BitVec 16)
  /-- BGEU (R235): Branch when ra >= rb unsigned. -/
  | bgeu (n : Fin 18) (ra rb : Fin 32) (imm : BitVec 16)
  /-- J (R234): Jump to a bundle index after two delay slots. -/
  | j (n : Fin 18) (idx : BitVec 14)
  /-- CALL (R238): Push the return address and jump to a bundle index, checking the stack limit. -/
  | call (n : Fin 18) (idx : BitVec 14)
  /-- JR (R234): Jump to the bundle address in ra[16:3]. -/
  | jr (n : Fin 18) (ra : Fin 32)
  /-- CALLR (R238): Push the return address and jump to the bundle address in ra. -/
  | callr (n : Fin 18) (ra : Fin 32)
  /-- RET (R239): Pop the return address and transfer to it, checking the stack top. -/
  | ret (n : Fin 18)
  /-- PUSH (R240): Push rn and rn + 1 onto the stack, checking the stack limit. -/
  | push (n : Fin 18) (rn : Fin 32)
  /-- POP (R240): Pop 8 bytes into rn and rn + 1, checking the stack top. -/
  | pop (n : Fin 18) (rn : Fin 32)
  /-- WAIT (R171): The engine sleeps in WAIT until an enabled event is pending. -/
  | wait (n : Fin 18)
  /-- FENCE (R229): The engine stalls until every earlier far store has been accepted. -/
  | fence (n : Fin 18)
  /-- BRK (R229): The engine halts after this bundle with HALT_CAUSE = 2. -/
  | brk (n : Fin 18)
  /-- ILLEGAL_BUNDLE (R219): A bundle with an undefined encoding executes neither slot and raises ILLEGAL, then halts or acts as NOP. -/
  | illegalBundle (n : Fin 18)
  /-- BREAKPOINT_HIT (R182): The bundle at PE_BP.ADDR is about to issue with EN = 1, so it is not issued and the engine halts. -/
  | breakpointHit (n : Fin 18)
  /-- FAR_LOAD_RETURN (R142): The data of a far load return and the engine's stall ends. -/
  | farLoadReturn (n : Fin 18) (ecc : Ecc)
  /-- FAR_STORE_ACCEPTED (R143): A posted far store is accepted by its target and its write-buffer entry frees. -/
  | farStoreAccepted (n : Fin 18) (ecc : Ecc)
  /-- FAR_TIMEOUT (R145): A far access with no response within 2 µs is ended and FAR_TIMEOUT is raised. -/
  | farTimeout (n : Fin 18)
  /-- FAU_FETCH_AHEAD_DONE (R157): The handle and first 256 bytes of the next frame of a queue have been fetched ahead. -/
  | fauFetchAheadDone (n : Fin 18) (q : Fin 8)
  /-- FAU_RX_POP (R154): A read of FAU_RX_POP opens the oldest frame of the highest enabled non-empty queue and returns its handle. -/
  | fauRxPop (n : Fin 18)
  /-- FAU_RX_DONE_FREE (R160): A write of FAU_RX_DONE with ACTION FREE closes the open frame and releases its cells. -/
  | fauRxDoneFree (n : Fin 18)
  /-- FAU_RX_DONE_FORWARD (R160): A write of FAU_RX_DONE with ACTION FORWARD enqueues the open frame with its edits to the named ports. -/
  | fauRxDoneForward (n : Fin 18) (ports : BitVec 16) (queue : Fin 8) (oneStep : Bool)
  /-- FAU_TX_ALLOC (R162): A write of a length to FAU_TX_ALLOC requests cells for a new frame from the slot's quota. -/
  | fauTxAlloc (n : Fin 18) (value : Word)
  /-- FAU_TX_BASE_WRITE (R163): A change of FAU_TX_BASE writes the staging buffer to the cells and moves the window. -/
  | fauTxBaseWrite (n : Fin 18) (value : Word)
  /-- FAU_TX_SEND_PORTS (R164): A write of FAU_TX_SEND with ACTION 0b01 closes the transmit frame and sends it to the named ports. -/
  | fauTxSendPorts (n : Fin 18) (ports : BitVec 16) (queue : Fin 8) (oneStep : Bool)
  /-- FAU_TX_SEND_HOST (R164): A write of FAU_TX_SEND with ACTION 0b10 places the frame on the named host FRX ring. -/
  | fauTxSendHost (n : Fin 18) (ring : Fin 512)
  /-- FAU_TX_ABANDON (R164): A write of FAU_TX_SEND with ACTION 0b00 abandons the transmit frame and frees its cells. -/
  | fauTxAbandon (n : Fin 18)
  /-- ETM_SNAP_REQ (R167): A write of ETM_SNAP_REQ latches ETM_CYCLES and requests a time base snapshot. -/
  | etmSnapReq (n : Fin 18)
  /-- SNAPSHOT_ARRIVED (R167): The requested time base snapshot arrives in ETM_SNAP_NS and ETM_SNAP_FRAC. -/
  | snapshotArrived (n : Fin 18)
  /-- ETM_TIMER_ENABLE (R170): Enabling an engine timer starts it, and an absolute timer with a past compare fires at once with LATE. -/
  | etmTimerEnable (n : Fin 18) (t : Fin 4) (absolute periodic : Bool)
  /-- ETM_TIMER_FIRE (R168): An engine timer reaches its compare value and fires, adding its period when periodic. -/
  | etmTimerFire (n : Fin 18) (t : Fin 4)
  /-- ENGINE_EVENT_WAKE (R171): An enabled event becomes pending and the engine leaves WAIT within 3 cycles. -/
  | engineEventWake (n : Fin 18)
  /-- ECS_BOUNDARY (R173): A write of ECS_BOUNDARY marks a cycle boundary and, with a stop pending and no frame open, stops the engine. -/
  | ecsBoundary (n : Fin 18)
  /-- ECS_WDOG_KICK (R176): A write of ECS_WDOG_KICK restarts the engine watchdog. -/
  | ecsWdogKick (n : Fin 18)
  /-- ENGINE_WATCHDOG_EXPIRY (R176): The engine watchdog expires without a boundary or kick and raises WDOG. -/
  | engineWatchdogExpiry (n : Fin 18)
  /-- ETM_TXTS_POP (R667): A read of ETM_TXTS_INFO returns and removes the head transmit timestamp entry. -/
  | etmTxtsPop (n : Fin 18)
  /-- PE_START (R179): PE_CTRL.START starts a LOADED engine or resumes a STOPPED or halted one at PC. -/
  | peStart (port : Fin 2) (n : Fin 18)
  /-- PE_STOP (R174): PE_CTRL.STOP places a stop request that acts at the next stop point. -/
  | peStop (port : Fin 2) (n : Fin 18)
  /-- PE_HALT (R147): PE_CTRL.HALT stops the engine at once after completing the issued bundles. -/
  | peHalt (port : Fin 2) (n : Fin 18)
  /-- PE_RESET (R185): PE_CTRL.RESET starts an engine reset. -/
  | peReset (port : Fin 2) (n : Fin 18)
  /-- PE_STEP (R179): PE_CTRL.STEP in HALT executes one bundle with HALT_CAUSE = 4. -/
  | peStep (port : Fin 2) (n : Fin 18)
  /-- ENGINE_RESET_DONE (R185): An engine reset completes, register state returns to start values and an open frame is redelivered or freed. -/
  | engineResetDone (n : Fin 18)
  /-- PE_DBG_DATA_ACCESS (R208): An access to PE_DBG_DATA reads or writes the engine register chosen by PE_DBG_SEL, or returns all ones while running. -/
  | peDbgDataAccess (port : Fin 2) (n : Fin 18) (write : Option Word)
  /-- ENGINE_SCRUB_STEP (R151): Every 1,024 cycles the scrubber reads and corrects one word of IMEM and DMEM. -/
  | engineScrubStep (n : Fin 18) (imem dmem : Ecc)
  /-- DECISION_PERIOD_END (R190): At the end of each 10 ms period engines and MEM transfer their counts and HLTH measures ring oscillators, eyes and indices. -/
  | decisionPeriodEnd (measures : List (Fin 13 × Fin 128 × Option Nat)) (cycles : List (Fin 16 × Nat))
  /-- PERS_KEY_ADD (R254): The command adds a public key to the personality key table. -/
  | persKeyAdd (ring : Fin 512) (p0 : BitVec 64) (dma : Option (List Byte))
  /-- PERS_KEY_REVOKE (R254): The command revokes an entry of the personality key table. -/
  | persKeyRevoke (ring : Fin 512) (p0 : BitVec 64)
  /-- PERS_LOAD (R265): The command reads a personality image by DMA, checks it and places it in the store. -/
  | persLoad (ring : Fin 512) (p0 p1 : BitVec 64) (dma : Option (List Byte))
  /-- PERS_DROP (R267): The command removes an unbound image from the store. -/
  | persDrop (ring : Fin 512) (p0 : BitVec 64)
  /-- PERS_CAPS (R275): The command writes an image's capability records to a host buffer. -/
  | persCaps (ring : Fin 512) (p0 p1 : BitVec 64)
  /-- PERS_BIND (R270): The command binds a stored image to a slot, loads an engine and grants the slot's resources. -/
  | persBind (ring : Fin 512) (p0 p1 p2 : BitVec 64) (dma : Option (List Byte)) (readOk : Bool)
  /-- PERS_UNBIND (R273): The command places a stop request on the slot's engine and then releases the slot. -/
  | persUnbind (ring : Fin 512) (p0 : BitVec 64)
  /-- PERS_UNBIND_TIMEOUT (R273): BOUNDARY_MAX passes without a stop point, and the unbind is forced. -/
  | persUnbindTimeout (slot : Fin 16)
  /-- MIG_START (R276): The command starts a Mirage migration of a slot to a target engine. -/
  | migStart (ring : Fin 512) (p0 p1 : BitVec 64)
  /-- MIG_ABORT (R292): The command abandons a running migration before its blackout. -/
  | migAbort (ring : Fin 512)
  /-- ENG_RETIRE (R294): The command retires a physical engine, migrating or shedding its slot first. -/
  | engRetire (ring : Fin 512) (p0 : BitVec 64)
  /-- MIG_PREPARE_DONE (R278): The target's IMEM has been loaded and checked, and PRECOPY starts. -/
  | migPrepareDone (readOk : Bool)
  /-- PRECOPY_PASS_END (R281): A PRECOPY pass ends; a stop is requested, a further pass runs, or the migration is abandoned with NO_CONVERGE. -/
  | precopyPassEnd
  /-- MIG_NO_BOUNDARY (R282): BOUNDARY_MAX passes in STOPWAIT without a stop point, and the migration is abandoned. -/
  | migNoBoundary
  /-- MIG_SOURCE_STOPPED (R286): The source stops; the blackout runs, or with too many dirty lines the source resumes and PRECOPY returns. -/
  | migSourceStopped (ns : Fin 5001)
  /-- MIG_DEADLINE_EXPIRY (R287): A blackout step misses its deadline before commit, and the migration is abandoned with DEADLINE. -/
  | migDeadlineExpiry (ns : Fin 5001)
  /-- WADI_DECISION (R313): After each period Wadi restarts halted slots, offers or starts one placement action, sheds or restores work and adjusts quotas. -/
  | wadiDecision (readBad : List (Fin 16))
  /-- WADI_ACCEPT (R322): The command accepts an open proposal under the APPROVE policy. -/
  | wadiAccept (ring : Fin 512) (p0 : BitVec 64)
  /-- WADI_VETO (R322): The command vetoes an open proposal under the VETO policy. -/
  | wadiVeto (ring : Fin 512) (p0 : BitVec 64)
  /-- FUNC_MODE_WRITE (R339): A write of WADI_FUNCn.FUNC_MODE that differs from CUR sets PENDING, or cancels a pending request. -/
  | funcModeWrite (port : Fin 2) (func : Fin 8) (value : Word)
  /-- FUNC_SWITCH_POINT (R339): A function reaches its switch point, CUR takes the new mode and FUNC_MOVED is written. -/
  | funcSwitchPoint (func : Fin 8)
  /-- FUNC_SWITCH_TIMEOUT (R340): A switch point is not reached within its bound, and the move is refused. -/
  | funcSwitchTimeout (func : Fin 8)
  /-- FUNC_RING_ORPHAN_TIMEOUT (R342): Rings of a host-assisted function stay orphaned for 100 ms, and the function returns to hardware or stops. -/
  | funcRingOrphanTimeout (func : Fin 8)
  /-- BANK_SCRUB_STEP (R365): Every INTERVAL cycles a bank's scrubber reads and corrects one word or buffer row. -/
  | bankScrubStep (buffer : Bool) (bank : Fin 72) (ecc : Ecc)
  /-- MEM_OWN_REQ (R372): A write of MEM_OWN_REQ starts a handover of a logical bank to a new owner, or is refused. -/
  | memOwnReq (port : Fin 2) (bank owner : Fin 64)
  /-- HANDOVER_MARKER_ARRIVE (R373): The drain marker reaches the bank, and the new owner takes effect. -/
  | handoverMarkerArrive
  /-- HANDOVER_FORCE_TIMEOUT (R374): The marker has not arrived after 20 µs, and the handover is forced. -/
  | handoverForceTimeout
  /-- MEM_MARCH_REQ (R384): A write of MEM_MARCH_REQ.GO starts a march on one physical bank, or is refused. -/
  | memMarchReq (port : Fin 2) (preserving buffer : Bool) (bank : Fin 128)
  /-- MARCH_DONE (R383): A requested march ends with PASS or FAIL. -/
  | marchDone (failWords : Nat)
  /-- MEM_REPAIR_REQ (R401): A write of MEM_REPAIR_REQ.GO asks Wadi to repair a logical bank at its next decision. -/
  | memRepairReq (port : Fin 2) (buffer : Bool) (logical : Fin 64)
  /-- REPAIR_MARCH_DONE (R386): The marches of a repair end; COPY starts, or the repair is abandoned with SPARE_FAIL. -/
  | repairMarchDone (spareOk origOk : Bool)
  /-- REPAIR_COPY_DONE (R385): Every word has been copied, and the repair entry is written to NVM. -/
  | repairCopyDone
  /-- REPAIR_COMMIT (R385): The NVM write completes, COMMIT sets and the logical bank is served by the spare. -/
  | repairCommit (nvmOk : Bool)
  /-- REPAIR_ORIG_FAIL (R388): The original bank fails outright during COPY, and the repair is abandoned with ORIG_FAIL. -/
  | repairOrigFail
  /-- MBX_SEND (R413): A write of OUT_SENDc posts the message into the route's inbound mailbox, or is rejected. -/
  | mbxSend (ep : Fin 19) (c : Fin 4) (value : Word)
  /-- MBX_DATA_WRITE (R420): A write of OUT_DATAc places a word in the target mailbox, or is rejected or overwrites as the route's mode sets. -/
  | mbxDataWrite (ep : Fin 19) (c : Fin 4) (i : Fin 16) (value : Word)
  /-- MBX_IN_READ (R417): A read of an inbound data word returns it, and a read of word LEN - 1 clears FULL. -/
  | mbxInRead (ep : Fin 19) (k : Fin 4) (i : Fin 16)
  /-- DB_RING (R424): A write of DB_RINGn sets doorbell bits [27:4] at endpoint n. -/
  | dbRing (ep : Fin 19) (n : Fin 32) (value : Word)
  /-- MBX_ROUTE_WRITE (R411): A write of MBX_ROUTEn changes a route, or is discarded with ROUTE_ERR. -/
  | mbxRouteWrite (port : Fin 2) (i : Fin 76) (value : Word)
  /-- MBX_HOST_RESET_A (R443): A write of MBX_HOST_RESET.A resets endpoint 17. -/
  | mbxHostResetA (port : Fin 2)
  /-- MBX_HOST_RESET_B (R443): A write of MBX_HOST_RESET.B resets endpoint 18, or has no effect in bonded operation. -/
  | mbxHostResetB (port : Fin 2)
  /-- MBX_AGE_EXPIRY (R435): A posted message stays unread beyond MBX_AGE_LIMIT, and AGED and doorbell 31 are set at both ends. -/
  | mbxAgeExpiry (ep : Fin 19) (k : Fin 4)
  /-- RING_BIND (R459): A write of HIF_RINGr_CFG.EN = 1 to a DISABLED ring binds it to the writing port, or is refused. -/
  | ringBind (port : Fin 2) (ring : Fin 512) (value : Word)
  /-- RING_UNBIND (R461): A write of EN = 0 puts an ACTIVE ring in DRAINING, or disables a STOPPED or ORPHANED ring at once. -/
  | ringUnbind (port : Fin 2) (ring : Fin 512)
  /-- RING_DRAIN_DONE (R461): A DRAINING ring has finished its started work and becomes DISABLED or ORPHANED. -/
  | ringDrainDone (ring : Fin 512)
  /-- DB_BASE_WRITE (R505): A write of HIF_DB_BASE_A or HIF_DB_BASE_B sets the doorbell page, or is discarded with CTX_WRITE. -/
  | dbBaseWrite (port page : Fin 2) (value : BitVec 64)
  /-- DOORBELL_POLL (R467): The module reads the doorbell page lines of a port and accepts changed slots. -/
  | doorbellPoll (port : Fin 2) (slots : List (Fin 512 × Word))
  /-- FTX_FRAME (R470): An FTX descriptor chain is read and its frame is queued for its destinations or completed with an error. -/
  | ftxFrame (ring : Fin 512) (descs : List (BitVec 64 × BitVec 64)) (data : List Byte) (ecc : Option (Fin 33024 × Ecc))
  /-- FRX_FRAME_DELIVER (R471): A frame queued for an FRX ring is written into posted buffers and completed. -/
  | frxFrameDeliver (ring : Fin 512) (bufs : List (BitVec 64 × BitVec 64))
  /-- PDX_TRANSFER (R474): A PDX descriptor moves data between host memory and a shared bank as the ring's owner. -/
  | pdxTransfer (ring : Fin 512) (q0 q1 q2 q3 : BitVec 64) (data : List Byte) (ecc : Option (Fin 16384 × Ecc))
  /-- COMMAND_TAKE (R492): The supervisor takes the next command of a CMD ring and executes it. -/
  | commandTake (ring : Fin 512) (code : BitVec 8) (p0 p1 p2 : BitVec 64) (dma : Option (List Byte)) (readOk : Bool) (high : BitVec 8)
  /-- DMA_READ_ERROR (R480): A DMA read fails, DMA_ERR is raised and the ring, command or poll fares as its kind requires. -/
  | dmaReadError (port : Fin 2) (ring : Option (Fin 512)) (fetched : Bool) (addr : BitVec 64) (size : Fin 4097)
  /-- MSIX_MODERATION_EXPIRY (R484): MOD µs pass since a ring last raised its vector, and the vector is raised for the entries written since. -/
  | msixModerationExpiry (ring : Fin 512)
  /-- HOST_LINK_DOWN (R486): A host port's link leaves DL_Active, and new DMA and polling pause. -/
  | hostLinkDown (port : Fin 2)
  /-- HOST_LINK_UP (R450): A host port's link returns to DL_Active, within GRACE losing nothing. -/
  | hostLinkUp (port : Fin 2) (width speed : Fin 5)
  /-- HOST_BME_CHANGE (R450): Bus Master Enable of a port changes, and DMA stops or resumes. -/
  | hostBmeChange (port : Fin 2) (on : Bool)
  /-- HOST_D3HOT_ENTRY (R450): The host port's function enters D3hot, and the port is lost at once. -/
  | hostD3hotEntry (port : Fin 2)
  /-- HIF_PERST (R1013): HIF_PERST_x_N low holds the port's link down and its configuration space at reset, and its release retrains. -/
  | hifPerst (port : Fin 2) (low : Bool)
  /-- HOST_PORT_LOST (R486): GRACE expires or a port fails at once, its rings are orphaned and rolled back and DEGRADED is entered. -/
  | hostPortLost (port : Fin 2)
  /-- RING_ADOPT (R488): The command makes named orphaned rings ACTIVE under the issuing port, all or none. -/
  | ringAdopt (ring : Fin 512) (p0 p1 p2 : BitVec 64) (dma : Option (List Byte))
  /-- RING_RELEASE (R491): The command drains an ACTIVE ring of the issuing port and leaves it ORPHANED. -/
  | ringRelease (ring : Fin 512) (p0 p1 p2 : BitVec 64)
  /-- IMG_UPD_START (R495): The command starts an image update by logging START and erasing the target slot. -/
  | imgUpdStart (ring : Fin 512) (p0 p1 : BitVec 64)
  /-- IMG_UPD_DATA (R495): The command programs one chunk of the image. -/
  | imgUpdData (ring : Fin 512) (p0 p1 p2 : BitVec 64) (dma : Option (List Byte))
  /-- IMG_UPD_FINISH (R495): The command verifies the image, writes the valid marker and logs COMPLETE. -/
  | imgUpdFinish (ring : Fin 512)
  /-- IMG_UPD_CANCEL (R495): The command abandons the update and logs INCOMPLETE. -/
  | imgUpdCancel (ring : Fin 512)
  /-- IMG_CONFIRM (R496): The command confirms a trial image, clears TRIAL and logs CONFIRMED. -/
  | imgConfirm (ring : Fin 512)
  /-- IMG_MIN_VERSION (R110): The command sets the minimum image version in NVM. -/
  | imgMinVersion (ring : Fin 512) (p0 p1 : BitVec 64)
  /-- MAC_ENABLE (R516): A write of MAC_CTRL.EN = 1 starts the port's link search; EN = 0 disables the port. -/
  | macEnable (port : Fin 2) (n : Fin 16) (en : Bool)
  /-- MAC_RENEG (R527): A write of MAC_CTRL.RENEG ends the present link or attempt and restarts the search. -/
  | macReneg (port : Fin 2) (n : Fin 16)
  /-- MAC_PORT_RESET (R528): A write of MAC_CTRL.RESET resets the MAC, PCS and lane within 1 µs. -/
  | macPortReset (port : Fin 2) (n : Fin 16)
  /-- NEG_DWELL_EXPIRY (R516): An attempt lasts DWELL without meeting its link criterion, and the next allowed mode is tried. -/
  | negDwellExpiry (n : Fin 16) (noCommon : Bool)
  /-- NEG_MODE_SWITCH (R518): An attempt receives words of a USXGMII or SGMII partner and switches to that mode with a fresh DWELL. -/
  | negModeSwitch (n : Fin 16)
  /-- LINK_UP (R522): An attempt meets its link criterion; the link is up and MAC_LINK is written. -/
  | linkUp (n : Fin 16) (mode rate : Fin 8) (fec : Bool) (word : BitVec 16)
  /-- LINK_DOWN (R523): The PCS reports a loss; the link goes down, frames in transit are aborted and the search restarts. -/
  | linkDown (n : Fin 16)
  /-- MAC_FAIL (R530): The lane's transmit PLL stays unlocked for 1 ms or a second parity failure occurs; the port goes down. -/
  | macFail (n : Fin 16)
  /-- MAC_PARITY_FAIL (R530): A first MAC datapath parity failure resets the port. -/
  | macParityFail (n : Fin 16)
  /-- RX_FRAME (R29): A frame received on a port is time-stamped, checked, classified, buffered and enqueued or dropped. -/
  | rxFrame (n : Fin 16) (bytes : List Byte) (aborted code : Bool) (ecc : Option (Nat × Ecc))
  /-- PAUSE_EXPIRY (R549): The pause time of a received PAUSE ends, and the transmitter resumes. -/
  | pauseExpiry (n : Fin 16)
  /-- TX_FRAME_START (R532): The transmitter becomes free and starts the oldest frame of the highest open non-empty queue, with its edits. -/
  | txFrameStart (n : Fin 16) (drift : Int)
  /-- TX_FRAME_END (R573): A frame copy has been sent; its cells free after the last copy and a timestamp entry is placed. -/
  | txFrameEnd (n : Fin 16) (bufUe : Bool)
  /-- COUNTER_ACCUMULATE (R553): The supervisor reads every data counter and updates its 64-bit totals. -/
  | counterAccumulate
  /-- MAC_CNT_READ (R553): The command writes the 64-bit totals of one port to host memory. -/
  | macCntRead (ring : Fin 512) (p0 p1 : BitVec 64)
  /-- LEARN_ACTION_APPLY (R588): One queued learn action is applied to the FCT or reported, every 8 cycles. -/
  | learnActionApply
  /-- AGEING_SCAN_STEP (R590): The ageing scan visits 256 entries, clearing HIT, advancing AGE or invalidating. -/
  | ageingScanStep
  /-- FCT_ADD (R592): The command places an exact entry, relocating or evicting as needed. -/
  | fctAdd (ring : Fin 512) (p0 : BitVec 64) (dma : Option (List Byte))
  /-- FCT_DEL (R593): The command clears the exact entry of a key. -/
  | fctDel (ring : Fin 512) (p0 : BitVec 64) (dma : Option (List Byte))
  /-- FCT_READ (R593): The command copies FCT entries to host memory. -/
  | fctRead (ring : Fin 512) (p0 p1 p2 : BitVec 64)
  /-- FCT_WRITE (R593): The command writes one FCT entry at an index. -/
  | fctWrite (ring : Fin 512) (p0 p1 : BitVec 64) (dma : Option (List Byte))
  /-- FCT_FENCE (R596): The command increments the FCT generation and completes when old frames are gone. -/
  | fctFence (ring : Fin 512)
  /-- SWC_FCT_FENCE (R596): A write of SWC_FCT_FENCE.GO increments the generation and sets BUSY, or is refused. -/
  | swcFctFence (port : Fin 2)
  /-- FENCE_DONE (R596): The frames of every older generation are gone, and BUSY clears with DONE. -/
  | fenceDone
  /-- FENCE_TIMEOUT (R597): BUSY stays set for FENCE_MAX, clears with TIMEOUT and raises FENCE_TIMEOUT. -/
  | fenceTimeout
  /-- FCT_SUBARRAY_REMAP (R598): A sub-array copy completes, the remap is recorded in NVM and the logical sub-array moves to the spare. -/
  | fctSubarrayRemap
  /-- FCT_SUBARRAY_LOST (R599): A sub-array fails with no spare; its entries stop matching and FCT_LOST is written. -/
  | fctSubarrayLost (sub : Fin 16)
  /-- PORT_REMOVE (R615): A write of SWC_PORTn_CFG.REMOVE = 1 stops admission to the port and starts its drain. -/
  | portRemove (port : Fin 2) (n : Fin 16) (remove : Bool)
  /-- PORT_DRAIN_EXPIRY (R615): SWC_DRAIN_MAX passes, remaining frames are dropped, DRAINED sets and PORT_DRAINED is written. -/
  | portDrainExpiry (n : Fin 16)
  /-- GATE_CYCLE_START (R610): A gate cycle starts, runs its list from entry 0 and applies a pending bank change. -/
  | gateCycleStart (n : Fin 16)
  /-- GATE_ENTRY_CHANGE (R610): A gate list entry's interval ends and the next entry's gate states take effect. -/
  | gateEntryChange (n : Fin 16)
  /-- GATE_BANK_SWITCH (R611): A write of SWC_GATEn_CFG.SWITCH sets PEND for a bank change at the next cycle start. -/
  | gateBankSwitch (port : Fin 2) (n : Fin 16)
  /-- TIME_FREQ_WRITE (R644): A write of TIME_FREQ sets the time base rate, if the steering source allows. -/
  | timeFreqWrite (port : Fin 2) (value : Word)
  /-- TIME_STEP (R651): The upper-word write of TIME_STEP adds a signed step to the time base. -/
  | timeStep (port : Fin 2) (value : Word)
  /-- TIME_SLEW (R652): A write of TIME_SLEW starts a slew of the given amount. -/
  | timeSlew (port : Fin 2) (value : Word)
  /-- SLEW_COMPLETE (R652): A slew has added its whole amount, and SLEWING clears. -/
  | slewComplete
  /-- TIME_SET (R651): The upper-word write of TIME_SET_SEC replaces SEC and NS of the time base. -/
  | timeSet (port : Fin 2) (value : Word)
  /-- TIME_NOW_FRAC_READ (R683): A read of TIME_NOW_FRAC returns FRAC and latches NS and SEC of that cycle. -/
  | timeNowFracRead (port : Fin 2)
  /-- STEER_FREQ (R655): A FREQ steering message sets the time base rate when its sender may steer. -/
  | steerFreq (k : Fin 4)
  /-- STEER_STEP (R655): A STEP steering message steps the time base when its sender may steer. -/
  | steerStep (k : Fin 4)
  /-- STEER_SLEW (R655): A SLEW steering message starts a slew when its sender may steer. -/
  | steerSlew (k : Fin 4)
  /-- LINK_DELAY (R655): A LINK_DELAY message writes TIME_PORTn_LINKDLY. -/
  | linkDelay (k : Fin 4)
  /-- STEER_MSG_INVALID (R656): A message to endpoint 16 with an unknown OP or wrong length is taken, not applied and counted in STEER_REJ. -/
  | steerMsgInvalid (k : Fin 4)
  /-- TIO_CAPTURE (R672): A selected edge on a capture pin is time-stamped and queued, or lost when the queue is full. -/
  | tioCapture (pin : Fin 16) (rising : Bool)
  /-- TIO_CAP_READ (R673): A read of TIOn_CAP returns the head capture and removes it at the upper-word read. -/
  | tioCapRead (port : Fin 2) (pin : Fin 16)
  /-- TIO_ENABLE (R674): Enabling a timed pin starts its function, and a past SINGLE time changes the pin at once with LATE. -/
  | tioEnable (port : Fin 2) (pin : Fin 16) (value : Word)
  /-- TIO_SINGLE_EDGE (R670): A SINGLE output changes to LEVEL at its scheduled time. -/
  | tioSingleEdge (pin : Fin 16)
  /-- TIO_PERIODIC_EDGE (R670): A PERIODIC output gives a leading edge at its scheduled time. -/
  | tioPeriodicEdge (pin : Fin 16)
  /-- TIO_PPS_EDGE (R670): A PPS output gives a leading edge as NS passes 0. -/
  | tioPpsEdge (pin : Fin 16)
  /-- TIO_PULSE_END (R670): A PERIODIC or PPS pulse ends after WIDTH. -/
  | tioPulseEnd (pin : Fin 16)
  /-- CVN_CHANNEL_ENABLE (R695): A write of CVN_CHc_CFG.EN = 1 starts the channel in TRAIN, or is discarded without an address. -/
  | cvnChannelEnable (port c : Fin 2) (value : Word)
  /-- CVN_TRAIN_DONE (R700): A Caravan port finishes training at 10 or 2.5 Gbit/s, and the channel may enter LISTEN. -/
  | cvnTrainDone (port : Fin 4) (slow : Bool) (nbr : Fin 4096) (ring : Fin 256) (nbrIsD : Bool)
  /-- CVN_TRAIN_TIMEOUT (R700): Training at 10 Gbit/s fails within 10 ms, and the port trains at 2.5 Gbit/s. -/
  | cvnTrainTimeout (port : Fin 4)
  /-- CVN_CYCLE_START (R703): A Caravan cycle starts when the time base reaches n x CYCLE. -/
  | cvnCycleStart
  /-- CVN_CS_SEND (R709): The first node or a cold-starter sends its CS frame at G. -/
  | cvnCsSend (c : Fin 2) (late : Bool)
  /-- CVN_MOVER_START (R724): At ACT - 1,000 ns the data mover reads a transmit entry's latest publication. -/
  | cvnMoverStart (c : Fin 2) (e : Fin 256) (complete : Bool) (ecc : Ecc)
  /-- CVN_SLOT_SEND (R724): At ACT the node sends DATA, NULL or LEAVE in its slot, under the guardian. -/
  | cvnSlotSend (c : Fin 2) (e : Fin 256) (late : Bool)
  /-- CVN_COMMIT_SEND (R735): The first node sends COMMIT in the tail after comparing ACK with PRESENT. -/
  | cvnCommitSend (c : Fin 2) (late : Bool)
  /-- DLY_REQ_SEND (R715): A node sends DLY_REQ on each Caravan port in the tail. -/
  | dlyReqSend (c : Fin 2)
  /-- CS_FRAME_RX (R717): A received CS frame is repeated and aligns the node's time base and state. -/
  | csFrameRx (port : Fin 4) (bytes : List Byte) (resid : Nat)
  /-- DATA_FRAME_RX (R722): A received DATA frame is checked and published into a receive entry's triple buffer. -/
  | dataFrameRx (port : Fin 4) (bytes : List Byte) (resid : Nat)
  /-- NULL_FRAME_RX (R722): A received NULL frame sets CTL.NULL of its receive entry. -/
  | nullFrameRx (port : Fin 4) (bytes : List Byte) (resid : Nat)
  /-- LEAVE_FRAME_RX (R722): A received LEAVE frame sets CTL.LEFT of its receive entry. -/
  | leaveFrameRx (port : Fin 4) (bytes : List Byte) (resid : Nat)
  /-- COMMIT_FRAME_RX (R735): A received COMMIT frame makes the node switch banks at N + 2 or keep its mode. -/
  | commitFrameRx (port : Fin 4) (bytes : List Byte) (resid : Nat)
  /-- DLY_REQ_RX (R715): A received DLY_REQ is answered with DLY_RSP after 200 ns to 300 ns. -/
  | dlyReqRx (port : Fin 4) (bytes : List Byte) (turn : Nat)
  /-- DLY_RSP_RX (R716): A received DLY_RSP yields a link delay value that updates the mean. -/
  | dlyRspRx (port : Fin 4) (bytes : List Byte)
  /-- CVN_OWN_FRAME_RETURN (R711): A frame with the node's own SRC returns, is removed and its EDGE is read. -/
  | cvnOwnFrameReturn (port : Fin 4) (bytes : List Byte)
  /-- CVN_SLOT_MISSED (R722): No frame of a receive slot arrives for a cycle, and MISSED is set. -/
  | cvnSlotMissed (c : Fin 2) (e : Fin 256)
  /-- CVN_CS_MISSING (R730): No CS frame arrives in 2 consecutive cycles, and the channel returns to LISTEN. -/
  | cvnCsMissing (c : Fin 2)
  /-- CVN_LISTEN_TIMEOUT (R731): The LISTEN time passes with no CS, and the node enters COLDSTART when allowed. -/
  | cvnListenTimeout (c : Fin 2)
  /-- CVN_LOOPBACK_END (R729): Both ends end the loopback at the start of the named cycle. -/
  | cvnLoopbackEnd (c : Fin 2)
  /-- CVN_LEAVE (R726): The node announces its leave in two consecutive cycles and then sends nothing of its own. -/
  | cvnLeave (c : Fin 2)
  /-- CVN_BANK_VALIDATE (R714): A write of VALID = 1 to a bank header checks the bank against the rate in force. -/
  | cvnBankValidate (port c bank : Fin 2) (value : Word)
  /-- CVN_TABLE_MESSAGE (R742): A table message to endpoint 16 makes the supervisor copy a bank image into the inactive bank. -/
  | cvnTableMessage (k : Fin 4) (ecc : Ecc)
  /-- CVN_MODE (R735): The command requests a Caravan mode change on the first node. -/
  | cvnMode (ring : Fin 512) (p0 : BitVec 64)
  /-- CVN_TABLE (R743): The command loads a bank image from host memory into the inactive bank. -/
  | cvnTable (ring : Fin 512) (p0 p1 : BitVec 64) (dma : Option (List Byte))
  /-- MDB_TX_REQUEST (R772): A write of TX_GO.REQUEST makes a transmit buffer pending. -/
  | mdbTxRequest (l : Fin 16) (bus : Fin 8) (buf : Fin 32)
  /-- MDB_TX_ABORT (R777): A write of TX_GO.ABORT aborts a pending or held buffer. -/
  | mdbTxAbort (l : Fin 16) (bus : Fin 8) (buf : Fin 32)
  /-- MDB_TX_DONE_POP (R776): A read of TX_DONE returns and removes the head completion entry. -/
  | mdbTxDonePop (l : Fin 16) (bus : Fin 8)
  /-- MDB_RX_POP (R776): A read of RX_POP closes the open receive entry and opens the next. -/
  | mdbRxPop (l : Fin 16) (bus : Fin 8) (ecc : Ecc)
  /-- MDB_MW_EVENT_READ (R776): A window read of MW_EVENT returns the events and clears bits [2] and [3]. -/
  | mdbMwEventRead (l : Fin 16) (bus : Fin 8)
  /-- MDB_FRAME_SENT (R773): A transmitted frame ends successfully and its buffer completes SENT. -/
  | mdbFrameSent (bus : Fin 8)
  /-- MDB_ARBITRATION_LOST (R773): A transmission loses arbitration and is retried or completes NOT_SENT. -/
  | mdbArbitrationLost (bus : Fin 8)
  /-- MDB_FRAME_RECEIVED (R774): A received frame matching a filter is stored with its timestamp, or counted as overflow. -/
  | mdbFrameReceived (bus : Fin 8) (hdr0 hdr1 hdr2 hdr3 : Word) (data : List Byte)
  /-- MDB_ERROR_DETECTED (R778): The controller detects a bus error and updates its counters, error state, clash records and detection. -/
  | mdbErrorDetected (bus : Fin 8) (kind : Fin 5) (transmitting afterArb dataPhase dominant : Bool)
  /-- MDB_RECOVERY_DONE (R779): Bus-off recovery counts 128 idle sequences and the controller becomes error-active. -/
  | mdbRecoveryDone (bus : Fin 8)
  /-- MDB_RECOVER (R779): The command starts bus-off recovery in host-assisted mode. -/
  | mdbRecover (ring : Fin 512) (p0 : BitVec 64)
  /-- MDB_ABORT (R789): The command aborts a transmit buffer. -/
  | mdbAbort (ring : Fin 512) (p0 : BitVec 64)
  /-- MDB_TT_NEXT (R788): The command gives the next matrix cycle start to a host-assisted time master. -/
  | mdbTtNext (ring : Fin 512) (p0 p1 : BitVec 64)
  /-- MDB_MODE_WRITE (R793): A write of MDBn_CTRL.MODE changes the bus mode. -/
  | mdbModeWrite (port : Fin 2) (bus : Fin 8) (value : Word)
  /-- MDB_TT_ENABLE (R784): A write of TT_EN = 1 checks the trigger list and starts time-triggered operation. -/
  | mdbTtEnable (port : Fin 2) (bus : Fin 8)
  /-- MDB_RAM_CFG_WRITE (R770): A write of MDBn_RAM_CFG in INIT clears the message RAM and sets its layout. -/
  | mdbRamCfgWrite (port : Fin 2) (bus : Fin 8) (value : Word)
  /-- MDB_TRIGGER (R785): A trigger's time mark is reached in a basic cycle where it acts, and it sends, checks or watches. -/
  | mdbTrigger (bus : Fin 8) (i : Fin 64)
  /-- MDB_REF_DUE (R786): A time master schedules its reference message at the basic cycle start. -/
  | mdbRefDue (bus : Fin 8)
  /-- MDB_REF_RECEIVED (R787): A time slave receives a valid reference message and starts its basic cycle. -/
  | mdbRefReceived (bus prio : Fin 8) (cycle : Fin 64) (global : Nat)
  /-- MDB_TT_LATE (R788): No next start arrives before the last basic cycle, and the bus continues counting TT_LATE. -/
  | mdbTtLate (bus : Fin 8)
  /-- MDB_REMAP_FOLLOW_DONE (R766): The spare has followed the bus for 1 ms without a lone error, and the remap waits for idle. -/
  | mdbRemapFollowDone
  /-- MDB_REMAP_SWITCH (R766): At a bus idle after intermission the error state passes to the spare in one cycle. -/
  | mdbRemapSwitch
  /-- MDB_REMAP_TIMEOUT (R766): No switch point occurs within 1 s, and the remap is abandoned. -/
  | mdbRemapTimeout
  /-- MDB_CTRL_FAIL (R767): A serving controller fails and the bus moves at once to the spare, or is shed. -/
  | mdbCtrlFail (ctrl : Fin 9)
  /-- BUS_SLEEP_REQUEST (R809): A SLEEP request moves a bus to PENDING and arms its wake filter, or is refused. -/
  | busSleepRequest (who : Fin 18) (bus : Fin 8)
  /-- BUS_SLEEP_CANCEL (R810): A CANCEL returns a PENDING bus to AWAKE or wakes a sleeping bus with source LOCAL. -/
  | busSleepCancel (who : Fin 18) (bus : Fin 8)
  /-- SLEEP_GATE_CLOSE (R811): The idle count reaches WAKE_COMMIT.TIME, the controller stops and the bus enters ASLEEP. -/
  | sleepGateClose (bus : Fin 8)
  /-- BUS_WAKE_EVENT (R814): A wake event of the bus's mode aborts a pending sleep, wakes the bus or wakes the module. -/
  | busWakeEvent (bus : Fin 8) (src : WakeSrc) (ide : Bool) (id : BitVec 29) (afterIdle : Bool)
  /-- AWAKE_MAX_EXPIRY (R818): A bus stays PENDING for AWAKE_MAX, AWAKE_MAX is raised and the bus may be withdrawn. -/
  | awakeMaxExpiry (bus : Fin 8)
  /-- WAKE_N_ASSERT (R825): WAKE_N low for 1 ms with PIN_EN wakes the module from STANDBY. -/
  | wakeNAssert
  /-- STANDBY_TIMER_EXPIRY (R825): The wake timer expires in STANDBY and the module boots. -/
  | standbyTimerExpiry
  /-- PSQ_FETCH_WAIT (R845): A TX FIFO word moves to TSR and HOLD, stalling while the FIFO is empty. -/
  | psqFetchWait (seq : Fin 32) (pins : BitVec 48) (bad : Bool)
  /-- PSQ_FETCH_GO (R850): A TX FIFO word, or HOLD when empty, moves to TSR without stalling. -/
  | psqFetchGo (seq : Fin 32) (pins : BitVec 48) (bad : Bool)
  /-- PSQ_STORE_WAIT (R845): RSR moves to the RX FIFO, stalling while it is full. -/
  | psqStoreWait (seq : Fin 32) (pins : BitVec 48) (bad : Bool)
  /-- PSQ_STORE_GO (R850): RSR moves to the RX FIFO, or is dropped when full. -/
  | psqStoreGo (seq : Fin 32) (pins : BitVec 48) (bad : Bool)
  /-- PSQ_RELOAD0 (R845): LC0 takes INIT0. -/
  | psqReload0 (seq : Fin 32) (pins : BitVec 48) (bad : Bool)
  /-- PSQ_RELOAD1 (R845): LC1 takes INIT1. -/
  | psqReload1 (seq : Fin 32) (pins : BitVec 48) (bad : Bool)
  /-- PSQ_SIGNAL (R845): SIGNAL sets the window EVENT bit or writes a PSQ_SIGNAL event. -/
  | psqSignal (seq : Fin 32) (pins : BitVec 48) (bad : Bool)
  /-- PSQ_EMIT (R846): DRIVE pins take the next TSR bits. -/
  | psqEmit (seq : Fin 32) (pins : BitVec 48) (bad : Bool)
  /-- PSQ_PATTERN (R845): DRIVE pins 0 to 4 take the literal ARG. -/
  | psqPattern (seq : Fin 32) (pins : BitVec 48) (bad : Bool)
  /-- PSQ_CAPTURE (R846): SENSE pins enter RSR as the next bits. -/
  | psqCapture (seq : Fin 32) (pins : BitVec 48) (bad : Bool)
  /-- PSQ_EXCHANGE (R845): EMIT and CAPTURE act in one tick, sampling before driving. -/
  | psqExchange (seq : Fin 32) (pins : BitVec 48) (bad : Bool)
  /-- PSQ_DIRECT (R845): DRIVE pins 0 to 4 become outputs or inputs by ARG. -/
  | psqDirect (seq : Fin 32) (pins : BitVec 48) (bad : Bool)
  /-- PSQ_TOGGLE (R845): DRIVE pins 0 to 4 selected by ARG invert. -/
  | psqToggle (seq : Fin 32) (pins : BitVec 48) (bad : Bool)
  /-- PSQ_BRANCH (R845): Execution continues at TARGET when COND holds, or stops with END. -/
  | psqBranch (seq : Fin 32) (pins : BitVec 48) (bad : Bool)
  /-- PSQ_FLOW_WAIT (R845): The instruction stalls until COND holds, then acts. -/
  | psqFlowWait (seq : Fin 32) (pins : BitVec 48) (bad : Bool)
  /-- PSQ_COUNT (R845): A loop counter is decremented and execution loops to TARGET while it is not 0. -/
  | psqCount (seq : Fin 32) (pins : BitVec 48) (bad : Bool)
  /-- PSQ_ILLEGAL (R845): An illegal instruction is not executed and the sequencer stops with ILLEGAL. -/
  | psqIllegal (seq : Fin 32) (pins : BitVec 48) (bad : Bool)
  /-- PSQ_DWELL_EXPIRY (R842): An instruction's dwell ends and execution moves to the next address. -/
  | psqDwellExpiry (seq : Fin 32) (pins : BitVec 48) (bad : Bool)
  /-- PSQ_START (R852): A write of PSQ_START starts the named sequencers in one cycle with their dividers at phase 0. -/
  | psqStart (port : Fin 2) (value : Word)
  /-- PSQ_STOP (R852): A write of PSQ_STOP stops the named sequencers in one cycle. -/
  | psqStop (port : Fin 2) (value : Word)
  /-- PSQ_CLKRST (R852): A write of PSQ_CLKRST restarts the named dividers at phase 0. -/
  | psqClkrst (port : Fin 2) (value : Word)
  /-- PSQ_TSTART_ARM (R853): The upper-word write of PSQ_TSTART_TIME arms a timed start. -/
  | psqTstartArm (port : Fin 2) (value : Word)
  /-- PSQ_TIMED_START (R853): The time base reaches the armed time and the named sequencers start. -/
  | psqTimedStart
  /-- PSQ_SEQ_START (R851): CTRL.START resumes a sequencer at its PC. -/
  | psqSeqStart (who : Fin 18) (seq : Fin 32)
  /-- PSQ_SEQ_STOP (R851): CTRL.STOP stops a sequencer at its next tick, abandoning a stalled instruction. -/
  | psqSeqStop (who : Fin 18) (seq : Fin 32)
  /-- PSQ_SEQ_RESTART (R851): CTRL.RESTART stops a sequencer and resets its PC and execution state. -/
  | psqSeqRestart (who : Fin 18) (seq : Fin 32)
  /-- PSQ_INJECT (R857): A write of INJECT places one instruction that replaces a stalled one or acts at the next boundary. -/
  | psqInject (who : Fin 18) (seq : Fin 32) (value : Word)
  /-- PSQ_IMEM_WRITE (R856): A write of an instruction memory word takes effect at its next fetch. -/
  | psqImemWrite (port : Fin 2) (seq : Fin 32) (i : Fin 128) (value : Word)
  /-- PSQ_TXF_PUSH (R874): A write of TXF pushes a word into the TX FIFO, or is discarded when full. -/
  | psqTxfPush (who : Fin 18) (seq : Fin 32) (value : Word)
  /-- PSQ_RXF_POP (R874): A read of RXF pops a word from the RX FIFO. -/
  | psqRxfPop (who : Fin 18) (seq : Fin 32)
  /-- PSQ_FIFO_MODE_WRITE (R848): A write of FIFO_MODE empties both FIFOs and sets their split. -/
  | psqFifoModeWrite (port : Fin 2) (seq : Fin 32) (value : Word)
  /-- PSQ_REMAP_POINT (R861): At a stopped, stalled or waiting tick the execution state moves to the spare in 2 cycles. -/
  | psqRemapPoint
  /-- PSQ_REMAP_TIMEOUT (R861): No remap point occurs within 1 s and the remap is abandoned. -/
  | psqRemapTimeout
  /-- PSQ_SM_FAIL (R862): A parity failure of a machine moves the sequencer to a spare at once, or sheds it. -/
  | psqSmFail (machine : Fin 36)
  /-- SIO_IMAGE_CYCLE (R884): Once per CYCLE the mover writes the input block and reads the output block, accepting valid commands. -/
  | sioImageCycle (readback : BitVec 8) (ecc : Ecc)
  /-- SIO_COMM_TIMEOUT (R890): No output block is accepted for COMM_TO; outputs go off, HOLD is taken and SAFE follows. -/
  | sioCommTimeout
  /-- SIO_LINK_FAIL (R890): The die-to-die link fails; the safety die switches outputs off and takes HOLD. -/
  | sioLinkFail
  /-- DI_FILTER_ACCEPT (R891): A DI level stable for FILT is accepted, updating the pair value and local shut-off. -/
  | diFilterAccept (ch : Fin 16) (level : Bool)
  /-- TP_PULSE_START (R893): A test-pulse source goes low for TP_WIDTH at its phase. -/
  | tpPulseStart (src : Fin 4)
  /-- TP_PULSE_END (R894): A test pulse ends and the fed channels and source readback are judged. -/
  | tpPulseEnd (src : Fin 4) (reached lowOutside : BitVec 16) (readbackOk : Bool)
  /-- SIO_TICK (R899): At each 1 ms tick, disagreeing pairs count toward their discrepancy latch. -/
  | sioTick
  /-- DQ_TEST_START (R905): An output that is on is switched off for OT_WIDTH at its phase. -/
  | dqTestStart (m : Fin 8)
  /-- DQ_TEST_END (R905): An output test ends; readback, half-switch currents and cross-shorts are judged. -/
  | dqTestEnd (m : Fin 8) (fell low : BitVec 8) (ha hb : List Nat)
  /-- DQ_OFF_SETTLE_CHECK (R904): OFF_SETTLE after an off command the readback is still high, and the channel fails with DQ_STUCK. -/
  | dqOffSettleCheck (m : Fin 8) (high : Bool)
  /-- DQ_OVERLOAD_TRIP (R903): An output at its current limit for 5 ms switches off with DQ_OVERLOAD. -/
  | dqOverloadTrip (m : Fin 8)
  /-- DQ_THERMAL_TRIP (R903): An output's junction reaches 170 °C and it switches off with DQ_THERMAL. -/
  | dqThermalTrip (m : Fin 8)
  /-- L2_SAG (R916): L2+ falls below 19.2 V or 16.8 V; L2_OK clears or the outputs latch off. -/
  | l2Sag (tenths : Fin 512)
  /-- L2_RECOVERED (R916): L2+ stays above 19.2 V for 100 ms and L2_OK sets. -/
  | l2Recovered (tenths : Fin 512)
  /-- L1_SAG (R917): L1+ falls below 19.2 V or 16.8 V; pairs go to 0 and sources stop. -/
  | l1Sag (tenths : Fin 512)
  /-- L1_RECOVERED (R917): L1+ stays above 19.2 V for 100 ms and the sources restart. -/
  | l1Recovered (tenths : Fin 512)
  /-- SAFETY_DOMAIN_RESET (R880): The safety die resets itself, switches outputs off, asserts SOTE and the module enters SAFE. -/
  | safetyDomainReset (clock : Bool)
  /-- SIO_INIT_DONE (R880): INIT ends after reloading the configuration and testing channels, and the die enters HOLD. -/
  | sioInitDone (okA okB : Bool) (badDi : BitVec 16) (badDq : BitVec 8)
  /-- SIO_CFG_WRITE (R923): A write to a safety configuration register is accepted only in CONFIG while unlocked. -/
  | sioCfgWrite (port : Fin 2) (reg : Fin 13) (value : Word)
  /-- SIO_UNLOCK (R925): The command checks a password and unlocks the safety configuration. -/
  | sioUnlock (ring : Fin 512) (p0 : BitVec 64) (dma : Option (List Byte))
  /-- SIO_LOCK (R926): The command locks the configuration and reloads it from NVM. -/
  | sioLock (ring : Fin 512)
  /-- SIO_COMMIT (R927): The command writes the edited configuration to both NVM copies and logs it. -/
  | sioCommit (ring : Fin 512) (p0 p1 : BitVec 64)
  /-- SIO_PWD_SET (R924): The command sets a new safety password. -/
  | sioPwdSet (ring : Fin 512) (p0 : BitVec 64) (dma : Option (List Byte))
  /-- SIO_ACK (R921): The command clears failed channels, sets ACK_OK and opens the recovery window. -/
  | sioAck (ring : Fin 512) (p0 : BitVec 64) (high : BitVec 8)
  /-- SIO_OUT_ENABLE (R916): The command clears L2_LATCH so outputs may restart. -/
  | sioOutEnable (ring : Fin 512)
  /-- SIO_LOG_READ (R929): The command copies change-log entries to host memory. -/
  | sioLogRead (ring : Fin 512) (p0 p1 p2 : BitVec 64)
  /-- SIO_TEST (R929): The command tests named outputs and join switches at once. -/
  | sioTest (ring : Fin 512) (p0 : BitVec 64)
  /-- SIO_UNLOCK_TIMEOUT (R926): 600 s pass without a configuration write and UNLOCKED clears. -/
  | sioUnlockTimeout
  /-- PWD_LOCKOUT_END (R925): The 60 s refusal after five wrong passwords ends. -/
  | pwdLockoutEnd
  /-- ACK_OK_TIMEOUT (R922): ACK_OK clears 10 s after it was set. -/
  | ackOkTimeout
  /-- PAR_START_EXPIRY (R914): A start-up or recovery join window of PAR_START ends and the join opens. -/
  | parStartExpiry (pair : Fin 4)
  /-- FAULT_FORCE (R972): A write of FFORCE raises one occurrence of each named source. -/
  | faultForce (port : Fin 2) (blk : BitVec 12) (value : Word)
  /-- FSTAT_WRITE (R946): A W1C write of FSTAT acknowledges faults, frees the capture and may release FLT_N. -/
  | fstatWrite (port : Fin 2) (blk : BitVec 12) (value : Word)
  /-- HOLD_WINDOW_END (R958): A consequence hold window ends at completion plus EXTRA. -/
  | holdWindowEnd (k : Fin 64)
  /-- FLT_PULSE_END (R964): The FLT_N pulse ends and FLT_N rises unless a qualifying fault or FLT_HOLD remains. -/
  | fltPulseEnd
  /-- HLTH_WORN_CLEAR (R976): A W1C write of HLTH_UNIT.WORN clears the worn latch when the index stands at or above SWAP. -/
  | hlthWornClear (port : Fin 2) (value : Word)
  /-- HLTH_LOG_READ (R970): The command copies fault log entries to host memory. -/
  | hlthLogRead (ring : Fin 512) (p0 p1 p2 : BitVec 64)
  /-- FAULT_LOG_FLUSH (R971): Buffered fault log entries reach NVM within 1 s. -/
  | faultLogFlush
  /-- WEAR_RECORD_FLUSH (R978): Wear records and hour counts are written to NVM once per hour. -/
  | wearRecordFlush
  /-- PRESENT_N_HIGH (R1010): PRESENT_N accepted high turns the switch off quietly, or raises SURPRISE and starts a quiesce. -/
  | presentNHigh
  /-- PRESENT_N_LOW (R1010): PRESENT_N accepted low again during a removal quiesce ends it unless EJECT_N is asserted. -/
  | presentNLow
  /-- SOFT_START_TIMEOUT (R1004): The input has not reached 10.8 V within 5 ms, the switch turns off and retries. -/
  | softStartTimeout
  /-- SOFT_START_ON (R1004): The input reaches 10.8 V and the soft-start switch turns fully on. -/
  | softStartOn
  /-- POWER_ON_RELEASE (R1008): Supplies, rails, PRESENT_N and PORST_N have held for 10 ms and the internal reset is released. -/
  | powerOnRelease
  /-- LOGIC_SUPPLY_LOW (R1005): 12V falls below 10.0 V for 10 µs and asserts a brownout PORST_N. -/
  | logicSupplyLow (mv : BitVec 16)
  /-- LOGIC_SUPPLY_RECOVER (R1005): 12V stays above 10.6 V for 10 ms and the brownout reset is released. -/
  | logicSupplyRecover (mv : BitVec 16)
  /-- RAIL_FAIL (R1027): An on-module rail stays outside ±5 % for 10 µs and raises RAIL_FAIL. -/
  | railFail (rail : Fin 16)
  /-- TEMP_SAMPLE (R1025): Every 1 ms PWR reads the hottest sensor and raises TEMP_HIGH, TEMP_CRIT or switches the regulators off. -/
  | tempSample (temp mv v33 : BitVec 16)
  /-- HIF_BOOT_SERVICE_START (R1035): 100 ms after t = 0 of a boot, HIF begins answering PCIe configuration requests and MW0 accesses to GEN. -/
  | hifBootServiceStart
  /-- PLL_LOCK_ACQUIRED (R45): A PLL, such as a standby PLL of a main domain, gains lock, and its lock bit in CLK_STAT sets. -/
  | pllLockAcquired (pll : Fin 10)
  /-- CVN_OPEN_WINDOW_START (R706): At OPEN_START of a Caravan cycle, the switch queues of the Caravan port are released for ordinary Ethernet frames. -/
  | cvnOpenWindowStart (c : Fin 2)
  /-- CVN_OPEN_WINDOW_END (R706): At OPEN_END of a Caravan cycle, the switch queues of the Caravan port are held again. -/
  | cvnOpenWindowEnd (c : Fin 2)
  /-- MDB_TX_START (R772): When the bus is free to start a frame, the controller starts sending the pending buffer that wins arbitration, a buffer held at bus-off first. -/
  | mdbTxStart (bus : Fin 8) (ecc : Ecc)
  /-- WAKE_FILTER_ACTIVITY (R815): The armed wake filter sees activity on MDB_RXDn that is not a wake event, such as a dominant phase shorter than FILT or a decoded frame, and updates FALSE or FERR. -/
  | wakeFilterActivity (bus : Fin 8) (what : FilterSeen)
  /-- DQ_OVERLOAD_RESTART_TIMEOUT (R903): 100 ms after an overload trip, the output may restart on an accepted command sequence of 0 and then 1. -/
  | dqOverloadRestartTimeout (m : Fin 8)
  /-- DQ_THERMAL_COOLED (R903): The junction of a thermally tripped output falls to 155 °C, and the output may restart. -/
  | dqThermalCooled (m : Fin 8)
  /-- INPUT_SUPPLY_APPLIED (R1000): 12V_PRE makes and the on-module soft-start switch begins charging the input at 2 A or less. -/
  | inputSupplyApplied
  /-- SOFT_START_RETRY (R1004): 100 ms after a soft-start failure, the switch tries again, unless three failures in a row have locked it off. -/
  | softStartRetry
  deriving DecidableEq, Repr

end Sys2Proof
end

