-- ==== Sys2Proof/Decode.lean ====
section
/-! DEFINITION. The reading of a table word as a command. -/

namespace Sys2Proof

/-- The command that a word spells by the bits of the opcode table. No row of the table has bits: the rows are commands
and events, not words. Every word is refused. -/
def decodeTableWord (_nbits _w : Nat) : Option Instr := none

end Sys2Proof
end

