-- ==== Sys2Proof/Machine/Bits.lean ====
section
/-! DEFINITION. Bit fields of words, byte order, and sparse maps in one canonical form. -/

namespace Sys2Proof.Machine

/-- The access codes of R18. -/
inductive Acc where
  | rw | ro | w1c | rc | wo | rws | ros
  deriving DecidableEq, Repr

/-- One field of a register layout table: bits, access code, reset value (R18). -/
structure FieldRow where
  hi : Nat
  lo : Nat
  acc : Acc
  rst : Nat
  deriving DecidableEq, Repr

/-- One register, or a two-level array of them: `n1` copies at stride `s1`, each of `n2` copies at stride `s2`. -/
structure RegRow where
  base : Nat
  n1 : Nat
  s1 : Nat
  n2 : Nat
  s2 : Nat
  fields : List FieldRow
  deriving DecidableEq, Repr

/-- One fault source of a block: its bit, its default class (R21) and its default reaction (R949). -/
structure FaultRow where
  bit : Nat
  cls : Nat
  react : Nat
  deriving DecidableEq, Repr

/-- A bit range `[hi:lo]` of a register (R13). -/
structure Fld where
  hi : Nat
  lo : Nat
  deriving DecidableEq, Repr

/-- The number of values a field can hold. -/
def Fld.size (f : Fld) : Nat := 2 ^ (f.hi + 1 - f.lo)

/-- Bits `[hi:lo]` of `w`, as a number. -/
def Fld.get (f : Fld) (w : Word) : Nat := w.toNat / 2 ^ f.lo % f.size

/-- The word with ones exactly in bits `[hi:lo]`. -/
def Fld.mask (f : Fld) : Word := BitVec.ofNat 32 ((f.size - 1) * 2 ^ f.lo)

/-- `w` with bits `[hi:lo]` replaced by the low bits of `v`. -/
def Fld.put (f : Fld) (w : Word) (v : Nat) : Word :=
  (w &&& ~~~ f.mask) ||| BitVec.ofNat 32 (v % f.size * 2 ^ f.lo)

/-- Bit `i` of a number. -/
def bitOf (v i : Nat) : Bool := v / 2 ^ i % 2 == 1

/-- Bits `[hi:lo]` of a number. -/
def bitsOf (v hi lo : Nat) : Nat := v / 2 ^ lo % 2 ^ (hi + 1 - lo)

/-- A Boolean as a bit. -/
def b2n (b : Bool) : Nat := if b then 1 else 0

/-- `v` with bit `i` set to `b`. -/
def setBit (v i : Nat) (b : Bool) : Nat :=
  if bitOf v i == b then v else if b then v + 2 ^ i else v - 2 ^ i

/-- A count that stops at `top`. -/
def stopAt (top v : Nat) : Nat := if v ≤ top then v else top

/-- A signed number read from its `w` low bits. -/
def signedOf (w v : Nat) : Int :=
  let u := v % 2 ^ w
  if u < 2 ^ (w - 1) then (u : Int) else (u : Int) - (2 : Int) ^ w

/-- A signed number written in `w` bits (two's complement). -/
def toBits (w : Nat) (x : Int) : Nat := (x % ((2 : Int) ^ w)).toNat

/-- A sparse map from numbers: rising keys, no entry that holds what an unlisted key reads as. -/
abbrev SMap (β : Type) := List (Nat × β)

/-- The value at key `k`; an unlisted key reads as `d k`. -/
def SMap.get {β : Type} (d : Nat → β) : SMap β → Nat → β
  | [], k => d k
  | (k', v) :: m, k => if k = k' then v else if k < k' then d k else SMap.get d m k

/-- The map with `v` at key `k`, in canonical form. -/
def SMap.set {β : Type} [DecidableEq β] (d : Nat → β) : SMap β → Nat → β → SMap β
  | [], k, v => if v = d k then [] else [(k, v)]
  | (k', v') :: m, k, v =>
    if k < k' then (if v = d k then (k', v') :: m else (k, v) :: (k', v') :: m)
    else if k = k' then (if v = d k then m else (k, v) :: m)
    else (k', v') :: SMap.set d m k v

/-- Keys above `lo` only, rising, and no entry equal to what an unlisted key reads as. -/
def SMap.wfFrom {β : Type} [DecidableEq β] (d : Nat → β) : Nat → SMap β → Bool
  | _, [] => true
  | lo, (k, v) :: m => decide (lo ≤ k) && decide (v ≠ d k) && SMap.wfFrom d (k + 1) m

/-- The canonical form. -/
def SMap.wf {β : Type} [DecidableEq β] (d : Nat → β) (m : SMap β) : Bool := SMap.wfFrom d 0 m

/-- The entries whose keys fall outside `[lo, hi)`. -/
def SMap.without {β : Type} (m : SMap β) (lo hi : Nat) : SMap β :=
  m.filter fun e => !(decide (lo ≤ e.1) && decide (e.1 < hi))

/-- `n` bytes, least significant first (R15). -/
def leBytes : Nat → Nat → List Byte
  | 0, _ => []
  | n + 1, v => BitVec.ofNat 8 v :: leBytes n (v / 256)

/-- The number whose bytes are given least significant first (R15). -/
def ofLe : List Byte → Nat
  | [] => 0
  | b :: bs => b.toNat + 256 * ofLe bs

/-- `n` bytes, most significant first: the order of multi-byte fields on the wire. -/
def beBytes (n v : Nat) : List Byte := (leBytes n v).reverse

/-- The number whose bytes are given most significant first. -/
def ofBe (bs : List Byte) : Nat := ofLe bs.reverse

/-- The elements of a list at positions `[from, from + n)`. -/
def slice {α : Type} (xs : List α) (start n : Nat) : List α := (xs.drop start).take n

/-- A list with positions `[at, at + length ys)` replaced, where they exist. -/
def overlay {α : Type} (xs : List α) (pos : Nat) (ys : List α) : List α :=
  xs.take pos ++ (ys.take (xs.length - pos)) ++ xs.drop (pos + ys.length)

/-- A list with the element at `i` replaced by its image under `f`. -/
def mapAt {α : Type} (xs : List α) (i : Nat) (f : α → α) : List α :=
  xs.zipIdx.map fun e => if e.2 = i then f e.1 else e.1

end Sys2Proof.Machine
end

