-- ==== Sys2Proof/Machine/RegMap.lean ====
section
/-! DEFINITION. The register map of MW0 (R14, R18, R63): one row per register of the spec's layout tables, with the
access code and the reset value of every field, and one row per fault source of the blocks' source tables (R951, R952). -/

namespace Sys2Proof.Machine

/-- Registers of block GEN, in offset order. -/
def regsGEN : List RegRow := [
  /- GEN_ID -/ ⟨0x0, 1, 0x1000000, 1, 0x1, [⟨31, 16, .ro, 0x9416⟩, ⟨15, 8, .ro, 0xB⟩, ⟨7, 0, .ro, 0x0⟩]⟩,
  /- GEN_CAP -/ ⟨0x4, 1, 0x1000000, 1, 0x1, [⟨0, 0, .ro, 0x0⟩]⟩,
  /- GEN_MODE_STAT -/ ⟨0x8, 1, 0x1000000, 1, 0x1, [⟨19, 16, .ro, 0x0⟩, ⟨15, 12, .rc, 0x0⟩, ⟨9, 9, .ro, 0x0⟩, ⟨8, 8, .ro, 0x0⟩, ⟨6, 4, .ro, 0x0⟩, ⟨2, 0, .ro, 0x0⟩]⟩,
  /- GEN_MODE_REQ -/ ⟨0xC, 1, 0x1000000, 1, 0x1, [⟨8, 8, .wo, 0x0⟩, ⟨2, 0, .wo, 0x0⟩]⟩,
  /- GEN_RESET -/ ⟨0x10, 1, 0x1000000, 1, 0x1, [⟨31, 24, .wo, 0x0⟩, ⟨12, 8, .wo, 0x0⟩, ⟨1, 1, .wo, 0x0⟩, ⟨0, 0, .wo, 0x0⟩]⟩,
  /- GEN_RST_CAUSE -/ ⟨0x14, 1, 0x1000000, 1, 0x1, [⟨31, 24, .ros, 0x0⟩, ⟨4, 4, .ros, 0x0⟩, ⟨3, 3, .ros, 0x0⟩, ⟨2, 2, .ros, 0x0⟩, ⟨1, 1, .ro, 0x0⟩, ⟨0, 0, .ro, 0x0⟩]⟩,
  /- GEN_BOOT_CFG -/ ⟨0x18, 1, 0x1000000, 1, 0x1, [⟨4, 4, .rws, 0x0⟩, ⟨1, 0, .rws, 0x0⟩]⟩,
  /- GEN_BOOT_STAT -/ ⟨0x1C, 1, 0x1000000, 1, 0x1, [⟨23, 16, .ro, 0x0⟩, ⟨15, 15, .ro, 0x0⟩, ⟨14, 14, .ro, 0x0⟩, ⟨13, 13, .ro, 0x0⟩, ⟨11, 8, .ro, 0x0⟩, ⟨5, 4, .ro, 0x0⟩, ⟨3, 0, .ro, 0x0⟩]⟩,
  /- GEN_IMG_VER -/ ⟨0x20, 1, 0x1000000, 2, 0x4, [⟨31, 16, .ro, 0x0⟩, ⟨15, 0, .ro, 0x0⟩]⟩,
  /- GEN_HOSTIMG_ADDR -/ ⟨0x28, 1, 0x1000000, 1, 0x1, [⟨31, 2, .rw, 0x0⟩]⟩,
  /- GEN_HOSTIMG_ADDR.hi -/ ⟨0x2C, 1, 0x1000000, 1, 0x1, [⟨31, 0, .rw, 0x0⟩]⟩,
  /- GEN_HOSTIMG_LEN -/ ⟨0x30, 1, 0x1000000, 1, 0x1, [⟨24, 0, .rw, 0x0⟩]⟩,
  /- GEN_HOSTIMG_GO -/ ⟨0x34, 1, 0x1000000, 1, 0x1, [⟨0, 0, .wo, 0x0⟩]⟩,
  /- GEN_UPD_STAT -/ ⟨0x38, 1, 0x1000000, 1, 0x1, [⟨20, 12, .ros, 0x0⟩, ⟨8, 8, .ros, 0x0⟩, ⟨2, 0, .ros, 0x0⟩]⟩]

/-- Registers of block HIF, in offset order. -/
def regsHIF : List RegRow := [
  /- HIF_STAT -/ ⟨0x10000, 1, 0x1000000, 1, 0x1, [⟨31, 31, .ro, 0x0⟩, ⟨29, 20, .ro, 0x0⟩, ⟨19, 10, .ro, 0x0⟩, ⟨9, 0, .ro, 0x0⟩]⟩,
  /- HIF_CFG -/ ⟨0x10004, 1, 0x1000000, 1, 0x1, [⟨15, 0, .rws, 0x3E8⟩]⟩,
  /- HIF_LINK -/ ⟨0x10008, 1, 0x1000000, 2, 0x4, [⟨31, 31, .ro, 0x0⟩, ⟨30, 30, .ro, 0x0⟩, ⟨29, 29, .ro, 0x0⟩, ⟨23, 16, .ros, 0x0⟩, ⟨11, 8, .ro, 0x0⟩, ⟨3, 0, .ro, 0x0⟩]⟩,
  /- HIF_DB_BASE -/ ⟨0x10010, 1, 0x1000000, 2, 0x8, [⟨31, 12, .rw, 0x0⟩, ⟨0, 0, .rw, 0x0⟩]⟩,
  /- HIF_DB_BASE.hi -/ ⟨0x10014, 1, 0x1000000, 2, 0x8, [⟨31, 0, .rw, 0x0⟩]⟩,
  /- HIF_DB_POLL -/ ⟨0x10020, 1, 0x1000000, 1, 0x1, [⟨23, 16, .rw, 0x1⟩, ⟨8, 0, .rw, 0x8⟩]⟩,
  /- HIF_CNT -/ ⟨0x10024, 1, 0x1000000, 1, 0x1, [⟨31, 16, .rc, 0x0⟩, ⟨15, 0, .rc, 0x0⟩]⟩,
  /- HIF_RING_BASE -/ ⟨0x14000, 1, 0x1000000, 512, 0x20, [⟨31, 6, .rw, 0x0⟩]⟩,
  /- HIF_RING_BASE.hi -/ ⟨0x14004, 1, 0x1000000, 512, 0x20, [⟨31, 0, .rw, 0x0⟩]⟩,
  /- HIF_RING_CBASE -/ ⟨0x14008, 1, 0x1000000, 512, 0x20, [⟨31, 6, .rw, 0x0⟩]⟩,
  /- HIF_RING_CBASE.hi -/ ⟨0x1400C, 1, 0x1000000, 512, 0x20, [⟨31, 0, .rw, 0x0⟩]⟩,
  /- HIF_RING_CFG -/ ⟨0x14010, 1, 0x1000000, 512, 0x20, [⟨31, 31, .rw, 0x0⟩, ⟨30, 28, .rw, 0x0⟩, ⟨27, 24, .rw, 0x4⟩, ⟨21, 16, .rw, 0x0⟩, ⟨15, 6, .rw, 0x0⟩]⟩,
  /- HIF_RING_BIND -/ ⟨0x14014, 1, 0x1000000, 512, 0x20, [⟨8, 0, .rw, 0x0⟩]⟩,
  /- HIF_RING_STAT -/ ⟨0x14018, 1, 0x1000000, 512, 0x20, [⟨31, 16, .ro, 0x0⟩, ⟨11, 8, .ro, 0x0⟩, ⟨6, 6, .ro, 0x0⟩, ⟨2, 0, .ro, 0x0⟩]⟩,
  /- HIF_RING_CNT -/ ⟨0x1401C, 1, 0x1000000, 512, 0x20, [⟨31, 0, .rc, 0x0⟩]⟩]

/-- Registers of block MBX, in offset order. -/
def regsMBX : List RegRow := [
  /- MBX_AGE_LIMIT -/ ⟨0x20000, 1, 0x1000000, 1, 0x1, [⟨15, 0, .rw, 0x64⟩]⟩,
  /- MBX_HOST_RESET -/ ⟨0x20004, 1, 0x1000000, 1, 0x1, [⟨1, 1, .wo, 0x0⟩, ⟨0, 0, .wo, 0x0⟩]⟩,
  /- MBX_CNT -/ ⟨0x20008, 1, 0x1000000, 1, 0x1, [⟨31, 16, .rc, 0x0⟩, ⟨15, 0, .rc, 0x0⟩]⟩,
  /- MBX_ROUTE -/ ⟨0x20100, 1, 0x1000000, 76, 0x4, [⟨31, 31, .rw, 0x0⟩, ⟨30, 30, .rw, 0x0⟩, ⟨12, 8, .rw, 0x0⟩, ⟨1, 0, .rw, 0x0⟩]⟩]

/-- Registers of block WADI, in offset order. -/
def regsWADI : List RegRow := [
  /- WADI_CTRL -/ ⟨0x30000, 1, 0x1000000, 1, 0x1, [⟨23, 16, .rw, 0x5⟩, ⟨15, 8, .rw, 0x0⟩, ⟨4, 4, .rw, 0x1⟩, ⟨3, 3, .rw, 0x1⟩, ⟨1, 0, .rw, 0x0⟩]⟩,
  /- WADI_STAT -/ ⟨0x30004, 1, 0x1000000, 1, 0x1, [⟨31, 31, .ro, 0x0⟩, ⟨20, 16, .ro, 0x0⟩, ⟨12, 8, .ro, 0x0⟩, ⟨7, 0, .ro, 0x0⟩]⟩,
  /- WADI_PERIOD -/ ⟨0x30008, 1, 0x1000000, 1, 0x1, [⟨31, 0, .ro, 0x0⟩]⟩,
  /- WADI_THR -/ ⟨0x3000C, 1, 0x1000000, 1, 0x1, [⟨31, 24, .rw, 0x5A⟩, ⟨23, 16, .rw, 0x32⟩, ⟨15, 0, .rw, 0x1770⟩]⟩,
  /- WADI_QUOTA_CFG -/ ⟨0x30010, 1, 0x1000000, 1, 0x1, [⟨19, 16, .rw, 0x4⟩, ⟨15, 0, .rw, 0x1000⟩]⟩,
  /- WADI_OASIS -/ ⟨0x30014, 1, 0x1000000, 1, 0x1, [⟨28, 24, .ro, 0x0⟩, ⟨23, 20, .ro, 0x0⟩, ⟨19, 16, .ro, 0x0⟩, ⟨15, 12, .ro, 0x0⟩, ⟨11, 8, .ro, 0x0⟩, ⟨7, 4, .ro, 0x0⟩]⟩,
  /- WADI_SHORT -/ ⟨0x30018, 1, 0x1000000, 1, 0x1, [⟨15, 8, .ro, 0x0⟩, ⟨7, 0, .ro, 0x0⟩]⟩,
  /- WADI_RANK_MDB -/ ⟨0x3001C, 1, 0x1000000, 1, 0x1, [⟨31, 0, .rw, 0x88888888⟩]⟩,
  /- WADI_RANK_PSQ -/ ⟨0x30020, 1, 0x1000000, 4, 0x4, [⟨31, 0, .rw, 0x88888888⟩]⟩,
  /- WADI_SLOT_CFG -/ ⟨0x30040, 1, 0x1000000, 16, 0x4, [⟨31, 31, .rw, 0x0⟩, ⟨30, 26, .rw, 0x0⟩, ⟨25, 25, .rw, 0x0⟩, ⟨24, 24, .rw, 0x0⟩, ⟨23, 20, .rw, 0x8⟩, ⟨17, 0, .rw, 0x0⟩]⟩,
  /- WADI_FUNC -/ ⟨0x30080, 1, 0x1000000, 8, 0x4, [⟨17, 17, .ro, 0x0⟩, ⟨16, 16, .ro, 0x0⟩, ⟨8, 8, .rw, 0x0⟩, ⟨0, 0, .rw, 0x0⟩]⟩,
  /- WADI_MIG_CFG -/ ⟨0x30400, 1, 0x1000000, 1, 0x1, [⟨31, 24, .rws, 0x3⟩, ⟨23, 16, .rws, 0x8⟩, ⟨15, 8, .rws, 0x60⟩, ⟨7, 0, .rws, 0x30⟩]⟩,
  /- WADI_MIG_HEADROOM -/ ⟨0x30404, 1, 0x1000000, 1, 0x1, [⟨15, 0, .rws, 0x500⟩]⟩,
  /- WADI_MIG_STAT -/ ⟨0x30408, 1, 0x1000000, 1, 0x1, [⟨31, 31, .ro, 0x0⟩, ⟨30, 28, .ro, 0x0⟩, ⟨27, 24, .ro, 0x0⟩, ⟨23, 20, .ro, 0x0⟩, ⟨19, 16, .ro, 0x0⟩, ⟨12, 8, .ro, 0x0⟩, ⟨4, 0, .ro, 0x0⟩]⟩,
  /- WADI_MIG_DIRTY -/ ⟨0x3040C, 1, 0x1000000, 1, 0x1, [⟨23, 16, .ro, 0x0⟩, ⟨15, 12, .ro, 0x0⟩, ⟨11, 0, .ro, 0x0⟩]⟩,
  /- WADI_MIG_LAST -/ ⟨0x30410, 1, 0x1000000, 1, 0x1, [⟨27, 16, .ro, 0x0⟩, ⟨15, 0, .ro, 0x0⟩]⟩,
  /- WADI_MIG_MAX -/ ⟨0x30414, 1, 0x1000000, 1, 0x1, [⟨15, 0, .rc, 0x0⟩]⟩,
  /- WADI_MIG_CNT -/ ⟨0x30418, 1, 0x1000000, 1, 0x1, [⟨31, 16, .ros, 0x0⟩, ⟨15, 0, .ros, 0x0⟩]⟩]

/-- Registers of block MEM, in offset order. -/
def regsMEM : List RegRow := [
  /- MEM_OWN_REQ -/ ⟨0x40000, 1, 0x1000000, 1, 0x1, [⟨13, 8, .wo, 0x0⟩, ⟨5, 0, .wo, 0x0⟩]⟩,
  /- MEM_OWN_STAT -/ ⟨0x40004, 1, 0x1000000, 1, 0x1, [⟨31, 31, .ro, 0x0⟩, ⟨30, 28, .ro, 0x0⟩, ⟨13, 8, .ro, 0x0⟩, ⟨5, 0, .ro, 0x0⟩]⟩,
  /- MEM_BANK_SEL -/ ⟨0x40008, 1, 0x1000000, 1, 0x1, [⟨7, 7, .rw, 0x0⟩, ⟨6, 0, .rw, 0x0⟩]⟩,
  /- MEM_BANK_INFO -/ ⟨0x4000C, 1, 0x1000000, 1, 0x1, [⟨31, 30, .ro, 0x0⟩, ⟨29, 24, .ro, 0x0⟩, ⟨23, 16, .ros, 0x0⟩, ⟨15, 0, .ros, 0x0⟩]⟩,
  /- MEM_SCRUB_CFG -/ ⟨0x40010, 1, 0x1000000, 1, 0x1, [⟨31, 31, .rws, 0x1⟩, ⟨15, 0, .rws, 0x1000⟩]⟩,
  /- MEM_MARCH_REQ -/ ⟨0x40014, 1, 0x1000000, 1, 0x1, [⟨31, 31, .wo, 0x0⟩, ⟨8, 8, .wo, 0x0⟩, ⟨7, 7, .wo, 0x0⟩, ⟨6, 0, .wo, 0x0⟩]⟩,
  /- MEM_MARCH_STAT -/ ⟨0x40018, 1, 0x1000000, 1, 0x1, [⟨31, 31, .ro, 0x0⟩, ⟨30, 28, .ro, 0x0⟩, ⟨27, 16, .ro, 0x0⟩, ⟨8, 0, .ro, 0x0⟩]⟩,
  /- MEM_REPAIR_CFG -/ ⟨0x4001C, 1, 0x1000000, 1, 0x1, [⟨15, 8, .rws, 0x10⟩, ⟨7, 0, .rws, 0x4⟩]⟩,
  /- MEM_REPAIR_REQ -/ ⟨0x40020, 1, 0x1000000, 1, 0x1, [⟨31, 31, .wo, 0x0⟩, ⟨6, 6, .wo, 0x0⟩, ⟨5, 0, .wo, 0x0⟩]⟩,
  /- MEM_REPAIR_STAT -/ ⟨0x40024, 1, 0x1000000, 1, 0x1, [⟨31, 31, .ro, 0x0⟩, ⟨30, 28, .ro, 0x0⟩, ⟨27, 24, .ros, 0x0⟩, ⟨23, 23, .ro, 0x0⟩, ⟨22, 16, .ro, 0x0⟩, ⟨15, 15, .ro, 0x0⟩, ⟨14, 8, .ro, 0x0⟩, ⟨5, 0, .ro, 0x0⟩]⟩,
  /- MEM_REPAIR_CNT -/ ⟨0x40028, 1, 0x1000000, 1, 0x1, [⟨31, 16, .ros, 0x0⟩, ⟨15, 0, .ros, 0x0⟩]⟩,
  /- MEM_NONOWN -/ ⟨0x40100, 1, 0x1000000, 23, 0x4, [⟨25, 20, .ro, 0x0⟩, ⟨19, 0, .ro, 0x0⟩]⟩,
  /- MEM_WAIT -/ ⟨0x40200, 1, 0x1000000, 23, 0x4, [⟨23, 0, .ro, 0x0⟩]⟩,
  /- MEM_OWN -/ ⟨0x40400, 1, 0x1000000, 64, 0x4, [⟨30, 24, .ro, 0x0⟩, ⟨5, 0, .ro, 0x0⟩]⟩]

/-- Registers of block PE, in offset order. -/
def regsPE : List RegRow := [
  /- PE_STAT -/ ⟨0x80000, 18, 0x10000, 1, 0x1, [⟨31, 24, .ro, 0x0⟩, ⟨20, 20, .ro, 0x0⟩, ⟨19, 19, .ro, 0x0⟩, ⟨18, 18, .ro, 0x1⟩, ⟨16, 16, .ro, 0x0⟩, ⟨11, 8, .ro, 0x0⟩, ⟨5, 3, .ro, 0x0⟩, ⟨2, 0, .ro, 0x0⟩]⟩,
  /- PE_CTRL -/ ⟨0x80004, 18, 0x10000, 1, 0x1, [⟨4, 4, .wo, 0x0⟩, ⟨3, 3, .wo, 0x0⟩, ⟨2, 2, .wo, 0x0⟩, ⟨1, 1, .wo, 0x0⟩, ⟨0, 0, .wo, 0x0⟩]⟩,
  /- PE_START_PC -/ ⟨0x80008, 18, 0x10000, 1, 0x1, [⟨16, 3, .rw, 0x0⟩]⟩,
  /- PE_SP_INIT -/ ⟨0x8000C, 18, 0x10000, 1, 0x1, [⟨17, 3, .rw, 0x4000⟩]⟩,
  /- PE_STACK_LIMIT -/ ⟨0x80010, 18, 0x10000, 1, 0x1, [⟨16, 3, .rw, 0x3000⟩]⟩,
  /- PE_WDOG -/ ⟨0x80014, 18, 0x10000, 1, 0x1, [⟨15, 0, .rw, 0x0⟩]⟩,
  /- PE_PC -/ ⟨0x80018, 18, 0x10000, 1, 0x1, [⟨16, 3, .ro, 0x0⟩]⟩,
  /- PE_LOAD -/ ⟨0x8001C, 18, 0x10000, 1, 0x1, [⟨22, 0, .ro, 0x0⟩]⟩,
  /- PE_STALL -/ ⟨0x80020, 18, 0x10000, 1, 0x1, [⟨22, 0, .ro, 0x0⟩]⟩,
  /- PE_CYC_CNT -/ ⟨0x80024, 18, 0x10000, 1, 0x1, [⟨31, 0, .ro, 0x0⟩]⟩,
  /- PE_MAXCYC -/ ⟨0x80028, 18, 0x10000, 1, 0x1, [⟨31, 0, .rc, 0x0⟩]⟩,
  /- PE_ECC_CNT -/ ⟨0x8002C, 18, 0x10000, 1, 0x1, [⟨31, 16, .ro, 0x0⟩, ⟨15, 0, .ro, 0x0⟩]⟩,
  /- PE_RO_COUNT -/ ⟨0x80030, 18, 0x10000, 1, 0x1, [⟨23, 0, .ro, 0x0⟩]⟩,
  /- PE_IMG_ID -/ ⟨0x80034, 18, 0x10000, 1, 0x1, [⟨31, 0, .ro, 0x0⟩]⟩,
  /- PE_BP -/ ⟨0x80038, 18, 0x10000, 1, 0x1, [⟨31, 31, .rw, 0x0⟩, ⟨16, 3, .rw, 0x0⟩]⟩,
  /- PE_DBG_SEL -/ ⟨0x8003C, 18, 0x10000, 1, 0x1, [⟨5, 0, .rw, 0x0⟩]⟩,
  /- PE_DBG_DATA -/ ⟨0x80040, 18, 0x10000, 1, 0x1, [⟨31, 0, .rw, 0x0⟩]⟩]

/-- Registers of block MAC, in offset order. -/
def regsMAC : List RegRow := [
  /- MAC_CTRL -/ ⟨0x200000, 16, 0x4000, 1, 0x1, [⟨2, 2, .wo, 0x0⟩, ⟨1, 1, .wo, 0x0⟩, ⟨0, 0, .rw, 0x0⟩]⟩,
  /- MAC_MODE P0-P3 -/ ⟨0x200004, 4, 0x4000, 1, 0x1, [⟨15, 8, .rw, 0x1E⟩, ⟨7, 7, .rw, 0x0⟩, ⟨6, 6, .rw, 0x1⟩, ⟨5, 5, .rw, 0x0⟩, ⟨4, 4, .rw, 0x0⟩]⟩,
  /- MAC_MODE P4-P15 -/ ⟨0x210004, 12, 0x4000, 1, 0x1, [⟨15, 8, .rw, 0x38⟩, ⟨7, 7, .rw, 0x0⟩, ⟨6, 6, .rw, 0x1⟩, ⟨5, 5, .rw, 0x0⟩, ⟨4, 4, .rw, 0x0⟩]⟩,
  /- MAC_NEG_CFG -/ ⟨0x200008, 16, 0x4000, 1, 0x1, [⟨16, 16, .rw, 0x0⟩, ⟨13, 12, .rw, 0x2⟩, ⟨7, 0, .rw, 0x19⟩]⟩,
  /- MAC_STAT -/ ⟨0x20000C, 16, 0x4000, 1, 0x1, [⟨31, 31, .ro, 0x0⟩, ⟨30, 30, .ro, 0x0⟩, ⟨29, 29, .ro, 0x0⟩, ⟨28, 28, .ro, 0x0⟩, ⟨23, 20, .ro, 0x0⟩, ⟨15, 12, .ro, 0x3⟩, ⟨10, 8, .ro, 0x0⟩, ⟨7, 0, .ros, 0x0⟩]⟩,
  /- MAC_CFG -/ ⟨0x200010, 16, 0x4000, 1, 0x1, [⟨31, 16, .rw, 0x5F2⟩, ⟨4, 3, .rw, 0x0⟩, ⟨2, 2, .rw, 0x0⟩, ⟨1, 1, .rw, 0x0⟩, ⟨0, 0, .rw, 0x0⟩]⟩,
  /- MAC_VLAN -/ ⟨0x200014, 16, 0x4000, 1, 0x1, [⟨31, 16, .rw, 0x8100⟩, ⟨15, 13, .rw, 0x0⟩, ⟨12, 12, .rw, 0x0⟩, ⟨11, 0, .rw, 0x1⟩]⟩,
  /- MAC_RED_CFG -/ ⟨0x200018, 16, 0x4000, 1, 0x1, [⟨11, 8, .rw, 0x0⟩, ⟨4, 4, .rw, 0x0⟩, ⟨3, 3, .rw, 0x0⟩, ⟨2, 2, .rw, 0x0⟩, ⟨1, 0, .rw, 0x0⟩]⟩,
  /- MAC_RED_SEQ -/ ⟨0x20001C, 16, 0x4000, 1, 0x1, [⟨15, 0, .rw, 0x0⟩]⟩,
  /- MAC_EYE -/ ⟨0x200020, 16, 0x4000, 1, 0x1, [⟨31, 31, .ro, 0x0⟩, ⟨23, 16, .ro, 0x0⟩, ⟨7, 0, .ro, 0x0⟩]⟩,
  /- MAC_PARTNER -/ ⟨0x200024, 16, 0x4000, 1, 0x1, [⟨15, 0, .ro, 0x0⟩]⟩,
  /- MAC_CNT_HALF -/ ⟨0x200028, 16, 0x4000, 1, 0x1, [⟨7, 0, .w1c, 0x0⟩]⟩,
  /- MAC_DCNT -/ ⟨0x200100, 16, 0x4000, 8, 0x8, [⟨31, 0, .ro, 0x0⟩]⟩,
  /- MAC_DCNT.hi -/ ⟨0x200104, 16, 0x4000, 8, 0x8, [⟨15, 0, .ro, 0x0⟩]⟩,
  /- MAC_ECNT -/ ⟨0x200200, 16, 0x4000, 13, 0x4, [⟨31, 0, .rc, 0x0⟩]⟩]

/-- Registers of block SWC, in offset order. -/
def regsSWC : List RegRow := [
  /- SWC_POOL -/ ⟨0x280000, 1, 0x1000000, 1, 0x1, [⟨31, 16, .ro, 0x0⟩, ⟨15, 0, .ro, 0x0⟩]⟩,
  /- SWC_CFG -/ ⟨0x280004, 1, 0x1000000, 1, 0x1, [⟨26, 24, .rw, 0x3⟩, ⟨15, 0, .rw, 0xA⟩]⟩,
  /- SWC_MARK_THR -/ ⟨0x280008, 1, 0x1000000, 1, 0x1, [⟨31, 31, .rw, 0x0⟩, ⟨15, 0, .rw, 0x400⟩]⟩,
  /- SWC_TQLIM -/ ⟨0x28000C, 1, 0x1000000, 1, 0x1, [⟨31, 0, .rw, 0xFEDCBA98⟩]⟩,
  /- SWC_PCP_MAP -/ ⟨0x280010, 1, 0x1000000, 1, 0x1, [⟨31, 0, .rw, 0x76543210⟩]⟩,
  /- SWC_DRAIN_MAX -/ ⟨0x280014, 1, 0x1000000, 1, 0x1, [⟨15, 0, .rw, 0x64⟩]⟩,
  /- SWC_FCT_FENCE -/ ⟨0x280018, 1, 0x1000000, 1, 0x1, [⟨31, 31, .ro, 0x0⟩, ⟨30, 28, .ro, 0x0⟩, ⟨4, 4, .wo, 0x0⟩, ⟨3, 0, .ro, 0x0⟩]⟩,
  /- SWC_FCT_STAT -/ ⟨0x28001C, 1, 0x1000000, 1, 0x1, [⟨31, 16, .ro, 0x0⟩, ⟨15, 0, .ro, 0x0⟩]⟩,
  /- SWC_AGE_CFG -/ ⟨0x280020, 1, 0x1000000, 1, 0x1, [⟨31, 31, .rw, 0x1⟩, ⟨15, 0, .rw, 0x12C⟩]⟩,
  /- SWC_DUP_CFG -/ ⟨0x280024, 1, 0x1000000, 1, 0x1, [⟨31, 16, .rc, 0x0⟩, ⟨15, 0, .rw, 0x190⟩]⟩,
  /- SWC_CNT -/ ⟨0x280028, 1, 0x1000000, 1, 0x1, [⟨31, 16, .rc, 0x0⟩, ⟨15, 0, .rc, 0x0⟩]⟩,
  /- SWC_HASH_SEED0 -/ ⟨0x280030, 1, 0x1000000, 1, 0x1, [⟨31, 0, .rw, 0x13579BDF⟩]⟩,
  /- SWC_HASH_SEED1 -/ ⟨0x280034, 1, 0x1000000, 1, 0x1, [⟨31, 0, .rw, 0x2468ACE0⟩]⟩,
  /- SWC_HASH_SEED2 -/ ⟨0x280038, 1, 0x1000000, 1, 0x1, [⟨31, 0, .rw, 0xF1E2D3C⟩]⟩,
  /- SWC_HASH_SEED3 -/ ⟨0x28003C, 1, 0x1000000, 1, 0x1, [⟨31, 0, .rw, 0x4B5A6978⟩]⟩,
  /- SWC_PORT_CFG -/ ⟨0x280100, 1, 0x1000000, 16, 0x20, [⟨31, 16, .rw, 0xFFFF⟩, ⟨15, 15, .rw, 0x0⟩, ⟨14, 14, .rw, 0x1⟩, ⟨13, 13, .rw, 0x1⟩, ⟨12, 11, .rw, 0x0⟩, ⟨10, 9, .rw, 0x1⟩, ⟨8, 0, .rw, 0x0⟩]⟩,
  /- SWC_PORT_QUOTA -/ ⟨0x280104, 1, 0x1000000, 16, 0x20, [⟨31, 16, .rw, 0x1000⟩, ⟨15, 0, .rw, 0x100⟩]⟩,
  /- SWC_PORT_OCC -/ ⟨0x280108, 1, 0x1000000, 16, 0x20, [⟨16, 16, .ro, 0x0⟩, ⟨15, 0, .ro, 0x0⟩]⟩,
  /- SWC_PORT_QDROP -/ ⟨0x28010C, 1, 0x1000000, 16, 0x20, [⟨31, 0, .rc, 0x0⟩]⟩,
  /- SWC_PORT_RDROP -/ ⟨0x280110, 1, 0x1000000, 16, 0x20, [⟨31, 0, .rc, 0x0⟩]⟩,
  /- SWC_PORT_MARK -/ ⟨0x280114, 1, 0x1000000, 16, 0x20, [⟨31, 0, .rc, 0x0⟩]⟩,
  /- SWC_SLOT_BUF -/ ⟨0x280400, 1, 0x1000000, 16, 0x10, [⟨31, 16, .ro, 0x0⟩, ⟨15, 0, .ro, 0x0⟩]⟩,
  /- SWC_SLOT_DROP -/ ⟨0x280404, 1, 0x1000000, 16, 0x10, [⟨31, 0, .rc, 0x0⟩]⟩,
  /- SWC_GATE_CFG -/ ⟨0x280600, 1, 0x1000000, 16, 0x20, [⟨31, 31, .rw, 0x0⟩, ⟨30, 30, .rw, 0x0⟩, ⟨29, 29, .wo, 0x0⟩, ⟨28, 28, .ro, 0x0⟩, ⟨27, 27, .ro, 0x0⟩]⟩,
  /- SWC_GATE_CYCLE -/ ⟨0x280604, 1, 0x1000000, 16, 0x20, [⟨31, 0, .rw, 0xF4240⟩]⟩,
  /- SWC_GATE_BASE -/ ⟨0x280608, 1, 0x1000000, 16, 0x20, [⟨31, 0, .rw, 0x0⟩]⟩,
  /- SWC_GATE_BASE.hi -/ ⟨0x28060C, 1, 0x1000000, 16, 0x20, [⟨31, 0, .rw, 0x0⟩]⟩,
  /- SWC_RING_QUOTA -/ ⟨0x282000, 1, 0x1000000, 512, 0x4, [⟨31, 16, .ro, 0x0⟩, ⟨15, 0, .rw, 0x100⟩]⟩,
  /- SWC_GCL -/ ⟨0x288000, 1, 0x1000000, 2048, 0x4, [⟨31, 24, .rw, 0xFF⟩, ⟨23, 0, .rw, 0x0⟩]⟩]

/-- Registers of block TIME, in offset order. -/
def regsTIME : List RegRow := [
  /- TIME_CTRL -/ ⟨0x300000, 1, 0x1000000, 1, 0x1, [⟨23, 20, .rws, 0x0⟩, ⟨17, 16, .rws, 0x0⟩, ⟨0, 0, .rws, 0x0⟩]⟩,
  /- TIME_STAT -/ ⟨0x300004, 1, 0x1000000, 1, 0x1, [⟨31, 31, .ro, 0x0⟩, ⟨30, 30, .ro, 0x0⟩, ⟨29, 29, .ro, 0x0⟩, ⟨7, 0, .ro, 0x0⟩]⟩,
  /- TIME_FREQ -/ ⟨0x300008, 1, 0x1000000, 1, 0x1, [⟨31, 0, .rw, 0x0⟩]⟩,
  /- TIME_SLEW_CFG -/ ⟨0x30000C, 1, 0x1000000, 1, 0x1, [⟨7, 0, .rw, 0xA⟩]⟩,
  /- TIME_NOW_FRAC -/ ⟨0x300010, 1, 0x1000000, 1, 0x1, [⟨15, 0, .ro, 0x0⟩]⟩,
  /- TIME_NOW_NS -/ ⟨0x300014, 1, 0x1000000, 1, 0x1, [⟨29, 0, .ro, 0x0⟩]⟩,
  /- TIME_NOW_SEC -/ ⟨0x300018, 1, 0x1000000, 1, 0x1, [⟨31, 0, .ro, 0x0⟩]⟩,
  /- TIME_NOW_SEC.hi -/ ⟨0x30001C, 1, 0x1000000, 1, 0x1, [⟨15, 0, .ro, 0x0⟩]⟩,
  /- TIME_STEP -/ ⟨0x300020, 1, 0x1000000, 1, 0x1, [⟨31, 0, .wo, 0x0⟩]⟩,
  /- TIME_STEP.hi -/ ⟨0x300024, 1, 0x1000000, 1, 0x1, [⟨31, 0, .wo, 0x0⟩]⟩,
  /- TIME_SLEW -/ ⟨0x300028, 1, 0x1000000, 1, 0x1, [⟨31, 0, .wo, 0x0⟩]⟩,
  /- TIME_SLEW_REM -/ ⟨0x30002C, 1, 0x1000000, 1, 0x1, [⟨31, 0, .ro, 0x0⟩]⟩,
  /- TIME_SET_NS -/ ⟨0x300030, 1, 0x1000000, 1, 0x1, [⟨29, 0, .rw, 0x0⟩]⟩,
  /- TIME_SET_SEC -/ ⟨0x300038, 1, 0x1000000, 1, 0x1, [⟨31, 0, .rw, 0x0⟩]⟩,
  /- TIME_SET_SEC.hi -/ ⟨0x30003C, 1, 0x1000000, 1, 0x1, [⟨15, 0, .rw, 0x0⟩]⟩,
  /- TIME_NOW64 -/ ⟨0x300040, 1, 0x1000000, 1, 0x1, [⟨31, 0, .ro, 0x0⟩]⟩,
  /- TIME_NOW64.hi -/ ⟨0x300044, 1, 0x1000000, 1, 0x1, [⟨31, 0, .ro, 0x0⟩]⟩,
  /- TIME_CNT -/ ⟨0x300048, 1, 0x1000000, 1, 0x1, [⟨31, 16, .rc, 0x0⟩, ⟨15, 0, .rc, 0x0⟩]⟩,
  /- TIME_PORT_CFG -/ ⟨0x300100, 1, 0x1000000, 16, 0x10, [⟨2, 1, .rw, 0x0⟩, ⟨0, 0, .rw, 0x1⟩]⟩,
  /- TIME_PORT_CORR -/ ⟨0x300104, 1, 0x1000000, 16, 0x10, [⟨31, 16, .rws, 0x0⟩, ⟨15, 0, .rws, 0x0⟩]⟩,
  /- TIME_PORT_LINKDLY -/ ⟨0x300108, 1, 0x1000000, 16, 0x10, [⟨31, 0, .rw, 0x0⟩]⟩,
  /- TIO_CFG -/ ⟨0x300200, 1, 0x1000000, 16, 0x20, [⟨31, 31, .rw, 0x0⟩, ⟨30, 28, .rw, 0x0⟩, ⟨27, 26, .rw, 0x0⟩, ⟨25, 25, .rw, 0x1⟩, ⟨24, 24, .rw, 0x0⟩, ⟨23, 22, .rw, 0x0⟩, ⟨15, 0, .rws, 0x0⟩]⟩,
  /- TIO_STAT -/ ⟨0x300204, 1, 0x1000000, 16, 0x20, [⟨31, 31, .w1c, 0x0⟩, ⟨30, 30, .w1c, 0x0⟩, ⟨27, 26, .ro, 0x0⟩, ⟨25, 25, .ro, 0x0⟩, ⟨18, 16, .ro, 0x0⟩, ⟨15, 0, .rc, 0x0⟩]⟩,
  /- TIO_TIME -/ ⟨0x300208, 1, 0x1000000, 16, 0x20, [⟨31, 0, .rw, 0x0⟩]⟩,
  /- TIO_TIME.hi -/ ⟨0x30020C, 1, 0x1000000, 16, 0x20, [⟨31, 0, .rw, 0x0⟩]⟩,
  /- TIO_PERIOD -/ ⟨0x300210, 1, 0x1000000, 16, 0x20, [⟨31, 0, .rw, 0x3B9ACA00⟩]⟩,
  /- TIO_WIDTH -/ ⟨0x300214, 1, 0x1000000, 16, 0x20, [⟨31, 0, .rw, 0x1DCD6500⟩]⟩,
  /- TIO_CAP -/ ⟨0x300218, 1, 0x1000000, 16, 0x20, [⟨31, 0, .ro, 0x0⟩]⟩,
  /- TIO_CAP.hi -/ ⟨0x30021C, 1, 0x1000000, 16, 0x20, [⟨31, 0, .ro, 0x0⟩]⟩]

/-- Registers of block CVN, in offset order. -/
def regsCVN : List RegRow := [
  /- CVN_CTRL -/ ⟨0x340000, 1, 0x1000000, 1, 0x1, [⟨8, 8, .rws, 0x0⟩, ⟨7, 4, .rws, 0x4⟩, ⟨3, 0, .rws, 0x4⟩]⟩,
  /- CVN_NODE -/ ⟨0x340004, 1, 0x1000000, 1, 0x1, [⟨11, 0, .rws, 0xFFF⟩]⟩,
  /- CVN_CYCLE -/ ⟨0x340008, 1, 0x1000000, 1, 0x1, [⟨23, 0, .rws, 0x3D090⟩]⟩,
  /- CVN_ALIGN_CFG -/ ⟨0x34000C, 1, 0x1000000, 1, 0x1, [⟨11, 8, .rws, 0x4⟩, ⟨3, 0, .rws, 0x1⟩]⟩,
  /- CVN_STAT -/ ⟨0x340010, 1, 0x1000000, 1, 0x1, [⟨31, 31, .ro, 0x0⟩, ⟨29, 28, .ro, 0x0⟩, ⟨7, 0, .ro, 0x0⟩]⟩,
  /- CVN_OFFSET -/ ⟨0x340014, 1, 0x1000000, 1, 0x1, [⟨31, 0, .ro, 0x0⟩]⟩,
  /- CVN_CH_CFG -/ ⟨0x340100, 1, 0x1000000, 2, 0x40, [⟨31, 31, .rw, 0x0⟩, ⟨30, 30, .rws, 0x0⟩, ⟨29, 29, .rws, 0x0⟩, ⟨23, 16, .rws, 0x0⟩]⟩,
  /- CVN_CH_STAT -/ ⟨0x340104, 1, 0x1000000, 2, 0x40, [⟨31, 29, .ro, 0x0⟩, ⟨28, 28, .ro, 0x0⟩, ⟨27, 26, .ro, 0x0⟩, ⟨25, 25, .ro, 0x0⟩, ⟨24, 24, .ro, 0x0⟩, ⟨23, 23, .ro, 0x0⟩, ⟨21, 12, .ro, 0x0⟩, ⟨11, 0, .ro, 0xFFF⟩]⟩,
  /- CVN_CH_MODE -/ ⟨0x340108, 1, 0x1000000, 2, 0x40, [⟨23, 16, .ro, 0x0⟩, ⟨15, 12, .ro, 0x0⟩, ⟨7, 0, .ro, 0x0⟩]⟩,
  /- CVN_CH_LAT -/ ⟨0x34010C, 1, 0x1000000, 2, 0x40, [⟨23, 0, .ro, 0x0⟩]⟩,
  /- CVN_CH_LDLY_U -/ ⟨0x340110, 1, 0x1000000, 2, 0x40, [⟨31, 0, .ro, 0x0⟩]⟩,
  /- CVN_CH_LDLY_D -/ ⟨0x340114, 1, 0x1000000, 2, 0x40, [⟨31, 0, .ro, 0x0⟩]⟩,
  /- CVN_CH_NBR -/ ⟨0x340118, 1, 0x1000000, 2, 0x40, [⟨27, 16, .ro, 0xFFF⟩, ⟨11, 0, .ro, 0xFFF⟩]⟩,
  /- CVN_CH_CNT1 -/ ⟨0x34011C, 1, 0x1000000, 2, 0x40, [⟨31, 16, .rc, 0x0⟩, ⟨15, 0, .rc, 0x0⟩]⟩,
  /- CVN_CH_CNT2 -/ ⟨0x340120, 1, 0x1000000, 2, 0x40, [⟨31, 16, .rc, 0x0⟩, ⟨15, 0, .rc, 0x0⟩]⟩,
  /- CVN_CH_CNT3 -/ ⟨0x340124, 1, 0x1000000, 2, 0x40, [⟨31, 16, .rc, 0x0⟩, ⟨15, 0, .rc, 0x0⟩]⟩,
  /- CVN_HDR.w0 -/ ⟨0x341000, 1, 0x1000000, 4, 0x1000, [⟨23, 0, .rw, 0x0⟩]⟩,
  /- CVN_HDR.w1 -/ ⟨0x341004, 1, 0x1000000, 4, 0x1000, [⟨23, 0, .rw, 0x0⟩]⟩,
  /- CVN_HDR.w2 -/ ⟨0x341008, 1, 0x1000000, 4, 0x1000, [⟨23, 0, .rw, 0x0⟩]⟩,
  /- CVN_HDR.w3 -/ ⟨0x34100C, 1, 0x1000000, 4, 0x1000, [⟨31, 31, .rw, 0x0⟩, ⟨23, 16, .rw, 0x0⟩, ⟨10, 0, .rw, 0x64⟩]⟩,
  /- CVN_ENT.w0 -/ ⟨0x341000, 1, 0x1000000, 1024, 0x10, [⟨31, 25, .rw, 0x0⟩, ⟨24, 24, .rw, 0x0⟩]⟩,
  /- CVN_ENT.w1 -/ ⟨0x341004, 1, 0x1000000, 1024, 0x10, [⟨31, 24, .rw, 0x0⟩, ⟨23, 18, .rw, 0x0⟩, ⟨17, 1, .rw, 0x0⟩, ⟨0, 0, .rw, 0x0⟩]⟩,
  /- CVN_ENT.w2 -/ ⟨0x341008, 1, 0x1000000, 1024, 0x10, [⟨31, 20, .rw, 0x0⟩, ⟨19, 9, .rw, 0x0⟩]⟩,
  /- CVN_ENT.w3 -/ ⟨0x34100C, 1, 0x1000000, 1024, 0x10, [⟨31, 31, .rw, 0x0⟩, ⟨30, 30, .rw, 0x0⟩, ⟨29, 29, .rw, 0x0⟩, ⟨28, 28, .rw, 0x0⟩, ⟨25, 12, .rw, 0x0⟩, ⟨11, 0, .rw, 0x0⟩]⟩]

/-- Registers of block MDB, in offset order. -/
def regsMDB : List RegRow := [
  /- MDB_CTRL -/ ⟨0x380000, 8, 0x2000, 1, 0x1, [⟨8, 8, .rw, 0x0⟩, ⟨7, 7, .rw, 0x0⟩, ⟨6, 6, .rw, 0x0⟩, ⟨5, 5, .rw, 0x0⟩, ⟨4, 4, .rw, 0x0⟩, ⟨2, 0, .rw, 0x0⟩]⟩,
  /- MDB_STAT -/ ⟨0x380004, 8, 0x2000, 1, 0x1, [⟨31, 29, .ro, 0x0⟩, ⟨28, 27, .ro, 0x0⟩, ⟨26, 26, .ro, 0x0⟩, ⟨25, 25, .ro, 0x0⟩, ⟨24, 24, .ro, 0x0⟩, ⟨23, 16, .ro, 0x0⟩, ⟨15, 9, .ro, 0x0⟩, ⟨8, 0, .ro, 0x0⟩]⟩,
  /- MDB_NBT -/ ⟨0x380008, 8, 0x2000, 1, 0x1, [⟨31, 24, .rw, 0x1⟩, ⟨23, 16, .rw, 0x3E⟩, ⟨15, 9, .rw, 0xF⟩, ⟨8, 2, .rw, 0xF⟩]⟩,
  /- MDB_DBT -/ ⟨0x38000C, 8, 0x2000, 1, 0x1, [⟨31, 31, .rw, 0x1⟩, ⟨30, 24, .rw, 0x1E⟩, ⟨23, 19, .rw, 0x0⟩, ⟨18, 14, .rw, 0x1C⟩, ⟨13, 10, .rw, 0x9⟩, ⟨9, 6, .rw, 0x9⟩]⟩,
  /- MDB_XBT -/ ⟨0x380010, 8, 0x2000, 1, 0x1, [⟨31, 31, .rw, 0x1⟩, ⟨30, 24, .rw, 0x6⟩, ⟨23, 19, .rw, 0x0⟩, ⟨18, 14, .rw, 0x4⟩, ⟨13, 10, .rw, 0x1⟩, ⟨9, 6, .rw, 0x1⟩]⟩,
  /- MDB_RAM_CFG -/ ⟨0x380014, 8, 0x2000, 1, 0x1, [⟨31, 16, .ro, 0x2C8⟩, ⟨9, 8, .rw, 0x1⟩, ⟨5, 0, .rw, 0x20⟩]⟩,
  /- MDB_DET_CFG -/ ⟨0x380018, 8, 0x2000, 1, 0x1, [⟨31, 31, .ro, 0x0⟩, ⟨26, 24, .ro, 0x0⟩, ⟨23, 16, .ro, 0x0⟩, ⟨4, 4, .rw, 0x0⟩, ⟨3, 0, .rw, 0x2⟩]⟩,
  /- MDB_TT_CFG -/ ⟨0x38001C, 8, 0x2000, 1, 0x1, [⟨31, 31, .rw, 0x0⟩, ⟨30, 28, .rw, 0x0⟩, ⟨27, 27, .rw, 0x0⟩, ⟨26, 16, .rw, 0x0⟩, ⟨15, 13, .rw, 0x0⟩]⟩,
  /- MDB_TT_BASE -/ ⟨0x380020, 8, 0x2000, 1, 0x1, [⟨31, 0, .rw, 0x0⟩]⟩,
  /- MDB_TT_BASE.hi -/ ⟨0x380024, 8, 0x2000, 1, 0x1, [⟨31, 0, .rw, 0x0⟩]⟩,
  /- MDB_TT_CYCLE -/ ⟨0x380028, 8, 0x2000, 1, 0x1, [⟨31, 0, .rw, 0xF4240⟩]⟩,
  /- MDB_TT_STAT -/ ⟨0x38002C, 8, 0x2000, 1, 0x1, [⟨31, 24, .rc, 0x0⟩, ⟨23, 16, .rc, 0x0⟩, ⟨15, 15, .ro, 0x0⟩, ⟨14, 12, .ro, 0x0⟩, ⟨5, 0, .ro, 0x0⟩]⟩,
  /- MDB_CLASH -/ ⟨0x380030, 8, 0x2000, 1, 0x1, [⟨31, 31, .ro, 0x0⟩, ⟨30, 29, .ro, 0x0⟩, ⟨28, 0, .ro, 0x0⟩]⟩,
  /- MDB_CNT -/ ⟨0x380034, 8, 0x2000, 1, 0x1, [⟨31, 16, .rc, 0x0⟩, ⟨15, 8, .rc, 0x0⟩, ⟨7, 0, .rc, 0x0⟩]⟩,
  /- MDB_DET -/ ⟨0x380040, 8, 0x2000, 8, 0x4, [⟨31, 24, .rw, 0x0⟩, ⟨23, 16, .rw, 0x0⟩, ⟨15, 9, .rw, 0x0⟩, ⟨8, 2, .rw, 0x0⟩, ⟨0, 0, .rw, 0x0⟩]⟩,
  /- MDB_FLT_ID -/ ⟨0x380100, 8, 0x2000, 32, 0x8, [⟨31, 31, .rw, 0x0⟩, ⟨30, 29, .rw, 0x0⟩, ⟨28, 0, .rw, 0x0⟩]⟩,
  /- MDB_FLT_MASK -/ ⟨0x380104, 8, 0x2000, 32, 0x8, [⟨29, 29, .rw, 0x0⟩, ⟨28, 0, .rw, 0x0⟩]⟩,
  /- MDB_TRG -/ ⟨0x380400, 8, 0x2000, 64, 0x8, [⟨23, 0, .rw, 0x0⟩]⟩,
  /- MDB_TRG.hi -/ ⟨0x380404, 8, 0x2000, 64, 0x8, [⟨31, 30, .rw, 0x0⟩, ⟨29, 29, .rw, 0x0⟩, ⟨28, 23, .rw, 0x0⟩, ⟨22, 20, .rw, 0x0⟩, ⟨19, 19, .rw, 0x0⟩, ⟨18, 14, .rw, 0x0⟩]⟩]

/-- Registers of block WAKE, in offset order. -/
def regsWAKE : List RegRow := [
  /- WAKE_CTRL -/ ⟨0x3A0000, 1, 0x1000000, 1, 0x1, [⟨31, 16, .rws, 0x0⟩, ⟨1, 1, .rws, 0x0⟩, ⟨0, 0, .rws, 0x0⟩]⟩,
  /- WAKE_CAUSE -/ ⟨0x3A0004, 1, 0x1000000, 1, 0x1, [⟨31, 29, .ros, 0x0⟩, ⟨2, 0, .ros, 0x0⟩]⟩,
  /- WAKE_CAUSE_ID -/ ⟨0x3A0008, 1, 0x1000000, 1, 0x1, [⟨29, 29, .ros, 0x0⟩, ⟨28, 0, .ros, 0x0⟩]⟩,
  /- WAKE_COMMIT -/ ⟨0x3A000C, 1, 0x1000000, 1, 0x1, [⟨15, 0, .rws, 0x3E8⟩]⟩,
  /- WAKE_BUS_CFG -/ ⟨0x3A0100, 1, 0x1000000, 8, 0x40, [⟨31, 16, .rws, 0x0⟩, ⟨15, 13, .rws, 0x4⟩, ⟨12, 6, .rws, 0x10⟩, ⟨5, 5, .rws, 0x0⟩, ⟨4, 4, .rws, 0x0⟩, ⟨3, 3, .rws, 0x0⟩, ⟨2, 2, .rws, 0x0⟩, ⟨1, 0, .rws, 0x0⟩]⟩,
  /- WAKE_BUS_CTRL -/ ⟨0x3A0104, 1, 0x1000000, 8, 0x40, [⟨1, 1, .wo, 0x0⟩, ⟨0, 0, .wo, 0x0⟩]⟩,
  /- WAKE_BUS_STAT -/ ⟨0x3A0108, 1, 0x1000000, 8, 0x40, [⟨31, 30, .ro, 0x0⟩, ⟨29, 27, .ro, 0x0⟩, ⟨21, 16, .ro, 0x0⟩, ⟨15, 8, .rc, 0x0⟩, ⟨7, 0, .rc, 0x0⟩]⟩,
  /- WAKE_BUS_ID -/ ⟨0x3A010C, 1, 0x1000000, 8, 0x40, [⟨29, 29, .rws, 0x0⟩, ⟨28, 0, .rws, 0x0⟩]⟩,
  /- WAKE_BUS_IDMASK -/ ⟨0x3A0110, 1, 0x1000000, 8, 0x40, [⟨28, 0, .rws, 0x0⟩]⟩,
  /- WAKE_BUS_DLC -/ ⟨0x3A0114, 1, 0x1000000, 8, 0x40, [⟨3, 0, .rws, 0x0⟩]⟩,
  /- WAKE_BUS_DMASK -/ ⟨0x3A0118, 1, 0x1000000, 8, 0x40, [⟨31, 0, .rws, 0x0⟩]⟩,
  /- WAKE_BUS_DMASK.hi -/ ⟨0x3A011C, 1, 0x1000000, 8, 0x40, [⟨31, 0, .rws, 0x0⟩]⟩,
  /- WAKE_BUS_AWAKE -/ ⟨0x3A0120, 1, 0x1000000, 8, 0x40, [⟨31, 0, .ro, 0x0⟩]⟩]

/-- Registers of block PSQ, in offset order. -/
def regsPSQ : List RegRow := [
  /- PSQ_START -/ ⟨0x3C0000, 1, 0x1000000, 1, 0x1, [⟨31, 0, .wo, 0x0⟩]⟩,
  /- PSQ_STOP -/ ⟨0x3C0004, 1, 0x1000000, 1, 0x1, [⟨31, 0, .wo, 0x0⟩]⟩,
  /- PSQ_CLKRST -/ ⟨0x3C0008, 1, 0x1000000, 1, 0x1, [⟨31, 0, .wo, 0x0⟩]⟩,
  /- PSQ_RUN -/ ⟨0x3C000C, 1, 0x1000000, 1, 0x1, [⟨31, 0, .ro, 0x0⟩]⟩,
  /- PSQ_TSTART_MASK -/ ⟨0x3C0010, 1, 0x1000000, 1, 0x1, [⟨31, 0, .rw, 0x0⟩]⟩,
  /- PSQ_TSTART_TIME -/ ⟨0x3C0018, 1, 0x1000000, 1, 0x1, [⟨31, 0, .rw, 0x0⟩]⟩,
  /- PSQ_TSTART_TIME.hi -/ ⟨0x3C001C, 1, 0x1000000, 1, 0x1, [⟨31, 0, .rw, 0x0⟩]⟩,
  /- PSQ_TSTART_STAT -/ ⟨0x3C0020, 1, 0x1000000, 1, 0x1, [⟨31, 31, .ro, 0x0⟩, ⟨30, 30, .w1c, 0x0⟩]⟩,
  /- PSQ_REMAP -/ ⟨0x3C0024, 1, 0x1000000, 1, 0x1, [⟨31, 31, .ro, 0x0⟩, ⟨30, 28, .ro, 0x0⟩, ⟨27, 20, .ros, 0x0⟩, ⟨19, 15, .ro, 0x0⟩, ⟨11, 6, .ro, 0x0⟩, ⟨5, 0, .ro, 0x0⟩]⟩,
  /- PSQ_PIN_LVL0 -/ ⟨0x3C0028, 1, 0x1000000, 1, 0x1, [⟨31, 0, .ro, 0x0⟩]⟩,
  /- PSQ_PIN_LVL1 -/ ⟨0x3C002C, 1, 0x1000000, 1, 0x1, [⟨15, 0, .ro, 0x0⟩]⟩,
  /- PSQ_MAP0 -/ ⟨0x3C0040, 1, 0x1000000, 1, 0x1, [⟨31, 0, .ro, 0x3020100⟩]⟩,
  /- PSQ_MAP1 -/ ⟨0x3C0044, 1, 0x1000000, 1, 0x1, [⟨31, 0, .ro, 0x7060504⟩]⟩,
  /- PSQ_MAP2 -/ ⟨0x3C0048, 1, 0x1000000, 1, 0x1, [⟨31, 0, .ro, 0xB0A0908⟩]⟩,
  /- PSQ_MAP3 -/ ⟨0x3C004C, 1, 0x1000000, 1, 0x1, [⟨31, 0, .ro, 0xF0E0D0C⟩]⟩,
  /- PSQ_MAP4 -/ ⟨0x3C0050, 1, 0x1000000, 1, 0x1, [⟨31, 0, .ro, 0x13121110⟩]⟩,
  /- PSQ_MAP5 -/ ⟨0x3C0054, 1, 0x1000000, 1, 0x1, [⟨31, 0, .ro, 0x17161514⟩]⟩,
  /- PSQ_MAP6 -/ ⟨0x3C0058, 1, 0x1000000, 1, 0x1, [⟨31, 0, .ro, 0x1B1A1918⟩]⟩,
  /- PSQ_MAP7 -/ ⟨0x3C005C, 1, 0x1000000, 1, 0x1, [⟨31, 0, .ro, 0x1F1E1D1C⟩]⟩,
  /- PSQ_PIO_CFG -/ ⟨0x3C0400, 1, 0x1000000, 48, 0x4, [⟨13, 8, .rw, 0x3F⟩, ⟨5, 4, .rw, 0x3⟩, ⟨3, 3, .rw, 0x0⟩, ⟨2, 2, .rw, 0x0⟩, ⟨1, 1, .rw, 0x0⟩, ⟨0, 0, .rw, 0x1⟩]⟩,
  /- PSQ_SEQ_PINS -/ ⟨0x3C1000, 1, 0x1000000, 32, 0x40, [⟨31, 26, .rw, 0x0⟩, ⟨25, 21, .rw, 0x0⟩, ⟨20, 15, .rw, 0x0⟩, ⟨14, 10, .rw, 0x0⟩, ⟨5, 0, .rw, 0x0⟩]⟩,
  /- PSQ_SEQ_CLKDIV -/ ⟨0x3C1004, 1, 0x1000000, 32, 0x40, [⟨23, 8, .rw, 0x1⟩, ⟨7, 0, .rw, 0x0⟩]⟩,
  /- PSQ_SEQ_SHIFT -/ ⟨0x3C1008, 1, 0x1000000, 32, 0x40, [⟨31, 30, .rw, 0x0⟩, ⟨27, 24, .rw, 0x0⟩, ⟨18, 18, .rw, 0x1⟩, ⟨17, 17, .rw, 0x1⟩, ⟨14, 10, .rw, 0x0⟩, ⟨9, 5, .rw, 0x0⟩]⟩,
  /- PSQ_SEQ_EXEC -/ ⟨0x3C100C, 1, 0x1000000, 32, 0x40, [⟨31, 31, .rw, 0x0⟩, ⟨22, 16, .rw, 0x0⟩, ⟨14, 8, .rw, 0x7F⟩, ⟨6, 0, .rw, 0x0⟩]⟩,
  /- PSQ_SEQ_STAT -/ ⟨0x3C1010, 1, 0x1000000, 32, 0x40, [⟨31, 31, .ro, 0x0⟩, ⟨30, 30, .ro, 0x0⟩, ⟨29, 29, .ro, 0x0⟩, ⟨27, 24, .ro, 0x0⟩, ⟨23, 21, .ro, 0x0⟩, ⟨20, 16, .ro, 0x0⟩, ⟨12, 8, .ro, 0x0⟩, ⟨6, 0, .ro, 0x0⟩]⟩,
  /- PSQ_SEQ_CTRL -/ ⟨0x3C1014, 1, 0x1000000, 32, 0x40, [⟨2, 2, .wo, 0x0⟩, ⟨1, 1, .wo, 0x0⟩, ⟨0, 0, .wo, 0x0⟩]⟩,
  /- PSQ_SEQ_INJECT -/ ⟨0x3C1018, 1, 0x1000000, 32, 0x40, [⟨31, 0, .wo, 0x0⟩]⟩,
  /- PSQ_SEQ_TXF -/ ⟨0x3C101C, 1, 0x1000000, 32, 0x40, [⟨31, 0, .wo, 0x0⟩]⟩,
  /- PSQ_SEQ_RXF -/ ⟨0x3C1020, 1, 0x1000000, 32, 0x40, [⟨31, 0, .rc, 0x0⟩]⟩,
  /- PSQ_SEQ_CNT -/ ⟨0x3C1024, 1, 0x1000000, 32, 0x40, [⟨31, 16, .rc, 0x0⟩, ⟨15, 0, .rc, 0x0⟩]⟩,
  /- PSQ_SEQ_LOOP -/ ⟨0x3C1028, 1, 0x1000000, 32, 0x40, [⟨31, 16, .rw, 0x0⟩, ⟨15, 0, .rw, 0x0⟩]⟩,
  /- PSQ_SEQ_MATCH -/ ⟨0x3C102C, 1, 0x1000000, 32, 0x40, [⟨31, 16, .rw, 0x0⟩, ⟨15, 0, .rw, 0x0⟩]⟩,
  /- PSQ_SEQ_IMEM -/ ⟨0x3C2000, 1, 0x1000000, 4096, 0x4, [⟨31, 0, .rw, 0x0⟩]⟩]

/-- Registers of block SIO, in offset order. -/
def regsSIO : List RegRow := [
  /- SIO_STAT -/ ⟨0x400000, 1, 0x1000000, 1, 0x1, [⟨31, 30, .ro, 0x0⟩, ⟨29, 29, .ro, 0x0⟩, ⟨28, 28, .ro, 0x0⟩, ⟨27, 27, .ro, 0x1⟩, ⟨26, 26, .ro, 0x0⟩, ⟨25, 25, .ro, 0x0⟩, ⟨24, 24, .ro, 0x0⟩, ⟨23, 23, .ro, 0x0⟩, ⟨22, 22, .ro, 0x0⟩, ⟨7, 0, .ro, 0x0⟩]⟩,
  /- SIO_CFG_VER -/ ⟨0x400004, 1, 0x1000000, 1, 0x1, [⟨31, 0, .ro, 0x0⟩]⟩,
  /- SIO_CFG_CRC -/ ⟨0x400008, 1, 0x1000000, 1, 0x1, [⟨31, 0, .ro, 0x0⟩]⟩,
  /- SIO_PEND_CRC -/ ⟨0x40000C, 1, 0x1000000, 1, 0x1, [⟨31, 0, .ro, 0x0⟩]⟩,
  /- SIO_IMG_CFG -/ ⟨0x400010, 1, 0x1000000, 1, 0x1, [⟨31, 24, .rw, 0x0⟩, ⟨21, 16, .rw, 0x0⟩, ⟨8, 0, .rw, 0x0⟩]⟩,
  /- SIO_IMG_OFF -/ ⟨0x400014, 1, 0x1000000, 1, 0x1, [⟨31, 22, .rw, 0x0⟩, ⟨16, 6, .rw, 0x0⟩]⟩,
  /- SIO_TP_CFG -/ ⟨0x400018, 1, 0x1000000, 1, 0x1, [⟨27, 24, .rw, 0x0⟩, ⟨19, 10, .rw, 0x0⟩, ⟨6, 0, .rw, 0x0⟩]⟩,
  /- SIO_OT_CFG -/ ⟨0x40001C, 1, 0x1000000, 1, 0x1, [⟨31, 26, .rw, 0x0⟩, ⟨21, 12, .rw, 0x0⟩, ⟨7, 0, .rw, 0x0⟩]⟩,
  /- SIO_PAR_CFG -/ ⟨0x400020, 1, 0x1000000, 1, 0x1, [⟨19, 16, .rw, 0x0⟩, ⟨10, 0, .rw, 0x0⟩]⟩,
  /- SIO_SUPPLY -/ ⟨0x400024, 1, 0x1000000, 1, 0x1, [⟨24, 16, .ro, 0x0⟩, ⟨8, 0, .ro, 0x0⟩]⟩,
  /- SIO_DQ_STAT -/ ⟨0x400028, 1, 0x1000000, 1, 0x1, [⟨31, 0, .ro, 0x0⟩]⟩,
  /- SIO_DQ_HALF -/ ⟨0x40002C, 1, 0x1000000, 1, 0x1, [⟨31, 0, .ro, 0xCCCCCCCC⟩]⟩,
  /- SIO_DI_LVL -/ ⟨0x400030, 1, 0x1000000, 1, 0x1, [⟨23, 16, .ro, 0x0⟩, ⟨15, 0, .ro, 0x0⟩]⟩,
  /- SIO_COMM -/ ⟨0x400034, 1, 0x1000000, 1, 0x1, [⟨31, 16, .rc, 0x0⟩, ⟨15, 0, .ros, 0x0⟩]⟩,
  /- SIO_LOG_STAT -/ ⟨0x400038, 1, 0x1000000, 1, 0x1, [⟨24, 16, .ro, 0x0⟩, ⟨7, 0, .ro, 0x0⟩]⟩,
  /- SIO_PAIR_CFG -/ ⟨0x400040, 1, 0x1000000, 8, 0x8, [⟨31, 31, .rw, 0x0⟩, ⟨30, 30, .rw, 0x0⟩, ⟨29, 28, .rw, 0x0⟩, ⟨27, 27, .rw, 0x0⟩, ⟨26, 25, .rw, 0x0⟩, ⟨24, 24, .rw, 0x0⟩, ⟨23, 16, .rw, 0x0⟩, ⟨15, 7, .rw, 0x0⟩, ⟨6, 0, .rw, 0x0⟩]⟩,
  /- SIO_PAIR_STAT -/ ⟨0x400044, 1, 0x1000000, 8, 0x8, [⟨31, 31, .ro, 0x0⟩, ⟨30, 30, .ro, 0x0⟩, ⟨29, 29, .ro, 0x0⟩, ⟨28, 28, .ro, 0x0⟩, ⟨27, 27, .ro, 0x0⟩, ⟨26, 26, .ro, 0x0⟩, ⟨23, 16, .ro, 0x0⟩, ⟨15, 0, .rc, 0x0⟩]⟩,
  /- SIO_DQ_CNT -/ ⟨0x400080, 1, 0x1000000, 8, 0x4, [⟨31, 16, .ros, 0x0⟩, ⟨15, 0, .ros, 0x0⟩]⟩]

/-- Registers of block HLTH, in offset order. -/
def regsHLTH : List RegRow := [
  /- HLTH_STAT -/ ⟨0x440000, 1, 0x1000000, 1, 0x1, [⟨31, 31, .ro, 0x0⟩, ⟨30, 30, .ro, 0x1⟩, ⟨29, 27, .ro, 0x7⟩, ⟨23, 16, .ros, 0x0⟩]⟩,
  /- HLTH_FLT_CFG -/ ⟨0x440004, 1, 0x1000000, 1, 0x1, [⟨31, 31, .rw, 0x0⟩, ⟨18, 16, .rws, 0x2⟩, ⟨7, 0, .rws, 0xA⟩]⟩,
  /- HLTH_HOLD_CFG -/ ⟨0x440008, 1, 0x1000000, 1, 0x1, [⟨15, 0, .rws, 0x64⟩]⟩,
  /- HLTH_SEL -/ ⟨0x44000C, 1, 0x1000000, 1, 0x1, [⟨11, 8, .rw, 0x0⟩, ⟨6, 0, .rw, 0x0⟩]⟩,
  /- HLTH_UNIT -/ ⟨0x440010, 1, 0x1000000, 1, 0x1, [⟨31, 31, .ro, 0x0⟩, ⟨30, 30, .w1c, 0x0⟩, ⟨29, 29, .ro, 0x0⟩, ⟨28, 28, .ro, 0x0⟩, ⟨9, 0, .ro, 0x0⟩]⟩,
  /- HLTH_RAW -/ ⟨0x440014, 1, 0x1000000, 1, 0x1, [⟨31, 0, .ro, 0x0⟩]⟩,
  /- HLTH_REF -/ ⟨0x440018, 1, 0x1000000, 1, 0x1, [⟨31, 0, .ro, 0x0⟩]⟩,
  /- HLTH_AVAIL -/ ⟨0x44001C, 1, 0x1000000, 1, 0x1, [⟨31, 0, .ros, 0x0⟩]⟩,
  /- HLTH_PARTIAL -/ ⟨0x440020, 1, 0x1000000, 1, 0x1, [⟨31, 0, .ros, 0x0⟩]⟩,
  /- HLTH_HOURS -/ ⟨0x440024, 1, 0x1000000, 1, 0x1, [⟨31, 0, .ros, 0x0⟩]⟩,
  /- HLTH_LOG_STAT -/ ⟨0x440028, 1, 0x1000000, 1, 0x1, [⟨23, 16, .ro, 0x0⟩, ⟨6, 0, .ro, 0x0⟩]⟩,
  /- HLTH_KIND_THR0 -/ ⟨0x440040, 1, 0x1000000, 1, 0x1, [⟨25, 16, .rws, 0x12C⟩, ⟨9, 0, .rws, 0x64⟩]⟩,
  /- HLTH_KIND_THR1 -/ ⟨0x440048, 1, 0x1000000, 1, 0x1, [⟨25, 16, .rws, 0x12C⟩, ⟨9, 0, .rws, 0x64⟩]⟩,
  /- HLTH_KIND_THR2 -/ ⟨0x440050, 1, 0x1000000, 1, 0x1, [⟨25, 16, .rws, 0x12C⟩, ⟨9, 0, .rws, 0x64⟩]⟩,
  /- HLTH_KIND_THR3 -/ ⟨0x440058, 1, 0x1000000, 1, 0x1, [⟨25, 16, .rws, 0x12C⟩, ⟨9, 0, .rws, 0x64⟩]⟩,
  /- HLTH_KIND_THR4 -/ ⟨0x440060, 1, 0x1000000, 1, 0x1, [⟨25, 16, .rws, 0x12C⟩, ⟨9, 0, .rws, 0x64⟩]⟩,
  /- HLTH_KIND_THR5 -/ ⟨0x440068, 1, 0x1000000, 1, 0x1, [⟨25, 16, .rws, 0x12C⟩, ⟨9, 0, .rws, 0x64⟩]⟩,
  /- HLTH_KIND_THR6 -/ ⟨0x440070, 1, 0x1000000, 1, 0x1, [⟨25, 16, .rws, 0x12C⟩, ⟨9, 0, .rws, 0x64⟩]⟩,
  /- HLTH_KIND_THR7 -/ ⟨0x440078, 1, 0x1000000, 1, 0x1, [⟨25, 16, .rws, 0x12C⟩, ⟨9, 0, .rws, 0x64⟩]⟩,
  /- HLTH_KIND_THR8 -/ ⟨0x440080, 1, 0x1000000, 1, 0x1, [⟨25, 16, .rws, 0x12C⟩, ⟨9, 0, .rws, 0x64⟩]⟩,
  /- HLTH_KIND_THR9 -/ ⟨0x440088, 1, 0x1000000, 1, 0x1, [⟨25, 16, .rws, 0x12C⟩, ⟨9, 0, .rws, 0x64⟩]⟩,
  /- HLTH_KIND_THR10 -/ ⟨0x440090, 1, 0x1000000, 1, 0x1, [⟨25, 16, .rws, 0x12C⟩, ⟨9, 0, .rws, 0x64⟩]⟩,
  /- HLTH_KIND_THR11 -/ ⟨0x440098, 1, 0x1000000, 1, 0x1, [⟨25, 16, .rws, 0x12C⟩, ⟨9, 0, .rws, 0x64⟩]⟩,
  /- HLTH_KIND_THR12 -/ ⟨0x4400A0, 1, 0x1000000, 1, 0x1, [⟨25, 16, .rws, 0x12C⟩, ⟨9, 0, .rws, 0x64⟩]⟩,
  /- HLTH_KIND_PARAM0 -/ ⟨0x440044, 1, 0x1000000, 1, 0x1, [⟨15, 0, .rws, 0x1F4⟩]⟩,
  /- HLTH_KIND_PARAM1 -/ ⟨0x44004C, 1, 0x1000000, 1, 0x1, [⟨15, 0, .rws, 0x1F4⟩]⟩,
  /- HLTH_KIND_PARAM2 -/ ⟨0x440054, 1, 0x1000000, 1, 0x1, [⟨15, 0, .rws, 0x3E8⟩]⟩,
  /- HLTH_KIND_PARAM3 -/ ⟨0x44005C, 1, 0x1000000, 1, 0x1, [⟨15, 0, .rws, 0x3E8⟩]⟩,
  /- HLTH_KIND_PARAM4 -/ ⟨0x440064, 1, 0x1000000, 1, 0x1, [⟨15, 0, .rws, 0x3E8⟩]⟩,
  /- HLTH_KIND_PARAM5 -/ ⟨0x44006C, 1, 0x1000000, 1, 0x1, [⟨15, 0, .rws, 0x1F4⟩]⟩,
  /- HLTH_KIND_PARAM6 -/ ⟨0x440074, 1, 0x1000000, 1, 0x1, [⟨15, 0, .rws, 0x1F4⟩]⟩,
  /- HLTH_KIND_PARAM7 -/ ⟨0x44007C, 1, 0x1000000, 1, 0x1, [⟨15, 0, .rws, 0x14⟩]⟩,
  /- HLTH_KIND_PARAM8 -/ ⟨0x440084, 1, 0x1000000, 1, 0x1, [⟨15, 0, .rws, 0xC10⟩]⟩,
  /- HLTH_KIND_PARAM9 -/ ⟨0x44008C, 1, 0x1000000, 1, 0x1, [⟨15, 0, .rws, 0xC10⟩]⟩,
  /- HLTH_KIND_PARAM10 -/ ⟨0x440094, 1, 0x1000000, 1, 0x1, [⟨15, 0, .rws, 0x64⟩]⟩,
  /- HLTH_KIND_PARAM11 -/ ⟨0x44009C, 1, 0x1000000, 1, 0x1, [⟨15, 0, .rws, 0x64⟩]⟩,
  /- HLTH_KIND_PARAM12 -/ ⟨0x4400A4, 1, 0x1000000, 1, 0x1, [⟨15, 0, .rws, 0x64⟩]⟩]

/-- Registers of block CLK, in offset order. -/
def regsCLK : List RegRow := [
  /- CLK_STAT -/ ⟨0x480000, 1, 0x1000000, 1, 0x1, [⟨17, 16, .ros, 0x0⟩, ⟨15, 15, .ros, 0x0⟩, ⟨14, 14, .ros, 0x0⟩, ⟨13, 13, .ro, 0x0⟩, ⟨12, 12, .ro, 0x0⟩, ⟨11, 11, .ro, 0x0⟩, ⟨10, 10, .ro, 0x0⟩, ⟨9, 9, .ro, 0x0⟩, ⟨8, 8, .ro, 0x0⟩, ⟨7, 7, .ro, 0x0⟩, ⟨6, 6, .ro, 0x0⟩, ⟨5, 5, .ro, 0x0⟩, ⟨4, 4, .ro, 0x0⟩, ⟨2, 2, .ros, 0x0⟩, ⟨1, 1, .ros, 0x0⟩, ⟨0, 0, .ros, 0x0⟩]⟩,
  /- CLK_PLL_CTRL -/ ⟨0x480004, 1, 0x1000000, 1, 0x1, [⟨10, 8, .wo, 0x0⟩, ⟨5, 5, .rws, 0x1⟩, ⟨4, 4, .rws, 0x1⟩, ⟨3, 3, .rws, 0x1⟩, ⟨2, 2, .rws, 0x1⟩, ⟨1, 1, .rws, 0x1⟩]⟩,
  /- CLK_REF_CFG -/ ⟨0x480008, 1, 0x1000000, 1, 0x1, [⟨2, 2, .rws, 0x0⟩, ⟨1, 0, .rws, 0x0⟩]⟩,
  /- CLK_MON_CFG -/ ⟨0x48000C, 1, 0x1000000, 1, 0x1, [⟨23, 16, .rws, 0x14⟩, ⟨15, 0, .rws, 0x12C0⟩]⟩,
  /- CLK_MON_STAT -/ ⟨0x480010, 1, 0x1000000, 1, 0x1, [⟨7, 7, .ro, 0x0⟩, ⟨6, 6, .ro, 0x0⟩, ⟨5, 5, .ro, 0x0⟩, ⟨4, 4, .ro, 0x0⟩, ⟨3, 3, .ro, 0x0⟩, ⟨2, 2, .ro, 0x0⟩, ⟨1, 1, .ro, 0x0⟩, ⟨0, 0, .ro, 0x0⟩]⟩,
  /- CLK_SWITCH_CNT -/ ⟨0x480014, 1, 0x1000000, 1, 0x1, [⟨31, 24, .ros, 0x0⟩, ⟨23, 16, .ros, 0x0⟩, ⟨15, 8, .ros, 0x0⟩, ⟨7, 0, .ros, 0x0⟩]⟩,
  /- CLK_MON_CNT -/ ⟨0x480020, 1, 0x1000000, 7, 0x4, [⟨23, 0, .ro, 0x0⟩]⟩]

/-- Registers of block PWR, in offset order. -/
def regsPWR : List RegRow := [
  /- PWR_STAT -/ ⟨0x4C0000, 1, 0x1000000, 1, 0x1, [⟨31, 31, .ro, 0x0⟩, ⟨30, 30, .ro, 0x0⟩, ⟨29, 29, .ro, 0x0⟩, ⟨28, 28, .ro, 0x0⟩, ⟨27, 27, .ro, 0x0⟩]⟩,
  /- PWR_VMON -/ ⟨0x4C0004, 1, 0x1000000, 1, 0x1, [⟨31, 16, .ro, 0x0⟩, ⟨15, 0, .ro, 0x0⟩]⟩,
  /- PWR_TEMP -/ ⟨0x4C0008, 1, 0x1000000, 1, 0x1, [⟨31, 16, .ros, 0x0⟩, ⟨15, 0, .ro, 0x0⟩]⟩,
  /- PWR_TEMP_CFG -/ ⟨0x4C000C, 1, 0x1000000, 1, 0x1, [⟨7, 0, .rws, 0x73⟩]⟩,
  /- PWR_CNT -/ ⟨0x4C0010, 1, 0x1000000, 1, 0x1, [⟨31, 16, .ros, 0x0⟩, ⟨15, 8, .ros, 0x0⟩, ⟨7, 0, .ros, 0x0⟩]⟩]

/-- Registers of block MDB8, in offset order. -/
def regsMDB8 : List RegRow := [
  /- MDB8_XBAR -/ ⟨0x390000, 1, 0x1000000, 1, 0x1, [⟨31, 0, .ro, 0x76543210⟩]⟩,
  /- MDB8_REMAP -/ ⟨0x390004, 1, 0x1000000, 1, 0x1, [⟨31, 31, .ro, 0x0⟩, ⟨30, 28, .ro, 0x0⟩, ⟨23, 16, .ros, 0x0⟩, ⟨10, 8, .ro, 0x0⟩, ⟨7, 4, .ro, 0x0⟩, ⟨3, 0, .ro, 0x0⟩]⟩]

/-- The registers of the blocks of R63, by the 64 KiB-aligned range that holds them. -/
def rowsAt (off : Nat) : List RegRow :=
  if 0x0 ≤ off ∧ off < 0x10000 then regsGEN else
  if 0x10000 ≤ off ∧ off < 0x20000 then regsHIF else
  if 0x20000 ≤ off ∧ off < 0x30000 then regsMBX else
  if 0x30000 ≤ off ∧ off < 0x40000 then regsWADI else
  if 0x40000 ≤ off ∧ off < 0x80000 then regsMEM else
  if 0x80000 ≤ off ∧ off < 0x1A0000 then regsPE else
  if 0x200000 ≤ off ∧ off < 0x240000 then regsMAC else
  if 0x280000 ≤ off ∧ off < 0x300000 then regsSWC else
  if 0x300000 ≤ off ∧ off < 0x340000 then regsTIME else
  if 0x340000 ≤ off ∧ off < 0x380000 then regsCVN else
  if 0x380000 ≤ off ∧ off < 0x390000 then regsMDB else
  if 0x390000 ≤ off ∧ off < 0x392000 then regsMDB8 else
  if 0x3A0000 ≤ off ∧ off < 0x3C0000 then regsWAKE else
  if 0x3C0000 ≤ off ∧ off < 0x400000 then regsPSQ else
  if 0x400000 ≤ off ∧ off < 0x440000 then regsSIO else
  if 0x440000 ≤ off ∧ off < 0x480000 then regsHLTH else
  if 0x480000 ≤ off ∧ off < 0x4C0000 then regsCLK else
  if 0x4C0000 ≤ off ∧ off < 0x500000 then regsPWR else []

/-- Fault sources of block GEN: bit, default class (R21), default reaction (R949). -/
def faultsGEN : List FaultRow := [⟨0, 1, 0⟩, ⟨1, 2, 0⟩, ⟨2, 1, 0⟩, ⟨3, 1, 0⟩]

/-- Fault sources of block HIF: bit, default class (R21), default reaction (R949). -/
def faultsHIF : List FaultRow := [⟨0, 1, 0⟩, ⟨1, 1, 0⟩, ⟨2, 1, 0⟩, ⟨3, 2, 0⟩, ⟨4, 1, 0⟩, ⟨5, 2, 0⟩, ⟨6, 0, 0⟩, ⟨7, 0, 0⟩]

/-- Fault sources of block MBX: bit, default class (R21), default reaction (R949). -/
def faultsMBX : List FaultRow := [⟨0, 1, 0⟩, ⟨1, 1, 0⟩, ⟨2, 0, 0⟩, ⟨3, 0, 0⟩, ⟨4, 0, 0⟩, ⟨5, 1, 0⟩]

/-- Fault sources of block WADI: bit, default class (R21), default reaction (R949). -/
def faultsWADI : List FaultRow := [⟨0, 1, 0⟩, ⟨1, 2, 0⟩, ⟨2, 2, 0⟩, ⟨3, 0, 0⟩]

/-- Fault sources of block MEM: bit, default class (R21), default reaction (R949). -/
def faultsMEM : List FaultRow := [⟨0, 0, 0⟩, ⟨1, 3, 0⟩, ⟨2, 1, 0⟩, ⟨3, 1, 0⟩, ⟨4, 2, 0⟩, ⟨5, 1, 0⟩, ⟨6, 2, 0⟩]

/-- Fault sources of block PE: bit, default class (R21), default reaction (R949). -/
def faultsPE : List FaultRow := [⟨0, 1, 0⟩, ⟨1, 1, 0⟩, ⟨2, 2, 1⟩, ⟨3, 2, 1⟩, ⟨4, 0, 0⟩, ⟨5, 3, 1⟩, ⟨6, 0, 0⟩, ⟨7, 3, 1⟩, ⟨8, 1, 0⟩, ⟨9, 2, 2⟩, ⟨10, 1, 0⟩, ⟨11, 2, 1⟩, ⟨12, 1, 0⟩]

/-- Fault sources of block MAC: bit, default class (R21), default reaction (R949). -/
def faultsMAC : List FaultRow := [⟨0, 1, 0⟩, ⟨1, 1, 0⟩, ⟨2, 0, 0⟩, ⟨3, 1, 0⟩, ⟨4, 2, 3⟩]

/-- Fault sources of block SWC: bit, default class (R21), default reaction (R949). -/
def faultsSWC : List FaultRow := [⟨0, 0, 0⟩, ⟨1, 2, 0⟩, ⟨2, 1, 0⟩, ⟨3, 1, 0⟩, ⟨4, 0, 0⟩, ⟨5, 2, 0⟩]

/-- Fault sources of block TIME: bit, default class (R21), default reaction (R949). -/
def faultsTIME : List FaultRow := [⟨0, 1, 0⟩, ⟨1, 1, 0⟩, ⟨2, 0, 0⟩, ⟨3, 1, 0⟩, ⟨4, 0, 0⟩, ⟨5, 0, 0⟩]

/-- Fault sources of block CVN: bit, default class (R21), default reaction (R949). -/
def faultsCVN : List FaultRow := [⟨0, 0, 0⟩, ⟨1, 2, 0⟩, ⟨2, 1, 0⟩, ⟨3, 1, 0⟩, ⟨4, 2, 0⟩, ⟨5, 2, 0⟩, ⟨6, 1, 0⟩]

/-- Fault sources of block MDB: bit, default class (R21), default reaction (R949). -/
def faultsMDB : List FaultRow := [⟨0, 0, 0⟩, ⟨1, 1, 0⟩, ⟨2, 1, 0⟩, ⟨3, 1, 0⟩, ⟨4, 0, 0⟩, ⟨5, 2, 0⟩, ⟨6, 1, 0⟩, ⟨7, 2, 0⟩, ⟨8, 1, 0⟩]

/-- Fault sources of block WAKE: bit, default class (R21), default reaction (R949). -/
def faultsWAKE : List FaultRow := [⟨0, 1, 0⟩, ⟨1, 1, 0⟩, ⟨2, 1, 0⟩, ⟨3, 0, 0⟩]

/-- Fault sources of block PSQ: bit, default class (R21), default reaction (R949). -/
def faultsPSQ : List FaultRow := [⟨0, 1, 0⟩, ⟨1, 1, 0⟩, ⟨2, 0, 0⟩, ⟨3, 1, 0⟩, ⟨4, 2, 0⟩, ⟨5, 2, 0⟩]

/-- Fault sources of block SIO: bit, default class (R21), default reaction (R949). -/
def faultsSIO : List FaultRow := [⟨0, 1, 0⟩, ⟨1, 2, 0⟩, ⟨2, 2, 0⟩, ⟨3, 2, 0⟩, ⟨4, 3, 4⟩, ⟨5, 3, 4⟩, ⟨6, 1, 0⟩, ⟨7, 1, 0⟩, ⟨8, 1, 0⟩, ⟨9, 2, 0⟩, ⟨10, 1, 0⟩, ⟨11, 1, 0⟩, ⟨12, 2, 0⟩, ⟨13, 3, 4⟩, ⟨14, 4, 5⟩, ⟨15, 4, 5⟩, ⟨16, 4, 4⟩, ⟨17, 1, 0⟩, ⟨18, 0, 0⟩, ⟨19, 1, 0⟩]

/-- Fault sources of block HLTH: bit, default class (R21), default reaction (R949). -/
def faultsHLTH : List FaultRow := [⟨0, 1, 0⟩, ⟨1, 2, 0⟩, ⟨2, 2, 0⟩, ⟨3, 1, 0⟩, ⟨4, 3, 0⟩, ⟨5, 3, 0⟩]

/-- Fault sources of block CLK: bit, default class (R21), default reaction (R949). -/
def faultsCLK : List FaultRow := [⟨0, 1, 0⟩, ⟨1, 1, 0⟩, ⟨2, 2, 0⟩, ⟨3, 0, 0⟩, ⟨4, 2, 0⟩, ⟨5, 4, 0⟩]

/-- Fault sources of block PWR: bit, default class (R21), default reaction (R949). -/
def faultsPWR : List FaultRow := [⟨0, 1, 0⟩, ⟨1, 4, 0⟩, ⟨2, 2, 0⟩, ⟨3, 4, 0⟩, ⟨4, 2, 0⟩]

end Sys2Proof.Machine
end

