-- ==== Sys2Proof/Machine/RegNames.lean ====
section
/-! DEFINITION. Names of the registers, fields and fault sources that the meanings use: MW0 offsets (R63 and the blocks'
register tables), bit ranges of the layout tables, bits of the source tables. -/

namespace Sys2Proof.Machine

/-- R122. -/ def GEN_ID : Nat := 0x0
/-- R124. -/ def GEN_MODE_STAT : Nat := 0x8
/-- R125. -/ def GEN_MODE_REQ : Nat := 0xC
/-- R126. -/ def GEN_RESET : Nat := 0x10
/-- R127. -/ def GEN_RST_CAUSE : Nat := 0x14
/-- R128. -/ def GEN_BOOT_CFG : Nat := 0x18
/-- R129. -/ def GEN_BOOT_STAT : Nat := 0x1C
/-- R130. -/ def GEN_IMG_VER (i : Nat) : Nat := 0x20 + i * 0x4
/-- R131. -/ def GEN_HOSTIMG_ADDR : Nat := 0x28
/-- R132. -/ def GEN_HOSTIMG_LEN : Nat := 0x30
/-- R133. -/ def GEN_HOSTIMG_GO : Nat := 0x34
/-- R134. -/ def GEN_UPD_STAT : Nat := 0x38
/-- R503. -/ def HIF_LINK (i : Nat) : Nat := 0x10008 + i * 0x4
/-- R504. -/ def HIF_DB_BASE (i : Nat) : Nat := 0x10010 + i * 0x8
/-- R507. -/ def HIF_CNT : Nat := 0x10024
/-- R508. -/ def HIF_RING_BASE (i : Nat) : Nat := 0x14000 + i * 0x20
/-- R508. -/ def HIF_RING_CBASE (i : Nat) : Nat := 0x14008 + i * 0x20
/-- R509. -/ def HIF_RING_CFG (i : Nat) : Nat := 0x14010 + i * 0x20
/-- R510. -/ def HIF_RING_BIND (i : Nat) : Nat := 0x14014 + i * 0x20
/-- R442. -/ def MBX_AGE_LIMIT : Nat := 0x20000
/-- R443. -/ def MBX_HOST_RESET : Nat := 0x20004
/-- R444. -/ def MBX_CNT : Nat := 0x20008
/-- R445. -/ def MBX_ROUTE (i : Nat) : Nat := 0x20100 + i * 0x4
/-- R346. -/ def WADI_CTRL : Nat := 0x30000
/-- R347. -/ def WADI_STAT : Nat := 0x30004
/-- R348. -/ def WADI_PERIOD : Nat := 0x30008
/-- R349. -/ def WADI_THR : Nat := 0x3000C
/-- R350. -/ def WADI_QUOTA_CFG : Nat := 0x30010
/-- R352. -/ def WADI_SHORT : Nat := 0x30018
/-- R353. -/ def WADI_RANK_MDB : Nat := 0x3001C
/-- R354. -/ def WADI_RANK_PSQ (i : Nat) : Nat := 0x30020 + i * 0x4
/-- R355. -/ def WADI_SLOT_CFG (i : Nat) : Nat := 0x30040 + i * 0x4
/-- R356. -/ def WADI_FUNC (i : Nat) : Nat := 0x30080 + i * 0x4
/-- R298. -/ def WADI_MIG_CFG : Nat := 0x30400
/-- R299. -/ def WADI_MIG_HEADROOM : Nat := 0x30404
/-- R300. -/ def WADI_MIG_STAT : Nat := 0x30408
/-- R301. -/ def WADI_MIG_DIRTY : Nat := 0x3040C
/-- R302. -/ def WADI_MIG_LAST : Nat := 0x30410
/-- R303. -/ def WADI_MIG_MAX : Nat := 0x30414
/-- R304. -/ def WADI_MIG_CNT : Nat := 0x30418
/-- R393. -/ def MEM_OWN_REQ : Nat := 0x40000
/-- R394. -/ def MEM_OWN_STAT : Nat := 0x40004
/-- R395. -/ def MEM_BANK_SEL : Nat := 0x40008
/-- R396. -/ def MEM_BANK_INFO : Nat := 0x4000C
/-- R397. -/ def MEM_SCRUB_CFG : Nat := 0x40010
/-- R398. -/ def MEM_MARCH_REQ : Nat := 0x40014
/-- R399. -/ def MEM_MARCH_STAT : Nat := 0x40018
/-- R401. -/ def MEM_REPAIR_REQ : Nat := 0x40020
/-- R402. -/ def MEM_REPAIR_STAT : Nat := 0x40024
/-- R403. -/ def MEM_REPAIR_CNT : Nat := 0x40028
/-- R404. -/ def MEM_NONOWN (i : Nat) : Nat := 0x40100 + i * 0x4
/-- R405. -/ def MEM_WAIT (i : Nat) : Nat := 0x40200 + i * 0x4
/-- R193. -/ def PE_STAT (n : Nat) : Nat := 0x80000 + n * 0x10000
/-- R194. -/ def PE_CTRL (n : Nat) : Nat := 0x80004 + n * 0x10000
/-- R195. -/ def PE_START_PC (n : Nat) : Nat := 0x80008 + n * 0x10000
/-- R196. -/ def PE_SP_INIT (n : Nat) : Nat := 0x8000C + n * 0x10000
/-- R197. -/ def PE_STACK_LIMIT (n : Nat) : Nat := 0x80010 + n * 0x10000
/-- R198. -/ def PE_WDOG (n : Nat) : Nat := 0x80014 + n * 0x10000
/-- R200. -/ def PE_LOAD (n : Nat) : Nat := 0x8001C + n * 0x10000
/-- R200. -/ def PE_STALL (n : Nat) : Nat := 0x80020 + n * 0x10000
/-- R201. -/ def PE_CYC_CNT (n : Nat) : Nat := 0x80024 + n * 0x10000
/-- R202. -/ def PE_MAXCYC (n : Nat) : Nat := 0x80028 + n * 0x10000
/-- R203. -/ def PE_ECC_CNT (n : Nat) : Nat := 0x8002C + n * 0x10000
/-- R204. -/ def PE_RO_COUNT (n : Nat) : Nat := 0x80030 + n * 0x10000
/-- R205. -/ def PE_IMG_ID (n : Nat) : Nat := 0x80034 + n * 0x10000
/-- R206. -/ def PE_BP (n : Nat) : Nat := 0x80038 + n * 0x10000
/-- R207. -/ def PE_DBG_SEL (n : Nat) : Nat := 0x8003C + n * 0x10000
/-- R208. -/ def PE_DBG_DATA (n : Nat) : Nat := 0x80040 + n * 0x10000
/-- R558. -/ def MAC_CTRL (n : Nat) : Nat := 0x200000 + n * 0x4000
/-- R559. -/ def MAC_MODE (n : Nat) : Nat := 0x200004 + n * 0x4000
/-- R560. -/ def MAC_NEG_CFG (n : Nat) : Nat := 0x200008 + n * 0x4000
/-- R561. -/ def MAC_STAT (n : Nat) : Nat := 0x20000C + n * 0x4000
/-- R562. -/ def MAC_CFG (n : Nat) : Nat := 0x200010 + n * 0x4000
/-- R563. -/ def MAC_VLAN (n : Nat) : Nat := 0x200014 + n * 0x4000
/-- R564. -/ def MAC_RED_CFG (n : Nat) : Nat := 0x200018 + n * 0x4000
/-- R565. -/ def MAC_RED_SEQ (n : Nat) : Nat := 0x20001C + n * 0x4000
/-- R566. -/ def MAC_EYE (n : Nat) : Nat := 0x200020 + n * 0x4000
/-- R567. -/ def MAC_PARTNER (n : Nat) : Nat := 0x200024 + n * 0x4000
/-- R568. -/ def MAC_CNT_HALF (n : Nat) : Nat := 0x200028 + n * 0x4000
/-- R569. -/ def MAC_DCNT (n : Nat) (i : Nat) : Nat := 0x200100 + n * 0x4000 + i * 0x8
/-- R570. -/ def MAC_ECNT (n : Nat) (i : Nat) : Nat := 0x200200 + n * 0x4000 + i * 0x4
/-- R620. -/ def SWC_POOL : Nat := 0x280000
/-- R621. -/ def SWC_CFG : Nat := 0x280004
/-- R622. -/ def SWC_MARK_THR : Nat := 0x280008
/-- R623. -/ def SWC_TQLIM : Nat := 0x28000C
/-- R624. -/ def SWC_PCP_MAP : Nat := 0x280010
/-- R625. -/ def SWC_DRAIN_MAX : Nat := 0x280014
/-- R626. -/ def SWC_FCT_FENCE : Nat := 0x280018
/-- R627. -/ def SWC_FCT_STAT : Nat := 0x28001C
/-- R628. -/ def SWC_AGE_CFG : Nat := 0x280020
/-- R629. -/ def SWC_DUP_CFG : Nat := 0x280024
/-- R630. -/ def SWC_CNT : Nat := 0x280028
/-- R631. -/ def SWC_HASH_SEED (i : Nat) : Nat := 0x280030 + i * 0x4
/-- R632. -/ def SWC_PORT_CFG (i : Nat) : Nat := 0x280100 + i * 0x20
/-- R633. -/ def SWC_PORT_QUOTA (i : Nat) : Nat := 0x280104 + i * 0x20
/-- R634. -/ def SWC_PORT_OCC (i : Nat) : Nat := 0x280108 + i * 0x20
/-- R635. -/ def SWC_PORT_QDROP (i : Nat) : Nat := 0x28010C + i * 0x20
/-- R635. -/ def SWC_PORT_RDROP (i : Nat) : Nat := 0x280110 + i * 0x20
/-- R635. -/ def SWC_PORT_MARK (i : Nat) : Nat := 0x280114 + i * 0x20
/-- R636. -/ def SWC_SLOT_BUF (i : Nat) : Nat := 0x280400 + i * 0x10
/-- R635. -/ def SWC_SLOT_DROP (i : Nat) : Nat := 0x280404 + i * 0x10
/-- R638. -/ def SWC_GATE_CFG (i : Nat) : Nat := 0x280600 + i * 0x20
/-- R639. -/ def SWC_GATE_CYCLE (i : Nat) : Nat := 0x280604 + i * 0x20
/-- R639. -/ def SWC_GATE_BASE (i : Nat) : Nat := 0x280608 + i * 0x20
/-- R637. -/ def SWC_RING_QUOTA (i : Nat) : Nat := 0x282000 + i * 0x4
/-- R640. -/ def SWC_GCL (i : Nat) : Nat := 0x288000 + i * 0x4
/-- R679. -/ def TIME_CTRL : Nat := 0x300000
/-- R680. -/ def TIME_STAT : Nat := 0x300004
/-- R681. -/ def TIME_FREQ : Nat := 0x300008
/-- R682. -/ def TIME_SLEW_CFG : Nat := 0x30000C
/-- R683. -/ def TIME_NOW_FRAC : Nat := 0x300010
/-- R684. -/ def TIME_STEP : Nat := 0x300020
/-- R685. -/ def TIME_SLEW : Nat := 0x300028
/-- R685. -/ def TIME_SLEW_REM : Nat := 0x30002C
/-- R686. -/ def TIME_SET_NS : Nat := 0x300030
/-- R686. -/ def TIME_SET_SEC : Nat := 0x300038
/-- R688. -/ def TIME_CNT : Nat := 0x300048
/-- R689. -/ def TIME_PORT_CFG (i : Nat) : Nat := 0x300100 + i * 0x10
/-- R690. -/ def TIME_PORT_CORR (i : Nat) : Nat := 0x300104 + i * 0x10
/-- R691. -/ def TIME_PORT_LINKDLY (i : Nat) : Nat := 0x300108 + i * 0x10
/-- R692. -/ def TIO_CFG (i : Nat) : Nat := 0x300200 + i * 0x20
/-- R693. -/ def TIO_STAT (i : Nat) : Nat := 0x300204 + i * 0x20
/-- R694. -/ def TIO_TIME (i : Nat) : Nat := 0x300208 + i * 0x20
/-- R694. -/ def TIO_PERIOD (i : Nat) : Nat := 0x300210 + i * 0x20
/-- R694. -/ def TIO_CAP (i : Nat) : Nat := 0x300218 + i * 0x20
/-- R747. -/ def CVN_CTRL : Nat := 0x340000
/-- R748. -/ def CVN_NODE : Nat := 0x340004
/-- R749. -/ def CVN_CYCLE : Nat := 0x340008
/-- R750. -/ def CVN_ALIGN_CFG : Nat := 0x34000C
/-- R751. -/ def CVN_STAT : Nat := 0x340010
/-- R752. -/ def CVN_OFFSET : Nat := 0x340014
/-- R753. -/ def CVN_CH_CFG (i : Nat) : Nat := 0x340100 + i * 0x40
/-- R754. -/ def CVN_CH_STAT (i : Nat) : Nat := 0x340104 + i * 0x40
/-- R755. -/ def CVN_CH_MODE (i : Nat) : Nat := 0x340108 + i * 0x40
/-- R756. -/ def CVN_CH_LAT (i : Nat) : Nat := 0x34010C + i * 0x40
/-- R757. -/ def CVN_CH_LDLY_U (i : Nat) : Nat := 0x340110 + i * 0x40
/-- R757. -/ def CVN_CH_LDLY_D (i : Nat) : Nat := 0x340114 + i * 0x40
/-- R758. -/ def CVN_CH_NBR (i : Nat) : Nat := 0x340118 + i * 0x40
/-- R759. -/ def CVN_CH_CNT1 (i : Nat) : Nat := 0x34011C + i * 0x40
/-- R759. -/ def CVN_CH_CNT2 (i : Nat) : Nat := 0x340120 + i * 0x40
/-- R759. -/ def CVN_CH_CNT3 (i : Nat) : Nat := 0x340124 + i * 0x40
/-- R793. -/ def MDB_CTRL (n : Nat) : Nat := 0x380000 + n * 0x2000
/-- R794. -/ def MDB_STAT (n : Nat) : Nat := 0x380004 + n * 0x2000
/-- R795. -/ def MDB_NBT (n : Nat) : Nat := 0x380008 + n * 0x2000
/-- R797. -/ def MDB_RAM_CFG (n : Nat) : Nat := 0x380014 + n * 0x2000
/-- R798. -/ def MDB_DET_CFG (n : Nat) : Nat := 0x380018 + n * 0x2000
/-- R800. -/ def MDB_TT_CFG (n : Nat) : Nat := 0x38001C + n * 0x2000
/-- R801. -/ def MDB_TT_BASE (n : Nat) : Nat := 0x380020 + n * 0x2000
/-- R801. -/ def MDB_TT_CYCLE (n : Nat) : Nat := 0x380028 + n * 0x2000
/-- R801. -/ def MDB_TT_STAT (n : Nat) : Nat := 0x38002C + n * 0x2000
/-- R802. -/ def MDB_CLASH (n : Nat) : Nat := 0x380030 + n * 0x2000
/-- R802. -/ def MDB_CNT (n : Nat) : Nat := 0x380034 + n * 0x2000
/-- R799. -/ def MDB_DET (n : Nat) (i : Nat) : Nat := 0x380040 + n * 0x2000 + i * 0x4
/-- R803. -/ def MDB_FLT_ID (n : Nat) (i : Nat) : Nat := 0x380100 + n * 0x2000 + i * 0x8
/-- R803. -/ def MDB_FLT_MASK (n : Nat) (i : Nat) : Nat := 0x380104 + n * 0x2000 + i * 0x8
/-- R804. -/ def MDB_TRG (n : Nat) (i : Nat) : Nat := 0x380400 + n * 0x2000 + i * 0x8
/-- R829. -/ def WAKE_CTRL : Nat := 0x3A0000
/-- R829. -/ def WAKE_CAUSE : Nat := 0x3A0004
/-- R829. -/ def WAKE_CAUSE_ID : Nat := 0x3A0008
/-- R829. -/ def WAKE_COMMIT : Nat := 0x3A000C
/-- R830. -/ def WAKE_BUS_CFG (i : Nat) : Nat := 0x3A0100 + i * 0x40
/-- R830. -/ def WAKE_BUS_CTRL (i : Nat) : Nat := 0x3A0104 + i * 0x40
/-- R831. -/ def WAKE_BUS_STAT (i : Nat) : Nat := 0x3A0108 + i * 0x40
/-- R868. -/ def PSQ_START : Nat := 0x3C0000
/-- R868. -/ def PSQ_STOP : Nat := 0x3C0004
/-- R868. -/ def PSQ_CLKRST : Nat := 0x3C0008
/-- R868. -/ def PSQ_TSTART_MASK : Nat := 0x3C0010
/-- R868. -/ def PSQ_TSTART_TIME : Nat := 0x3C0018
/-- R868. -/ def PSQ_TSTART_STAT : Nat := 0x3C0020
/-- R870. -/ def PSQ_REMAP : Nat := 0x3C0024
/-- R870. -/ def PSQ_MAP (i : Nat) : Nat := 0x3C0040 + i * 0x4
/-- R871. -/ def PSQ_PIO_CFG (i : Nat) : Nat := 0x3C0400 + i * 0x4
/-- R872. -/ def PSQ_SEQ_PINS (i : Nat) : Nat := 0x3C1000 + i * 0x40
/-- R872. -/ def PSQ_SEQ_CLKDIV (i : Nat) : Nat := 0x3C1004 + i * 0x40
/-- R872. -/ def PSQ_SEQ_SHIFT (i : Nat) : Nat := 0x3C1008 + i * 0x40
/-- R873. -/ def PSQ_SEQ_EXEC (i : Nat) : Nat := 0x3C100C + i * 0x40
/-- R873. -/ def PSQ_SEQ_CTRL (i : Nat) : Nat := 0x3C1014 + i * 0x40
/-- R874. -/ def PSQ_SEQ_INJECT (i : Nat) : Nat := 0x3C1018 + i * 0x40
/-- R874. -/ def PSQ_SEQ_TXF (i : Nat) : Nat := 0x3C101C + i * 0x40
/-- R874. -/ def PSQ_SEQ_RXF (i : Nat) : Nat := 0x3C1020 + i * 0x40
/-- R874. -/ def PSQ_SEQ_CNT (i : Nat) : Nat := 0x3C1024 + i * 0x40
/-- R872. -/ def PSQ_SEQ_LOOP (i : Nat) : Nat := 0x3C1028 + i * 0x40
/-- R872. -/ def PSQ_SEQ_MATCH (i : Nat) : Nat := 0x3C102C + i * 0x40
/-- R934. -/ def SIO_STAT : Nat := 0x400000
/-- R935. -/ def SIO_CFG_VER : Nat := 0x400004
/-- R935. -/ def SIO_CFG_CRC : Nat := 0x400008
/-- R935. -/ def SIO_PEND_CRC : Nat := 0x40000C
/-- R936. -/ def SIO_IMG_CFG : Nat := 0x400010
/-- R936. -/ def SIO_IMG_OFF : Nat := 0x400014
/-- R937. -/ def SIO_TP_CFG : Nat := 0x400018
/-- R937. -/ def SIO_OT_CFG : Nat := 0x40001C
/-- R937. -/ def SIO_PAR_CFG : Nat := 0x400020
/-- R938. -/ def SIO_SUPPLY : Nat := 0x400024
/-- R939. -/ def SIO_DQ_STAT : Nat := 0x400028
/-- R939. -/ def SIO_DQ_HALF : Nat := 0x40002C
/-- R938. -/ def SIO_DI_LVL : Nat := 0x400030
/-- R938. -/ def SIO_COMM : Nat := 0x400034
/-- R938. -/ def SIO_LOG_STAT : Nat := 0x400038
/-- R940. -/ def SIO_PAIR_CFG (i : Nat) : Nat := 0x400040 + i * 0x8
/-- R941. -/ def SIO_PAIR_STAT (i : Nat) : Nat := 0x400044 + i * 0x8
/-- R942. -/ def SIO_DQ_CNT (i : Nat) : Nat := 0x400080 + i * 0x4
/-- R989. -/ def HLTH_STAT : Nat := 0x440000
/-- R989. -/ def HLTH_FLT_CFG : Nat := 0x440004
/-- R990. -/ def HLTH_SEL : Nat := 0x44000C
/-- R990. -/ def HLTH_UNIT : Nat := 0x440010
/-- R991. -/ def HLTH_AVAIL : Nat := 0x44001C
/-- R991. -/ def HLTH_PARTIAL : Nat := 0x440020
/-- R991. -/ def HLTH_HOURS : Nat := 0x440024
/-- R992. -/ def HLTH_KIND_THR (i : Nat) : Nat := 0x440040 + i * 0x8
/-- R992. -/ def HLTH_KIND_PARAM (i : Nat) : Nat := 0x440044 + i * 0x8
/-- R74. -/ def CLK_STAT : Nat := 0x480000
/-- R75. -/ def CLK_PLL_CTRL : Nat := 0x480004
/-- R76. -/ def CLK_REF_CFG : Nat := 0x480008
/-- R78. -/ def CLK_MON_CFG : Nat := 0x48000C
/-- R79. -/ def CLK_MON_STAT : Nat := 0x480010
/-- R80. -/ def CLK_SWITCH_CNT : Nat := 0x480014
/-- R81. -/ def CLK_MON_CNT (i : Nat) : Nat := 0x480020 + i * 0x4
/-- R1029. -/ def PWR_STAT : Nat := 0x4C0000
/-- R1030. -/ def PWR_VMON : Nat := 0x4C0004
/-- R1031. -/ def PWR_TEMP : Nat := 0x4C0008
/-- R1032. -/ def PWR_TEMP_CFG : Nat := 0x4C000C
/-- R1033. -/ def PWR_CNT : Nat := 0x4C0010
/-- R806. -/ def MDB8_XBAR : Nat := 0x390000
/-- R806. -/ def MDB8_REMAP : Nat := 0x390004

def GEN_MODE_STAT_SAFE_CAUSE : Fld := ⟨19, 16⟩
def GEN_MODE_STAT_REFUSE : Fld := ⟨15, 12⟩
def GEN_MODE_STAT_SHORT : Fld := ⟨9, 9⟩
def GEN_MODE_STAT_QUIESCED : Fld := ⟨8, 8⟩
def GEN_MODE_STAT_PREV_MODE : Fld := ⟨6, 4⟩
def GEN_MODE_STAT_MODE : Fld := ⟨2, 0⟩
def GEN_RST_CAUSE_WARM_COUNT : Fld := ⟨31, 24⟩
def GEN_RST_CAUSE_STANDBY_EXIT : Fld := ⟨4, 4⟩
def GEN_RST_CAUSE_WARM_SC : Fld := ⟨3, 3⟩
def GEN_RST_CAUSE_WARM_HOST : Fld := ⟨2, 2⟩
def GEN_RST_CAUSE_BROWNOUT : Fld := ⟨1, 1⟩
def GEN_RST_CAUSE_PIN : Fld := ⟨0, 0⟩
def GEN_BOOT_CFG_SC_PREF : Fld := ⟨4, 4⟩
def GEN_BOOT_CFG_SRC : Fld := ⟨1, 0⟩
def GEN_BOOT_STAT_MARCH_FAIL : Fld := ⟨23, 16⟩
def GEN_BOOT_STAT_DONE : Fld := ⟨15, 15⟩
def GEN_BOOT_STAT_TRIAL : Fld := ⟨14, 14⟩
def GEN_BOOT_STAT_WAIT_HOST : Fld := ⟨13, 13⟩
def GEN_BOOT_STAT_ERR : Fld := ⟨11, 8⟩
def GEN_BOOT_STAT_SOURCE : Fld := ⟨5, 4⟩
def GEN_BOOT_STAT_STAGE : Fld := ⟨3, 0⟩
def GEN_HOSTIMG_LEN_LEN : Fld := ⟨24, 0⟩
def HIF_DB_BASE_EN : Fld := ⟨0, 0⟩
def HIF_CNT_DMA_ERR : Fld := ⟨31, 16⟩
def HIF_CNT_RING_ERR : Fld := ⟨15, 0⟩
def HIF_RING_CFG_EN : Fld := ⟨31, 31⟩
def HIF_RING_CFG_TYPE : Fld := ⟨30, 28⟩
def HIF_RING_CFG_SIZE : Fld := ⟨27, 24⟩
def HIF_RING_CFG_VEC : Fld := ⟨21, 16⟩
def HIF_RING_CFG_MOD : Fld := ⟨15, 6⟩
def HIF_RING_BIND_BIND : Fld := ⟨8, 0⟩
def MBX_AGE_LIMIT_LIMIT : Fld := ⟨15, 0⟩
def MBX_HOST_RESET_B : Fld := ⟨1, 1⟩
def MBX_HOST_RESET_A : Fld := ⟨0, 0⟩
def MBX_CNT_REJECT : Fld := ⟨31, 16⟩
def MBX_CNT_AGED : Fld := ⟨15, 0⟩
def MBX_ROUTE_EN : Fld := ⟨31, 31⟩
def MBX_ROUTE_COMPAT : Fld := ⟨30, 30⟩
def MBX_ROUTE_DEST : Fld := ⟨12, 8⟩
def MBX_ROUTE_MB : Fld := ⟨1, 0⟩
def WADI_CTRL_VETO_WIN : Fld := ⟨23, 16⟩
def WADI_CTRL_REPORT_EVERY : Fld := ⟨15, 8⟩
def WADI_CTRL_QUOTA_AUTO : Fld := ⟨4, 4⟩
def WADI_CTRL_REBAL_EN : Fld := ⟨3, 3⟩
def WADI_CTRL_POLICY : Fld := ⟨1, 0⟩
def WADI_THR_LOAD_HIGH : Fld := ⟨31, 24⟩
def WADI_THR_HYST : Fld := ⟨23, 16⟩
def WADI_THR_REBAL_GAP : Fld := ⟨15, 0⟩
def WADI_QUOTA_CFG_MAX_MULT : Fld := ⟨19, 16⟩
def WADI_QUOTA_CFG_POOL_MIN : Fld := ⟨15, 0⟩
def WADI_SHORT_SHED : Fld := ⟨15, 8⟩
def WADI_SLOT_CFG_PIN_EN : Fld := ⟨31, 31⟩
def WADI_SLOT_CFG_PIN_ENG : Fld := ⟨30, 26⟩
def WADI_SLOT_CFG_NO_REBAL : Fld := ⟨25, 25⟩
def WADI_SLOT_CFG_NO_RESTART : Fld := ⟨24, 24⟩
def WADI_SLOT_CFG_RANK : Fld := ⟨23, 20⟩
def WADI_SLOT_CFG_FORBID : Fld := ⟨17, 0⟩
def WADI_FUNC_PENDING : Fld := ⟨17, 17⟩
def WADI_FUNC_CUR : Fld := ⟨16, 16⟩
def WADI_FUNC_SHED_OK : Fld := ⟨8, 8⟩
def WADI_FUNC_FUNC_MODE : Fld := ⟨0, 0⟩
def WADI_MIG_CFG_RETRY_MAX : Fld := ⟨31, 24⟩
def WADI_MIG_CFG_PASS_MAX : Fld := ⟨23, 16⟩
def WADI_MIG_CFG_FINAL_MAX : Fld := ⟨15, 8⟩
def WADI_MIG_CFG_STOP_THR : Fld := ⟨7, 0⟩
def WADI_MIG_HEADROOM_CELLS : Fld := ⟨15, 0⟩
def WADI_MIG_STAT_ACTIVE : Fld := ⟨31, 31⟩
def WADI_MIG_STAT_PHASE : Fld := ⟨30, 28⟩
def WADI_MIG_STAT_CAUSE : Fld := ⟨27, 24⟩
def WADI_MIG_STAT_POISON : Fld := ⟨23, 20⟩
def WADI_MIG_STAT_SLOT : Fld := ⟨19, 16⟩
def WADI_MIG_STAT_TARGET : Fld := ⟨12, 8⟩
def WADI_MIG_STAT_SOURCE : Fld := ⟨4, 0⟩
def WADI_MIG_DIRTY_PASS : Fld := ⟨23, 16⟩
def WADI_MIG_DIRTY_RETRY : Fld := ⟨15, 12⟩
def WADI_MIG_LAST_FINAL_LINES : Fld := ⟨27, 16⟩
def WADI_MIG_LAST_BLACKOUT_NS : Fld := ⟨15, 0⟩
def WADI_MIG_MAX_BLACKOUT_NS : Fld := ⟨15, 0⟩
def WADI_MIG_CNT_DONE : Fld := ⟨31, 16⟩
def WADI_MIG_CNT_ABANDONED : Fld := ⟨15, 0⟩
def MEM_OWN_STAT_BUSY : Fld := ⟨31, 31⟩
def MEM_OWN_STAT_RESULT : Fld := ⟨30, 28⟩
def MEM_OWN_STAT_OWNER : Fld := ⟨13, 8⟩
def MEM_OWN_STAT_BANK : Fld := ⟨5, 0⟩
def MEM_BANK_SEL_KIND : Fld := ⟨7, 7⟩
def MEM_BANK_SEL_BANK : Fld := ⟨6, 0⟩
def MEM_SCRUB_CFG_EN : Fld := ⟨31, 31⟩
def MEM_MARCH_STAT_BUSY : Fld := ⟨31, 31⟩
def MEM_MARCH_STAT_RESULT : Fld := ⟨30, 28⟩
def MEM_MARCH_STAT_FAIL_WORDS : Fld := ⟨27, 16⟩
def MEM_MARCH_STAT_TARGET : Fld := ⟨8, 0⟩
def MEM_REPAIR_STAT_ACTIVE : Fld := ⟨31, 31⟩
def MEM_REPAIR_STAT_STEP : Fld := ⟨30, 28⟩
def MEM_REPAIR_STAT_CAUSE : Fld := ⟨27, 24⟩
def MEM_REPAIR_STAT_KIND : Fld := ⟨23, 23⟩
def MEM_REPAIR_STAT_TARGET : Fld := ⟨22, 16⟩
def MEM_REPAIR_STAT_COMMIT : Fld := ⟨15, 15⟩
def MEM_REPAIR_STAT_ORIGINAL : Fld := ⟨14, 8⟩
def MEM_REPAIR_STAT_LOGICAL : Fld := ⟨5, 0⟩
def MEM_REPAIR_CNT_DONE : Fld := ⟨31, 16⟩
def MEM_REPAIR_CNT_ABANDONED : Fld := ⟨15, 0⟩
def MEM_NONOWN_BANK : Fld := ⟨25, 20⟩
def MEM_NONOWN_COUNT : Fld := ⟨19, 0⟩
def MEM_WAIT_CYCLES : Fld := ⟨23, 0⟩
def PE_START_PC_PC : Fld := ⟨16, 3⟩
def PE_SP_INIT_TOP : Fld := ⟨17, 3⟩
def PE_STACK_LIMIT_LIMIT : Fld := ⟨16, 3⟩
def PE_WDOG_TIMEOUT : Fld := ⟨15, 0⟩
def PE_ECC_CNT_DMEM_CE : Fld := ⟨31, 16⟩
def PE_ECC_CNT_IMEM_CE : Fld := ⟨15, 0⟩
def PE_RO_COUNT_COUNT : Fld := ⟨23, 0⟩
def PE_BP_EN : Fld := ⟨31, 31⟩
def PE_BP_ADDR : Fld := ⟨16, 3⟩
def PE_DBG_SEL_SEL : Fld := ⟨5, 0⟩
def MAC_CTRL_EN : Fld := ⟨0, 0⟩
def MAC_MODE_ALLOW : Fld := ⟨15, 8⟩
def MAC_MODE_AN73 : Fld := ⟨7, 7⟩
def MAC_MODE_FEC : Fld := ⟨5, 5⟩
def MAC_MODE_CARAVAN : Fld := ⟨4, 4⟩
def MAC_NEG_CFG_SGMII_ROLE : Fld := ⟨16, 16⟩
def MAC_NEG_CFG_SGMII_SPEED : Fld := ⟨13, 12⟩
def MAC_STAT_LINK : Fld := ⟨31, 31⟩
def MAC_STAT_NEG_DONE : Fld := ⟨30, 30⟩
def MAC_STAT_FEC_ACTIVE : Fld := ⟨29, 29⟩
def MAC_STAT_PORT_DOWN : Fld := ⟨28, 28⟩
def MAC_STAT_RATE : Fld := ⟨23, 20⟩
def MAC_STAT_RESULT : Fld := ⟨15, 12⟩
def MAC_STAT_MODE : Fld := ⟨10, 8⟩
def MAC_STAT_DOWN_COUNT : Fld := ⟨7, 0⟩
def MAC_CFG_MAXLEN : Fld := ⟨31, 16⟩
def MAC_CFG_ACCEPT : Fld := ⟨4, 3⟩
def MAC_CFG_PASS_BAD : Fld := ⟨2, 2⟩
def MAC_CFG_PAUSE_RX : Fld := ⟨1, 1⟩
def MAC_VLAN_TPID : Fld := ⟨31, 16⟩
def MAC_VLAN_PCP : Fld := ⟨15, 13⟩
def MAC_VLAN_DEI : Fld := ⟨12, 12⟩
def MAC_VLAN_PVID : Fld := ⟨11, 0⟩
def MAC_RED_CFG_PAIR : Fld := ⟨11, 8⟩
def MAC_RED_CFG_STRIP : Fld := ⟨4, 4⟩
def MAC_RED_CFG_INSERT : Fld := ⟨3, 3⟩
def MAC_RED_CFG_LAN : Fld := ⟨2, 2⟩
def MAC_RED_CFG_ROLE : Fld := ⟨1, 0⟩
def MAC_RED_SEQ_SEQ : Fld := ⟨15, 0⟩
def MAC_EYE_VALID : Fld := ⟨31, 31⟩
def MAC_EYE_HEIGHT : Fld := ⟨23, 16⟩
def MAC_EYE_WIDTH : Fld := ⟨7, 0⟩
def MAC_PARTNER_WORD : Fld := ⟨15, 0⟩
def SWC_CFG_CT_START : Fld := ⟨26, 24⟩
def SWC_MARK_THR_ECT_ONLY : Fld := ⟨31, 31⟩
def SWC_MARK_THR_THR : Fld := ⟨15, 0⟩
def SWC_FCT_FENCE_BUSY : Fld := ⟨31, 31⟩
def SWC_FCT_FENCE_RESULT : Fld := ⟨30, 28⟩
def SWC_FCT_FENCE_GEN : Fld := ⟨3, 0⟩
def SWC_FCT_STAT_LOST : Fld := ⟨15, 0⟩
def SWC_AGE_CFG_EN : Fld := ⟨31, 31⟩
def SWC_DUP_CFG_DISCARD : Fld := ⟨31, 16⟩
def SWC_DUP_CFG_FORGET : Fld := ⟨15, 0⟩
def SWC_CNT_LEARN_FULL : Fld := ⟨31, 16⟩
def SWC_CNT_LEARN_LOST : Fld := ⟨15, 0⟩
def SWC_PORT_CFG_FLOOD : Fld := ⟨31, 16⟩
def SWC_PORT_CFG_REMOVE : Fld := ⟨15, 15⟩
def SWC_PORT_CFG_CT_EN : Fld := ⟨14, 14⟩
def SWC_PORT_CFG_LEARN : Fld := ⟨13, 13⟩
def SWC_PORT_CFG_KSEL : Fld := ⟨12, 11⟩
def SWC_PORT_CFG_DEF : Fld := ⟨10, 9⟩
def SWC_PORT_CFG_DEF_RING : Fld := ⟨8, 0⟩
def SWC_PORT_QUOTA_LIMIT : Fld := ⟨31, 16⟩
def SWC_PORT_QUOTA_RESERVE : Fld := ⟨15, 0⟩
def SWC_PORT_OCC_DRAINED : Fld := ⟨16, 16⟩
def SWC_SLOT_BUF_QUOTA : Fld := ⟨15, 0⟩
def SWC_GATE_CFG_EN : Fld := ⟨31, 31⟩
def SWC_GATE_CFG_GUARD : Fld := ⟨30, 30⟩
def SWC_GATE_CFG_ACTIVE : Fld := ⟨28, 28⟩
def SWC_GATE_CFG_PEND : Fld := ⟨27, 27⟩
def SWC_RING_QUOTA_QUOTA : Fld := ⟨15, 0⟩
def SWC_GCL_GATES : Fld := ⟨31, 24⟩
def SWC_GCL_INTERVAL : Fld := ⟨23, 0⟩
def TIME_CTRL_SLOT : Fld := ⟨23, 20⟩
def TIME_CTRL_SRC : Fld := ⟨17, 16⟩
def TIME_CTRL_STBY_HOLD : Fld := ⟨0, 0⟩
def TIME_STAT_VALID : Fld := ⟨31, 31⟩
def TIME_STAT_SLEWING : Fld := ⟨30, 30⟩
def TIME_STAT_FREQ_CLAMP : Fld := ⟨29, 29⟩
def TIME_STAT_STEPS : Fld := ⟨7, 0⟩
def TIME_SLEW_CFG_RATE : Fld := ⟨7, 0⟩
def TIME_CNT_STEER_REJ : Fld := ⟨31, 16⟩
def TIME_CNT_ONESTEP_SKIP : Fld := ⟨15, 0⟩
def TIME_PORT_CFG_TC : Fld := ⟨2, 1⟩
def TIME_PORT_CFG_ONESTEP_EN : Fld := ⟨0, 0⟩
def TIME_PORT_CORR_TX_DELAY : Fld := ⟨31, 16⟩
def TIME_PORT_CORR_RX_DELAY : Fld := ⟨15, 0⟩
def TIO_CFG_EN : Fld := ⟨31, 31⟩
def TIO_CFG_MODE : Fld := ⟨30, 28⟩
def TIO_CFG_EDGE : Fld := ⟨27, 26⟩
def TIO_CFG_LEVEL : Fld := ⟨25, 25⟩
def TIO_CFG_EVT : Fld := ⟨24, 24⟩
def TIO_CFG_TQ : Fld := ⟨23, 22⟩
def TIO_CFG_CORR : Fld := ⟨15, 0⟩
def TIO_STAT_LATE : Fld := ⟨31, 31⟩
def TIO_STAT_OVF : Fld := ⟨30, 30⟩
def TIO_STAT_CAP_Q : Fld := ⟨27, 26⟩
def TIO_STAT_CAP_EDGE : Fld := ⟨25, 25⟩
def TIO_STAT_LOST : Fld := ⟨15, 0⟩
def CVN_CTRL_TCH : Fld := ⟨8, 8⟩
def CVN_CTRL_INT_CYCLES : Fld := ⟨7, 4⟩
def CVN_CTRL_COLD_CYCLES : Fld := ⟨3, 0⟩
def CVN_NODE_ADDR : Fld := ⟨11, 0⟩
def CVN_CYCLE_CYCLE : Fld := ⟨23, 0⟩
def CVN_ALIGN_CFG_KI : Fld := ⟨11, 8⟩
def CVN_ALIGN_CFG_KP : Fld := ⟨3, 0⟩
def CVN_STAT_ROOT : Fld := ⟨31, 31⟩
def CVN_STAT_DEPTH : Fld := ⟨29, 28⟩
def CVN_STAT_STEPS : Fld := ⟨7, 0⟩
def CVN_CH_CFG_EN : Fld := ⟨31, 31⟩
def CVN_CH_CFG_COLD_EN : Fld := ⟨30, 30⟩
def CVN_CH_CFG_MAX_RATE : Fld := ⟨29, 29⟩
def CVN_CH_CFG_RING : Fld := ⟨23, 16⟩
def CVN_CH_STAT_STATE : Fld := ⟨31, 29⟩
def CVN_CH_STAT_FIRST : Fld := ⟨28, 28⟩
def CVN_CH_STAT_WRAP : Fld := ⟨27, 26⟩
def CVN_CH_STAT_RATE : Fld := ⟨25, 25⟩
def CVN_CH_STAT_BANK : Fld := ⟨24, 24⟩
def CVN_CH_STAT_PEND : Fld := ⟨23, 23⟩
def CVN_CH_STAT_MEMBERS : Fld := ⟨21, 12⟩
def CVN_CH_STAT_FIRST_ADDR : Fld := ⟨11, 0⟩
def CVN_CH_MODE_TARGET : Fld := ⟨23, 16⟩
def CVN_CH_MODE_CAUSE : Fld := ⟨15, 12⟩
def CVN_CH_MODE_MODE : Fld := ⟨7, 0⟩
def CVN_CH_LAT_NS : Fld := ⟨23, 0⟩
def CVN_CH_NBR_U_ADDR : Fld := ⟨27, 16⟩
def CVN_CH_NBR_D_ADDR : Fld := ⟨11, 0⟩
def MDB_CTRL_ONE_SHOT : Fld := ⟨8, 8⟩
def MDB_CTRL_TT_EN : Fld := ⟨7, 7⟩
def MDB_CTRL_XL_EN : Fld := ⟨5, 5⟩
def MDB_CTRL_FD_EN : Fld := ⟨4, 4⟩
def MDB_CTRL_MODE : Fld := ⟨2, 0⟩
def MDB_STAT_MODE_ACT : Fld := ⟨31, 29⟩
def MDB_STAT_ESTATE : Fld := ⟨28, 27⟩
def MDB_STAT_WARN : Fld := ⟨26, 26⟩
def MDB_STAT_HELD : Fld := ⟨25, 25⟩
def MDB_STAT_TT_MASTER : Fld := ⟨24, 24⟩
def MDB_STAT_REC : Fld := ⟨23, 16⟩
def MDB_STAT_RECOV : Fld := ⟨15, 9⟩
def MDB_STAT_TEC : Fld := ⟨8, 0⟩
def MDB_RAM_CFG_RX_DEPTH : Fld := ⟨31, 16⟩
def MDB_RAM_CFG_DMAX : Fld := ⟨9, 8⟩
def MDB_RAM_CFG_TB_COUNT : Fld := ⟨5, 0⟩
def MDB_DET_CFG_DONE : Fld := ⟨31, 31⟩
def MDB_DET_CFG_CHOSEN : Fld := ⟨26, 24⟩
def MDB_DET_CFG_PASSES : Fld := ⟨23, 16⟩
def MDB_DET_CFG_THEN_NORMAL : Fld := ⟨4, 4⟩
def MDB_DET_CFG_CONFIRM : Fld := ⟨3, 0⟩
def MDB_TT_CFG_MASTER_EN : Fld := ⟨31, 31⟩
def MDB_TT_CFG_PRIO : Fld := ⟨30, 28⟩
def MDB_TT_CFG_LEVEL2 : Fld := ⟨27, 27⟩
def MDB_TT_CFG_REF_ID : Fld := ⟨26, 16⟩
def MDB_TT_CFG_MATRIX : Fld := ⟨15, 13⟩
def MDB_TT_STAT_TT_LATE : Fld := ⟨31, 24⟩
def MDB_TT_STAT_TT_MISS : Fld := ⟨23, 16⟩
def MDB_TT_STAT_SYNCED : Fld := ⟨15, 15⟩
def MDB_TT_STAT_MASTER : Fld := ⟨14, 12⟩
def MDB_TT_STAT_CYCLE_CNT : Fld := ⟨5, 0⟩
def MDB_CNT_RX_OVF : Fld := ⟨31, 16⟩
def MDB_CNT_ERR_DROP : Fld := ⟨15, 8⟩
def MDB_CNT_CLASH : Fld := ⟨7, 0⟩
def MDB_FLT_ID_EN : Fld := ⟨31, 31⟩
def MDB_FLT_ID_FMT : Fld := ⟨30, 29⟩
def MDB_FLT_ID_ID : Fld := ⟨28, 0⟩
def MDB_FLT_MASK_IDE : Fld := ⟨29, 29⟩
def MDB_FLT_MASK_MASK : Fld := ⟨28, 0⟩
def WAKE_CTRL_TIMER : Fld := ⟨31, 16⟩
def WAKE_CTRL_AUTO_STBY : Fld := ⟨1, 1⟩
def WAKE_CTRL_PIN_EN : Fld := ⟨0, 0⟩
def WAKE_CAUSE_SOURCE : Fld := ⟨31, 29⟩
def WAKE_CAUSE_BUS : Fld := ⟨2, 0⟩
def WAKE_BUS_CFG_AWAKE_MAX : Fld := ⟨31, 16⟩
def WAKE_BUS_CFG_WITHDRAW : Fld := ⟨4, 4⟩
def WAKE_BUS_CFG_VOTE : Fld := ⟨3, 3⟩
def WAKE_BUS_CFG_STBY_EN : Fld := ⟨2, 2⟩
def WAKE_BUS_CFG_MODE : Fld := ⟨1, 0⟩
def WAKE_BUS_STAT_STATE : Fld := ⟨31, 30⟩
def WAKE_BUS_STAT_SRC : Fld := ⟨29, 27⟩
def WAKE_BUS_STAT_FERR : Fld := ⟨21, 16⟩
def WAKE_BUS_STAT_ABORTS : Fld := ⟨15, 8⟩
def WAKE_BUS_STAT_FALSE : Fld := ⟨7, 0⟩
def PSQ_TSTART_STAT_ARMED : Fld := ⟨31, 31⟩
def PSQ_TSTART_STAT_LATE : Fld := ⟨30, 30⟩
def PSQ_REMAP_ACTIVE : Fld := ⟨31, 31⟩
def PSQ_REMAP_STEP : Fld := ⟨30, 28⟩
def PSQ_REMAP_COUNT : Fld := ⟨27, 20⟩
def PSQ_REMAP_LOGICAL : Fld := ⟨19, 15⟩
def PSQ_REMAP_TO : Fld := ⟨11, 6⟩
def PSQ_REMAP_FROM : Fld := ⟨5, 0⟩
def PSQ_PIO_CFG_OWNER : Fld := ⟨13, 8⟩
def PSQ_PIO_CFG_IDLE : Fld := ⟨5, 4⟩
def PSQ_PIO_CFG_DIR_INIT : Fld := ⟨3, 3⟩
def PSQ_PIO_CFG_IN_INV : Fld := ⟨2, 2⟩
def PSQ_PIO_CFG_OUT_INV : Fld := ⟨1, 1⟩
def PSQ_PIO_CFG_LVL_INIT : Fld := ⟨0, 0⟩
def PSQ_SEQ_PINS_DRV_BASE : Fld := ⟨31, 26⟩
def PSQ_SEQ_PINS_DRV_CNT : Fld := ⟨25, 21⟩
def PSQ_SEQ_PINS_SNS_BASE : Fld := ⟨20, 15⟩
def PSQ_SEQ_PINS_SNS_CNT : Fld := ⟨14, 10⟩
def PSQ_SEQ_PINS_TEST_PIN : Fld := ⟨5, 0⟩
def PSQ_SEQ_CLKDIV_INT : Fld := ⟨23, 8⟩
def PSQ_SEQ_CLKDIV_FRAC : Fld := ⟨7, 0⟩
def PSQ_SEQ_SHIFT_FIFO_MODE : Fld := ⟨31, 30⟩
def PSQ_SEQ_SHIFT_TX_LOW : Fld := ⟨27, 24⟩
def PSQ_SEQ_SHIFT_RX_LSB : Fld := ⟨18, 18⟩
def PSQ_SEQ_SHIFT_TX_LSB : Fld := ⟨17, 17⟩
def PSQ_SEQ_SHIFT_RX_LEN : Fld := ⟨14, 10⟩
def PSQ_SEQ_SHIFT_TX_LEN : Fld := ⟨9, 5⟩
def PSQ_SEQ_EXEC_SAFE_STOP : Fld := ⟨31, 31⟩
def PSQ_SEQ_EXEC_START_PC : Fld := ⟨22, 16⟩
def PSQ_SEQ_EXEC_LOOP_END : Fld := ⟨14, 8⟩
def PSQ_SEQ_EXEC_LOOP_START : Fld := ⟨6, 0⟩
def PSQ_SEQ_CNT_TX_STALE : Fld := ⟨31, 16⟩
def PSQ_SEQ_CNT_RX_DROP : Fld := ⟨15, 0⟩
def PSQ_SEQ_LOOP_INIT1 : Fld := ⟨31, 16⟩
def PSQ_SEQ_LOOP_INIT0 : Fld := ⟨15, 0⟩
def PSQ_SEQ_MATCH_MASK : Fld := ⟨31, 16⟩
def PSQ_SEQ_MATCH_VALUE : Fld := ⟨15, 0⟩
def SIO_STAT_SSTATE : Fld := ⟨31, 30⟩
def SIO_STAT_UNLOCKED : Fld := ⟨29, 29⟩
def SIO_STAT_ACK_OK : Fld := ⟨28, 28⟩
def SIO_STAT_SOTE : Fld := ⟨27, 27⟩
def SIO_STAT_L1_OK : Fld := ⟨26, 26⟩
def SIO_STAT_L2_OK : Fld := ⟨25, 25⟩
def SIO_STAT_L2_LATCH : Fld := ⟨24, 24⟩
def SIO_STAT_COMM_OK : Fld := ⟨23, 23⟩
def SIO_STAT_PWD_SET : Fld := ⟨22, 22⟩
def SIO_IMG_CFG_OWNER : Fld := ⟨31, 24⟩
def SIO_IMG_CFG_BANK : Fld := ⟨21, 16⟩
def SIO_IMG_CFG_CYCLE : Fld := ⟨8, 0⟩
def SIO_IMG_OFF_COMM_TO : Fld := ⟨31, 22⟩
def SIO_IMG_OFF_OFFSET : Fld := ⟨16, 6⟩
def SIO_TP_CFG_TP_EN : Fld := ⟨27, 24⟩
def SIO_PAR_CFG_PAR_EN : Fld := ⟨19, 16⟩
def SIO_SUPPLY_L1 : Fld := ⟨24, 16⟩
def SIO_SUPPLY_L2 : Fld := ⟨8, 0⟩
def SIO_COMM_REJECT : Fld := ⟨31, 16⟩
def SIO_COMM_LOSS : Fld := ⟨15, 0⟩
def SIO_LOG_STAT_ENTRIES : Fld := ⟨24, 16⟩
def SIO_LOG_STAT_NEXT : Fld := ⟨7, 0⟩
def SIO_PAIR_CFG_EN : Fld := ⟨31, 31⟩
def SIO_PAIR_CFG_TP_A : Fld := ⟨29, 28⟩
def SIO_PAIR_CFG_TA_EN : Fld := ⟨27, 27⟩
def SIO_PAIR_CFG_TP_B : Fld := ⟨26, 25⟩
def SIO_PAIR_CFG_TB_EN : Fld := ⟨24, 24⟩
def SIO_PAIR_CFG_LINK : Fld := ⟨23, 16⟩
def SIO_PAIR_CFG_DISC : Fld := ⟨15, 7⟩
def SIO_PAIR_STAT_VALUE : Fld := ⟨31, 31⟩
def SIO_PAIR_STAT_DISC_LATCH : Fld := ⟨30, 30⟩
def SIO_PAIR_STAT_A_FAIL : Fld := ⟨29, 29⟩
def SIO_PAIR_STAT_B_FAIL : Fld := ⟨28, 28⟩
def SIO_PAIR_STAT_A_LVL : Fld := ⟨27, 27⟩
def SIO_PAIR_STAT_B_LVL : Fld := ⟨26, 26⟩
def SIO_PAIR_STAT_LAST : Fld := ⟨23, 16⟩
def SIO_PAIR_STAT_SHORT_DISC : Fld := ⟨15, 0⟩
def SIO_DQ_CNT_TC_HB : Fld := ⟨31, 16⟩
def SIO_DQ_CNT_TC_HA : Fld := ⟨15, 0⟩
def HLTH_STAT_FACTORY : Fld := ⟨31, 31⟩
def HLTH_STAT_PULSES : Fld := ⟨23, 16⟩
def HLTH_FLT_CFG_FLT_HOLD : Fld := ⟨31, 31⟩
def HLTH_FLT_CFG_FLT_MIN_CLASS : Fld := ⟨18, 16⟩
def HLTH_SEL_KIND : Fld := ⟨11, 8⟩
def HLTH_SEL_UNIT : Fld := ⟨6, 0⟩
def HLTH_AVAIL_MS : Fld := ⟨31, 0⟩
def HLTH_PARTIAL_MS : Fld := ⟨31, 0⟩
def HLTH_HOURS_HOURS : Fld := ⟨31, 0⟩
def HLTH_KIND_THR_SWAP : Fld := ⟨25, 16⟩
def HLTH_KIND_THR_RETIRE : Fld := ⟨9, 0⟩
def HLTH_KIND_PARAM_PARAM : Fld := ⟨15, 0⟩
def CLK_STAT_REF_ACTIVE : Fld := ⟨17, 16⟩
def CLK_STAT_MDB_FALLBACK : Fld := ⟨15, 15⟩
def CLK_STAT_PSQ_FALLBACK : Fld := ⟨14, 14⟩
def CLK_PLL_CTRL_PSQ_FB_AUTO : Fld := ⟨2, 2⟩
def CLK_PLL_CTRL_MDB_FB_AUTO : Fld := ⟨1, 1⟩
def CLK_REF_CFG_REF_REVERT : Fld := ⟨2, 2⟩
def CLK_REF_CFG_REF_SEL : Fld := ⟨1, 0⟩
def CLK_MON_CFG_LIMIT : Fld := ⟨23, 16⟩
def CLK_MON_CFG_WINDOW : Fld := ⟨15, 0⟩
def CLK_SWITCH_CNT_REF : Fld := ⟨7, 0⟩
def CLK_MON_CNT_COUNT : Fld := ⟨23, 0⟩
def PWR_VMON_V12 : Fld := ⟨31, 16⟩
def PWR_VMON_V33 : Fld := ⟨15, 0⟩
def PWR_TEMP_MAX : Fld := ⟨31, 16⟩
def PWR_TEMP_NOW : Fld := ⟨15, 0⟩
def PWR_TEMP_CFG_HIGH : Fld := ⟨7, 0⟩
def PWR_CNT_INSERTIONS : Fld := ⟨31, 16⟩
def PWR_CNT_SURPRISE : Fld := ⟨15, 8⟩
def PWR_CNT_SS_FAIL : Fld := ⟨7, 0⟩
def MDB8_REMAP_ACTIVE : Fld := ⟨31, 31⟩
def MDB8_REMAP_STEP : Fld := ⟨30, 28⟩
def MDB8_REMAP_COUNT : Fld := ⟨23, 16⟩
def MDB8_REMAP_BUS : Fld := ⟨10, 8⟩
def MDB8_REMAP_TO : Fld := ⟨7, 4⟩
def MDB8_REMAP_FROM : Fld := ⟨3, 0⟩

def F_PE_ADDR_ERR : Nat := 0
def F_PE_ALIGN : Nat := 1
def F_PE_ILLEGAL : Nat := 2
def F_PE_STACK : Nat := 3
def F_PE_IMEM_CE : Nat := 4
def F_PE_IMEM_UE : Nat := 5
def F_PE_DMEM_CE : Nat := 6
def F_PE_DMEM_UE : Nat := 7
def F_PE_BANK_OWN : Nat := 8
def F_PE_WDOG : Nat := 9
def F_PE_FAU_ERR : Nat := 10
def F_PE_FAR_TIMEOUT : Nat := 11
def F_PE_HOST_WR : Nat := 12
def F_MEM_CE : Nat := 0
def F_MEM_UE : Nat := 1
def F_MEM_NONOWNER : Nat := 2
def F_MEM_HANDOVER_FORCED : Nat := 3
def F_MEM_MARCH_FAIL : Nat := 4
def F_MEM_REPAIR_ABANDON : Nat := 5
def F_MEM_NVM_ERR : Nat := 6
def F_MBX_REJECT : Nat := 0
def F_MBX_ROUTE_ERR : Nat := 1
def F_MBX_AGED : Nat := 2
def F_MBX_COLLIDE : Nat := 3
def F_MBX_DISCARD : Nat := 4
def F_MBX_ACCESS_SIZE : Nat := 5
def F_HIF_REG_TIMEOUT : Nat := 0
def F_HIF_REG_UNMAPPED : Nat := 1
def F_HIF_MW2_DENIED : Nat := 2
def F_HIF_DMA_ERR : Nat := 3
def F_HIF_RING_ERR : Nat := 4
def F_HIF_LINK_DOWN : Nat := 5
def F_HIF_EVT_LOST : Nat := 6
def F_HIF_CTX_WRITE : Nat := 7
def F_MAC_LINK_DOWN : Nat := 0
def F_MAC_NEG_FAIL : Nat := 1
def F_MAC_EYE_LOW : Nat := 2
def F_MAC_RED_CFG : Nat := 3
def F_MAC_MAC_FAIL : Nat := 4
def F_SWC_FCT_CE : Nat := 0
def F_SWC_FCT_UE : Nat := 1
def F_SWC_QUOTA_CFG : Nat := 2
def F_SWC_FENCE_TIMEOUT : Nat := 3
def F_SWC_LEARN_LOST : Nat := 4
def F_SWC_SUB_LOST : Nat := 5
def F_TIME_STEER_REJ : Nat := 0
def F_TIME_FREQ_CLAMP : Nat := 1
def F_TIME_ONESTEP_SKIP : Nat := 2
def F_TIME_ONESTEP_MISS : Nat := 3
def F_TIME_TIO_OVF : Nat := 4
def F_TIME_TIO_LATE : Nat := 5
def F_CVN_SLOT_EDGE : Nat := 0
def F_CVN_SILENCED : Nat := 1
def F_CVN_WRAPPED : Nat := 2
def F_CVN_CFG_ERR : Nat := 3
def F_CVN_SYNC_LOSS : Nat := 4
def F_CVN_GUARD_BLOCK : Nat := 5
def F_CVN_LATENCY : Nat := 6
def F_MDB_ERR_PASSIVE : Nat := 0
def F_MDB_BUS_OFF : Nat := 1
def F_MDB_CLASH : Nat := 2
def F_MDB_WIN_ERR : Nat := 3
def F_MDB_RAM_CE : Nat := 4
def F_MDB_RAM_UE : Nat := 5
def F_MDB_TT_ERR : Nat := 6
def F_MDB_CTRL_FAIL : Nat := 7
def F_MDB_CFG_ERR : Nat := 8
def F_WAKE_AWAKE_MAX : Nat := 0
def F_WAKE_SLP_REFUSED : Nat := 1
def F_WAKE_CFG_ERR : Nat := 2
def F_WAKE_FERR_WAKE : Nat := 3
def F_PSQ_ILLEGAL : Nat := 0
def F_PSQ_WIN_ERR : Nat := 1
def F_PSQ_STALE : Nat := 2
def F_PSQ_CFG_ERR : Nat := 3
def F_PSQ_SM_FAIL : Nat := 4
def F_PSQ_IMEM_UE : Nat := 5
def F_SIO_DISC : Nat := 0
def F_SIO_DI_TEST : Nat := 1
def F_SIO_DI_XSHORT : Nat := 2
def F_SIO_TP_FAULT : Nat := 3
def F_SIO_DQ_STUCK : Nat := 4
def F_SIO_DQ_XSHORT : Nat := 5
def F_SIO_DQ_OVERLOAD : Nat := 6
def F_SIO_DQ_THERMAL : Nat := 7
def F_SIO_HALF_SPARED : Nat := 8
def F_SIO_DQ_LOST : Nat := 9
def F_SIO_L1_LOW : Nat := 10
def F_SIO_L2_LOW : Nat := 11
def F_SIO_L2_OFF : Nat := 12
def F_SIO_COMM_LOSS : Nat := 13
def F_SIO_CLK_FAULT : Nat := 14
def F_SIO_INTERNAL : Nat := 15
def F_SIO_CFG_CRC : Nat := 16
def F_SIO_CFG_WRITE : Nat := 17
def F_SIO_PWD_FAIL : Nat := 18
def F_SIO_PAR_WINDOW : Nat := 19
def F_GEN_RESET_KEY : Nat := 0
def F_GEN_SC_TAKEOVER : Nat := 1
def F_GEN_BOOT_FALLBACK : Nat := 2
def F_GEN_UPD_FAIL : Nat := 3
def F_CLK_REF_LOSS : Nat := 0
def F_CLK_SWITCH_REFUSED : Nat := 1
def F_CLK_SIO_SUSPECT : Nat := 2
def F_CLK_PLL_SWITCH : Nat := 3
def F_CLK_FALLBACK : Nat := 4
def F_CLK_CLK_LOST : Nat := 5
def F_WADI_IMG_MISMATCH : Nat := 0
def F_WADI_SHORTAGE : Nat := 1
def F_WADI_FUNC_STOPPED : Nat := 2
def F_WADI_MIG_ABANDON : Nat := 3
def F_HLTH_WORN : Nat := 0
def F_HLTH_RETIRE : Nat := 1
def F_HLTH_NVM_COPY : Nat := 2
def F_HLTH_MON_FAIL : Nat := 3
def F_HLTH_FLOGIC : Nat := 4
def F_HLTH_FFORCE_STUCK : Nat := 5
def F_PWR_LOGIC_LOW : Nat := 0
def F_PWR_RAIL_FAIL : Nat := 1
def F_PWR_TEMP_HIGH : Nat := 2
def F_PWR_TEMP_CRIT : Nat := 3
def F_PWR_SURPRISE : Nat := 4

end Sys2Proof.Machine
end

