-- ==== Sys2Proof/Machine/State.lean ====
section
/-! DEFINITION. The state of the AZ-9416: every register, memory, queue, mode and pin the spec gives the module, as plain
data, and the queue of commands that wait. -/

namespace Sys2Proof.Machine

/-! ## Modes, blocks and outcomes -/

/-- The six modes of R8, with the codes of R82. -/
inductive Mode where
  | boot | config | run | degraded | safe | standby
  deriving DecidableEq, Repr

/-- The code of a mode in GEN_MODE_STAT.MODE (R82). -/
def Mode.code : Mode → Nat
  | .boot => 0 | .config => 1 | .run => 2 | .degraded => 3 | .safe => 4 | .standby => 5

/-- A block instance: the holder of one fault register set (R943). -/
inductive BlkId where
  | gen | hif | mbx | wadi | mem | pe (n : Nat) | mac (n : Nat) | swc | time | cvn | mdb (n : Nat) | wake | psq
  | sio | hlth | clk | pwr
  deriving DecidableEq, Repr

/-- Why a step stops. No rule of the spec stops the module; the type exists for the host's interface and no meaning
raises it. Safe: nothing is proved from it. -/
inductive Fault where
  /-- Raised by no meaning. Safe. -/
  | none
  deriving DecidableEq, Repr

/-- Why a command has no meaning. -/
inductive Refusal where
  /-- Raised by the dispatch for a row that has no meaning yet. Safe: nothing is proved about it. -/
  | notModelled (mnemonic : String)
  deriving DecidableEq, Repr

/-! ## What the module sends out -/

/-- One thing the module hands to the outside: a DMA write, an interrupt, a frame, a pin level. -/
inductive Out where
  /-- A completion (R476) written at index `pos` of ring `ring` through port `port`. -/
  | completion (port ring pos status index info value : Nat)
  /-- An event entry (R481) written to EVT ring `ring`. -/
  | event (port ring pos kind cls block time q2 q3 : Nat)
  /-- Data written by DMA to host memory. -/
  | hostData (port addr : Nat) (bytes : List Byte)
  /-- An MSI-X vector raised on a port (R484). -/
  | msix (port vec : Nat)
  /-- A frame, or its first bytes in cut-through, sent on an Ethernet port. -/
  | frame (port : Nat) (bytes : List Byte) (stomped : Bool)
  /-- A Caravan frame sent on a port: type, cycle field and content. -/
  | caravan (port : Nat) (bytes : List Byte)
  /-- A frame sent on a multi-drop bus: identifier word and data. -/
  | bus (bus : Nat) (hdr : List Word) (bytes : List Byte)
  /-- A pulse or an edge of a timed pin. -/
  | tio (pin : Nat) (level : Bool)
  /-- The drive of PIO pin p: a level, or none at high impedance (R840). -/
  | pio (pin : Nat) (drive : Option Bool)
  /-- What a report or a completion tells where the spec gives its content and not its layout: event kind or command code,
  and the content in the order the spec lists it. -/
  | told (what : Nat) (content : List Nat)
  /-- A level of a named module pin. -/
  | pin (name : String) (level : Bool)
  deriving DecidableEq, Repr

/-! ## Faults (file 18) -/

/-- What is remembered of the last unheld, unmasked occurrence of a source while its FSTAT bit is set: configured class,
effective class (R955), whether it qualifies for FLT_N (R963) and whether it was forced. -/
structure SrcSt where
  conf : Nat
  eff : Nat
  qual : Bool
  forced : Bool
  deriving DecidableEq, Repr

/-- A consequence hold window (R958): the reacting instance, the reaction code, the logical slot or port it concerns,
and its cause ID (R962). -/
structure Hold where
  blk : BlkId
  react : Nat
  slot : Nat
  cause : Nat
  deriving DecidableEq, Repr

/-- An entry of the fault log (R971). -/
structure LogEntry where
  time : Nat
  block : Nat
  src : Nat
  inst : Nat
  escalated : Bool
  forced : Bool
  eff : Nat
  react : Nat
  mode : Nat
  cap0 : Nat
  cap1 : Nat
  cap2 : Nat
  deriving DecidableEq, Repr

/-- What a command has left to be done before it ends: an occurrence of a fault source with the capture words the spec gives it and the
logical slot it concerns (255: none), or a reaction that has started (R944, R949). -/
inductive Due where
  | occur (blk : BlkId) (src : Nat) (caps : List Nat) (slot : Nat) (forced : Bool)
  | react (blk : BlkId) (src code slot : Nat) (forced : Bool)
  /-- A unit was shed or came back: DEGRADED is entered or left (R331, R335). -/
  | degrade
  /-- SAFE is to be entered, with a code of GEN_MODE_STAT.SAFE_CAUSE (R85). -/
  | safe (cause : Nat)
  /-- The armed timed start of sequencers is due after a step (R853). -/
  | timedStart
  /-- The network has agreed to sleep (R822). -/
  | standby
  /-- STANDBY ends with a source, bus, identifier and format of R825. -/
  | standbyWake (src bus id : Nat) (ide : Bool)
  deriving DecidableEq, Repr

/-- The fault bookkeeping beyond the fault registers. -/
structure FaultSt where
  srcs : SMap (Option SrcSt)
  counts : SMap Nat
  holds : List Hold
  /-- Work of the present command: empty between commands. -/
  due : List Due
  /-- FLT_N is low. -/
  fltLow : Bool
  /-- A reset drives FLT_N low until STAGE 0x2 (R966). -/
  resetLow : Bool
  /-- The FLT_N pulse runs (R963). -/
  pulse : Bool
  /-- Fault log entries not yet in NVM, newest first (R971). -/
  buffered : List LogEntry
  /-- Since when an outage counts in HLTH_AVAIL (R981), in ns. -/
  outage : Option Nat
  /-- The FATAL source whose clearing ends that outage, by its key; none while only leaving SAFE or the boot ends it. -/
  outageSrc : Option Nat
  /-- Since when each affected unit's outage counts in HLTH_PARTIAL (R981): unit key and start in ns. -/
  partials : List (Nat × Nat)
  deriving DecidableEq, Repr

/-- After reset FLT_N is low (R966) and nothing is pending. -/
def FaultSt.reset : FaultSt := ⟨[], [], [], [], true, true, false, [], none, none, []⟩

/-! ## What NVM holds for the safety I/O (file 17) -/

/-- One NVM copy of the safety configuration (R882): its registers in ascending offset order, its version, and whether its
CRC verifies. -/
structure SioCopy where
  words : List Word
  version : Nat
  good : Bool
  deriving DecidableEq, Repr

/-- Both copies, the password as salt and hash (R924), and the change log, oldest entry first (R928). -/
structure SioNvm where
  a : SioCopy
  b : SioCopy
  pwd : Option (List Byte × List Byte)
  log : List (List Byte)
  next : Nat
  deriving DecidableEq, Repr

def SioNvm.fresh : SioNvm := ⟨⟨List.replicate 13 0, 0, true⟩, ⟨List.replicate 13 0, 0, true⟩, none, [], 0⟩

/-! ## Boot, flash and NVM (file 02) -/

/-- One flash image slot: header version, image bytes, header CRC verdict, valid marker (the version it names) and the
number of erases (R104, R979). -/
structure FlashSlot where
  version : Nat
  data : List Byte
  crcOk : Bool
  marker : Option Nat
  erases : Nat
  deriving DecidableEq, Repr

def FlashSlot.empty : FlashSlot := ⟨0, [], false, none, 0⟩

/-- The kinds of update-log entries, with the codes of GEN_UPD_STAT.STATE (R134). -/
inductive UpdKind where
  | start | complete | incomplete | trialFailed | confirmed
  deriving DecidableEq, Repr

def UpdKind.code : UpdKind → Nat
  | .start => 1 | .complete => 2 | .incomplete => 3 | .trialFailed => 4 | .confirmed => 5

/-- One entry of the update log (R114). -/
structure UpdEntry where
  kind : UpdKind
  slotB : Bool
  version : Nat
  progress : Nat
  time : Nat
  deriving DecidableEq, Repr

/-- An image update in progress (R495): target slot, length, version, bytes received. -/
structure UpdRun where
  slotB : Bool
  len : Nat
  version : Nat
  got : Nat
  deriving DecidableEq, Repr

/-- Wear state of one unit of R979: reference, last raw measure, index, latches. -/
structure UnitWear where
  ref : Option Nat
  raw : Nat
  index : Nat
  failed : Bool
  worn : Bool
  retire : Bool
  valid : Bool
  missed : Nat
  /-- The last 16 normalised counts of a ring oscillator, newest first (R974). -/
  hist : List Nat
  deriving DecidableEq, Repr

def UnitWear.fresh : UnitWear := ⟨none, 0, 0, false, false, false, false, 0, []⟩

/-- What the 256 KiB NVM keeps across every reset (R90). -/
structure Nvm where
  minVersion : Nat
  rejectedA : Bool
  rejectedB : Bool
  updLog : List UpdEntry
  bootCfg : Word
  trial : Option Bool
  /-- The trial image has been started (R109). -/
  tried : Bool
  wear : SMap UnitWear
  /-- What the last flush wrote (R978): the wear records, the words of HLTH_AVAIL, HLTH_PARTIAL, HLTH_HOURS and PWR_CNT. -/
  savedWear : SMap UnitWear
  savedCnt : List Word
  faultLog : List LogEntry
  faultNext : Nat
  /-- Register words whose reset value the spec gives as NVM: MW0 offset and word. -/
  words : SMap Word
  copyBad : Nat
  /-- Committed bank repairs, oldest first: kind, logical, original and spare physical bank (R385). -/
  repairs : List (Bool × Nat × Nat × Nat)
  /-- Recorded FCT sub-array remaps: logical sub-array and physical one (R598). -/
  subMaps : List (Nat × Nat)
  /-- The personality key table: the SHA-384 of each key, and whether it is revoked (R254). -/
  keys : List (List Byte × Bool)
  sio : SioNvm
  deriving DecidableEq, Repr

def Nvm.fresh : Nvm := ⟨0, false, false, [], 0, none, false, [], [], [0, 0, 0, 0], [], 0, [], 0, [], [], [], SioNvm.fresh⟩

/-- A quiesce sequence (R117, R91, R823, R1010). -/
inductive QuiesceKind where
  | eject | removal | warm | standby
  deriving DecidableEq, Repr

structure Quiesce where
  kind : QuiesceKind
  /-- A warm reset that waits for the sequence or for the end of an eject (R1036). -/
  wantWarm : Bool
  /-- A STANDBY entry that waits in the same way (R1036). -/
  wantStandby : Bool
  /-- Every started descriptor has completed and the rest are completed (R117). -/
  drained : Bool
  /-- The NVM flush is done (R117). -/
  flushed : Bool
  /-- Its event has been written. -/
  told : Bool
  /-- A warm reset has replaced a STANDBY entry, and follows the flush (R1036). -/
  early : Bool
  deriving DecidableEq, Repr

/-- Where the boot flow stands beyond GEN_BOOT_STAT (R101). -/
structure BootSt where
  /-- The internal power-on reset or the PORST_N pin holds the module (R90). -/
  porst : Bool
  /-- The slot chosen: false A, true B (R105). -/
  chosenB : Bool
  /-- The boot follows a reset that fails an unconfirmed trial (R109). -/
  trialReset : Bool
  /-- A host image is being read (R108), through this port. -/
  hostRead : Option Nat
  /-- The boot flow was stopped by SAFE with no firmware started (R88). -/
  stopped : Bool
  /-- HIF serves configuration requests and MW0 accesses to GEN (R1035). -/
  hifServes : Bool
  /-- The slot whose image runs, if the running image came from flash. -/
  runB : Option Bool
  /-- The version of the running image. -/
  runVersion : Nat
  /-- The time of GEN_BOOT_STAT.DONE, for BOOT_DONE (R482). -/
  doneTime : Nat
  /-- Blocks held in block reset, by the codes of R95. -/
  blkReset : List Nat
  /-- The active supervisor (R97). -/
  scActive : Nat
  /-- A wake that came after the acceptance of STANDBY (R824): source, bus, identifier and format. -/
  latched : Option (Nat × Nat × Nat × Bool)
  scFail0 : Bool
  scFail1 : Bool
  /-- Slots whose signature failed in this boot (R106, R130). -/
  badA : Bool
  badB : Bool
  /-- The slot whose unconfirmed trial this boot has rejected (R109). -/
  trialLost : Option Bool
  deriving DecidableEq, Repr

def BootSt.reset : BootSt :=
  ⟨false, false, true, none, false, false, none, 0, 0, [], 0, none, false, false, false, false, none⟩

/-! ## Power (file 19) -/

/-- What PWR senses (R1002 to R1010, R1025): PRESENT_N accepted low, EJECT_N accepted low, the PORST_N pin low, the soft-start
switch fully on or charging, failures in a row, the logic supply above its limit, the rails within theirs, the regulators off
for heat, temperature conditions that last, and a power-up not yet counted. -/
structure PwrSt where
  present : Bool
  eject : Bool
  pin : Bool
  on : Bool
  charging : Bool
  fails : Nat
  supply : Bool
  rails : Bool
  hot : Bool
  high : Bool
  crit : Bool
  low : Bool
  powerUp : Bool
  deriving DecidableEq, Repr

/-- As R1008 requires at the release of the internal reset. -/
def PwrSt.reset : PwrSt := ⟨true, false, false, true, false, 0, true, true, false, false, false, false, false⟩

/-! ## Host interface (file 09) -/

/-- The ring states of R458. -/
inductive RingState where
  | disabled | active | orphaned | draining | stopped
  deriving DecidableEq, Repr

def RingState.code : RingState → Nat
  | .disabled => 0 | .active => 1 | .orphaned => 2 | .draining => 3 | .stopped => 4

/-- A completion or entry kept or waiting for a ring: index, status, INFO, VALUE (R476). -/
structure Compl where
  index : Nat
  status : Nat
  info : Nat
  value : Nat
  deriving DecidableEq, Repr

/-- An event (R481) before it is placed in an entry. -/
structure Evt where
  kind : Nat
  group : Nat
  cls : Nat
  block : Nat
  time : Nat
  q2 : Nat
  q3 : Nat
  deriving DecidableEq, Repr

/-- The context of a ring beyond its registers (R455 to R492). -/
structure Ring where
  state : RingState
  port : Nat
  err : Nat
  /-- Next descriptor to fetch, or next entry to write. -/
  cidx : Nat
  /-- Last accepted SEQ of the doorbell slot. -/
  seq : Nat
  /-- Last accepted PIDX, or for RSP and EVT the host's consumer index. -/
  pidx : Nat
  /-- Descriptors started and not completed (R462). -/
  started : Nat
  /-- Index of the next completion. -/
  done : Nat
  /-- Completions kept for adoption (R487). -/
  kept : List Compl
  /-- Events kept for adoption (R487). -/
  keptEvt : List (Nat × Evt)
  /-- On an RSP ring: completions waiting for it (R492), with the CMD ring each one belongs to. -/
  waiting : List Compl
  /-- On a CMD ring: a command has been taken and its completion is not written (R492). -/
  busy : Bool
  /-- Drops of the open run on an EVT ring (R482). -/
  run : Option Nat
  /-- HIF_RINGr_CNT (R512). -/
  drops : Nat
  /-- MOD µs have not passed since the ring last raised its vector; entries wait (R484). -/
  modBusy : Bool
  modWait : Bool
  /-- The drain ends in ORPHANED (R491), for the RING_RELEASE of this CMD ring, rather than DISABLED. -/
  release : Option Nat
  deriving DecidableEq, Repr

def Ring.reset : Ring :=
  ⟨.disabled, 0, 0, 0, 0, 0, 0, 0, [], [], [], false, none, 0, false, false, none⟩

/-- One host port (R446 to R450). -/
structure HostPort where
  up : Bool
  bme : Bool
  d3hot : Bool
  lost : Bool
  /-- LOST of HIF_LINK: lost since the last training (R503). -/
  lostBit : Bool
  /-- The HIF_PERST pin of the port is low. -/
  perst : Bool
  /-- The port's clock has failed (R48). -/
  clockFailed : Bool
  downCount : Nat
  width : Nat
  speed : Nat
  /-- By register: the upper word that the last lower-word read latched for this port (R67). -/
  latch : SMap (Option Word)
  /-- NS and SEC latched by the last read of TIME_NOW_FRAC (R683). -/
  nowNs : Nat
  nowSec : Nat
  nowHeld : Bool
  /-- MSI-X table words, sparse by word index (R485); PCIe configuration. -/
  msix : SMap Word
  /-- Pending bits of masked vectors. -/
  pba : List Nat
  /-- The MSI-X function mask and enable of the configuration space. -/
  msixEnable : Bool
  msixMask : Bool
  deriving DecidableEq, Repr

def HostPort.reset : HostPort :=
  ⟨false, false, false, false, false, false, false, 0, 0, 0, [], 0, 0, false, [], [], true, false⟩

/-! ## Memories -/

/-- A memory of 64-bit words with check bits, byte-addressed: its bytes in canonical form, the words whose check bits show
an uncorrectable error, and what an unlisted byte reads as: 0 while `fill` is none, else the content that march number
`fill` left, which the spec does not state (R381). -/
structure Mem where
  fill : Option Nat
  cells : List Host.Cell
  bad : List Nat
  deriving DecidableEq, Repr

def Mem.empty : Mem := ⟨none, [], []⟩

/-- What a byte that the memory does not list reads as. -/
def Mem.dflt (m : Mem) (a : Nat) : Byte :=
  match m.fill with
  | none => 0
  | some k => Config.lostByte k a

/-- A physical bank of R357: role as in R396 (0 active, 1 spare, 2 failed, 3 repair target), error counts, content. -/
structure Bank where
  role : Nat
  ce : Nat
  ue : Nat
  scrubAt : Nat
  /-- The round-robin pointer over the masters (R26). -/
  rr : Nat
  mem : Mem
  deriving DecidableEq, Repr

def Bank.fresh : Bank := ⟨0, 0, 0, 0, 0, Mem.empty⟩

/-- A host access through MW2 that waits at a bank for a running handover (R373): port, logical bank, offset and bytes, the
data of a store, and what the check bits of its first word show. -/
structure HostWait where
  port : Nat
  bank : Nat
  off : Nat
  size : Nat
  data : Option (List Byte)
  ecc : Ecc
  deriving DecidableEq, Repr

/-- A handover in progress (R372): bank, new owner, old owner, and how many accesses of the old owner are still ahead
of the drain marker, with the engine that issued them. -/
structure Handover where
  bank : Nat
  new : Nat
  old : Nat
  ahead : Nat
  pe : Option Nat
  deriving DecidableEq, Repr

/-- A requested march (R384): preserving or destructive, kind, physical bank. -/
structure March where
  preserving : Bool
  buffer : Bool
  bank : Nat
  deriving DecidableEq, Repr

/-- A repair in progress (R385). -/
structure Repair where
  buffer : Bool
  logical : Nat
  orig : Nat
  spare : Nat
  /-- 1 MARCH, 2 COPY, 3 COMMIT. -/
  step : Nat
  deriving DecidableEq, Repr

/-- The MEM block (file 07). Owner codes are those of R366. -/
structure MemSt where
  shared : SMap Bank
  buffer : SMap Bank
  /-- Logical shared bank to physical bank; 0 before the map is made (R358). -/
  mapS : SMap Nat
  mapB : SMap Nat
  owner : SMap Nat
  handover : Option Handover
  /-- The supervisor's handovers that wait (R376): bank and new owner. -/
  queued : List (Nat × Nat)
  /-- Host accesses that wait for the running handover, oldest first (R373). -/
  hostWait : List HostWait
  march : Option March
  repair : Option Repair
  /-- Repairs the host asked for (R401): kind and logical bank. -/
  asks : List (Bool × Nat)
  /-- Non-owner accesses of the running period: master to count and last bank (R379). -/
  nonown : SMap (Nat × Nat)
  /-- Arbitration wait cycles of the running period (R379). -/
  waits : SMap Nat
  deriving DecidableEq, Repr

def MemSt.reset : MemSt := ⟨[], [], [], [], [], none, [], [], none, none, [], [], []⟩


/-! ## Frames and the switch core (files 10 and 11) -/

/-- A frame in the packet buffer. `src` is the SRC code of R156, `port` the ingress port (for a host ring: the host port),
`ring` the FTX ring it is charged to, `slot` the slot whose engine allocated it, until it is sent. -/
structure Frame where
  bytes : List Byte
  src : Nat
  port : Nat
  ring : Option Nat
  slot : Option Nat
  tsNs : Nat
  tsFrac : Nat
  /-- It carries an error kind (R547). -/
  err : Bool
  /-- An uncorrectable buffer error marked it (R363, R609). -/
  bad : Bool
  redelivered : Bool
  /-- The FCT index of the lookup result, 0xFFFF for none (FAU_RX_META). -/
  entry : Nat
  tagged : Bool
  /-- Tag control information as received, or of MAC_VLAN (R539). -/
  tci : Nat
  /-- The classified VID, PCP and DEI (R539). -/
  vid : Nat
  pcp : Nat
  dei : Bool
  /-- FCT generation (R595). -/
  gen : Nat
  /-- Tag operation and VID (R540, R541). -/
  op : Nat
  opVid : Nat
  oneStep : Bool
  /-- A frame that an FTX descriptor sends with TS_REQ or ONE_STEP: ring, index and port of the completion due (R477). -/
  report : Option (Nat × Nat × Nat)
  /-- The slot whose timestamp queue gets an entry for each timed copy (R667). -/
  txSlot : Option Nat
  /-- The PRP or HSR sequence number taken for it, by pair (R544). -/
  redSeq : Option (Nat × Nat)
  deriving DecidableEq, Repr

/-- A copy in a transmit queue: the frame and whether it is marked (R606). -/
structure TxEnt where
  fid : Nat
  mark : Bool
  deriving DecidableEq, Repr

/-- A copy being sent: what goes out, and its transmit time when it is timed (R662). -/
structure Sending where
  fid : Nat
  bytes : List Byte
  timed : Bool
  ns : Nat
  frac : Nat
  inserted : Bool
  deriving DecidableEq, Repr

/-- A MAC beyond its registers (file 10). -/
structure MacSt where
  /-- The mode code being tried (R516); 0 while none is. -/
  trying : Nat
  /-- NEG_FAIL has been raised since the last link (R521). -/
  negFail : Bool
  /-- When the last parity failure fell, in ns (R530). -/
  parityAt : Option Nat
  /-- A received PAUSE holds the transmitter (R549). -/
  paused : Bool
  sending : Option Sending
  /-- The supervisor's 64-bit totals and the counter values it last read (R553). -/
  totals : SMap Nat
  seen : SMap Nat
  deriving DecidableEq, Repr

def MacSt.reset : MacSt := ⟨0, false, none, false, none, [], []⟩

/-- A gate list in progress (R610): a first cycle has started, the entry in force, the open gates. -/
structure GateSt where
  running : Bool
  entry : Nat
  gates : Nat
  deriving DecidableEq, Repr

def GateSt.reset : GateSt := ⟨false, 0, 0xFF⟩

/-- A learn action that waits (R588): VID, source address, ingress port. -/
structure Learn where
  vid : Nat
  addr : Nat
  port : Nat
  deriving DecidableEq, Repr

/-- An entry of duplicate discard (R616): pair, source address, number, time in ns. -/
structure DupEnt where
  pair : Nat
  addr : Nat
  seq : Nat
  time : Nat
  deriving DecidableEq, Repr

/-- An FCT sub-array copy in progress (R598): logical sub-array and spare. -/
structure SubCopy where
  sub : Nat
  spare : Nat
  deriving DecidableEq, Repr

/-- An entry of a transmit timestamp queue (R667). -/
structure TxTs where
  ns : Nat
  quarter : Nat
  port : Nat
  inserted : Bool
  seq : Nat
  deriving DecidableEq, Repr

/-- The switch core (file 11). -/
structure SwcSt where
  frames : SMap (Option Frame)
  /-- The number the next stored frame takes. -/
  nextFid : Nat
  /-- TQq of port n at key `8 * n + q`, oldest first. -/
  tq : SMap (List TxEnt)
  /-- EQq of slot l at key `8 * l + q`, oldest first. -/
  eq : SMap (List Nat)
  /-- Frames queued for FRX ring r, oldest first. -/
  frx : SMap (List Nat)
  /-- The exact section (R576, R583). -/
  fct : SMap (BitVec 256)
  /-- The ternary section with its masks (R584). -/
  tern : SMap (BitVec 256 × BitVec 128)
  /-- The supervisor's shadow copy of commanded exact entries, by index (R591). -/
  shadow : SMap (BitVec 256)
  /-- Logical sub-array to physical; unlisted keys map to themselves. -/
  subMap : SMap Nat
  /-- Physical sub-arrays out of service. -/
  subBad : List Nat
  subCopy : Option SubCopy
  learnQ : List Learn
  /-- Next entry of the ageing scan. -/
  agePos : Nat
  /-- The CMD ring that waits for the fence (R596). -/
  fenceCmd : Option Nat
  dup : List DupEnt
  gates : SMap GateSt
  macs : SMap MacSt
  /-- Transmit timestamp queues by slot: entries and losses since the last pop (R667). -/
  txts : SMap (List TxTs × Nat)
  deriving DecidableEq, Repr

def SwcSt.reset : SwcSt := ⟨[], 1, [], [], [], [], [], [], [], [], none, [], 0, none, [], [], [], []⟩


/-! ## Protocol engines (files 03 and 04) -/

/-- The engine states of R178. -/
inductive PeState where
  | idle | loaded | run | wait | stopped | halt | shadow | failed
  deriving DecidableEq, Repr

def PeState.code : PeState → Nat
  | .idle => 0 | .loaded => 1 | .run => 2 | .wait => 3 | .stopped => 4 | .halt => 5 | .shadow => 6 | .failed => 7

/-- Where a result of a bundle goes: a general register, an accumulator, flag bits set, flag bits cleared. -/
inductive Dst where
  | reg (r : Fin 32)
  | acc (a : Fin 4)
  | setFlags
  | clearFlags
  deriving DecidableEq, Repr

/-- A result not yet visible (R215): destination, value, bundles left, whether it belongs to the bundle being issued,
whether it is of the MAC class (R226), and whether a stall, WAIT or halt fell since its issue (R217). -/
structure Pend where
  dst : Dst
  val : BitVec 40
  left : Nat
  fresh : Bool
  mac : Bool
  disturbed : Bool
  deriving DecidableEq, Repr

/-- The pending-transfer state of R210: target when taken, bundles left including the transfer's own. -/
structure Xfer where
  target : Option (BitVec 14)
  left : Nat
  deriving DecidableEq, Repr

/-- How a loaded value is placed (R229): one register sign- or zero-extended, or a register pair. -/
inductive LoadKind where
  | s8 | u8 | s16 | u16 | w32 | d64
  deriving DecidableEq, Repr

/-- Where a posted far store goes: through its address, to a byte of a received frame, to a byte of the transmit frame
(R159, R163), or nowhere any more. -/
inductive StoreTo where
  | bus
  | rx (fid idx : Nat)
  | tx (idx : Nat)
  | gone
  deriving DecidableEq, Repr

/-- A posted far store (R143) of the bundle at `pc`. -/
structure FarStore where
  addr : Nat
  data : List Byte
  pc : BitVec 14
  to_ : StoreTo
  deriving DecidableEq, Repr

/-- Why an engine is stalled: a far load under way, a store that finds the write buffer full, FENCE, or a near load
that waits for the fetch-ahead or the snapshot (R140 to R143, R229). -/
inductive Stall where
  | load (addr : Nat) (kind : LoadKind) (rd : Fin 32)
  | store (st : FarStore)
  | fence
  | fetch (addr : Nat) (kind : LoadKind) (rd : Fin 32)
  | snap (addr : Nat) (kind : LoadKind) (rd : Fin 32)
  deriving DecidableEq, Repr

/-- An engine timer (R168). -/
structure EtTimer where
  en : Bool
  absolute : Bool
  periodic : Bool
  cmp : Nat
  period : Nat
  fired : Bool
  late : Bool
  /-- It has fired and adds no period (R169). -/
  spent : Bool
  deriving DecidableEq, Repr

def EtTimer.reset : EtTimer := ⟨false, false, false, 0, 0, false, false, false⟩

/-- A transmit frame being built (R162, R163): length, bytes written so far, window base. -/
structure TxOpen where
  len : Nat
  bytes : SMap Byte
  staging : SMap Byte
  cells : Nat
  deriving DecidableEq, Repr

/-- The frame access unit of an engine (R153 to R165). -/
structure Fau where
  /-- The open receive frame: queue and frame number (R155). -/
  rx : Option (Nat × Nat)
  rxAhead : Bool
  /-- Queues whose next frame has been fetched ahead (R157). -/
  ahead : Nat
  rxBase : Nat
  tx : Option TxOpen
  txBase : Nat
  /-- The answer the next read of FAU_TX_ALLOC returns. -/
  allocStat : Nat
  qen : Nat
  deriving DecidableEq, Repr

def Fau.reset : Fau := ⟨none, false, 0, 0, none, 0, 0, 0xFF⟩

/-- A physical engine. -/
structure Engine where
  w : Vector Word 32
  acc : Vector (BitVec 40) 4
  flags : BitVec 10
  pc : BitVec 14
  /-- The last bundle issued (R199). -/
  lastPc : BitVec 14
  xfer : Option Xfer
  pend : List Pend
  /-- A slot 0 instruction of the present bundle has issued and its slot 1 is due. -/
  half : Bool
  stackLimit : Word
  state : PeState
  haltCause : Nat
  stopPend : Bool
  deferred : Nat
  /-- The logical slot served (R136). -/
  slot : Option (Fin 16)
  stall : Option Stall
  wbuf : List FarStore
  imem : Mem
  dmem : Mem
  fau : Fau
  timers : Vector EtTimer 4
  cycles : Nat
  lastBoundary : Nat
  snapPend : Bool
  snapReady : Bool
  snapNs : Nat
  snapFrac : Nat
  snapCyc : Nat
  even : Nat
  busy : Nat
  stalled : Nat
  /-- The engine is in the present reset (R185): its completion is due. -/
  inReset : Bool
  /-- START follows the reset (R949). -/
  startAfter : Bool
  /-- A halt, with its cause, that waits for the bundle already issued (R147). -/
  haltPend : Option Nat
  /-- CK_PE cycles in RUN and WAIT since the watchdog was restarted (R176). -/
  wdog : Nat
  scrubAt : Nat
  /-- The longest interval between two boundaries in the running period (R309). -/
  longest : Nat
  deriving DecidableEq, Repr

/-- An engine after PORST_N: IDLE, registers 0 but w31 at the stack top and the stack limit of the register defaults
(R185, R196, R197). -/
def Engine.reset : Engine where
  w := (Vector.replicate 32 0).set 31 0x10020000
  acc := Vector.replicate 4 0
  flags := 0
  pc := 0
  lastPc := 0
  xfer := none
  pend := []
  half := false
  stackLimit := 0x10018000
  state := .idle
  haltCause := 0
  stopPend := false
  deferred := 0
  slot := none
  stall := none
  wbuf := []
  imem := Mem.empty
  dmem := Mem.empty
  fau := Fau.reset
  timers := Vector.replicate 4 EtTimer.reset
  cycles := 0
  lastBoundary := 0
  snapPend := false
  snapReady := false
  snapNs := 0
  snapFrac := 0
  snapCyc := 0
  even := 0
  busy := 0
  stalled := 0
  inReset := false
  startAfter := false
  haltPend := none
  wdog := 0
  scrubAt := 0
  longest := 0

/-! ## Mailboxes (file 08) -/

/-- An inbound mailbox (R407, R438): words, the IN_STAT fields, the channel its message came from, and whether the
message has aged (R435). -/
structure Inbox where
  words : SMap Word
  full : Bool
  len : Nat
  sender : Nat
  chan : Nat
  epoch : Nat
  collide : Bool
  aged : Bool
  /-- AGED happens once per posted message, whatever software clears. -/
  agedOnce : Bool
  deriving DecidableEq, Repr

def Inbox.empty : Inbox := ⟨[], false, 0, 0, 0, 0, false, false, false⟩

/-- The MBX block beyond its registers: inbound mailbox `4 * endpoint + k`, outbound status bits [4:0] of channel
`4 * endpoint + c`, and per endpoint the doorbell word, the mask and the epoch. -/
structure MbxSt where
  inbox : SMap Inbox
  ostat : SMap Nat
  db : SMap Word
  mask : SMap Word
  epoch : SMap Nat
  deriving DecidableEq, Repr

def MbxSt.reset : MbxSt := ⟨[], [], [], [], []⟩


/-! ## Logical slots, personalities and Wadi (files 05 and 06) -/

/-- A logical slot. -/
structure SlotSt where
  bound : Bool
  /-- The IMG_ID bound to it (R270). -/
  img : Nat
  /-- The capability words of its parameter block (R262). -/
  caps : List Nat
  /-- Buses granted at the bind, bit n for bus n (R776). -/
  mdb : Nat
  /-- Sequencers held, bit n for sequencer n (R835). -/
  psq : Nat
  /-- No engine serves it: its work is shed (R334). -/
  shed : Bool
  /-- The class that was short when it was shed (R352), and the logical bank that lost its content for it (R333). -/
  shedFor : Nat
  lostBank : Option Nat
  /-- It starts at the transition to RUN or DEGRADED (R271). -/
  startPend : Bool
  /-- The CMD ring of a PERS_UNBIND that waits for the stop (R273). -/
  unbind : Option Nat
  /-- It may exceed its quota by WADI_MIG_HEADROOM until its occupancy falls below the quota (R290). -/
  grace : Bool
  /-- Most cells held in the running period (R330). -/
  peak : Nat
  /-- A frame was dropped for lack of quota in the running period (R330). -/
  qdrop : Bool
  /-- Periods in a row whose peak stayed below half the quota (R330). -/
  low : Nat
  /-- Busy cycles of its engine in the last 16 periods, newest first (R309). -/
  loads : List Nat
  /-- Periods in a row at or above LOAD_HIGH (R343). -/
  high : Nat
  /-- The period of its last FUNC_PROPOSAL (R343). -/
  asked : Option Nat
  deriving DecidableEq, Repr

def SlotSt.free : SlotSt := ⟨false, 0, [], 0, 0, false, 0, none, false, none, false, 0, false, 0, [], 0, none⟩

/-- A stored personality image: header and sections (R252, R253, R265), and the logical banks that hold it. -/
structure Image where
  id : Nat
  hdr : List Byte
  caps : List Byte
  imem : List Byte
  dinit : List Byte
  banks : List Nat
  deriving DecidableEq, Repr

/-- The phases of R278 that last: PREPARE, PRECOPY, STOPWAIT. -/
inductive MigPhase where
  | prepare | precopy | stopwait
  deriving DecidableEq, Repr

/-- A running migration (R277). `act` is the action code of Wadi or 0 for a host's, `prop` its proposal, `retire` says that
the source is retired at the commit, `cmds` are the CMD rings that wait for its end. -/
structure Mig where
  slot : Fin 16
  src : Fin 18
  tgt : Fin 18
  phase : MigPhase
  /-- The dirty bitmap (R280). -/
  dirty : SMap Bool
  act : Nat
  prop : Nat
  retire : Bool
  cmds : List Nat
  /-- Writes of PE_CTRL held for the source while the blackout runs: the bits written (R292). -/
  ctrl : List Nat
  deriving DecidableEq, Repr

/-- The personality store and the engines' recovery history. -/
structure PersSt where
  images : List Image
  mig : Option Mig
  /-- By engine: the source whose reaction halted it, the time of the last recovery, and of the last IMEM_UE halt (R319). -/
  haltSrc : SMap Nat
  recovAt : SMap (Option Nat)
  imemUeAt : SMap (Option Nat)
  /-- A transition to CONFIG that waits for the end of a blackout (R292), with the CMD ring of its MODE command. -/
  toConfig : Option (Option Nat)
  deriving DecidableEq, Repr

def PersSt.reset : PersSt := ⟨[], none, [], [], [], none⟩

/-- An open proposal (R322, R324): `acts` is the period at which it acts or expires. -/
structure Proposal where
  id : Nat
  act : Nat
  slot : Fin 16
  src : Fin 18
  tgt : Fin 18
  acts : Nat
  accepted : Bool
  /-- A command of host software has excluded it (R325). -/
  hostAct : Bool
  deriving DecidableEq, Repr

/-- Wadi beyond its registers (file 06). -/
structure WadiSt where
  props : List Proposal
  /-- The identifier of the next proposal. -/
  nextId : Nat
  /-- Proposals that have started: WADI_ACCEPT and WADI_VETO of one is refused with TOO_LATE (R326). -/
  started : List Nat
  /-- The period in which the last REBALANCE started. -/
  rebalAt : Option Nat
  /-- Engines that ENG_RETIRE named, with the CMD ring that waits (R294). -/
  retire : List (Fin 18 × Nat)
  /-- Functions that step 1 of R332 moved, and functions that host software set to hardware mode in DEGRADED (R337). -/
  moved : List Nat
  keepHw : List Nat
  /-- Losses with no spare that the next decision treats (R331): class as in R352 and logical unit. -/
  lost : List (Nat × Nat)
  /-- Step 1 of R332 has run since DEGRADED was entered. -/
  step1 : Bool
  /-- The periods left with no engine action because a takeover skipped a decision (R99). -/
  skip : Bool
  deriving DecidableEq, Repr

def WadiSt.reset : WadiSt := ⟨[], 1, [], none, [], [], [], [], false, false⟩


/-! ## Time base (file 12) -/

/-- The 80-bit time base (R641), carried with 40 bits below the nanosecond (R644), and a slew in progress (R652). -/
structure TimeBase where
  sec : BitVec 48
  ns : BitVec 32
  sub : BitVec 40
  /-- The signed amount of a slew not yet added, in units of 2⁻⁴⁰ ns. -/
  slew : Int
  deriving DecidableEq, Repr

def TimeBase.reset : TimeBase := ⟨0, 0, 0, 0⟩
/-- A timed pin beyond its registers (R670 to R675): captures (ns, quarter, rising), the time of the last captured edge in
quarters of a ns, the index of the next PERIODIC leading edge, whether the SINGLE edge has occurred, the level driven and
whether a pulse runs. -/
structure TioSt where
  caps : List (Nat × Nat × Bool)
  last : Option Nat
  next : Nat
  done : Bool
  level : Bool
  pulse : Bool
  deriving DecidableEq, Repr

def TioSt.reset : TioSt := ⟨[], none, 0, false, false, false⟩



/-! ## Caravan (file 13) -/

/-- What the data mover has read for a transmit slot (R724): null, or sequence number, staleness and data. -/
structure CvnPrep where
  null : Bool
  stale : Bool
  seq : Nat
  data : List Byte
  deriving DecidableEq, Repr

/-- A mode change on the first node (R735): the CMD ring that waits, the target, cycle N once its CS has been sent, and what the
returned CS of N + 1 showed. -/
structure CvnChange where
  ring : Nat
  target : Nat
  start : Option Nat
  equal : Option Bool
  deriving DecidableEq, Repr

/-- A channel beyond its registers. -/
structure CvnChan where
  /-- The open window of the cycle runs (R706). -/
  window : Bool
  /-- Cold-start cycles sent (R732). -/
  cold : Nat
  /-- CS frames in a row with θ within G / 2 (R730). -/
  good : Nat
  /-- A CS frame has been met since LISTEN was entered. -/
  met : Bool
  integ : Int
  /-- The cycle of the last CS frame from FIRST_ADDR. -/
  csCycle : Nat
  /-- Link delay values, newest first, and the send time of the request under way, on U and on D (R716). -/
  delU : List Nat
  delD : List Nat
  reqU : Option Nat
  reqD : Option Nat
  /-- The link is up and used (R701), and the node loops it back (R728), on U and on D. -/
  upU : Bool
  upD : Bool
  loopU : Bool
  loopD : Bool
  /-- Training tries 2.5 Gbit/s, on U and on D (R700, R702). -/
  slowU : Bool
  slowD : Bool
  /-- The cycle at whose start the loopback on U or D ends (R729). -/
  loopEndU : Option Nat
  loopEndD : Option Nat
  /-- A leave has begun, with the first of its two announcement cycles (R726); the LEAVE frames already sent, by cycle and
  entry, entry 0 being the first node's at CS_END (R727); the node has left and sends nothing of its own. -/
  leaving : Option Nat
  told : List (Nat × Nat)
  left : Bool
  /-- The cycle of the first node's LEAVE (R727). -/
  firstLeft : Option Nat
  change : Option CvnChange
  /-- The cycle and the target of a committed change (R735). -/
  switchAt : Option (Nat × Nat)
  prep : SMap (Option CvnPrep)
  /-- The SEQ last sent, by transmit entry. -/
  lastSeq : SMap (Option Nat)
  /-- The DEPTH of the last CS frame (R740). -/
  depth : Nat
  deriving DecidableEq, Repr

def CvnChan.reset : CvnChan :=
  ⟨false, 0, 0, false, 0, 0, [], [], none, none, false, false, false, false, false, false, none, none, none, [], false, none, none,
    none, [], [], 0⟩

/-- The Caravan block beyond its registers; `viol` is the last violating cycle (R733). -/
structure CvnSt where
  chans : SMap CvnChan
  viol : Option Nat
  deriving DecidableEq, Repr

def CvnSt.reset : CvnSt := ⟨[], none⟩


/-! ## Multi-drop buses (file 14) -/

/-- A transmit buffer (R770, R776): header words HDR0 to HDR3, data, and its states. -/
structure TBuf where
  hdr : List Word
  data : SMap Byte
  pending : Bool
  held : Bool
  /-- An ABORT waits for the end of the frame being sent (R777). -/
  abort : Bool
  /-- The CMD rings whose MDB_ABORT waits for that end (R789). -/
  abortCmds : List Nat
  deriving DecidableEq, Repr

def TBuf.empty : TBuf := ⟨[0, 0, 0, 0], [], false, false, false, []⟩

/-- A receive entry (R775, R776). -/
structure RxEnt where
  hdr : List Word
  data : List Byte
  time : Nat
  deriving DecidableEq, Repr

/-- A completed transmit buffer (TX_DONE): status, buffer, start-of-frame time. -/
structure TxDone where
  status : Nat
  buf : Nat
  time : Nat
  deriving DecidableEq, Repr

/-- A record of clash events at one identifier (R781): HDR0 of the frame and the times, oldest first. -/
structure Clash where
  hdr0 : Word
  times : List Nat
  deriving DecidableEq, Repr

/-- A logical bus beyond its registers. -/
structure BusSt where
  bufs : SMap TBuf
  fifo : List RxEnt
  opened : Option RxEnt
  txSel : Word
  rxBase : Nat
  even : Nat
  /-- MW_EVENT bits [2] and [3]. -/
  stateEv : Bool
  ttEv : Bool
  doneQ : List TxDone
  /-- The buffer being sent, its start-of-frame time, and whether an exclusive window holds it. -/
  sending : Option (Nat × Nat × Bool)
  clashes : List Clash
  /-- DETECT: the candidate in use and frames received without error (R782). -/
  cand : Option Nat
  good : Nat
  /-- When the last MDB_ERROR event was written (R788). -/
  lastErr : Option Nat
  /-- The start that MDB_TT_NEXT gave (R788). -/
  ttNext : Option Nat
  /-- A reference message has started a basic cycle, and the filters matched since. -/
  ttRun : Bool
  matched : List Nat
  /-- While the bus sleeps or is withdrawn (R807). -/
  asleep : Bool
  /-- When the bus entered PENDING, in ns (R818). -/
  pendAt : Nat
  /-- No controller serves the bus (R768). -/
  shed : Bool
  deriving DecidableEq, Repr

def BusSt.reset : BusSt :=
  ⟨[], [], none, 0, 0, 0, false, false, [], none, [], none, 0, none, none, false, [], false, 0, false⟩



/-! ## Pin sequencers (file 16) -/

/-- What follows when an instruction has occupied its ticks (R842, R843, R845). -/
inductive SeqNext where
  | goto (pc : BitVec 7)
  | stop
  deriving DecidableEq, Repr

/-- A logical sequencer with the execution state of the machine under it (R833). -/
structure SeqSt where
  imem : SMap Word
  tx : List Word
  rx : List Word
  running : Bool
  /-- STOP_CAUSE of R873. -/
  cause : Nat
  pc : BitVec 7
  /-- No RESTART or START since a reset: PC is START_PC (R851). -/
  fresh : Bool
  lc0 : BitVec 16
  lc1 : BitVec 16
  tsr : Word
  tcnt : Nat
  rsr : Word
  rcnt : Nat
  hold : Word
  /-- Ticks of dwell left, and what follows them. -/
  dwell : Option (Nat × SeqNext)
  /-- The previous sample of TEST_PIN. -/
  test : Bool
  /-- Divider phase in 1/256 of a CK_PSQ cycle (R841). -/
  phase : Nat
  /-- The stalled instruction, and whether PC moves on after it (R842, R857). -/
  stalled : Option (Word × Bool)
  inject : Option Word
  /-- EVENT bit [2] (R860). -/
  signal : Bool
  even : Nat
  deriving DecidableEq, Repr

def SeqSt.reset : SeqSt :=
  ⟨[], [], [], false, 0, 0, true, 0, 0, 0, 0, 0, 0, 0, none, false, 0, none, none, false, 0⟩

/-- The pin sequencers beyond their registers. Bit p of the pin words is PIOp. -/
structure PsqSt where
  seqs : SMap SeqSt
  /-- Levels last sampled at the pins. -/
  pins : BitVec 48
  /-- Directions (1: output) and output levels before OUT_INV. -/
  dir : BitVec 48
  lvl : BitVec 48
  /-- The sequencers of the armed timed start (R853). -/
  timed : Word
  /-- Machines that have failed, and those that came back as worn spares (R861, R862). -/
  bad : List Nat
  worn : List Nat
  deriving DecidableEq, Repr

def PsqSt.reset : PsqSt := ⟨[], 0, 0, 0, 0, [], []⟩

/-! ## Safety I/O (file 17) -/

/-- A pair beyond its registers: whether its channels disagree, the ticks counted, and whether both channels have been at
their demand levels since the latch (R899, R900). -/
structure SioPair where
  dis : Bool
  count : Nat
  both : Bool
  deriving DecidableEq, Repr

def SioPair.reset : SioPair := ⟨false, 0, false⟩

/-- An input channel: filtered level, failed, acknowledged since, missed pulses in a row (R894, R897). -/
structure SioDi where
  level : Bool
  failed : Bool
  acked : Bool
  missed : Nat
  deriving DecidableEq, Repr

def SioDi.reset : SioDi := ⟨false, false, false, 0⟩

/-- An output: switched on; the last accepted command bit; it waits for a 0 and then a 1 (R879, R902, R903) and has been
shown the 0; the failure 7 STUCK or 8 XSHORT; the trip 4 OVERLOAD or 5 THERMAL, not yet cooled; in its test pulse; missed
tests in a row; tests in a row in which HA or HB carried too little (R910); halves out of service; the pairs that have shut it off and not been
at 1 since (R902). -/
structure SioDq where
  on : Bool
  cmd : Bool
  wait : Bool
  seen : Bool
  fail : Nat
  trip : Nat
  cooling : Bool
  test : Bool
  missed : Nat
  lowA : Nat
  lowB : Nat
  outA : Bool
  outB : Bool
  readback : Bool
  links : List Nat
  deriving DecidableEq, Repr

def SioDq.reset : SioDq := ⟨false, false, true, false, 0, 0, false, false, 0, 0, 0, false, false, false, []⟩

/-- The safety die beyond its registers. -/
structure SioSt where
  pairs : SMap SioPair
  dis : SMap SioDi
  dqs : SMap SioDq
  /-- Cross-short patterns in a row, by channel and source (R895), and readback misses of each source (R896). -/
  cross : SMap Nat
  srcMiss : SMap Nat
  /-- Sources low in their pulse, and the stop of all of them (R917). -/
  pulses : List Nat
  stopped : Bool
  /-- CNT of the input block, and the CNT last accepted (R885, R888). -/
  cntIn : Nat
  cntOut : Option Nat
  /-- A device-level safety demand holds the die in HOLD (R878). -/
  demand : Bool
  /-- Neither configuration copy verified (R882). -/
  badCfg : Bool
  /-- Join windows: 1 start-up, 2 test, 3 recovery (R914); the pairs that are joined. -/
  windows : SMap Nat
  joined : List Nat
  /-- Wrong passwords in a row, and the refusal that follows five (R925). -/
  wrongPwd : Nat
  lockout : Bool
  deriving DecidableEq, Repr

def SioSt.reset : SioSt := ⟨[], [], [], [], [], [], false, 0, none, false, false, [], [], 0, false⟩


/-! ## The whole state -/

/-- The state of the module. -/
structure State where
  /-- The commands waiting, first in, first out (the model's own). -/
  pending : List Instr
  /-- What the module has sent out, oldest first (the model's own record). -/
  out : List Out
  /-- The value the last read of a register or a window returned (the model's own record). -/
  rdata : Nat
  /-- How many free values have been drawn (the model's own counter). -/
  draws : Nat
  /-- The variant: true on the AZ-9416-M10 (R1). -/
  m10 : Bool
  /-- HIF_BOND_N sampled low at PORST_N (R447). -/
  bonded : Bool
  /-- The level of the pin: true when HIF_BOND_N is low. -/
  bondPin : Bool
  /-- The mode (R8, R82). -/
  mode : Mode
  /-- The register file of MW0: words that differ from their reset values. -/
  regs : SMap Word
  /-- Lower-word holding values of 64-bit registers (R1034). -/
  holding : SMap Word
  /-- Fault bookkeeping (file 18). -/
  faults : FaultSt
  /-- Boot flow and supervisors (file 02). -/
  boot : BootSt
  /-- A quiesce in progress (R117, R1036). -/
  quiesce : Option Quiesce
  /-- Flash slot A (R104). -/
  flashA : FlashSlot
  /-- Flash slot B (R104). -/
  flashB : FlashSlot
  /-- An image update in progress (R495). -/
  upd : Option UpdRun
  /-- The NVM (R90). -/
  nvm : Nvm
  /-- The 512 descriptor rings (R455). -/
  rings : SMap Ring
  /-- Host port A. -/
  portA : HostPort
  /-- Host port B. -/
  portB : HostPort
  /-- The time base (R641). -/
  tb : TimeBase
  /-- The physical engines PE0 to PE17 (R135). -/
  pes : Vector Engine 18
  /-- The MEM block: banks, maps, ownership, march and repair (file 07). -/
  mem : MemSt
  /-- The engine that last served each logical slot (R391). -/
  lastPe : SMap Nat
  /-- Mailboxes, doorbells and epochs of the 19 endpoints (file 08). -/
  mbx : MbxSt
  /-- The switch core and the MACs beyond their registers (files 10 and 11). -/
  swc : SwcSt
  /-- The logical slots L0 to L15 (R136). -/
  slots : SMap SlotSt
  /-- The personality store and the Mirage unit (file 05). -/
  pers : PersSt
  /-- Wadi (file 06). -/
  wadi : WadiSt
  /-- The timed pins TIO0 to TIO15 beyond their registers (R670). -/
  tio : SMap TioSt
  /-- The Caravan block beyond its registers (file 13). -/
  cvn : CvnSt
  /-- The logical buses MDB0 to MDB7 beyond their registers (file 14). -/
  buses : SMap BusSt
  /-- Controllers that have failed (R767). -/
  ctrlBad : List Nat
  /-- Controllers that returned to the Oasis pool as worn spares (R766). -/
  ctrlWorn : List Nat
  /-- The pin sequencers (file 16). -/
  psq : PsqSt
  /-- What PWR senses at its pins and supplies (file 19). -/
  pwr : PwrSt
  /-- The safety die beyond its registers (file 17). -/
  sio : SioSt
  deriving DecidableEq, Repr

/-- The module right after PORST_N: mode BOOT at STAGE 0x0, every register at its reset value, nothing queued. -/
def State.reset : State where
  pending := []
  out := []
  rdata := 0
  draws := 0
  m10 := false
  bonded := false
  bondPin := false
  mode := .boot
  regs := []
  holding := []
  faults := FaultSt.reset
  boot := BootSt.reset
  quiesce := none
  flashA := FlashSlot.empty
  flashB := FlashSlot.empty
  upd := none
  nvm := Nvm.fresh
  rings := []
  portA := HostPort.reset
  portB := HostPort.reset
  tb := TimeBase.reset
  pes := Vector.replicate 18 Engine.reset
  mem := MemSt.reset
  lastPe := []
  mbx := MbxSt.reset
  swc := SwcSt.reset
  slots := []
  pers := PersSt.reset
  wadi := WadiSt.reset
  tio := []
  cvn := CvnSt.reset
  buses := []
  ctrlBad := []
  ctrlWorn := []
  psq := PsqSt.reset
  pwr := PwrSt.reset
  sio := SioSt.reset

end Sys2Proof.Machine
end

