-- ==== Sys2Proof/Machine/Ops.lean ====
section
/-! DEFINITION. Operations shared by every family: registers, time, free values, events, rings and completions, and the
occurrence of a fault. -/

namespace Sys2Proof.Machine

/-! ## Block instances and the register map -/

/-- The MW0 base of a block instance (R63). -/
def BlkId.base : BlkId → Nat
  | .gen => 0 | .hif => 0x10000 | .mbx => 0x20000 | .wadi => 0x30000 | .mem => 0x40000
  | .pe n => 0x80000 + n * 0x10000 | .mac n => 0x200000 + n * 0x4000 | .swc => 0x280000
  | .time => 0x300000 | .cvn => 0x340000 | .mdb n => 0x380000 + n * 0x2000 | .wake => 0x3A0000
  | .psq => 0x3C0000 | .sio => 0x400000 | .hlth => 0x440000 | .clk => 0x480000 | .pwr => 0x4C0000

/-- Bits [23:12] of the base: how events and cause IDs name a block (R481, R962). -/
def BlkId.code (b : BlkId) : Nat := b.base / 0x1000

/-- The number of the instance within its kind (R971). -/
def BlkId.instNo : BlkId → Nat
  | .pe n => n | .mac n => n | .mdb n => n | _ => 0

/-- The fault sources of a block (R951). -/
def BlkId.sources : BlkId → List FaultRow
  | .gen => faultsGEN | .hif => faultsHIF | .mbx => faultsMBX | .wadi => faultsWADI | .mem => faultsMEM
  | .pe _ => faultsPE | .mac _ => faultsMAC | .swc => faultsSWC | .time => faultsTIME | .cvn => faultsCVN
  | .mdb _ => faultsMDB | .wake => faultsWAKE | .psq => faultsPSQ | .sio => faultsSIO | .hlth => faultsHLTH
  | .clk => faultsCLK | .pwr => faultsPWR

/-- The block instance whose range of R63 holds an offset. -/
def blkAt (off : Nat) : Option BlkId :=
  if off < 0x10000 then some .gen else if off < 0x20000 then some .hif else if off < 0x30000 then some .mbx
  else if off < 0x40000 then some .wadi else if off < 0x80000 then some .mem
  else if off < 0x1A0000 then some (.pe ((off - 0x80000) / 0x10000))
  else if off < 0x200000 then none
  else if off < 0x240000 then some (.mac ((off - 0x200000) / 0x4000))
  else if off < 0x280000 then none
  else if off < 0x300000 then some .swc else if off < 0x340000 then some .time
  else if off < 0x380000 then some .cvn
  else if off < 0x392000 then some (.mdb ((off - 0x380000) / 0x2000))
  else if off < 0x3A0000 then none
  else if off < 0x3C0000 then some .wake else if off < 0x400000 then some .psq
  else if off < 0x440000 then some .sio else if off < 0x480000 then some .hlth
  else if off < 0x4C0000 then some .clk else if off < 0x500000 then some .pwr else none

/-- Every block instance (R25). -/
def allBlks : List BlkId :=
  [.gen, .hif, .mbx, .wadi, .mem] ++ (List.range 18).map .pe ++ (List.range 16).map .mac ++
  [.swc, .time, .cvn] ++ (List.range 9).map .mdb ++ [.wake, .psq, .sio, .hlth, .clk, .pwr]

def FSTAT (b : BlkId) : Nat := b.base + 0xF00
def FMASK (b : BlkId) : Nat := b.base + 0xF04
def FFORCE (b : BlkId) : Nat := b.base + 0xF08
def FCLASS (b : BlkId) (w : Nat) : Nat := b.base + 0xF10 + 4 * w
def FREACT (b : BlkId) (w : Nat) : Nat := b.base + 0xF20 + 4 * w
def FCAP (b : BlkId) (k : Nat) : Nat := b.base + 0xF30 + 4 * k
/-- FCAP3 is 64 bits at 0x0F40 (R983). -/
def FCAP3 (b : BlkId) : Nat := b.base + 0xF40

/-- The fields of FCLASSw or FREACTw: one 4-bit field for each source the block has (R986). -/
def sourceFields (b : BlkId) (w : Nat) (react : Bool) : List FieldRow :=
  (b.sources.filter fun r => r.bit / 8 == w).map fun r =>
    ⟨4 * (r.bit % 8) + (if react then 3 else 2), 4 * (r.bit % 8), .rw, if react then r.react else r.cls⟩

/-- The fields of the fault register at instance offset `o` (R983 to R987). -/
def faultFields (b : BlkId) (o : Nat) : Option (List FieldRow) :=
  if o = 0xF00 then some [⟨31, 31, .w1c, 0⟩, ⟨30, 30, .w1c, 0⟩, ⟨29, 29, .ro, 0⟩, ⟨28, 24, .ro, 0⟩, ⟨23, 0, .w1c, 0⟩]
  else if o = 0xF04 then some [⟨23, 0, .rw, 0⟩]
  else if o = 0xF08 then some [⟨23, 0, .wo, 0⟩]
  else if o = 0xF10 ∨ o = 0xF14 ∨ o = 0xF18 then some (sourceFields b ((o - 0xF10) / 4) false)
  else if o = 0xF20 ∨ o = 0xF24 ∨ o = 0xF28 then some (sourceFields b ((o - 0xF20) / 4) true)
  else if o = 0xF30 ∨ o = 0xF34 ∨ o = 0xF38 ∨ o = 0xF40 ∨ o = 0xF44 then some [⟨31, 0, .ro, 0⟩]
  else none

/-- Whether an array row covers an offset. -/
def RegRow.covers (r : RegRow) (off : Nat) : Bool :=
  decide (r.base ≤ off) &&
    (let d := off - r.base
     decide (d / r.s1 < r.n1) && decide (d % r.s1 / r.s2 < r.n2) && decide (d % r.s1 % r.s2 = 0))

/-- The fields of the register at an MW0 offset; none where the offset is unassigned (R65). -/
def fieldsAt (off : Nat) : Option (List FieldRow) :=
  match blkAt off with
  | none => none
  | some b =>
    if 0xF00 ≤ off - b.base ∧ off - b.base < 0x1000 then faultFields b (off - b.base)
    else ((rowsAt off).find? (·.covers off)).map (·.fields)

/-- The bits of the given access codes in a list of fields. -/
def accMask (p : Acc → Bool) (fs : List FieldRow) : Word :=
  fs.foldl (fun m f => if p f.acc then m ||| (Fld.mk f.hi f.lo).mask else m) 0

/-- The reset word of a list of fields (R18). -/
def resetOf (fs : List FieldRow) : Word :=
  fs.foldl (fun w f => (Fld.mk f.hi f.lo).put w f.rst) 0

/-- What a register reads as when nothing has changed it since PORST_N. -/
def resetWord (off : Nat) : Word := resetOf ((fieldsAt off).getD [])

/-- The word held at an MW0 offset. -/
def State.reg (s : State) (off : Nat) : Word := SMap.get resetWord s.regs off

/-- `s` with the word at an MW0 offset. -/
def State.setReg (s : State) (off : Nat) (w : Word) : State :=
  { s with regs := SMap.set resetWord s.regs off w }

/-- A field of a register. -/
def State.rd (s : State) (off : Nat) (f : Fld) : Nat := f.get (s.reg off)

/-- `s` with a field of a register replaced. -/
def State.wr (s : State) (off : Nat) (f : Fld) (v : Nat) : State := s.setReg off (f.put (s.reg off) v)

/-- A one-bit field as a Boolean. -/
def State.flag (s : State) (off : Nat) (f : Fld) : Bool := s.rd off f != 0

/-- `s` with a count in a field raised by `n`; it stops at the field's largest value. -/
def State.bump (s : State) (off : Nat) (f : Fld) (n : Nat) : State :=
  s.wr off f (stopAt (f.size - 1) (s.rd off f + n))

/-- What a host write leaves in a register (R18): RW fields take the value, ones clear W1C bits, all else stays. -/
def hostWrite (fs : List FieldRow) (old v : Word) : Word :=
  let rw := accMask (fun a => a == .rw || a == .rws) fs
  ((old &&& ~~~ rw) ||| (v &&& rw)) &&& ~~~ (v &&& accMask (· == .w1c) fs)

/-- A host write of a register with no effect beyond its fields. -/
def State.regWrite (s : State) (off : Nat) (v : Word) : State :=
  s.setReg off (hostWrite ((fieldsAt off).getD []) (s.reg off) v)

/-- What a warm, block or safety-domain reset leaves in a word: its sticky fields (R18, R90). -/
def keepWord (off : Nat) (w : Word) : Word :=
  let m := accMask (fun a => a == .rws || a == .ros) ((fieldsAt off).getD [])
  (w &&& m) ||| (resetWord off &&& ~~~ m)

/-- The register has fields that a warm reset keeps. -/
def stickyWord (off : Nat) : Bool := accMask (fun a => a == .rws || a == .ros) ((fieldsAt off).getD []) != 0

/-- The registers that `p` names return to their reset values, their sticky fields kept; the lower-word holding value of a
register that is reset is forgotten (R1034). -/
def State.resetRegs (s : State) (p : Nat → Bool) : State :=
  let keep := fun (e : Nat × Word) => if keepWord e.1 e.2 = resetWord e.1 then none else some (e.1, keepWord e.1 e.2)
  { s with
    regs := s.regs.filterMap fun e => if p e.1 = true then keep e else some e
    holding := s.holding.filter fun e => !p e.1 || stickyWord e.1 }

/-- A fault register of a block (R983). -/
def isFaultReg (off : Nat) : Bool :=
  match blkAt off with
  | some b => decide (b.base + 0xF00 ≤ off ∧ off < b.base + 0xF48)
  | none => false

/-- A 64-bit register in force: the two words, low word first (R14). -/
def State.reg64 (s : State) (off : Nat) : Nat := (s.reg off).toNat + 2 ^ 32 * (s.reg (off + 4)).toNat

def State.setReg64 (s : State) (off v : Nat) : State :=
  (s.setReg off (BitVec.ofNat 32 (v % 2 ^ 32))).setReg (off + 4) (BitVec.ofNat 32 (v / 2 ^ 32))

/-! ## Time -/

/-- The ns view of R643. -/
def TimeBase.nowNs (t : TimeBase) : Nat := (t.sec.toNat * 1000000000 + t.ns.toNat) % 2 ^ 64

def State.now (s : State) : Nat := s.tb.nowNs

/-! ## Free values and outputs -/

/-- The next free value, as a number below `2^w`, and the state with the draw counted. -/
def State.draw (s : State) (w : Nat) : Nat × State :=
  ((Config.freeWord s.draws).toNat % 2 ^ w, { s with draws := s.draws + 1 })

def State.emit (s : State) (o : Out) : State := { s with out := s.out ++ [o] }

def State.setPin (s : State) (name : String) (level : Bool) : State := s.emit (.pin name level)

/-! ## Ports and rings -/

/-- A host port: 0 is A, 1 is B. -/
def State.port (s : State) (p : Nat) : HostPort := if p = 0 then s.portA else s.portB

def State.setPort (s : State) (p : Nat) (h : HostPort) : State :=
  if p = 0 then { s with portA := h } else { s with portB := h }

def State.ring (s : State) (r : Nat) : Ring := SMap.get (fun _ => Ring.reset) s.rings r

def State.setRing (s : State) (r : Nat) (x : Ring) : State :=
  { s with rings := SMap.set (fun _ => Ring.reset) s.rings r x }

/-- The entries of ring `r` (R456). -/
def State.ringSize (s : State) (r : Nat) : Nat := 2 ^ s.rd (HIF_RING_CFG r) HIF_RING_CFG_SIZE

def State.ringType (s : State) (r : Nat) : Nat := s.rd (HIF_RING_CFG r) HIF_RING_CFG_TYPE

/-- The module issues DMA on a port: its link is up with Bus Master Enable set, it is in D0, and the quiesce has not
ended (R117, R486). -/
def State.dmaOk (s : State) (p : Nat) : Bool :=
  (s.port p).up && (s.port p).bme && !(s.port p).lost && !(s.port p).d3hot &&
    !s.flag GEN_MODE_STAT GEN_MODE_STAT_QUIESCED

/-- MSI-X words at reset: every vector masked. -/
def msixDefault (k : Nat) : Word := if k % 4 = 3 then 1 else 0

/-- A vector of a port is raised: a masked vector sets its pending bit instead (R485). -/
def State.raiseVec (s : State) (p vec : Nat) : State :=
  let h := s.port p
  if h.msixMask || bitOf (SMap.get msixDefault h.msix (4 * vec + 3)).toNat 0 then
    s.setPort p { h with pba := if h.pba.contains vec then h.pba else h.pba ++ [vec] }
  else if h.msixEnable then s.emit (.msix p vec) else s

/-- Ring `r` has written a completion or an entry: its vector follows, moderated (R484). -/
def State.notifyRing (s : State) (r : Nat) : State :=
  let x := s.ring r
  let vec := s.rd (HIF_RING_CFG r) HIF_RING_CFG_VEC
  if vec = 0 then s
  else if x.modBusy then s.setRing r { x with modWait := true }
  else if s.rd (HIF_RING_CFG r) HIF_RING_CFG_MOD = 0 then s.raiseVec x.port vec
  else (s.setRing r { x with modBusy := true }).raiseVec x.port vec

/-- The free entries of an RSP or EVT ring, or the room the consumer index leaves (R466). -/
def State.ringFree (s : State) (r : Nat) : Bool :=
  let x := s.ring r
  decide ((x.cidx + 65536 - x.pidx) % 65536 < s.ringSize r)

/-- Write one event entry to ring `r`, which is ACTIVE and has a free entry (R481). -/
def State.writeEvt (s : State) (r : Nat) (e : Evt) : State :=
  let x := s.ring r
  ((s.emit (.event x.port r x.cidx e.kind e.cls e.block e.time e.q2 e.q3)).setRing r
    { x with cidx := (x.cidx + 1) % 65536 }).notifyRing r

/-- An occurrence of fault source `src` of block `b`, with the capture words the spec gives it; `slot` is the logical
slot, channel or bus it concerns (255: none). It is treated when the command's own effect is complete (R944). -/
def State.raiseFor (s : State) (b : BlkId) (src : Nat) (caps : List Nat) (slot : Nat) : State :=
  { s with faults := { s.faults with due := s.faults.due ++ [.occur b src caps slot false] } }

def State.raise (s : State) (b : BlkId) (src : Nat) (caps : List Nat) : State := s.raiseFor b src caps 255

/-- Work left to do before the present command ends. -/
def State.later (s : State) (d : Due) : State := { s with faults := { s.faults with due := s.faults.due ++ [d] } }

/-- A unit was shed or came back: DEGRADED is entered or left before the command ends (R331, R335). -/
def State.degrade (s : State) : State := s.later .degrade

/-- Drop an event for ring `r`: counted, and the first drop of a run raises EVT_LOST (R482). -/
def State.dropEvt (s : State) (r : Nat) : State :=
  let x := s.ring r
  let s1 := s.setRing r { x with drops := stopAt 0xFFFFFFFF (x.drops + 1), run := some ((x.run.getD 0) + 1) }
  if x.run.isNone then s1.raise .hif F_HIF_EVT_LOST [r, 20 + x.port, 5 * 16] else s1

/-- Offer an event to ring `r`: written, or dropped when no entry is free or a run is open (R482). While DMA is paused the
entry keeps its index and waits (R486). -/
def State.offerEvt (s : State) (r : Nat) (e : Evt) : State :=
  let x := s.ring r
  if x.state = .active ∧ x.run.isNone ∧ s.ringFree r then
    if s.dmaOk x.port then s.writeEvt r e
    else s.setRing r { x with cidx := (x.cidx + 1) % 65536, keptEvt := x.keptEvt ++ [(x.cidx, e)] }
  else s.dropEvt r

/-- The EVT_LOST entry of an open run is written once an entry is free (R482). -/
def State.endRun (s : State) (r : Nat) : State :=
  let x := s.ring r
  match x.run with
  | some n =>
    if x.state = .active ∧ s.ringFree r ∧ s.dmaOk x.port then
      (s.setRing r { x with run := none }).writeEvt r ⟨0x09, 3, 7, BlkId.hif.code, s.now, n, 0⟩
    else s
  | none => s

/-- Kept entries are written at their indices (R487, R488). -/
def State.flushEvt (s : State) (r : Nat) : State :=
  let x := s.ring r
  if x.state = .active ∧ s.dmaOk x.port ∧ x.keptEvt ≠ [] then
    (x.keptEvt.foldl (fun t e =>
      t.emit (.event x.port r e.1 e.2.kind e.2.cls e.2.block e.2.time e.2.q2 e.2.q3))
      (s.setRing r { x with keptEvt := [] })).notifyRing r
  else s

/-- Whether ring `r` takes events of a group: a bound EVT ring whose GROUPS includes it (R482, R510). An EVT ring that
is ORPHANED or DRAINING drops them (R461, R487). -/
def State.takesGroup (s : State) (r group : Nat) : Bool :=
  decide (s.ringType r = 5) && bitOf (s.rd (HIF_RING_BIND r) HIF_RING_BIND_BIND) group &&
    ((s.ring r).state != .disabled && (s.ring r).state != .stopped)

/-- Write an event to every EVT ring of its group (R482). -/
def State.post (s : State) (e : Evt) : State :=
  (s.rings.map Prod.fst).foldl (fun t r => if t.takesGroup r e.group then t.offerEvt r e else t) s

/-- An event of a block with no fault class. -/
def State.event (s : State) (b : BlkId) (kind group q2 q3 : Nat) : State :=
  s.post ⟨kind, group, 7, b.code, s.now, q2, q3⟩

/-- Write one completion to RSP ring `rsp` (R476). -/
def State.writeRsp (s : State) (rsp : Nat) (c : Compl) : State :=
  let x := s.ring rsp
  let s1 := (s.emit (.completion x.port rsp x.cidx c.status c.index c.info c.value)).setRing rsp
    { x with cidx := (x.cidx + 1) % 65536 }
  let cmd := c.info % 512
  (s1.setRing cmd { s1.ring cmd with busy := false }).notifyRing rsp

/-- Write the completions that wait for RSP ring `rsp`, as far as entries are free (R492). -/
def State.flushRsp (fuel : Nat) (s : State) (rsp : Nat) : State :=
  match fuel with
  | 0 => s
  | n + 1 =>
    match (s.ring rsp).waiting with
    | [] => s
    | c :: cs =>
      if (s.ring rsp).state = .active ∧ s.ringFree rsp ∧ s.dmaOk (s.ring rsp).port then
        State.flushRsp n ((s.setRing rsp { s.ring rsp with waiting := cs }).writeRsp rsp c) rsp
      else s

/-- Complete the command that CMD ring `ring` carries (R476, R477, R492): the completion goes to the bound RSP ring, or
waits for it. A ring that was unbound meanwhile writes nothing further (R461). -/
def State.complete (s : State) (ring code status value : Nat) : State :=
  let rsp := s.rd (HIF_RING_BIND ring) HIF_RING_BIND_BIND
  let x := s.ring ring
  if x.started = 0 then s else
  let s1 := s.setRing ring { x with busy := true, done := (x.done + 1) % 65536, started := x.started - 1 }
  let y := s1.ring rsp
  let s2 := s1.setRing rsp { y with waiting := y.waiting ++ [⟨x.done, status, code * 65536 + ring, value⟩] }
  s2.flushRsp 4096 rsp

end Sys2Proof.Machine
end

