-- ==== Sys2Proof/Machine/Wear.lean ====
section
/-! DEFINITION. Wear records, health indices, outages and the loss of a unit (R310, R331, R979 to R982). -/

namespace Sys2Proof.Machine

/-! ## Unit kinds (R979) -/

def kEngine : Nat := 0
def kSupervisor : Nat := 1
def kShared : Nat := 2
def kBuffer : Nat := 3
def kFct : Nat := 4
def kPsq : Nat := 5
def kMdb : Nat := 6
def kPll : Nat := 7
def kMac : Nat := 8
def kPort : Nat := 9
def kFlash : Nat := 10
def kNvm : Nat := 11
def kDq : Nat := 12

/-- The number of units of each kind. -/
def kindUnits : List Nat := [18, 2, 72, 52, 18, 36, 9, 6, 16, 2, 2, 2, 16]

def wearKey (k u : Nat) : Nat := k * 128 + u

def State.wear (s : State) (k u : Nat) : UnitWear := SMap.get (fun _ => UnitWear.fresh) s.nvm.wear (wearKey k u)

def State.setWear (s : State) (k u : Nat) (w : UnitWear) : State :=
  { s with nvm := { s.nvm with wear := SMap.set (fun _ => UnitWear.fresh) s.nvm.wear (wearKey k u) w } }

/-- The health index of a unit: 0 when it has failed, 1,000 when it has never been measured (R310, R975). -/
def State.health (s : State) (k u : Nat) : Nat :=
  let w := s.wear k u
  if w.failed then 0 else if w.valid then w.index else 1000

/-- Worn: below the SWAP threshold (R310, R976). -/
def State.worn (s : State) (k u : Nat) : Bool := (s.wear k u).worn

/-- Below the RETIRE threshold (R310, R976). -/
def State.mustRetire (s : State) (k u : Nat) : Bool := (s.wear k u).retire

/-- The unit of a list with the highest index, the lowest number among equals (R312, R317). -/
def State.healthiest (s : State) (k : Nat) : List Nat → Option Nat
  | [] => none
  | n :: ns =>
    match s.healthiest k ns with
    | none => some n
    | some m => if s.health k m ≤ s.health k n then some n else some m

/-- The spare to use: the healthiest that is not worn, else the healthiest (R316, R317). -/
def State.bestSpare (s : State) (k : Nat) (us : List Nat) : Option Nat :=
  match s.healthiest k (us.filter fun u => !s.worn k u) with
  | some u => some u
  | none => s.healthiest k us

/-- A WEAR event (R968). -/
def State.wearEvent (s : State) (k u : Nat) (worn retire failed : Bool) : State :=
  s.event .hlth 0x11 1 (b2n worn * 2 ^ 31 + b2n retire * 2 ^ 30 + b2n failed * 2 ^ 29 + k * 2 ^ 24 + u * 2 ^ 16 + s.health k u) 0

/-- A unit fails (R968, R975). -/
def State.unitFailed (s : State) (k u : Nat) : State :=
  let w := s.wear k u
  if w.failed then s else (s.setWear k u { w with failed := true, index := 0 }).wearEvent k u false false true

/-! ## Outages (R981, R982) -/

/-- Keys of the units whose outage HLTH_PARTIAL sums: slots, buses, ports and sequencers. -/
def outSlot (l : Nat) : Nat := l
def outBus (b : Nat) : Nat := 100 + b
def outPort (n : Nat) : Nat := 200 + n
def outSeq (q : Nat) : Nat := 300 + q

/-- A unit's outage begins. -/
def State.outageFrom (s : State) (k : Nat) : State :=
  if s.faults.partials.any (·.1 == k) then s
  else { s with faults := { s.faults with partials := s.faults.partials ++ [(k, s.now)] } }

/-- A unit's outage ends: its length in ms, rounded down, joins HLTH_PARTIAL. -/
def State.outageEnd (s : State) (k : Nat) : State :=
  match s.faults.partials.find? (·.1 == k) with
  | none => s
  | some e =>
    ({ s with faults := { s.faults with partials := s.faults.partials.filter (·.1 != k) } }).bump HLTH_PARTIAL
      HLTH_PARTIAL_MS ((s.now - e.2) / 1000000)

/-- A module outage begins. -/
def State.availFrom (s : State) : State :=
  if s.faults.outage.isSome then s else { s with faults := { s.faults with outage := some s.now } }

/-- A module outage ends. -/
def State.availEnd (s : State) : State :=
  match s.faults.outage with
  | none => s
  | some t => ({ s with faults := { s.faults with outage := none } }).bump HLTH_AVAIL HLTH_AVAIL_MS ((s.now - t) / 1000000)

/-- A unit of class `c` (R352) is lost with no spare for it: DEGRADED follows, and Wadi sheds at its next decision (R331). -/
def State.lossOf (s : State) (c u : Nat) : State :=
  { s with wadi := { s.wadi with lost := s.wadi.lost ++ [(c, u)] } }.degrade

end Sys2Proof.Machine
end

