-- ==== Sys2Proof/Machine/Faults.lean ====
section
/-! DEFINITION. The occurrence of a fault (R944 to R968): FSTAT, capture, class, escalation, hold, event, log and FLT_N. -/

namespace Sys2Proof.Machine

/-- The configured class of a source: its FCLASS field (R986). -/
def State.confClass (s : State) (b : BlkId) (src : Nat) : Nat :=
  bitsOf (s.reg (FCLASS b (src / 8))).toNat (4 * (src % 8) + 2) (4 * (src % 8))

/-- The reaction code of a source: its FREACT field (R949). -/
def State.reaction (s : State) (b : BlkId) (src : Nat) : Nat :=
  bitsOf (s.reg (FREACT b (src / 8))).toNat (4 * (src % 8) + 3) (4 * (src % 8))

/-- The SIO sources whose mask, class and reaction cannot be changed on the AZ-9416-M00 (R932). -/
def sioFixed (src : Nat) : Bool := [4, 5, 13, 14, 15, 16].contains src

/-- Whether a source is masked (R945, R932). -/
def State.masked (s : State) (b : BlkId) (src : Nat) : Bool :=
  bitOf (s.reg (FMASK b)).toNat src && !(b == .sio && !s.m10 && sioFixed src)

/-- The key of a source in the fault bookkeeping. -/
def srcKey (b : BlkId) (src : Nat) : Nat := b.code * 32 + src

def State.srcSt (s : State) (b : BlkId) (src : Nat) : Option SrcSt :=
  SMap.get (fun _ => none) s.faults.srcs (srcKey b src)

/-- The window of a UNIT_RESET or PORT_DOWN covers a source of an instance (R958, R959). `slot` is the logical slot,
Caravan channel or bus the occurrence concerns, `c0` its first capture word. -/
def Hold.covers (h : Hold) (b : BlkId) (src slot c0 : Nat) : Bool :=
  match h.blk with
  | .pe n =>
    b == .pe n ||
      (b == .mbx && h.slot < 16 && (h.slot == slot || bitsOf c0 12 8 == h.slot)) ||
      (h.slot == slot && slot < 16 &&
        ( (b == .psq && src == F_PSQ_WIN_ERR) || (b == .time && src == F_TIME_STEER_REJ) ||
          (match b with | .mdb _ => src == F_MDB_WIN_ERR | _ => false)))
  | .mac n =>
    b == .mac n || (b == .swc && src == F_SWC_FENCE_TIMEOUT) ||
      (b == .cvn && n < 4 && slot == n / 2 &&
        (src == F_CVN_WRAPPED || src == F_CVN_SYNC_LOSS || src == F_CVN_SLOT_EDGE))
  | blk =>
    b == blk || (b == .hif && src == F_HIF_REG_TIMEOUT && blkAt c0 == some blk) ||
      (match blk, b with
       | .swc, .pe _ => src == F_PE_FAU_ERR
       | .mbx, .pe _ | .psq, .pe _ => src == F_PE_FAR_TIMEOUT
       | .mdb _, .pe _ => src == F_PE_FAR_TIMEOUT
       | .time, .cvn => src == F_CVN_SLOT_EDGE || src == F_CVN_SYNC_LOSS
       | .time, .mdb _ => src == F_MDB_TT_ERR
       | .mdb n, .wake => slot == n
       | _, _ => false)

/-- The latest window that holds an occurrence, if any (R960, R961, R962). -/
def State.heldBy (s : State) (b : BlkId) (src slot c0 : Nat) : Option Hold :=
  if s.confClass b src ≥ 4 ∨ b = .sio then none
  else s.faults.holds.reverse.find? (·.covers b src slot c0)

/-- Whether an occurrence of a source would take a given reaction now. -/
def State.wouldReact (s : State) (b : BlkId) (src slot c0 code : Nat) : Bool :=
  !s.masked b src && (s.heldBy b src slot c0).isNone && s.reaction b src == code

/-- The unacknowledged fault of R955 among the sources of an instance. -/
def State.unackedOf (s : State) (b : BlkId) (cls : Nat) : Bool :=
  b.sources.any fun r =>
    match s.srcSt b r.bit with
    | some x => x.conf == cls && !s.masked b r.bit && bitOf (s.reg (FSTAT b)).toNat r.bit
    | none => false

/-- FLT_MIN_CLASS; codes 5 to 7 act as 4 (R989). -/
def State.fltMin (s : State) : Nat :=
  let v := s.rd HLTH_FLT_CFG HLTH_FLT_CFG_FLT_MIN_CLASS
  if v > 4 then 4 else v

/-- Some FSTAT bit set by a qualifying occurrence is not acknowledged; the level rule uses the present FLT_MIN_CLASS
(R964, R965). -/
def State.fltCause (s : State) : Bool :=
  s.faults.srcs.any fun e => match e.2 with | some x => x.qual && decide (s.fltMin ≤ x.eff) | none => false

/-- FLT_N follows the level rule of R964 when no pulse runs; it stays low while a reset drives it (R966). -/
def State.fltSettle (s : State) : State :=
  let low := s.faults.resetLow || s.faults.pulse || s.fltCause || s.flag HLTH_FLT_CFG HLTH_FLT_CFG_FLT_HOLD
  if low = s.faults.fltLow then s
  else { s with faults := { s.faults with fltLow := low } }.setPin "FLT_N" (!low)

/-- A qualifying occurrence: FLT_N goes low with a pulse when it is high (R963). -/
def State.fltQualify (s : State) : State :=
  if s.faults.fltLow then s
  else ({ s with faults := { s.faults with fltLow := true, pulse := true } }.bump HLTH_STAT HLTH_STAT_PULSES 1).setPin
    "FLT_N" false

/-- The whole fault log, newest first: what is buffered, then what NVM holds (R971). -/
def State.faultLog (s : State) : List LogEntry := (s.faults.buffered ++ s.nvm.faultLog).take 128

/-- Set an occurrence's FSTAT bit. -/
def State.setFstat (s : State) (b : BlkId) (src : Nat) : State :=
  s.setReg (FSTAT b) (s.reg (FSTAT b) ||| BitVec.ofNat 32 (2 ^ src))

/-- The capture words of an occurrence: what the spec gives, free values for the rest (R953). -/
def State.capWords (s : State) (caps : List Nat) : (Nat × Nat × Nat) × State :=
  let (f0, s0) := s.draw 32
  let (f1, s1) := s0.draw 32
  let (f2, s2) := s1.draw 32
  match caps with
  | [] => ((f0, f1, f2), s2)
  | [a] => ((a, f1, f2), s2)
  | [a, b] => ((a, b, f2), s2)
  | a :: b :: c :: _ => ((a, b, c), s)

/-- Take the capture when it is free, else set MORE (R954). The answer says whether it was taken. -/
def State.capture (s : State) (b : BlkId) (src : Nat) (c : Nat × Nat × Nat) : Bool × State :=
  if bitOf (s.reg (FSTAT b)).toNat 31 then
    (false, s.setReg (FSTAT b) (s.reg (FSTAT b) ||| BitVec.ofNat 32 (2 ^ 30)))
  else
    let w := (Fld.mk 28 24).put (s.reg (FSTAT b)) src ||| BitVec.ofNat 32 (2 ^ 31)
    (true, ((((s.setReg (FSTAT b) w).setReg (FCAP b 0) (BitVec.ofNat 32 c.1)).setReg (FCAP b 1)
      (BitVec.ofNat 32 c.2.1)).setReg (FCAP b 2) (BitVec.ofNat 32 c.2.2)).setReg64 (FCAP3 b) s.now)

/-- The FAULT event of R967. -/
def State.faultEvent (s : State) (b : BlkId) (src eff conf react : Nat) (held : Option Hold) (esc forced captured : Bool)
    (c : Nat × Nat × Nat) : State :=
  let q2 := (match held with | some h => h.cause * 2 ^ 32 + 2 ^ 31 | none => 0) + b2n esc * 2 ^ 30 + b2n forced * 2 ^ 29 +
    b2n captured * 2 ^ 28 + src * 2 ^ 16 + (if held.isSome then 0 else react) * 2 ^ 12 + conf
  s.post ⟨0x10, 1, eff, b.code, s.now, q2, c.2.1 % 2 ^ 32 * 2 ^ 32 + c.1 % 2 ^ 32⟩

/-- The fault log entry of an occurrence of effective class MAJOR and above (R948, R971). -/
def State.logFault (s : State) (b : BlkId) (src eff react : Nat) (esc forced : Bool) (c : Nat × Nat × Nat) : State :=
  if eff < 2 then s
  else
    { s with faults := { s.faults with
      buffered := ⟨s.now, b.code, src, b.instNo, esc, forced, eff, react, s.mode.code, c.1, c.2.1, c.2.2⟩
        :: s.faults.buffered } }

/-- Remember an unheld occurrence for escalation and FLT_N (R955, R963). -/
def State.noteSource (s : State) (b : BlkId) (src conf eff : Nat) (forced : Bool) : State :=
  { s with faults := { s.faults with
    srcs := SMap.set (fun _ => none) s.faults.srcs (srcKey b src) (some ⟨conf, eff, decide (s.fltMin ≤ eff), forced⟩) } }

/-- One occurrence of a source (R944): what follows at once; a reaction and the FATAL class effect join the work that
the command still has to do. -/
def State.occur (s : State) (b : BlkId) (src : Nat) (caps : List Nat) (slot : Nat) (forced : Bool) : State :=
  let hadBit := s.unackedOf b (s.confClass b src)
  let s0 := s.setFstat b src
  if s.masked b src then s0
  else
    let conf := s.confClass b src
    let (c, s1) := s0.capWords caps
    match s.heldBy b src slot c.1 with
    | some h => s1.faultEvent b src conf conf 0 (some h) false forced false c
    | none =>
      let eff := if hadBit && decide (conf < 4) then conf + 1 else conf
      let react := s.reaction b src
      let (captured, s2) := s1.capture b src c
      let s3 := s2.noteSource b src conf eff forced
      let s4 := if react = 0 then s3 else
        { s3 with faults := { s3.faults with due := s3.faults.due ++ [.react b src react slot forced] } }
      let s5 := if eff = 4 ∧ react ≠ 4 then
        { s4 with faults := { s4.faults with due := s4.faults.due ++ [.react b src 4 slot forced] } } else s4
      let s6 := (s5.logFault b src eff react (decide (conf < eff)) forced c).faultEvent b src eff conf react none
        (decide (conf < eff)) forced captured c
      if s.fltMin ≤ eff then s6.fltQualify else s6

/-- A FATAL fault is uncleared in some instance (R85, R957). -/
def State.fatalUncleared (s : State) : Bool :=
  s.faults.srcs.any fun e => match e.2 with | some x => decide (4 ≤ x.eff) | none => false

end Sys2Proof.Machine
end

