-- ==== Sys2Proof/Machine/Flags.lean ====
section
/-! DEFINITION. The arithmetic of the engine's slot 0 instructions and the sticky flags they set (R212, R225, R243 to R249). -/

namespace Sys2Proof.Machine

/-- A result with the sticky flag bits it sets (R212). -/
structure AluOut where
  val : Word
  set : BitVec 10
  deriving DecidableEq, Repr

def plain (v : Word) : AluOut := ⟨v, 0⟩

/-- RSAT and ROVF (R212). -/
def flagRSAT : BitVec 10 := 0x100
def flagROVF : BitVec 10 := 0x200
/-- ASAT and AOVF of an accumulator (R212). -/
def flagASAT (a : Fin 4) : BitVec 10 := BitVec.ofNat 10 (2 ^ a.val)
def flagAOVF (a : Fin 4) : BitVec 10 := BitVec.ofNat 10 (2 ^ (4 + a.val))

/-- An integer clamped to the Q1.31 range, with RSAT when it was clamped (R212, R225). -/
def clampQ31 (x : Int) : AluOut :=
  if x > 2147483647 then ⟨0x7FFFFFFF, flagRSAT⟩
  else if x < -2147483648 then ⟨0x80000000, flagRSAT⟩
  else plain (BitVec.ofInt 32 x)

def addSat (a b : Word) : AluOut := clampQ31 (a.toInt + b.toInt)
def subSat (a b : Word) : AluOut := clampQ31 (a.toInt - b.toInt)

/-- ABS: 0x8000_0000 gives 0x7FFF_FFFF and sets RSAT (R225). -/
def absSat (a : Word) : AluOut := if a.toInt < 0 then clampQ31 (-a.toInt) else plain a

def boolWord (b : Bool) : Word := if b then 1 else 0

def minSigned (a b : Word) : Word := if a.toInt ≤ b.toInt then a else b
def maxSigned (a b : Word) : Word := if a.toInt ≤ b.toInt then b else a

/-- The number of leading zeros among bits `n − 1` down to 0. -/
def leadingZeros (a : Word) : Nat → Nat
  | 0 => 0
  | n + 1 => if a.getLsbD n then 0 else 1 + leadingZeros a n

/-- The number of ones among bits `n − 1` down to 0. -/
def onesBelow (a : Word) : Nat → Nat
  | 0 => 0
  | n + 1 => (if a.getLsbD n then 1 else 0) + onesBelow a n

/-- ra with byte order reversed. -/
def bswap (a : Word) : Word :=
  a.extractLsb' 0 8 ++ a.extractLsb' 8 8 ++ a.extractLsb' 16 8 ++ a.extractLsb' 24 8

/-- The low `n` bits of a number in reversed order. -/
def revBits (n v : Nat) : Nat :=
  (List.range n).foldl (fun r i => r + (v / 2 ^ i % 2) * 2 ^ (n - 1 - i)) 0

def brev (a : Word) : Word := BitVec.ofNat 32 (revBits 32 a.toNat)

/-- ra[POS + WIDTH − 1:POS], zero-extended (R225). -/
def fieldU (a : Word) (pos width : Nat) : Word := BitVec.ofNat 32 (a.toNat / 2 ^ pos % 2 ^ width)

/-- ra[POS + WIDTH − 1:POS], sign-extended (R225). -/
def fieldS (a : Word) (pos width : Nat) : Word := BitVec.ofInt 32 (signedOf width (a.toNat / 2 ^ pos))

/-- rd with bits [POS + WIDTH − 1:POS] taken from the low bits of ra (R225). -/
def insertField (d a : Word) (pos width : Nat) : Word := (Fld.mk (pos + width - 1) pos).put d a.toNat

/-- Rounding of `p / 2^k` (R243, R245): 0 truncation, 1 round-half-up, 2 convergent. -/
def roundShift (rnd k : Nat) (p : Int) : Int :=
  if k = 0 then p
  else
    let d : Int := (2 : Int) ^ k
    let h : Int := (2 : Int) ^ (k - 1)
    let fl := p.fdiv d
    if rnd = 0 then fl
    else if rnd = 1 then (p + h).fdiv d
    else
      let r := p - fl * d
      if r < h then fl else if r > h then fl + 1 else if fl % 2 = 0 then fl else fl + 1

/-- The product of ra and rb in accumulator units (R243). -/
def macProduct (rnd : Nat) (a b : Word) : Int := roundShift rnd 31 (a.toInt * b.toInt)

/-- A MAC-class result fitted to 40 bits, with the flag it sets (R244). -/
def fitAcc (acc : Fin 4) (sat : Bool) (x : Int) : BitVec 40 × BitVec 10 :=
  if x > 549755813887 then
    if sat then (0x7FFFFFFFFF, flagASAT acc) else (BitVec.ofInt 40 x, flagAOVF acc)
  else if x < -549755813888 then
    if sat then (0x8000000000, flagASAT acc) else (BitVec.ofInt 40 x, flagAOVF acc)
  else (BitVec.ofInt 40 x, 0)

/-- EXT: the accumulator divided by 2^SH, rounded, fitted to 32 bits (R245). -/
def extResult (acc : BitVec 40) (sh : Nat) (sat : Bool) (rnd : Nat) : AluOut :=
  let x := roundShift rnd sh acc.toInt
  if sat then clampQ31 x
  else if x > 2147483647 ∨ x < -2147483648 then ⟨BitVec.ofInt 32 x, flagROVF⟩ else plain (BitVec.ofInt 32 x)

/-- One polynomial of R248: width, normal form, reflected. -/
structure CrcPoly where
  width : Nat
  poly : Nat
  reflected : Bool
  deriving DecidableEq, Repr

/-- The polynomial POLY names (R248); none for 0b101 and 0b110, which are undefined encodings. -/
def crcPoly (poly uw : Nat) (uref : Bool) (rb : Word) : Option CrcPoly :=
  match poly with
  | 0 => some ⟨32, 0x04C11DB7, true⟩
  | 1 => some ⟨32, 0x1EDC6F41, true⟩
  | 2 => some ⟨16, 0x1021, false⟩
  | 3 => some ⟨16, 0x8005, true⟩
  | 4 => some ⟨8, 0x07, false⟩
  | 7 => some ⟨8 * (uw + 1), rb.toNat % 2 ^ (8 * (uw + 1)), uref⟩
  | _ => none

/-- One bit of a CRC division, most significant bit first. -/
def crcBitMsb (p : CrcPoly) (st : Nat) (bit : Nat) : Nat :=
  let top := st / 2 ^ (p.width - 1) % 2
  let sh := st * 2 % 2 ^ p.width
  if (top + bit) % 2 = 1 then sh ^^^ p.poly else sh

/-- One bit of a CRC division with the state held reflected (R249). -/
def crcBitLsb (p : CrcPoly) (st : Nat) (bit : Nat) : Nat :=
  let low := st % 2
  if (low + bit) % 2 = 1 then st / 2 ^^^ revBits p.width p.poly else st / 2

/-- One byte into the CRC state (R247 to R249). -/
def crcByte (p : CrcPoly) (st : Nat) (b : Nat) : Nat :=
  if p.reflected then (List.range 8).foldl (fun s i => crcBitLsb p s (b / 2 ^ i % 2)) st
  else (List.range 8).foldl (fun s i => crcBitMsb p s (b / 2 ^ (7 - i) % 2)) st

/-- The CRC state after `n` bytes of ra, from ra[7:0] upward (R247). -/
def crcUpdate (p : CrcPoly) (st a : Word) (n : Nat) : Word :=
  BitVec.ofNat 32 ((List.range n).foldl (fun s i => crcByte p s (a.toNat / 2 ^ (8 * i) % 256)) (st.toNat % 2 ^ p.width))

end Sys2Proof.Machine
end

