-- ==== Sys2Proof/Machine/MemWord.lean ====
section
/-! DEFINITION. Memories of 64-bit words with check bits: IMEM, DMEM and the banks (R150, R361 to R364). -/

namespace Sys2Proof.Machine

/-- The byte at an address. -/
def Mem.byte (m : Mem) (a : Nat) : Byte := SMap.get m.dflt m.cells a

/-- `m` with the byte at an address. -/
def Mem.setByte (m : Mem) (a : Nat) (v : Byte) : Mem := { m with cells := SMap.set m.dflt m.cells a v }

/-- `n` bytes from an address, lowest first. -/
def Mem.bytes (m : Mem) (a n : Nat) : List Byte := (List.range n).map fun k => m.byte (a + k)

/-- `m` with bytes written from an address up. -/
def Mem.putBytes (m : Mem) (a : Nat) : List Byte → Mem
  | [] => m
  | b :: bs => Mem.putBytes (m.setByte a b) (a + 1) bs

/-- Whether the 64-bit word that holds an address shows an uncorrectable error (R363). -/
def Mem.isBad (m : Mem) (a : Nat) : Bool := m.bad.contains (a / 8)

def Mem.setBad (m : Mem) (w : Nat) : Mem := if m.bad.contains w then m else { m with bad := m.bad ++ [w] }

def Mem.clearBad (m : Mem) (w : Nat) : Mem := { m with bad := m.bad.filter (· != w) }

/-- Every byte 0 and every word sound, as after the supervisor wrote the memory to 0 (R377). -/
def Mem.zeroed : Mem := Mem.empty

/-- The content after destructive march number `k` (R381). -/
def Mem.marched (k : Nat) : Mem := ⟨some k, [], []⟩

end Sys2Proof.Machine
end

