-- ==== Sys2Proof/Machine/Operands.lean ====
section
/-! DEFINITION. How an engine issues a bundle: operand reads, results and their distances, the end of a bundle, halts
(R138 to R147, R214 to R219, R234 to R237). -/

namespace Sys2Proof.Machine

def State.pe (s : State) (n : Fin 18) : Engine := s.pes[n]

def State.setPe (s : State) (n : Fin 18) (e : Engine) : State := { s with pes := s.pes.set n e }

/-- A change of one engine. -/
def State.onPe (s : State) (n : Fin 18) (f : Engine → Engine) : State := s.setPe n (f (s.pe n))

/-- The byte address of a bundle (R148). -/
def pcAddr (pc : BitVec 14) : Nat := 8 * pc.toNat

/-- The logical slot an engine serves, 255 for none. -/
def Engine.slotNo (e : Engine) : Nat := match e.slot with | some l => l.val | none => 255

/-! ## Results -/

/-- A result reaches its destination. -/
def Engine.apply (e : Engine) (p : Pend) : Engine :=
  match p.dst with
  | .reg r => { e with w := e.w.set r (p.val.setWidth 32) }
  | .acc a => { e with acc := e.acc.set a p.val }
  | .setFlags => { e with flags := e.flags ||| p.val.setWidth 10 }
  | .clearFlags => { e with flags := e.flags &&& ~~~ (p.val.setWidth 10) }

/-- Results that complete in one cycle: later-issued writes stand, and a flag set stands against a clear (R218, R227). -/
def Engine.applyAll (e : Engine) (ps : List Pend) : Engine :=
  let e1 := (ps.filter (·.dst == .clearFlags)).foldl Engine.apply e
  (ps.filter (·.dst != .clearFlags)).foldl Engine.apply e1

/-- Every pending result completes, in the order in which it would have (R147, R218). -/
def Engine.completeAll (e : Engine) : Engine :=
  { (List.range 4).foldl (fun t k => t.applyAll (e.pend.filter (·.left == k))) e with pend := [] }

/-- A result of the bundle being issued, visible after `d` bundles (R215). -/
def Engine.result (e : Engine) (dst : Dst) (v : BitVec 40) (d : Nat) (mac : Bool) : Engine :=
  { e with pend := e.pend ++ [⟨dst, v, d, true, mac, false⟩] }

/-- Results in flight when a stall, a WAIT or a halt falls (R217). -/
def Engine.disturb (e : Engine) : Engine :=
  { e with pend := e.pend.map fun p => { p with disturbed := true } }

/-! ## Operands -/

/-- A free choice between the old and the new value (R217). -/
def State.either {α : Type} (s : State) (old new : α) : α × State :=
  let (v, s') := s.draw 1
  (if v = 1 then new else old, s')

/-- The value an instruction reads in general register `r` (R214, R215, R217). -/
def State.readW (s : State) (n : Fin 18) (r : Fin 32) : Word × State :=
  let e := s.pe n
  match e.pend.reverse.find? (fun p => p.dst == .reg r && p.disturbed) with
  | none => (e.w[r], s)
  | some p => s.either e.w[r] (p.val.setWidth 32)

/-- The value an instruction reads in accumulator `a`. A MAC-class instruction receives the pending MAC-class result by
forwarding (R226). -/
def State.readAcc (s : State) (n : Fin 18) (a : Fin 4) (macClass : Bool) : BitVec 40 × State :=
  let e := s.pe n
  match e.pend.reverse.find? (fun p => macClass && p.mac && p.dst == .acc a && !p.fresh) with
  | some p => (p.val, s)
  | none =>
    match e.pend.reverse.find? (fun p => p.dst == .acc a && p.disturbed) with
    | none => (e.acc[a], s)
    | some p => s.either e.acc[a] p.val

/-- The flag word GETF reads (R227). -/
def State.readFlags (s : State) (n : Fin 18) : BitVec 10 × State :=
  let e := s.pe n
  let late := e.pend.filter fun p => p.disturbed && (p.dst == .setFlags || p.dst == .clearFlags)
  if late.isEmpty then (e.flags, s) else s.either e.flags (e.applyAll late).flags

/-! ## The bundle -/

/-- Where the pending transfer stands at the end of a bundle, and the next bundle (R220, R235). -/
def nextPc (pc : BitVec 14) : Option Xfer → Option Xfer × BitVec 14
  | none => (none, pc + 1)
  | some x =>
    if x.left ≤ 1 then (none, x.target.getD (pc + 1)) else (some { x with left := x.left - 1 }, pc + 1)

/-- The end of a bundle: distances count down, completed results become visible, the program counter moves. -/
def Engine.endBundle (e : Engine) : Engine :=
  let aged := e.pend.map fun p => { p with left := p.left - 1, fresh := false }
  let e1 := { e with pend := [] }.applyAll (aged.filter (·.left == 0))
  let (x, pc) := nextPc e.pc e.xfer
  { e1 with pend := aged.filter (·.left != 0), xfer := x, pc := pc, half := false, cycles := e.cycles + 1, busy := e.busy + 1, wdog := e.wdog + 1 }

/-- An engine that can issue: in RUN, not stalled, not in reset (R178, R142). -/
def Engine.canIssue (e : Engine) : Bool := e.state == .run && e.stall.isNone && !e.inReset

/-- The engine halts at once: everything issued completes first; a pending stop is cancelled (R147, R179, R181). -/
def Engine.haltNow (e : Engine) (cause : Nat) : Engine :=
  { e.completeAll with state := .halt, haltCause := cause, stopPend := false, half := false, haltPend := none }

/-- The engine stops at a boundary (R147, R174). -/
def Engine.stopNow (e : Engine) : Engine := { e.completeAll with state := .stopped, stopPend := false, half := false }

/-- The end of a bundle, and of the engine's run where a halt waited for it or a stop point was reached (R147). -/
def Engine.finishBundle (e : Engine) : Engine :=
  let e1 := e.endBundle
  match e1.haltPend with
  | some c => e1.haltNow c
  | none => if e1.state == .stopped then e1.stopNow else e1

/-- A halt: a bundle already issued completes first (R147). -/
def Engine.haltReq (e : Engine) (cause : Nat) : Engine :=
  if (e.half || e.stall.isSome) && !e.inReset then { e with haltPend := some cause, stopPend := false } else e.haltNow cause

/-- The bundle about to issue is the breakpoint's (R182). -/
def State.atBreakpoint (s : State) (n : Fin 18) : Bool :=
  s.flag (PE_BP n) PE_BP_EN && s.rd (PE_BP n) PE_BP_ADDR == (s.pe n).pc.toNat

/-- The fetch of the present bundle finds an uncorrectable error (R150). -/
def State.fetchBad (s : State) (n : Fin 18) : Bool := (s.pe n).imem.isBad (pcAddr (s.pe n).pc)

/-- A source of the engine that keeps the program counter at the bundle: its reaction is HALT or UNIT_RESET (R150, R219). -/
def State.stays (s : State) (n : Fin 18) (src : Nat) : Bool :=
  let c := pcAddr (s.pe n).pc
  s.wouldReact (.pe n) src (s.pe n).slotNo c 1 || s.wouldReact (.pe n) src (s.pe n).slotNo c 2

/-- A bundle that does not execute raises its source; the engine stays at it or takes it as a NOP. `whole` says that the
bundle's slot 1 is not still to come. -/
def State.notExecuted (s : State) (n : Fin 18) (src : Nat) (whole : Bool) : State :=
  let s1 := s.onPe n fun e => { e with lastPc := e.pc, pend := e.pend.filter (!·.fresh), half := false }
  let s2 := s1.raiseFor (.pe n) src [pcAddr (s.pe n).pc] (s.pe n).slotNo
  if s.stays n src then s2
  else if whole then s2.onPe n Engine.finishBundle else s2.onPe n fun e => { e with half := true }

/-- Issue a slot 0 instruction. Slot 1 of the bundle follows as a command of its own unless `last` is set, when it is NOP. -/
def State.issue0 (s : State) (n : Fin 18) (last : Bool) (body : State → State) : State :=
  if !(s.pe n).canIssue || (s.pe n).half then s
  else if s.atBreakpoint n then s.onPe n (·.haltNow 2)
  else if s.fetchBad n then s.notExecuted n F_PE_IMEM_UE last
  else
    let s1 := body (s.onPe n fun e => { e with lastPc := e.pc })
    if last then s1.onPe n Engine.finishBundle else s1.onPe n fun e => { e with half := true }

/-- Issue a slot 1 instruction, which closes its bundle unless it stalls. `body` answers whether the bundle ends. -/
def State.issue1 (s : State) (n : Fin 18) (body : State → State × Bool) : State :=
  if !(s.pe n).canIssue then s
  else if !(s.pe n).half && s.atBreakpoint n then s.onPe n (·.haltNow 2)
  else if s.fetchBad n then
    if (s.pe n).half then s.onPe n Engine.finishBundle else s.notExecuted n F_PE_IMEM_UE true
  else
    let (s1, ended) := body (s.onPe n fun e => { e with lastPc := e.pc, half := true })
    if ended then s1.onPe n Engine.finishBundle else s1

/-- A bundle with an undefined encoding: neither slot executes and ILLEGAL is raised. With the reaction HALT or
UNIT_RESET the program counter stays at the bundle; otherwise it executes as a NOP (R219). -/
def State.illegal (s : State) (n : Fin 18) : State :=
  if !(s.pe n).canIssue then s
  else if !(s.pe n).half && s.atBreakpoint n then s.onPe n (·.haltNow 2)
  else if s.fetchBad n then
    if (s.pe n).half then s.onPe n Engine.finishBundle else s.notExecuted n F_PE_IMEM_UE true
  else s.notExecuted n F_PE_ILLEGAL true

/-- A slot 0 result with its flags, at distance `d`. -/
def State.put (s : State) (n : Fin 18) (rd : Fin 32) (o : AluOut) (d : Nat) : State :=
  s.onPe n fun e =>
    let e1 := e.result (.reg rd) (o.val.setWidth 40) d false
    if o.set = 0 then e1 else e1.result .setFlags (o.set.setWidth 40) d false

/-- A slot 0 instruction of two register operands. -/
def State.alu2 (s : State) (n : Fin 18) (last : Bool) (rd ra rb : Fin 32) (d : Nat) (f : Word → Word → AluOut) : State :=
  s.issue0 n last fun t =>
    let (a, t1) := t.readW n ra
    let (b, t2) := t1.readW n rb
    t2.put n rd (f a b) d

/-- A slot 0 instruction of one register operand. -/
def State.alu1 (s : State) (n : Fin 18) (last : Bool) (rd ra : Fin 32) (f : Word → AluOut) : State :=
  s.issue0 n last fun t =>
    let (a, t1) := t.readW n ra
    t1.put n rd (f a) 1

/-- A slot 0 instruction with no register operand. -/
def State.alu0 (s : State) (n : Fin 18) (last : Bool) (rd : Fin 32) (v : Word) : State :=
  s.issue0 n last fun t => t.put n rd (plain v) 1

/-- A result in an accumulator with the flag it sets. -/
def State.putAcc (s : State) (n : Fin 18) (a : Fin 4) (v : BitVec 40 × BitVec 10) (d : Nat) (mac : Bool) : State :=
  s.onPe n fun e =>
    let e1 := e.result (.acc a) v.1 d mac
    if v.2 = 0 then e1 else e1.result .setFlags (v.2.setWidth 40) d mac

/-- A MAC-class instruction: `f` combines the accumulator and the rounded product (R226, R243, R244). -/
def State.macClass (s : State) (n : Fin 18) (last : Bool) (a : Fin 4) (ra rb : Fin 32) (sat : Bool) (rnd : Nat)
    (f : Int → Int → Int) : State :=
  if rnd = 3 then s.illegal n
  else
    s.issue0 n last fun t =>
      let (x, t1) := t.readW n ra
      let (y, t2) := t1.readW n rb
      let (z, t3) := t2.readAcc n a true
      t3.putAcc n a (fitAcc a sat (f z.toInt (macProduct rnd x y))) 3 true

end Sys2Proof.Machine
end

