-- ==== Sys2Proof/Machine/MemOps.lean ====
section
/-! DEFINITION. Memories with check bits, and the operations of the MEM block: bank maps, accesses and ownership,
handover, march and repair (file 07). -/

namespace Sys2Proof.Machine

/-! ## Banks -/

/-- A physical bank; `buffer` chooses the kind. -/
def State.bank (s : State) (buffer : Bool) (p : Nat) : Bank :=
  SMap.get (fun _ => Bank.fresh) (if buffer then s.mem.buffer else s.mem.shared) p

def State.setBank (s : State) (buffer : Bool) (p : Nat) (b : Bank) : State :=
  if buffer then { s with mem := { s.mem with buffer := SMap.set (fun _ => Bank.fresh) s.mem.buffer p b } }
  else { s with mem := { s.mem with shared := SMap.set (fun _ => Bank.fresh) s.mem.shared p b } }

/-- Physical banks of a kind (R357). -/
def physBanks (buffer : Bool) : Nat := if buffer then 52 else 72

/-- Logical banks of a kind (R357). -/
def logicalBanks (buffer : Bool) : Nat := if buffer then 48 else 64

/-- The physical bank behind a logical one. -/
def State.physOf (s : State) (buffer : Bool) (l : Nat) : Nat :=
  SMap.get (fun _ => 0) (if buffer then s.mem.mapB else s.mem.mapS) l

def State.setPhys (s : State) (buffer : Bool) (l p : Nat) : State :=
  if buffer then { s with mem := { s.mem with mapB := SMap.set (fun _ => 0) s.mem.mapB l p } }
  else { s with mem := { s.mem with mapS := SMap.set (fun _ => 0) s.mem.mapS l p } }

/-- The logical bank a physical bank serves. -/
def State.logicalOf (s : State) (buffer : Bool) (p : Nat) : Nat :=
  ((List.range (logicalBanks buffer)).find? fun l => s.physOf buffer l == p).getD 0

/-- The owner of a logical shared bank (R366). -/
def State.owner (s : State) (b : Nat) : Nat := SMap.get (fun _ => 0) s.mem.owner b

def State.setOwner (s : State) (b o : Nat) : State :=
  { s with mem := { s.mem with owner := SMap.set (fun _ => 0) s.mem.owner b o } }

/-- The physical engine that serves a logical slot (R136). -/
def State.servingPe (s : State) (l : Nat) : Option (Fin 18) :=
  (List.finRange 18).find? fun n => (s.pe n).slotNo == l && (s.pe n).state != .shadow

/-- The lowest-numbered spare bank of a kind. -/
def State.firstSpare (s : State) (buffer : Bool) : Option Nat :=
  (List.range (physBanks buffer)).find? fun p => (s.bank buffer p).role == 1

/-- The spare bank that Wadi brings in (R317). -/
def State.spareBank (s : State) (buffer : Bool) : Option Nat :=
  s.bestSpare (if buffer then kBuffer else kShared) ((List.range (physBanks buffer)).filter fun p => (s.bank buffer p).role == 1)

/-- How many spares of a kind the Oasis holds (R358). -/
def State.spareBanks (s : State) (buffer : Bool) : Nat :=
  ((List.range (physBanks buffer)).filter fun p => (s.bank buffer p).role == 1).length

/-! ## The bank maps after the BOOT march (R358, R385) -/

/-- The committed repair of a logical bank, the latest first. -/
def State.repairOf (s : State) (buffer : Bool) (l : Nat) : Option Nat :=
  (s.nvm.repairs.reverse.find? fun r => r.1 == buffer && r.2.1 == l).map fun r => r.2.2.2

/-- A bank that a committed repair took out of service (R385). -/
def State.retiredBank (s : State) (buffer : Bool) (p : Nat) : Bool :=
  s.nvm.repairs.any fun r => r.1 == buffer && r.2.2.1 == p

/-- Every bank of a kind takes its role after the BOOT march; `failed` are the banks that failed it. -/
def State.mapBanks (s : State) (buffer : Bool) (failed : List Nat) : State :=
  let good := (List.range (physBanks buffer)).filter fun p => !failed.contains p && !s.retiredBank buffer p
  let s1 := (List.range (physBanks buffer)).foldl (fun t p =>
    t.setBank buffer p { t.bank buffer p with
      role := if good.contains p then 1 else 2, mem := Mem.marched (t.draws + (if buffer then 72 else 0) + p) }) s
  let fixed := (List.range (logicalBanks buffer)).filterMap fun l =>
    match s.repairOf buffer l with
    | some p => if good.contains p then some (l, p) else none
    | none => none
  let s2 := fixed.foldl (fun t e => (t.setPhys buffer e.1 e.2).setBank buffer e.2 { t.bank buffer e.2 with role := 0 }) s1
  let rest := (List.range (logicalBanks buffer)).filter fun l => !(fixed.any fun e => e.1 == l)
  rest.foldl (fun t l =>
    match t.firstSpare buffer with
    | some p => (t.setPhys buffer l p).setBank buffer p { t.bank buffer p with role := 0 }
    | none => t) s2

/-- Both kinds mapped after the BOOT march (R358). -/
def State.mapAllBanks (s : State) (failedS failedB : List Nat) : State :=
  let t := (s.mapBanks false failedS).mapBanks true failedB
  { t with draws := t.draws + 124 }

/-! ## Errors (R362 to R365, R391) -/

/-- FCAP0 of a bank access. -/
def memCap0 (buffer : Bool) (p w : Nat) : Nat := b2n buffer * 2 ^ 23 + p * 2 ^ 16 + w

/-- FCAP2 of a bank access. -/
def memCap2 (store : Bool) (size : Nat) : Nat := b2n store + 2 * Nat.log2 size

/-- A corrected error of a word: counted and raised (R362). -/
def State.bankCe (s : State) (buffer : Bool) (p w master : Nat) (store : Bool) (size : Nat) : State :=
  let b := s.bank buffer p
  (s.setBank buffer p { b with ce := stopAt 0xFFFF (b.ce + 1) }).raise .mem F_MEM_CE
    [memCap0 buffer p w, master, memCap2 store size]

/-- An uncorrectable error of a word: counted, poisoned and raised (R363). -/
def State.bankUe (s : State) (buffer : Bool) (p w master : Nat) (store : Bool) (size : Nat) : State :=
  let b := s.bank buffer p
  ((s.setBank buffer p { b with ue := stopAt 255 (b.ue + 1), mem := b.mem.setBad w }).unitFailed (if buffer then kBuffer else kShared) p).raise .mem F_MEM_UE
    [memCap0 buffer p w, master, memCap2 store size]

/-! ## Accesses to shared banks (R360 to R371) -/

/-- What a master gets from a bank: it waits for a handover, it is no owner, the word is poisoned, or the bytes. -/
inductive BankAns where
  | wait
  | denied
  | poisoned
  | data (bs : List Byte)
  deriving DecidableEq, Repr

/-- A cycle in which a request of master `m` waited (R379). -/
def State.countWait (s : State) (m : Nat) : State :=
  let c := stopAt 0xFFFFFF (SMap.get (fun _ => 0) s.mem.waits m + 1)
  { s with mem := { s.mem with waits := SMap.set (fun _ => 0) s.mem.waits m c } }

/-- A non-owner access of master `m` to logical bank `b`: counted, and raised as NONOWNER for masters that are no engines
(R369). -/
def State.nonOwner (s : State) (m b w : Nat) (store : Bool) (size : Nat) : State :=
  let c := SMap.get (fun _ => (0, 0)) s.mem.nonown m
  let s1 := { s with mem := { s.mem with
    nonown := SMap.set (fun _ => (0, 0)) s.mem.nonown m (stopAt 0xFFFFF (c.1 + 1), b) } }
  if m < 18 then s1
  else s1.raise .mem F_MEM_NONOWNER [memCap0 false (s.physOf false b) w, m, memCap2 store size]

/-- Whether owner code `o` may access logical bank `b` now: none while the code is the new owner of a running handover
(R373). -/
def State.mayAccess (s : State) (o b : Nat) : Option Bool :=
  if s.owner b = o then some true
  else
    match s.mem.handover with
    | some h => if h.bank = b ∧ h.new = o then none else some false
    | none => some false

/-- Master `m` has been served: the bank's pointer moves to the master after it (R26). -/
def State.served (s : State) (p m : Nat) : State :=
  s.setBank false p { s.bank false p with rr := (m + 1) % 23 }

/-- A load of `size` bytes inside one word at byte offset `off` of logical bank `b` by master `m` on behalf of owner `o`.
`free` lifts the owner check (R371). `ecc` is what the word's check bits show. -/
def State.bankLoad (s : State) (m o b off size : Nat) (free : Bool) (ecc : Ecc) : BankAns × State :=
  match (if free then some true else s.mayAccess o b) with
  | none => (.wait, s.countWait m)
  | some false => (.denied, s.nonOwner m b (off / 8) false size)
  | some true =>
    let p := s.physOf false b
    let s := s.served p m
    if (s.bank false p).mem.isBad off || ecc == .double then (.poisoned, s.bankUe false p (off / 8) m false size)
    else
      let s1 := if ecc == .single then s.bankCe false p (off / 8) m false size else s
      (.data ((s.bank false p).mem.bytes off size), s1)

/-- A store of bytes inside one word. A store of fewer than 8 bytes to a poisoned word is discarded (R364). -/
def State.bankStore (s : State) (m o b off : Nat) (bs : List Byte) (free : Bool) (ecc : Ecc) : BankAns × State :=
  match (if free then some true else s.mayAccess o b) with
  | none => (.wait, s.countWait m)
  | some false => (.denied, s.nonOwner m b (off / 8) true bs.length)
  | some true =>
    let p := s.physOf false b
    let s := s.served p m
    if bs.length < 8 ∧ ((s.bank false p).mem.isBad off || ecc == .double) then
      (.poisoned, s.bankUe false p (off / 8) m true bs.length)
    else
      let s1 := if bs.length < 8 && ecc == .single then s.bankCe false p (off / 8) m true bs.length else s
      let k := s1.bank false p
      (.data [], s1.setBank false p { k with
        mem := (if bs.length = 8 then k.mem.clearBad (off / 8) else k.mem).putBytes off bs })

/-! ## Host accesses through MW2 (R363, R369, R371, R373, R453, R454) -/

/-- The words of an access: one of up to 8 bytes, or whole 8-byte words. -/
def hostWords (off size : Nat) : List (Nat × Nat) :=
  if size ≤ 8 then [(off, size)] else (List.range (size / 8)).map fun k => (off + 8 * k, 8)

/-- The words of a host read, which the master may make; a poisoned word reads as ones (R363). -/
def State.hostRead (s : State) (m o b : Nat) (ecc : Ecc) : List (Nat × Nat) → List Byte × State
  | [] => ([], s)
  | (a, n) :: ws =>
    let x := s.bankLoad m o b a n true ecc
    let bs := match x.1 with | .data bs => bs | _ => List.replicate n 0xFF
    let r := State.hostRead x.2 m o b .ok ws
    (bs ++ r.1, r.2)

/-- The words of a host write, which the master may make. -/
def State.hostStore (s : State) (m o b : Nat) (ecc : Ecc) (data : List Byte) : List (Nat × Nat) → State
  | [] => s
  | (a, n) :: ws => State.hostStore (s.bankStore m o b a (data.take n) true ecc).2 m o b .ok (data.drop n) ws

/-- A host access that is served now. -/
def State.hostServe (s : State) (x : HostWait) : State :=
  let m := 20 + x.port
  match x.data with
  | some bs => s.hostStore m (0x21 + x.port) x.bank x.ecc bs (hostWords x.off x.size)
  | none =>
    let r := s.hostRead m (0x21 + x.port) x.bank x.ecc (hostWords x.off x.size)
    { r.2 with rdata := ofLe r.1 }

/-- A host access to a bank: in CONFIG it is free but for a write to a bank of the supervisor (R371), else it needs the
ownership (R369), and as the new owner it waits for a running handover (R373). -/
def State.hostBank (s : State) (x : HostWait) : State :=
  let m := 20 + x.port
  let free := s.mode == .config && !(x.data.isSome && s.owner x.bank == 0x20)
  match (if free then some true else s.mayAccess (0x21 + x.port) x.bank) with
  | none =>
    let t := s.countWait m
    { t with mem := { t.mem with hostWait := t.mem.hostWait ++ [x] } }
  | some false =>
    let t := s.nonOwner m x.bank (x.off / 8) x.data.isSome x.size
    if x.data.isSome then t else { t with rdata := 2 ^ (8 * x.size) - 1 }
  | some true => s.hostServe x

/-- The accesses that waited at a bank for its handover are served (R373). -/
def State.serveWaiting (s : State) (b : Nat) : State :=
  let now := s.mem.hostWait.filter fun x => x.bank == b
  now.foldl (fun t x => t.hostServe x) { s with mem := { s.mem with hostWait := s.mem.hostWait.filter fun x => x.bank != b } }

/-! ## Handover (R372 to R377) -/

/-- The master of an owner (R391): the engine that serves the slot or last served it, the supervisor, a port, the switch
core. -/
def State.masterOf (s : State) (o : Nat) : Nat :=
  if 0x10 ≤ o ∧ o < 0x20 then
    match s.servingPe (o - 0x10) with
    | some n => n.val
    | none => SMap.get (fun _ => 0) s.lastPe (o - 0x10)
  else if o = 0x20 then 18 + s.boot.scActive
  else if o = 0x21 then 20 else if o = 0x22 then 21 else 22

/-- The result of the last handover, and whether one runs (R394). -/
def State.ownResult (s : State) (busy : Bool) (r : Nat) : State :=
  (s.wr MEM_OWN_STAT MEM_OWN_STAT_BUSY (b2n busy)).wr MEM_OWN_STAT MEM_OWN_STAT_RESULT r

/-- A handover starts when none runs: at once from no owner or to the present owner, else behind a drain marker (R373,
R375). -/
def State.startHandover (s : State) (b new : Nat) : State :=
  let old := s.owner b
  let s0 := (s.wr MEM_OWN_STAT MEM_OWN_STAT_OWNER new).wr MEM_OWN_STAT MEM_OWN_STAT_BANK b
  if old = 0 ∨ old = new then (s0.setOwner b new).ownResult false 1
  else
    let pe : Option (Fin 18) := if 0x10 ≤ old ∧ old < 0x20 then s.servingPe (old - 0x10) else none
    let ahead := match pe with | some n => (s.pe n).wbuf.length | none => 0
    { s0 with mem := { s0.mem with handover := some ⟨b, new, old, ahead, pe.map Fin.val⟩ } }.wr MEM_OWN_STAT
      MEM_OWN_STAT_BUSY 1

/-- The next waiting handovers of the supervisor start (R376). -/
def State.nextHandover (fuel : Nat) (s : State) : State :=
  match fuel with
  | 0 => s
  | n + 1 =>
    match s.mem.handover, s.mem.queued with
    | none, (b, o) :: q => State.nextHandover n ({ s with mem := { s.mem with queued := q } }.startHandover b o)
    | _, _ => s

/-- A handover of the supervisor: it waits while another runs (R376, R377). -/
def State.supHandover (s : State) (b new : Nat) : State :=
  State.nextHandover 128 { s with mem := { s.mem with queued := s.mem.queued ++ [(b, new)] } }

/-- The new owner takes effect, and the accesses that waited for it are served (R373, R374). -/
def State.endHandover (s : State) (h : Handover) (result : Nat) : State :=
  State.nextHandover 128
    ((({ s with mem := { s.mem with handover := none } }.setOwner h.bank h.new).ownResult false result).serveWaiting h.bank)

/-- A far store of engine `n` has been accepted or dropped: the drain marker moves up (R373). -/
def State.markerMoves (s : State) (n : Nat) (k : Nat) : State :=
  match s.mem.handover with
  | some h => if h.pe = some n then { s with mem := { s.mem with handover := some { h with ahead := h.ahead - k } } } else s
  | none => s

/-! ## Repair (R385 to R389) -/

/-- MEM_REPAIR_STAT names the repair (R402). -/
def State.repairStat (s : State) (active : Bool) (step : Nat) : State :=
  (s.wr MEM_REPAIR_STAT MEM_REPAIR_STAT_ACTIVE (b2n active)).wr MEM_REPAIR_STAT MEM_REPAIR_STAT_STEP step

/-- Wadi starts the repair of a logical bank (R317, R385). -/
def State.startRepair (s : State) (buffer : Bool) (l : Nat) : State :=
  match s.spareBank buffer, s.mem.repair with
  | some p, none =>
    let o := s.physOf buffer l
    let s1 := s.setBank buffer p { s.bank buffer p with role := 3 }
    let s2 := { s1 with mem := { s1.mem with repair := some ⟨buffer, l, o, p, 1⟩ } }
    let s3 := (((s2.repairStat true 1).wr MEM_REPAIR_STAT MEM_REPAIR_STAT_KIND (b2n buffer)).wr MEM_REPAIR_STAT
      MEM_REPAIR_STAT_TARGET p).wr MEM_REPAIR_STAT MEM_REPAIR_STAT_COMMIT 0
    ((s3.wr MEM_REPAIR_STAT MEM_REPAIR_STAT_ORIGINAL o).wr MEM_REPAIR_STAT MEM_REPAIR_STAT_LOGICAL l).wr
      MEM_REPAIR_STAT MEM_REPAIR_STAT_CAUSE 0
  | _, _ => s

/-- A repair ends before COMMIT; `role` is what the spare becomes (R386, R388). -/
def State.abandonRepair (s : State) (r : Repair) (cause role : Nat) : State :=
  let s0 := { s with mem := { s.mem with repair := none } }.setBank r.buffer r.spare { s.bank r.buffer r.spare with role := role }
  let s1 := if role = 2 then s0.unitFailed (if r.buffer then kBuffer else kShared) r.spare else s0
  (((s1.repairStat false 5).wr MEM_REPAIR_STAT MEM_REPAIR_STAT_CAUSE cause).bump MEM_REPAIR_CNT MEM_REPAIR_CNT_ABANDONED
    1).raise .mem F_MEM_REPAIR_ABANDON [memCap0 r.buffer r.spare 0, 30, 0]

/-- A reset, an eject or a supervisor takeover meets a repair: the spare waits for the next BOOT march (R116, R388). -/
def State.dropRepair (s : State) (cause : Nat) : State :=
  match s.mem.repair with
  | some r => s.abandonRepair r cause 3
  | none => s

/-- A requested march is aborted by a reset or an eject (R399). -/
def State.abortMarch (s : State) : State :=
  match s.mem.march with
  | some _ => ({ s with mem := { s.mem with march := none } }.wr MEM_MARCH_STAT MEM_MARCH_STAT_BUSY 0).wr MEM_MARCH_STAT
      MEM_MARCH_STAT_RESULT 4
  | none => s

/-- The logical bank of a bank that fails outright moves to a spare with its content lost (R333, R388). -/
def State.remapLost (s : State) (buffer : Bool) (l : Nat) : State :=
  let o := s.physOf buffer l
  let s1 := (s.setBank buffer o { s.bank buffer o with role := 2 }).unitFailed (if buffer then kBuffer else kShared) o
  match s1.spareBank buffer with
  | some p => (s1.setPhys buffer l p).setBank buffer p { s1.bank buffer p with role := 0 }
  | none => s1

/-! ## The end of a decision period (R190, R379) -/

/-- The counts of the period go to their registers. -/
def State.memPeriod (s : State) : State :=
  let s1 := (List.range 23).foldl (fun t m =>
    let c := SMap.get (fun _ => (0, 0)) s.mem.nonown m
    let t1 := t.wr (MEM_NONOWN m) MEM_NONOWN_COUNT c.1
    let t2 := if c.1 = 0 then t1 else t1.wr (MEM_NONOWN m) MEM_NONOWN_BANK c.2
    t2.wr (MEM_WAIT m) MEM_WAIT_CYCLES (SMap.get (fun _ => 0) s.mem.waits m)) s
  { s1 with mem := { s1.mem with nonown := [], waits := [] } }

end Sys2Proof.Machine
end

