-- ==== Sys2Proof/Machine/MbxOps.lean ====
section
/-! DEFINITION. The operations of the MBX block: routes, messages, doorbells, epochs and endpoint resets (file 08). -/

namespace Sys2Proof.Machine

def State.inbox (s : State) (ep k : Nat) : Inbox := SMap.get (fun _ => Inbox.empty) s.mbx.inbox (4 * ep + k)

def State.setInbox (s : State) (ep k : Nat) (b : Inbox) : State :=
  { s with mbx := { s.mbx with inbox := SMap.set (fun _ => Inbox.empty) s.mbx.inbox (4 * ep + k) b } }

def State.ostat (s : State) (ep c : Nat) : Nat := SMap.get (fun _ => 0) s.mbx.ostat (4 * ep + c)

/-- Set a bit of OUT_STATc: 0 REJECT, 1 RX_RESET, 2 COLLIDE, 3 AGED, 4 LOST. -/
def State.setOstat (s : State) (ep c bit : Nat) : State :=
  { s with mbx := { s.mbx with ostat := SMap.set (fun _ => 0) s.mbx.ostat (4 * ep + c) (setBit (s.ostat ep c) bit true) } }

def State.dbell (s : State) (ep : Nat) : Word := SMap.get (fun _ => 0) s.mbx.db ep

def State.dbMask (s : State) (ep : Nat) : Word := SMap.get (fun _ => 0) s.mbx.mask ep

def State.epoch (s : State) (ep : Nat) : Nat := SMap.get (fun _ => 0) s.mbx.epoch ep

/-- Some unmasked doorbell bit of the endpoint is set (R426). -/
def State.dbNotifies (s : State) (ep : Nat) : Bool := s.dbell ep &&& ~~~ s.dbMask ep != 0

/-- A change of an endpoint's doorbell word and mask: a host endpoint notifies on each change from no unmasked bit set to
at least one, by vector 0 of its port (R426, R484). -/
def State.changeDb (s : State) (ep : Nat) (db mask : Word) : State :=
  let before := s.dbNotifies ep
  let s1 := { s with mbx := { s.mbx with
    db := SMap.set (fun _ => 0) s.mbx.db ep db, mask := SMap.set (fun _ => 0) s.mbx.mask ep mask } }
  if !before && s1.dbNotifies ep then
    if ep = 17 then s1.raiseVec 0 0 else if ep = 18 then s1.raiseVec 1 0 else s1
  else s1

/-- Set doorbell bits (R425). -/
def State.ringDb (s : State) (ep : Nat) (bits : Word) : State := s.changeDb ep (s.dbell ep ||| bits) (s.dbMask ep)

/-- Clear doorbell bits (R425). -/
def State.clearDb (s : State) (ep : Nat) (bits : Word) : State := s.changeDb ep (s.dbell ep &&& ~~~ bits) (s.dbMask ep)

/-! ## Routes (R410, R411) -/

def State.routeEn (s : State) (i : Nat) : Bool := s.flag (MBX_ROUTE i) MBX_ROUTE_EN

def State.routeDest (s : State) (i : Nat) : Nat := s.rd (MBX_ROUTE i) MBX_ROUTE_DEST

def State.routeMb (s : State) (i : Nat) : Nat := s.rd (MBX_ROUTE i) MBX_ROUTE_MB

/-- Whether a write of a route is discarded with ROUTE_ERR (R411). -/
def State.routeBad (s : State) (i : Nat) (w : Word) : Bool :=
  let old := s.reg (MBX_ROUTE i)
  let en := MBX_ROUTE_EN.get w == 1
  let dest := MBX_ROUTE_DEST.get w
  let mb := MBX_ROUTE_MB.get w
  let wasEn := s.routeEn i
  let moves := MBX_ROUTE_EN.get old != MBX_ROUTE_EN.get w || s.routeDest i != dest || s.routeMb i != mb
  let named := en && (List.range 76).any fun j => j != i && s.routeEn j && s.routeDest j == dest && s.routeMb j == mb
  named || (en && decide (19 ≤ dest)) || (en && dest == i / 4) ||
    (wasEn && (moves || MBX_ROUTE_COMPAT.get old != MBX_ROUTE_COMPAT.get w) && (s.inbox (s.routeDest i) (s.routeMb i)).full) ||
    (en && moves && (s.inbox dest mb).full)

/-- FCAP0 of an MBX source (R440). -/
def mbxCap (ep mb word : Nat) : Nat := ep * 256 + mb * 16 + word

/-- Raise an MBX source about endpoint `about`, with the slot of the endpoint `from` that caused it. -/
def State.raiseMbx (s : State) (src ep mb word master from_ : Nat) : State :=
  s.raiseFor .mbx src [mbxCap ep mb word, master, 0] from_

/-! ## Messages (R413 to R421, R439) -/

/-- A write of a sender that is turned away: REJECT is set and a source is raised. -/
def State.mbxReject (s : State) (src ep c mb word master : Nat) : State :=
  (s.setOstat ep c 0).raiseMbx src (s.routeDest (4 * ep + c)) mb word master ep

/-- A write to a full mailbox (R420, R421): `apply` is the effect a compatibility-mode write has on it. -/
def State.mbxFull (s : State) (ep c word master : Nat) (apply : Inbox → Inbox) : State :=
  let i := 4 * ep + c
  let (d, k) := (s.routeDest i, s.routeMb i)
  if s.flag (MBX_ROUTE i) MBX_ROUTE_COMPAT then
    (((s.setInbox d k { apply (s.inbox d k) with collide := true }).setOstat ep c 2).ringDb d (BitVec.ofNat 32 (2 ^ 28))).raiseMbx
      F_MBX_COLLIDE d k word master ep
  else (s.mbxReject F_MBX_REJECT ep c k word master).bump MBX_CNT MBX_CNT_REJECT 1

/-- A write of OUT_SENDc by endpoint `ep` (R413, R414). -/
def State.mbxSend (s : State) (ep c master : Nat) (value : Word) : State :=
  let i := 4 * ep + c
  let (d, k) := (s.routeDest i, s.routeMb i)
  let len := bitsOf value.toNat 4 0
  if !s.routeEn i then s.mbxReject F_MBX_ROUTE_ERR ep c c 0 master
  else if len = 0 ∨ 16 < len then s.mbxReject F_MBX_REJECT ep c k 0 master
  else if (s.inbox d k).full then
    let t := s.mbxFull ep c 0 master fun b => { b with len := len }
    if s.flag (MBX_ROUTE i) MBX_ROUTE_COMPAT then t.ringDb d (BitVec.ofNat 32 (2 ^ k)) else t
  else
    (s.setInbox d k { s.inbox d k with
      full := true, len := len, sender := ep, chan := c, epoch := s.epoch ep, agedOnce := false }).ringDb d
      (BitVec.ofNat 32 (2 ^ k))

/-- A write of word `w` of OUT_DATAc by endpoint `ep` (R415, R420, R421). -/
def State.mbxData (s : State) (ep c w master : Nat) (value : Word) : State :=
  let i := 4 * ep + c
  let (d, k) := (s.routeDest i, s.routeMb i)
  let write := fun b : Inbox => { b with words := SMap.set (fun _ => 0) b.words w value }
  if !s.routeEn i then s.mbxReject F_MBX_ROUTE_ERR ep c c w master
  else if (s.inbox d k).full then s.mbxFull ep c w master write
  else s.setInbox d k (write (s.inbox d k))

/-- A read of word `w` of inbound mailbox `k` (R417). -/
def State.mbxRead (s : State) (ep k w : Nat) : Word × State :=
  let b := s.inbox ep k
  if b.full ∧ b.len ≤ w then (0, s)
  else
    (SMap.get (fun _ => 0) b.words w,
      if b.full ∧ w + 1 = b.len then s.setInbox ep k { b with full := false } else s)

/-- IN_STATk (R431, R438). -/
def State.inStat (s : State) (ep k : Nat) : Nat :=
  let b := s.inbox ep k
  b2n b.full * 2 ^ 31 + b2n (b.full && b.epoch != s.epoch b.sender) * 2 ^ 30 + b2n b.collide * 2 ^ 29 + b2n b.aged * 2 ^ 28 +
    b.epoch * 2 ^ 16 + b.sender * 2 ^ 8 + b.len

/-- OUT_STATc (R418, R438). A disabled route names no mailbox (R411). -/
def State.outStat (s : State) (ep c : Nat) : Nat :=
  let i := 4 * ep + c
  b2n (s.routeEn i && (s.inbox (s.routeDest i) (s.routeMb i)).full) * 2 ^ 31 + b2n (s.routeEn i) * 2 ^ 30 + s.ostat ep c

/-! ## The endpoint window (R438) -/

/-- A 32-bit read of an endpoint's view at an offset. -/
def State.winRead (s : State) (ep off : Nat) : Word × State :=
  let k := off % 0x200 / 0x80
  let o := off % 0x80
  if off < 0x200 then
    if o < 0x40 then s.mbxRead ep k (o / 4)
    else if o = 0x40 then (BitVec.ofNat 32 (s.inStat ep k), s) else (0, s)
  else if off < 0x400 then
    if o = 0x48 then (BitVec.ofNat 32 (s.outStat ep k), s) else (0, s)
  else if off = 0x400 then (s.dbell ep, s)
  else if off = 0x408 then (s.dbMask ep, s)
  else if off = 0x410 then (BitVec.ofNat 32 (s.epoch ep * 2 ^ 16 + ep), s)
  else if 0x600 ≤ off ∧ off < 0x600 + 8 * 19 ∧ off % 8 = 0 then (BitVec.ofNat 32 (s.epoch ((off - 0x600) / 8)), s)
  else (0, s)

/-- A 32-bit write to an endpoint's view at an offset by a master. -/
def State.winWrite (s : State) (ep master off : Nat) (v : Word) : State :=
  let k := off % 0x200 / 0x80
  let o := off % 0x80
  if off < 0x200 then
    if o = 0x40 then
      let b := s.inbox ep k
      s.setInbox ep k { b with collide := b.collide && !bitOf v.toNat 29, aged := b.aged && !bitOf v.toNat 28 }
    else s
  else if off < 0x400 then
    if o < 0x40 then s.mbxData ep k (o / 4) master v
    else if o = 0x40 then s.mbxSend ep k master v
    else if o = 0x48 then
      let keep := s.ostat ep k - (BitVec.ofNat 5 (s.ostat ep k) &&& v.setWidth 5).toNat
      { s with mbx := { s.mbx with ostat := SMap.set (fun _ => 0) s.mbx.ostat (4 * ep + k) keep } }
    else s
  else if off = 0x400 then s.clearDb ep v
  else if off = 0x408 then s.changeDb ep (s.dbell ep) v
  else if 0x480 ≤ off ∧ off < 0x580 ∧ off % 8 = 0 then
    let n := (off - 0x480) / 8
    if 19 ≤ n then s.raiseMbx F_MBX_ROUTE_ERR n 0 0 master ep
    else s.ringDb n (v &&& 0x0FFFFFF0)
  else s

/-- A load or store of 1 or 2 bytes in the window (R1037). -/
def State.winBadSize (s : State) (ep master off : Nat) : State :=
  s.raiseMbx F_MBX_ACCESS_SIZE ep (off % 0x200 / 0x80) (off % 0x80 / 4 % 16) master ep

/-! ## Endpoint resets (R428 to R434) -/

/-- The endpoint forgets its inbound mailboxes; senders with a route into it learn it (R430). -/
def State.epResetRx (s : State) (ep : Nat) : State :=
  let s1 := (List.range 76).foldl (fun t i =>
    if s.routeEn i && s.routeDest i == ep then
      let t1 := t.setOstat (i / 4) (i % 4) 1
      let t2 := if (s.inbox ep (s.routeMb i)).full then t1.setOstat (i / 4) (i % 4) 4 else t1
      t2.ringDb (i / 4) (BitVec.ofNat 32 (2 ^ 30))
    else t) s
  let s2 := (List.range 4).foldl (fun t k =>
    let t1 := t.setInbox ep k Inbox.empty
    if (s.inbox ep k).full then t1.raiseMbx F_MBX_DISCARD ep k 0 31 ep else t1) s1
  s2.clearDb ep 0x9000000F

/-- Every receiver with a mailbox routed from the endpoint gets doorbell 29 (R431). -/
def State.epResetTx (s : State) (ep : Nat) : State :=
  (List.range 4).foldl (fun t c =>
    if t.routeEn (4 * ep + c) then t.ringDb (t.routeDest (4 * ep + c)) (BitVec.ofNat 32 (2 ^ 29)) else t) s

/-- The reset of an endpoint (R428, R429). -/
def State.epReset (s : State) (ep : Nat) : State :=
  let s1 := { s with mbx := { s.mbx with epoch := SMap.set (fun _ => 0) s.mbx.epoch ep ((s.epoch ep + 1) % 256) } }
  (s1.epResetRx ep).epResetTx ep

/-- A block reset of MBX beyond its registers (R434): mailboxes empty, epochs raised, doorbells 29 and 30 set. DISCARD is
raised for each posted message (R440). -/
def State.mbxBlockReset (s : State) : State :=
  let s0 := (List.range 76).foldl (fun t j =>
    if (s.inbox (j / 4) (j % 4)).full then t.raiseMbx F_MBX_DISCARD (j / 4) (j % 4) 0 31 (j / 4) else t) s
  let s1 := (List.range 19).foldl (fun t ep =>
    { t with mbx := { t.mbx with epoch := SMap.set (fun _ => 0) t.mbx.epoch ep ((t.epoch ep + 1) % 256) } }) s0
  let s2 := { s1 with mbx := { s1.mbx with inbox := [], ostat := [], mask := [] } }
  (List.range 19).foldl (fun t ep => t.changeDb ep 0x60000000 0) s2

/-- The master number of an endpoint (R379): the engine serving the slot, the active supervisor, a host port. -/
def State.epMaster (s : State) (ep : Nat) : Nat :=
  if ep < 16 then (match s.servingPe ep with | some n => n.val | none => 31)
  else if ep = 16 then 18 + s.boot.scActive else 20 + (ep - 17)

end Sys2Proof.Machine
end

