-- ==== Sys2Proof/Machine/CmdOps.lean ====
section
/-! DEFINITION. Completions in ring order, ring errors, and how the supervisor takes and ends a command (R476 to R480, R492
to R497). -/

namespace Sys2Proof.Machine

/-- Write the completions of an FTX, FRX or PDX ring that are due, in index order (R478). A ring that is not served keeps
them (R487). -/
def State.flushRing (fuel : Nat) (s : State) (r : Nat) : State :=
  match fuel with
  | 0 => s
  | n + 1 =>
    let x := s.ring r
    if (x.state = .active ∨ x.state = .draining ∨ x.state = .stopped) ∧ s.dmaOk x.port then
      match x.kept.find? (fun c => c.index == x.done) with
      | some c =>
        State.flushRing n (((s.emit (.completion x.port r c.index c.status c.index c.info c.value)).setRing r
          { x with done := (x.done + 1) % 65536, kept := x.kept.filter (·.index != c.index) }).notifyRing r) r
      | none => s
    else s

/-- Complete descriptor `idx` of an FTX, FRX or PDX ring (R476 to R478). -/
def State.ringComplete (s : State) (r idx status info value : Nat) : State :=
  let x := s.ring r
  (s.setRing r { x with kept := x.kept ++ [⟨idx, status, info, value⟩], started := x.started - 1 }).flushRing 4096 r

/-- A ring stops with an error code of HIF_RINGr_STAT.ERR; RING_ERR is raised and RING_ERROR written (R465, R480, R483). -/
def State.stopRing (s : State) (r err : Nat) : State :=
  let x := s.ring r
  (((s.setRing r { x with state := .stopped, err := err }).bump HIF_CNT HIF_CNT_RING_ERR 1).raise .hif F_HIF_RING_ERR
    [r, 20 + x.port, 16 * s.ringType r]).event .hif 0x07 3 (x.cidx * 2 ^ 16 + err * 2 ^ 12 + r) 0

/-- A DMA read of a port fails: raised and counted (R480, R499). -/
def State.dmaError (s : State) (port addr size : Nat) : State :=
  (s.bump HIF_CNT HIF_CNT_DMA_ERR 1).raise .hif F_HIF_DMA_ERR [addr % 2 ^ 32, 20 + port, 2 * Nat.log2 size]

/-- An eject quiesce runs (R497). -/
def State.ejecting (s : State) : Bool :=
  match s.quiesce with
  | some q => q.kind == .eject || q.kind == .removal
  | none => false

/-- Descriptors of a type are still taken: not from the acceptance of STANDBY on (R823), and not once a quiesce has completed
those that had not started (R117); commands posted later in an eject complete with EJECTED (R497). -/
def State.mayTake (s : State) (type : Nat) : Bool :=
  match s.quiesce with
  | none => true
  | some q => (q.kind != .standby && !q.drained) || (type == 3 && s.ejecting)

/-- A descriptor of ring `r` has been posted and not fetched, and the ring is served. -/
def State.hasWork (s : State) (r type : Nat) : Bool :=
  let x := s.ring r
  s.ringType r == type && x.state == .active && x.cidx != x.pidx && s.dmaOk x.port && s.mayTake type

/-- A completion status of R479. -/
abbrev Status := Nat

def stOk : Status := 0
def stEjected : Status := 1
def stFlushed : Status := 2
def stDmaErr : Status := 3
def stBadDesc : Status := 4
def stQuota : Status := 5
def stTrunc : Status := 6
def stNotOwner : Status := 7
def stUnsupported : Status := 8
def stUnknownCmd : Status := 9
def stMode : Status := 0xA
def stBusy : Status := 0xB
def stNoEntry : Status := 0xC
def stTableFull : Status := 0xD
def stBadImage : Status := 0xE
def stBadKey : Status := 0xF
def stStoreFull : Status := 0x10
def stDuplicate : Status := 0x11
def stBound : Status := 0x12
def stSlotBound : Status := 0x13
def stNoResource : Status := 0x14
def stNoEngine : Status := 0x15
def stNoCommon : Status := 0x16
def stBadDecl : Status := 0x17
def stNotBound : Status := 0x18
def stNotMigratable : Status := 0x19
def stBadTarget : Status := 0x1A
def stNotActive : Status := 0x1B
def stTooLate : Status := 0x1C
def stRetired : Status := 0x1D
def stAbandoned : Status := 0x1E
def stRefused : Status := 0x1F
def stNotOrphaned : Status := 0x20
def stLimit : Status := 0x21
def stBadState : Status := 0x22
def stBadParam : Status := 0x23

/-- A command ends: its CMD ring, its code, status and VALUE (R476, R477). -/
def State.finish (s : State) (ring code : Nat) (st : Status) (value : Nat) : State := s.complete ring code st value

/-- The supervisor can take the next command of a CMD ring (R492). -/
def State.canTake (s : State) (ring : Nat) : Bool := s.hasWork ring 3 && !(s.ring ring).busy

/-- The supervisor takes the next command of a CMD ring. -/
def State.take (s : State) (ring : Nat) : State :=
  let x := s.ring ring
  s.setRing ring { x with busy := true, started := x.started + 1, cidx := (x.cidx + 1) % 65536 }

/-- The modes in which most commands are allowed (R494). -/
def Mode.working (m : Mode) : Bool := m == .config || m == .run || m == .degraded || m == .safe

/-- The taking and the execution of a command (R492 to R494, R497): outside the modes given it completes with MODE, during
an eject quiesce with EJECTED. -/
def State.command (s : State) (ring code : Nat) (modes : Mode → Bool) (body : State → State) : State :=
  if !s.canTake ring then s
  else
    let s1 := s.take ring
    if s.ejecting then s1.finish ring 0 stEjected 0
    else if !modes s.mode then s1.finish ring code stMode 0
    else body s1

/-- What a command read by DMA; a failed read completes it with DMA_ERR (R480). -/
def State.withDma (s : State) (ring code addr : Nat) (dma : Option (List Byte)) (body : State → List Byte → State) : State :=
  match dma with
  | none => (s.dmaError (s.ring ring).port addr 8).finish ring code stDmaErr 0
  | some bs => body s bs

/-- What a command writes to host memory, and its completion: a write that cannot be delivered completes the command with
DMA_ERR (R480). -/
def State.writeHost (s : State) (ring code addr : Nat) (bs : List Byte) (value : Nat) : State :=
  let p := (s.ring ring).port
  if s.dmaOk p then (s.emit (.hostData p addr bs)).finish ring code stOk value
  else s.finish ring code stDmaErr 0

end Sys2Proof.Machine
end

