-- ==== Sys2Proof/Machine/Frames.lean ====
section
/-! DEFINITION. The bytes of Ethernet frames: the frame check sequence, headers, VLAN, PRP and HSR tags, PTP messages,
congestion marks and the edits of R537. -/

namespace Sys2Proof.Machine

/-- The byte at a position, as a number; 0 beyond the end. -/
def byteAt (bs : List Byte) (i : Nat) : Nat := (bs.getD i 0).toNat

/-- The number in `n` bytes from position `i`, in wire order. -/
def be (bs : List Byte) (i n : Nat) : Nat := ofBe (slice bs i n)

/-- CRC-32 of the frame check sequence, as the state before the final inversion. -/
def fcsState (bs : List Byte) : Nat := bs.foldl (fun st b => crcByte ⟨32, 0x04C11DB7, true⟩ st b.toNat) 0xFFFFFFFF

/-- The frame check sequence of the bytes before it. -/
def fcs (bs : List Byte) : List Byte := leBytes 4 (fcsState bs ^^^ 0xFFFFFFFF)

/-- The stomped sequence: the inverse of the right one (R535). -/
def stompedFcs (bs : List Byte) : List Byte := leBytes 4 (fcsState bs)

/-- A frame without its frame check sequence. -/
def body (bs : List Byte) : List Byte := bs.take (bs.length - 4)

/-- A body with its frame check sequence. -/
def withFcs (bs : List Byte) : List Byte := bs ++ fcs bs

/-- Cells of a frame of `n` bytes (R571). -/
def cellsOf (n : Nat) : Nat := (n + 127) / 128

def destAddr (bs : List Byte) : Nat := be bs 0 6
def srcAddr (bs : List Byte) : Nat := be bs 6 6

/-- The group bit of a destination or source address. -/
def isGroup (addr : Nat) : Bool := bitOf addr 40

def isBroadcast (addr : Nat) : Bool := addr == 0xFFFFFFFFFFFF

/-- Tagged by R539: the two bytes after the source address equal the TPID. -/
def isTagged (tpid : Nat) (bs : List Byte) : Bool := be bs 12 2 == tpid && decide (16 ≤ bs.length)

/-- Where the EtherType stands after any VLAN tag (R575). -/
def typePos (tpid : Nat) (bs : List Byte) : Nat := if isTagged tpid bs then 16 else 12

def etherType (tpid : Nat) (bs : List Byte) : Nat := be bs (typePos tpid bs) 2

/-! ## Keys (R575) -/

/-- A key: its type and its 128 bits. -/
structure Key where
  ktype : Nat
  key : Nat
  deriving DecidableEq, Repr

def macKey (vid addr : Nat) : Key := ⟨0, vid * 2 ^ 48 + addr⟩

def ipv4Key (vid pos : Nat) (bs : List Byte) : Key :=
  let proto := byteAt bs (pos + 9)
  let first := be bs (pos + 6) 2 % 2 ^ 13 == 0
  let dport := if (proto == 6 || proto == 17) && first then be bs (pos + 4 * (byteAt bs pos % 16) + 2) 2 else 0
  ⟨2, vid * 2 ^ 96 + proto * 2 ^ 88 + dport * 2 ^ 64 + be bs (pos + 12) 4 * 2 ^ 32 + be bs (pos + 16) 4⟩

/-- The forwarding key that KSEL chooses; `inp` is the IN field. -/
def forwardKey (ksel tpid vid inp : Nat) (bs : List Byte) : Key :=
  let t := etherType tpid bs
  let pos := typePos tpid bs + 2
  if ksel = 1 then ⟨1, inp * 2 ^ 88 + vid * 2 ^ 64 + t * 2 ^ 48 + destAddr bs⟩
  else if ksel = 2 ∧ t = 0x0800 then ipv4Key vid pos bs
  else if ksel = 2 ∧ t = 0x86DD then ⟨3, be bs (pos + 24) 16⟩
  else macKey vid (destAddr bs)

/-! ## VLAN tags at egress (R540) -/

/-- Apply a tag operation to a body. -/
def tagEdit (op tpid tagVid pcp : Nat) (dei : Bool) (bs : List Byte) : List Byte :=
  let newTag := beBytes 2 tpid ++ beBytes 2 (pcp * 2 ^ 13 + b2n dei * 2 ^ 12 + tagVid)
  let tagged := isTagged tpid bs
  if op = 1 then (if tagged then bs.take 12 ++ bs.drop 16 else bs)
  else if op = 2 then bs.take 12 ++ newTag ++ bs.drop 12
  else if op = 3 then
    (if tagged then overlay bs 14 (beBytes 2 (be bs 14 2 / 2 ^ 12 * 2 ^ 12 + tagVid)) else bs.take 12 ++ newTag ++ bs.drop 12)
  else bs

/-! ## PRP and HSR (R543 to R546). The sizes and identifiers are those of IEC 62439-3 (log entry 4). -/

/-- The link service data of a body: what follows the EtherType. -/
def lsduLen (tpid : Nat) (bs : List Byte) : Nat := bs.length - (typePos tpid bs + 2)

/-- A body carries a valid PRP trailer: the suffix and a size field that agrees with the length. -/
def prpValid (tpid : Nat) (bs : List Byte) : Bool :=
  let n := bs.length
  decide (22 ≤ n) && be bs (n - 2) 2 == 0x88FB && be bs (n - 4) 2 % 4096 == lsduLen tpid bs

/-- A body has the PRP suffix with a size field that disagrees (R546). -/
def prpBad (tpid : Nat) (bs : List Byte) : Bool :=
  let n := bs.length
  decide (22 ≤ n) && be bs (n - 2) 2 == 0x88FB && be bs (n - 4) 2 % 4096 != lsduLen tpid bs

/-- A body carries a valid HSR tag. -/
def hsrValid (tpid : Nat) (bs : List Byte) : Bool :=
  etherType tpid bs == 0x892F && be bs (typePos tpid bs + 2) 2 % 4096 == lsduLen tpid bs

/-- The sequence number of a valid trailer or tag. -/
def redSeqOf (tpid : Nat) (bs : List Byte) : Nat :=
  if hsrValid tpid bs then be bs (typePos tpid bs + 4) 2 else be bs (bs.length - 6) 2

/-- Insert a PRP trailer for LAN A (0xA) or B (0xB). -/
def prpInsert (tpid seq lan : Nat) (bs : List Byte) : List Byte :=
  bs ++ beBytes 2 seq ++ beBytes 2 ((0xA + lan) * 4096 + (lsduLen tpid bs + 6) % 4096) ++ beBytes 2 0x88FB

/-- Insert an HSR tag for path A (0) or B (1). -/
def hsrInsert (tpid seq lan : Nat) (bs : List Byte) : List Byte :=
  let p := typePos tpid bs
  bs.take p ++ beBytes 2 0x892F ++ beBytes 2 (lan * 4096 + (lsduLen tpid bs + 6) % 4096) ++ beBytes 2 seq ++ bs.drop p

/-- Remove a valid trailer or tag. -/
def redStrip (tpid : Nat) (bs : List Byte) : List Byte :=
  if hsrValid tpid bs then bs.take (typePos tpid bs) ++ bs.drop (typePos tpid bs + 6)
  else if prpValid tpid bs then bs.take (bs.length - 6)
  else bs

/-! ## Checksums and marks (R606, R664) -/

/-- A one's complement sum folded to 16 bits. -/
def fold16 (x : Nat) : Nat :=
  let y := x % 65536 + x / 65536
  y % 65536 + y / 65536

/-- The checksum after one 16-bit word changes. -/
def cksumUpdate (ck old new : Nat) : Nat := 65535 - fold16 ((65535 - ck) + (65535 - old) + new)

/-- The checksum after the words of a region change; the region is of even length. -/
def cksumUpdates (ck : Nat) : List Byte → List Byte → Nat
  | a :: b :: old, c :: d :: new =>
    cksumUpdates (cksumUpdate ck (a.toNat * 256 + b.toNat) (c.toNat * 256 + d.toNat)) old new
  | _, _ => ck

/-- The ECN field of an IP body, none for a body that is not IP. -/
def ecnOf (tpid : Nat) (bs : List Byte) : Option Nat :=
  let t := etherType tpid bs
  let pos := typePos tpid bs + 2
  if t = 0x0800 then some (byteAt bs (pos + 1) % 4)
  else if t = 0x86DD then some (byteAt bs (pos + 1) / 16 % 4)
  else none

/-- Set the ECN field to CE and update the IPv4 header checksum. -/
def setCe (tpid : Nat) (bs : List Byte) : List Byte :=
  let t := etherType tpid bs
  let pos := typePos tpid bs + 2
  let old := be bs pos 2
  if t = 0x0800 then
    let new := old / 4 * 4 + 3
    overlay (overlay bs pos (beBytes 2 new)) (pos + 10) (beBytes 2 (cksumUpdate (be bs (pos + 10) 2) old new))
  else if t = 0x86DD then overlay bs pos (beBytes 2 (old / 64 * 64 + 48 + old % 16))
  else bs

/-- Set the DEI of the outermost tag. -/
def setDei (tpid : Nat) (bs : List Byte) : List Byte :=
  if isTagged tpid bs then
    let t := be bs 14 2
    overlay bs 14 (beBytes 2 (if bitOf t 12 then t else t + 4096))
  else bs

/-! ## PTP messages (R663 to R668) -/

/-- Skip at most `n` VLAN tags, then one HSR tag: the position of the EtherType behind them. -/
def skipTags (tpid : Nat) (bs : List Byte) : Nat → Nat → Nat
  | 0, p => if be bs p 2 = 0x892F then p + 6 else p
  | n + 1, p => if be bs p 2 = tpid then skipTags tpid bs n (p + 4) else if be bs p 2 = 0x892F then p + 6 else p

/-- A PTP event message in a body (R663): where the PTP header starts, and where the UDP checksum stands, with whether it
is IPv4. -/
def ptpAt (tpid : Nat) (bs : List Byte) : Option (Nat × Option (Nat × Bool)) :=
  let p := skipTags tpid bs 2 12
  let t := be bs p 2
  if t = 0x88F7 then some (p + 2, none)
  else if t = 0x0800 ∧ byteAt bs (p + 11) = 17 then
    let u := p + 2 + 4 * (byteAt bs (p + 2) % 16)
    if be bs (u + 2) 2 = 319 then some (u + 8, some (u + 6, true)) else none
  else if t = 0x86DD ∧ byteAt bs (p + 8) = 17 then
    let u := p + 42
    if be bs (u + 2) 2 = 319 then some (u + 8, some (u + 6, false)) else none
  else none

def ptpType (bs : List Byte) (h : Nat) : Nat := byteAt bs h % 16
def ptpTwoStep (bs : List Byte) (h : Nat) : Bool := bitOf (byteAt bs (h + 6)) 1
def ptpSeq (bs : List Byte) (h : Nat) : Nat := be bs (h + 30) 2

/-- A body with `new` bytes at position `i` and its UDP checksum updated; an IPv4 checksum of 0 stays 0 (R664). -/
def ptpPatch (bs : List Byte) (udp : Option (Nat × Bool)) (h i : Nat) (new : List Byte) : List Byte :=
  let out := overlay bs i new
  match udp with
  | none => out
  | some (c, v4) =>
    let ck := be bs c 2
    if v4 && ck == 0 then out
    else
      let lo := i - (i - h) % 2
      let n := new.length + 2 - (new.length + (i - lo)) % 2
      overlay out c (beBytes 2 (cksumUpdates ck (slice bs lo n) (slice out lo n)))

/-- Add an amount in scaled ns to correctionField, modulo 2^64. -/
def ptpCorrect (bs : List Byte) (udp : Option (Nat × Bool)) (h : Nat) (amount : Int) : List Byte :=
  let old := be bs (h + 8) 8
  ptpPatch bs udp h (h + 8) (beBytes 8 (toBits 64 ((old : Int) + amount)))

/-- Insert a transmit time into originTimestamp and its fraction into correctionField (R664). -/
def ptpInsert (bs : List Byte) (udp : Option (Nat × Bool)) (h sec ns frac : Nat) : List Byte :=
  ptpCorrect (ptpPatch bs udp h (h + 34) (beBytes 6 sec ++ beBytes 4 ns)) udp h frac

end Sys2Proof.Machine
end

