-- ==== Sys2Proof/Machine/SwcOps.lean ====
section
/-! DEFINITION. The operations of the switch core: stored frames, accounts and admission, classification, learning, table
placement, drops and gates (file 11). -/

namespace Sys2Proof.Machine

/-! ## Stored frames (R571, R573) -/

def State.frame (s : State) (fid : Nat) : Option Frame := SMap.get (fun _ => none) s.swc.frames fid

def State.setFrame (s : State) (fid : Nat) (f : Option Frame) : State :=
  { s with swc := { s.swc with frames := SMap.set (fun _ => none) s.swc.frames fid f } }

/-- Store a frame once; the answer is its number. -/
def State.store (s : State) (f : Frame) : Nat × State :=
  let fid := s.swc.nextFid
  (fid, { s with swc := { s.swc with nextFid := fid + 1 } }.setFrame fid (some f))

def State.tq (s : State) (n q : Nat) : List TxEnt := SMap.get (fun _ => []) s.swc.tq (8 * n + q)

def State.setTq (s : State) (n q : Nat) (l : List TxEnt) : State :=
  { s with swc := { s.swc with tq := SMap.set (fun _ => []) s.swc.tq (8 * n + q) l } }

def State.eq (s : State) (l q : Nat) : List Nat := SMap.get (fun _ => []) s.swc.eq (8 * l + q)

def State.setEq (s : State) (l q : Nat) (xs : List Nat) : State :=
  { s with swc := { s.swc with eq := SMap.set (fun _ => []) s.swc.eq (8 * l + q) xs } }

def State.frxQ (s : State) (r : Nat) : List Nat := SMap.get (fun _ => []) s.swc.frx r

def State.setFrxQ (s : State) (r : Nat) (xs : List Nat) : State :=
  { s with swc := { s.swc with frx := SMap.set (fun _ => []) s.swc.frx r xs } }

def State.mac (s : State) (n : Nat) : MacSt := SMap.get (fun _ => MacSt.reset) s.swc.macs n

def State.setMac (s : State) (n : Nat) (m : MacSt) : State :=
  { s with swc := { s.swc with macs := SMap.set (fun _ => MacSt.reset) s.swc.macs n m } }

def State.gate (s : State) (n : Nat) : GateSt := SMap.get (fun _ => GateSt.reset) s.swc.gates n

def State.setGate (s : State) (n : Nat) (g : GateSt) : State :=
  { s with swc := { s.swc with gates := SMap.set (fun _ => GateSt.reset) s.swc.gates n g } }

def State.slot (s : State) (l : Nat) : SlotSt := SMap.get (fun _ => SlotSt.free) s.slots l

def State.setSlot (s : State) (l : Nat) (x : SlotSt) : State :=
  { s with slots := SMap.set (fun _ => SlotSt.free) s.slots l x }

/-- The frame an engine has open for receiving. -/
def Engine.openFid (e : Engine) : Option Nat := e.fau.rx.map Prod.snd

/-- Some queue, transmitter or engine still holds a frame (R573). -/
def State.held (s : State) (fid : Nat) : Bool :=
  (s.swc.tq.any fun e => e.2.any fun x => x.fid == fid) || (s.swc.eq.any fun e => e.2.contains fid) ||
    (s.swc.frx.any fun e => e.2.contains fid) ||
    (s.swc.macs.any fun e => match e.2.sending with | some x => x.fid == fid | none => false) ||
    (s.pes.toList.any fun e => e.openFid == some fid)

/-- A frame that nothing holds any more frees its cells (R573). A transmit report that it still owes completes without a
time (R477). -/
def State.collect (s : State) (fid : Nat) : State :=
  if s.held fid then s
  else
    match s.frame fid with
    | some f =>
      let s1 := s.setFrame fid none
      match f.report with
      | some (r, i, _) => s1.ringComplete r i stOk 0 0
      | none => s1
    | none => s

/-- Cells of a stored frame. -/
def State.cells (s : State) (fid : Nat) : Nat :=
  match s.frame fid with
  | some f => cellsOf f.bytes.length
  | none => 0

/-- Frames present for a generation value (R595). -/
def State.genCount (s : State) (g : Nat) : Nat :=
  (s.swc.frames.filter fun e => match e.2 with | some f => f.gen == g | none => false).length

/-! ## Accounts (R600, R601) -/

def sumOf (xs : List Nat) : Nat := xs.foldl (· + ·) 0

/-- Cells charged to port n, the frame being sent included (log entry 5). -/
def State.portOcc (s : State) (n : Nat) : Nat :=
  sumOf ((List.range 8).map fun q => sumOf ((s.tq n q).map fun e => s.cells e.fid)) +
    (match (s.mac n).sending with | some x => s.cells x.fid | none => 0)

/-- Cells charged to slot l: its queues, the frame its engine has open, and the frames it is building (log entry 5). -/
def State.slotOcc (s : State) (l : Nat) : Nat :=
  sumOf ((List.range 8).map fun q => sumOf ((s.eq l q).map s.cells)) +
    sumOf (s.pes.toList.map fun e =>
      if e.slot.map Fin.val = some l then
        (match e.openFid with | some f => s.cells f | none => 0) + (match e.fau.tx with | some t => t.cells | none => 0)
      else 0)

/-- Cells charged to an FTX or FRX ring. -/
def State.ringOcc (s : State) (r : Nat) : Nat :=
  if s.ringType r = 0 then
    sumOf (s.swc.frames.map fun e => match e.2 with
      | some f => if f.ring = some r then cellsOf f.bytes.length else 0
      | none => 0)
  else sumOf ((s.frxQ r).map s.cells)

/-- LIMIT of a port: below RESERVE it acts as RESERVE (R604), and it is at most 49,152 (R633). -/
def State.portLimit (s : State) (n : Nat) : Nat :=
  let l := s.rd (SWC_PORT_QUOTA n) SWC_PORT_QUOTA_LIMIT
  let r := s.rd (SWC_PORT_QUOTA n) SWC_PORT_QUOTA_RESERVE
  if l < r then r else if 49152 < l then 49152 else l

def State.portReserve (s : State) (n : Nat) : Nat := s.rd (SWC_PORT_QUOTA n) SWC_PORT_QUOTA_RESERVE

def State.slotQuota (s : State) (l : Nat) : Nat := s.rd (SWC_SLOT_BUF l) SWC_SLOT_BUF_QUOTA

/-- SWC_POOL.SIZE (R601). -/
def State.poolSize (s : State) : Nat :=
  1024 * ((List.range 52).filter fun p => (s.bank true p).role == 0).length -
    sumOf ((List.range 16).map s.portReserve) - sumOf ((List.range 16).map s.slotQuota)

/-- The pool's use (R601). -/
def State.poolUse (s : State) : Nat :=
  sumOf ((List.range 16).map fun n => s.portOcc n - s.portReserve n) +
    sumOf ((List.range 16).map fun l => s.slotOcc l - s.slotQuota l) +
    sumOf ((List.range 512).map fun r => if s.ringType r ≤ 1 then s.ringOcc r else 0)

def State.poolFree (s : State) : Nat := s.poolSize - s.poolUse

/-- A new RESERVE of a port or quota of a slot may be set (R604): SIZE would not fall below the pool's use. -/
def State.quotaFits (s : State) (old new : Nat) : Bool := decide (s.poolUse + new ≤ s.poolSize + old)

def State.linkUp (s : State) (n : Nat) : Bool := s.flag (MAC_STAT n) MAC_STAT_LINK

/-! ## Admission (R602, R603) -/

def State.admitPort (s : State) (n q c : Nat) : Bool :=
  let occ := s.portOcc n
  let res := s.portReserve n
  let f := bitsOf (s.reg SWC_TQLIM).toNat (4 * q + 3) (4 * q)
  s.linkUp n && !s.flag (SWC_PORT_CFG n) SWC_PORT_CFG_REMOVE &&
    decide ((occ + c) * 16 ≤ s.portLimit n * (f + 1)) && decide ((occ + c - res) - (occ - res) ≤ s.poolFree)

/-- What a migrating slot may hold above its quota (R290). -/
def State.headroom (s : State) (l : Nat) : Nat :=
  let blackout := match s.pers.mig with
    | some m => m.slot.val == l && m.phase == .stopwait && (s.pes[m.src]).state == .stopped
    | none => false
  if blackout || (s.slot l).grace then s.rd WADI_MIG_HEADROOM WADI_MIG_HEADROOM_CELLS else 0

def State.admitSlot (s : State) (l c : Nat) : Bool :=
  let occ := s.slotOcc l
  let q := s.slotQuota l
  (s.slot l).bound && !(s.slot l).shed && (decide (occ + c ≤ q) ||
    (decide (occ + c ≤ q + s.headroom l) && decide ((occ + c - q) - (occ - q) ≤ s.poolFree)))

/-- What the running period records of a slot: its peak, or a drop for lack of quota (R330). -/
def State.noteSlot (s : State) (l : Nat) (drop : Bool) : State :=
  let x := s.slot l
  if !x.bound || x.shed then s
  else s.setSlot l { x with peak := max x.peak (s.slotOcc l), qdrop := x.qdrop || drop }

def State.ringQuota (s : State) (r : Nat) : Nat := s.rd (SWC_RING_QUOTA r) SWC_RING_QUOTA_QUOTA

def State.admitRing (s : State) (r c : Nat) : Bool :=
  (s.ring r).state == .active && decide (s.ringOcc r + c ≤ s.ringQuota r) && decide (c ≤ s.poolFree)

/-- A count in a 32-bit register that stops at its largest value. -/
def State.bump32 (s : State) (off n : Nat) : State := s.bump off ⟨31, 0⟩ n

/-- One more drop in HIF_RINGr_CNT (R512). -/
def State.ringDrop (s : State) (r : Nat) : State :=
  s.setRing r { s.ring r with drops := stopAt 0xFFFFFFFF ((s.ring r).drops + 1) }

/-- The classified tag of a stored frame decides how it is marked (R606): the answer says whether the copy is counted, and
whether a mark is applied. -/
def State.markKind (s : State) (n : Nat) (f : Frame) : Bool × Bool :=
  let tpid := s.rd (MAC_VLAN n) MAC_VLAN_TPID
  match ecnOf tpid f.bytes with
  | some ecn =>
    if s.flag SWC_MARK_THR SWC_MARK_THR_ECT_ONLY && ecn == 0 then (false, false) else (true, ecn != 3)
  | none => (f.tagged, f.tagged)

/-- A copy for queue q of port n: admitted, with its mark, or dropped and counted (R602, R606). -/
def State.enqueuePort (s : State) (fid n q : Nat) : State :=
  match s.frame fid with
  | none => s
  | some f =>
    if s.admitPort n q (cellsOf f.bytes.length) then
      let above := decide (s.rd SWC_MARK_THR SWC_MARK_THR_THR < s.portOcc n)
      let (counted, mark) := s.markKind n f
      let s1 := s.setTq n q (s.tq n q ++ [⟨fid, above && mark⟩])
      if above && counted then s1.bump32 (SWC_PORT_MARK n) 1 else s1
    else s.bump32 (SWC_PORT_QDROP n) 1

/-- A copy for queue q of slot l (R603). -/
def State.enqueueSlot (s : State) (fid l q : Nat) : State :=
  if s.admitSlot l (s.cells fid) then (s.setEq l q (s.eq l q ++ [fid])).noteSlot l false
  else (s.bump32 (SWC_SLOT_DROP l) 1).noteSlot l true

/-- A copy for FRX ring r (R603). -/
def State.enqueueRing (s : State) (fid r : Nat) : State :=
  if s.ringType r == 1 && s.admitRing r (s.cells fid) then s.setFrxQ r (s.frxQ r ++ [fid]) else s.ringDrop r

/-- Where a frame goes (R580): ports with their queues, a slot and queue, an FRX ring; the tag operation of its lookup and
the FCT index. -/
structure Dest where
  ports : List (Nat × Nat)
  slot : Option (Nat × Nat)
  ring : Option Nat
  op : Nat
  opVid : Nat
  entry : Nat
  deriving DecidableEq, Repr

def Dest.nowhere : Dest := ⟨[], none, none, 0, 0, 0xFFFF⟩

def Dest.isEmpty (d : Dest) : Bool := d.ports.isEmpty && d.slot.isNone && d.ring.isNone

/-- Make the copies of a stored frame in passing (R605). A frame with no admitted copy frees its cells. -/
def State.deliver (s : State) (fid : Nat) (d : Dest) : State :=
  let s1 := d.ports.foldl (fun t e => t.enqueuePort fid e.1 e.2) s
  let s2 := match d.slot with | some (l, q) => s1.enqueueSlot fid l q | none => s1
  let s3 := match d.ring with | some r => s2.enqueueRing fid r | none => s2
  s3.collect fid

/-! ## The classification table (R576 to R586) -/

def entF (e : BitVec 256) (hi lo : Nat) : Nat := bitsOf e.toNat hi lo

def entValid (e : BitVec 256) : Bool := entF e 255 255 == 1

def entStatic (e : BitVec 256) : Bool := entF e 251 251 == 1

/-- An entry with a field replaced. -/
def entPut (e : BitVec 256) (hi lo v : Nat) : BitVec 256 :=
  BitVec.ofNat 256 (e.toNat - entF e hi lo * 2 ^ lo + v % 2 ^ (hi + 1 - lo) * 2 ^ lo)

def State.fctAt (s : State) (i : Nat) : BitVec 256 := SMap.get (fun _ => 0) s.swc.fct i

def State.setFct (s : State) (i : Nat) (e : BitVec 256) : State :=
  { s with swc := { s.swc with fct := SMap.set (fun _ => 0) s.swc.fct i e } }

def State.ternAt (s : State) (i : Nat) : BitVec 256 × BitVec 128 := SMap.get (fun _ => (0, 0)) s.swc.tern i

def State.setTern (s : State) (i : Nat) (e : BitVec 256 × BitVec 128) : State :=
  { s with swc := { s.swc with tern := SMap.set (fun _ => (0, 0)) s.swc.tern i e } }

def State.setShadow (s : State) (i : Nat) (e : BitVec 256) : State :=
  { s with swc := { s.swc with shadow := SMap.set (fun _ => 0) s.swc.shadow i e } }

/-- The index a key can occupy in way w (R576). -/
def State.fctIndex (s : State) (w key : Nat) : Nat :=
  8192 * w + (leBytes 16 key).foldl (fun st b => crcByte ⟨32, 0x1EDC6F41, true⟩ st b.toNat)
    (s.reg (SWC_HASH_SEED w)).toNat % 8192

def State.candidates (s : State) (key : Nat) : List Nat := (List.range 4).map fun w => s.fctIndex w key

/-- An exact index lies in a sub-array that is lost (R599). -/
def State.subLost (s : State) (i : Nat) : Bool := bitOf (s.rd SWC_FCT_STAT SWC_FCT_STAT_LOST) (i / 2048)

/-- The exact entry of a key (R578, R579). -/
def State.exactHit (s : State) (k : Key) : Option Nat :=
  (s.candidates k.key).find? fun i =>
    let e := s.fctAt i
    !s.subLost i && entValid e && entF e 254 252 == k.ktype && entF e 127 0 == k.key && decide (k.ktype < 4)

/-- The lowest-numbered ternary entry that matches (R578, R579). -/
def State.ternHit (s : State) (k : Key) (inp : Nat) : Option Nat :=
  (s.swc.tern.find? fun (_, e, m) =>
    entValid e && entF e 254 252 == k.ktype && decide (k.ktype < 4) && bitOf (entF e 145 128) inp &&
      (BitVec.ofNat 128 k.key &&& m) == (BitVec.ofNat 128 (entF e 127 0) &&& m)).map Prod.fst

/-- The result of a forwarding lookup (R579): the index and the entry. -/
def State.lookup (s : State) (k : Key) (inp : Nat) : Option (Nat × BitVec 256) :=
  let exact := (s.exactHit k).map fun i => (i, s.fctAt i)
  let tern := (s.ternHit k inp).map fun i => (32768 + i, (s.ternAt i).1)
  match tern with
  | some t => if entF t.2 247 247 = 1 then some t else exact.or tern
  | none => exact

/-- The queue SWC_PCP_MAP gives for a PCP (R624). -/
def State.pcpQueue (s : State) (pcp : Nat) : Nat := bitsOf (s.reg SWC_PCP_MAP).toNat (4 * pcp + 2) (4 * pcp)

/-- The ports of a mask except one, with a queue each. -/
def portsOf (mask except_ q : Nat) : List (Nat × Nat) :=
  ((List.range 16).filter fun n => bitOf mask n && n != except_).map fun n => (n, q)

/-- The destination set of an entry (R580). -/
def State.destOf (s : State) (i : Nat) (e : BitVec 256) (inPort pcp : Nat) : Dest :=
  let op := entF e 200 199
  let vid := entF e 198 187
  if entF e 221 221 = 1 then { Dest.nowhere with op := op, opVid := vid, entry := i }
  else
    let q := if entF e 220 220 = 1 then s.pcpQueue pcp else entF e 219 217
    ⟨portsOf (entF e 239 224) inPort q, if entF e 223 223 = 1 then some (entF e 216 213, entF e 212 210) else none,
      if entF e 222 222 = 1 then some (entF e 209 201) else none, op, vid, i⟩

/-- The miss action of an ingress port (R579). -/
def State.missOf (s : State) (n pcp : Nat) : Dest :=
  let d := s.rd (SWC_PORT_CFG n) SWC_PORT_CFG_DEF
  if d = 1 then
    { Dest.nowhere with ports := portsOf (s.rd (SWC_PORT_CFG n) SWC_PORT_CFG_FLOOD) n (s.pcpQueue pcp) }
  else if d = 2 then { Dest.nowhere with ring := some (s.rd (SWC_PORT_CFG n) SWC_PORT_CFG_DEF_RING) }
  else Dest.nowhere

/-- A stored entry shows an ECC error at a lookup (R586): corrected, or missed and rewritten from the shadow copy; a learned
entry is invalidated. The answer is the table the lookup sees. -/
def State.fctEcc (s : State) (i : Nat) (ecc : Ecc) : State :=
  match ecc with
  | .ok => s
  | .single => s.raise .swc F_SWC_FCT_CE [i, 0, 0]
  | .double => ((s.setFct i 0).unitFailed kFct (SMap.get id s.swc.subMap (i / 2048))).raise .swc F_SWC_FCT_UE [i, 0, 0]

/-- After that lookup, in hardware mode of function 2, the supervisor rewrites a shadowed entry (R586). -/
def State.fctRewrite (s : State) (i : Nat) (ecc : Ecc) : State :=
  if ecc == .double && s.rd (WADI_FUNC 2) WADI_FUNC_CUR == 0 then s.setFct i (SMap.get (fun _ => 0) s.swc.shadow i) else s

/-! ## Learning (R587 to R589) -/

/-- Queue a learn action; one that finds the queue full is lost and counted (R588). -/
def State.queueLearn (s : State) (a : Learn) : State :=
  if s.swc.learnQ.length < 64 then { s with swc := { s.swc with learnQ := s.swc.learnQ ++ [a] } }
  else (s.bump SWC_CNT SWC_CNT_LEARN_LOST 1).raise .swc F_SWC_LEARN_LOST [0, 0, 0]

/-- A learning lookup by a key: HIT is set at a match; a miss or a move queues an action (R588). -/
def State.learnKey (s : State) (k : Key) (a : Learn) : State :=
  match s.exactHit k with
  | some i =>
    let e := entPut (s.fctAt i) 250 250 1
    let s1 := s.setFct i e
    if !entStatic e && entF e 239 224 != 2 ^ a.port then s1.queueLearn a else s1
  | none => s.queueLearn a

/-- A learning lookup of a frame (R588). -/
def State.learn (s : State) (vid addr port : Nat) : State := s.learnKey (macKey vid addr) ⟨vid, addr, port⟩

/-- Apply a queued learn action (R588, R589). -/
def State.applyLearn (s : State) (a : Learn) : State :=
  let k := macKey a.vid a.addr
  let hit := s.exactHit k
  if s.rd (WADI_FUNC 1) WADI_FUNC_CUR = 1 then
    let move := hit.isSome
    s.event .swc 0x28 4 (a.vid * 2 ^ 48 + a.addr) (b2n move * 512 + b2n (!move) * 256 + a.port)
  else
    match hit with
    | some i => if entStatic (s.fctAt i) then s else s.setFct i (entPut (s.fctAt i) 239 224 (2 ^ a.port))
    | none =>
      match (s.candidates k.key).find? fun i => !entValid (s.fctAt i) && !s.subLost i with
      | some i => s.setFct i (BitVec.ofNat 256 (2 ^ 255 + 2 ^ (224 + a.port) + 2 ^ 220 + k.key))
      | none => s.bump SWC_CNT SWC_CNT_LEARN_FULL 1

/-! ## Placement of exact entries (R591, R592) -/

/-- The other indices an occupied index's key can move to. -/
def State.moves (s : State) (i : Nat) : List Nat := (s.candidates (entF (s.fctAt i) 127 0)).filter (· != i)

/-- Search for a shortest relocation path: each path lists indices, the one to free first at its end. -/
def State.pathSearch (fuel : Nat) (s : State) (paths : List (List Nat)) (seen : List Nat) : Option (List Nat) :=
  match fuel with
  | 0 => none
  | n + 1 =>
    match paths with
    | [] => none
    | p :: ps =>
      match p with
      | [] => State.pathSearch n s ps seen
      | i :: _ =>
        let next := (s.moves i).filter fun j => !s.subLost j
        match next.find? fun j => !entValid (s.fctAt j) with
        | some j => some (j :: p)
        | none =>
          if 16 ≤ p.length then State.pathSearch n s ps seen
          else
            let fresh := next.filter fun j => !seen.contains j
            State.pathSearch n s (ps ++ fresh.map fun j => j :: p) (seen ++ fresh)

/-- Move entries along a path: the entry at the second index goes to the first, and so on (R585, R592). -/
def State.relocate (s : State) : List Nat → State
  | j :: i :: rest =>
    let sh := SMap.get (fun _ => 0) s.swc.shadow i
    State.relocate ((((s.setFct j (s.fctAt i)).setFct i 0).setShadow j sh).setShadow i 0) (i :: rest)
  | _ => s

/-- Place an exact entry (R592): the index, or none when the table is full. -/
def State.place (s : State) (e : BitVec 256) : Option Nat × State :=
  let k : Key := ⟨entF e 254 252, entF e 127 0⟩
  let write := fun (t : State) (i : Nat) => (some i, (t.setFct i e).setShadow i e)
  match s.exactHit k with
  | some i => write s i
  | none =>
    let cs := (s.candidates k.key).filter fun i => !s.subLost i
    match cs.find? fun i => !entValid (s.fctAt i) with
    | some i => write s i
    | none =>
      match s.pathSearch 40000 (cs.map fun i => [i]) cs with
      | some p =>
        let i := p.getLast?.getD 0
        write (s.relocate p) i
      | none =>
        match cs.find? fun i => SMap.get (fun _ => 0) s.swc.shadow i == 0 && !entStatic (s.fctAt i) with
        | some i => write s i
        | none => (none, s)

/-- FCT_STAT.VALID: valid exact entries (R627). -/
def State.fctValid (s : State) : Nat := (s.swc.fct.filter fun e => entValid e.2).length

/-- The physical sub-array behind a logical one. -/
def State.subPhys (s : State) (l : Nat) : Nat := SMap.get id s.swc.subMap l

/-- The spare FCT sub-arrays (R34, R598): of 18, those neither in use nor out of service. -/
def State.spareSubs (s : State) : List Nat :=
  (List.range 18).filter fun p => !s.swc.subBad.contains p && (List.range 16).all fun l => s.subPhys l != p

/-! ## The fence (R596, R597) -/

/-- A fence is requested: the answer says whether it was refused. -/
def State.startFence (s : State) (cmd : Option Nat) : Bool × State :=
  let g := s.rd SWC_FCT_FENCE SWC_FCT_FENCE_GEN
  if s.flag SWC_FCT_FENCE SWC_FCT_FENCE_BUSY || s.genCount ((g + 1) % 16) != 0 then
    (true, s.wr SWC_FCT_FENCE SWC_FCT_FENCE_RESULT 3)
  else
    (false, ({ s with swc := { s.swc with fenceCmd := cmd } }.wr SWC_FCT_FENCE SWC_FCT_FENCE_GEN (g + 1)).wr
      SWC_FCT_FENCE SWC_FCT_FENCE_BUSY 1)

/-- The VALUE of an FCT_FENCE completion (R593). -/
def State.fenceValue (s : State) : Nat :=
  s.rd SWC_FCT_FENCE SWC_FCT_FENCE_RESULT * 2 ^ 28 + s.rd SWC_FCT_FENCE SWC_FCT_FENCE_GEN

/-- BUSY clears with a result, and a waiting command completes. -/
def State.endFence (s : State) (result : Nat) : State :=
  let s1 := (s.wr SWC_FCT_FENCE SWC_FCT_FENCE_BUSY 0).wr SWC_FCT_FENCE SWC_FCT_FENCE_RESULT result
  let s2 := { s1 with swc := { s1.swc with fenceCmd := none } }
  match s.swc.fenceCmd with
  | some r => s2.finish r 0x85 stOk s2.fenceValue
  | none => s2

/-! ## Drops -/

/-- Drop every copy queued for a port, counted in QDROP (R614, R615); the answer is how many. -/
def State.dropPort (s : State) (n : Nat) : Nat × State :=
  let ents := ((List.range 8).map fun q => s.tq n q).flatten
  let s1 := (List.range 8).foldl (fun t q => t.setTq n q []) s
  let s2 := ents.foldl (fun t e => t.collect e.fid) s1
  (ents.length, s2.bump32 (SWC_PORT_QDROP n) ents.length)

/-- Drop every frame queued for a slot, counted in its drop counter (R272). -/
def State.dropSlot (s : State) (l : Nat) : State :=
  let fids := ((List.range 8).map fun q => s.eq l q).flatten
  let s1 := (List.range 8).foldl (fun t q => t.setEq l q []) s
  (fids.foldl State.collect s1).bump32 (SWC_SLOT_DROP l) fids.length

/-- Drop every frame queued for an FRX ring, counted in HIF_RINGr_CNT (R461). -/
def State.dropRing (s : State) (r : Nat) : State :=
  let fids := s.frxQ r
  fids.foldl (fun t f => (t.ringDrop r).collect f) (s.setFrxQ r [])

/-- The removal of a port completes (R615). -/
def State.drained (s : State) (n dropped : Nat) : State :=
  (s.wr (SWC_PORT_OCC n) SWC_PORT_OCC_DRAINED 1).event .swc 0x2A 4 (n * 2 ^ 32 + dropped) 0

/-! ## Transmit gates (R610 to R613) -/

/-- CYCLE of a gate list within its limits (R639). -/
def State.gateCycle (s : State) (n : Nat) : Nat :=
  let c := (s.reg (SWC_GATE_CYCLE n)).toNat
  if c < 1000 then 1000 else if 1000000000 < c then 1000000000 else c

/-- The entries of a bank's list, up to the first with INTERVAL 0 (R610). -/
def State.gateList (s : State) (n bank : Nat) : List (Nat × Nat) :=
  ((List.range 64).map fun e =>
    (s.rd (SWC_GCL (128 * n + 64 * bank + e)) SWC_GCL_GATES, s.rd (SWC_GCL (128 * n + 64 * bank + e)) SWC_GCL_INTERVAL)).takeWhile
    fun e => e.2 != 0

/-- The entry in force `pos` ns into a cycle: the last entry lasts until the cycle ends. -/
def gateWalk : List (Nat × Nat) → Nat → Nat → Nat
  | [], _, e => e
  | [_], _, e => e
  | (_, iv) :: rest, pos, e => if pos < iv then e else gateWalk rest (pos - iv) (e + 1)

/-- The gate state of an entry; an empty list leaves all gates open. -/
def State.gateEntry (s : State) (n e : Nat) : GateSt :=
  let l := s.gateList n (s.rd (SWC_GATE_CFG n) SWC_GATE_CFG_ACTIVE)
  ⟨true, e, match l[e]? with | some x => x.1 | none => if l.isEmpty then 0xFF else (l.getLast?.getD (0xFF, 0)).1⟩

/-- The gates of a port for the present time (R610, R613). -/
def State.gateNow (s : State) (n : Nat) : State :=
  let base := s.reg64 (SWC_GATE_BASE n)
  if !s.flag (SWC_GATE_CFG n) SWC_GATE_CFG_EN ∨ s.now < base then s.setGate n GateSt.reset
  else
    let l := s.gateList n (s.rd (SWC_GATE_CFG n) SWC_GATE_CFG_ACTIVE)
    s.setGate n (s.gateEntry n (gateWalk l ((s.now - base) % s.gateCycle n) 0))

end Sys2Proof.Machine
end

