-- ==== Sys2Proof/Machine/TimeOps.lean ====
section
/-! DEFINITION. The operations of the time base: its advance, steps, slews and steering (R641 to R657), timestamps (R658,
R659), and what a step does to everything scheduled against it (R170, R613, R675). -/

namespace Sys2Proof.Machine

/-- The whole time base in units of 2⁻⁴⁰ ns. -/
def TimeBase.total (t : TimeBase) : Nat := (t.sec.toNat * 1000000000 + t.ns.toNat) * 2 ^ 40 + t.sub.toNat

/-- The wrap of the time base: SEC wraps from 2⁴⁸ − 1 to 0 (R641). -/
def tbWrap : Int := 2 ^ 48 * 1000000000 * 2 ^ 40

/-- A time base at a total, taken modulo its wrap. -/
def TimeBase.at (t : TimeBase) (total : Int) : TimeBase :=
  let u := (total % tbWrap).toNat
  { t with
    sec := BitVec.ofNat 48 (u / 2 ^ 40 / 1000000000)
    ns := BitVec.ofNat 32 (u / 2 ^ 40 % 1000000000)
    sub := BitVec.ofNat 40 (u % 2 ^ 40) }

/-- The time base moved by a signed amount. -/
def TimeBase.add (t : TimeBase) (d : Int) : TimeBase := t.at (t.total + d)

/-- FRAC: the top 16 of the 40 bits (R644). -/
def TimeBase.frac (t : TimeBase) : Nat := t.sub.toNat / 2 ^ 24

def State.freq (s : State) : Int := signedOf 32 (s.reg TIME_FREQ).toNat

/-- The rate of a slew in units of 2⁻⁴⁰ ns per CK_TB cycle: RATE ppm of 4 ns, with the sign of the amount left (R652, R682). -/
def State.slewRate (s : State) : Int :=
  let r := s.rd TIME_SLEW_CFG TIME_SLEW_CFG_RATE
  let ppm : Nat := if r = 0 then 1 else if 100 < r then 100 else r
  let k : Nat := ppm * 4 * 2 ^ 40 / 1000000
  if s.tb.slew = 0 then 0 else if s.tb.slew < 0 then -(k : Int) else (k : Int)

/-- FREQ plus the slew rate, held at the limits of FREQ (R653). -/
def State.heldRate (s : State) : Int :=
  let r := s.freq + s.slewRate
  if r < -(2 ^ 31) then -(2 ^ 31) else if 2 ^ 31 - 1 < r then 2 ^ 31 - 1 else r

def State.rateHeld (s : State) : Bool := s.heldRate != s.freq + s.slewRate

/-- A write that changes the rate: FREQ_CLAMP shows whether it is held at the limit, and is raised when it is (R653). -/
def State.rateWritten (s : State) (master : Nat) : State :=
  let s1 := s.wr TIME_STAT TIME_STAT_FREQ_CLAMP (b2n s.rateHeld)
  if s.rateHeld then s1.raise .time F_TIME_FREQ_CLAMP [0, master] else s1

/-- SLEWING and the remainder follow a slew (R652, R680, R685). -/
def State.slewShow (s : State) : State :=
  (s.wr TIME_STAT TIME_STAT_SLEWING (b2n (s.tb.slew != 0))).setReg TIME_SLEW_REM
    (BitVec.ofNat 32 (toBits 32 (Int.tdiv s.tb.slew (2 ^ 40))))

def State.tbValid (s : State) : State := s.wr TIME_STAT TIME_STAT_VALID 1

/-! ## Timed pins and timers after a step (R170, R675) -/

def State.tioAt (s : State) (n : Nat) : TioSt := SMap.get (fun _ => TioSt.reset) s.tio n

def State.setTio (s : State) (n : Nat) (x : TioSt) : State :=
  { s with tio := SMap.set (fun _ => TioSt.reset) s.tio n x }

/-- The pin is driven to a level. -/
def State.drive (s : State) (n : Nat) (level : Bool) : State :=
  (s.setTio n { s.tioAt n with level := level }).emit (.tio n level)

/-- An output edge that occurs late: LATE, TIO_LATE and its event (R674, R675). -/
def State.tioLate (s : State) (n : Nat) : State :=
  ((s.wr (TIO_STAT n) TIO_STAT_LATE 1).event .time 0x32 4 0 n).raise .time F_TIME_TIO_LATE [n]

/-- The SINGLE edge of a pin occurs (R670). -/
def State.singleEdge (s : State) (n : Nat) : State :=
  (s.setTio n { s.tioAt n with done := true }).drive n (s.flag (TIO_CFG n) TIO_CFG_LEVEL)

/-- PERIOD of a pin: smaller values act as 8 (R694). -/
def State.tioPeriod (s : State) (n : Nat) : Nat :=
  let p := (s.reg (TIO_PERIOD n)).toNat
  if p < 8 then 8 else p

/-- The index of the first PERIODIC leading edge at or after the present time. -/
def State.tioIndex (s : State) (n : Nat) : Nat :=
  let t0 := s.reg64 (TIO_TIME n)
  if s.now ≤ t0 then 0 else (s.now - t0 + s.tioPeriod n - 1) / s.tioPeriod n

/-- The scheduled time of a SINGLE edge lies in the past (R674). -/
def State.singlePast (s : State) (n : Nat) : Bool :=
  decide (s.reg64 (TIO_TIME n) * 4 + s.rd (TIO_CFG n) TIO_CFG_TQ < s.now * 4 + s.tb.sub.toNat / 2 ^ 38)

/-- A pin after a step (R675). -/
def State.tioStepped (s : State) (n : Nat) : State :=
  if !s.flag (TIO_CFG n) TIO_CFG_EN then s
  else
    let mode := s.rd (TIO_CFG n) TIO_CFG_MODE
    if mode = 1 then
      if !(s.tioAt n).done && s.singlePast n then (s.singleEdge n).tioLate n else s
    else if mode = 2 then s.setTio n { s.tioAt n with next := s.tioIndex n }
    else s

/-- A timer fires: FIRED, and a periodic timer adds its period (R168, R169). -/
def EtTimer.fire (t : EtTimer) (late : Bool) : EtTimer :=
  { t with
    fired := true
    late := t.late || late
    spent := !(t.periodic && t.period != 0)
    cmp := if t.periodic && t.period != 0 then (t.cmp + t.period) % 2 ^ 64 else t.cmp }

/-- The engine timers after a forward step from `before` (R170). -/
def Engine.timersStepped (e : Engine) (before now : Nat) : Engine :=
  { e with timers := e.timers.map fun t =>
      if t.en && !t.spent && t.absolute && decide (before < t.cmp) && decide (t.cmp ≤ now) then t.fire true else t }

/-- What a step changes elsewhere. -/
def State.afterStep (s : State) (before : Nat) : State :=
  let s1 := (List.range 16).foldl State.gateNow s
  let s2 := (List.range 16).foldl State.tioStepped s1
  let s3 : State := { s2 with pes := s2.pes.map fun e => e.timersStepped before s2.now }
  if s3.flag PSQ_TSTART_STAT PSQ_TSTART_STAT_ARMED && decide (s3.reg64 PSQ_TSTART_TIME ≤ s3.now) then s3.later .timedStart
  else s3

/-! ## Steps, slews and sets (R651, R652) -/

/-- A step by a signed amount in units of 2⁻⁴⁰ ns; `scaled` is the amount in scaled ns, `src` the source code of R676. -/
def State.stepBy (s : State) (d : Int) (scaled : Int) (src : Nat) : State :=
  let before := s.now
  let s1 := { s with tb := { s.tb.add d with slew := 0 } }
  let s2 := ((s1.slewShow.bump TIME_STAT TIME_STAT_STEPS 1).tbValid).wr TIME_STAT TIME_STAT_FREQ_CLAMP (b2n s1.rateHeld)
  (s2.event .time 0x30 4 (toBits 64 scaled) src).afterStep before

/-- A step by a signed count of 2⁻¹⁶ ns (R651). -/
def State.stepTime (s : State) (scaled : Int) (src : Nat) : State := s.stepBy (scaled * 2 ^ 24) scaled src

/-- A set of SEC and NS, FRAC becoming 0 (R651). -/
def State.setTime (s : State) (sec ns src : Nat) : State :=
  let target : Nat := (sec * 1000000000 + (if 999999999 < ns then 999999999 else ns)) * 2 ^ 40
  let d : Int := (target : Int) - (s.tb.total : Int)
  s.stepBy d (Int.fdiv d (2 ^ 24)) src

/-- A slew of a signed amount in ns (R652). -/
def State.startSlew (s : State) (ns : Int) (master : Nat) : State :=
  ((({ s with tb := { s.tb with slew := ns * 2 ^ 40 } }.slewShow).tbValid)).rateWritten master

/-- A frequency write (R644). -/
def State.setFreq (s : State) (w : Word) (master : Nat) : State := ((s.setReg TIME_FREQ w).tbValid).rateWritten master

/-- A slew has added its whole amount (R652). -/
def State.slewDone (s : State) : State :=
  let s1 := { s with tb := { s.tb.add s.tb.slew with slew := 0 } }
  s1.slewShow.wr TIME_STAT TIME_STAT_FREQ_CLAMP 0

/-! ## Who may steer (R649, R650) -/

/-- A source of steering. -/
inductive Steerer where
  | mw0 (port : Nat)
  | slot (l : Nat)
  | endpoint (master : Nat)
  | cvn
  deriving DecidableEq, Repr

/-- FCAP1 of R677. -/
def Steerer.code : Steerer → Nat
  | .mw0 p => 20 + p
  | .slot l => 0x10 + l
  | .endpoint m => m
  | .cvn => 31

def Steerer.slotNo : Steerer → Nat
  | .slot l => l
  | _ => 255

/-- The steering that TIME_CTRL.SRC accepts (R649). -/
def State.maySteer (s : State) (w : Steerer) : Bool :=
  let src := s.rd TIME_CTRL TIME_CTRL_SRC
  let assisted := s.rd (WADI_FUNC 0) WADI_FUNC_CUR == 1
  match w with
  | .mw0 _ => src == 0 || src == 3 || (src == 1 && assisted)
  | .slot l => src == 1 && !assisted && s.rd TIME_CTRL TIME_CTRL_SLOT == l
  | .endpoint _ => false
  | .cvn => src == 2

/-- Steering that is not applied (R650). -/
def State.steerRej (s : State) (w : Steerer) : State :=
  (s.bump TIME_CNT TIME_CNT_STEER_REJ 1).raiseFor .time F_TIME_STEER_REJ [0, w.code] w.slotNo

/-- Steering by a source: applied or rejected. -/
def State.steer (s : State) (w : Steerer) (apply : State → State) : State :=
  if s.maySteer w then apply s else s.steerRej w

/-- A lower-word holding value (R1034). -/
def State.held32 (s : State) (off : Nat) : Word := SMap.get (fun _ => 0) s.holding off

/-! ## Steering messages (R655, R656) -/

/-- The supervisor takes the message in mailbox k of its endpoint: the words are read, which clears FULL, and doorbell bit
k is cleared. The answer is the sender and the words. -/
def State.takeMsg (s : State) (k : Nat) : Nat × List Word × State :=
  let b := s.inbox 16 k
  let words := (List.range b.len).map fun i => SMap.get (fun _ => 0) b.words i
  (b.sender, words, (s.setInbox 16 k { b with full := false }).clearDb 16 (BitVec.ofNat 32 (2 ^ k)))

/-- OP of a message (R655). -/
def msgOp (ws : List Word) : Nat := bitsOf (ws.getD 0 0).toNat 31 24

/-- The length that an OP of R655 or R742 has; none for an unknown OP. -/
def opLen (op : Nat) : Option Nat :=
  if op = 1 ∨ op = 3 ∨ op = 4 ∨ op = 0x10 then some 2 else if op = 2 then some 3 else none

/-- The steering source that an endpoint is. -/
def State.steererOf (s : State) (ep : Nat) : Steerer := if ep < 16 then .slot ep else .endpoint (s.epMaster ep)

/-- A message of OP `op` waits in mailbox k. -/
def State.msgWaits (s : State) (k op : Nat) : Bool :=
  let b := s.inbox 16 k
  b.full && msgOp [SMap.get (fun _ => 0) b.words 0] == op && opLen op == some b.len

/-- The supervisor applies a steering message and rings doorbell 27 at the sender, or rejects it (R656). -/
def State.takeSteer (s : State) (k : Nat) (apply : State → List Word → State) : State :=
  let (sender, ws, s1) := s.takeMsg k
  if s1.maySteer (s1.steererOf sender) then (apply s1 ws).ringDb sender (BitVec.ofNat 32 (2 ^ 27))
  else s1.steerRej (s1.steererOf sender)

/-! ## Timestamps (R658, R659) -/

/-- Receive and transmit corrections of a mode and rate in units of 2⁻¹⁶ ns (R658), rounded down. -/
def tsCorr (mode rate : Nat) (fec : Bool) : Nat × Nat :=
  let c := fun (rx tx : Nat) => (rx * 65536 / 100, tx * 65536 / 100)
  if mode = 2 then c 15200 9600
  else if rate = 6 then (if fec then c 35850 9840 else c 14850 9200)
  else if rate = 4 then c 21040 12800
  else if rate = 3 then c 32640 20480
  else if rate = 2 then c 40640 28480
  else c 120640 108480

/-- A moment `d` units of 2⁻¹⁶ ns from now: seconds, nanoseconds and fraction. -/
def State.moment (s : State) (d : Int) : Nat × Nat × Nat :=
  let t := s.tb.add (d * 2 ^ 24)
  (t.sec.toNat, t.ns.toNat, t.frac)

/-- The mode, rate and FEC in force on a port. -/
def State.portMode (s : State) (n : Nat) : Nat × Nat × Bool :=
  (s.rd (MAC_STAT n) MAC_STAT_MODE, s.rd (MAC_STAT n) MAC_STAT_RATE, s.flag (MAC_STAT n) MAC_STAT_FEC_ACTIVE)

/-- The receive timestamp of a frame whose first bit reaches the sampler now. -/
def State.rxStamp (s : State) (n : Nat) : Nat × Nat × Nat :=
  let (m, r, f) := s.portMode n
  s.moment (-((tsCorr m r f).1 : Int) - signedOf 16 (s.rd (TIME_PORT_CORR n) TIME_PORT_CORR_RX_DELAY) * 16384)

/-- The transmit time at the reference plane of a frame that starts now (R662). -/
def State.txStamp (s : State) (n : Nat) : Nat × Nat × Nat :=
  let (m, r, f) := s.portMode n
  s.moment (((tsCorr m r f).2 : Int) + signedOf 16 (s.rd (TIME_PORT_CORR n) TIME_PORT_CORR_TX_DELAY) * 16384)

/-- A time as the ns view (R643). -/
def nsView (t : Nat × Nat × Nat) : Nat := (t.1 * 1000000000 + t.2.1) % 2 ^ 64

end Sys2Proof.Machine
end

