-- ==== Sys2Proof/Machine/CvnRegs.lean ====
section
/-! DEFINITION. Channels, slot tables and times of a Caravan cycle (R703 to R706, R713, R760, R761). -/

namespace Sys2Proof.Machine

def State.chan (s : State) (c : Nat) : CvnChan := SMap.get (fun _ => CvnChan.reset) s.cvn.chans c

def State.setChan (s : State) (c : Nat) (x : CvnChan) : State :=
  { s with cvn := { s.cvn with chans := SMap.set (fun _ => CvnChan.reset) s.cvn.chans c x } }

def State.onChan (s : State) (c : Nat) (f : CvnChan → CvnChan) : State := s.setChan c (f (s.chan c))

/-- Word k of entry e of bank b of channel c (R746). -/
def cvnOff (c b e k : Nat) : Nat := 0x341000 + 0x1000 * (2 * c + b) + 16 * e + 4 * k

/-- An entry as a 128-bit number. -/
def State.cvnRaw (s : State) (c b e : Nat) : Nat :=
  (s.reg (cvnOff c b e 0)).toNat + 2 ^ 32 * (s.reg (cvnOff c b e 1)).toNat + 2 ^ 64 * (s.reg (cvnOff c b e 2)).toNat +
    2 ^ 96 * (s.reg (cvnOff c b e 3)).toNat

/-- A bank header (R760). -/
structure CvnHdrEnt where
  valid : Bool
  mode : Nat
  guard : Nat
  tail : Nat
  openEnd : Nat
  openStart : Nat
  deriving DecidableEq, Repr

def State.cvnHeader (s : State) (c b : Nat) : CvnHdrEnt :=
  let v := s.cvnRaw c b 0
  ⟨bitOf v 127, bitsOf v 119 112, bitsOf v 106 96, bitsOf v 87 64, bitsOf v 55 32, bitsOf v 23 0⟩

/-- A slot entry (R761). -/
structure CvnEnt where
  valid : Bool
  tx : Bool
  nullStale : Bool
  gw : Bool
  slot : Nat
  act : Nat
  len : Nat
  owner : Nat
  bank : Nat
  offset : Nat
  gwSrc : Nat
  gwCh : Nat
  deriving DecidableEq, Repr

def cvnEntOf (v : Nat) : CvnEnt :=
  ⟨bitOf v 127, bitOf v 126, bitOf v 125, bitOf v 124, bitsOf v 121 108, bitsOf v 107 84, bitsOf v 83 73, bitsOf v 63 56,
    bitsOf v 55 50, bitsOf v 49 33, bitsOf v 32 25, bitsOf v 24 24⟩

def State.cvnEntry (s : State) (c b e : Nat) : CvnEnt := cvnEntOf (s.cvnRaw c b e)

/-- The bank in force. -/
def State.cvnBank (s : State) (c : Nat) : Nat := s.rd (CVN_CH_STAT c) CVN_CH_STAT_BANK

/-- CYCLE within its limits (R749). -/
def State.cvnCycle (s : State) : Nat :=
  let v := s.rd CVN_CYCLE CVN_CYCLE_CYCLE
  if v < 31250 then 31250 else if 10000000 < v then 10000000 else v

/-- The number of the present cycle, and the time since its start in ns (R703). -/
def State.cvnN (s : State) : Nat := s.now / s.cvnCycle
def State.cvnPos (s : State) : Nat := s.now % s.cvnCycle

/-- The wire time of a frame in tenths of a ns (R705); `slow` says 2.5 Gbit/s. -/
def wireTime (slow : Bool) (len : Nat) : Nat := (max len 28 + 56) * 8 * (if slow then 4 else 1)

def State.cvnSlow (s : State) (c : Nat) : Bool := s.flag (CVN_CH_STAT c) CVN_CH_STAT_RATE

/-- A queued frame of a Caravan port may start: the open window runs and the frame can end in it (R706). -/
def State.cvnMayQueue (s : State) (n ns : Nat) : Bool :=
  (s.chan (n / 2)).window && decide (s.cvnPos + ns ≤ (s.cvnHeader (n / 2) (s.cvnBank (n / 2))).openEnd)

end Sys2Proof.Machine
end

