-- ==== Sys2Proof/Machine/MacOps.lean ====
section
/-! DEFINITION. The operations of the MACs: link search, loss and reset, reception, and the edits and sending of frames
(file 10). -/

namespace Sys2Proof.Machine

/-! ## Counters (R550 to R552) -/

/-- Data counter i of port n rises by k, wrapping at 2^48. A change of bit 47 sets its MAC_CNT_HALF bit and, in host-assisted
mode of function 7, is reported (R551, R554). -/
def State.macCount (s : State) (n i k : Nat) : State :=
  let old := s.reg64 (MAC_DCNT n i)
  let new := (old + k) % 2 ^ 48
  let s1 := s.setReg64 (MAC_DCNT n i) new
  if bitOf old 47 == bitOf new 47 then s1
  else
    let s2 := s1.setReg (MAC_CNT_HALF n) (s1.reg (MAC_CNT_HALF n) ||| BitVec.ofNat 32 (2 ^ i))
    if s2.rd (WADI_FUNC 7) WADI_FUNC_CUR = 1 then
      s2.event (.mac n) 0x21 4 (n * 2 ^ 16 + 2 ^ i)
        (sumOf ((List.range 8).map fun j => b2n (bitOf (s2.reg64 (MAC_DCNT n j)) 47) * 2 ^ j))
    else s2

/-- Error counter j of port n in the order of R557. -/
def State.macErr (s : State) (n j : Nat) : State := s.bump32 (MAC_ECNT n j) 1

/-- The four counters of a good frame, from index `base` (R550). -/
def State.countFrame (s : State) (n base : Nat) (bs : List Byte) : State :=
  let s1 := (s.macCount n base bs.length).macCount n (base + 1) 1
  let d := destAddr bs
  if isBroadcast d then s1.macCount n (base + 3) 1 else if isGroup d then s1.macCount n (base + 2) 1 else s1

/-! ## Link search (R516 to R530) -/

/-- The order in which modes are tried (R516). -/
def searchOrder : List Nat := [1, 2, 3, 5, 4]

/-- The allowed modes of a port in search order. -/
def State.allowed (s : State) (n : Nat) : List Nat :=
  searchOrder.filter fun m => bitOf (s.rd (MAC_MODE n) MAC_MODE_ALLOW) m

/-- The mode tried after `m`: the walk starts again after the last. -/
def nextMode (ms : List Nat) (m : Nat) : Nat :=
  match (ms.dropWhile (· != m)).drop 1 with
  | x :: _ => x
  | [] => ms.headD 0

def State.macEn (s : State) (n : Nat) : Bool := s.flag (MAC_CTRL n) MAC_CTRL_EN

def State.portDown (s : State) (n : Nat) : Bool := s.flag (MAC_STAT n) MAC_STAT_PORT_DOWN

/-- An attempt in a mode starts. -/
def State.tryMode (s : State) (n m : Nat) : State :=
  (s.setMac n { s.mac n with trying := m }).wr (MAC_STAT n) MAC_STAT_MODE m

/-- MAC_STAT with no link and a RESULT. -/
def State.noLink (s : State) (n result : Nat) : State :=
  ((((s.wr (MAC_STAT n) MAC_STAT_LINK 0).wr (MAC_STAT n) MAC_STAT_NEG_DONE 0).wr (MAC_STAT n) MAC_STAT_FEC_ACTIVE 0).wr
    (MAC_STAT n) MAC_STAT_RATE 0).wr (MAC_STAT n) MAC_STAT_RESULT result

/-- The search starts from its first step, while EN is 1 and the port is not down (R516). -/
def State.startSearch (s : State) (n : Nat) : State :=
  if s.portDown n then s.noLink n 4
  else if !s.macEn n then (s.noLink n 3).tryMode n 0
  else
    let s1 := s.noLink n 0
    if s.flag (MAC_MODE n) MAC_MODE_CARAVAN || s.flag (MAC_MODE n) MAC_MODE_AN73 then s1.tryMode n 0
    else s1.tryMode n ((s.allowed n).headD 0)

/-- MAC_LINK (R555). -/
def State.linkEvent (s : State) (n : Nat) (up : Bool) : State :=
  let (m, r, f) := s.portMode n
  s.event (.mac n) 0x20 4 (n * 2 ^ 16 + b2n up * 2 ^ 15 + b2n f * 2 ^ 14 + m * 2 ^ 8 + r) 0

/-- The frame being sent ends at once (R524) or with a stomped CRC (R94). -/
def State.endSending (s : State) (n : Nat) (stomp : Bool) : State :=
  match (s.mac n).sending with
  | none => s
  | some x =>
    let s1 := (s.setMac n { s.mac n with sending := none }).collect x.fid
    if stomp then (s1.emit (.frame n (body x.bytes ++ stompedFcs (body x.bytes)) true)).macErr n 10 else s1.macErr n 11

/-- The link of a port goes down: the frame being sent ends, queued frames are dropped (R524, R614), a removal is complete
(R615). -/
def State.linkLost (s : State) (n : Nat) : State :=
  if !s.linkUp n then s
  else
    let s1 := (s.linkEvent n false).endSending n false
    let (k, s2) := (s1.wr (MAC_STAT n) MAC_STAT_LINK 0).dropPort n
    let s3 := (s2.setMac n { s2.mac n with paused := false }).wr (MAC_EYE n) MAC_EYE_VALID 0
    if s.flag (SWC_PORT_CFG n) SWC_PORT_CFG_REMOVE && !s.flag (SWC_PORT_OCC n) SWC_PORT_OCC_DRAINED then s3.drained n k else s3

/-- FCAP words of a MAC source (R556). -/
def State.macCaps (s : State) (n : Nat) : List Nat := [n + s.rd (MAC_STAT n) MAC_STAT_MODE * 256, 0, 0]

/-- A port reset (R528): the link and the search are lost, queued frames stay; the frame being sent is stomped (R94). -/
def State.portReset (s : State) (n : Nat) : State :=
  let s1 := s.endSending n true
  (s1.setMac n { s1.mac n with paused := false, negFail := false }).wr (MAC_EYE n) MAC_EYE_VALID 0 |>.startSearch n

/-- A port goes down until a warm reset (R36, R530). -/
def State.takePortDown (s : State) (n : Nat) : State :=
  let s1 := (s.linkLost n).endSending n false
  (s1.wr (MAC_STAT n) MAC_STAT_PORT_DOWN 1).noLink n 4

/-- The link is up in a mode at a rate (R522). -/
def State.linkCame (s : State) (n m rate : Nat) (fec : Bool) (word : Nat) : State :=
  let s1 := (((((s.wr (MAC_STAT n) MAC_STAT_LINK 1).wr (MAC_STAT n) MAC_STAT_NEG_DONE 1).wr (MAC_STAT n) MAC_STAT_FEC_ACTIVE
    (b2n fec)).wr (MAC_STAT n) MAC_STAT_RATE rate).wr (MAC_STAT n) MAC_STAT_RESULT 1).tryMode n m
  ((s1.setMac n { s1.mac n with negFail := false }).wr (MAC_PARTNER n) MAC_PARTNER_WORD word).linkEvent n true

/-- The rates a mode can run at (R513). -/
def rateOk (m rate : Nat) : Bool :=
  if m = 1 then rate == 6 else if m = 2 then decide (1 ≤ rate ∧ rate ≤ 6) else if m = 3 then rate == 4
  else if m = 4 then decide (1 ≤ rate ∧ rate ≤ 3) else if m = 5 then rate == 3 else false

/-! ## Redundancy (R543 to R546, R616) -/

def State.redRole (s : State) (n : Nat) : Nat :=
  let r := s.rd (MAC_RED_CFG n) MAC_RED_CFG_ROLE
  if r = 3 then 0 else r

/-- The partner of a port in a consistent pair (R543). -/
def State.pairOf (s : State) (n : Nat) : Option Nat :=
  let p := s.rd (MAC_RED_CFG n) MAC_RED_CFG_PAIR
  if s.redRole n ≠ 0 ∧ p ≠ n ∧ s.rd (MAC_RED_CFG p) MAC_RED_CFG_PAIR = n ∧ s.redRole p = s.redRole n ∧
      s.rd (MAC_RED_CFG p) MAC_RED_CFG_LAN ≠ s.rd (MAC_RED_CFG n) MAC_RED_CFG_LAN then some p
  else none

/-- The lower-numbered port of a pair holds its counter (R565). -/
def lowerOf (n p : Nat) : Nat := if n < p then n else p

/-- Duplicate discard (R616): whether the frame is a duplicate, and the state with its entry made. -/
def State.duplicate (s : State) (n : Nat) (tpid : Nat) (bs : List Byte) : Bool × State :=
  match s.pairOf n with
  | none => (false, s)
  | some p =>
    if s.rd (WADI_FUNC 6) WADI_FUNC_CUR = 1 ∨ !(prpValid tpid bs || hsrValid tpid bs) then (false, s)
    else
      let pair := lowerOf n p
      let f := s.rd SWC_DUP_CFG SWC_DUP_CFG_FORGET
      let life := (if f = 0 then 1 else f) * 1000000
      let (a, q) := (srcAddr bs, redSeqOf tpid bs)
      if s.swc.dup.any fun d => d.pair == pair && d.addr == a && d.seq == q && decide (s.now < d.time + life) then
        (true, s.bump SWC_DUP_CFG SWC_DUP_CFG_DISCARD 1)
      else
        let mine := s.swc.dup.filter fun d => d.pair == pair
        let rest := if 1024 ≤ mine.length then
            s.swc.dup.erase (mine.headD ⟨0, 0, 0, 0⟩)
          else s.swc.dup
        (false, { s with swc := { s.swc with dup := rest ++ [⟨pair, a, q, s.now⟩] } })

/-! ## Reception (R29, R539, R542, R547 to R549, R587) -/

/-- MAXLEN within its limits (R562). -/
def State.maxLen (s : State) (n : Nat) : Nat :=
  let v := s.rd (MAC_CFG n) MAC_CFG_MAXLEN
  if v < 1518 then 1518 else if 9216 < v then 9216 else v

/-- The error kind of a received frame (R547): its error counter and whether PASS_BAD may deliver it. -/
def State.rxKind (s : State) (n : Nat) (bs : List Byte) (aborted code : Bool) : Option (Nat × Bool) :=
  let len := bs.length
  let sum := bs.drop (len - 4)
  if aborted then some (6, false)
  else if 9216 < len then some (4, false)
  else if code then some (1, decide (60 ≤ len))
  else if len < 64 then some (2, decide (60 ≤ len))
  else if sum = stompedFcs (body bs) then some (5, true)
  else if sum ≠ fcs (body bs) then some (0, true)
  else if s.maxLen n < len then some (3, true)
  else none

/-- The classified tag of a received frame (R539): tagged, tag control information, VID, PCP, DEI. -/
def State.classTag (s : State) (n : Nat) (bs : List Byte) : Bool × Nat × Nat × Nat × Bool :=
  let v := MAC_VLAN n
  let pvid := s.rd v MAC_VLAN_PVID
  if isTagged (s.rd v MAC_VLAN_TPID) bs then
    let t := be bs 14 2
    (true, t, if t % 4096 = 0 then pvid else t % 4096, t / 8192, bitOf t 12)
  else (false, s.rd v MAC_VLAN_PCP * 8192 + s.rd v MAC_VLAN_DEI * 4096 + pvid, pvid, s.rd v MAC_VLAN_PCP, s.flag v MAC_VLAN_DEI)

/-- The frame's gate for TQq of port n is open and the transmitter is free (R607). -/
def State.readyNow (s : State) (n q : Nat) : Bool :=
  s.linkUp n && (s.mac n).sending.isNone && !(s.mac n).paused && (s.tq n q).isEmpty && bitOf (s.gate n).gates q

/-- A bad frame's copies that had started cut-through are ended with a stomped CRC (R535, R607, R609). -/
def State.stompCopies (s : State) (n : Nat) (bs : List Byte) (d : Dest) : State :=
  let ct := s.rd SWC_CFG SWC_CFG_CT_START
  let need := 128 * (if ct = 0 then 1 else ct)
  if bs.length ≤ need then s
  else
    d.ports.foldl (fun t e =>
      if t.flag (SWC_PORT_CFG e.1) SWC_PORT_CFG_CT_EN && decide ((t.portMode e.1).2.1 ≤ (t.portMode n).2.1) &&
          t.readyNow e.1 e.2 && t.admitPort e.1 e.2 (cellsOf bs.length) then
        (t.emit (.frame e.1 (body bs ++ stompedFcs (body bs)) true)).macErr e.1 10
      else t) s

/-- The forwarding lookup of a frame that enters from a port; `ecc` names an entry that shows an ECC error (R586). -/
def State.classify (s : State) (n : Nat) (bs : List Byte) (vid pcp : Nat) (ecc : Option (Nat × Ecc)) : Dest × State :=
  let k := forwardKey (s.rd (SWC_PORT_CFG n) SWC_PORT_CFG_KSEL) (s.rd (MAC_VLAN n) MAC_VLAN_TPID) vid n bs
  let s1 := match ecc with | some (i, e) => s.fctEcc i e | none => s
  let d := match s1.lookup k n with | some (i, e) => s1.destOf i e n pcp | none => s1.missOf n pcp
  (d, match ecc with | some (i, e) => s1.fctRewrite i e | none => s1)

/-- A PAUSE frame: its pause time (R549). -/
def pauseTime (tpid : Nat) (bs : List Byte) : Option Nat :=
  let p := typePos tpid bs
  if be bs p 2 = 0x8808 ∧ be bs (p + 2) 2 = 1 then some (be bs (p + 4) 2) else none

/-- A frame that survived its checks: classified, stored and queued, or dropped (R29, R580, R605). -/
def State.admitRx (s : State) (n : Nat) (bs : List Byte) (err : Bool) (ecc : Option (Nat × Ecc)) : State :=
  let (tagged, tci, vid, pcp, dei) := s.classTag n bs
  let s0 := if !err && s.flag (SWC_PORT_CFG n) SWC_PORT_CFG_LEARN && !isGroup (srcAddr bs) then s.learn vid (srcAddr bs) n else s
  let (d0, s1) := s0.classify n bs vid pcp ecc
  let d := if err then { d0 with ports := [] } else d0
  let s2 := if err then s1.stompCopies n bs d0 else s1
  if d.isEmpty then s2.bump32 (SWC_PORT_RDROP n) 1
  else
    let t := s2.rxStamp n
    let (fid, s3) := s2.store
      { bytes := bs, src := 0, port := n, ring := none, slot := none, tsNs := nsView t, tsFrac := t.2.2, err := err,
        bad := false, redelivered := false, entry := d.entry, tagged := tagged, tci := tci, vid := vid, pcp := pcp, dei := dei,
        gen := s2.rd SWC_FCT_FENCE SWC_FCT_FENCE_GEN, op := d.op, opVid := d.opVid, oneStep := false, report := none,
        txSlot := none, redSeq := none }
    s3.deliver fid d

/-- A frame received on port n whose link is up. -/
def State.rxFrame (s : State) (n : Nat) (bs : List Byte) (aborted code : Bool) (ecc : Option (Nat × Ecc)) : State :=
  let tpid := s.rd (MAC_VLAN n) MAC_VLAN_TPID
  match s.rxKind n bs aborted code with
  | some (j, may) =>
    let s1 := s.macErr n j
    if may && s.flag (MAC_CFG n) MAC_CFG_PASS_BAD then s1.admitRx n bs true ecc
    else if aborted || 9216 < bs.length then s1
    else
      let (_, _, vid, pcp, _) := s1.classTag n bs
      s1.stompCopies n bs (s1.classify n bs vid pcp none).1
  | none =>
    let s1 := s.countFrame n 0 bs
    if etherType tpid bs = 0x8808 then
      let s2 := s1.macErr n 9
      match pauseTime tpid bs with
      | some t => if s.flag (MAC_CFG n) MAC_CFG_PAUSE_RX then s2.setMac n { s2.mac n with paused := t != 0 } else s2
      | none => s2
    else
      let (tagged, tci, _) := s1.classTag n bs
      let acc := s.rd (MAC_CFG n) MAC_CFG_ACCEPT
      let own := tagged && tci % 4096 != 0
      if (acc = 1 && !own) || (acc = 2 && own) then s1.macErr n 7
      else
        let b := body bs
        let s2 := if (s.redRole n = 2 && !hsrValid tpid b) || (s.redRole n = 1 && prpBad tpid b) then s1.macErr n 8 else s1
        let (dup, s3) := s2.duplicate n tpid b
        if dup then s3 else s3.admitRx n bs false ecc

/-! ## Sending (R532 to R545, R662 to R668) -/

/-- The time until the gate of TQq closes next: none when it does not close (R612). -/
def State.gateRemain (s : State) (n q : Nat) : Option Nat :=
  let base := s.reg64 (SWC_GATE_BASE n)
  if !s.flag (SWC_GATE_CFG n) SWC_GATE_CFG_EN ∨ s.now < base then none
  else
    let cyc := s.gateCycle n
    let l := s.gateList n (s.rd (SWC_GATE_CFG n) SWC_GATE_CFG_ACTIVE)
    let ends := (l.dropLast.foldl (fun (a : List (Nat × Nat) × Nat) e => (a.1 ++ [(e.1, a.2 + e.2)], a.2 + e.2)) ([], 0)).1 ++
      (match l.getLast? with | some e => [(e.1, cyc)] | none => [])
    let pos := (s.now - base) % cyc
    let later := (ends.filter fun e => decide (pos < e.2)) ++ ends.map fun e => (e.1, e.2 + cyc)
    let starts := pos :: later.map Prod.snd
    ((later.zip starts).find? fun x => !bitOf x.1.1 q).map fun x => x.2 - pos

/-- The time in ns that a frame of `len` bytes and its preamble take at a rate code, rounded up. -/
def sendTime (rate len : Nat) : Nat :=
  let b := (len + 8) * 8
  if rate = 6 then (b + 9) / 10 else if rate = 5 then (b + 4) / 5 else if rate = 4 then (b * 2 + 4) / 5
  else if rate = 3 then b else if rate = 2 then b * 10 else b * 100

/-- The queue whose oldest frame starts when the transmitter is free (R532, R612). Gates have no effect on a
Caravan port, whose open window decides (R536, R706). -/
def State.nextQueue (s : State) (n : Nat) : Option Nat :=
  [7, 6, 5, 4, 3, 2, 1, 0].find? fun q =>
    match s.tq n q with
    | [] => false
    | e :: _ =>
      let ns := sendTime (s.portMode n).2.1 (((s.frame e.fid).map (·.bytes.length)).getD 0)
      if s.flag (MAC_MODE n) MAC_MODE_CARAVAN then s.cvnMayQueue n ns
      else
        (bitOf (s.gate n).gates q &&
          (!s.flag (SWC_GATE_CFG n) SWC_GATE_CFG_GUARD ||
            match s.gateRemain n q with
            | none => true
            | some t => decide (ns ≤ t)))

/-- The PRP or HSR sequence number of a frame on a pair: taken once, from the pair's counter (R544). -/
def State.redNumber (s : State) (fid : Nat) (f : Frame) (pair : Nat) : Nat × State :=
  match f.redSeq with
  | some (p, q) => if p = pair then (q, s) else (s.rd (MAC_RED_SEQ pair) MAC_RED_SEQ_SEQ, s)
  | none =>
    let q := s.rd (MAC_RED_SEQ pair) MAC_RED_SEQ_SEQ
    (q, (s.wr (MAC_RED_SEQ pair) MAC_RED_SEQ_SEQ (q + 1)).setFrame fid (some { f with redSeq := some (pair, q) }))

/-- Step 2 of R537. -/
def State.redEdit (s : State) (n fid : Nat) (f : Frame) (tpid : Nat) (b : List Byte) : List Byte × State :=
  let valid := prpValid tpid b || hsrValid tpid b
  match s.pairOf n with
  | some p =>
    if s.flag (MAC_RED_CFG n) MAC_RED_CFG_INSERT && f.src != 0 && !valid then
      let (q, s1) := s.redNumber fid f (lowerOf n p)
      let lan := s.rd (MAC_RED_CFG n) MAC_RED_CFG_LAN
      (if s.redRole n = 1 then prpInsert tpid q lan b else hsrInsert tpid q lan b, s1)
    else (b, s)
  | none => if s.redRole n = 0 && s.flag (MAC_RED_CFG n) MAC_RED_CFG_STRIP then (redStrip tpid b, s) else (b, s)

/-- The transparent clock amount of a frame from its ingress port to port n (R668). -/
def State.tcAmount (s : State) (n : Nat) (f : Frame) (b : List Byte) (h : Nat) (t : Nat × Nat × Nat) : Option Int :=
  let e := s.rd (TIME_PORT_CFG n) TIME_PORT_CFG_TC
  let i := s.rd (TIME_PORT_CFG f.port) TIME_PORT_CFG_TC
  let on := f.src == 0 && !f.oneStep && (e == 1 || e == 2) && (i == 1 || i == 2)
  let sync := ptpType b h == 0 && !ptpTwoStep b h
  let dwell : Int := ((nsView t : Int) - (f.tsNs : Int)) * 65536 + (t.2.2 : Int) - (f.tsFrac : Int)
  if on && e == 1 && (sync || ptpType b h == 1) then some dwell
  else if on && e == 2 && sync then some (dwell + ((s.reg (TIME_PORT_LINKDLY f.port)).toNat : Int))
  else none

/-- Step 4 of R537: one-step insertion or transparent clock correction at transmit time t. The answer: the body, whether a
time was inserted, whether the frame is timed. -/
def State.timeEdit (s : State) (n : Nat) (f : Frame) (tpid : Nat) (b : List Byte) (t : Nat × Nat × Nat) :
    List Byte × Bool × Bool × State :=
  match ptpAt tpid b with
  | none => (b, false, f.oneStep || f.report.isSome, s)
  | some (h, udp) =>
    let sync := ptpType b h == 0 && !ptpTwoStep b h
    if f.oneStep then
      if !sync then (b, false, true, s)
      else if s.flag (TIME_PORT_CFG n) TIME_PORT_CFG_ONESTEP_EN && decide (h + 44 ≤ 384) then
        (ptpInsert b udp h t.1 t.2.1 t.2.2, true, true, s)
      else (b, false, true, (s.bump TIME_CNT TIME_CNT_ONESTEP_SKIP 1).raise .time F_TIME_ONESTEP_SKIP [n])
    else
      match s.tcAmount n f b h t with
      | some d => (ptpCorrect b udp h d, false, true, s)
      | none => (b, false, f.report.isSome, s)

/-- The oldest frame of queue q of port n starts, with its edits (R535 to R538, R662). `drift` is the measured transmit time
less the predicted one, in units of 2⁻¹⁶ ns. -/
def State.startFrame (s : State) (n q : Nat) (drift : Int) : State :=
  match s.tq n q with
  | [] => s
  | e :: rest =>
    let s0 := s.setTq n q rest
    match s0.frame e.fid with
    | none => s0
    | some f =>
      let tpid := s.rd (MAC_VLAN n) MAC_VLAN_TPID
      let b1 := tagEdit f.op tpid f.opVid f.pcp f.dei (body f.bytes)
      let (b2, s1) := s0.redEdit n e.fid f tpid b1
      let b3 := if e.mark then (if (ecnOf tpid b2).isSome then setCe tpid b2 else setDei tpid b2) else b2
      let t := s1.txStamp n
      let (b4, inserted, timed, s2) := s1.timeEdit n f tpid b3 t
      let b5 := b4 ++ List.replicate (60 - b4.length) 0
      let out := if b5 = body f.bytes then f.bytes else withFcs b5
      if f.err || f.bad || decide (9216 < out.length) then (s2.macErr n 12).collect e.fid
      else
        let miss := timed && decide (16384 < drift.natAbs)
        let x := ((nsView t * 65536 + t.2.2 : Nat) : Int) + drift
        let m := if miss then (x.toNat / 65536, x.toNat % 65536) else (nsView t, t.2.2)
        let s3 := s2.setMac n { s2.mac n with sending := some ⟨e.fid, out, timed, m.1, m.2, inserted⟩ }
        if miss then s3.raise .time F_TIME_ONESTEP_MISS [n] else s3

/-- An entry for the transmit timestamp queue of a slot (R667). -/
def State.pushTxts (s : State) (l : Nat) (x : TxTs) : State :=
  let (q, lost) := SMap.get (fun _ => ([], 0)) s.swc.txts l
  let v := if 16 ≤ q.length then (q, stopAt 63 (lost + 1)) else (q ++ [x], lost)
  { s with swc := { s.swc with txts := SMap.set (fun _ => ([], 0)) s.swc.txts l v } }

/-- A frame copy has been sent (R573): counted, its time reported (R666, R667), its cells freed after the last copy. A frame
that a buffer error marked while it was sent ends with a stomped CRC (R609). -/
def State.endFrame (s : State) (n : Nat) (bufUe : Bool) : State :=
  match (s.mac n).sending with
  | none => s
  | some x =>
    if bufUe then
      let s1 := match s.frame x.fid with | some f => s.setFrame x.fid (some { f with bad := true }) | none => s
      (s1.endSending n true).raise .mem F_MEM_UE []
    else
      let s1 := (s.emit (.frame n x.bytes false)).countFrame n 4 x.bytes
      let s2 := s1.setMac n { s1.mac n with sending := none }
      match s2.frame x.fid with
      | none => s2
      | some f =>
        let s3 := match f.report with
          | some (r, i, p) =>
            if p = n then
              (s2.setFrame x.fid (some { f with report := none })).ringComplete r i stOk
                (b2n x.timed * 2 ^ 24 + x.frac / 0x4000 * 2 ^ 22 + n * 2 ^ 16) x.ns
            else s2
          | none => s2
        let s4 := match f.txSlot with
          | some l =>
            let tpid := s.rd (MAC_VLAN n) MAC_VLAN_TPID
            let b := body x.bytes
            let seq := match ptpAt tpid b with | some (h, _) => ptpSeq b h | none => 0
            if x.timed && f.oneStep then s3.pushTxts l ⟨x.ns, x.frac / 0x4000, n, x.inserted, seq⟩ else s3
          | none => s3
        s4.collect x.fid

end Sys2Proof.Machine
end

