-- ==== Sys2Proof/Machine/MdbOps.lean ====
section
/-! DEFINITION. The operations of the multi-drop buses: message RAM, transmit order, reception, error confinement, the window,
and the bus crossbar (file 14). Bus n is the register instance n. -/

namespace Sys2Proof.Machine

def State.bus (s : State) (n : Nat) : BusSt := SMap.get (fun _ => BusSt.reset) s.buses n

def State.setBus (s : State) (n : Nat) (b : BusSt) : State :=
  { s with buses := SMap.set (fun _ => BusSt.reset) s.buses n b }

def BusSt.buf (b : BusSt) (i : Nat) : TBuf := SMap.get (fun _ => TBuf.empty) b.bufs i

def BusSt.setBuf (b : BusSt) (i : Nat) (x : TBuf) : BusSt := { b with bufs := SMap.set (fun _ => TBuf.empty) b.bufs i x }

/-- The slot that holds a bus (R776). -/
def State.busSlot (s : State) (n : Nat) : Option Nat := (List.range 16).find? fun l => (s.slot l).bound && bitOf (s.slot l).mdb n

/-- A header word of a frame. -/
def hdrW (h : List Word) (i : Nat) : Nat := (h.getD i 0).toNat

def hdrFmt (h : List Word) : Nat := bitsOf (hdrW h 0) 31 30
def hdrIde (h : List Word) : Nat := bitsOf (hdrW h 0) 29 29
def hdrId (h : List Word) : Nat := bitsOf (hdrW h 0) 28 0
def hdrRtr (h : List Word) : Nat := bitsOf (hdrW h 1) 31 31
def hdrLen (h : List Word) : Nat := bitsOf (hdrW h 1) 10 0

/-- LEN is one that R771 gives for the format. -/
def lenOk (h : List Word) : Bool :=
  let n := hdrLen h
  if hdrFmt h = 0 then decide (n ≤ 8)
  else if hdrFmt h = 1 then decide (n ≤ 8) || [12, 16, 20, 24, 32, 48, 64].contains n
  else if hdrFmt h = 2 then decide (1 ≤ n) else false

/-- DMAX in bytes (R797). -/
def State.dmax (s : State) (n : Nat) : Nat :=
  let d := s.rd (MDB_RAM_CFG n) MDB_RAM_CFG_DMAX
  if d = 0 then 8 else if d = 1 then 64 else 2048

/-- What arbitration compares: identifier, RTR or SRR, IDE, the extended part and its RTR (log entry 6). The lowest wins. -/
def arbKey (h : List Word) : Nat :=
  let id := hdrId h
  if hdrIde h = 1 then id / 2 ^ 18 * 2 ^ 21 + 2 ^ 20 + 2 ^ 19 + id % 2 ^ 18 * 2 + hdrRtr h
  else id / 2 ^ 18 * 2 ^ 21 + hdrRtr h * 2 ^ 20

/-- FCAP words of an MDB source (R791). -/
def mdbCaps (n what who : Nat) : List Nat := [n * 2 ^ 16 + what % 2 ^ 16, who, 0]

/-! ## Events and the error state (R778, R779, R790) -/

def State.mdbEst (s : State) (n : Nat) : Nat := s.rd (MDB_STAT n) MDB_STAT_ESTATE
def State.mdbMode (s : State) (n : Nat) : Nat := s.rd (MDB_STAT n) MDB_STAT_MODE_ACT

/-- MW_EVENT bit [2]. -/
def State.busChanged (s : State) (n : Nat) : State := s.setBus n { s.bus n with stateEv := true }

/-- MDB_STATE (R790). -/
def State.mdbState (s : State) (n : Nat) : State :=
  let w := s.reg (MDB_STAT n)
  (s.busChanged n).event (.mdb n) 0x40 5
    (n * 2 ^ 32 + bitsOf w.toNat 28 25 * 2 ^ 25 + bitsOf w.toNat 23 16 * 2 ^ 16 + bitsOf w.toNat 8 0) 0

/-- The error counters take new values; WARN and the error state follow, as ISO 11898-1 requires (R778; log entry 6). A
controller in bus-off or recovering keeps its state. -/
def State.setErrs (s : State) (n tec rec : Nat) : State :=
  let old := s.mdbEst n
  let warn := b2n (decide (96 ≤ tec) || decide (96 ≤ rec))
  let est := if 2 ≤ old then old else if 256 ≤ tec then 2 else if 128 ≤ tec ∨ 128 ≤ rec then 1 else 0
  let oldWarn := s.rd (MDB_STAT n) MDB_STAT_WARN
  let s1 := (((s.wr (MDB_STAT n) MDB_STAT_TEC (stopAt 511 tec)).wr (MDB_STAT n) MDB_STAT_REC (stopAt 255 rec)).wr (MDB_STAT n)
    MDB_STAT_WARN warn).wr (MDB_STAT n) MDB_STAT_ESTATE est
  let s2 := if est ≠ old ∨ warn ≠ oldWarn then s1.mdbState n else s1
  let s3 := if est = 1 ∧ old = 0 then s2.raiseFor (.mdb n) F_MDB_ERR_PASSIVE (mdbCaps n 0 31) n else s2
  if est = 2 ∧ old < 2 then s3.raiseFor (.mdb n) F_MDB_BUS_OFF (mdbCaps n 0 31) n else s3

/-- A buffer completes with a status (R776, R777). -/
def State.bufDone (s : State) (n i status time : Nat) : State :=
  let b := s.bus n
  let wasHeld := (b.buf i).held
  let b1 := b.setBuf i { b.buf i with pending := false, held := false, abort := false, abortCmds := [] }
  let b2 := if 32 ≤ b1.doneQ.length then b1 else { b1 with doneQ := b1.doneQ ++ [⟨status, i, time⟩] }
  let s1 := (b.buf i).abortCmds.foldl (fun t ring => t.finish ring 0x90 stOk status) (s.setBus n b2)
  if wasHeld then s1.wr (MDB_STAT n) MDB_STAT_HELD 0 else s1

/-- The mode in force follows MDBn_CTRL.MODE once no frame is being sent and the bus is awake and served (R793, R807). -/
def State.modeSettle (s : State) (n : Nat) : State :=
  let b := s.bus n
  let m := s.rd (MDB_CTRL n) MDB_CTRL_MODE
  if b.asleep then (if b.sending.isSome then s else s.wr (MDB_STAT n) MDB_STAT_MODE_ACT 4)
  else if b.sending.isSome then s
  else s.wr (MDB_STAT n) MDB_STAT_MODE_ACT (if 4 ≤ m then 0 else m)

/-- The frame being sent ends without success: `retry` says whether it may be sent again (R773, R777). -/
def State.sendEnds (s : State) (n : Nat) : State :=
  let b := s.bus n
  match b.sending with
  | none => s
  | some (i, t, excl) =>
    let s1 := s.setBus n { b with sending := none }
    let s2 := if (b.buf i).abort then s1.bufDone n i 1 t
      else if excl || s.flag (MDB_CTRL n) MDB_CTRL_ONE_SHOT then s1.bufDone n i 2 t
      else s1
    s2.modeSettle n

/-! ## Transmission (R772, R773) -/

/-- A buffer that a Tx trigger names is sent only at its trigger while TT_EN is 1. -/
def State.byTrigger (s : State) (n i : Nat) : Bool :=
  s.flag (MDB_CTRL n) MDB_CTRL_TT_EN && (List.range 64).any fun t =>
    let w := s.reg64 (MDB_TRG n t)
    bitsOf w 63 62 == 0 && bitOf w 61 && bitsOf w 50 46 == i

/-- The format of a buffer's frame is allowed (R793). -/
def State.fmtAllowed (s : State) (n : Nat) (h : List Word) : Bool :=
  hdrFmt h == 0 || (hdrFmt h == 1 && s.flag (MDB_CTRL n) MDB_CTRL_FD_EN) || (hdrFmt h == 2 && s.flag (MDB_CTRL n) MDB_CTRL_XL_EN)

/-- The buffer that goes next: one held at bus-off first, else the pending one that would win arbitration (R772, R779). -/
def State.nextBuf (s : State) (n : Nat) : Option Nat :=
  let b := s.bus n
  let can := (List.range 32).filter fun i => (b.buf i).pending && !s.byTrigger n i && s.fmtAllowed n (b.buf i).hdr
  match can.find? fun i => (b.buf i).held with
  | some i => some i
  | none => can.foldl (fun (best : Option Nat) i =>
      match best with
      | none => some i
      | some j => if arbKey (b.buf i).hdr < arbKey (b.buf j).hdr then some i else some j) none

/-- The controller may send: NORMAL mode, served, not in bus-off or recovery, nothing being sent. -/
def State.canSend (s : State) (n : Nat) : Bool :=
  s.mdbMode n == 1 && !(s.bus n).shed && decide (s.mdbEst n < 2) && (s.bus n).sending.isNone

/-- Buffer i starts on the bus now (R775). -/
def State.sendBuf (s : State) (n i : Nat) (excl : Bool) (ecc : Ecc) : State :=
  let b := s.bus n
  let s1 := s.setBus n { b with sending := some (i, s.now, excl) }
  match ecc with
  | .ok => s1
  | .single => s1.raiseFor (.mdb n) F_MDB_RAM_CE (mdbCaps n i 31) n
  | .double => (s.bufDone n i 3 s.now).raiseFor (.mdb n) F_MDB_RAM_UE (mdbCaps n i 31) n

/-- The frame words and data of a buffer. -/
def TBuf.bytes (x : TBuf) : List Byte := (List.range (hdrLen x.hdr)).map fun k => SMap.get (fun _ => 0) x.data k

/-- REQUEST of a buffer (R776, R777). -/
def State.txRequest (s : State) (n i : Nat) : State :=
  let b := s.bus n
  let x := b.buf i
  if x.pending then s
  else if !lenOk x.hdr || decide (s.dmax n < hdrLen x.hdr) then s.bufDone n i 4 s.now
  else s.setBus n (b.setBuf i { x with pending := true })

/-- ABORT of a buffer (R777, R779). -/
def State.txAbort (s : State) (n i : Nat) : State :=
  let b := s.bus n
  let x := b.buf i
  let now := match b.sending with | some (j, _, _) => j == i | none => false
  if !x.pending then s
  else if now then s.setBus n (b.setBuf i { x with abort := true })
  else s.bufDone n i 1 s.now

/-! ## Reception (R774, R782) -/

/-- An enabled filter matches a header (R774). -/
def State.fltMatch (s : State) (n f : Nat) (h : List Word) : Bool :=
  let m := s.rd (MDB_FLT_MASK n f) MDB_FLT_MASK_MASK
  s.flag (MDB_FLT_ID n f) MDB_FLT_ID_EN && s.rd (MDB_FLT_ID n f) MDB_FLT_ID_FMT == hdrFmt h &&
    s.rd (MDB_FLT_MASK n f) MDB_FLT_MASK_IDE == hdrIde h && (hdrId h &&& m) == (s.rd (MDB_FLT_ID n f) MDB_FLT_ID_ID &&& m)

/-- Store a received frame (R774). -/
def State.storeRx (s : State) (n : Nat) (h : List Word) (data : List Byte) : State :=
  let hits := (List.range 32).filter fun f => s.fltMatch n f h
  if hits.isEmpty then s
  else
    let b := s.bus n
    let b1 := { b with matched := b.matched ++ hits }
    if s.rd (MDB_RAM_CFG n) MDB_RAM_CFG_RX_DEPTH ≤ b.fifo.length ∨ s.dmax n < data.length then
      (s.setBus n b1).bump (MDB_CNT n) MDB_CNT_RX_OVF 1
    else s.setBus n { b1 with fifo := b.fifo ++ [⟨h, data, s.now⟩] }

/-- The next valid candidate after `c`, and whether a full pass ended (R782). -/
def State.nextCand (s : State) (n : Nat) (c : Option Nat) : Option Nat × Bool :=
  let valid := (List.range 8).filter fun k => bitOf (s.reg (MDB_DET n k)).toNat 0
  match c with
  | none => (valid.head?, false)
  | some i =>
    match valid.find? fun k => decide (i < k) with
    | some k => (some k, false)
    | none => (valid.head?, true)

/-- A frame received without error in DETECT mode counts toward CONFIRM (R782). -/
def State.detectGood (s : State) (n : Nat) : State :=
  let b := s.bus n
  match b.cand with
  | none => s
  | some c =>
    let k := s.rd (MDB_DET_CFG n) MDB_DET_CFG_CONFIRM
    let need := if k = 0 then 1 else k
    if b.good + 1 < need then s.setBus n { b with good := b.good + 1 }
    else
      let nbt := s.reg (MDB_DET n c) &&& 0xFFFFFFFC
      let mode := if s.flag (MDB_DET_CFG n) MDB_DET_CFG_THEN_NORMAL then 1 else 2
      let s1 := (((s.setBus n { b with cand := none, good := 0 }).setReg (MDB_NBT n) nbt).wr (MDB_DET_CFG n) MDB_DET_CFG_DONE
        1).wr (MDB_DET_CFG n) MDB_DET_CFG_CHOSEN c
      ((s1.wr (MDB_CTRL n) MDB_CTRL_MODE mode).modeSettle n).event (.mdb n) 0x42 5
        (n * 2 ^ 32 + c * 2 ^ 24 + s.rd (MDB_DET_CFG n) MDB_DET_CFG_PASSES * 2 ^ 16) nbt.toNat

/-- An error in the nominal phase in DETECT mode moves to the next valid candidate (R782). -/
def State.detectBad (s : State) (n : Nat) : State :=
  let b := s.bus n
  let (c, pass) := s.nextCand n b.cand
  let s1 := s.setBus n { b with cand := c, good := 0 }
  if pass then s1.bump (MDB_DET_CFG n) MDB_DET_CFG_PASSES 1 else s1

/-! ## Identifier clash (R781) -/

/-- A clash event at the identifier of a header: three within 100 ms are a clash. -/
def State.clashEvent (s : State) (n : Nat) (h0 : Word) : State :=
  let b := s.bus n
  let key := fun (c : Clash) => c.hdr0 == h0
  let old := match b.clashes.find? key with | some c => c.times | none => []
  let times := (old ++ [s.now]).filter fun t => decide (s.now < t + 100000000)
  let others := b.clashes.filter fun c => !key c
  if 3 ≤ times.length then
    let s1 := s.setBus n { b with clashes := others }
    let w := h0.toNat
    let s2 := (s1.setReg (MDB_CLASH n) (BitVec.ofNat 32 (2 ^ 31 + bitsOf w 31 30 * 2 ^ 29 + bitsOf w 28 0))).bump (MDB_CNT n)
      MDB_CNT_CLASH 1
    (s2.event (.mdb n) 0x41 5 (n * 2 ^ 32 + w) 0).raiseFor (.mdb n) F_MDB_CLASH (mdbCaps n (bitsOf w 15 0) 31) n
  else
    let keep := if 8 ≤ others.length then
        match others.foldl (fun (best : Option Clash) c =>
          match best with
          | none => some c
          | some d => if c.times.getLast?.getD 0 < d.times.getLast?.getD 0 then some c else some d) none with
        | some o => others.erase o
        | none => others
      else others
    s.setBus n { b with clashes := keep ++ [⟨h0, times⟩] }

/-! ## Modes and message RAM (R770, R793) -/

/-- Time-triggered operation stops. -/
def State.ttStop (s : State) (n : Nat) : State :=
  (((s.wr (MDB_TT_STAT n) MDB_TT_STAT_SYNCED 0).wr (MDB_STAT n) MDB_STAT_TT_MASTER 0).setBus n
    { s.bus n with ttRun := false, matched := [], ttNext := none })

/-- A write of MDBn_CTRL except for the setting of TT_EN (R793). -/
def State.busCtrl (s : State) (n : Nat) (w : Word) : State :=
  let keep := s.rd (MDB_CTRL n) MDB_CTRL_TT_EN
  let off := !bitOf w.toNat 7
  let s0 := (s.setReg (MDB_CTRL n) (w &&& 0x177)).wr (MDB_CTRL n) MDB_CTRL_TT_EN (if off then 0 else keep)
  let s1 := if off then s0.ttStop n else s0
  let mode := MDB_CTRL_MODE.get w
  let s2 := if mode = 3 then
      let t := ((s1.wr (MDB_DET_CFG n) MDB_DET_CFG_DONE 0).wr (MDB_DET_CFG n) MDB_DET_CFG_CHOSEN 0).wr (MDB_DET_CFG n)
        MDB_DET_CFG_PASSES 0
      t.setBus n { t.bus n with cand := (t.nextCand n none).1, good := 0 }
    else s1
  s2.modeSettle n

/-- A write of MDBn_RAM_CFG in INIT (R770): the layout is set and the RAM is cleared. -/
def State.ramCfg (s : State) (n : Nat) (w : Word) (master : Nat) : State :=
  let d := MDB_RAM_CFG_DMAX.get w
  let tb0 := MDB_RAM_CFG_TB_COUNT.get w
  let tb := if tb0 = 0 ∨ 32 < tb0 then 32 else tb0
  let s1 := s.wr (MDB_RAM_CFG n) MDB_RAM_CFG_DMAX d
  let slots := 65536 / (24 + s1.dmax n)
  let fits := if slots < tb + 4 then slots - 4 else tb
  let shown := if slots < tb + 4 then fits else tb0
  let s2 := (s1.wr (MDB_RAM_CFG n) MDB_RAM_CFG_TB_COUNT shown).wr (MDB_RAM_CFG n) MDB_RAM_CFG_RX_DEPTH (slots - fits)
  let s3 := s2.setBus n { s2.bus n with bufs := [], fifo := [], opened := none, doneQ := [], sending := none }
  if slots < tb + 4 then s3.raiseFor (.mdb n) F_MDB_CFG_ERR (mdbCaps n 0 master) n else s3

/-- The number of transmit buffers. -/
def State.tbCount (s : State) (n : Nat) : Nat :=
  let t := s.rd (MDB_RAM_CFG n) MDB_RAM_CFG_TB_COUNT
  if t = 0 ∨ 32 < t then 32 else t

/-! ## Time-triggered operation (R784) -/

def State.ttCycle (s : State) (n : Nat) : Nat :=
  let c := (s.reg (MDB_TT_CYCLE n)).toNat
  if c < 100000 then 100000 else if 1000000000 < c then 1000000000 else c

def State.ttMatrix (s : State) (n : Nat) : Nat :=
  let m := s.rd (MDB_TT_CFG n) MDB_TT_CFG_MATRIX
  if m = 7 then 6 else m

/-- The trigger list passes the check of R784. -/
def State.trgOk (s : State) (n : Nat) : Bool :=
  let valid := ((List.range 64).map fun t => s.reg64 (MDB_TRG n t)).filter fun w => bitOf w 61
  let marks := valid.map fun w => bitsOf w 23 0
  (marks.zip marks.tail).all (fun p => decide (p.1 ≤ p.2)) && valid.all fun w =>
    decide (bitsOf w 60 55 < 2 ^ bitsOf w 54 52) && decide (bitsOf w 54 52 ≤ s.ttMatrix n) &&
      decide (bitsOf w 23 0 * 100 ≤ s.ttCycle n)

/-! ## The crossbar (R765 to R768, R806) -/

/-- The controller that serves a bus; 15 when shed. -/
def State.ctrlOf (s : State) (n : Nat) : Nat := bitsOf (s.reg MDB8_XBAR).toNat (4 * n + 3) (4 * n)

def State.setCtrl (s : State) (n c : Nat) : State :=
  s.setReg MDB8_XBAR ((Fld.mk (4 * n + 3) (4 * n)).put (s.reg MDB8_XBAR) c)

/-- The bus a controller serves. -/
def State.busOfCtrl (s : State) (c : Nat) : Option Nat := (List.range 8).find? fun n => s.ctrlOf n == c

/-- Controllers in the Oasis pool: those that serve no bus and have not failed; worn ones last (R766). -/
def State.spareCtrls (s : State) : List Nat :=
  let free := (List.range 9).filter fun c => (s.busOfCtrl c).isNone && !s.ctrlBad.contains c
  (free.filter fun c => !s.ctrlWorn.contains c) ++ free.filter fun c => s.ctrlWorn.contains c

/-- MDB_REMAP (R790). -/
def State.remapEvent (s : State) (n new old : Nat) (failed : Bool) : State :=
  s.event (.mdb n) 0x43 5 (n * 2 ^ 32 + new * 2 ^ 8 + old * 2 ^ 4 + b2n failed) 0

/-- A remap starts for wear (R766). -/
def State.startRemap (s : State) (n to_ : Nat) : State :=
  ((((s.wr MDB8_REMAP MDB8_REMAP_ACTIVE 1).wr MDB8_REMAP MDB8_REMAP_STEP 1).wr MDB8_REMAP MDB8_REMAP_BUS n).wr MDB8_REMAP
    MDB8_REMAP_TO to_).wr MDB8_REMAP MDB8_REMAP_FROM (s.ctrlOf n)

/-- A remap that has not reached SWITCH is abandoned (R766, R805). -/
def State.dropRemap (s : State) : State :=
  if s.flag MDB8_REMAP MDB8_REMAP_ACTIVE then (s.wr MDB8_REMAP MDB8_REMAP_ACTIVE 0).wr MDB8_REMAP MDB8_REMAP_STEP 4 else s

/-- A bus moves at once to a controller that starts error-active (R767); the frame in progress is sent again. -/
def State.moveBus (s : State) (n c : Nat) : State :=
  let b := s.bus n
  let s1 := (s.setCtrl n c).setBus n { b with sending := none, shed := false }
  let s2 := ((s1.wr (MDB_STAT n) MDB_STAT_ESTATE 0).wr (MDB_STAT n) MDB_STAT_RECOV 0).setErrs n 0 0
  s2.modeSettle n

/-- No controller is left: the bus is shed (R768). -/
def State.shedBus (s : State) (n : Nat) : State :=
  (s.setCtrl n 15).setBus n { s.bus n with sending := none, shed := true }

/-! ## The engine window (R776, R777) -/

/-- MW_EVENT of a bus. -/
def BusSt.mwEvent (b : BusSt) : Nat := b2n (!b.fifo.isEmpty) + b2n (!b.doneQ.isEmpty) * 2 + b2n b.stateEv * 4 + b2n b.ttEv * 8

/-- An access to a window by a slot that does not hold the bus, or a write to a pending buffer. -/
def State.winErr (s : State) (n l what : Nat) : State := s.raiseFor (.mdb n) F_MDB_WIN_ERR (mdbCaps n what (0x10 + l)) l

/-- RX_POP (R776): the open entry closes and the next opens; an entry with an uncorrectable error is dropped (R791). -/
def State.rxPop (s : State) (n : Nat) (ecc : Ecc) : Nat × State :=
  let b := s.bus n
  match b.fifo with
  | [] => (0, s.setBus n { b with opened := none })
  | e :: rest =>
    match ecc with
    | .ok => (2 ^ 31, s.setBus n { b with opened := some e, fifo := rest })
    | .single =>
      (2 ^ 31, (s.setBus n { b with opened := some e, fifo := rest }).raiseFor (.mdb n) F_MDB_RAM_CE (mdbCaps n 0 31) n)
    | .double =>
      let s1 := s.raiseFor (.mdb n) F_MDB_RAM_UE (mdbCaps n 0 31) n
      match rest with
      | [] => (0, s1.setBus n { b with opened := none, fifo := [] })
      | e2 :: rest2 => (2 ^ 31, s1.setBus n { b with opened := some e2, fifo := rest2 })

/-- TX_DONE (R776). -/
def State.txDonePop (s : State) (n : Nat) : Nat × State :=
  let b := s.bus n
  match b.doneQ with
  | [] => (0, s)
  | d :: rest => (2 ^ 31 + d.status * 2 ^ 28 + d.buf, s.setBus n { b with doneQ := rest })

/-- A bit vector of the buffers with a property. -/
def BusSt.bits (b : BusSt) (f : TBuf → Bool) : Nat := sumOf ((List.range 32).map fun i => b2n (f (b.buf i)) * 2 ^ i)

/-- A 32-bit read of the window of bus n at an offset, by the slot that holds the bus. -/
def State.busRead (s : State) (n off : Nat) (ecc : Ecc) : Nat × State :=
  let b := s.bus n
  let sel := b.txSel.toNat % 32
  if off = 0 then (b.txSel.toNat, s)
  else if 0x10 ≤ off ∧ off < 0x20 ∧ off % 4 = 0 then (hdrW (b.buf sel).hdr ((off - 0x10) / 4), s)
  else if off = 0x28 then (b.bits (·.pending), s)
  else if off = 0x2C then (b.bits (·.held), s)
  else if off = 0x30 then s.txDonePop n
  else if off = 0x38 then (((b.doneQ.head?.map (·.time)).getD 0) % 2 ^ 32, s)
  else if off = 0x3C then (((b.doneQ.head?.map (·.time)).getD 0) / 2 ^ 32, s)
  else if off = 0x40 then s.rxPop n ecc
  else if off = 0x48 then (((b.opened.map (·.time)).getD 0) % 2 ^ 32, s)
  else if off = 0x4C then (((b.opened.map (·.time)).getD 0) / 2 ^ 32, s)
  else if 0x50 ≤ off ∧ off < 0x60 ∧ off % 4 = 0 then (hdrW ((b.opened.map (·.hdr)).getD []) ((off - 0x50) / 4), s)
  else if off = 0x60 then (b.rxBase, s)
  else if off = 0x68 then (b.mwEvent, s.setBus n { b with stateEv := false, ttEv := false })
  else if off = 0x6C then (b.even, s)
  else if 0x100 ≤ off ∧ off < 0x180 then
    let d := (b.opened.map (·.data)).getD []
    (ofLe ((List.range 4).map fun k => d.getD (b.rxBase * 128 + (off - 0x100) + k) 0), s)
  else if off = 0x188 then (s.rd (WAKE_BUS_STAT n) WAKE_BUS_STAT_STATE, s)
  else (0, s)

/-- A 32-bit write to the window of bus n at an offset, by the slot that holds the bus; SLP_CTRL is served by WAKE. -/
def State.busWrite (s : State) (n l off : Nat) (v : Word) : State :=
  let b := s.bus n
  let sel := b.txSel.toNat % 32
  let x := b.buf sel
  if off = 0 then s.setBus n { b with txSel := v &&& 0x000F001F }
  else if 0x10 ≤ off ∧ off < 0x20 ∧ off % 4 = 0 then
    if x.pending then s.winErr n l sel
    else s.setBus n (b.setBuf sel { x with hdr := x.hdr.set ((off - 0x10) / 4) v })
  else if off = 0x20 then
    let i := v.toNat % 32
    let s1 := if bitOf v.toNat 9 then s.txAbort n i else s
    if bitOf v.toNat 8 then s1.txRequest n i else s1
  else if off = 0x60 then s.setBus n { b with rxBase := v.toNat % 16 }
  else if off = 0x6C then s.setBus n { b with even := v.toNat % 16 }
  else if 0x80 ≤ off ∧ off < 0x100 then
    if x.pending then s.winErr n l sel
    else
      let base := b.txSel.toNat / 2 ^ 16 % 16 * 128 + (off - 0x80)
      let data := (List.range 4).foldl (fun m k => SMap.set (fun _ => 0) m (base + k) (BitVec.ofNat 8 (v.toNat / 256 ^ k))) x.data
      s.setBus n (b.setBuf sel { x with data := data })
  else s

end Sys2Proof.Machine
end

