-- ==== Sys2Proof/Machine/WakeOps.lean ====
section
/-! DEFINITION. The operations of WAKE: bus sleep states, wakes and the request for STANDBY (file 15). -/

namespace Sys2Proof.Machine

/-- WAKE_BUSn_STAT.STATE (R807). -/
def State.sleepState (s : State) (n : Nat) : Nat := s.rd (WAKE_BUS_STAT n) WAKE_BUS_STAT_STATE

/-- A change of STATE sets MW_EVENT bit [2] (R808). -/
def State.setSleep (s : State) (n st : Nat) : State := (s.wr (WAKE_BUS_STAT n) WAKE_BUS_STAT_STATE st).busChanged n

/-- BUS_SLEEP (R827). -/
def State.sleepEvent (s : State) (n what : Nat) : State := s.event .wake 0x48 5 (n * 2 ^ 32 + what) 0

/-- A bus wakes outside STANDBY (R820). -/
def State.wakeBus (s : State) (n src id : Nat) (ide : Bool) : State :=
  let s1 := (s.wr (WAKE_BUS_STAT n) WAKE_BUS_STAT_SRC src).setSleep n 0
  let s2 := (s1.setBus n { s1.bus n with asleep := false }).modeSettle n
  s2.event .wake 0x49 5 (n * 2 ^ 32 + src * 2 ^ 29 + id) (b2n ide * 2 ^ 29)

/-- The network has agreed to sleep (R822). -/
def State.sleepAgreed (s : State) : Bool :=
  let votes := (List.range 8).filter fun n => s.flag (WAKE_BUS_CFG n) WAKE_BUS_CFG_VOTE
  s.flag WAKE_CTRL WAKE_CTRL_AUTO_STBY && !votes.isEmpty && votes.all fun n => decide (2 ≤ s.sleepState n)

/-- A bus has fallen asleep: STANDBY is requested when the network has agreed (R822). -/
def State.afterSleep (s : State) : State := if s.sleepAgreed then s.later .standby else s

/-- A bus enters ASLEEP (2) or WITHDRAWN (3) (R811, R819). -/
def State.fallAsleep (s : State) (n st : Nat) : State :=
  let s1 := s.setSleep n st
  (((s1.setBus n { s1.bus n with asleep := true }).modeSettle n).sleepEvent n (st - 2)).afterSleep

/-- A sleep request (R809). -/
def State.sleepRequest (s : State) (n : Nat) : State :=
  let mode := s.rd (MDB_CTRL n) MDB_CTRL_MODE
  if s.sleepState n ≠ 0 then s
  else if s.flag (MDB_CTRL n) MDB_CTRL_TT_EN ∨ (mode ≠ 1 ∧ mode ≠ 2) ∨ (s.bus n).shed then
    s.raiseFor .wake F_WAKE_SLP_REFUSED [n, 0, 0] n
  else
    let s1 := (s.wr (WAKE_BUS_STAT n) WAKE_BUS_STAT_FERR 0).setSleep n 1
    s1.setBus n { s1.bus n with pendAt := s.now }

/-- A CANCEL (R810). -/
def State.sleepCancel (s : State) (n : Nat) : State :=
  match s.sleepState n with
  | 0 => s
  | 1 => s.setSleep n 0
  | _ => s.wakeBus n 7 0 false

/-- A write of WAKE_BUSn_CTRL or SLP_CTRL: with both bits only CANCEL acts (R810). -/
def State.sleepCtrl (s : State) (n : Nat) (v : Word) : State :=
  if bitOf v.toNat 1 then s.sleepCancel n else if bitOf v.toNat 0 then s.sleepRequest n else s

/-- The quiesce of a STANDBY entry is under way (R824). -/
def State.enteringStandby (s : State) : Bool :=
  match s.quiesce with
  | some q => q.kind == .standby
  | none => false

/-- A wake source of R825 acts in STANDBY and is latched during its entry (R824). -/
def State.moduleWake (s : State) (src bus id : Nat) (ide : Bool) : State :=
  if s.mode = .standby then s.later (.standbyWake src bus id ide)
  else if s.enteringStandby ∧ s.boot.latched.isNone then
    { s with boot := { s.boot with latched := some (src, bus, id, ide) } }
  else s

/-- A wake event of a bus's mode (R812, R813, R819, R820, R824, R825). -/
def State.busWakeEvent (s : State) (n src id : Nat) (ide afterIdle : Bool) : State :=
  let s0 := if src = 4 then (s.wr (WAKE_BUS_STAT n) WAKE_BUS_STAT_FERR 0).raiseFor .wake F_WAKE_FERR_WAKE [n, 0, 0] n else s
  let selective := s.rd (WAKE_BUS_CFG n) WAKE_BUS_CFG_MODE == 2
  if s.mode = .standby ∨ s.enteringStandby then
    if s.flag (WAKE_BUS_CFG n) WAKE_BUS_CFG_STBY_EN then s0.moduleWake src n id ide else s0
  else match s.sleepState n with
    | 0 => s
    | 1 => if afterIdle then ((s0.setSleep n 0).bump (WAKE_BUS_STAT n) WAKE_BUS_STAT_ABORTS 1).sleepEvent n 2 else s0
    | 2 => s0.wakeBus n src id ide
    | _ => if selective || afterIdle then s0.wakeBus n src id ide else s0

/-- The wake filter of a bus is armed (R807, R823). -/
def State.filterArmed (s : State) (n : Nat) : Bool :=
  s.sleepState n != 0 || (s.mode == .standby && s.flag (WAKE_BUS_CFG n) WAKE_BUS_CFG_STBY_EN)

/-- A block reset of WAKE returns every bus to AWAKE; those asleep wake with source LOCAL (R821). -/
def State.wakeAllBuses (s : State) : State :=
  (List.range 8).foldl (fun t n =>
    match t.sleepState n with
    | 0 => t
    | 1 => t.setSleep n 0
    | _ => t.wakeBus n 7 0 false) s

end Sys2Proof.Machine
end

