-- ==== Sys2Proof/Machine/PsqOps.lean ====
section
/-! DEFINITION. The operations of the pin sequencers: pins, the instruction in one tick, starts and stops, FIFOs, the window
and the crossbar (file 16). -/

namespace Sys2Proof.Machine

def State.seqSt (s : State) (n : Nat) : SeqSt := SMap.get (fun _ => SeqSt.reset) s.psq.seqs n

def State.setSeq (s : State) (n : Nat) (x : SeqSt) : State :=
  { s with psq := { s.psq with seqs := SMap.set (fun _ => SeqSt.reset) s.psq.seqs n x } }

/-- The slot that holds a sequencer (R835). -/
def State.seqSlot (s : State) (n : Nat) : Option Nat := (List.range 16).find? fun l => (s.slot l).bound && bitOf (s.slot l).psq n

/-- The machine under a logical sequencer; 0x3F when shed (R870). -/
def State.seqMap (s : State) (n : Nat) : Nat := (Fld.mk (8 * (n % 4) + 5) (8 * (n % 4))).get (s.reg (PSQ_MAP (n / 4)))

def State.setSeqMap (s : State) (n m : Nat) : State :=
  s.wr (PSQ_MAP (n / 4)) ⟨8 * (n % 4) + 5, 8 * (n % 4)⟩ m

/-- FCAP0 of R866. -/
def State.psqCaps (s : State) (n pin : Nat) : List Nat := [n * 2 ^ 16 + pin * 2 ^ 8 + (s.seqSt n).pc.toNat, 0, 0]

def State.raisePsq (s : State) (src n pin slot : Nat) : State := s.raiseFor .psq src (s.psqCaps n pin) slot

/-! ## Pins (R837 to R840) -/

/-- The owner of a pin. -/
def State.pioOwner (s : State) (p : Nat) : Option Nat :=
  let o := s.rd (PSQ_PIO_CFG p) PSQ_PIO_CFG_OWNER
  if o < 32 then some o else none

/-- What the module drives on a pin: none at high impedance. -/
def State.pioDrive (s : State) (p : Nat) : Option Bool :=
  match s.pioOwner p with
  | none => none
  | some _ =>
    if s.psq.dir.getLsbD p then some (s.psq.lvl.getLsbD p != s.flag (PSQ_PIO_CFG p) PSQ_PIO_CFG_OUT_INV) else none

/-- The pins whose drive differs from that of an earlier state go out. -/
def State.pioShow (s : State) (before : State) : State :=
  (List.range 48).foldl (fun t p => if s.pioDrive p = before.pioDrive p then t else t.emit (.pio p (s.pioDrive p))) s

/-- The level a program sees at a pin (R839). -/
def State.pioLevel (s : State) (p : Nat) : Bool := s.psq.pins.getLsbD p != s.flag (PSQ_PIO_CFG p) PSQ_PIO_CFG_IN_INV

def setBit48 (w : BitVec 48) (p : Nat) (b : Bool) : BitVec 48 :=
  if b then w ||| BitVec.ofNat 48 (2 ^ p) else w &&& ~~~ BitVec.ofNat 48 (2 ^ p)

def State.setPioLvl (s : State) (p : Nat) (b : Bool) : State :=
  { s with psq := { s.psq with lvl := setBit48 s.psq.lvl p b } }

def State.setPioDir (s : State) (p : Nat) (b : Bool) : State :=
  { s with psq := { s.psq with dir := setBit48 s.psq.dir p b } }

/-- The pins of the DRIVE group in order (R838, R872). -/
def State.drivePins (s : State) (n : Nat) : List Nat :=
  let c := s.rd (PSQ_SEQ_PINS n) PSQ_SEQ_PINS_DRV_CNT
  (List.range (if 16 < c then 16 else c)).map fun k => (s.rd (PSQ_SEQ_PINS n) PSQ_SEQ_PINS_DRV_BASE + k) % 48

/-- The pins of the SENSE group in order. -/
def State.sensePins (s : State) (n : Nat) : List Nat :=
  let c := s.rd (PSQ_SEQ_PINS n) PSQ_SEQ_PINS_SNS_CNT
  (List.range (if 16 < c then 16 else c)).map fun k => (s.rd (PSQ_SEQ_PINS n) PSQ_SEQ_PINS_SNS_BASE + k) % 48

/-- Sequencer n changes a pin it owns; a pin it does not own is left (R837). -/
def State.driveAs (s : State) (n p : Nat) (f : State → Nat → State) : State :=
  if s.pioOwner p = some n then f s p else s

/-- The pins of a sequencer take their IDLE behaviour (R840). -/
def State.pinsIdle (s : State) (n : Nat) : State :=
  (List.range 48).foldl (fun t p =>
    t.driveAs n p fun u p =>
      match u.rd (PSQ_PIO_CFG p) PSQ_PIO_CFG_IDLE with
      | 0 => u
      | 1 => (u.setPioDir p true).setPioLvl p false
      | 2 => (u.setPioDir p true).setPioLvl p true
      | _ => u.setPioDir p false) s

/-- TEST_PIN's level (R838). -/
def State.testLevel (s : State) (n : Nat) : Bool := s.pioLevel (s.rd (PSQ_SEQ_PINS n) PSQ_SEQ_PINS_TEST_PIN % 48)

/-! ## FIFOs (R848 to R850) -/

/-- TX and RX depth of a FIFO_MODE. -/
def State.fifoDepth (s : State) (n : Nat) : Nat × Nat :=
  match s.rd (PSQ_SEQ_SHIFT n) PSQ_SEQ_SHIFT_FIFO_MODE with
  | 1 => (16, 0)
  | 2 => (0, 16)
  | _ => (8, 8)

/-- A count of PSQ_SEQn_CNT; STALE on the first count after each read (R850). -/
def State.psqStale (s : State) (n : Nat) (f : Fld) : State :=
  let first := s.reg (PSQ_SEQ_CNT n) == 0
  let s1 := s.bump (PSQ_SEQ_CNT n) f 1
  if first then s1.raisePsq F_PSQ_STALE n 0 255 else s1

/-- Push a word from software: discarded with WIN_ERR when the FIFO is full (R860, R874). -/
def State.txfPush (s : State) (n slot : Nat) (v : Word) : State :=
  let q := s.seqSt n
  if (s.fifoDepth n).1 ≤ q.tx.length then s.raisePsq F_PSQ_WIN_ERR n 0 slot
  else s.setSeq n { q with tx := q.tx ++ [v] }

/-- Pop a word of the RX FIFO: whether there was one, the word, the state after. -/
def State.rxfPop (s : State) (n : Nat) : Bool × Word × State :=
  let q := s.seqSt n
  match q.rx with
  | [] => (false, 0, s)
  | w :: ws => (true, w, s.setSeq n { q with rx := ws })

/-! ## Stopping and starting (R851 to R855) -/

/-- A running sequencer stops with a cause; its pins take their IDLE behaviour, and PSQ_STOPPED is written (R840, R865). A
stalled instruction is abandoned (R851). -/
def State.seqHalt (s : State) (n cause : Nat) : State :=
  let q := s.seqSt n
  if !q.running then s
  else
    let s1 := (s.setSeq n { q with running := false, cause := cause, stalled := none }).pinsIdle n
    (s1.pioShow s).event .psq 0x4D 5 (n * 2 ^ 16 + cause * 2 ^ 8 + q.pc.toNat) 0

/-- RESTART (R851). -/
def State.seqRestart (s : State) (n cause : Nat) : State :=
  let s1 := s.seqHalt n cause
  let q := s1.seqSt n
  let lp := PSQ_SEQ_LOOP n
  s1.setSeq n { q with
    pc := BitVec.ofNat 7 (s1.rd (PSQ_SEQ_EXEC n) PSQ_SEQ_EXEC_START_PC)
    fresh := false
    lc0 := BitVec.ofNat 16 (s1.rd lp PSQ_SEQ_LOOP_INIT0)
    lc1 := BitVec.ofNat 16 (s1.rd lp PSQ_SEQ_LOOP_INIT1)
    tsr := 0, rsr := 0, tcnt := 0, rcnt := 0, hold := 0, phase := 0, dwell := none, stalled := none, inject := none }

/-- START (R838, R840, R851): the sequencer runs from its PC; `sync` restarts its divider (R852). A running or shed
sequencer is left. -/
def State.seqStart (s : State) (n : Nat) (sync : Bool) : State :=
  let q := s.seqSt n
  let q0 := if sync then { q with phase := 0 } else q
  if s.seqMap n = 0x3F then s
  else if q.running then s.setSeq n q0
  else
    let pc := if q.fresh then BitVec.ofNat 7 (s.rd (PSQ_SEQ_EXEC n) PSQ_SEQ_EXEC_START_PC) else q.pc
    let s1 := s.setSeq n { q0 with running := true, cause := 0, fresh := false, pc := pc, test := s.testLevel n }
    let s2 := (s.drivePins n).foldl (fun t p =>
      t.driveAs n p fun u p =>
        let out := u.flag (PSQ_PIO_CFG p) PSQ_PIO_CFG_DIR_INIT
        let u1 := u.setPioDir p out
        if out then u1.setPioLvl p (u.flag (PSQ_PIO_CFG p) PSQ_PIO_CFG_LVL_INIT) else u1) s1
    let s3 := s2.pioShow s
    match (s.drivePins n).find? fun p => match s.pioOwner p with | some o => o != n | none => false with
    | some p => s3.raisePsq F_PSQ_CFG_ERR n p 255
    | none => s3

/-- Every sequencer of a mask. -/
def State.seqMask (s : State) (mask : Nat) (f : State → Nat → State) : State :=
  ((List.range 32).filter fun n => bitOf mask n).foldl f s

/-- A write of CTRL bits [2:0]: RESTART counts as a stop, and a stop wins (R854). `cause` is 1 for host, 2 for slot. -/
def State.seqCtrl (s : State) (n cause : Nat) (v : Nat) : State :=
  if bitOf v 2 then s.seqRestart n cause
  else if bitOf v 1 then s.seqHalt n cause
  else if bitOf v 0 then s.seqStart n false else s

/-- The armed timed start acts (R853). -/
def State.timedStart (s : State) (late : Bool) : State :=
  let s1 := s.wr PSQ_TSTART_STAT PSQ_TSTART_STAT_ARMED 0
  let s2 := if late then s1.wr PSQ_TSTART_STAT PSQ_TSTART_STAT_LATE 1 else s1
  s2.seqMask s.psq.timed.toNat fun t n => t.seqStart n true

/-- Arm a timed start; a time already past starts at once with LATE (R853). -/
def State.armStart (s : State) (time : Nat) : State :=
  let s1 := (s.setReg64 PSQ_TSTART_TIME time).wr PSQ_TSTART_STAT PSQ_TSTART_STAT_ARMED 1
  let s2 := { s1 with psq := { s1.psq with timed := s.reg PSQ_TSTART_MASK } }
  if time < s.now then s2.timedStart true else s2

/-! ## One instruction (R842 to R850) -/

def iDop (w : Word) : Nat := bitsOf w.toNat 31 29
def iPop (w : Word) : Nat := bitsOf w.toNat 28 26
def iCond (w : Word) : Nat := bitsOf w.toNat 25 22
def iFlow (w : Word) : Nat := bitsOf w.toNat 21 20
def iTarget (w : Word) : Nat := bitsOf w.toNat 19 13
def iArg (w : Word) : Nat := bitsOf w.toNat 12 8
def iDwell (w : Word) : Nat := bitsOf w.toNat 7 0

/-- The instruction is legal (R845). -/
def seqLegal (w : Word) : Bool :=
  let c := iCond w
  let flowOk := match iFlow w with
    | 0 => c == 0 && iTarget w == 0
    | 1 => c != 0xE
    | 2 => c != 0xE && c != 0xF && iTarget w == 0
    | _ => c == 0xA || c == 0xB
  let argOk := [2, 5, 6].contains (iPop w) || iArg w == 0
  iPop w != 7 && flowOk && argOk

/-- TX_LEN or RX_LEN: 0 means 32 (R849). -/
def lenOr32 (v : Nat) : Nat := if v = 0 then 32 else v

/-- The TSR bit that DRIVE pin k takes (R846). -/
def SeqSt.tsrBit (q : SeqSt) (lsb : Bool) (k : Nat) : Bool :=
  let i := q.tcnt + k
  decide (i < 32) && q.tsr.getLsbD (if lsb then i else 31 - i)

/-- The SENSE group as a number, pin k as bit k. -/
def State.senseWord (s : State) (n : Nat) : Nat :=
  sumOf ((s.sensePins n).zipIdx.map fun e => b2n (s.pioLevel e.1) * 2 ^ e.2)

/-- A condition (R845). END holds. -/
def State.seqCond (s : State) (n c : Nat) : Bool :=
  let q := s.seqSt n
  let sh := PSQ_SEQ_SHIFT n
  let test := s.testLevel n
  match c with
  | 0 => true
  | 1 => test
  | 2 => !test
  | 3 => test && !q.test
  | 4 => !test && q.test
  | 5 => decide (lenOr32 (s.rd sh PSQ_SEQ_SHIFT_TX_LEN) ≤ q.tcnt)
  | 6 => decide (q.tcnt < lenOr32 (s.rd sh PSQ_SEQ_SHIFT_TX_LEN))
  | 7 => decide (lenOr32 (s.rd sh PSQ_SEQ_SHIFT_RX_LEN) ≤ q.rcnt)
  | 8 => !q.tx.isEmpty
  | 9 => decide (q.rx.length < (s.fifoDepth n).2)
  | 0xA => q.lc0 != 0
  | 0xB => q.lc1 != 0
  | 0xC => q.tsrBit (s.flag sh PSQ_SEQ_SHIFT_TX_LSB) 0
  | 0xD =>
    let m := s.rd (PSQ_SEQ_MATCH n) PSQ_SEQ_MATCH_MASK
    (s.senseWord n &&& m) == (s.rd (PSQ_SEQ_MATCH n) PSQ_SEQ_MATCH_VALUE &&& m)
  | _ => true

/-- The instruction stalls: its FLOW = WAIT condition does not hold, or its blocking data operation cannot proceed
(R842, R850). -/
def State.seqStalls (s : State) (n : Nat) (w : Word) : Bool :=
  let q := s.seqSt n
  (iFlow w == 2 && !s.seqCond n (iCond w)) || (iDop w == 1 && q.tx.isEmpty) ||
    (iDop w == 3 && decide ((s.fifoDepth n).2 ≤ q.rx.length))

/-- Step 2 of R847: FETCH, RELOAD and SIGNAL. -/
def State.seqData (s : State) (n dop : Nat) : State :=
  let q := s.seqSt n
  let lp := PSQ_SEQ_LOOP n
  match dop with
  | 1 | 2 =>
    match q.tx with
    | v :: vs => s.setSeq n { q with tx := vs, tsr := v, hold := v, tcnt := 0 }
    | [] => (s.setSeq n { q with tsr := q.hold, tcnt := 0 }).psqStale n PSQ_SEQ_CNT_TX_STALE
  | 5 => s.setSeq n { q with lc0 := BitVec.ofNat 16 (s.rd lp PSQ_SEQ_LOOP_INIT0) }
  | 6 => s.setSeq n { q with lc1 := BitVec.ofNat 16 (s.rd lp PSQ_SEQ_LOOP_INIT1) }
  | 7 =>
    match s.seqSlot n with
    | some _ => s.setSeq n { q with signal := true }
    | none => s.event .psq 0x4E 5 (n * 2 ^ 16 + q.pc.toNat) 0
  | _ => s

/-- EMIT (R846). -/
def State.seqEmit (s : State) (n : Nat) : State :=
  let q := s.seqSt n
  let lsb := s.flag (PSQ_SEQ_SHIFT n) PSQ_SEQ_SHIFT_TX_LSB
  let ps := s.drivePins n
  let s1 := ps.zipIdx.foldl (fun t e => t.driveAs n e.1 fun u p => u.setPioLvl p (q.tsrBit lsb e.2)) s
  s1.setSeq n { s1.seqSt n with tcnt := stopAt 32 (q.tcnt + ps.length) }

/-- The receive shift register after the bits `bits`, SENSE pin 0 first (R846). -/
def rsrAfter (lsb : Bool) (rsr : Word) (rcnt : Nat) : List Bool → Word × Nat
  | [] => (rsr, rcnt)
  | b :: bs =>
    let r := if lsb then (if rcnt < 32 then rsr ||| BitVec.ofNat 32 (b2n b * 2 ^ rcnt) else rsr)
      else (rsr <<< (1 : Nat)) ||| BitVec.ofNat 32 (b2n b)
    rsrAfter lsb r (stopAt 32 (rcnt + 1)) bs

/-- CAPTURE (R846). -/
def State.seqCapture (s : State) (n : Nat) : State :=
  let q := s.seqSt n
  let (r, c) := rsrAfter (s.flag (PSQ_SEQ_SHIFT n) PSQ_SEQ_SHIFT_RX_LSB) q.rsr q.rcnt ((s.sensePins n).map s.pioLevel)
  s.setSeq n { q with rsr := r, rcnt := c }

/-- Step 3 of R847: the pin operation. -/
def State.seqPins (s : State) (n pop arg : Nat) : State :=
  let five := (s.drivePins n).take 5
  match pop with
  | 1 => s.seqEmit n
  | 2 => five.zipIdx.foldl (fun t e => t.driveAs n e.1 fun u p => u.setPioLvl p (bitOf arg e.2)) s
  | 3 => s.seqCapture n
  | 4 => (s.seqCapture n).seqEmit n
  | 5 => five.zipIdx.foldl (fun t e => t.driveAs n e.1 fun u p => u.setPioDir p (bitOf arg e.2)) s
  | 6 => five.zipIdx.foldl (fun t e =>
      t.driveAs n e.1 fun u p => if bitOf arg e.2 then u.setPioLvl p (!u.psq.lvl.getLsbD p) else u) s
  | _ => s

/-- Step 4 of R847: STORE. -/
def State.seqStore (s : State) (n dop : Nat) : State :=
  let q := s.seqSt n
  if dop = 3 ∨ dop = 4 then
    let q1 := { q with rsr := 0, rcnt := 0 }
    if q.rx.length < (s.fifoDepth n).2 then s.setSeq n { q1 with rx := q.rx ++ [q.rsr] }
    else (s.setSeq n q1).psqStale n PSQ_SEQ_CNT_RX_DROP
  else s

/-- The address after one that completes without a taken transfer (R843). -/
def State.seqAfter (s : State) (n : Nat) (pc : BitVec 7) : BitVec 7 :=
  if pc.toNat = s.rd (PSQ_SEQ_EXEC n) PSQ_SEQ_EXEC_LOOP_END then BitVec.ofNat 7 (s.rd (PSQ_SEQ_EXEC n) PSQ_SEQ_EXEC_LOOP_START)
  else pc + 1

/-- Step 5 of R847: the flow. `cond` is the condition as evaluated first, `base` where execution goes without a transfer. -/
def State.seqFlow (s : State) (n : Nat) (w : Word) (cond : Bool) (base : BitVec 7) : SeqNext × State :=
  let q := s.seqSt n
  let target := SeqNext.goto (BitVec.ofNat 7 (iTarget w))
  match iFlow w with
  | 1 => if iCond w = 0xF then (.stop, s) else (if cond then target else .goto base, s)
  | 3 =>
    if iCond w = 0xA then
      let c := if q.lc0 = 0 then 0 else q.lc0 - 1
      (if c = 0 then .goto base else target, s.setSeq n { q with lc0 := c })
    else
      let c := if q.lc1 = 0 then 0 else q.lc1 - 1
      (if c = 0 then .goto base else target, s.setSeq n { q with lc1 := c })
  | _ => (.goto base, s)

/-- The parts of an instruction act in the order of R847. The answer is what follows it. -/
def State.seqAct (s : State) (n : Nat) (w : Word) (base : BitVec 7) : SeqNext × State :=
  let cond := s.seqCond n (iCond w)
  let s1 := (((s.seqData n (iDop w)).seqPins n (iPop w) (iArg w)).seqStore n (iDop w))
  (s1.pioShow s).seqFlow n w cond base

/-- What follows an instruction once its dwell has ended. -/
def State.seqGo (s : State) (n : Nat) : SeqNext → State
  | .goto pc => s.setSeq n { s.seqSt n with pc := pc, dwell := none }
  | .stop => (s.setSeq n { s.seqSt n with dwell := none }).seqHalt n 3

/-- An instruction that may not be executed: the sequencer stops with cause ILLEGAL (R845). -/
def State.seqIllegal (s : State) (n : Nat) : State :=
  let q := s.seqSt n
  ((s.setSeq n { q with inject := none, cause := 4 }).seqHalt n 4).raisePsq F_PSQ_ILLEGAL n 0 255

/-- The fetch of a word with an uncorrectable error (R863). -/
def State.seqImemUe (s : State) (n : Nat) : State := (s.seqHalt n 5).raisePsq F_PSQ_IMEM_UE n 0 255

/-- The instruction that is due in the next tick of a running sequencer, and whether PC moves on after it (R857). -/
def State.seqDue (s : State) (n : Nat) : Word × Bool :=
  let q := s.seqSt n
  match q.inject, q.stalled with
  | some w, some (_, adv) => (w, adv)
  | some w, none => (w, false)
  | none, some d => d
  | none, none => (SMap.get (fun _ => 0) q.imem q.pc.toNat, true)

/-- The sequencer's machine ticks: not in a dwell, running, not shed. -/
def State.seqTicks (s : State) (n : Nat) : Bool :=
  let q := s.seqSt n
  q.running && q.dwell.isNone && s.seqMap n != 0x3F && !s.boot.blkReset.contains 0x12

/-- The divider after `k` ticks (R841). -/
def State.seqPhase (s : State) (n k : Nat) : State :=
  let c := PSQ_SEQ_CLKDIV n
  if s.rd c PSQ_SEQ_CLKDIV_INT ≤ 1 then s
  else s.setSeq n { s.seqSt n with phase := ((s.seqSt n).phase + k * s.rd c PSQ_SEQ_CLKDIV_FRAC) % 256 }

/-- One tick of a running sequencer outside a dwell, with the pins' levels sampled at it. `bad`: the word fetched shows an
uncorrectable error. -/
def State.seqTick (s : State) (n : Nat) (pins : BitVec 48) (bad : Bool) : State :=
  let q := s.seqSt n
  let (w, adv) := s.seqDue n
  let fetched := q.inject.isNone && q.stalled.isNone
  if fetched && bad then s.seqImemUe n
  else if !seqLegal w then s.seqIllegal n
  else
    let s1 := ({ s with psq := { s.psq with pins := pins } }).seqPhase n 1
    let s2 :=
      if s1.seqStalls n w then s1.setSeq n { s1.seqSt n with stalled := some (w, adv), inject := none }
      else
        let base := if adv then s1.seqAfter n q.pc else q.pc
        let (next, t) := (s1.setSeq n { s1.seqSt n with stalled := none, inject := none }).seqAct n w base
        if iDwell w = 0 then t.seqGo n next else t.setSeq n { t.seqSt n with dwell := some (iDwell w, next) }
    s2.setSeq n { s2.seqSt n with test := s1.testLevel n }

/-- A dwell ends (R842). -/
def State.seqDwellEnd (s : State) (n : Nat) (pins : BitVec 48) (bad : Bool) : State :=
  match (s.seqSt n).dwell with
  | none => s
  | some (k, next) =>
    let s1 := ({ s with psq := { s.psq with pins := pins } }).seqPhase n k
    let s2 := (s1.setSeq n { s1.seqSt n with test := s1.testLevel n }).seqGo n next
    if bad && (s2.seqSt n).running && (s2.seqSt n).inject.isNone then s2.seqImemUe n else s2

/-- An injection (R857). A stopped sequencer acts once on it, or discards it. -/
def State.seqInject (s : State) (n : Nat) (w : Word) : State :=
  let q := s.seqSt n
  if q.running then s.setSeq n { q with inject := some w }
  else if !seqLegal w then s.seqIllegal n
  else if s.seqStalls n w then s
  else
    match s.seqAct n w q.pc with
    | (.goto pc, t) => t.setSeq n { t.seqSt n with pc := pc }
    | (.stop, t) => t

/-! ## Resets and release (R836, R855) -/

/-- Every sequencer stops (R855). -/
def State.seqStopAll (s : State) (cause : Nat) : State := s.seqMask 0xFFFFFFFF fun t n => t.seqHalt n cause

/-- A block reset of PSQ beyond its registers (R855). -/
def State.psqBlockReset (s : State) : State :=
  (s.seqStopAll 0).seqMask 0xFFFFFFFF fun t n => t.setSeq n { SeqSt.reset with imem := (t.seqSt n).imem }

/-- The sequencers of a slot at PERS_UNBIND (R836). -/
def State.seqRelease (s : State) (mask : Nat) : State :=
  s.seqMask mask fun t n =>
    let t1 := t.seqHalt n 2
    t1.setSeq n { t1.seqSt n with tx := [], rx := [], signal := false, even := 0 }

/-- On entry to SAFE (R855). -/
def State.seqSafe (s : State) : State :=
  s.seqMask 0xFFFFFFFF fun t n => if t.flag (PSQ_SEQ_EXEC n) PSQ_SEQ_EXEC_SAFE_STOP then t.seqHalt n 7 else t

/-! ## The crossbar (R861, R862) -/

/-- The logical sequencer on a machine. -/
def State.seqOfMachine (s : State) (m : Nat) : Option Nat := (List.range 32).find? fun n => s.seqMap n == m

/-- Spare machines, worn ones last (R861). -/
def State.spareSeqs (s : State) : List Nat :=
  let free := (List.range 36).filter fun m => (s.seqOfMachine m).isNone && !s.psq.bad.contains m
  (free.filter fun m => !s.psq.worn.contains m) ++ free.filter fun m => s.psq.worn.contains m

/-- A remap for wear starts (R861). -/
def State.startSeqRemap (s : State) (n to_ : Nat) : State :=
  ((((s.wr PSQ_REMAP PSQ_REMAP_ACTIVE 1).wr PSQ_REMAP PSQ_REMAP_STEP 1).wr PSQ_REMAP PSQ_REMAP_LOGICAL n).wr PSQ_REMAP
    PSQ_REMAP_TO to_).wr PSQ_REMAP PSQ_REMAP_FROM (s.seqMap n)

def State.dropSeqRemap (s : State) : State :=
  if s.flag PSQ_REMAP PSQ_REMAP_ACTIVE then (s.wr PSQ_REMAP PSQ_REMAP_ACTIVE 0).wr PSQ_REMAP PSQ_REMAP_STEP 3 else s

/-- PSQ_REMAP (R865). -/
def State.seqRemapEvent (s : State) (n new old : Nat) (failed : Bool) : State :=
  s.event .psq 0x4C 5 (b2n failed * 2 ^ 24 + n * 2 ^ 16 + new * 2 ^ 6 + old) 0

/-- A sequencer is shed (R862). -/
def State.shedSeq (s : State) (n : Nat) : State := (s.seqHalt n 6).setSeqMap n 0x3F

/-- A shed sequencer gets a machine and restarts from START_PC (R335, R862). -/
def State.restoreSeq (s : State) (n m : Nat) : State := ((s.setSeqMap n m).seqRestart n 0).seqStart n true

/-! ## The window (R860) -/

/-- EVENT of a sequencer held by a slot. -/
def State.seqEvent (s : State) (n : Nat) : Nat :=
  let q := s.seqSt n
  b2n (!q.rx.isEmpty) + b2n (decide (q.tx.length ≤ s.rd (PSQ_SEQ_SHIFT n) PSQ_SEQ_SHIFT_TX_LOW)) * 2 + b2n q.signal * 4 +
    b2n (!q.running) * 8

/-- PSQ_SEQn_STAT (R873). -/
def State.seqStat (s : State) (n : Nat) : Nat :=
  let q := s.seqSt n
  let held := match s.seqSlot n with | some l => 2 ^ 29 + l * 2 ^ 24 | none => 0
  let pc := if q.fresh then s.rd (PSQ_SEQ_EXEC n) PSQ_SEQ_EXEC_START_PC else q.pc.toNat
  b2n q.running * 2 ^ 31 + b2n q.stalled.isSome * 2 ^ 30 + held + q.cause * 2 ^ 21 + q.tx.length * 2 ^ 16 + q.rx.length * 2 ^ 8 +
    pc

/-- A load of `size` bytes from the view of sequencer n by slot l, as a 64-bit number (R860). -/
def State.seqRead (s : State) (n l off size : Nat) : Nat × State :=
  if s.seqSlot n ≠ some l then (0, s.raisePsq F_PSQ_WIN_ERR n 0 l)
  else if off = 8 then
    let (v, w, s1) := s.rxfPop n
    (if size = 8 then b2n v * 2 ^ 63 + w.toNat else w.toNat, s1)
  else if off = 0x10 then (s.seqStat n, s)
  else if off = 0x18 then (s.seqEvent n, s)
  else if off = 0x1C then ((s.seqSt n).even, s)
  else if off = 0x30 then ((s.reg (PSQ_SEQ_CNT n)).toNat, s)
  else (0, s)

/-- A store to the view of sequencer n by slot l (R860). -/
def State.seqWrite (s : State) (n l off : Nat) (v : Word) : State :=
  let q := s.seqSt n
  if s.seqSlot n ≠ some l then s.raisePsq F_PSQ_WIN_ERR n 0 l
  else if off = 0 then s.txfPush n l v
  else if off = 0x18 then s.setSeq n { q with signal := q.signal && !bitOf v.toNat 2 }
  else if off = 0x1C then s.setSeq n { q with even := v.toNat % 16 }
  else if off = 0x20 then s.seqInject n v
  else if off = 0x28 then s.seqCtrl n 2 v.toNat
  else s

end Sys2Proof.Machine
end

