-- ==== Sys2Proof/Machine/EngOps.lean ====
section
/-! DEFINITION. What an engine's loads and stores reach: the engine address map, near registers, the frame access unit, the
write buffer, far accesses; starts, stops and resets of an engine (file 03). -/

namespace Sys2Proof.Machine

/-! ## The engine address map (R69, R141) -/

/-- What an engine data address names, with the offset inside it. -/
inductive Region where
  | dmem (off : Nat)
  | rxWin (k : Nat)
  | txWin (k : Nat)
  | fau (off : Nat)
  | etm (off : Nat)
  | mbx (off : Nat)
  | mdb (off : Nat)
  | psq (off : Nat)
  | ecs (off : Nat)
  | bank (off : Nat)
  | nothing
  deriving DecidableEq, Repr

def regionOf (a : Nat) : Region :=
  if 0x10000000 ≤ a ∧ a < 0x10020000 then .dmem (a - 0x10000000)
  else if 0x20000000 ≤ a ∧ a < 0x20000400 then .rxWin (a - 0x20000000)
  else if 0x20000400 ≤ a ∧ a < 0x20000800 then .txWin (a - 0x20000400)
  else if 0x20000800 ≤ a ∧ a < 0x20001000 then .fau (a - 0x20000000)
  else if 0x20001000 ≤ a ∧ a < 0x20002000 then .etm (a - 0x20001000)
  else if 0x20002000 ≤ a ∧ a < 0x20003000 then .mbx (a - 0x20002000)
  else if 0x20003000 ≤ a ∧ a < 0x20004000 then .mdb (a - 0x20003000)
  else if 0x20004000 ≤ a ∧ a < 0x20005000 then .psq (a - 0x20004000)
  else if 0x20005000 ≤ a ∧ a < 0x20006000 then .ecs (a - 0x20005000)
  else if 0x40000000 ≤ a ∧ a < 0x40800000 then .bank (a - 0x40000000)
  else .nothing

/-- The capture words of ADDR_ERR, ALIGN, BANK_OWN and FAR_TIMEOUT (R189). -/
def State.accCaps (s : State) (n : Fin 18) (addr size : Nat) (store : Bool) : List Nat :=
  [addr, n.val + (match (s.pe n).slot with | some l => l.val * 256 | none => 0), b2n store + 2 * Nat.log2 size]

/-- A source of an engine about an access. -/
def State.raiseAcc (s : State) (n : Fin 18) (src addr size : Nat) (store : Bool) : State :=
  s.raiseFor (.pe n) src (s.accCaps n addr size store) (s.pe n).slotNo

/-- A source of an engine about the bundle last issued (R189). -/
def State.raisePe (s : State) (n : Fin 18) (src : Nat) : State :=
  s.raiseFor (.pe n) src [pcAddr (s.pe n).lastPc] (s.pe n).slotNo

/-! ## Loads (R229, R231, R232) -/

def LoadKind.size : LoadKind → Nat
  | .s8 | .u8 => 1 | .s16 | .u16 => 2 | .w32 => 4 | .d64 => 8

/-- A loaded value reaches its register or pair at distance 2. -/
def Engine.putLoad (e : Engine) (kind : LoadKind) (rd : Fin 32) (v : Nat) : Engine :=
  let one := fun (x : Nat) => e.result (.reg rd) (BitVec.ofNat 40 x) 2 false
  match kind with
  | .s8 => one (toBits 32 (signedOf 8 v))
  | .u8 => one (v % 2 ^ 8)
  | .s16 => one (toBits 32 (signedOf 16 v))
  | .u16 => one (v % 2 ^ 16)
  | .w32 => one (v % 2 ^ 32)
  | .d64 => (one (v % 2 ^ 32)).result (.reg (rd + 1)) (BitVec.ofNat 40 (v / 2 ^ 32 % 2 ^ 32)) 2 false

def State.putLoad (s : State) (n : Fin 18) (kind : LoadKind) (rd : Fin 32) (v : Nat) : State :=
  s.onPe n (·.putLoad kind rd v)

/-- A word of DMEM read by the engine at an address, with what its check bits show (R150). -/
def State.dmemLoad (s : State) (n : Fin 18) (off size : Nat) (ecc : Ecc) : Nat × State :=
  let m := (s.pe n).dmem
  if m.isBad off || ecc == .double then
    (0, (s.onPe n fun e => { e with dmem := e.dmem.setBad (off / 8) }).raisePe n F_PE_DMEM_UE)
  else
    let s1 := if ecc == .single then (s.bump (PE_ECC_CNT n) PE_ECC_CNT_DMEM_CE 1).raisePe n F_PE_DMEM_CE else s
    (ofLe (m.bytes off size), s1)

/-- A store into the source DMEM of a migration sets the line's dirty bit (R280). -/
def State.markDirty (s : State) (n : Fin 18) (off : Nat) : State :=
  match s.pers.mig with
  | some m =>
    if m.src = n then
      { s with pers := { s.pers with mig := some { m with dirty := SMap.set (fun _ => false) m.dirty (off / 64) true } } }
    else s
  | none => s

/-- DMEM written by the engine. A store of 8 bytes gives its word fresh check bits. -/
def State.dmemStore (s : State) (n : Fin 18) (off : Nat) (bs : List Byte) : State :=
  (s.markDirty n off).onPe n fun e => { e with dmem := (if bs.length = 8 then e.dmem.clearBad (off / 8) else e.dmem).putBytes off bs }

/-! ## Events (R172) -/

/-- ECS_EVENT of an engine. -/
def State.ecsEvent (s : State) (n : Fin 18) : Nat :=
  let e := s.pe n
  let timers := sumOf ((List.finRange 4).map fun i => b2n (e.timers[i]).fired * 2 ^ (8 + i.val))
  let slotBits := match e.slot with
    | none => 0
    | some l =>
      sumOf ((List.range 8).map fun q => b2n (!(s.eq l q).isEmpty) * 2 ^ q) + b2n (s.dbNotifies l) * 2 ^ 12 +
        b2n ((List.range 8).any fun b => s.busSlot b == some l.val && (s.bus b).mwEvent &&& (s.bus b).even != 0) * 2 ^ 13 +
        b2n ((List.range 32).any fun q => s.seqSlot q == some l.val && s.seqEvent q &&& (s.seqSt q).even != 0) * 2 ^ 14
  slotBits + timers + b2n e.snapReady * 2 ^ 15

/-- An enabled event is pending (R171). -/
def State.eventPending (s : State) (n : Fin 18) : Bool := s.ecsEvent n &&& (s.pe n).even != 0

/-! ## The frame access unit (R153 to R165) -/

def State.onFau (s : State) (n : Fin 18) (f : Fau → Fau) : State := s.onPe n fun e => { e with fau := f e.fau }

/-- The open receive frame. -/
def State.rxOpen (s : State) (n : Fin 18) : Option Frame :=
  match (s.pe n).fau.rx with
  | some (_, fid) => s.frame fid
  | none => none

/-- A read of FAU_RX_POP (R154 to R156): the handle. -/
def State.fauPop (s : State) (n : Fin 18) : Nat × State :=
  let e := s.pe n
  match e.slot, e.fau.rx with
  | _, some _ => (0, s.raisePe n F_PE_FAU_ERR)
  | none, none => (0, s)
  | some l, none =>
    match [7, 6, 5, 4, 3, 2, 1, 0].find? fun q => bitOf e.fau.qen q && !(s.eq l q).isEmpty with
    | none => (0, s)
    | some q =>
      match s.eq l q with
      | [] => (0, s)
      | fid :: rest =>
        let s1 := (s.setEq l q rest).onFau n fun f =>
          { f with rx := some (q, fid), rxAhead := bitOf f.ahead q, ahead := setBit f.ahead q false }
        match s1.frame fid with
        | none => (0, s1)
        | some f =>
          (2 ^ 31 + q * 2 ^ 28 + b2n f.err * 2 ^ 27 + b2n f.redelivered * 2 ^ 26 + f.src * 2 ^ 24 +
            (if f.src = 0 then f.port * 2 ^ 20 else 0) + f.bytes.length, s1)

/-- Bytes `[i, i + size)` of the open receive frame; those at or beyond LENGTH read 0 (R158). -/
def State.rxBytes (s : State) (n : Fin 18) (i size : Nat) : Nat :=
  match s.rxOpen n with
  | some f => ofLe ((List.range size).map fun k => f.bytes.getD (i + k) 0)
  | none => 0

/-- The bytes of a posted window store reach the frame (R159, R163). -/
def State.applyStore (s : State) (n : Fin 18) (st : FarStore) : State :=
  match st.to_ with
  | .rx fid idx =>
    match s.frame fid with
    | some f => s.setFrame fid (some { f with bytes := overlay f.bytes idx st.data })
    | none => s
  | .tx idx =>
    s.onFau n fun f => { f with tx := f.tx.map fun t =>
      { t with bytes := st.data.zipIdx.foldl (fun m e => SMap.set (fun _ => 0) m (idx + e.2) e.1) t.bytes } }
  | _ => s

/-- The window stores of the frame being closed reach it first; their buffer entries stay until accepted. -/
def State.flushWindow (s : State) (n : Fin 18) (rx : Bool) : State :=
  let mine := fun (st : FarStore) => match st.to_ with | .rx _ _ => rx | .tx _ => !rx | _ => false
  let s1 := ((s.pe n).wbuf.filter mine).foldl (fun t st => t.applyStore n st) s
  s1.onPe n fun e => { e with wbuf := e.wbuf.map fun st => if mine st then { st with to_ := .gone } else st }

/-- A write of FAU_RX_DONE (R160, R161, R609). -/
def State.fauRxDone (s : State) (n : Fin 18) (v : Nat) : State :=
  match (s.pe n).fau.rx with
  | none => s.raisePe n F_PE_FAU_ERR
  | some (_, fid) =>
    let s1 := (s.flushWindow n true).onFau n fun f => { f with rx := none, rxAhead := false }
    let action := v % 4
    let s2 := if 2 ≤ action then s1.raisePe n F_PE_FAU_ERR else s1
    match s2.frame fid with
    | none => s2
    | some f =>
      if action = 1 && !f.err && !f.bad then
        let one := bitOf v 4
        (s2.setFrame fid (some { f with oneStep := one, txSlot := if one then (s.pe n).slot.map Fin.val else none })).deliver fid
          { Dest.nowhere with ports := portsOf (bitsOf v 31 16) 16 (bitsOf v 10 8) }
      else s2.collect fid

/-- A write of FAU_TX_ALLOC (R162). A length outside 60 to 9,216 requests nothing. -/
def State.fauAlloc (s : State) (n : Fin 18) (len : Nat) : State :=
  let e := s.pe n
  if e.fau.tx.isSome then s.raisePe n F_PE_FAU_ERR
  else if len < 60 ∨ 9216 < len then s
  else
    let ok := match e.slot with | some l => s.admitSlot l (cellsOf len) | none => false
    let s1 := s.onFau n fun f =>
      if ok then { f with tx := some ⟨len, [], [], cellsOf len⟩, allocStat := 2 ^ 31 } else { f with allocStat := 2 ^ 30 }
    match e.slot with | some l => s1.noteSlot l false | none => s1

/-- The staging buffer is written to the cells (R163). -/
def Fau.flush (f : Fau) : Fau :=
  { f with tx := f.tx.map fun t =>
      { t with bytes := t.staging.foldl (fun m e => SMap.set (fun _ => 0) m (f.txBase + e.1) e.2) t.bytes, staging := [] } }

/-- A write of FAU_TX_BASE (R163): a change writes the staging buffer out. -/
def State.fauTxBase (s : State) (n : Fin 18) (v : Nat) : State :=
  let base := v % 2 ^ 14 / 64 * 64
  s.onFau n fun f => if base = f.txBase then f else { f.flush with txBase := base }

/-- A write of FAU_TX_SEND (R164, R165). -/
def State.fauSend (s : State) (n : Fin 18) (v : Nat) : State :=
  let s1 := (s.flushWindow n false).onFau n Fau.flush
  match (s1.pe n).fau.tx with
  | none => s.raisePe n F_PE_FAU_ERR
  | some t =>
    let s2 := s1.onFau n fun f => { f with tx := none }
    let action := v % 4
    if action = 0 then s2
    else if action = 3 then s2.raisePe n F_PE_FAU_ERR
    else
      let bytes := (List.range t.len).map fun k => SMap.get (fun _ => 0) t.bytes k
      let one := bitOf v 4 && action == 1
      let tagged := isTagged 0x8100 bytes
      let tci := be bytes 14 2
      let (fid, s3) := s2.store
        { bytes := bytes, src := 2, port := 0, ring := none, slot := (s.pe n).slot.map Fin.val, tsNs := 0, tsFrac := 0,
          err := false, bad := false, redelivered := false, entry := 0xFFFF, tagged := tagged, tci := tci, vid := tci % 4096,
          pcp := tci / 8192, dei := bitOf tci 12, gen := s.rd SWC_FCT_FENCE SWC_FCT_FENCE_GEN, op := 0, opVid := 0,
          oneStep := one, report := none, txSlot := if one then (s.pe n).slot.map Fin.val else none, redSeq := none }
      s3.deliver fid (if action = 1 then
          { Dest.nowhere with ports := portsOf (bitsOf v 31 16) 16 (bitsOf v 10 8) }
        else { Dest.nowhere with ring := some (bitsOf v 24 16) })

/-- The handle's frame data of FAU_RX_META. -/
def State.rxMeta (s : State) (n : Fin 18) : Nat :=
  match s.rxOpen n with
  | some f => f.entry * 2 ^ 32 + f.tci * 2 ^ 16 + b2n f.tagged * 2 ^ 15
  | none => 0

/-! ## Timers, snapshots and transmit timestamps (R166 to R170, R667) -/

/-- A write of ETM_SNAP_REQ (R167). -/
def State.snapReq (s : State) (n : Fin 18) : State :=
  s.onPe n fun e =>
    { e with snapCyc := e.cycles, snapNs := s.now, snapFrac := s.tb.frac, snapPend := true, snapReady := false }

/-- A write of ETMn_CTRL (R168, R170): an absolute timer enabled with a compare already past fires at once with LATE. -/
def State.timerCtrl (s : State) (n : Fin 18) (i : Fin 4) (v : Nat) : State :=
  s.onPe n fun e =>
    let t := e.timers[i]
    let en := bitOf v 0
    let t1 := { t with en := en, absolute := bitOf v 1, periodic := bitOf v 2, spent := t.spent && t.en }
    let t2 := if en && !t.en && t1.absolute && decide (t1.cmp < s.now) then t1.fire true else t1
    { e with timers := e.timers.set i t2 }

/-- A read of ETM_TXTS_INFO: the head entry is returned and removed (R667). -/
def State.txtsPop (s : State) (n : Fin 18) : Nat × State :=
  match (s.pe n).slot with
  | none => (0, s)
  | some l =>
    let (q, lost) := SMap.get (fun _ => ([], 0)) s.swc.txts l.val
    let set := fun (v : List TxTs × Nat) => { s with swc := { s.swc with txts := SMap.set (fun _ => ([], 0)) s.swc.txts l.val v } }
    match q with
    | [] => (lost * 2 ^ 24, set ([], 0))
    | x :: rest =>
      (2 ^ 31 + b2n x.inserted * 2 ^ 30 + lost * 2 ^ 24 + x.quarter * 2 ^ 22 + x.port * 2 ^ 16 + x.seq, set (rest, 0))

/-- The time of the head entry of the transmit timestamp queue. -/
def State.txtsHead (s : State) (n : Fin 18) : Nat :=
  match (s.pe n).slot with
  | none => 0
  | some l => (((SMap.get (fun _ => ([], 0)) s.swc.txts l.val).1.head?.map (·.ns)).getD 0)

/-- The timer that an ETM offset names, and the register of it. -/
def timerAt (off : Nat) : Option (Fin 4 × Nat) :=
  if h : 0x40 ≤ off ∧ off < 0xC0 then some (⟨(off - 0x40) / 0x20, by omega⟩, (off - 0x40) % 0x20) else none

/-! ## Cycle boundaries (R173, R174) -/

/-- A write of ECS_BOUNDARY. -/
def State.boundary (s : State) (n : Fin 18) : State :=
  let e := s.pe n
  let s1 := s.setReg (PE_CYC_CNT n) (s.reg (PE_CYC_CNT n) + 1)
  let len := e.cycles - e.lastBoundary
  let s2 := if (s1.reg (PE_MAXCYC n)).toNat < len then s1.setReg (PE_MAXCYC n) (BitVec.ofNat 32 (stopAt (2 ^ 32 - 1) len)) else s1
  s2.onPe n fun e =>
    let e1 := { e with lastBoundary := e.cycles, wdog := 0, longest := max e.longest len }
    if !e.stopPend then e1
    else if e.fau.rx.isSome || e.fau.tx.isSome then { e1 with deferred := stopAt 255 (e.deferred + 1) }
    else { e1 with state := .stopped }

/-! ## Near registers -/

/-- The 64-bit content of the 8-byte granule at `off` of the frame access unit, the timers or the control registers, as a load
of it finds it; pops have their effect. -/
def State.nearRead (s : State) (n : Fin 18) : Region → Nat × State
  | .fau off =>
    let f := (s.pe n).fau
    match off with
    | 0x800 => s.fauPop n
    | 0x808 => (f.rxBase, s)
    | 0x810 => (s.rxMeta n, s)
    | 0x818 => (((s.rxOpen n).map (·.tsNs)).getD 0, s)
    | 0x820 => (((s.rxOpen n).map (·.tsFrac)).getD 0, s)
    | 0x838 => (f.txBase, s)
    | 0x848 => (f.qen, s)
    | 0x850 => (match (s.pe n).slot with
        | some l => sumOf ((List.range 8).map fun q => b2n (!(s.eq l q).isEmpty) * 2 ^ q)
        | none => 0, s)
    | _ => (0, s)
  | .etm off =>
    let e := s.pe n
    match timerAt off with
    | some (i, r) =>
      let t := e.timers[i]
      match r with
      | 0x00 => (b2n t.en + b2n t.absolute * 2 + b2n t.periodic * 4, s)
      | 0x08 => (t.cmp, s)
      | 0x10 => (t.period, s)
      | _ => (b2n t.fired + b2n t.late * 2, s)
    | none =>
      match off with
      | 0x000 => (e.cycles, s)
      | 0x010 => (e.snapNs, s)
      | 0x018 => (b2n e.snapReady * 2 ^ 31 + e.snapFrac, s)
      | 0x020 => (e.snapCyc, s)
      | 0x100 => (s.txtsHead n, s)
      | 0x108 => s.txtsPop n
      | _ => (0, s)
  | .ecs off =>
    let e := s.pe n
    match off with
    | 0x000 => (s.ecsEvent n, s)
    | 0x008 => (e.even, s)
    | 0x020 => (n.val * 256 + (match e.slot with | some l => l.val | none => 0), s)
    | 0x028 => (b2n e.stopPend, s)
    | _ => (0, s)
  | _ => (0, s)

/-- Bytes `[at, at + size)` of a 64-bit value. -/
def part64 (v at_ size : Nat) : Nat := v / 256 ^ at_ % 256 ^ size

/-- A store of bytes at offset `at_` of the granule at `off`; `old` is what a readable register holds. -/
def merge64 (old at_ : Nat) (bs : List Byte) : Nat := ofLe (overlay (leBytes 8 old) at_ bs)

/-- A store to the granule at an offset of the frame access unit, the timers or the control registers. A register that acts on
a write acts when the store covers its lowest byte. -/
def State.nearWrite (s : State) (n : Fin 18) (r : Region) (at_ : Nat) (bs : List Byte) : State :=
  let v := ofLe bs
  let low := at_ == 0
  let e := s.pe n
  match r with
  | .fau off =>
    let f := e.fau
    match off with
    | 0x808 => s.onFau n fun f => { f with rxBase := merge64 f.rxBase at_ bs % 2 ^ 14 / 64 * 64 }
    | 0x828 => if low then s.fauRxDone n v else s
    | 0x830 => if low then s.fauAlloc n (v % 2 ^ 32) else s
    | 0x838 => s.fauTxBase n (merge64 f.txBase at_ bs)
    | 0x840 => if low then s.fauSend n v else s
    | 0x848 => s.onFau n fun f => { f with qen := merge64 f.qen at_ bs % 256 }
    | _ => s
  | .etm off =>
    match timerAt off with
    | some (i, r) =>
      let t := e.timers[i]
      match r with
      | 0x00 => if low then s.timerCtrl n i v else s
      | 0x08 => s.onPe n fun e => { e with timers := e.timers.set i { t with cmp := merge64 t.cmp at_ bs } }
      | 0x10 => s.onPe n fun e => { e with timers := e.timers.set i { t with period := merge64 t.period at_ bs } }
      | _ =>
        if low then s.onPe n fun e =>
          { e with timers := e.timers.set i { t with fired := t.fired && !bitOf v 0, late := t.late && !bitOf v 1 } }
        else s
    | none => if off = 8 ∧ low then s.snapReq n else s
  | .ecs off =>
    match off with
    | 0x008 => s.onPe n fun e => { e with even := merge64 e.even at_ bs % 2 ^ 16 }
    | 0x010 => if low then s.boundary n else s
    | 0x018 => if low then s.onPe n fun e => { e with wdog := 0 } else s
    | _ => s
  | _ => s

/-- The granule that holds an address of a near register. -/
def Region.granule : Region → Region × Nat
  | .fau off => (.fau (off / 8 * 8), off % 8)
  | .etm off => (.etm (off / 8 * 8), off % 8)
  | .ecs off => (.ecs (off / 8 * 8), off % 8)
  | r => (r, 0)

/-! ## Loads and stores at the engine (R140 to R146, R231) -/

/-- The load stalls the engine. -/
def State.stallOn (s : State) (n : Fin 18) (st : Stall) : State × Bool :=
  (s.onPe n fun e => { e.disturb with stall := some st }, false)

/-- A load of the present bundle; the answer says whether the bundle ends. -/
def State.loadAt (s : State) (n : Fin 18) (addr : Nat) (kind : LoadKind) (rd : Fin 32) (ecc : Ecc) : State × Bool :=
  let size := kind.size
  let e := s.pe n
  let far := s.stallOn n (.load addr kind rd)
  let near := fun (r : Region) =>
    let (g, i) := r.granule
    let (v, s1) := s.nearRead n g
    (s1.putLoad n kind rd (part64 v i size), true)
  if addr % size ≠ 0 then ((s.raiseAcc n F_PE_ALIGN addr size false).putLoad n kind rd 0, true)
  else
    match regionOf addr with
    | .nothing => ((s.raiseAcc n F_PE_ADDR_ERR addr size false).putLoad n kind rd 0, true)
    | .dmem off =>
      let (v, s1) := s.dmemLoad n off size ecc
      (s1.putLoad n kind rd v, true)
    | .rxWin k =>
      if 256 ≤ e.fau.rxBase + k then far
      else if e.fau.rx.isSome && !e.fau.rxAhead then s.stallOn n (.fetch addr kind rd)
      else (s.putLoad n kind rd (s.rxBytes n (e.fau.rxBase + k) size), true)
    | .txWin k => if 256 ≤ k then far else (s.putLoad n kind rd 0, true)
    | .fau off => if off / 8 * 8 = 0x830 then far else near (.fau off)
    | .etm off =>
      if (off / 8 * 8 = 0x10 || off / 8 * 8 = 0x18) && e.snapPend then s.stallOn n (.snap addr kind rd) else near (.etm off)
    | .ecs off => near (.ecs off)
    | _ => far

/-- Post a far store, or stall on a full write buffer (R143). -/
def State.postStore (s : State) (n : Fin 18) (st : FarStore) : State × Bool :=
  if 8 ≤ (s.pe n).wbuf.length then s.stallOn n (.store st)
  else (s.onPe n fun e => { e with wbuf := e.wbuf ++ [st] }, true)

/-- A store of the present bundle; the answer says whether the bundle ends. -/
def State.storeAt (s : State) (n : Fin 18) (addr : Nat) (bs : List Byte) : State × Bool :=
  let size := bs.length
  let e := s.pe n
  let near := fun (r : Region) =>
    let (g, i) := r.granule
    (s.nearWrite n g i bs, true)
  if addr % size ≠ 0 then (s.raiseAcc n F_PE_ALIGN addr size true, true)
  else
    match regionOf addr with
    | .nothing => (s.raiseAcc n F_PE_ADDR_ERR addr size true, true)
    | .dmem off => (s.dmemStore n off bs, true)
    | .rxWin k =>
      let i := e.fau.rxBase + k
      let len := ((s.rxOpen n).map (·.bytes.length)).getD 0
      let s1 := if len < i + size then s.raisePe n F_PE_FAU_ERR else s
      match e.fau.rx with
      | some (_, fid) => if i < len then s1.postStore n ⟨addr, bs.take (len - i), e.lastPc, .rx fid i⟩ else (s1, true)
      | none => (s1, true)
    | .txWin k =>
      if 256 ≤ k then s.postStore n ⟨addr, bs, e.lastPc, .tx (e.fau.txBase + k)⟩
      else
        (s.onFau n fun f => { f with tx := f.tx.map fun t =>
          { t with staging := bs.zipIdx.foldl (fun m x => SMap.set (fun _ => 0) m (k + x.2) x.1) t.staging } }, true)
    | .fau off => near (.fau off)
    | .etm off => near (.etm off)
    | .ecs off => near (.ecs off)
    | _ => s.postStore n ⟨addr, bs, e.lastPc, .bus⟩

/-! ## Far accesses (R142 to R145, R177) -/

/-- The owner code of the slot an engine serves (R366). -/
def Engine.ownerCode (e : Engine) : Nat := match e.slot with | some l => 0x10 + l.val | none => 0xFF

/-- A bank access of an engine that does not own the bank (R177). -/
def State.bankOwn (s : State) (n : Fin 18) (addr size : Nat) (store : Bool) : State :=
  s.raiseAcc n F_PE_BANK_OWN addr size store

/-- Two 32-bit reads, low word first. -/
def read64 (s : State) (f : State → Nat → Nat × State) (off : Nat) : Nat × State :=
  let a := f s off
  let b := f a.2 (off + 4)
  (a.1 + b.1 * 2 ^ 32, b.2)

/-- A read of `size` bytes through 32-bit reads of a window. -/
def readWindow (s : State) (f : State → Nat → Nat × State) (off size : Nat) : Nat × State :=
  if size = 8 then read64 s f off
  else
    let (v, s1) := f s (off / 4 * 4)
    (part64 v (off % 4) size, s1)

/-- A far load is answered: its value, or none while the target does not answer (R145, R373). -/
def State.farLoad (s : State) (n : Fin 18) (addr size : Nat) (ecc : Ecc) : Option Nat × State :=
  let e := s.pe n
  let l := e.slotNo
  match regionOf addr with
  | .rxWin k =>
    match ecc, e.fau.rx with
    | .double, some (_, fid) =>
      let s1 := match s.frame fid with | some f => s.setFrame fid (some { f with bad := true }) | none => s
      (some 0, s1.raise .mem F_MEM_UE [])
    | .single, _ => (some (s.rxBytes n (e.fau.rxBase + k) size), s.raise .mem F_MEM_CE [])
    | _, _ => (some (s.rxBytes n (e.fau.rxBase + k) size), s)
  | .fau off => (some (part64 e.fau.allocStat (off % 8) size), s)
  | .mbx off =>
    if s.boot.blkReset.contains 3 then (none, s)
    else if l ≥ 16 then (some 0, s)
    else if size < 4 then (some 0, s.winBadSize l n off)
    else
      let (v, s1) := readWindow s (fun t o => let (w, t1) := t.winRead l o; (w.toNat, t1)) off size
      (some v, s1)
  | .mdb off =>
    let b := off / 0x200
    if s.boot.blkReset.contains (8 + b) then (none, s)
    else if s.busSlot b ≠ some l then (some 0, s.winErr b l 0)
    else
      let (v, s1) := readWindow s (fun t o => t.busRead b o ecc) (off % 0x200) size
      (some v, s1)
  | .psq off =>
    let q := off / 0x80
    if s.boot.blkReset.contains 0x12 then (none, s)
    else if size = 8 ∧ off % 0x80 ≠ 8 then
      let (v, s1) := read64 s (fun t o => t.seqRead q l o 4) (off % 0x80)
      (some v, s1)
    else
      let (v, s1) := s.seqRead q l (off % 0x80 / 4 * 4) size
      (some (part64 v (off % 4) size), s1)
  | .bank off =>
    match s.bankLoad n e.ownerCode (off / 0x20000) (off % 0x20000) size false ecc with
    | (.wait, s1) => (none, s1)
    | (.denied, s1) => (some 0, s1.bankOwn n addr size false)
    | (.poisoned, s1) => (some 0, s1)
    | (.data bs, s1) => (some (ofLe bs), s1)
  | _ => (some 0, s)

/-- The word of a bus window with bytes replaced. -/
def State.busMerge (s : State) (b off : Nat) (bs : List Byte) : Word :=
  let o := off / 4 * 4
  let old := if o = 0 ∨ (0x10 ≤ o ∧ o < 0x20) ∨ o = 0x60 ∨ o = 0x6C then (s.busRead b o .ok).1 else 0
  BitVec.ofNat 32 (ofLe (overlay (leBytes 4 old) (off % 4) bs))

/-- Single bytes stored to the data window of a transmit buffer (R776). -/
def State.busBytes (s : State) (b l off : Nat) (bs : List Byte) : State :=
  let x := s.bus b
  let sel := x.txSel.toNat % 32
  let t := x.buf sel
  if t.pending then s.winErr b l sel
  else
    let base := x.txSel.toNat / 2 ^ 16 % 16 * 128 + (off - 0x80)
    s.setBus b (x.setBuf sel { t with
      data := bs.zipIdx.foldl (fun m e => SMap.set (fun _ => 0) m (base + e.2) e.1) t.data })

/-- A store of bytes to the window of bus b by the slot that holds it. -/
def State.busStore (s : State) (b l off : Nat) (bs : List Byte) : State :=
  if 0x80 ≤ off ∧ off < 0x100 then s.busBytes b l off bs
  else if off / 4 * 4 = 0x180 then (if off % 4 = 0 then s.sleepCtrl b (BitVec.ofNat 32 (ofLe bs)) else s)
  else if bs.length = 8 then
    (s.busWrite b l off (BitVec.ofNat 32 (ofLe (bs.take 4)))).busWrite b l (off + 4) (BitVec.ofNat 32 (ofLe (bs.drop 4)))
  else s.busWrite b l (off / 4 * 4) (s.busMerge b off bs)

/-- A posted store is accepted by its target, or not yet (R143, R145, R373). -/
def State.farStore (s : State) (n : Fin 18) (st : FarStore) (ecc : Ecc) : Bool × State :=
  let e := s.pe n
  let l := e.slotNo
  let size := st.data.length
  let w := BitVec.ofNat 32 (ofLe (st.data.take 4))
  match st.to_ with
  | .bus =>
    match regionOf st.addr with
    | .mbx off =>
      if s.boot.blkReset.contains 3 then (false, s)
      else if l ≥ 16 then (true, s)
      else if size < 4 then (true, s.winBadSize l n off)
      else
        let s1 := s.winWrite l n off w
        (true, if size = 8 then s1.winWrite l n (off + 4) (BitVec.ofNat 32 (ofLe (st.data.drop 4))) else s1)
    | .mdb off =>
      let b := off / 0x200
      if s.boot.blkReset.contains (8 + b) then (false, s)
      else if s.busSlot b ≠ some l then (true, s.winErr b l 0)
      else (true, s.busStore b l (off % 0x200) st.data)
    | .psq off =>
      let q := off / 0x80
      if s.boot.blkReset.contains 0x12 then (false, s)
      else
        let s1 := if off % 4 = 0 then s.seqWrite q l (off % 0x80) w else s
        (true, if size = 8 then s1.seqWrite q l (off % 0x80 + 4) (BitVec.ofNat 32 (ofLe (st.data.drop 4))) else s1)
    | .bank off =>
      match s.bankStore n e.ownerCode (off / 0x20000) (off % 0x20000) st.data false ecc with
      | (.wait, s1) => (false, s1)
      | (.denied, s1) => (true, s1.bankOwn n st.addr size true)
      | (_, s1) => (true, s1)
    | _ => (true, s)
  | _ => (true, s.applyStore n st)

/-- The stall ends and its bundle with it. -/
def State.endStall (s : State) (n : Fin 18) : State := s.onPe n fun e => { e with stall := none }.finishBundle

/-- The head of the write buffer leaves it; a store or a FENCE that waited for it goes on (R143, R229). -/
def State.wbufPop (s : State) (n : Fin 18) : State :=
  let s1 := (s.onPe n fun e => { e with wbuf := e.wbuf.drop 1 }).markerMoves n 1
  match (s1.pe n).stall with
  | some (.store st) => (s1.onPe n fun e => { e with wbuf := e.wbuf ++ [st] }).endStall n
  | some .fence => if (s1.pe n).wbuf.isEmpty then s1.endStall n else s1
  | _ => s1

/-! ## Starts, stops and resets (R179 to R187) -/

/-- START (R179): from LOADED the engine starts afresh; from STOPPED or HALT it resumes. -/
def State.peStart (s : State) (n : Fin 18) : State :=
  let e := s.pe n
  if e.inReset then s
  else match e.state with
  | .loaded =>
    (s.setReg (PE_CYC_CNT n) 0).onPe n fun e => { e with state := .run, cycles := 0, lastBoundary := 0, wdog := 0 }
  | .stopped | .halt => s.onPe n fun e => { e with state := .run, haltCause := 0 }
  | _ => s

/-- STOP (R174): a stop request. -/
def State.peStop (s : State) (n : Fin 18) : State :=
  let e := s.pe n
  if (e.state == .run || e.state == .wait) && !e.stopPend && !e.inReset then
    s.onPe n fun e => { e with stopPend := true, deferred := 0 }
  else s

/-- HALT with a cause (R147, R179, R181). On the target of a migration it waits to be seen by the Mirage unit (R292). -/
def State.peHalt (s : State) (n : Fin 18) (cause : Nat) : State :=
  let e := s.pe n
  if (e.state == .run || e.state == .wait || e.state == .stopped) && !e.inReset then s.onPe n (·.haltReq cause)
  else if e.state == .shadow then s.onPe n fun e => { e with haltPend := some cause }
  else s

/-- An engine reset starts (R185). `after`: START follows it (R949). -/
def State.peReset (s : State) (n : Fin 18) (after : Bool) : State :=
  let e := s.pe n
  if e.state == .idle || e.state == .failed then s
  else s.onPe n fun e => { e with inReset := true, stopPend := false, haltPend := none, startAfter := e.startAfter || after }

/-- The frame open at an engine reset returns to its queue once, and is freed the second time (R186). -/
def State.fauReset (s : State) (n : Fin 18) : State :=
  let e := s.pe n
  let s1 := (s.flushWindow n true).onPe n fun e => { e with fau := Fau.reset }
  match e.fau.rx with
  | none => s1
  | some (q, fid) =>
    match s1.frame fid, e.slot with
    | some f, some l =>
      if f.redelivered then (((s1.collect fid).bump32 (SWC_SLOT_DROP l) 1)).raisePe n F_PE_FAU_ERR
      else (s1.setFrame fid (some { f with redelivered := true })).setEq l q (fid :: s1.eq l q)
    | _, _ => s1.collect fid

/-- The registers of an engine take their start values (R185, R213). -/
def State.peClear (s : State) (n : Fin 18) : State :=
  let top := 0x10000000 + 8 * s.rd (PE_SP_INIT n) PE_SP_INIT_TOP
  let lim := 0x10000000 + 8 * s.rd (PE_STACK_LIMIT n) PE_STACK_LIMIT_LIMIT
  s.onPe n fun e =>
    { Engine.reset with
      w := (Vector.replicate 32 0).set 31 (BitVec.ofNat 32 top)
      stackLimit := BitVec.ofNat 32 lim
      pc := BitVec.ofNat 14 (s.rd (PE_START_PC n) PE_START_PC_PC)
      lastPc := e.lastPc
      state := if s.reg (PE_IMG_ID n) = 0 then .idle else .loaded
      slot := e.slot
      imem := e.imem
      dmem := e.dmem
      busy := e.busy
      stalled := e.stalled
      scrubAt := e.scrubAt
      longest := e.longest }

/-- The timestamps that wait for a slot (R667). -/
def State.txtsClear (s : State) (l : Nat) : State :=
  { s with swc := { s.swc with txts := SMap.set (fun _ => ([], 0)) s.swc.txts l ([], 0) } }

/-- An engine reset completes (R185 to R187, R428). -/
def State.peResetDone (s : State) (n : Fin 18) : State :=
  let e := s.pe n
  let s1 := (s.fauReset n).markerMoves n e.wbuf.length
  let s2 := s1.peClear n
  let s3 := match e.slot with
    | some l => (if s.servingPe l = some n then s2.epReset l else s2).txtsClear l
    | none => s2
  if e.startAfter then s3.peStart n else s3

end Sys2Proof.Machine
end

