-- ==== Sys2Proof/Machine/HlthOps.lean ====
section
/-! DEFINITION. Wear measures and the latches of a unit (R974 to R977). -/

namespace Sys2Proof.Machine

/-- How a kind is measured (R974). -/
inductive Measure where
  | ring | errors | eye | headroom | erases | cycles
  deriving DecidableEq, Repr

def measureOf (k : Nat) : Measure :=
  match k with
  | 0 | 1 | 5 | 6 => .ring
  | 2 | 3 | 4 | 11 => .errors
  | 7 => .headroom
  | 8 | 9 => .eye
  | 10 => .erases
  | _ => .cycles

def State.swapThr (s : State) (k : Nat) : Nat := s.rd (HLTH_KIND_THR k) HLTH_KIND_THR_SWAP
def State.retireThr (s : State) (k : Nat) : Nat := s.rd (HLTH_KIND_THR k) HLTH_KIND_THR_RETIRE

/-- PARAM; 0 acts as 1 (R992). -/
def State.wearParam (s : State) (k : Nat) : Nat :=
  let p := s.rd (HLTH_KIND_PARAM k) HLTH_KIND_PARAM_PARAM
  if p = 0 then 1 else p

/-- `a` over `b` of 1,000, clamped to 0 to 1,000 and rounded down. -/
def permille (a b : Int) : Nat :=
  if b ≤ 0 then (if a < b then 0 else 1000)
  else
    let x := (1000 * a) / b
    if x < 0 then 0 else if 1000 < x then 1000 else x.toNat

/-- The mean of counts. -/
def meanOf (xs : List Nat) : Nat := if xs.isEmpty then 0 else sumOf xs / xs.length

/-- The index of a unit from its measure and reference (R974); `c` is the mean normalised count for a ring oscillator and the
raw measure for the others. -/
def indexOf (m : Measure) (param ref c : Nat) : Nat :=
  match m with
  | .ring => permille ((ref : Int) * param - ((ref : Int) - c) * 10000) ((ref : Int) * param)
  | .errors => permille ((param : Int) - c) param
  | .eye =>
    let part := fun (hi lo min : Nat) =>
      permille ((bitsOf c hi lo : Int) - min) ((bitsOf ref hi lo : Int) - min)
    min (part 23 16 (param / 256)) (part 7 0 (param % 256))
  | .headroom => permille ((c : Int) - param) ((ref : Int) - param)
  | .erases => permille ((param : Int) * 1000 - c) ((param : Int) * 1000)
  | .cycles => permille ((param : Int) * 10000 - c) ((param : Int) * 10000)

/-- A crossing sets its latch, writes a WEAR event and raises its source (R976, R977). -/
def State.crossings (s : State) (k u : Nat) : State :=
  let w := s.wear k u
  let cap := [k * 256 + u]
  let s1 := if !w.worn && decide (w.index < s.swapThr k) then
      ((s.setWear k u { w with worn := true }).wearEvent k u true false false).raise .hlth F_HLTH_WORN cap else s
  let w1 := s1.wear k u
  if !w1.retire && decide (w1.index < s.retireThr k) then
    ((s1.setWear k u { w1 with retire := true }).wearEvent k u false true false).raise .hlth F_HLTH_RETIRE cap else s1

/-- A unit's measure at the end of a period; none: its monitor gave no reading (R974 to R977, R980). -/
def State.measure (s : State) (k u : Nat) (raw : Option Nat) : State :=
  let w := s.wear k u
  match raw with
  | none =>
    let s1 := s.setWear k u { w with missed := if 16 ≤ w.missed then w.missed else w.missed + 1 }
    if w.missed = 15 then s1.raise .hlth F_HLTH_MON_FAIL [k * 256 + u] else s1
  | some r =>
    let m := measureOf k
    let norm := if m = .ring then Config.roNorm (wearKey k u) r else r
    let counted := m == .errors || m == .erases || m == .cycles
    let hist := if m = .ring then (norm :: w.hist).take 16 else []
    let ref := if counted then none else match w.ref with | some x => some x | none => some norm
    let c := if m = .ring then meanOf hist else r
    let idx := if w.failed then 0 else indexOf m (s.wearParam k) (ref.getD 0) c
    (s.setWear k u { w with ref := ref, raw := r, index := idx, valid := true, missed := 0, hist := hist }).crossings k u


end Sys2Proof.Machine
end

