-- ==== Sys2Proof/Machine/PersOps.lean ====
section
/-! DEFINITION. Personality images, the store, bindings and Mirage (file 05). -/

namespace Sys2Proof.Machine

/-! ## Images (R252 to R258, R261) -/

/-- The little-endian field of `n` bytes at a header offset (R252). -/
def Image.u (i : Image) (off n : Nat) : Nat := ofLe (slice i.hdr off n)

/-- A field of the declaration (R256). -/
def Image.decl (i : Image) (off n : Nat) : Nat := i.u (0x80 + off) n

def Image.cycBudget (i : Image) : Nat := i.decl 0x00 4
def Image.periodNs (i : Image) : Nat := i.decl 0x04 4
def Image.boundaryMax (i : Image) : Nat := i.decl 0x0C 2
def Image.dirtyRate (i : Image) : Nat := i.decl 0x0E 2
def Image.bankNeed (i : Image) : Nat := i.decl 0x10 2
def Image.quota (i : Image) : Nat := i.decl 0x12 2
def Image.mdbUsed (i : Image) : Nat := i.decl 0x17 1
def Image.psqUsed (i : Image) : Nat := i.decl 0x18 4
def Image.migratable (i : Image) : Bool := i.decl 0x1C 1 == 1
def Image.hooks (i : Image) : Nat := i.decl 0x1E 2
def Image.paramOff (i : Image) : Nat := i.decl 0x20 4
def Image.paramLen (i : Image) : Nat := i.decl 0x24 4

/-- The next multiple of 64 (R253). -/
def pad64 (n : Nat) : Nat := (n + 63) / 64 * 64

/-- Where the IMEM and DMEM sections begin in an image file, and where it ends (R253). -/
def imageLayout (capsLen imemLen dinitLen : Nat) : Nat × Nat × Nat :=
  let i := pad64 (640 + capsLen)
  let d := pad64 (i + imemLen)
  (i, d, d + dinitLen)

/-- The image a file holds. -/
def parseImage (bs : List Byte) : Image :=
  let h := bs.take 640
  let u := fun (o : Nat) => ofLe (slice h o 4)
  let (i, d, _) := imageLayout (u 0x1C) (u 0x10) (u 0x14)
  ⟨u 8, h, slice bs 640 (u 0x1C), slice bs i (u 0x10), slice bs d (u 0x14), []⟩

def allZero (bs : List Byte) : Bool := bs.all (· == 0)

/-- The header fields lie in the ranges of R252; START_PC, SP_TOP, STACK_LIMIT and WDOG_US fit the registers they become. -/
def headerOk (i : Image) (total : Nat) : Bool :=
  let imem := i.u 0x10 4
  let dinit := i.u 0x14 4
  let off := i.u 0x18 4
  let caps := i.u 0x1C 4
  i.hdr.length == 640 && i.u 0 4 == 0x4B504931 && i.u 4 2 == 2 && i.u 6 2 == 0x280 && i.id != 0 &&
    imem % 8 == 0 && decide (8 ≤ imem) && decide (imem ≤ 0x20000) && dinit % 8 == 0 && decide (dinit ≤ 0x20000) &&
    off % 8 == 0 && decide (off + dinit ≤ 0x20000) && caps % 8 == 0 && decide (caps ≤ 0x1000) &&
    i.u 0x20 4 % 8 == 0 && decide (i.u 0x20 4 < 0x20000) && decide (i.u 0x24 4 ≤ 0x4000) && decide (i.u 0x28 4 < 0x4000) &&
    decide (i.u 0x2C 4 < 0x10000) && allZero (slice i.hdr 0x34 76) && allZero (slice i.hdr 0x1F1 15) &&
    allZero (slice i.hdr 0x260 32) && decide ((imageLayout caps imem dinit).2.2 ≤ total)

/-- The declaration passes R257 and R258. -/
def declOk (i : Image) : Bool :=
  let off := i.paramOff
  let len := i.paramLen
  let bmax := i.boundaryMax
  (i.periodNs == 0 || (decide (2 * i.cycBudget ≤ i.periodNs) && decide ((i.periodNs + 999) / 1000 ≤ bmax))) &&
    decide (1 ≤ bmax) && decide (bmax ≤ 10000) && decide (i.dirtyRate ≤ 1024) && decide (i.bankNeed ≤ 32) &&
    decide (16 ≤ i.quota) && decide (i.quota ≤ 8192) && decide (i.decl 0x1C 1 ≤ 1) && i.decl 0x1D 1 == 0 &&
    decide (i.hooks < 256) && off % 64 == 0 && len % 64 == 0 && decide (64 ≤ len) && decide (len ≤ 4096) &&
    decide (off + len ≤ 0x20000) && allZero (slice i.hdr 0xA8 88) &&
    !(decide (off < 8 * i.u 0x24 4) && decide (8 * i.u 0x28 4 < off + len))

/-- The section hashes match and the padding is 0 (R253, R255). -/
def sectionsOk (i : Image) (bs : List Byte) : Bool :=
  let (im, d, _) := imageLayout i.caps.length i.imem.length i.dinit.length
  Config.sha384 i.imem == slice i.hdr 0x100 48 && Config.sha384 i.dinit == slice i.hdr 0x130 48 &&
    Config.sha384 i.caps == slice i.hdr 0x160 48 &&
    allZero (slice bs (640 + i.caps.length) (im - (640 + i.caps.length))) &&
    allZero (slice bs (im + i.imem.length) (d - (im + i.imem.length)))

/-- The signer's key is accepted: it is the fused one, or an unrevoked entry of the key table (R254). -/
def State.keyOk (s : State) (pub : List Byte) : Bool :=
  let h := Config.sha384 pub
  h == Config.fusedKeyHash () || s.nvm.keys.any fun k => k.1 == h && !k.2

def Image.pubKey (i : Image) : List Byte := slice i.hdr 0x190 97

def Image.sigOk (i : Image) : Bool := Config.ecdsaOk i.pubKey (i.hdr.take 0x200) (slice i.hdr 0x200 96)

/-- The banks an image occupies (R266). -/
def Image.banksNeeded (i : Image) : Nat :=
  (640 + pad64 i.caps.length + pad64 i.imem.length + pad64 i.dinit.length + 0x1FFFF) / 0x20000

def State.image (s : State) (id : Nat) : Option Image := s.pers.images.find? (·.id == id)

/-- The image a slot is bound to. -/
def State.slotImage (s : State) (l : Nat) : Option Image :=
  if (s.slot l).bound then s.image (s.slot l).img else none

/-- A capability record (R261): identifier, lowest and highest level, REQUIRED. -/
structure CapRec where
  id : Nat
  low : Nat
  high : Nat
  required : Bool
  deriving DecidableEq, Repr

/-- The records of a list of bytes, 8 each (R261). -/
def capRecs (bs : List Byte) : List CapRec :=
  (List.range (bs.length / 8)).map fun k =>
    let v := ofLe (slice bs (8 * k) 8)
    ⟨v % 2 ^ 16, bitsOf v 23 16, bitsOf v 31 24, bitOf v 32⟩

/-- The level chosen for a record of the image against the host's records: none where they share no level (R262). -/
def chooseLevel (r : CapRec) (host : List CapRec) : Option Nat :=
  match host.find? (·.id == r.id) with
  | none => none
  | some h =>
    let top := min r.high h.high
    if max r.low h.low ≤ top then some top else none

/-- A REQUIRED capability has no common level (R263). -/
def noCommon (own host : List CapRec) : Bool := own.any fun r => r.required && (chooseLevel r host).isNone

/-- The capability words of the parameter block (R262). -/
def levelWords (own host : List CapRec) : List Nat :=
  ((own.filter fun r => host.any (·.id == r.id)).map fun r => r.id + 2 ^ 16 * (chooseLevel r host).getD 0) ++ [0]

/-- The functions for which a personality offers a host-assisted mode (R256, R264). -/
def Image.hookList (i : Image) : List Nat := (List.range 8).filter fun k => bitOf i.hooks k

/-- The mode in force of a function (R356). -/
def State.funcHost (s : State) (k : Nat) : Bool := s.flag (WADI_FUNC k) WADI_FUNC_CUR

/-- The parameter block (R262, R264). -/
def State.paramBlock (s : State) (i : Image) (host : List CapRec) : List Nat :=
  levelWords (capRecs i.caps) host ++ i.hookList.map fun k => b2n (s.funcHost k)

/-! ## Engines for slots (R183, R312, R327, R328) -/

/-- An engine of the Oasis pool that is idle (R312). -/
def State.idlePe (s : State) (n : Fin 18) : Bool :=
  (s.pe n).state == .idle && !(s.pe n).inReset && (s.pe n).slot.isNone

/-- A slot may use an engine: the forbid mask and the pin allow it (R312, R327, R328). -/
def State.mayUse (s : State) (l : Nat) (n : Fin 18) : Bool :=
  !bitOf (s.rd (WADI_SLOT_CFG l) WADI_SLOT_CFG_FORBID) n &&
    (!s.flag (WADI_SLOT_CFG l) WADI_SLOT_CFG_PIN_EN || s.rd (WADI_SLOT_CFG l) WADI_SLOT_CFG_PIN_ENG == n)

/-- The engine of a list with the highest index, the lowest number among equals (R312). -/
def State.bestOf (s : State) : List (Fin 18) → Option (Fin 18)
  | [] => none
  | n :: ns =>
    match s.bestOf ns with
    | none => some n
    | some m => if s.health kEngine m ≤ s.health kEngine n then some n else some m

/-- The idle engine Wadi chooses for a slot; `worn` also admits worn spares when no other qualifies (R312, R316). -/
def State.placeSlot (s : State) (l : Nat) (worn : Bool) : Option (Fin 18) :=
  let idle := (List.finRange 18).filter fun n => s.idlePe n && s.mayUse l n && !s.mustRetire kEngine n
  match s.bestOf (idle.filter fun n => !s.worn kEngine n) with
  | some n => some n
  | none => if worn then s.bestOf idle else none

/-- A report of Wadi on the EVT rings (R344). The entry's layout is not given: its two payload words are free values, and the
content stands beside it. -/
def State.report (s : State) (kind : Nat) (content : List Nat) : State :=
  let (q2, s1) := s.draw 64
  let (q3, s2) := s1.draw 64
  (s2.event .wadi kind 2 q2 q3).emit (.told kind content)

/-- A pin breaks (R327). -/
def State.breakPin (s : State) (l : Nat) (n cause : Nat) : State :=
  if s.flag (WADI_SLOT_CFG l) WADI_SLOT_CFG_PIN_EN then
    (s.wr (WADI_SLOT_CFG l) WADI_SLOT_CFG_PIN_EN 0).report 0x69 [l, n, cause]
  else s

/-- The pinned engine of a slot has failed or is below its retirement threshold (R327). -/
def State.pinBroken (s : State) (l : Nat) : Bool :=
  let n := s.rd (WADI_SLOT_CFG l) WADI_SLOT_CFG_PIN_ENG
  s.flag (WADI_SLOT_CFG l) WADI_SLOT_CFG_PIN_EN &&
    (if h : n < 18 then (s.pe ⟨n, h⟩).state == .failed || s.mustRetire kEngine n else false)

/-! ## Loading an engine (R268, R270) -/

/-- Write the parameter block into DMEM. -/
def Mem.putWords (m : Mem) (a : Nat) : List Nat → Mem
  | [] => m
  | w :: ws => Mem.putWords (m.putBytes a (leBytes 4 w)) (a + 4) ws

/-- Write IMEM: the section from address 0 up, each word with fresh check bits (R72, R268). -/
def Mem.loadImage (m : Mem) (bs : List Byte) : Mem :=
  { m with bad := m.bad.filter fun w => decide (bs.length ≤ 8 * w) }.putBytes 0 bs

/-- PE registers of step 1 of R270. -/
def State.peRegs (s : State) (n : Fin 18) (i : Image) : State :=
  (((s.setReg (PE_START_PC n) (BitVec.ofNat 32 (i.u 0x20 4))).wr (PE_SP_INIT n) PE_SP_INIT_TOP (i.u 0x24 4)).wr
    (PE_STACK_LIMIT n) PE_STACK_LIMIT_LIMIT (i.u 0x28 4)).wr (PE_WDOG n) PE_WDOG_TIMEOUT (i.u 0x2C 4)

/-- Steps 2 to 5 of R270 and the slot map entry: the engine is then LOADED, at START_PC and SP_TOP. -/
def State.loadPe (s : State) (n : Fin 18) (l : Fin 16) (i : Image) (params : List Nat) : State :=
  let s1 := s.onPe n fun e =>
    { e with
      imem := e.imem.loadImage i.imem
      dmem := (Mem.zeroed.putBytes (i.u 0x18 4) i.dinit).putWords i.paramOff params
      slot := some l }
  let s2 := (s1.setReg (PE_IMG_ID n) (BitVec.ofNat 32 i.id)).peClear n
  { s2 with lastPe := SMap.set (fun _ => 0) s2.lastPe l n }

/-- The capability words and hook words that the slot's parameter block held (R262, R264). -/
def State.keptParams (s : State) (l : Nat) (i : Image) : List Nat :=
  (s.slot l).caps ++ i.hookList.map fun k => b2n (s.funcHost k)

/-- A binding starts its engine: at once in RUN, DEGRADED and SAFE, else at the transition (R271). -/
def State.startBinding (s : State) (l : Nat) (n : Fin 18) : State :=
  if s.mode == .config then s.setSlot l { s.slot l with startPend := true } else s.peStart n

/-! ## Banks (R377, R378) -/

/-- Logical banks with no owner and no handover. -/
def State.unowned (s : State) : List Nat :=
  (List.range 64).filter fun b => s.owner b == 0 && !(s.mem.queued.any fun q => q.1 == b) &&
    (match s.mem.handover with | some h => h.bank != b | none => true)

/-- The supervisor clears the lowest unowned banks and hands them to an owner. -/
def State.grantBanks (s : State) (o : Nat) (bs : List Nat) : State :=
  bs.foldl (fun t b =>
    let p := t.physOf false b
    (t.setBank false p { t.bank false p with mem := Mem.zeroed }).supHandover b o) s

/-- The banks of an owner go back to no owner. -/
def State.releaseBanks (s : State) (o : Nat) : State :=
  (List.range 64).foldl (fun t b => if t.owner b = o then t.supHandover b 0 else t) s

/-- The bytes of an image in the banks of the store. -/
def State.storeBanks (s : State) (bs : List Byte) : List Nat → State
  | [] => s
  | b :: rest =>
    let p := s.physOf false b
    State.storeBanks (s.setBank false p { s.bank false p with mem := Mem.zeroed.putBytes 0 (bs.take 0x20000) })
      (bs.drop 0x20000) rest

/-- The quota of a slot: refused where the pool would fall below its use (R604). -/
def State.setQuota (s : State) (l q : Nat) : State :=
  if s.quotaFits (s.slotQuota l) q then s.wr (SWC_SLOT_BUF l) SWC_SLOT_BUF_QUOTA q
  else s.raise .swc F_SWC_QUOTA_CFG [2 ^ 8 + l]

/-! ## Unbinding (R273) -/

/-- Steps of R273 after the stop, or after BOUNDARY_MAX. -/
def State.unbindNow (s : State) (l : Nat) (ring : Nat) (forced : Bool) : State :=
  let x := s.slot l
  let s1 := match s.servingPe l with
    | some n =>
      let t := (s.setReg (PE_IMG_ID n) 0).peReset n false
      (t.peResetDone n).onPe n fun e => { e with slot := none }
    | none => s
  let s2 := ((s1.dropSlot l).releaseBanks (0x10 + l)).seqRelease x.psq
  ((s2.wr (SWC_SLOT_BUF l) SWC_SLOT_BUF_QUOTA 0).setSlot l SlotSt.free).outageEnd (outSlot l)
    |>.finish ring 0x46 stOk (b2n forced)

/-- The engine of a slot runs or waits. -/
def State.executing (s : State) (n : Fin 18) : Bool := (s.pe n).state == .run || (s.pe n).state == .wait

/-- A slot that is being unbound: its engine has stopped, or has nothing to stop (R273). -/
def State.unbindReady (s : State) (l : Nat) : Bool :=
  (s.slot l).unbind.isSome && !(match s.pers.mig with | some m => m.slot.val == l | none => false) &&
    (match s.servingPe l with
     | none => true
     | some n => !(s.executing n) && (s.pe n).state != .halt)

/-- Slots whose unbind can go on (R273). -/
def State.unbindSettle (s : State) : State :=
  (List.range 16).foldl (fun t l =>
    match (t.slot l).unbind with
    | some r => if t.unbindReady l then t.unbindNow l r false else t
    | none => t) s

/-! ## Mirage (R277 to R293) -/

/-- FINAL_MAX: at least 1 and at most 120 (R298). -/
def State.finalMax (s : State) : Nat :=
  let v := s.rd WADI_MIG_CFG WADI_MIG_CFG_FINAL_MAX
  if v = 0 then 1 else if 120 < v then 120 else v

/-- STOP_THR: values above FINAL_MAX act as FINAL_MAX (R298). -/
def State.stopThr (s : State) : Nat := min (s.rd WADI_MIG_CFG WADI_MIG_CFG_STOP_THR) s.finalMax

/-- PASS_MAX: 0 acts as 1 (R298). -/
def State.passMax (s : State) : Nat :=
  let v := s.rd WADI_MIG_CFG WADI_MIG_CFG_PASS_MAX
  if v = 0 then 1 else v

/-- The dirty lines of a migration. -/
def Mig.lines (m : Mig) : List Nat := m.dirty.map Prod.fst

def State.setMig (s : State) (m : Option Mig) : State := { s with pers := { s.pers with mig := m } }

def State.migStat (s : State) (active : Bool) (phase : Nat) : State :=
  (s.wr WADI_MIG_STAT WADI_MIG_STAT_ACTIVE (b2n active)).wr WADI_MIG_STAT WADI_MIG_STAT_PHASE phase

/-- The blackout of R286 runs: the source has stopped with few enough dirty lines. -/
def State.inBlackout (s : State) : Bool :=
  match s.pers.mig with
  | some m => m.phase == .stopwait && (s.pe m.src).state == .stopped && decide (m.lines.length ≤ s.finalMax)
  | none => false

/-- A migration starts: PREPARE (R278, R279). -/
def State.migBegin (s : State) (l : Fin 16) (src tgt : Fin 18) (act prop : Nat) (retire : Bool) (cmds : List Nat) : State :=
  let s1 := (s.onPe tgt fun e => { e with state := .shadow, haltPend := none }).setMig
    (some ⟨l, src, tgt, .prepare, [], act, prop, retire, cmds, []⟩)
  let s2 := [PE_START_PC, PE_SP_INIT, PE_STACK_LIMIT, PE_WDOG, PE_BP].foldl (fun t r => t.setReg (r tgt) (t.reg (r src))) s1
  let s3 := ((s2.migStat true 1).wr WADI_MIG_STAT WADI_MIG_STAT_CAUSE 0).wr WADI_MIG_STAT WADI_MIG_STAT_POISON 0
  let s4 := ((s3.wr WADI_MIG_STAT WADI_MIG_STAT_SLOT l).wr WADI_MIG_STAT WADI_MIG_STAT_TARGET tgt).wr WADI_MIG_STAT
    WADI_MIG_STAT_SOURCE src
  s4.setReg WADI_MIG_DIRTY 0

/-- PE_CTRL bits act in the order of R180; STEP is not among those a migration holds. -/
def State.peCtrl (s : State) (n : Fin 18) (v : Nat) : State :=
  if bitOf v 3 then s.peReset n false
  else if bitOf v 2 then s.peHalt n 1
  else if bitOf v 1 then s.peStop n
  else if bitOf v 0 then s.peStart n else s

/-- A write of PE_CTRL: held for the source while the blackout runs (R292). -/
def State.peCtrlWrite (s : State) (n : Fin 18) (v : Nat) : State :=
  match s.pers.mig with
  | some m => if m.src = n ∧ s.inBlackout then s.setMig (some { m with ctrl := m.ctrl ++ [v] }) else s.peCtrl n v
  | none => s.peCtrl n v

/-- What waited for the end of a migration: held writes of PE_CTRL, and the stop request of an unbind. -/
def State.migAfter (s : State) (m : Mig) : State :=
  let s1 := m.ctrl.foldl (fun t v => t.peCtrl m.src v) s
  match (s1.slot m.slot).unbind, s1.servingPe m.slot with
  | some _, some n => s1.peStop n
  | _, _ => s1

/-- The commands that waited for a migration end. -/
def State.migFinish (s : State) (m : Mig) (st : Status) (v : Nat) : State :=
  m.cmds.foldl (fun t r => t.finish r (if t.wadi.retire.any (·.2 == r) then 0x49 else 0x47) st v) s

/-- A migration is abandoned (R293). The source resumes where Mirage stopped it. -/
def State.migAbandon (s : State) (cause : Nat) : State :=
  match s.pers.mig with
  | none => s
  | some m =>
    let s1 := s.setMig none
    let s2 := s1.onPe m.tgt fun e => if e.state == .shadow then { e with state := .idle, haltPend := none } else e
    let stopped := m.phase == .stopwait && (s2.pe m.src).state == .stopped
    let s3 := if stopped then s2.peStart m.src
      else if m.phase == .stopwait then s2.onPe m.src fun e => { e with stopPend := false } else s2
    let s4 := ((s3.migStat false 6).wr WADI_MIG_STAT WADI_MIG_STAT_CAUSE cause).bump WADI_MIG_CNT WADI_MIG_CNT_ABANDONED 1
    let s5 := (s4.raiseFor .wadi F_WADI_MIG_ABANDON [m.slot] m.slot).report 0x61 [m.prop, m.act, m.slot, m.src, m.tgt, cause]
    (s5.migFinish { m with cmds := m.cmds.filter fun r => !(s5.wadi.retire.any (·.2 == r)) } stAbandoned cause).migAfter m

/-- Write a line of the source DMEM into the target; a bad line arrives poisoned (R284). -/
def Mem.copyLine (src tgt : Mem) (k : Nat) : Mem :=
  let ws := (List.range 8).map (8 * k + ·)
  let bad := ws.any src.bad.contains
  let t := tgt.putBytes (64 * k) (src.bytes (64 * k) 64)
  ws.foldl (fun m w => if bad then m.setBad w else m.clearBad w) t

/-- The whole source DMEM, line by line (R280). -/
def Mem.copyAll (src : Mem) : Mem :=
  let lines := (List.range 2048).filter fun k => src.bad.any fun w => w / 8 == k
  { src with bad := (lines.map fun k => (List.range 8).map (8 * k + ·)).flatten }

/-- The lines of a list that a copy finds with an uncorrectable error. -/
def badLines (src : Mem) (ks : List Nat) : Nat := (ks.filter fun k => src.bad.any fun w => w / 8 == k).length

def State.poison (s : State) (n : Nat) : State := s.bump WADI_MIG_STAT WADI_MIG_STAT_POISON n

/-- Copy the dirty lines to the target, each bit cleared as its line is read (R280). -/
def State.migCopy (s : State) (m : Mig) : State :=
  let src := (s.pe m.src).dmem
  let s1 := s.onPe m.tgt fun e => { e with dmem := m.lines.foldl (fun t k => src.copyLine t k) e.dmem }
  (s1.poison (badLines src m.lines)).setMig (some { m with dirty := [] })

/-- The first pass copies every line (R280). -/
def State.migCopyAll (s : State) (m : Mig) : State :=
  let src := (s.pe m.src).dmem
  let s1 := s.onPe m.tgt fun e => { e with dmem := src.copyAll }
  (s1.poison (badLines src (List.range 2048))).setMig (some { m with dirty := [] })

/-- A timer as it continues on the target: a periodic one that passed more than one compare fires once, moves past the
present and sets LATE; any other that was passed fires (R290). -/
def EtTimer.carried (t : EtTimer) (now : Nat) : EtTimer :=
  if t.en && !t.spent && t.absolute && decide (t.cmp < now) then
    if t.periodic && t.period != 0 && decide (t.cmp + t.period < now) then
      { t.fire true with cmp := (t.cmp + t.period * ((now - t.cmp) / t.period + 1)) % 2 ^ 64 }
    else t.fire false
  else t

/-- The captured state of the source, written into the target (R286, R290). -/
def Engine.captured (src tgt : Engine) (now : Nat) : Engine :=
  { tgt with
    w := src.w, acc := src.acc, flags := src.flags, pc := src.pc, lastPc := src.lastPc, xfer := src.xfer, pend := []
    half := false, stackLimit := src.stackLimit, state := .run, haltCause := 0, stopPend := false, deferred := 0
    slot := src.slot, stall := none, wbuf := [], fau := { src.fau with rx := none, tx := none, ahead := 0 }
    timers := src.timers.map (·.carried now), cycles := 0, lastBoundary := 0
    snapPend := false, snapReady := src.snapReady || src.snapPend, snapNs := src.snapNs, snapFrac := src.snapFrac
    snapCyc := src.snapCyc, even := src.even, startAfter := false, haltPend := none, wdog := 0 }

/-- The write buffer of the source drains; false where a target does not accept a store (R286). -/
def State.migDrain (fuel : Nat) (s : State) (n : Fin 18) : Bool × State :=
  match fuel with
  | 0 => ((s.pe n).wbuf.isEmpty, s)
  | k + 1 =>
    match (s.pe n).wbuf with
    | [] => (true, s)
    | st :: _ =>
      let (ok, s1) := s.farStore n st .ok
      if ok then State.migDrain k (s1.wbufPop n) n else (false, s)

/-- The source returns to the pool, or is retired (R289, R294). -/
def State.migSource (s : State) (m : Mig) : State :=
  let s1 := (s.setReg (PE_IMG_ID m.src) 0).onPe m.src fun e => { e with slot := none }
  let s2 := (s1.peReset m.src false).peResetDone m.src
  if m.retire then s2.onPe m.src fun e => { e with state := .failed } else s2

/-- The length of a blackout or pause (R302, R303). -/
def State.blackout (s : State) (ns : Nat) : State :=
  let s1 := s.wr WADI_MIG_LAST WADI_MIG_LAST_BLACKOUT_NS ns
  if s1.rd WADI_MIG_MAX WADI_MIG_MAX_BLACKOUT_NS < ns then s1.wr WADI_MIG_MAX WADI_MIG_MAX_BLACKOUT_NS ns else s1

/-- The blackout up to the commit and START of the target (R286 to R290). -/
def State.migCommit (s : State) (m : Mig) (ns : Nat) : State :=
  let (ok, s0) := s.migDrain 16 m.src
  if !ok then s0.migAbandon 9
  else
    let s1 := s0.migCopy m
    let s2 := s1.setPe m.tgt ((s1.pe m.src).captured (s1.pe m.tgt) s.now)
    let s3 := ((s2.setReg (PE_IMG_ID m.tgt) (s2.reg (PE_IMG_ID m.src))).setReg (PE_CYC_CNT m.tgt)
      (s2.reg (PE_CYC_CNT m.src))).setReg (PE_MAXCYC m.tgt) 0
    let s4 := { s3 with lastPe := SMap.set (fun _ => 0) s3.lastPe m.slot m.tgt }.setMig none
    let s5 := (s4.setSlot m.slot { s4.slot m.slot with grace := true }).migSource m
    let s6 := ((s5.migStat false 5).bump WADI_MIG_CNT WADI_MIG_CNT_DONE 1).wr WADI_MIG_LAST WADI_MIG_LAST_FINAL_LINES
      m.lines.length
    let s7 := (s6.blackout ns).report 0x61 [m.prop, m.act, m.slot, m.src, m.tgt, 0]
    let s8 := s7.migFinish m stOk 0
    { s8 with wadi := { s8.wadi with retire := s8.wadi.retire.filter fun r => !(m.retire && r.1 == m.src) } }.migAfter m

/-- Too many lines are dirty at the stop: the source resumes, and PRECOPY returns or the retries are spent (R283). -/
def State.migRetry (s : State) (m : Mig) (ns : Nat) : State :=
  let s1 := s.blackout ns
  let r := s1.rd WADI_MIG_DIRTY WADI_MIG_DIRTY_RETRY
  if s1.rd WADI_MIG_CFG WADI_MIG_CFG_RETRY_MAX ≤ r then s1.migAbandon 3
  else
    let s2 := ((s1.peStart m.src).wr WADI_MIG_DIRTY WADI_MIG_DIRTY_RETRY (r + 1)).wr WADI_MIG_DIRTY WADI_MIG_DIRTY_PASS 1
    (s2.migStat true 2).migCopy { m with phase := .precopy }

/-- What the Mirage unit sees of the two engines between steps (R292). -/
def State.migWatch (s : State) : State :=
  match s.pers.mig with
  | none => s
  | some m =>
    let src := s.pe m.src
    let tgt := s.pe m.tgt
    if tgt.state != .shadow || tgt.inReset || tgt.haltPend.isSome then s.migAbandon 5
    else if src.inReset || src.state == .failed || src.state == .idle || src.state == .loaded || src.state == .halt ||
        (src.state == .stopped && m.phase != .stopwait) then s.migAbandon 4
    else s

/-- A slot whose occupancy is below its quota again loses the headroom of a migration (R290). -/
def State.graceSettle (s : State) : State :=
  (s.slots.map Prod.fst).foldl (fun t l =>
    if (t.slot l).grace && decide (t.slotOcc l < t.slotQuota l) then t.setSlot l { t.slot l with grace := false } else t) s

/-! ## Modes and personalities (R83, R271) -/

/-- Entry to RUN or DEGRADED from CONFIG: bound personalities start. -/
def State.startSlots (s : State) : State :=
  (List.finRange 16).foldl (fun t l =>
    let x := t.slot l
    if !x.bound || !x.startPend then t
    else
      let t1 := t.setSlot l { x with startPend := false }
      match t1.servingPe l with
      | none => t1
      | some n =>
        if (t1.pe n).state == .loaded || (t1.pe n).state == .stopped then t1.peStart n
        else t1.onPe n fun e => { e with stopPend := false }) s

/-- Entry to CONFIG: personalities stop at their next cycle boundary. -/
def State.stopSlots (s : State) : State :=
  (List.finRange 16).foldl (fun t l =>
    match t.servingPe l with
    | some n => if t.executing n then (t.setSlot l { t.slot l with startPend := true }).peStop n else t
    | none => t) s

end Sys2Proof.Machine
end

