-- ==== Sys2Proof/Machine/WadiOps.lean ====
section
/-! DEFINITION. Wadi: functions, shedding and restoring, restarts, candidates, proposals and quotas (file 06). -/

namespace Sys2Proof.Machine

/-- WADI_PERIOD.COUNT. -/
def State.period (s : State) : Nat := (s.reg WADI_PERIOD).toNat

/-- The rank of a slot (R355). -/
def State.slotRank (s : State) (l : Nat) : Nat := s.rd (WADI_SLOT_CFG l) WADI_SLOT_CFG_RANK

/-- The rank of a bus (R353) and of a sequencer (R354). -/
def State.busRank (s : State) (b : Nat) : Nat := bitsOf (s.reg WADI_RANK_MDB).toNat (4 * b + 3) (4 * b)
def State.seqRank (s : State) (q : Nat) : Nat := bitsOf (s.reg (WADI_RANK_PSQ (q / 8))).toNat (4 * (q % 8) + 3) (4 * (q % 8))

/-- The victim of a list of (rank, number): the lowest rank, among equals the highest number (R332). -/
def victimOf : List (Nat × Nat) → Option (Nat × Nat)
  | [] => none
  | x :: xs =>
    match victimOf xs with
    | none => some x
    | some y => if x.1 < y.1 ∨ (x.1 = y.1 ∧ y.2 < x.2) then some x else some y

/-! ## Functions (R338 to R343) -/

/-- The event group of the block whose work a function does. -/
def funcGroup (k : Nat) : Nat := if k = 3 then 5 else if k = 5 then 6 else 4

/-- A host has bound the EVT and CMD rings that a function uses (R340). -/
def State.funcRings (s : State) (k : Nat) : Bool :=
  (s.rings.any fun e => e.2.state == .active && s.ringType e.1 == 5 &&
      bitOf (s.rd (HIF_RING_BIND e.1) HIF_RING_BIND_BIND) (funcGroup k)) &&
    (s.rings.any fun e => e.2.state == .active && s.ringType e.1 == 3)

/-- The slot whose personality serves a function: the lowest that offers it (R340). -/
def State.hookSlot (s : State) (k : Nat) : Option (Fin 16) :=
  (List.finRange 16).find? fun l => match s.slotImage l with | some i => bitOf i.hooks k | none => false

/-- Functions that a personality serves (R339). -/
def byPersonality (k : Nat) : Bool := k == 0 || k == 4 || k == 5

/-- The hook word of a function, in the parameter block of the slot that serves it (R264, R339). -/
def State.writeHook (s : State) (k : Nat) (host : Bool) : State :=
  match s.hookSlot k with
  | none => s
  | some l =>
    match s.slotImage l, s.servingPe l with
    | some i, some n =>
      let pos := (s.slot l).caps.length + (i.hookList.takeWhile (· != k)).length
      s.dmemStore n (i.paramOff + 4 * pos) (leBytes 4 (b2n host))
    | _, _ => s

/-- The totals that a move of function 7 reports (R338). -/
def State.finalTotals (s : State) : List Nat :=
  ((List.range 16).map fun n => (List.range 8).map fun k => SMap.get (fun _ => 0) (s.mac n).totals k).flatten

/-- A function takes a mode at its switch point (R339); `by` is 0 for the host and 1 for Wadi. -/
def State.funcSet (s : State) (k : Nat) (host : Bool) (by_ : Nat) : State :=
  let s1 := ((s.wr (WADI_FUNC k) WADI_FUNC_CUR (b2n host)).wr (WADI_FUNC k) WADI_FUNC_FUNC_MODE (b2n host)).wr (WADI_FUNC k)
    WADI_FUNC_PENDING 0
  let s2 := if byPersonality k then s1.writeHook k host else s1
  s2.report 0x65 ([k, b2n host, by_, 0] ++ (if k = 7 ∧ host then s.finalTotals else []))

/-- A move is refused: FUNC_MODE returns to CUR (R340). -/
def State.funcRefuse (s : State) (k cause : Nat) : State :=
  let cur := s.rd (WADI_FUNC k) WADI_FUNC_CUR
  ((s.wr (WADI_FUNC k) WADI_FUNC_FUNC_MODE cur).wr (WADI_FUNC k) WADI_FUNC_PENDING 0).report 0x65 [k, cur, 2, cause]

/-- A move is asked for (R339, R340). Functions 6 and 7 move at once (R338). -/
def State.funcAsk (s : State) (k : Nat) (host : Bool) (by_ : Nat) : State :=
  if host && !s.funcRings k then s.funcRefuse k 1
  else if host && byPersonality k && (s.hookSlot k).isNone then s.funcRefuse k 2
  else if 6 ≤ k then s.funcSet k host by_
  else (s.wr (WADI_FUNC k) WADI_FUNC_FUNC_MODE (b2n host)).wr (WADI_FUNC k) WADI_FUNC_PENDING 1

/-- A function's slot is migrating (R341). -/
def State.funcMoving (s : State) (k : Nat) : Bool :=
  byPersonality k && (match s.pers.mig, s.hookSlot k with | some m, some l => m.slot == l | _, _ => false)

/-! ## Classes of units (R351, R352) -/

/-- Idle spares of each class that are not worn. -/
def State.idleSpares (s : State) (c : Nat) : Nat :=
  let fit := fun (k : Nat) (us : List Nat) => (us.filter fun u => !s.worn k u).length
  match c with
  | 0 => ((List.finRange 18).filter fun n => s.idlePe n && !s.worn kEngine n).length
  | 1 => fit kShared ((List.range 72).filter fun p => (s.bank false p).role == 1)
  | 2 => fit kBuffer ((List.range 52).filter fun p => (s.bank true p).role == 1)
  | 3 => fit kFct s.spareSubs
  | 4 => fit kPsq s.spareSeqs
  | 5 => fit kMdb s.spareCtrls
  | _ => 0

/-- A MAC is lost: its port is down and still part of the configuration (R336). -/
def State.macLost (s : State) (n : Nat) : Bool := s.flag (MAC_STAT n) MAC_STAT_PORT_DOWN && s.flag (MAC_CTRL n) MAC_CTRL_EN

/-- A host port is lost (R336, R450). In bonded operation port B is not there (R448). -/
def State.portLost (s : State) : Bool := s.portA.lost || (!s.bonded && s.portB.lost)

def State.seqShed (s : State) (q : Nat) : Bool := s.seqMap q == 0x3F

/-- A class has shed or lost units (R333, R336, R352). -/
def State.classOut (s : State) (c : Nat) : Bool :=
  match c with
  | 0 | 1 | 2 => (List.range 16).any fun l => (s.slot l).shed && (s.slot l).shedFor == c
  | 3 => s.rd SWC_FCT_STAT SWC_FCT_STAT_LOST != 0
  | 4 => (List.range 32).any s.seqShed
  | 5 => (List.range 8).any fun b => (s.bus b).shed
  | 6 => (List.range 16).any s.macLost
  | _ => s.portLost

/-- Shed work or a lost MAC or host port remains (R335, R336). -/
def State.outstanding (s : State) : Bool := [0, 1, 2, 4, 5, 6, 7].any s.classOut

/-- WADI_SHORT.SHED as the present losses have it. -/
def State.shedBits (s : State) : Nat := sumOf ((List.range 8).map fun c => b2n (s.classOut c) * 2 ^ c)

/-- Working units of a class and the logical units it serves: a class with fewer is short (R89). -/
def State.fewUnits (s : State) : Bool :=
  let banks := fun (b : Bool) => ((List.range (physBanks b)).filter fun p => (s.bank b p).role != 2).length
  decide ((s.pes.toList.filter fun e => e.state != .failed).length < 16) || decide (banks false < 64) || decide (banks true < 48) ||
    decide (18 - s.swc.subBad.length < 16) || decide (36 - s.psq.bad.length < 32) || decide (9 - s.ctrlBad.length < 8)

/-- A unit class is short (R83, R84). -/
def State.classShort (s : State) : Bool := s.fewUnits || s.outstanding

/-- Step 1 of R332: functions that may be moved go to host-assisted mode. -/
def State.shedFunctions (s : State) : State :=
  if s.wadi.step1 then s
  else
    let s0 := { s with wadi := { s.wadi with step1 := true } }
    (List.range 8).foldl (fun t k =>
      if t.flag (WADI_FUNC k) WADI_FUNC_SHED_OK && !t.funcHost k && !t.wadi.keepHw.contains k then
        let t1 := { t with wadi := { t.wadi with moved := t.wadi.moved ++ [k] } }
        t1.funcAsk k true 1
      else t) s0

/-! ## Shedding (R332 to R334) -/

/-- A slot is shed (R334); its engine is free. -/
def State.shedSlot (s : State) (l : Nat) (cls : Nat) (lostBank : Option Nat) : State :=
  let s0 := match s.pers.mig with | some m => if m.slot.val = l then s.migAbandon 4 else s | none => s
  let s1 := match s0.servingPe l with
    | some n =>
      let t := (s0.setReg (PE_IMG_ID n) 0).onPe n fun e => { e with slot := none }
      (t.peReset n false).peResetDone n
    | none => s0
  let s2 := ((s1.dropSlot l).setSlot l { s1.slot l with shed := true, shedFor := cls, lostBank := lostBank }).outageFrom (outSlot l)
  s2.report 0x63 [cls, l, s.slotRank l, match s.servingPe l with | some n => n.val | none => 31]

/-- A restart of a slot on an engine (R320): reset, image, parameters, START. `readOk`: the readback agrees (R268). The endpoint
takes a new epoch (R428, R433). -/
def State.restartSlot (s : State) (l : Fin 16) (n : Fin 18) (cause : Nat) (readOk : Bool) : State :=
  match s.slotImage l with
  | none => s
  | some i =>
    let old := s.servingPe l
    let s1 := match old with
      | some o =>
        let t := (if o = n then s else s.setReg (PE_IMG_ID o) 0).peReset o false
        if o = n then t.peResetDone o else (t.peResetDone o).onPe o fun e => { e with slot := none }
      | none => (s.epReset l).txtsClear l
    let was := match old with | some o => o.val | none => 31
    if !readOk then
      let s2 := ((s1.setReg (PE_IMG_ID n) 0).onPe n fun e => { e with state := .idle, slot := none }).raiseFor .wadi
        F_WADI_IMG_MISMATCH [l] l
      s2.setSlot l { s2.slot l with shed := true, shedFor := 0 }
    else
      let s2 := ((s1.peRegs n i).loadPe n l i (s1.keptParams l i))
      let s3 := (s2.setSlot l { s2.slot l with shed := false, lostBank := none }).startBinding l n
      (s3.outageEnd (outSlot l)).report 0x6A [l, was, n, cause]

/-- An engine is retired and the ENG_RETIRE that named it ends (R294). -/
def State.retireEngine (s : State) (n : Fin 18) : State :=
  let s1 := s.onPe n fun e => { e with state := .failed, slot := none, stopPend := false }
  let s2 := (s1.wadi.retire.filter (·.1 == n)).foldl (fun t r => t.finish r.2 0x49 stOk 0) s1
  { s2 with wadi := { s2.wadi with retire := s2.wadi.retire.filter (·.1 != n) } }

/-- The bound slots that an engine serves or could serve, with their ranks. -/
def State.victimSlots (s : State) : List (Nat × Nat) :=
  ((List.range 16).filter fun l => (s.slot l).bound && !(s.slot l).shed).map fun l => (s.slotRank l, l)

/-- An engine is lost to slot `l` and no idle engine is left: a victim is shed, and its engine goes to `l` (R332, R333). `wear`
says that the loss is wear, so that a migration can carry it. -/
def State.shortEngine (s : State) (l : Fin 16) (n : Fin 18) (wear : Bool) (readOk : Bool) : State :=
  let s0 := s.lossOf 0 l
  match victimOf s0.victimSlots with
  | none => s0
  | some (_, v) =>
    if v = l.val then (s0.shedSlot l 0 none).retireEngine n
    else
      match s0.servingPe v with
      | none => s0
      | some t =>
        let s1 := s0.shedSlot v 0 none
        match s1.slotImage l with
        | none => s1
        | some i =>
          if wear && i.migratable && s1.pers.mig.isNone && s1.executing n then
            s1.migBegin l n t 2 0 true ((s1.wadi.retire.filter (·.1 == n)).map (·.2))
          else (s1.restartSlot l t 0 readOk).retireEngine n

/-- A lost bus or sequencer of higher rank takes the unit of the victim (R332, R333). -/
def State.shedOther (s : State) (c u : Nat) : State :=
  if c = 5 then
    match victimOf ((List.range 8).filterMap fun b => if (s.bus b).shed && b != u then none else some (s.busRank b, b)) with
    | some (r, v) =>
      if v = u then s.report 0x63 [5, u, r, 15]
      else
        let ctrl := s.ctrlOf v
        ((((s.shedBus v).outageFrom (outBus v)).report 0x63 [5, v, r, ctrl]).moveBus u ctrl).outageEnd (outBus u)
    | none => s
  else if c = 4 then
    match victimOf ((List.range 32).filterMap fun q => if s.seqShed q && q != u then none else some (s.seqRank q, q)) with
    | some (r, v) =>
      if v = u then s.report 0x63 [4, u, r, 63]
      else
        let m := s.seqMap v
        ((((s.shedSeq v).outageFrom (outSeq v)).report 0x63 [4, v, r, m]).restoreSeq u m).outageEnd (outSeq u)
    | none => s
  else s

/-- The losses noted since the last decision (R332). -/
def State.treatLosses (s : State) : State :=
  let ls := s.wadi.lost
  ls.foldl (fun t e => t.shedOther e.1 e.2) { s with wadi := { s.wadi with lost := [] } }

/-! ## Banks (R317, R318, R333) -/

/-- The physical bank behind a logical one must leave service. -/
def State.bankOut (s : State) (buffer : Bool) (p : Nat) : Bool :=
  let k := if buffer then kBuffer else kShared
  (s.wear k p).failed || s.mustRetire k p

/-- A logical bank whose physical bank is worn or has failed (R317). -/
def State.bankCand (s : State) (buffer : Bool) : Option Nat :=
  (List.range (logicalBanks buffer)).find? fun b =>
    let p := s.physOf buffer b
    decide (p < physBanks buffer) && (s.bank buffer p).role == 0 &&
      (s.bankOut buffer p || s.worn (if buffer then kBuffer else kShared) p)

/-- Slot `l` is shed and its bank `v` takes the place of the lost bank `b` of physical bank `p` (R332, R333). -/
def State.giveBank (s : State) (l v b p : Nat) (wear : Bool) (readOk : Nat → Bool) : State :=
  let s1 := s.shedSlot l 1 (some v)
  if v = b then (s1.setBank false p { s1.bank false p with role := 2 }).setPhys false b 255
  else
    let q := s1.physOf false v
    let s2 := (s1.setPhys false v 255).setBank false q { s1.bank false q with role := 1 }
    if wear then s2.startRepair false b
    else
      let s3 := s2.remapLost false b
      let o := s3.owner b
      if h : 0x10 ≤ o ∧ o < 0x20 then
        match s3.servingPe (o - 0x10) with
        | some n => s3.restartSlot ⟨o - 0x10, by omega⟩ n 1 (readOk (o - 0x10))
        | none => s3
      else s3

/-- The banks that slots which are not shed own, with the ranks of those slots (R332). -/
def State.ownedBanks (s : State) : List (Nat × Nat) :=
  (List.range 64).filterMap fun v =>
    let o := s.owner v
    if 0x10 ≤ o ∧ o < 0x20 ∧ !(s.slot (o - 0x10)).shed then some (s.slotRank (o - 0x10), v) else none

/-- A shared bank is lost with no spare: the lowest-ranked slot that owns banks gives one up (R332, R333). -/
def State.shortBank (s : State) (b : Nat) (wear : Bool) (readOk : Nat → Bool) : State :=
  match victimOf s.ownedBanks with
  | none => s.lossOf 1 b
  | some (_, v) => (s.lossOf 1 b).giveBank (s.owner v - 0x10) v b (s.physOf false b) wear readOk

/-- The declared quotas and the switch reserves fit the cells left (R333). -/
def State.quotasFit (s : State) : Bool :=
  decide (sumOf ((List.range 16).map s.portReserve) +
    sumOf ((List.range 16).map fun l => if (s.slot l).shed then 0 else s.slotQuota l) ≤
    1024 * ((List.range 52).filter fun p => (s.bank true p).role == 0).length)

/-- Slots are shed until the quotas fit (R333). -/
def State.shedForCells (fuel : Nat) (s : State) : State :=
  match fuel with
  | 0 => s
  | n + 1 =>
    if s.quotasFit then s
    else
      match victimOf s.victimSlots with
      | none => s
      | some (_, v) => State.shedForCells n (s.shedSlot v 2 none)

/-- A packet buffer bank is lost with no spare: the pool shrinks by its cells (R333). -/
def State.shortBuffer (s : State) (b : Nat) : State :=
  let p := s.physOf true b
  let s1 := ((s.lossOf 2 b).setBank true p { s.bank true p with role := 2 }).setPhys true b 255
  let s2 := (List.range 16).foldl (fun t l =>
    match t.slotImage l with
    | some i => if i.quota < t.slotQuota l then t.wr (SWC_SLOT_BUF l) SWC_SLOT_BUF_QUOTA i.quota else t
    | none => t) s1
  s2.shedForCells 17

/-- Bank sparing of a decision: one repair at a time (R317, R318). -/
def State.spareBanksOf (s : State) (buffer : Bool) (readOk : Nat → Bool) : State :=
  if s.mem.repair.isSome then s
  else
    let ask := s.mem.asks.find? (·.1 == buffer)
    match s.bankCand buffer, ask with
    | some b, _ =>
      let p := s.physOf buffer b
      if (s.spareBank buffer).isSome then s.startRepair buffer b
      else if s.bankOut buffer p then
        if buffer then s.shortBuffer b else s.shortBank b (!(s.wear kShared p).failed) readOk
      else s
    | none, some (_, b) =>
      { s with mem := { s.mem with asks := s.mem.asks.erase (buffer, b) } }.startRepair buffer b
    | none, none => s

/-! ## Other units (R317) -/

/-- A worn or failed sub-array in service is copied to a spare (R598). -/
def State.spareFct (s : State) : State :=
  if s.swc.subCopy.isSome then s
  else
    match (List.range 16).find? (fun l => let p := s.subPhys l; s.worn kFct p || (s.wear kFct p).failed),
        s.bestSpare kFct s.spareSubs with
    | some l, some p => { s with swc := { s.swc with subCopy := some ⟨l, p⟩ } }
    | _, _ => s

/-- A controller or sequencer remap runs (R318). -/
def State.remapping (s : State) : Bool := s.flag MDB8_REMAP MDB8_REMAP_ACTIVE || s.flag PSQ_REMAP PSQ_REMAP_ACTIVE

/-- A worn controller in service is replaced by the best spare that is not worn; one that must retire with no spare is a loss. -/
def State.spareMdb (s : State) : State :=
  match (List.range 8).find? (fun b => !(s.bus b).shed && s.worn kMdb (s.ctrlOf b)) with
  | none => s
  | some b =>
    match s.healthiest kMdb (s.spareCtrls.filter fun c => !s.worn kMdb c) with
    | some c => if s.remapping then s else s.startRemap b c
    | none =>
      if s.mustRetire kMdb (s.ctrlOf b) then
        let c := s.ctrlOf b
        (((({ s with ctrlBad := c :: s.ctrlBad }.shedBus b).outageFrom (outBus b)).lossOf 5 b))
      else s

/-- The same for sequencers (R861). -/
def State.sparePsq (s : State) : State :=
  match (List.range 32).find? (fun q => !s.seqShed q && s.worn kPsq (s.seqMap q)) with
  | none => s
  | some q =>
    match s.healthiest kPsq (s.spareSeqs.filter fun m => !s.worn kPsq m) with
    | some m => if s.remapping then s else s.startSeqRemap q m
    | none =>
      if s.mustRetire kPsq (s.seqMap q) then
        let m := s.seqMap q
        ({ s with psq := { s.psq with bad := m :: s.psq.bad } }.shedSeq q).outageFrom (outSeq q) |>.lossOf 4 q
      else s

/-! ## Restoring (R335, R336) -/

/-- The shed unit of a list that comes back first: the highest rank, the lowest number among equals. -/
def bestRank : List (Nat × Nat) → Option (Nat × Nat)
  | [] => none
  | x :: xs =>
    match bestRank xs with
    | none => some x
    | some y => if y.1 < x.1 ∨ (y.1 = x.1 ∧ x.2 < y.2) then some x else some y

/-- A lost shared bank of a shed slot gets a spare, its content lost (R333, R335). -/
def State.bankBack (s : State) (l : Nat) : Option State :=
  match (s.slot l).shedFor, (s.slot l).lostBank with
  | 1, some b =>
    match s.spareBank false with
    | some p => some ((s.setPhys false b p).setBank false p { s.bank false p with role := 0 })
    | none => none
  | 2, _ => if s.quotasFit then some s else none
  | _, _ => some s

/-- One round of restoring a shed slot. -/
def State.restoreSlot (s : State) (readOk : Nat → Bool) : State :=
  let out := (List.range 16).filter fun l => (s.slot l).shed && (s.slot l).bound
  match bestRank (out.map fun l => (s.slotRank l, l)) with
  | none => s
  | some (_, l) =>
    if h : l < 16 then
      match s.placeSlot l true, s.bankBack l with
      | some n, some s1 => (s1.restartSlot ⟨l, h⟩ n 0 (readOk l)).report 0x64 [(s.slot l).shedFor, l, n]
      | _, _ => s
    else s

/-- One round of restoring a bus and a sequencer. -/
def State.restoreOthers (s : State) : State :=
  let s1 := match bestRank (((List.range 8).filter fun b => (s.bus b).shed).map fun b => (s.busRank b, b)),
      s.bestSpare kMdb s.spareCtrls with
    | some (_, b), some c => ((s.moveBus b c).outageEnd (outBus b)).report 0x64 [5, b, c]
    | _, _ => s
  match bestRank (((List.range 32).filter s1.seqShed).map fun q => (s1.seqRank q, q)), s1.bestSpare kPsq s1.spareSeqs with
  | some (_, q), some m => ((s1.restoreSeq q m).outageEnd (outSeq q)).report 0x64 [4, q, m]
  | _, _ => s1

/-- Shed work comes back as far as units are free (R335). -/
def State.restoreAll (fuel : Nat) (s : State) (readOk : Nat → Bool) : State :=
  match fuel with
  | 0 => s
  | n + 1 =>
    let s1 := (s.restoreSlot readOk).restoreOthers
    if s1.outstanding && decide (s1.shedBits < s.shedBits ∨
        ((List.range 16).filter fun l => (s1.slot l).shed).length < ((List.range 16).filter fun l => (s.slot l).shed).length) then
      State.restoreAll n s1 readOk
    else s1

/-- With nothing outstanding the functions of step 1 go back to hardware mode (R335). -/
def State.functionsBack (s : State) : State :=
  if s.outstanding then s
  else
    let s1 := s.wadi.moved.foldl (fun t k =>
      if t.funcHost k && !t.flag (WADI_FUNC k) WADI_FUNC_PENDING then t.funcAsk k false 1 else t) s
    { s1 with wadi := { s1.wadi with moved := s1.wadi.moved.filter fun k => s1.funcHost k || s1.flag (WADI_FUNC k) WADI_FUNC_PENDING } }

/-! ## Restarts (R319 to R321) -/

/-- A time lies within 1 s of now. -/
def State.recent (s : State) (t : Option Nat) : Bool := match t with | some x => decide (s.now < x + 1000000000) | none => false

def State.haltSrc (s : State) (n : Nat) : Nat := SMap.get (fun _ => 99) s.pers.haltSrc n
def State.recovAt (s : State) (n : Nat) : Option Nat := SMap.get (fun _ => none) s.pers.recovAt n
def State.imemUeAt (s : State) (n : Nat) : Option Nat := SMap.get (fun _ => none) s.pers.imemUeAt n

/-- A fault reaction halts an engine: its source is kept for the recovery (R319). -/
def State.noteHalt (s : State) (n src : Nat) : State :=
  { s with pers := { s.pers with haltSrc := SMap.set (fun _ => 99) s.pers.haltSrc n src } }

/-- A recovery of an engine is noted. -/
def State.noteRecov (s : State) (n : Nat) (imem : Bool) : State :=
  let p := { s.pers with recovAt := SMap.set (fun _ => none) s.pers.recovAt n (some s.now) }
  { s with pers := if imem then { p with imemUeAt := SMap.set (fun _ => none) p.imemUeAt n (some s.now) } else p }

/-- A slot whose engine a fault reaction has halted, and which Wadi recovers (R319, R321). -/
def State.needsRestart (s : State) (l : Nat) : Option (Fin 18) :=
  match s.servingPe l with
  | none => none
  | some n =>
    if (s.pe n).state == .halt && (s.pe n).haltCause == 3 && !(s.pe n).inReset && !s.flag (WADI_SLOT_CFG l) WADI_SLOT_CFG_NO_RESTART
    then some n else none

/-- The move of a slot to another engine by restart; its old engine is retired (R315, R319). -/
def State.restartMove (s : State) (l : Fin 16) (n : Fin 18) (cause : Nat) (wear readOk : Bool) : State :=
  let s0 := s.breakPin l n cause
  match s0.placeSlot l true with
  | some t => (s0.restartSlot l t cause readOk).retireEngine n
  | none => s0.shortEngine l n wear readOk

/-- The recovery of R319. -/
def State.recover (s : State) (l : Fin 16) (n : Fin 18) (readOk : Bool) : State :=
  let src := s.haltSrc n
  let imem := src == F_PE_IMEM_UE
  let s0 := s.noteRecov n imem
  if s.mustRetire kEngine n || s.recent (s.recovAt n) then s0.restartMove l n src false readOk
  else if imem && !s.recent (s.imemUeAt n) then
    match s.slotImage l with
    | none => s
    | some i =>
      if readOk then
        let s1 := (s0.onPe n fun e => { e with imem := e.imem.loadImage i.imem }).peStart n
        (s1.outageEnd (outSlot l)).report 0x61 [0, 1, l, n, n, 0]
      else s0.raiseFor .wadi F_WADI_IMG_MISMATCH [l] l
  else s0.restartSlot l n src readOk

/-! ## Candidates and proposals (R313 to R316, R322 to R325) -/

/-- The action codes: the priorities of R313. -/
def actRestart : Nat := 1
def actRetire : Nat := 2
def actSwap : Nat := 3
def actRebalance : Nat := 4

/-- A candidate action. -/
structure Cand where
  act : Nat
  slot : Fin 16
  src : Fin 18
  tgt : Option (Fin 18)
  deriving DecidableEq, Repr

/-- Slots by rank, highest first, the lower number first among equals (R313). -/
def State.slotOrder (s : State) : List (Fin 16) :=
  ((List.range 16).map fun r => (List.finRange 16).filter fun (l : Fin 16) => s.slotRank l.val == 15 - r).flatten

/-- Mean load of a slot per mille of the period (R309). -/
def State.slotLoad (s : State) (l : Nat) : Nat := meanOf (s.slot l).loads / 5000

/-- Wadi may move work from the engine: it executes (R183). -/
def State.movable (s : State) (l : Nat) : Option (Fin 18) :=
  match s.servingPe l with
  | some n => if s.executing n && (s.slot l).unbind.isNone then some n else none
  | none => none

/-- RETIRE_MOVE candidates in order. -/
def State.retireCands (s : State) : List Cand :=
  s.slotOrder.filterMap fun (l : Fin 16) =>
    match s.movable l with
    | some n =>
      if s.mustRetire kEngine n || s.wadi.retire.any (·.1 == n) then
        some ⟨actRetire, l, n, (s.wr (WADI_SLOT_CFG l) WADI_SLOT_CFG_PIN_EN 0).placeSlot l true⟩
      else none
    | none => none

/-- A slot that SWAP and REBALANCE may move: migratable and not pinned (R315, R327). -/
def State.freeToMove (s : State) (l : Nat) : Bool :=
  (match s.slotImage l with | some i => i.migratable | none => false) && !s.flag (WADI_SLOT_CFG l) WADI_SLOT_CFG_PIN_EN

/-- SWAP candidates in order; one with no target is only reported. -/
def State.swapCands (s : State) : List Cand :=
  s.slotOrder.filterMap fun (l : Fin 16) =>
    match s.movable l with
    | some n => if s.freeToMove l && s.worn kEngine n then some ⟨actSwap, l, n, s.placeSlot l false⟩ else none
    | none => none

/-- The gain of R314, rounded down. -/
def State.gain (s : State) (l : Nat) (e t : Fin 18) : Int :=
  ((s.slotLoad l : Int) * ((s.health kEngine t : Int) - s.health kEngine e)) / 1000

/-- REBAL_GAP: 0 acts as 1 (R349). -/
def State.rebalGap (s : State) : Nat :=
  let g := s.rd WADI_THR WADI_THR_REBAL_GAP
  if g = 0 then 1 else g

/-- The pair with the largest gain above HYST (R314). -/
def State.rebalCand (s : State) : Option Cand :=
  let waited := match s.wadi.rebalAt with | some p => decide (s.rebalGap ≤ s.period - p) | none => true
  if !s.flag WADI_CTRL WADI_CTRL_REBAL_EN || !waited then none
  else
    let pairs := (s.slotOrder.map fun (l : Fin 16) =>
      match s.movable l with
      | some e =>
        if s.freeToMove l && !s.flag (WADI_SLOT_CFG l) WADI_SLOT_CFG_NO_REBAL then
          ((List.finRange 18).filter fun t => s.idlePe t && s.mayUse l t && !s.worn kEngine t && !s.mustRetire kEngine t).map
            fun t => (s.gain l e t, l, e, t)
        else []
      | none => []).flatten
    let best := pairs.foldl (fun (b : Option (Int × Fin 16 × Fin 18 × Fin 18)) p =>
      match b with | none => some p | some q => if q.1 < p.1 then some p else some q) none
    match best with
    | some (g, l, e, t) => if (s.rd WADI_THR WADI_THR_HYST : Int) < g then some ⟨actRebalance, l, e, some t⟩ else none
    | none => none

/-- The candidate of the decision (R313). -/
def State.candidate (s : State) : Option Cand :=
  match s.retireCands, s.swapCands.find? (·.tgt.isSome) with
  | c :: _, _ => some c
  | [], some c => some c
  | [], none => s.rebalCand

/-- A migration by Wadi starts, or the move of a slot that is not migratable (R315). -/
def State.startAction (s : State) (act : Nat) (l : Fin 16) (src tgt : Fin 18) (prop : Nat) (readOk : Nat → Bool) : State :=
  let s0 := if act = actRebalance then { s with wadi := { s.wadi with rebalAt := some s.period } } else s
  let s1 := if act = actRetire then s0.breakPin l src 2 else s0
  match s1.slotImage l with
  | none => s1
  | some i =>
    if i.migratable then
      s1.migBegin l src tgt act prop (act == actRetire) ((s1.wadi.retire.filter (·.1 == src)).map (·.2))
    else ((s1.restartSlot l tgt 2 (readOk l)).retireEngine src).report 0x61 [prop, act, l, src, tgt, 0]

/-- A proposal leaves the table (R325, R326): causes 1 STALE, 2 HOST_ACTION, 3 VETOED, 4 EXPIRED, 5 REPLACED. -/
def State.withdraw (s : State) (id cause : Nat) : State :=
  { s with wadi := { s.wadi with props := s.wadi.props.filter (·.id != id) } }.report 0x62 [id, cause]

/-- VETO_WIN under APPROVE: 0 acts as 1 (R322). -/
def State.vetoWin (s : State) : Nat :=
  let w := s.rd WADI_CTRL WADI_CTRL_VETO_WIN
  if s.rd WADI_CTRL WADI_CTRL_POLICY = 1 then w else if w = 0 then 1 else w

/-- Offer a candidate as a proposal (R322, R324). -/
def State.propose (s : State) (c : Cand) (tgt : Fin 18) : State :=
  let mine := s.wadi.props.find? (·.slot == c.slot)
  let same := match mine with | some p => p.act == c.act && p.src == c.src && p.tgt == tgt | none => false
  if same then s
  else
    let s1 := match mine with | some p => s.withdraw p.id 5 | none => s
    if 16 ≤ s1.wadi.props.length then s1
    else
      let id := s1.wadi.nextId
      let acts := s1.period + s1.vetoWin
      let s2 := { s1 with wadi := { s1.wadi with
        props := s1.wadi.props ++ [Proposal.mk id c.act c.slot c.src tgt acts false false]
        nextId := if id = 0xFFFF then 1 else id + 1 } }
      s2.report 0x60 [id, c.act, c.slot, c.src, tgt, c.act, acts]

/-- An open proposal still fits (R325): its target is idle, and pin, mask and slot allow it. -/
def State.proposalFits (s : State) (p : Proposal) : Bool :=
  (if p.act = actRestart then s.needsRestart p.slot == some p.src
   else s.idlePe p.tgt && s.movable p.slot == some p.src &&
    (if p.act = actRetire then true else s.freeToMove p.slot) &&
    !bitOf (s.rd (WADI_SLOT_CFG p.slot) WADI_SLOT_CFG_FORBID) p.tgt)

/-- An open proposal that has come to act leaves the table and starts (R322, R325). -/
def State.startProposal (s : State) (p : Proposal) (readOk : Nat → Bool) : State :=
  if p.hostAct then s.withdraw p.id 2
  else if !s.proposalFits p then s.withdraw p.id 1
  else
    let s1 := { s with wadi := { s.wadi with
      props := s.wadi.props.filter (·.id != p.id), started := p.id :: s.wadi.started.filter (· != p.id) } }
    if p.act = actRestart then s1.recover p.slot p.src (readOk p.slot)
    else s1.startAction p.act p.slot p.src p.tgt p.id readOk

/-- A proposal acts now under the policy in force (R322). -/
def State.proposalDue (s : State) (p : Proposal) : Bool :=
  if s.rd WADI_CTRL WADI_CTRL_POLICY = 1 then decide (p.acts ≤ s.period) else p.accepted

/-- Expired, stale and excluded proposals go; due ones start, one move per period and none while a migration runs. The answer says
whether a move has started. -/
def State.runProposals (s : State) (readOk : Nat → Bool) : Bool × State :=
  s.wadi.props.foldl (fun (a : Bool × State) p =>
    let t := a.2
    if p.hostAct then (a.1, t.withdraw p.id 2)
    else if t.proposalDue p then
      if p.act ≠ actRestart ∧ (a.1 ∨ t.pers.mig.isSome) then a
      else (a.1 || p.act != actRestart, t.startProposal p readOk)
    else if t.rd WADI_CTRL WADI_CTRL_POLICY ≠ 1 ∧ p.acts ≤ t.period then (a.1, t.withdraw p.id 4)
    else a) (false, s)

/-- Restarts (R313, R319): at once, or proposed under APPROVE. -/
def State.runRestarts (s : State) (readOk : Nat → Bool) : State :=
  s.slotOrder.foldl (fun (t : State) (l : Fin 16) =>
    match t.needsRestart l with
    | none => t
    | some n =>
      if 2 ≤ t.rd WADI_CTRL WADI_CTRL_POLICY then t.propose ⟨actRestart, l, n, some n⟩ n else t.recover l n (readOk l)) s

/-- The engine action of a decision (R313, R322). -/
def State.runCandidate (s : State) (started : Bool) (readOk : Nat → Bool) : State :=
  if s.pers.mig.isSome then s
  else
    match s.candidate with
    | none => s
    | some c =>
      let pol := s.rd WADI_CTRL WADI_CTRL_POLICY
      match c.tgt with
      | none => if c.act = actRetire ∧ !started then (s.breakPin c.slot c.src 2).shortEngine c.slot c.src true (readOk c.slot) else s
      | some t =>
        if pol = 0 ∨ (pol = 1 ∧ c.act = actRetire) then
          if started then s else s.startAction c.act c.slot c.src t 0 readOk
        else s.propose c t

/-- Idle engines below the retirement threshold go to FAILED (R316). -/
def State.retireIdle (s : State) : State :=
  (List.finRange 18).foldl (fun t n => if t.idlePe n && t.mustRetire kEngine n then t.retireEngine n else t) s

/-! ## Quotas and reports (R330, R343, R344) -/

/-- The quota of a slot at a decision (R330). -/
def State.adjustQuota (s : State) (l : Nat) : State :=
  match s.slotImage l with
  | none => s
  | some i =>
    let x := s.slot l
    let q := s.slotQuota l
    let low := if 2 * x.peak < q then x.low + 1 else 0
    let s0 := s.setSlot l { x with peak := s.slotOcc l, qdrop := false, low := low }
    if !s.flag WADI_CTRL WADI_CTRL_QUOTA_AUTO then (if q = i.quota then s0 else s0.setQuota l i.quota)
    else
      let step := (i.quota + 7) / 8
      let m := s.rd WADI_QUOTA_CFG WADI_QUOTA_CFG_MAX_MULT
      let mult := if m = 0 then 1 else if 8 < m then 8 else m
      if x.qdrop ∧ s.rd WADI_QUOTA_CFG WADI_QUOTA_CFG_POOL_MIN ≤ s.poolFree then
        let q1 := min (q + step) (i.quota * mult)
        if q1 = q then s0 else s0.setQuota l q1
      else if 100 ≤ low then
        let q1 := max (q - step) i.quota
        let s1 := s0.setSlot l { s0.slot l with low := 0 }
        if q1 = q then s1 else s1.setQuota l q1
      else s0

/-- LOAD_HIGH in per mille: values outside 50 to 100 act as 100 (R349). -/
def State.loadHigh (s : State) : Nat :=
  let v := s.rd WADI_THR WADI_THR_LOAD_HIGH
  10 * (if v < 50 ∨ 100 < v then 100 else v)

/-- FUNC_PROPOSAL of a slot (R343). -/
def State.proposeFunc (s : State) (l : Nat) : State :=
  match s.slotImage l with
  | none => s
  | some i =>
    let x := s.slot l
    let high := if s.loadHigh ≤ s.slotLoad l then x.high + 1 else 0
    let s0 := s.setSlot l { x with high := high }
    let rested : Bool := match x.asked with | some p => decide (100 ≤ s.period - p) | none => true
    match i.hookList.find? fun k => !s.funcHost k with
    | some k =>
      if 3 ≤ high ∧ rested = true then
        (s0.setSlot l { s0.slot l with asked := some s.period }).report 0x66 [k, l, s.slotLoad l]
      else s0
    | none => s0

/-- OVER_DECL for the longest boundary interval of a slot's engine (R260, R309, R344). -/
def State.checkDecl (s : State) (l : Nat) : State :=
  match s.slotImage l, s.servingPe l with
  | some i, some n =>
    let len := (s.pe n).longest
    let s0 := s.onPe n fun e => { e with longest := 0 }
    let s1 := if i.cycBudget < len then s0.report 0x67 [l, 0, len, i.cycBudget] else s0
    if 500 * i.boundaryMax < len then s1.report 0x67 [l, 1, len, 500 * i.boundaryMax] else s1
  | _, _ => s

/-- BANK_CONFLICT of the masters with non-owner accesses in the period (R344). -/
def State.conflictReports (s : State) : State :=
  (List.range 23).foldl (fun t m =>
    let c := t.rd (MEM_NONOWN m) MEM_NONOWN_COUNT
    let b := t.rd (MEM_NONOWN m) MEM_NONOWN_BANK
    if c = 0 then t else t.report 0x68 [m, b, t.owner b, c]) s

/-- Spares by class in the order of R351. -/
def State.oasis (s : State) : Nat :=
  s.idleSpares 0 * 2 ^ 24 + s.idleSpares 1 * 2 ^ 20 + s.idleSpares 2 * 2 ^ 16 + s.idleSpares 3 * 2 ^ 12 + s.idleSpares 4 * 2 ^ 8 +
    s.idleSpares 5 * 2 ^ 4

/-- PLACEMENT (R344): slot map, indices, Oasis counts. -/
def State.placementReport (s : State) : State :=
  let every := s.rd WADI_CTRL WADI_CTRL_REPORT_EVERY
  if every = 0 ∨ s.period % every ≠ 0 then s
  else s.report 0x6B ((List.range 16).map (fun l => match s.servingPe l with | some n => n.val | none => 31) ++
    (List.range 18).map (s.health kEngine) ++ [s.oasis])

/-- WADI_STAT (R347). -/
def State.wadiStat (s : State) : Nat :=
  s.boot.scActive * 2 ^ 31 + s.wadi.props.length * 2 ^ 16 + ((List.range 16).filter fun l => (s.slot l).shed).length * 2 ^ 8 +
    sumOf ((List.range 8).map fun k => b2n (s.funcHost k) * 2 ^ k)

/-- WADI_SHORT (R352): SHED as last set, EMPTY as the pool stands. -/
def State.wadiShort (s : State) : Nat :=
  s.rd WADI_SHORT WADI_SHORT_SHED * 2 ^ 8 + sumOf ((List.range 8).map fun c =>
    b2n (if c = 7 then s.portLost else s.idleSpares c == 0) * 2 ^ c)

/-- A decision of Wadi (R308 to R336), but for the change of mode. -/
def State.decide_ (s : State) (readOk : Nat → Bool) : State :=
  let s1 := s.treatLosses
  let s2 := if 2 ≤ s1.rd WADI_CTRL WADI_CTRL_POLICY then s1 else s1.runRestarts readOk
  let (started, s3) := s2.runProposals readOk
  let s4 := if 2 ≤ s3.rd WADI_CTRL WADI_CTRL_POLICY then s3.runRestarts readOk else s3
  let s5 := (if s4.mode == .config then s4 else s4.runCandidate started readOk).retireIdle
  let s6 := ((s5.spareBanksOf false readOk).spareBanksOf true readOk).spareFct
  let s7 := (s6.spareMdb).sparePsq
  let s8 := if s7.outstanding then s7.restoreAll 16 readOk else s7
  let s9 := (s8.wr WADI_SHORT WADI_SHORT_SHED s8.shedBits).functionsBack
  let s10 := (List.range 16).foldl (fun t l => if (t.slot l).bound && !(t.slot l).shed then
    ((t.adjustQuota l).proposeFunc l).checkDecl l else t) s9
  (s10.conflictReports).placementReport

end Sys2Proof.Machine
end

