-- ==== Sys2Proof/Machine/HifOps.lean ====
section
/-! DEFINITION. Ring bindings, doorbell slots, draining, orphaning and adoption, and the loss of a host port (file 09). -/

namespace Sys2Proof.Machine

/-! ## Binding (R456 to R460) -/

/-- Rings ACTIVE or DRAINING under a port (R457). -/
def State.ringsUnder (s : State) (p : Nat) : Nat :=
  (s.rings.filter fun e => (e.2.state == .active || e.2.state == .draining) && e.2.port == p).length

/-- The most rings a port may have (R457). -/
def State.ringLimit (s : State) : Nat := if s.bonded then 512 else 256

/-- A context that R459 refuses with BAD_BIND. -/
def State.badBind (s : State) (p r : Nat) : Bool :=
  let t := s.ringType r
  let size := s.rd (HIF_RING_CFG r) HIF_RING_CFG_SIZE
  let b := s.rd (HIF_RING_BIND r) HIF_RING_BIND_BIND
  decide (6 ≤ t) || decide (size < 4) || decide (12 < size) || !s.flag (HIF_DB_BASE p) HIF_DB_BASE_EN ||
    (decide (3 ≤ t) && s.reg64 (HIF_RING_CBASE r) != 0) ||
    (if t = 2 then !(b == 0 || decide (0x10 ≤ b ∧ b < 0x20))
     else if t = 3 then s.ringType b != 4
     else if t = 5 then decide (256 ≤ b)
     else b != 0)

/-- The BOOT_DONE entry, the first of every EVT ring bound with group bit 0 (R482, R483). -/
def State.bootDone (s : State) (r : Nat) : State :=
  if s.ringType r = 5 ∧ bitOf (s.rd (HIF_RING_BIND r) HIF_RING_BIND_BIND) 0 ∧ s.flag GEN_BOOT_STAT GEN_BOOT_STAT_DONE then
    s.offerEvt r ⟨0x01, 0, 7, BlkId.gen.code, s.boot.doneTime, (s.reg GEN_BOOT_STAT).toNat, (s.reg GEN_ID).toNat⟩
  else s

/-- A DISABLED ring is bound to a port, or refused with an error (R459). Its context already stands in its registers. -/
def State.bindRing (s : State) (p r : Nat) : State :=
  let x := s.ring r
  let refuse := fun (err : Nat) => (s.wr (HIF_RING_CFG r) HIF_RING_CFG_EN 0).setRing r { x with err := err }
  if s.badBind p r then refuse 3
  else if s.ringLimit ≤ s.ringsUnder p then refuse 4
  else
    let s1 := s.setRing r { Ring.reset with state := .active, port := p, waiting := x.waiting, drops := x.drops }
    (s1.bootDone r).flushRsp 4096 r

/-! ## Draining and unbinding (R461, R491) -/

/-- Frames queued for an FRX ring are dropped and counted (R461). -/
def State.dropFrx (s : State) (r : Nat) : State :=
  let q := s.frxQ r
  q.foldl (fun t f => (t.ringDrop r).collect f) (s.setFrxQ r [])

/-- How many descriptors are posted and not started. -/
def State.posted (s : State) (r : Nat) : Nat := ((s.ring r).pidx + 65536 - (s.ring r).cidx) % 65536

/-- Descriptors of a ring start: the next `k` are fetched (R462). -/
def State.ringStart (s : State) (r k : Nat) : State :=
  let x := s.ring r
  s.setRing r { x with cidx := (x.cidx + k) % 65536, started := x.started + k }

/-- The indices of the next `k` descriptors. -/
def State.nextIdx (s : State) (r k : Nat) : List Nat := (List.range k).map fun j => ((s.ring r).cidx + j) % 65536

/-- Posted descriptors that have not started complete with a status, in index order: those of a CMD ring once the command
it carries has completed (R461, R477, R478, R497). -/
def State.flushPosted (s : State) (r : Nat) (st : Status) : State :=
  let k := s.posted r
  let t := s.ringType r
  if k = 0 ∨ 4 ≤ t then s
  else if t = 3 then
    if (s.ring r).started ≠ 0 then s
    else (List.range k).foldl (fun u _ => (u.ringStart r 1).complete r 0 st 0) s
  else (s.nextIdx r k).foldl (fun u i => u.ringComplete r i st 0 0) (s.ringStart r k)

/-- Completions that wait for an RSP ring and belong to CMD ring `r`. -/
def State.waitingFor (s : State) (r : Nat) : Bool := s.rings.any fun e => e.2.waiting.any fun c => c.info % 512 == r

/-- A frame forgets a report that ring `r` waits for (R461). -/
def Frame.unreported (f : Frame) (r : Nat) : Frame :=
  match f.report with
  | some (q, _, _) => if q = r then { f with report := none } else f
  | none => f

/-- No frame reports to ring `r` any more (R461). -/
def State.forgetReports (s : State) (r : Nat) : State :=
  { s with swc := { s.swc with frames := s.swc.frames.map fun e => (e.1, e.2.map (·.unreported r)) } }

/-- Nothing further is written for a ring (R461): its reports, kept completions and entries are forgotten. -/
def State.forgetRing (s : State) (r : Nat) : State :=
  (s.rings.map Prod.fst).foldl (fun t q =>
    let x := t.ring q
    if x.waiting.any fun c => c.info % 512 == r then
      t.setRing q { x with waiting := x.waiting.filter fun c => c.info % 512 != r }
    else t) (s.forgetReports r)

/-- A ring becomes DISABLED (R461). Completions that wait for an RSP ring go on waiting (R492). -/
def State.disableRing (s : State) (r : Nat) : State :=
  let s1 := (s.dropFrx r).wr (HIF_RING_CFG r) HIF_RING_CFG_EN 0
  let x := s1.ring r
  s1.setRing r { Ring.reset with waiting := x.waiting, drops := x.drops, cidx := x.cidx, port := x.port }

/-- The started work of a DRAINING ring is finished and delivered. -/
def State.ringDrained (s : State) (r : Nat) : Bool :=
  let x := s.ring r
  x.state == .draining && x.started == 0 && x.kept.isEmpty && x.keptEvt.isEmpty && !(s.ringType r == 3 && s.waitingFor r)

/-- The end of a drain: DISABLED, or ORPHANED for a RING_RELEASE, which completes (R461, R491). -/
def State.endDrain (s : State) (r : Nat) : State :=
  match (s.ring r).release with
  | none => s.disableRing r
  | some c =>
    let s1 := s.setRing r { s.ring r with state := .orphaned, release := none }
    if c = r then s1 else s1.finish c 0x03 stOk 0

/-- A write to the context of a ring that is not DISABLED (R460). `off` is the MW0 offset. -/
def State.ctxWrite (s : State) (p off t : Nat) : State := s.raise .hif F_HIF_CTX_WRITE [off, 20 + p, 5 + 16 * t]

/-- EN = 0 (R460, R461). -/
def State.unbindRing (s : State) (p r : Nat) : State :=
  let x := s.ring r
  let own := x.port == p
  match x.state with
  | .active =>
    if own then
      let s1 := s.setRing r { x with state := .draining, release := none }
      (s1.dropFrx r).flushPosted r stFlushed
    else s.ctxWrite p (HIF_RING_CFG r) (s.ringType r)
  | .draining => if own then s else s.ctxWrite p (HIF_RING_CFG r) (s.ringType r)
  | .stopped =>
    if own then (s.forgetRing r).disableRing r
    else s.ctxWrite p (HIF_RING_CFG r) (s.ringType r)
  | .orphaned => (s.forgetRing r).disableRing r
  | .disabled => s

/-! ## The doorbell page (R464 to R468) -/

/-- A slot of the doorbell page as read (R464 to R466). -/
def State.slotUpdate (s : State) (r : Nat) (v : Word) : State :=
  let x := s.ring r
  let seq := bitsOf v.toNat 31 16
  let idx := v.toNat % 65536
  if seq = x.seq then s
  else
    let producer := decide (s.ringType r < 4)
    let top := if producer then x.cidx + s.ringSize r else x.cidx
    if (idx + 65536 - x.pidx) % 65536 ≤ (top + 65536 - x.pidx) % 65536 then
      let s1 := s.setRing r { x with seq := seq, pidx := idx }
      if producer then s1 else (s1.endRun r).flushRsp 4096 r
    else (s.setRing r { x with seq := seq }).stopRing r 1

/-- DMA of a port resumes: what the rings under it kept is written (R486). -/
def State.resumePort (s : State) (p : Nat) : State :=
  (s.rings.map Prod.fst).foldl (fun t r =>
    if (t.ring r).port = p then (((t.flushRing 4096 r).flushEvt r).endRun r).flushRsp 4096 r else t) s

/-! ## Loss and return of a port (R450, R486, R487) -/

/-- A ring is ORPHANED (R487). Steps are whole, so no descriptor is partly done and CIDX stands. -/
def State.orphanRing (s : State) (r : Nat) : State :=
  let x := s.ring r
  let s1 := s.setRing r { x with state := .orphaned, err := 0, release := none }
  match x.release with
  | some c => if c = r then s1 else s1.finish c 0x03 stOk 0
  | none => s1

/-- The runs of consecutive numbers in a rising list: first and count. -/
def runsOf : List Nat → List (Nat × Nat)
  | [] => []
  | r :: rs =>
    match runsOf rs with
    | (f, c) :: rest => if f = r + 1 then (r, c + 1) :: rest else (r, 1) :: (f, c) :: rest
    | [] => [(r, 1)]

/-- RING_ORPHANED or RING_ADOPTED, once for each run (R483). -/
def State.ringRuns (s : State) (kind p : Nat) (rs : List Nat) : State :=
  (runsOf rs).foldl (fun t e => t.event .hif kind 3 (p * 2 ^ 32 + e.2 * 2 ^ 16 + e.1) 0) s

/-- LINK_STATE (R483). -/
def State.linkState (s : State) (p : Nat) : State :=
  let h := s.port p
  s.event .hif 0x08 3 (p * 2 ^ 32 + b2n h.up * 2 ^ 31 + h.width * 2 ^ 8 + h.speed) 0

/-- A host port is lost (R450, R486, R487). -/
def State.hostPortLost (s : State) (p : Nat) : State :=
  if (s.port p).lost || (s.bonded && p == 1) then s
  else
    let h := s.port p
    let rs := (s.rings.filter fun e => e.2.port == p &&
      (e.2.state == .active || e.2.state == .draining || e.2.state == .stopped)).map Prod.fst
    let s1 := s.setPort p { h with lost := true, lostBit := true, downCount := stopAt 255 (h.downCount + 1) }
    let s2 := (rs.foldl (fun t r => t.orphanRing r) s1).epReset (17 + p)
    (((s2.raise .hif F_HIF_LINK_DOWN [0, 20 + p, 0]).linkState p).ringRuns 0x05 p rs).lossOf 7 p

/-- The conditions of R336 hold again: the port is no longer lost, and DMA on it resumes. -/
def State.portBack (s : State) (p : Nat) : State :=
  let h := s.port p
  if h.up && h.bme && !h.d3hot then
    (if h.lost then (s.setPort p { h with lost := false }).linkState p else s).resumePort p
  else s

/-- A port's link goes down: no new DMA, no polling (R486). -/
def State.linkDropped (s : State) (p : Nat) : State :=
  s.setPort p { s.port p with up := false, width := 0, speed := 0 }

/-! ## Adoption (R488 to R490) -/

/-- A ring becomes ACTIVE under a port with its slot as the baseline. -/
def State.adoptRing (s : State) (p r base cbase : Nat) (slot : Nat) : State :=
  let s1 := if base = 0 then s else s.setReg64 (HIF_RING_BASE r) (base / 64 * 64)
  let s2 := if cbase = 0 then s1 else s1.setReg64 (HIF_RING_CBASE r) (cbase / 64 * 64)
  s2.setRing r { s2.ring r with state := .active, port := p, seq := bitsOf slot 31 16, pidx := slot % 65536 }

/-- The banks of the lost ports go to the adopting port's code (R488). -/
def State.adoptBanks (s : State) (p : Nat) (old : List Nat) : State :=
  (List.range 64).foldl (fun t b =>
    if old.any fun q => q != p && t.owner b == 0x21 + q then t.supHandover b (0x21 + p) else t) s

/-- RING_ADOPT once its table and slots are read: `tab` gives base, completion base and slot for each ring. -/
def State.adoptAll (s : State) (p : Nat) (tab : List (Nat × Nat × Nat × Nat)) (banks : Bool) : State :=
  let rs := tab.map Prod.fst
  let old := rs.map fun r => (s.ring r).port
  let s1 := tab.foldl (fun t e => t.adoptRing p e.1 e.2.1 e.2.2.1 e.2.2.2) s
  let s2 := rs.foldl (fun t r => ((t.flushRing 4096 r).flushEvt r).flushRsp 4096 r) s1
  let s3 := if banks then s2.adoptBanks p old else s2
  rs.foldl (fun t r => t.endRun r) (s3.ringRuns 0x06 p rs)

/-- Every ring is unbound by STANDBY entry or a warm reset (R83, R90). -/
def State.unbindAll (s : State) : State := { s with rings := [] }

end Sys2Proof.Machine
end

