-- ==== Sys2Proof/Machine/CvnOps.lean ====
section
/-! DEFINITION. Caravan frames, repeating, alignment, states, the data mover, healing and mode change (file 13). -/

namespace Sys2Proof.Machine

/-! ## Frames (R707 to R709) -/

/-- A Caravan frame as received: the header fields and the payload. -/
structure CvnFrame where
  typ : Nat
  cold : Bool
  edge : Bool
  wrap : Bool
  stale : Bool
  src : Nat
  ring : Nat
  slot : Nat
  cycle : Nat
  mode : Nat
  act : Nat
  corr : Nat
  len : Nat
  seq : Nat
  hops : Nat
  payload : List Byte
  deriving DecidableEq, Repr

def cvnCS : Nat := 1
def cvnDATA : Nat := 2
def cvnNULL : Nat := 3
def cvnLEAVE : Nat := 4
def cvnCOMMIT : Nat := 5
def cvnREQ : Nat := 6
def cvnRSP : Nat := 7

/-- HCRC over the first 30 bytes (R707). -/
def hcrc (bs : List Byte) : Nat := (bs.take 30).foldl (fun st b => crcByte ⟨16, 0x1021, false⟩ st b.toNat) 0xFFFF

/-- The header of a frame, HCRC included (R707). -/
def CvnFrame.header (f : CvnFrame) : List Byte :=
  let h := [BitVec.ofNat 8 (0x10 + f.typ), BitVec.ofNat 8 (b2n f.cold * 128 + b2n f.edge * 64 + b2n f.wrap * 32 + b2n f.stale * 16)] ++
    beBytes 2 f.src ++ [BitVec.ofNat 8 f.ring, 0] ++ beBytes 2 f.slot ++ beBytes 4 f.cycle ++
    beBytes 4 (f.mode * 2 ^ 24 + f.act) ++ beBytes 8 f.corr ++ beBytes 2 f.len ++ beBytes 2 f.seq ++ beBytes 2 f.hops
  h ++ beBytes 2 (hcrc h)

/-- The frame on the wire, its FCS good or stomped. -/
def CvnFrame.bytes (f : CvnFrame) (stomp : Bool) : List Byte :=
  let b := f.header ++ f.payload ++ List.replicate (28 - f.payload.length) 0
  b ++ (if stomp then stompedFcs b else fcs b)

/-- A frame with a good HCRC, version and type (R708). -/
def cvnParse (bs : List Byte) : Option CvnFrame :=
  let b0 := byteAt bs 0
  let fl := byteAt bs 1
  if bs.length < 32 ∨ hcrc bs ≠ be bs 30 2 ∨ b0 / 16 ≠ 1 ∨ b0 % 16 = 0 ∨ 7 < b0 % 16 then none
  else
    some ⟨b0 % 16, bitOf fl 7, bitOf fl 6, bitOf fl 5, bitOf fl 4, be bs 2 2 % 4096, byteAt bs 4, be bs 6 2 % 16384, be bs 8 4,
      byteAt bs 12, be bs 13 3, be bs 16 8, be bs 24 2 % 2048, be bs 26 2, be bs 28 2, slice bs 32 (be bs 24 2 % 2048)⟩

/-- The length fits LEN and the FCS is good. -/
def cvnGood (f : CvnFrame) (bs : List Byte) : Bool :=
  bs.length == 36 + max 28 f.len && fcs (body bs) == bs.drop (bs.length - 4)

/-- A repeated frame: HOPS, CORR, EDGE and WRAP change, and the marks of a CS frame (R710). -/
def cvnRepeat (bs : List Byte) (hops corr : Nat) (edge wrap stomp : Bool) (marks : List Byte → List Byte) : List Byte :=
  let h0 := overlay (overlay (bs.take 30) 16 (beBytes 8 corr)) 28 (beBytes 2 hops)
  let fl := setBit (setBit (byteAt bs 1) 6 (edge || bitOf (byteAt bs 1) 6)) 5 (wrap || bitOf (byteAt bs 1) 5)
  let h := overlay h0 1 [BitVec.ofNat 8 fl]
  let b := h ++ beBytes 2 (hcrc h) ++ marks ((body bs).drop 32)
  b ++ (if stomp then stompedFcs b else fcs b)

/-- Bit m of a member field that starts at byte `base` of the CS payload (R709). -/
def memberBit (pl : List Byte) (base m : Nat) : Bool := bitOf (byteAt pl (base + m / 8)) (7 - m % 8)

def setMember (pl : List Byte) (base m : Nat) : List Byte :=
  overlay pl (base + m / 8) [BitVec.ofNat 8 (setBit (byteAt pl (base + m / 8)) (7 - m % 8) true)]

/-! ## Ports and routes (R695, R699, R728, R730) -/

def State.cvnEn (s : State) (c : Nat) : Bool := s.flag (CVN_CH_CFG c) CVN_CH_CFG_EN

def State.cvnState (s : State) (c : Nat) : Nat := s.rd (CVN_CH_STAT c) CVN_CH_STAT_STATE

def State.cvnFirst (s : State) (c : Nat) : Bool := s.flag (CVN_CH_STAT c) CVN_CH_STAT_FIRST

def State.cvnAddr (s : State) : Nat := s.rd CVN_NODE CVN_NODE_ADDR

/-- MEMBER of the node (R697). -/
def State.cvnMember (s : State) : Nat := s.cvnAddr % 512

def State.tch (s : State) : Nat := s.rd CVN_CTRL CVN_CTRL_TCH

/-- A port in Caravan mode that trains or has trained (R526). -/
def State.cvnPort (s : State) (p : Nat) : Bool :=
  s.flag (MAC_MODE p) MAC_MODE_CARAVAN && s.macEn p && !s.portDown p

/-- A side of a channel carries frames: its link is up and used, and not looped back. -/
def CvnChan.openD (x : CvnChan) : Bool := x.upD && !x.loopD
def CvnChan.openU (x : CvnChan) : Bool := x.upU && !x.loopU

/-- A frame that would leave D goes out of D, or at a loopback out of U with WRAP (R728). -/
def State.cvnOut (s : State) (c : Nat) (f : CvnFrame) (stomp : Bool) : State :=
  let x := s.chan c
  if x.openD then s.emit (.caravan (2 * c) (f.bytes stomp))
  else if x.openU then s.emit (.caravan (2 * c + 1) ({ f with wrap := true }.bytes stomp))
  else s

/-- A frame of the node's own (R707). -/
def State.cvnOwn (s : State) (c typ slot act : Nat) (payload : List Byte) : CvnFrame :=
  ⟨typ, false, false, false, false, s.cvnAddr, s.rd (CVN_CH_CFG c) CVN_CH_CFG_RING, slot, s.cvnN % 2 ^ 32,
    s.rd (CVN_CH_MODE c) CVN_CH_MODE_MODE, act, 0, payload.length, 0, 0, payload⟩

/-- Counts of a channel (R759): the upper half of CNT1, CNT2 or CNT3, or the lower. -/
def cntHi : Fld := ⟨31, 16⟩
def cntLo : Fld := ⟨15, 0⟩

/-- CFG_ERR. The capture layout of R745 gives bit 8 two meanings, so its words are free values. -/
def State.cvnCfgErr (s : State) : State := s.raise .cvn F_CVN_CFG_ERR []

/-! ## States (R730) -/

/-- ROOT: first node of its time channel's ring (R751). -/
def State.cvnRoot (s : State) : State := s.wr CVN_STAT CVN_STAT_ROOT (b2n (s.cvnFirst s.tch))

/-- A channel changes state: CVN_STATE is written (R744). -/
def State.cvnTo (s : State) (c st : Nat) : State :=
  let s1 := (s.wr (CVN_CH_STAT c) CVN_CH_STAT_STATE st).cvnRoot
  s1.event .cvn 0x38 4 (c * 2 ^ 32 + st * 2 ^ 28 + s1.rd (CVN_CH_STAT c) CVN_CH_STAT_FIRST_ADDR) 0

/-- A mode change ends with a cause: CVN_CHc_MODE, the event and the command's completion (R736, R743, R744). -/
def State.cvnChangeEnd (s : State) (c : Nat) (ch : CvnChange) (cause : Nat) : State :=
  let s1 := s.onChan c fun x => { x with change := none }
  let s2 := ((s1.wr (CVN_CH_STAT c) CVN_CH_STAT_PEND 0).wr (CVN_CH_MODE c) CVN_CH_MODE_TARGET ch.target).wr (CVN_CH_MODE c)
    CVN_CH_MODE_CAUSE cause
  let s3 := s2.event .cvn 0x39 4 (c * 2 ^ 32 + ch.target * 2 ^ 16 + s2.rd (CVN_CH_MODE c) CVN_CH_MODE_MODE * 2 ^ 8 + cause) 0
  s3.finish ch.ring 0x88 stOk cause

/-- A running change is abandoned with ACK_INCOMPLETE (R739). -/
def State.cvnAbandon (s : State) (c : Nat) : State :=
  match (s.chan c).change with
  | some ch => s.cvnChangeEnd c ch 2
  | none => s

/-- The node is no longer first node. -/
def State.cvnUnfirst (s : State) (c : Nat) : State :=
  ((s.cvnAbandon c).wr (CVN_CH_STAT c) CVN_CH_STAT_FIRST 0).cvnRoot

/-- LISTEN; SYNC_LOSS when SYNC is left for it (R730, R745). -/
def State.cvnListen (s : State) (c : Nat) : State :=
  let was := s.cvnState c
  let s1 := ((s.cvnUnfirst c).wr (CVN_CH_STAT c) CVN_CH_STAT_FIRST_ADDR 0xFFF).wr (CVN_CH_STAT c) CVN_CH_STAT_PEND 0
  let s2 := s1.onChan c fun x => { x with met := false, good := 0, cold := 0, switchAt := none, firstLeft := none }
  let s3 := s2.cvnTo c 2
  if was = 5 then s3.raiseFor .cvn F_CVN_SYNC_LOSS [] c else s3

/-- INTEGRATE: the integral starts at TIME_FREQ (R717, R730). -/
def State.cvnIntegrate (s : State) (c : Nat) : State :=
  ((s.cvnUnfirst c).onChan c fun x => { x with good := 0, cold := 0, integ := s.freq }).cvnTo c 4

/-- R718: the node may not follow this ring as its source is not CARAVAN. -/
def State.cvnMayFollow (s : State) (c : Nat) : Bool := c != s.tch || s.rd TIME_CTRL TIME_CTRL_SRC == 2

/-- R732: the node may cold-start on a channel. -/
def State.cvnMayCold (s : State) (c : Nat) : Bool :=
  s.flag (CVN_CH_CFG c) CVN_CH_CFG_COLD_EN && (c == s.tch || s.cvnState s.tch == 5)

/-- The node becomes first node, in SYNC (R730, R732). -/
def State.cvnBecomeFirst (s : State) (c : Nat) : State :=
  let s1 := ((s.wr (CVN_CH_STAT c) CVN_CH_STAT_FIRST 1).wr (CVN_CH_STAT c) CVN_CH_STAT_FIRST_ADDR s.cvnAddr).wr (CVN_CH_MODE c)
    CVN_CH_MODE_MODE (s.cvnHeader c (s.cvnBank c)).mode
  ((if c = s.tch then s1.wr CVN_STAT CVN_STAT_DEPTH 0 else s1).onChan c fun x => { x with cold := 0 }).cvnTo c 5

/-! ## Banks (R705, R713, R714) -/

/-- The buffer length BL of an entry (R720). -/
def cvnBL (len : Nat) : Nat := (8 + len + 63) / 64 * 64

/-- The bytes of an entry's area: a gateway entry's holds only USE (R720, R725). -/
def CvnEnt.area (e : CvnEnt) : Nat := if e.gw then 16 else 64 + 3 * cvnBL e.len

/-- The valid entries of a bank. -/
def State.cvnEnts (s : State) (c b : Nat) : List (Nat × CvnEnt) :=
  (((List.range 256).drop 1).map fun e => (e, s.cvnEntry c b e)).filter fun x => x.2.valid

/-- CS_END in tenths of a ns (R704). -/
def csEnd (g : Nat) (slow : Bool) : Nat := 20 * g + wireTime slow 160

/-- The window of an entry in tenths of a ns, its start kept above 0 by R714's first check. -/
def entWindow (g : Nat) (slow : Bool) (e : CvnEnt) : Nat × Nat :=
  (10 * e.act - 10 * g, 10 * e.act + wireTime slow e.len + 10 * g)

/-- No two windows of a list overlap. -/
def apart : List (Nat × Nat) → Bool
  | [] => true
  | w :: ws => (ws.all fun v => decide (v.2 ≤ w.1) || decide (w.2 ≤ v.1)) && apart ws

/-- A gateway names a receive entry: on its own channel in the same bank, on the other in the bank in force. -/
def State.gwOk (s : State) (c b : Nat) (e : CvnEnt) : Bool :=
  let src := s.cvnEntry e.gwCh (if e.gwCh = c then b else s.cvnBank e.gwCh) e.gwSrc
  !e.gw || (e.gwSrc != 0 && src.valid && !src.tx)

/-- The checks of R714 on a bank at a rate. -/
def State.bankOk (s : State) (c b : Nat) (slow : Bool) : Bool :=
  let h := s.cvnHeader c b
  let es := (s.cvnEnts c b).map Prod.snd
  let ws := es.map (entWindow h.guard slow)
  let unit : Nat := if slow then 4 else 1
  (es.all fun e => decide (h.guard ≤ e.act)) &&
  (ws.all fun w => decide (csEnd h.guard slow ≤ w.1) && decide (w.2 ≤ 10 * h.tail) &&
    (h.openStart == h.openEnd || decide (w.2 ≤ 10 * h.openStart) || decide (10 * h.openEnd ≤ w.1)) &&
    decide (w.1 + 10000 * unit ≤ w.2)) &&
  apart ((es.filter (·.tx)).map (entWindow h.guard slow)) &&
  decide (h.tail + 2000 * unit ≤ s.cvnCycle) &&
  (es.all fun e => decide (e.offset + e.area ≤ 131072) && s.gwOk c b e)

def State.cvnValid (s : State) (c b : Nat) (v : Bool) : State := s.wr (cvnOff c b 0 3) ⟨31, 31⟩ (b2n v)

/-- The bank is checked: VALID is the answer, and a failure raises CFG_ERR (R714). -/
def State.cvnCheck (s : State) (c b : Nat) : State :=
  let ok := s.bankOk c b (s.cvnSlow c)
  if ok then s.cvnValid c b true else (s.cvnValid c b false).cvnCfgErr

/-- A valid bank is checked again; the bank in force returns the channel to INTEGRATE when it fails. -/
def State.cvnRecheck (s : State) (c b : Nat) : State :=
  if !(s.cvnHeader c b).valid then s
  else
    let s1 := s.cvnCheck c b
    if !(s1.cvnHeader c b).valid && b == s.cvnBank c && decide (5 ≤ s.cvnState c) then s1.cvnIntegrate c else s1

/-- The rate of a channel (R714). -/
def State.cvnSetRate (s : State) (c : Nat) (slow : Bool) : State :=
  if s.cvnSlow c == slow then s
  else ((s.wr (CVN_CH_STAT c) CVN_CH_STAT_RATE (b2n slow)).cvnRecheck c 0).cvnRecheck c 1

/-- The inactive bank names a mode. -/
def State.cvnOther (s : State) (c mode : Nat) : Bool :=
  let h := s.cvnHeader c (1 - s.cvnBank c)
  h.valid && h.mode == mode

/-- The other bank comes into force. -/
def State.cvnSwitch (s : State) (c mode : Nat) : State :=
  ((s.wr (CVN_CH_STAT c) CVN_CH_STAT_BANK (1 - s.cvnBank c)).wr (CVN_CH_MODE c) CVN_CH_MODE_MODE mode).onChan c
    fun x => { x with prep := [] }

/-! ## Healing (R728, R729) -/

/-- WRAP as CVN_CHc_STAT shows it. -/
def CvnChan.wrapCode (x : CvnChan) : Nat := b2n x.loopU + 2 * b2n x.loopD

/-- WRAP follows the loopbacks; a change is reported, and a loopback raises WRAPPED. -/
def State.cvnWrap (s : State) (c : Nat) : State :=
  let w := (s.chan c).wrapCode
  if s.rd (CVN_CH_STAT c) CVN_CH_STAT_WRAP = w then s
  else
    let s1 := (s.wr (CVN_CH_STAT c) CVN_CH_STAT_WRAP w).event .cvn 0x3B 4 (c * 2 ^ 32 + w) 0
    if w = 0 then s1 else s1.raiseFor .cvn F_CVN_WRAPPED [] c

/-- A side counts as down: the node loops back; with both down the channel is isolated (R728). -/
def State.cvnDown (s : State) (c : Nat) (d : Bool) : State :=
  let s1 := s.onChan c fun x =>
    if d then { x with upD := false, loopD := true, delD := [], reqD := none, loopEndD := none }
    else { x with upU := false, loopU := true, delU := [], reqU := none, loopEndU := none }
  let s2 := s1.cvnWrap c
  let x := s2.chan c
  if x.loopU && x.loopD && !x.upU && !x.upD && decide (3 ≤ s2.cvnState c) then s2.cvnListen c else s2

/-- The links of a channel against what the PCS reports (R523, R728). -/
def State.cvnWatch1 (s : State) (p : Nat) : State :=
  let c := p / 2
  let d := p % 2 == 0
  let x := s.chan c
  if (if d then x.upD else x.upU) && !(s.linkUp p && s.flag (MAC_MODE p) MAC_MODE_CARAVAN) then s.cvnDown c d else s

def State.cvnWatch (s : State) : State := [0, 1, 2, 3].foldl State.cvnWatch1 s

/-- TRAIN ends: both links trained, or one trained and the other found down (R730). -/
def State.cvnTrained (s : State) (c : Nat) : State :=
  let x := s.chan c
  if s.cvnState c = 1 ∧ (x.upD ∨ x.loopD) ∧ (x.upU ∨ x.loopU) ∧ (x.upD ∨ x.upU) then s.cvnListen c else s

/-- A port trains again at a rate (R702). -/
def State.cvnRetrain (s : State) (p : Nat) (slow : Bool) : State :=
  let s1 := (s.linkLost p).startSearch p
  (s1.onChan (p / 2) fun x => if p % 2 = 0 then { x with slowD := slow } else { x with slowU := slow }).cvnWatch1 p

/-- The rate that the first node announces (R702). -/
def State.cvnAnnounced (s : State) (c : Nat) (slow : Bool) : State :=
  let code : Nat := if slow then 4 else 6
  let one := fun (t : State) (p : Nat) =>
    if t.linkUp p && t.rd (MAC_STAT p) MAC_STAT_RATE != code then t.cvnRetrain p slow else t
  (one (one s (2 * c)) (2 * c + 1)).cvnSetRate c slow

/-! ## Times -/

/-- A time in units of 2⁻¹⁶ ns on the ns view (R643). -/
def scaledView (t : Nat × Nat × Nat) : Nat := nsView t * 65536 + t.2.2

/-- The whole cycle number nearest the present that ends in the 32 bits a frame carries (R703). -/
def State.cvnFull (s : State) (n : Nat) : Nat :=
  ((s.cvnN : Int) + signedOf 32 (toBits 32 ((n : Int) - (s.cvnN : Int)))).toNat

/-- The mean of the link delay values, if there is one (R716). -/
def meanDelay (ds : List Nat) : Option Nat := if ds.isEmpty then none else some (sumOf ds / ds.length)

/-- The delay that a node uses for a link: a node that is OFF does not measure, and adds none. -/
def State.cvnDelay (s : State) (c : Nat) (d : Bool) : Option Nat :=
  let x := s.chan c
  if s.cvnState c = 0 then some 0 else meanDelay (if d then x.delD else x.delU)

/-! ## The guardian's silence (R733) -/

/-- Both channels in SYNC become SILENCED. -/
def State.cvnSilence (s : State) (c cycle : Nat) : State :=
  let one := fun (t : State) (k : Nat) => if t.cvnState k = 5 then
      ((t.cvnUnfirst k).onChan k fun x => { x with good := 0 }).cvnTo k 6 else t
  let s1 := one (one { s with cvn := { s.cvn with viol := none } } 0) 1
  (s1.raise .cvn F_CVN_SILENCED []).event .cvn 0x3A 4 (c * 2 ^ 32 + cycle) 0

/-- A violating cycle of the node: two in a row silence it. -/
def State.cvnViolate (s : State) (c cycle : Nat) : State :=
  match s.cvn.viol with
  | some v => if v = cycle then s else if (v + 1) % 2 ^ 32 = cycle then s.cvnSilence c v else
      { s with cvn := { s.cvn with viol := some cycle } }
  | none => { s with cvn := { s.cvn with viol := some cycle } }

/-! ## Alignment (R717, R718) -/

/-- FREQ from the alignment law, held at the limits (R653, R717). -/
def State.cvnFreq (s : State) (x : Int) : State :=
  if x < -(2 ^ 31) ∨ 2 ^ 31 - 1 < x then
    let y : Int := if x < 0 then -(2 ^ 31) else 2 ^ 31 - 1
    ((((s.setReg TIME_FREQ (BitVec.ofInt 32 y)).tbValid).wr TIME_STAT TIME_STAT_FREQ_CLAMP 1).raise .time F_TIME_FREQ_CLAMP [0, 31])
  else s.setFreq (BitVec.ofInt 32 x) 31

/-- One CS frame with θ, in units of 2⁻¹⁶ ns, moves the time base. The answer says whether it was stepped. -/
def State.cvnSteer (s : State) (c : Nat) (theta : Int) : Bool × State :=
  let g := (s.cvnHeader c (s.cvnBank c)).guard
  if !(s.chan c).met ∨ (g : Int) * 65536 < 2 * theta.natAbs then
    (true, (s.stepTime (-theta) 2).bump CVN_STAT CVN_STAT_STEPS 1)
  else
    let e := Int.fdiv (-theta * 2 ^ 26) s.cvnCycle
    let integ := (s.chan c).integ + Int.fdiv e (2 ^ s.rd CVN_ALIGN_CFG CVN_ALIGN_CFG_KI)
    let s1 := s.onChan c fun x => { x with integ := integ }
    (false, s1.cvnFreq (integ + Int.fdiv e (2 ^ s.rd CVN_ALIGN_CFG CVN_ALIGN_CFG_KP)))

/-- INT_CYCLES: 0 acts as 1 (R747). -/
def State.intCycles (s : State) : Nat := max 1 (s.rd CVN_CTRL CVN_CTRL_INT_CYCLES)

/-- The mode of the sender against the bank in force (R738). -/
def State.cvnModeSeen (s : State) (c mode : Nat) (first : Bool) : State :=
  let h := s.cvnHeader c (s.cvnBank c)
  if h.valid && h.mode == mode then s.wr (CVN_CH_MODE c) CVN_CH_MODE_MODE mode
  else
    let st := s.cvnState c
    let s1 := if st = 5 then s.cvnIntegrate c else s
    if s1.cvnOther c mode then s1.cvnSwitch c mode
    else if st ≠ 4 ∨ first then s1.cvnCfgErr else s1

/-- The count of CS frames in a row within G / 2, and SYNC when it is complete (R730). -/
def State.cvnCount (s : State) (c : Nat) (near : Bool) (mode : Nat) : State :=
  let k : Nat := if near then (s.chan c).good + 1 else 0
  let s1 := s.onChan c fun x => { x with good := k, met := true }
  let h := s1.cvnHeader c (s1.cvnBank c)
  let st := s1.cvnState c
  if s1.intCycles ≤ k ∧ ((st = 4 ∧ h.valid ∧ h.mode = mode) ∨ st = 6) then s1.cvnTo c 5 else s1

/-- A CS frame that the node follows: `path` is CORR plus the delay of the link, `t` its receive time. -/
def State.cvnFollow (s : State) (c : Nat) (f : CvnFrame) (path t : Nat) : State :=
  let first := !(s.chan c).met
  let g := (s.cvnHeader c (s.cvnBank c)).guard
  let start : Nat := (be f.payload 0 6 * 1000000000 + be f.payload 6 4) % 2 ^ 64
  let theta : Int := (t : Int) - path - ((start : Int) + g) * 65536
  let time := c == s.tch
  let s1 := ((s.wr (CVN_CH_STAT c) CVN_CH_STAT_FIRST_ADDR f.src).wr (CVN_CH_LAT c) CVN_CH_LAT_NS (path / 65536)).onChan c
    fun x => { x with csCycle := f.cycle, depth := byteAt f.payload 17 }
  let s2 := if time then (s1.setReg CVN_OFFSET (BitVec.ofInt 32 (Int.fdiv theta 4096))).wr CVN_STAT CVN_STAT_DEPTH
      (byteAt f.payload 17) else s1
  let (stepped, s3) := if time && s.maySteer .cvn then s2.cvnSteer c theta else (false, s2)
  let s4 := if time && decide ((g : Int) * 65536 < theta.natAbs) && s.cvnState c == 5 then s3.cvnViolate c f.cycle else s3
  let req := bitOf (byteAt f.payload 19) 7
  let s5 := if s.cvnState c = 5 then s4.wr (CVN_CH_STAT c) CVN_CH_STAT_PEND (b2n req) else s4
  let s6 := (s5.cvnModeSeen c f.mode first).cvnAnnounced c (byteAt f.payload 16 == 1)
  if 4 ≤ s6.cvnState c then
    s6.cvnCount c (!stepped && decide (2 * theta.natAbs ≤ (g : Int) * 65536)) f.mode
  else s6

/-- A CS frame of another node, aligned to or not by the channel's state (R717, R718, R730 to R732, R740). -/
def State.cvnCs (s : State) (c : Nat) (f : CvnFrame) (path t : Nat) : State :=
  let st := s.cvnState c
  if st < 2 ∨ f.ring ≠ s.rd (CVN_CH_CFG c) CVN_CH_CFG_RING ∨ f.len ≠ 160 then s
  else if 2 < byteAt f.payload 17 then s.cvnCfgErr
  else if st = 2 then
    if s.cvnMayFollow c then (s.cvnIntegrate c).cvnFollow c f path t
    else if (s.chan c).met then s
    else (s.onChan c fun x => { x with met := true }).cvnCfgErr
  else if st = 3 ∨ s.cvnFirst c then
    if s.cvnAddr < f.src then s
    else
      let s1 := s.event .cvn 0x3D 4 (c * 2 ^ 32 + f.src) 0
      if s.cvnMayFollow c then (s1.cvnIntegrate c).cvnFollow c f path t
      else ((s1.cvnListen c).onChan c fun x => { x with met := true }).cvnCfgErr
  else if f.src ≤ s.rd (CVN_CH_STAT c) CVN_CH_STAT_FIRST_ADDR ∨ (f.cycle + 2 ^ 32 - (s.chan c).csCycle) % 2 ^ 32 ≥ 2 then
    s.cvnFollow c f path t
  else s

/-- The marks that a node in SYNC sets in a CS frame it repeats (R710, R735). -/
def State.csMarks (s : State) (c : Nat) (f : CvnFrame) (pl : List Byte) : List Byte :=
  if s.cvnState c ≠ 5 then pl
  else
    let p1 := setMember pl 32 s.cvnMember
    if bitOf (byteAt f.payload 19) 6 && s.cvnOther c (byteAt f.payload 18) then setMember p1 96 s.cvnMember else p1

/-! ## The data mover (R720 to R725) -/

/-- A load of one word of an entry's area, on behalf of its owner; none when the access is denied or the word is bad. -/
def State.areaLoad (s : State) (e : CvnEnt) (off size : Nat) (ecc : Ecc) : Option (List Byte) × State :=
  match s.bankLoad (s.masterOf e.owner) e.owner e.bank (e.offset + off) size false ecc with
  | (.data bs, t) => (some bs, t)
  | (_, t) => (none, t)

def State.areaStore (s : State) (e : CvnEnt) (off : Nat) (bs : List Byte) : State :=
  (s.bankStore (s.masterOf e.owner) e.owner e.bank (e.offset + off) bs false .ok).2

/-- Bytes stored word by word. -/
def State.areaFill (fuel : Nat) (s : State) (e : CvnEnt) (off : Nat) (bs : List Byte) : State :=
  match fuel with
  | 0 => s
  | n + 1 => if bs.isEmpty then s else State.areaFill n (s.areaStore e off (bs.take 8)) e (off + 8) (bs.drop 8)

/-- Bytes loaded word by word; `ecc` is what the first word shows. -/
def State.areaRead (fuel : Nat) (s : State) (e : CvnEnt) (off len : Nat) (ecc : Ecc) : Option (List Byte) × State :=
  match fuel with
  | 0 => (some [], s)
  | n + 1 =>
    if len = 0 then (some [], s)
    else
      let (a, s1) := s.areaLoad e off (min 8 len) ecc
      match a with
      | none => (none, s1)
      | some bs =>
        let (r, s2) := State.areaRead n s1 e (off + 8) (len - min 8 len) .ok
        (r.map fun t => bs ++ t, s2)

/-- CTL of an area as a number. -/
def State.areaCtl (s : State) (e : CvnEnt) : Option Nat × State :=
  let (a, s1) := s.areaLoad e 0 8 .ok
  (a.map ofLe, s1)

/-- The buffer to write: neither LATEST nor, when USE is valid, the one being read (R722). -/
def freeBuffer (ctl use : Nat) : Nat :=
  ([0, 1, 2].find? fun k => k != ctl % 4 && !(bitOf use 2 && k == use % 4)).getD 0

/-- CTL bits of a receive entry (R720). -/
def ctlNull : Nat := 13
def ctlMissed : Nat := 14
def ctlLeft : Nat := 12

/-- A bit of CTL is set (R722). -/
def State.ctlSet (s : State) (e : CvnEnt) (bit : Nat) : State :=
  match s.areaCtl e with
  | (some v, s1) => s1.areaStore e 0 (leBytes 8 (setBit v bit true))
  | (none, s1) => s1

/-- A DATA frame is published (R722). -/
def State.publish (s : State) (e : CvnEnt) (f : CvnFrame) (cycle : Nat) (edge : Bool) : State :=
  match s.areaCtl e with
  | (none, s1) => s1
  | (some ctl, s1) =>
    match s1.areaLoad e 8 8 .ok with
    | (none, s2) => s2
    | (some u, s2) =>
      let w := freeBuffer ctl (ofLe u)
      let at_ := 64 + w * cvnBL e.len
      match s2.areaLoad e at_ 8 .ok with
      | (none, s3) => s3
      | (some q, s3) =>
        let odd := ofLe q / 2 * 2 + 1
        let s4 := (s3.areaStore e at_ (leBytes 8 odd)).areaFill 256 e (at_ + 8) (f.payload.take e.len)
        let s5 := s4.areaStore e at_ (leBytes 8 (odd + 1))
        s5.areaStore e 0 (leBytes 8 (cycle * 2 ^ 32 + (bitsOf ctl 31 16 + 1) % 65536 * 65536 + b2n edge * 2 ^ 15 +
          b2n f.stale * 2 ^ 11 + w))

/-- The receive entries of the bank in force for a slot. -/
def State.cvnRx (s : State) (c slot : Nat) : List CvnEnt :=
  let b := s.cvnBank c
  if !(s.cvnHeader c b).valid then [] else (s.cvnEnts c b).filterMap fun x => if !x.2.tx && x.2.slot == slot then some x.2 else none

/-- θ of a slot frame against the entry's ACT exceeds G (R722). -/
def State.slotEdge (s : State) (c : Nat) (f : CvnFrame) (e : CvnEnt) (path t : Nat) : Bool :=
  let g := (s.cvnHeader c (s.cvnBank c)).guard
  let due : Nat := s.cvnFull f.cycle * s.cvnCycle % 2 ^ 64 + e.act
  let theta : Int := (t : Int) - path - (due : Int) * 65536
  decide ((g : Int) * 65536 < theta.natAbs)

/-- A slot frame at its receive entries: EDGE as the copy carries it, then what the frame's type does (R722). -/
def State.cvnSlotFrame (s : State) (c : Nat) (f : CvnFrame) (path t : Nat) (act : State → CvnEnt → Bool → State) : Bool × State :=
  if s.cvnState c < 4 ∨ f.ring ≠ s.rd (CVN_CH_CFG c) CVN_CH_CFG_RING then (f.edge, s)
  else
    (s.cvnRx c f.slot).foldl (fun a e =>
      let out := !a.1 && a.2.slotEdge c f e path t
      let s1 := if out then (a.2.bump (CVN_CH_CNT1 c) cntHi 1).raiseFor .cvn F_CVN_SLOT_EDGE [] c else a.2
      (a.1 || out, act s1 e (a.1 || out))) (f.edge, s)

/-- What the mover reads for a transmit entry (R724, R725): its own buffers, or the receive entry of a gateway. `complete`
says that the read has ended by ACT − 100 ns. -/
def State.cvnMove (s : State) (c e : Nat) (ent : CvnEnt) (complete : Bool) (ecc : Ecc) : State :=
  let src := if ent.gw then s.cvnEntry ent.gwCh (s.cvnBank ent.gwCh) ent.gwSrc else ent
  let keep := fun (t : State) (p : CvnPrep) => t.onChan c fun x => { x with prep := SMap.set (fun _ => none) x.prep e (some p) }
  let null : CvnPrep := ⟨true, false, 0, []⟩
  match s.areaCtl src with
  | (none, s1) => keep s1 null
  | (some ctl, s1) =>
    let k := ctl % 4
    let seq := bitsOf ctl 31 16
    let s2 := s1.areaStore ent 8 (leBytes 8 (4 + k))
    let old := SMap.get (fun _ => none) (s.chan c).lastSeq e == some seq
    if k = 3 ∨ (ent.nullStale ∧ old) then keep s2 null
    else
      match State.areaRead 256 s2 src (64 + k * cvnBL src.len + 8) ent.len ecc with
      | (none, s3) => keep s3 null
      | (some bs, s3) => keep s3 (if complete then ⟨false, old, seq, bs⟩ else null)

/-! ## The guardian (R712, R734) -/

/-- An own frame that cannot start in time (R712). -/
def State.cvnBlocked (s : State) (c : Nat) : State := s.bump (CVN_CH_CNT2 c) cntLo 1

/-- An own frame: passed, or stomped when the guardian does not allow it. -/
def State.cvnGuard (s : State) (c : Nat) (allowed : Bool) (f : CvnFrame) : State :=
  if allowed then s.cvnOut c f false
  else ((s.cvnOut c f true).cvnBlocked c).raise .cvn F_CVN_GUARD_BLOCK []

/-- A frame of `len` bytes that starts now lies in a window of a transmit entry. -/
def State.inTxWindow (s : State) (c len : Nat) : Bool :=
  let b := s.cvnBank c
  let g := (s.cvnHeader c b).guard
  let slow := s.cvnSlow c
  (s.cvnEnts c b).any fun x => x.2.tx && decide (x.2.act ≤ s.cvnPos + g) &&
    decide (10 * s.cvnPos + wireTime slow len ≤ (entWindow g slow x.2).2)

/-! ## Leaving (R726, R727) -/

/-- The ACT of the node's first transmit slot of a cycle. -/
def State.firstTx (s : State) (c : Nat) : Option Nat :=
  (((s.cvnEnts c (s.cvnBank c)).filter fun x => x.2.tx).map fun x => x.2.act).foldl
    (fun (a : Option Nat) v => match a with | some m => some (min m v) | none => some v) none

/-- A leave begins on a channel in SYNC (R726). -/
def State.cvnBeginLeave (s : State) (c : Nat) : State :=
  if s.cvnState c ≠ 5 ∨ (s.chan c).leaving.isSome then s
  else
    let now := match s.firstTx c with | some a => decide (s.cvnPos < a) | none => false
    (s.cvnAbandon c).onChan c fun x => { x with leaving := some (if now then s.cvnN else s.cvnN + 1), told := [] }

def State.cvnLeaveAll (s : State) : State := (s.cvnBeginLeave 0).cvnBeginLeave 1

/-- The node may take part again. -/
def State.cvnRejoin (s : State) : State :=
  [0, 1].foldl (fun t c => t.onChan c fun x => { x with leaving := none, left := false, told := [] }) s

/-- The LEAVE frame of an entry in a cycle, if it has not been sent; entry 0 is the first node's at CS_END. -/
def State.cvnTell (s : State) (c cycle e : Nat) : State :=
  if (s.chan c).told.contains (cycle, e) then s
  else
    let ent := s.cvnEntry c (s.cvnBank c) e
    let act := if e = 0 then csEnd (s.cvnHeader c (s.cvnBank c)).guard (s.cvnSlow c) / 10 else ent.act
    let f := { s.cvnOwn c cvnLEAVE (if e = 0 then 0 else ent.slot) act [] with cycle := cycle % 2 ^ 32 }
    (s.onChan c fun x => { x with told := x.told ++ [(cycle, e)] }).cvnOut c f false

/-- The LEAVE frames of an announcement cycle. -/
def State.cvnTellCycle (s : State) (c cycle : Nat) : State :=
  let es := ((s.cvnEnts c (s.cvnBank c)).filter fun x => x.2.tx).map Prod.fst
  ((if s.cvnFirst c then [0] else []) ++ es).foldl (fun t e => t.cvnTell c cycle e) s

/-! ## Enabling and reset (R695, R697, R730) -/

/-- EN of a channel is written 1: TRAIN; EN = 0: OFF. -/
def State.cvnSetEn (s : State) (c : Nat) (en : Bool) : State :=
  if s.cvnEn c == en then s
  else if en then
    (((s.wr (CVN_CH_CFG c) CVN_CH_CFG_EN 1).onChan c fun x =>
      { CvnChan.reset with upU := x.upU, upD := x.upD, loopU := x.loopU, loopD := x.loopD, slowU := x.slowU, slowD := x.slowD
                           left := x.left }).cvnTo c 1).cvnTrained c
  else
    let s1 := (((s.cvnUnfirst c).wr (CVN_CH_CFG c) CVN_CH_CFG_EN 0).wr (CVN_CH_STAT c) CVN_CH_STAT_FIRST_ADDR 0xFFF).wr (CVN_CH_STAT c)
      CVN_CH_STAT_PEND 0
    (s1.onChan c fun x => { CvnChan.reset with
      upU := x.upU, upD := x.upD, loopU := x.loopU, loopD := x.loopD, slowU := x.slowU, slowD := x.slowD, left := x.left }).cvnTo c 0

/-- A write of CVN_CHc_CFG: EN = 1 without an address is discarded (R697). -/
def State.cvnCfgWrite (s : State) (c : Nat) (v : Word) : State :=
  let en := bitOf v.toNat 31
  if en && !s.cvnEn c && s.cvnAddr == 0xFFF then s.cvnCfgErr
  else
    let was := s.cvnEn c
    ((s.regWrite (CVN_CH_CFG c) v).wr (CVN_CH_CFG c) CVN_CH_CFG_EN (b2n was)).cvnSetEn c en

/-- A channel has EN = 1 (R748, R749). -/
def State.cvnAnyEn (s : State) : Bool := s.cvnEn 0 || s.cvnEn 1

/-- A write of an entry word (R713): discarded in the bank in force of a channel that is not OFF. A header's VALID starts
the check (R714). -/
def State.cvnTableWrite (s : State) (c b e k : Nat) (v : Word) : State :=
  if s.cvnEn c && s.cvnBank c == b then s.cvnCfgErr
  else if e = 0 ∧ k = 3 then
    let s1 := (s.regWrite (cvnOff c b 0 3) v).cvnValid c b false
    if bitOf v.toNat 31 then s1.cvnCheck c b else s1
  else s.regWrite (cvnOff c b e k) v

/-- A whole bank image into the inactive bank, and its check; the answer says whether it holds (R742, R743). -/
def State.cvnLoad (s : State) (c : Nat) (img : List Byte) : Bool × State :=
  let b := 1 - s.cvnBank c
  let s1 := (List.range 1024).foldl (fun t i => t.regWrite (cvnOff c b (i / 4) (i % 4)) (BitVec.ofNat 32 (ofLe (slice img (4 * i) 4)))) s
  let s2 := (s1.cvnValid c b false).cvnCheck c b
  ((s2.cvnHeader c b).valid, s2)

/-! ## Delay measurement (R715, R716, R729) -/

/-- The send time on a port of a frame that starts `d` units of 2⁻¹⁶ ns from now. -/
def State.txStampIn (s : State) (n : Nat) (d : Nat) : Nat × Nat × Nat :=
  let (m, r, f) := s.portMode n
  s.moment (((tsCorr m r f).2 : Int) + signedOf 16 (s.rd (TIME_PORT_CORR n) TIME_PORT_CORR_TX_DELAY) * 16384 + d)

/-- A time in 12 bytes (R716). -/
def timeBytes (t : Nat × Nat × Nat) : List Byte := beBytes 6 t.1 ++ beBytes 4 t.2.1 ++ beBytes 2 t.2.2

/-- A time of 12 bytes in units of 2⁻¹⁶ ns. -/
def timeOf (bs : List Byte) (i : Nat) : Int := ((be bs i 6 * 1000000000 + be bs (i + 6) 4) * 65536 + be bs (i + 10) 2 : Nat)

/-- DLY_REQ on one port; with the second delay value of a looped link it names the cycle n + 2 (R715, R729). -/
def State.dlyReq (s : State) (p : Nat) : State :=
  let c := p / 2
  let d := p % 2 == 0
  let x := s.chan c
  if !(if d then x.upD else x.upU) then s
  else
    let ends := if d then x.loopD && x.loopEndD.isNone && decide (2 ≤ x.delD.length)
      else x.loopU && x.loopEndU.isNone && decide (2 ≤ x.delU.length)
    let h := s.cvnHeader c (s.cvnBank c)
    let act := (10 * h.tail + 20 * h.guard + wireTime (s.cvnSlow c) 8) / 10
    let n : Nat := if ends then s.cvnN + 2 else s.cvnN
    let t : Nat := scaledView (s.txStamp p)
    let fin : Option Nat := some n
    let y := if d then { x with reqD := some t } else { x with reqU := some t }
    let z := if !ends then y else if d then { y with loopEndD := fin } else { y with loopEndU := fin }
    (s.setChan c z).emit (.caravan p ({ s.cvnOwn c cvnREQ 0 act [] with cycle := n % 2 ^ 32 }.bytes false))

/-- A link delay value joins the last 16 (R716). -/
def State.dlyValue (s : State) (p v : Nat) : State :=
  let c := p / 2
  if p % 2 = 0 then
    let ds := (v :: (s.chan c).delD).take 16
    (s.onChan c fun x => { x with delD := ds, reqD := none }).setReg (CVN_CH_LDLY_D c) (BitVec.ofNat 32 ((meanDelay ds).getD 0))
  else
    let ds := (v :: (s.chan c).delU).take 16
    (s.onChan c fun x => { x with delU := ds, reqU := none }).setReg (CVN_CH_LDLY_U c) (BitVec.ofNat 32 ((meanDelay ds).getD 0))

/-! ## Mode change (R737) -/

/-- Λ satisfies both conditions of R737, in tenths of a ns. -/
def State.cvnFits (s : State) (c : Nat) : Bool :=
  let h := s.cvnHeader c (s.cvnBank c)
  let lam := 10 * s.rd (CVN_CH_LAT c) CVN_CH_LAT_NS
  decide (lam + 10 * h.guard ≤ 10 * h.tail) &&
    decide (10 * h.tail + 20 * h.guard + wireTime (s.cvnSlow c) 8 + lam ≤ 10 * s.cvnCycle)

end Sys2Proof.Machine
end

