-- ==== Sys2Proof/Machine/SioOps.lean ====
section
/-! DEFINITION. The safety die: pairs, outputs, SOTE, joins, configuration and its NVM copies (file 17). -/

namespace Sys2Proof.Machine

/-! ## Access -/

def State.pair (s : State) (k : Nat) : SioPair := SMap.get (fun _ => SioPair.reset) s.sio.pairs k

def State.setPair (s : State) (k : Nat) (x : SioPair) : State :=
  { s with sio := { s.sio with pairs := SMap.set (fun _ => SioPair.reset) s.sio.pairs k x } }

def State.di (s : State) (ch : Nat) : SioDi := SMap.get (fun _ => SioDi.reset) s.sio.dis ch

def State.setDi (s : State) (ch : Nat) (x : SioDi) : State :=
  { s with sio := { s.sio with dis := SMap.set (fun _ => SioDi.reset) s.sio.dis ch x } }

def State.dq (s : State) (m : Nat) : SioDq := SMap.get (fun _ => SioDq.reset) s.sio.dqs m

def State.setDq (s : State) (m : Nat) (x : SioDq) : State :=
  { s with sio := { s.sio with dqs := SMap.set (fun _ => SioDq.reset) s.sio.dqs m x } }

def State.onDq (s : State) (m : Nat) (f : SioDq → SioDq) : State := s.setDq m (f (s.dq m))

/-- SSTATE (R877): 0 INIT, 1 HOLD, 2 OPERATE. -/
def State.sstate (s : State) : Nat := s.rd SIO_STAT SIO_STAT_SSTATE

def State.pairEn (s : State) (k : Nat) : Bool := s.flag (SIO_PAIR_CFG k) SIO_PAIR_CFG_EN

/-- The source that feeds a channel, if one does (R940). -/
def State.feed (s : State) (ch : Nat) : Option Nat :=
  let k := ch / 2
  if ch % 2 = 0 then (if s.flag (SIO_PAIR_CFG k) SIO_PAIR_CFG_TA_EN then some (s.rd (SIO_PAIR_CFG k) SIO_PAIR_CFG_TP_A) else none)
  else if s.flag (SIO_PAIR_CFG k) SIO_PAIR_CFG_TB_EN then some (s.rd (SIO_PAIR_CFG k) SIO_PAIR_CFG_TP_B) else none

/-- DISC: values outside 5 to 500 act as the nearer limit (R940). -/
def State.discOf (s : State) (k : Nat) : Nat := max 5 (min 500 (s.rd (SIO_PAIR_CFG k) SIO_PAIR_CFG_DISC))

/-- A raise of an SIO source; FCAP0 holds the channel, pair or source (R931). -/
def State.raiseSio (s : State) (src x : Nat) : State := s.raise .sio src [x]

/-! ## Outputs (R879, R902, R903, R906, R912) -/

/-- An output is switched off; a test in progress is abandoned (R906). -/
def State.dqOff (s : State) (m : Nat) : State := s.onDq m fun x => { x with on := false, test := false }

/-- An output is switched off until a block has shown its bit as 0 and then as 1. -/
def State.dqHold (s : State) (m : Nat) : State := s.onDq m fun x => { x with on := false, test := false, wait := true, seen := false }

def State.allDq (s : State) (f : State → Nat → State) : State := (List.range 8).foldl f s

/-- The channel has lost both halves (R912). -/
def SioDq.lost (x : SioDq) : Bool := x.outA && x.outB

/-- An output may be on: OPERATE, no latch, not failed, not tripped, not waiting. -/
def State.dqMay (s : State) (m : Nat) : Bool :=
  let x := s.dq m
  s.sstate == 2 && !s.flag SIO_STAT SIO_STAT_L2_LATCH && x.fail == 0 && x.trip == 0 && !x.wait && !x.lost

/-- A pair that has shut an output off keeps it off until it is at 1 again (R902). -/
def State.linkOff (s : State) (m : Nat) : Bool := !(s.dq m).links.isEmpty

/-- The command bit that output m follows: of a joined pair, that of DQ2j (R913). -/
def State.cmdBit (s : State) (cmds m : Nat) : Bool :=
  if s.sio.joined.contains (m / 2) then bitOf cmds (m / 2 * 2) && bitOf cmds m else bitOf cmds m

/-- An accepted command bit of an output (R879, R888, R902, R903). -/
def State.dqCommand (s : State) (m : Nat) (bit : Bool) : State :=
  let x := s.dq m
  if !bit then
    let free := !s.linkOff m
    s.setDq m { x with cmd := false, on := false, test := false, seen := x.seen || (x.wait && free) }
  else
    let go := x.wait && x.seen && !x.cooling && !s.linkOff m && s.sstate == 2
    let y : SioDq := if go then { x with cmd := true, wait := false, seen := false, trip := 0 } else { x with cmd := true }
    let s1 := s.setDq m y
    if s1.dqMay m && !y.test then s1.setDq m { y with on := true } else s1

/-- A channel has a half out of service (R911). -/
def State.derated (s : State) (m : Nat) : Bool := (s.dq m).outA || (s.dq m).outB

/-- STATE of an output (R939). -/
def State.dqState (s : State) (m : Nat) : Nat :=
  let x := s.dq m
  if x.fail ≠ 0 then x.fail
  else if x.lost then 9
  else if x.trip ≠ 0 then x.trip
  else if s.flag SIO_STAT SIO_STAT_L2_LATCH then 6
  else if x.test then 2
  else if x.on then (if s.sio.joined.contains (m / 2) then 3 else 1)
  else if x.wait && s.sstate == 2 then 10
  else 0

/-- The registers of an output follow it; a new STATE is reported (R930, R939). -/
def State.dqShow (s : State) (m : Nat) : State :=
  let x := s.dq m
  let st := s.dqState m
  let f : Fld := ⟨4 * m + 3, 4 * m⟩
  let half := b2n (!x.outA) * 8 + b2n (!x.outB) * 4 + b2n (s.worn kDq (2 * m)) * 2 + b2n (s.worn kDq (2 * m + 1))
  let s1 := (s.wr SIO_DQ_HALF f half).wr SIO_STAT ⟨m, m⟩ (b2n x.on)
  if s1.rd SIO_DQ_STAT f = st then s1 else (s1.wr SIO_DQ_STAT f st).event .sio 0x52 6 (st * 16 + m) 0

/-! ## Pairs (R898 to R902) -/

/-- The pair value (R898); on the AZ-9416-M10 it reads 0 (R876). -/
def State.pairValue (s : State) (k : Nat) : Bool :=
  let a := s.di (2 * k)
  let b := s.di (2 * k + 1)
  !s.m10 && s.pairEn k && a.level && !b.level && !a.failed && !b.failed && !s.flag (SIO_PAIR_STAT k) SIO_PAIR_STAT_DISC_LATCH &&
    s.flag SIO_STAT SIO_STAT_L1_OK

/-- The registers of a pair follow it; a pair that goes to 0 switches its LINK outputs off (R902). -/
def State.pairShow (s : State) (k : Nat) : State :=
  let a := s.di (2 * k)
  let b := s.di (2 * k + 1)
  let v := s.pairValue k
  let was := s.flag (SIO_PAIR_STAT k) SIO_PAIR_STAT_VALUE
  let s1 := ((((s.wr (SIO_PAIR_STAT k) SIO_PAIR_STAT_VALUE (b2n v)).wr (SIO_PAIR_STAT k) SIO_PAIR_STAT_A_FAIL (b2n a.failed)).wr
    (SIO_PAIR_STAT k) SIO_PAIR_STAT_B_FAIL (b2n b.failed)).wr (SIO_PAIR_STAT k) SIO_PAIR_STAT_A_LVL (b2n a.level)).wr
    (SIO_PAIR_STAT k) SIO_PAIR_STAT_B_LVL (b2n b.level)
  let s2 := ((s1.wr SIO_DI_LVL ⟨16 + k, 16 + k⟩ (b2n v)).wr SIO_DI_LVL ⟨2 * k, 2 * k⟩ (b2n a.level)).wr SIO_DI_LVL
    ⟨2 * k + 1, 2 * k + 1⟩ (b2n b.level)
  if was && !v then
    s2.allDq fun t m =>
      if bitOf (s.rd (SIO_PAIR_CFG k) SIO_PAIR_CFG_LINK) m then
        (t.dqHold m).onDq m fun x => { x with links := x.links.filter (· != k) ++ [k] } else t
  else if v then s2.allDq fun t m => t.onDq m fun x => { x with links := x.links.filter (· != k) }
  else s2

/-- SIO_PAIR (R930): 1 latched, 2 cleared, 3 channel failed. -/
def State.pairEvent (s : State) (k what : Nat) : State :=
  s.event .sio 0x51 6 (s.rd (SIO_PAIR_STAT k) SIO_PAIR_STAT_LAST * 2 ^ 16 + what * 2 ^ 8 + k) 0

/-- A pair's channels after a level or a failure changed: disagreement, its end, and the return that clears a latch (R899 to
R901). -/
def State.pairTrack (s : State) (k : Nat) : State :=
  let a := !(s.di (2 * k)).level
  let b := (s.di (2 * k + 1)).level
  let x := s.pair k
  if s.m10 || !s.pairEn k then s
  else
    let latched := s.flag (SIO_PAIR_STAT k) SIO_PAIR_STAT_DISC_LATCH
    let s1 := if a != b && !x.dis then s.setPair k { x with dis := true, count := 0 }
      else if a == b && x.dis then
        let t := (s.setPair k { x with dis := false }).wr (SIO_PAIR_STAT k) SIO_PAIR_STAT_LAST (min 255 x.count)
        if x.count < s.discOf k then t.bump (SIO_PAIR_STAT k) SIO_PAIR_STAT_SHORT_DISC 1 else t
      else s
    let y := s1.pair k
    if !latched then s1
    else if a && b then s1.setPair k { y with both := true }
    else if !a && !b && y.both then
      ((s1.setPair k { y with both := false }).wr (SIO_PAIR_STAT k) SIO_PAIR_STAT_DISC_LATCH 0).pairEvent k 2
    else s1

/-- An input channel fails (R894 to R897). -/
def State.diFail (s : State) (ch src : Nat) : State :=
  let x := s.di ch
  let s1 := s.raiseSio src ch
  if x.failed then s1.setDi ch { x with acked := false }
  else (s1.setDi ch { x with failed := true, acked := false }).pairEvent (ch / 2) 3

/-! ## Joins (R913 to R915) -/

/-- A pair may be joined at all: enabled, and no half of it is spared. -/
def State.joinAble (s : State) (j : Nat) : Bool :=
  bitOf (s.rd SIO_PAR_CFG SIO_PAR_CFG_PAR_EN) j && !s.derated (2 * j) && !s.derated (2 * j + 1)

/-- A join window opens on a pair that switches on or is tested; on a derated pair the join is not made. -/
def State.joinWindow (s : State) (j kind : Nat) : State :=
  if !bitOf (s.rd SIO_PAR_CFG SIO_PAR_CFG_PAR_EN) j then s
  else if s.joinAble j then { s with sio := { s.sio with windows := SMap.set (fun _ => 0) s.sio.windows j kind } }
  else s.raiseSio F_SIO_PAR_WINDOW j

/-- Which pairs are joined now. -/
def State.joinSync (s : State) : State :=
  let on := fun (j : Nat) => s.joinAble j && SMap.get (fun _ => 0) s.sio.windows j != 0 && (s.dq (2 * j)).cmd && (s.dq (2 * j + 1)).cmd &&
    ((s.dq (2 * j)).on || (s.dq (2 * j)).test) && ((s.dq (2 * j + 1)).on || (s.dq (2 * j + 1)).test)
  { s with sio := { s.sio with joined := (List.range 4).filter on } }

/-! ## SOTE and the registers (R877, R878, R918) -/

/-- SOTE is asserted (R918). -/
def State.sote (s : State) : Bool :=
  s.sstate == 0 || (s.sstate == 1 && (s.mode == .boot || s.mode == .safe || s.mode == .standby || s.sio.demand)) ||
    (List.range 8).any fun m => (s.dq m).fail != 0

/-- The pin cannot be driven while L1+ is below 16.8 V (R917). -/
def State.soteShow (s : State) : State :=
  let v := s.sote
  if s.flag SIO_STAT SIO_STAT_SOTE == v then s else (s.wr SIO_STAT SIO_STAT_SOTE (b2n v)).setPin "SOTE" (v && !s.sio.stopped)

/-- Every register of the block that shows the die's state follows it. -/
def State.sioSync (s : State) : State :=
  let s1 := (List.range 8).foldl State.pairShow s
  (s1.joinSync.allDq State.dqShow).soteShow

/-- SIO_STATE (R930): cause is the fault bit, 0xF for a mode change. -/
def State.sioTo (s : State) (st cause : Nat) : State :=
  if s.sstate = st then s
  else
    let s1 := if s.sstate = 2 then s.allDq State.dqOff else s
    let s2 := if st = 2 then s1.allDq fun t m => t.onDq m fun x => { x with wait := true, seen := false } else s1
    (s2.wr SIO_STAT SIO_STAT_SSTATE st).event .sio 0x50 6 (st * 16 + cause) 0

/-- The die follows the mode of the module, but not out of INIT or past a configuration that does not verify (R878, R882). -/
def State.sioFollow (s : State) : State :=
  let s0 := if s.mode = .safe then s else { s with sio := { s.sio with demand := false } }
  if s0.sstate = 0 then s0.sioSync
  else
    let run := (s0.mode == .run || s0.mode == .degraded) && !s0.sio.badCfg
    (s0.sioTo (if run then 2 else 1) 0xF).sioSync

/-- A device-level safety demand: HOLD at once, and SAFE with cause 0x2 (R878, R904, R922). -/
def State.sioDemand (s : State) (cause : Nat) : State :=
  let s1 := { s with sio := { s.sio with demand := true } }.wr SIO_STAT SIO_STAT_ACK_OK 0
  ((if s1.sstate = 2 then s1.sioTo 1 cause else s1).later (.safe 2))

/-- A channel fails with STUCK or XSHORT (R904, R905, R908); on the AZ-9416-M10 it is reported only (R876). -/
def State.dqFail (s : State) (m code src : Nat) : State :=
  let s1 := (s.onDq m fun x => { x with on := false, test := false, fail := code }).raiseSio src m
  if s.m10 then s1 else s1.sioDemand src

/-- A half is taken out of service (R911, R912); a half that is only worn stays when it is the last. -/
def State.halfOut (s : State) (m : Nat) (a worn : Bool) : State :=
  let x := s.dq m
  if (if a then x.outA else x.outB) || (worn && (if a then x.outB else x.outA)) then s
  else
    let y := if a then { x with outA := true } else { x with outB := true }
    if y.lost then (s.setDq m { y with on := false, test := false }).raiseSio F_SIO_DQ_LOST m
    else (s.setDq m y).raiseSio F_SIO_HALF_SPARED m

/-! ## Configuration (R882, R923, R926, R927) -/

/-- The registers of the safety configuration in ascending offset order (R923). -/
def sioCfgOffs : List Nat :=
  [SIO_IMG_CFG, SIO_IMG_OFF, SIO_TP_CFG, SIO_OT_CFG, SIO_PAR_CFG] ++ (List.range 8).map SIO_PAIR_CFG

/-- CRC-32C in reflected order from a start value, before the final exclusive-or (R887, R923). -/
def crc32c (start : Nat) (bs : List Byte) : Nat := bs.foldl (fun st b => crcByte ⟨32, 0x1EDC6F41, true⟩ st b.toNat) start

/-- The configuration CRC of 13 words (R923). -/
def cfgCrc (ws : List Word) : Nat := crc32c 0xFFFFFFFF (ws.map fun w => leBytes 4 w.toNat).flatten ^^^ 0xFFFFFFFF

def State.sioWords (s : State) : List Word := sioCfgOffs.map s.reg

/-- SIO_PEND_CRC shows the registers as they stand. -/
def State.sioPend (s : State) : State := s.setReg SIO_PEND_CRC (BitVec.ofNat 32 (cfgCrc s.sioWords))

/-- The registers take the words of a list. -/
def State.sioPut (s : State) (ws : List Word) : State :=
  ((sioCfgOffs.zip ws).foldl (fun t e => t.setReg e.1 e.2) s).sioPend

/-- The configuration that NVM holds, from the first copy that verifies. -/
def State.sioSaved (s : State) : Option SioCopy :=
  if s.nvm.sio.a.good then some s.nvm.sio.a else if s.nvm.sio.b.good then some s.nvm.sio.b else none

/-- The registers reload from NVM (R882, R926); the AZ-9416-M10 stores nothing (R876). -/
def State.sioReload (s : State) : State :=
  if s.m10 then s
  else
    match s.sioSaved with
    | some c => ((s.sioPut c.words).setReg SIO_CFG_VER (BitVec.ofNat 32 c.version)).setReg SIO_CFG_CRC (BitVec.ofNat 32 (cfgCrc c.words))
    | none => s.sioPend

/-- UNLOCKED clears without a commit (R926). -/
def State.sioRelock (s : State) : State :=
  if s.flag SIO_STAT SIO_STAT_UNLOCKED then ((s.wr SIO_STAT SIO_STAT_UNLOCKED 0).sioReload).sioSync else s

/-- The change log's registers (R938). -/
def State.sioLogShow (s : State) : State :=
  (s.wr SIO_LOG_STAT SIO_LOG_STAT_ENTRIES s.nvm.sio.log.length).wr SIO_LOG_STAT SIO_LOG_STAT_NEXT s.nvm.sio.next

/-- An entry joins the change log, and SIO_CFG reports it (R928, R930). -/
def State.sioLog (s : State) (kind port crc old new : Nat) : State :=
  let e := leBytes 8 s.now ++ [BitVec.ofNat 8 kind, BitVec.ofNat 8 port, 0, 0] ++ leBytes 4 crc ++ leBytes 4 old ++ leBytes 4 new ++
    List.replicate 8 0
  let log := s.nvm.sio.log ++ [e]
  let s1 := { s with nvm := { s.nvm with sio := { s.nvm.sio with
    log := log.drop (log.length - 256), next := (s.nvm.sio.next + 1) % 256 } } }
  s1.sioLogShow.event .sio 0x54 6 (ofLe (slice e 8 8)) (ofLe (slice e 16 8))

/-! ## The safety-domain reset (R880) -/

/-- The die loses its state and its non-sticky fields, switches the outputs off and enters INIT. -/
def State.sioReset (s : State) (cause : Nat) : State :=
  let s1 := s.allDq State.dqOff
  let s2 := { s1 with sio := SioSt.reset }.resetRegs fun off => blkAt off == some BlkId.sio && !isFaultReg off && off != SIO_DQ_STAT
  let s3 := (s2.wr SIO_STAT SIO_STAT_PWD_SET (b2n s.nvm.sio.pwd.isSome)).event .sio 0x50 6 cause 0
  s3.sioSync

/-- Thermal cycles of a half-switch in this period (R911, R942). -/
def State.thermalCycles (s : State) (u k : Nat) : State :=
  s.bump (SIO_DQ_CNT (u / 2)) (if u % 2 = 0 then SIO_DQ_CNT_TC_HA else SIO_DQ_CNT_TC_HB) k

end Sys2Proof.Machine
end

