-- ==== Sys2Proof/Machine/ModeOps.lean ====
section
/-! DEFINITION. Mode transitions, resets, quiesces and the supervisors (file 02, R823 to R826, R1036). -/

namespace Sys2Proof.Machine

/-! ## NVM (R112 to R114, R971, R978) -/

/-- The registers whose words NVM keeps with the wear records (R991, R1033). -/
def wornRegs : List Nat := [HLTH_AVAIL, HLTH_PARTIAL, HLTH_HOURS, PWR_CNT]

/-- Buffered fault log entries reach NVM (R971). -/
def State.flushFaultLog (s : State) : State :=
  { s with
    nvm := { s.nvm with faultLog := s.faultLog, faultNext := (s.nvm.faultNext + s.faults.buffered.length) % 128 }
    faults := { s.faults with buffered := [] } }

/-- The wear records and counts reach NVM (R978). -/
def State.flushWear (s : State) : State :=
  { s with nvm := { s.nvm with savedWear := s.nvm.wear, savedCnt := wornRegs.map s.reg } }

/-- What a unit's record holds after a loss of what had not been flushed: the counts of the last flush, with the reference and
the latches, which are written as they change (R978). -/
def UnitWear.restored (now saved : UnitWear) : UnitWear :=
  { saved with ref := now.ref, failed := now.failed, worn := now.worn, retire := now.retire, valid := false, missed := 0, hist := [] }

/-- The wear records as PORST_N finds them in NVM. -/
def Nvm.lostWear (n : Nvm) : Nvm :=
  let old := fun (k : Nat) => SMap.get (fun _ => UnitWear.fresh) n.savedWear k
  let ks := n.wear.map Prod.fst
  { n with wear := ks.foldl (fun m k => SMap.set (fun _ => UnitWear.fresh) m k
      ((SMap.get (fun _ => UnitWear.fresh) n.wear k).restored (old k))) n.savedWear }

/-- Every measurement belongs to an earlier life (R990). -/
def Nvm.newLife (n : Nvm) : Nvm :=
  { n with wear := n.wear.filterMap fun e =>
      let w := { e.2 with valid := false, missed := 0, hist := [] }
      if w = UnitWear.fresh then none else some (e.1, w) }

/-- GEN_UPD_STAT mirrors the newest entry of the update log (R114). -/
def State.updMirror (s : State) : State :=
  match s.nvm.updLog with
  | [] => s.setReg GEN_UPD_STAT 0
  | e :: _ => s.setReg GEN_UPD_STAT (BitVec.ofNat 32 (min e.progress 256 * 2 ^ 12 + b2n e.slotB * 2 ^ 8 + e.kind.code))

/-- IMG_UPDATE (R495). -/
def State.updTell (s : State) : State := s.event .gen 0x0A 0 (s.reg GEN_UPD_STAT).toNat 0

/-- An entry joins the update log, newest first (R114). -/
def State.updAppend (s : State) (k : UpdKind) (slotB : Bool) (version progress : Nat) : State :=
  ({ s with nvm := { s.nvm with updLog := (UpdEntry.mk k slotB version progress s.now :: s.nvm.updLog).take 64 } }).updMirror.updTell

def State.flash (s : State) (b : Bool) : FlashSlot := if b then s.flashB else s.flashA

def State.setFlash (s : State) (b : Bool) (x : FlashSlot) : State :=
  if b then { s with flashB := x } else { s with flashA := x }

/-- A length in 64 KiB units, rounded up (R114). -/
def units64 (n : Nat) : Nat := (n + 65535) / 65536

/-! ## Transitions (R83 to R89) -/

/-- MODE_CHANGED (R483). -/
def State.modeEvent (s : State) (prev new : Nat) : State :=
  s.event .gen 0x02 0 (s.rd GEN_MODE_STAT GEN_MODE_STAT_SAFE_CAUSE * 2 ^ 16 + prev * 2 ^ 4 + new) 0

/-- The mode changes: PREV_MODE, the safety die (R878) and its lock (R926), and the outage that ends with SAFE (R981). -/
def State.setMode (s : State) (m : Mode) : State :=
  let s1 := ({ s with mode := m }).wr GEN_MODE_STAT GEN_MODE_STAT_PREV_MODE s.mode.code
  let s2 := (if s.mode = .config then s1.sioRelock else s1).sioFollow
  if s.mode = .safe then
    { s2.availEnd with faults := { s2.availEnd.faults with outageSrc := none } }
  else s2

/-- The mode changes and MODE_CHANGED reports it. -/
def State.toMode (s : State) (m : Mode) : State := (s.setMode m).modeEvent s.mode.code m.code

/-- The effects of SAFE entry beyond the mode (R83, R88, R855). -/
def State.intoSafe (s : State) (cause : Nat) : State :=
  let s1 := (if s.mode = .boot then { s with boot := { s.boot with stopped := true } } else s).wr GEN_MODE_STAT
    GEN_MODE_STAT_SAFE_CAUSE cause
  (s1.setMode .safe).seqSafe

/-- SAFE entry (R83): in SAFE the module stays as it is (R957), and STANDBY has no such transition. -/
def State.enterSafe (s : State) (cause : Nat) : State :=
  if s.mode = .safe ∨ s.mode = .standby then s else (s.intoSafe cause).modeEvent s.mode.code Mode.safe.code

/-- SAFE at the start of a quiesce: SAFE_CAUSE takes the cause of the sequence (R91, R117, R1036). `tell`: with its own
MODE_CHANGED. -/
def State.quiesceSafe (s : State) (cause : Nat) (tell : Bool) : State :=
  if s.mode = .safe then s.wr GEN_MODE_STAT GEN_MODE_STAT_SAFE_CAUSE cause
  else if tell then s.enterSafe cause else s.intoSafe cause

/-- What every entry to DEGRADED does (R331, R332): SHORTAGE, the classes that are short, and step 1 of the shedding. -/
def State.degradedEffects (s : State) : State :=
  ((s.raise .wadi F_WADI_SHORTAGE []).wr WADI_SHORT WADI_SHORT_SHED s.shedBits).shedFunctions

/-- RUN becomes DEGRADED when a loss is outstanding (R83, R331). -/
def State.enterDegraded (s : State) : State :=
  if s.mode = .run ∧ (s.wadi.lost ≠ [] ∨ s.outstanding = true) then (s.toMode .degraded).degradedEffects else s

/-- DEGRADED is left for RUN (R335, R336). -/
def State.leaveDegraded (s : State) : State :=
  if s.mode = .degraded ∧ s.outstanding = false ∧ s.wadi.moved = [] ∧ s.wadi.lost = [] then
    { s.toMode .run with wadi := { s.wadi with step1 := false, keepHw := [] } }
  else s

/-- Entry to RUN, or to DEGRADED when a unit class is short (R83, R84, R89). -/
def State.enterService (s : State) : State :=
  let s0 := { s with wadi := { s.wadi with step1 := false, keepHw := [] } }
  let m : Mode := if s.classShort then .degraded else .run
  let s1 := ((s0.toMode m).startSlots).cvnRejoin
  if m = .degraded then s1.degradedEffects else s1

/-- Entry to CONFIG from RUN, DEGRADED or SAFE (R83). -/
def State.enterConfig (s : State) : State := (((s.migAbandon 7).toMode .config).stopSlots).cvnLeaveAll

/-! ## Quiesces (R91, R117, R823, R1010, R1036) -/

/-- What an eject, a removal, a warm reset and STANDBY abandon: an image update, a bank repair, a march, a migration that is
not in its blackout (R116, R117, R292, R399). -/
def State.abandonWork (s : State) (eject : Bool) : State :=
  let s1 := if s.inBlackout then s else s.migAbandon 7
  { (s1.dropRepair (if eject then 4 else 2)).abortMarch with upd := none }

/-- A quiesce starts. -/
def State.quiesceStart (s : State) (k : QuiesceKind) : State :=
  ({ s with quiesce := some ⟨k, false, false, false, false, false, false⟩ }.abandonWork (k == QuiesceKind.eject || k == QuiesceKind.removal)).cvnLeaveAll

/-- EJECT (R117, R483). -/
def State.ejectEvent (s : State) : State := s.event .gen 0x04 0 0 0

/-- An accepted eject or a surprise removal (R117, R1010, R1036). -/
def State.quiesceEject (s : State) (k : QuiesceKind) : State :=
  match s.quiesce with
  | none => (s.quiesceSafe 4 true).quiesceStart k
  | some q =>
    if q.kind = .eject ∨ q.kind = .removal then s
    else
      let q1 := { q with
        kind := k, wantWarm := q.kind == .warm, wantStandby := q.kind == .standby, told := true }
      { s.quiesceSafe 4 true with quiesce := some q1 }.ejectEvent

/-- A host warm reset (R91, R1036). -/
def State.quiesceWarm (s : State) : State :=
  match s.quiesce with
  | none => (s.quiesceSafe 3 false).quiesceStart .warm
  | some q =>
    if q.kind = .standby then { s with quiesce := some { q with kind := .warm, early := true } }
    else if q.kind = .warm then s
    else { s with quiesce := some { q with wantWarm := true, wantStandby := false } }

/-- STANDBY is requested (R83, R823, R1036). The answer is a cause of refusal, 0 when it is accepted. -/
def State.quiesceStandby (s : State) : Nat × State :=
  match s.quiesce with
  | none => (0, s.quiesceStart .standby)
  | some q =>
    if q.kind = .warm then (5, s)
    else if q.kind = .standby then (0, s)
    else if q.wantWarm then (5, s)
    else (0, { s with quiesce := some { q with wantStandby := true } })

/-- The end of an eject or removal quiesce under R119 and R1010; what waited for it proceeds with its remaining steps
(R1036). -/
def State.quiesceAbort (s : State) : State :=
  match s.quiesce with
  | none => s
  | some q =>
    if q.kind = .warm ∨ q.kind = .standby then s
    else
      let next : Option Quiesce :=
        if q.wantWarm then some { q with kind := .warm, wantWarm := false }
        else if q.wantStandby then some { q with kind := .standby, wantStandby := false }
        else none
      let s1 := ({ s with quiesce := next }.wr GEN_MODE_STAT GEN_MODE_STAT_QUIESCED 0)
      let s2 := if next.isNone then s1.cvnRejoin else s1
      ((s2.resumePort 0).resumePort 1).event .gen 0x0B 0 0 0

/-! ## Requests by a host (R84 to R87) -/

/-- A request is refused (R86): REFUSE and MODE_REFUSED. -/
def State.refuseMode (s : State) (cause target : Nat) : State :=
  (s.wr GEN_MODE_STAT GEN_MODE_STAT_REFUSE cause).event .gen 0x03 0 (cause * 2 ^ 12 + target) 0

/-- Why an exit from SAFE is refused; 0 when it is accepted (R85, R88). -/
def State.safeExit (s : State) (sack : Bool) : Nat :=
  if s.boot.stopped then 1
  else if !sack then 2
  else if s.fatalUncleared then 3
  else if !s.m10 && !s.flag SIO_STAT SIO_STAT_ACK_OK then 4
  else 0

/-- Whether a transition from a mode is one that a host may ask for (R83, R84): the target as in R82, DEGRADED as RUN. -/
def hostMayAsk (m : Mode) (want : Nat) : Bool :=
  match m with
  | .boot => want == 4
  | .config => want == 2 || want == 4 || want == 5
  | .run | .degraded => want == 1 || want == 4 || want == 5
  | .safe => want == 1 || want == 2 || want == 5
  | .standby => false

/-- The transition to CONFIG; one that meets a blackout waits for its end (R292). -/
def State.askConfig (s : State) (ring : Option Nat) : State :=
  if s.inBlackout then { s with pers := { s.pers with toConfig := some ring } } else s.enterConfig

/-- A host's request for a mode (R84 to R87), on behalf of a MODE command of `ring` if it is one: the cause of a refusal, 0
when it is accepted. -/
def State.modeRequest (s : State) (target : Nat) (sack : Bool) (ring : Option Nat) : Nat × State :=
  let want := if target = 3 then 2 else target
  let refuse := fun (c : Nat) => (c, s.refuseMode c target)
  if !hostMayAsk s.mode want then refuse 1
  else if s.enteringStandby ∧ want ≠ 4 ∧ want ≠ 5 then refuse 5
  else if want = 4 then (0, s.enterSafe 3)
  else if want = 5 then
    let (c, s1) := s.quiesceStandby
    if c = 0 then (0, s1) else refuse c
  else
    let c := if s.mode = .safe then s.safeExit sack else 0
    if c ≠ 0 then refuse c
    else
      let s1 := if s.mode = .safe then s.wr SIO_STAT SIO_STAT_ACK_OK 0 else s
      if want = 1 then (0, s1.askConfig ring) else (0, s1.enterService)

/-! ## Block resets (R95, R96) -/

/-- The registers of a block that its reset changes: not its fault registers (R947), and not what mirrors a choice outside it
or content that the reset keeps (R805, R855). -/
def resetsReg (b : BlkId) (off : Nat) : Bool :=
  blkAt off == some b && !isFaultReg off &&
    (match b with
     | .psq => !((List.range 48).any fun p => off == PSQ_PIO_CFG p) && !((List.range 32).any fun n => off == PSQ_SEQ_PINS n) &&
        !((List.range 8).any fun m => off == PSQ_MAP m)
     | .mdb 8 => false
     | .wake => !((List.range 8).any fun n => off == WAKE_BUS_STAT n)
     | _ => true)

/-- The packet buffer and the queues of the switch core empty; the frames are counted where they were queued (R95). -/
def State.swcReset (s : State) : State :=
  let s1 := s.resetRegs (resetsReg .swc)
  let s2 := (List.range 16).foldl (fun t n => (t.dropPort n).2) s1
  let s3 := (List.range 16).foldl (fun t l =>
    t.bump32 (SWC_SLOT_DROP l) (sumOf ((List.range 8).map fun q => (s.eq l q).length))) s2
  let s4 := (s.swc.frx.map Prod.fst).foldl (fun t r => t.dropFrx r) s3
  let s5 : State := { s4 with
    pes := s4.pes.map fun (e : Engine) => { e with fau := { e.fau with rx := none, rxAhead := false, ahead := 0, tx := none } }
    swc := { s4.swc with eq := [] } }
  let s6 := (s5.swc.frames.map Prod.fst).foldl (fun (t : State) f => t.collect f) s5
  { s6 with swc := { SwcSt.reset with
      nextFid := s6.swc.nextFid, macs := s6.swc.macs, txts := s6.swc.txts, subMap := s6.swc.subMap, subBad := s6.swc.subBad
      frames := s6.swc.frames } }

/-- A bus's controller is reset; WAKE keeps the sleep state of the bus. -/
def State.mdbReset (s : State) (n : Nat) : State :=
  if n = 8 then s.dropRemap
  else
    let b := s.bus n
    (s.resetRegs (resetsReg (.mdb n))).setBus n { BusSt.reset with asleep := b.asleep, pendAt := b.pendAt, shed := b.shed }

/-- A reset of TIME beyond its registers: slews and timed pins (R95). -/
def State.forgetTime (s : State) : State := { s with tb := { s.tb with slew := 0 }, tio := [] }

/-- A reset of CVN beyond its registers (R95). -/
def State.forgetCvn (s : State) : State := { s with cvn := CvnSt.reset }

/-- The effect of a block reset, by its code (R95, R96). -/
def State.blockResetBody (s : State) (code : Nat) : State :=
  match code with
  | 1 => (s.linkDropped 0).hostPortLost 0
  | 2 => (s.linkDropped 1).hostPortLost 1
  | 3 => (s.resetRegs (resetsReg .mbx)).mbxBlockReset
  | 5 => s.swcReset
  | 6 => (s.resetRegs (resetsReg .time)).forgetTime
  | 7 => (((s.cvnAbandon 0).cvnAbandon 1).resetRegs (resetsReg .cvn)).forgetCvn
  | 0x11 => (s.wakeAllBuses).resetRegs (resetsReg .wake)
  | 0x12 => ((s.psqBlockReset).dropSeqRemap).resetRegs (resetsReg .psq)
  | 0x13 => (s.resetRegs (resetsReg .hlth)).fltSettle
  | c => if 8 ≤ c ∧ c ≤ 0x10 then s.mdbReset (c - 8) else s

/-- The code of a block in the block-code table (R95); none for a block that has no block reset. -/
def BlkId.resetCode : BlkId → Option Nat
  | .mbx => some 3 | .swc => some 5 | .time => some 6 | .cvn => some 7 | .mdb n => some (8 + n) | .wake => some 0x11
  | .psq => some 0x12 | .hlth => some 0x13 | _ => none

/-- A code that names a block (R95). -/
def blockCode (c : Nat) : Bool := (decide (1 ≤ c) && decide (c ≤ 3)) || (decide (5 ≤ c) && decide (c ≤ 0x13))

/-- A block reset starts; the block answers no access until it ends. A host port is reset at once and trains again. -/
def State.blockReset (s : State) (code : Nat) : State :=
  let s1 := s.blockResetBody code
  if code ≤ 2 then s1
  else { s1 with boot := { s1.boot with blkReset := if s1.boot.blkReset.contains code then s1.boot.blkReset
      else s1.boot.blkReset ++ [code] } }

/-! ## Resets of the module (R90, R93, R966) -/

/-- Endpoints take a new epoch at every reset of the module (R428). -/
def State.nextEpochs (s : State) : SMap Nat :=
  (List.range 19).foldl (fun m ep => SMap.set (fun _ => 0) m ep ((s.epoch ep + 1) % 256)) s.mbx.epoch

/-- The engines after a reset of the module: retired ones stay so until the march (R179, R295). -/
def State.resetPes (s : State) : Vector Engine 18 :=
  s.pes.map fun e => { Engine.reset with state := if e.state == .failed then .failed else .idle }

/-- A reset drives FLT_N low (R966). -/
def State.driveFlt (s : State) : State :=
  if s.faults.fltLow then s else { s with faults := { s.faults with fltLow := true } }.setPin "FLT_N" false

/-- A host port across a warm reset: its configuration space and its link stay (R90); at a STANDBY exit the link trains
again. -/
def HostPort.warmed (h : HostPort) (standby : Bool) : HostPort :=
  let h1 := { h with latch := [], nowHeld := false, msix := [], pba := [] }
  if standby then { h1 with up := false, lost := false, width := 0, speed := 0 } else h1

/-- PWR_STAT shows what PWR senses (R1029). -/
def State.pwrShow (s : State) : State :=
  let p := s.pwr
  s.setReg PWR_STAT (BitVec.ofNat 32 (b2n p.present * 2 ^ 31 + b2n p.eject * 2 ^ 30 + b2n p.on * 2 ^ 29 +
    b2n (p.on && p.supply && !p.low) * 2 ^ 28 + b2n p.rails * 2 ^ 27))

/-- The module beyond its registers after a warm reset, with the time base given: what R90 keeps, the rest as at reset. -/
def State.warmBase (s : State) (kind : Nat) (tb : TimeBase) : State :=
  { State.reset with
    pending := s.pending, out := s.out, rdata := s.rdata, draws := s.draws
    m10 := s.m10, bonded := s.bonded, bondPin := s.bondPin
    regs := s.regs, holding := s.holding
    faults := { FaultSt.reset with
      due := s.faults.due, fltLow := s.faults.fltLow, buffered := s.faults.buffered, outage := s.faults.outage }
    boot := { BootSt.reset with trialReset := kind == 1, scActive := s.boot.scActive }
    flashA := s.flashA, flashB := s.flashB, nvm := s.nvm.newLife
    portA := s.portA.warmed (kind == 2), portB := s.portB.warmed (kind == 2)
    tb := tb, pes := s.resetPes, mbx := { MbxSt.reset with epoch := s.nextEpochs }
    pwr := s.pwr, sio := s.sio }

/-- A warm reset: kind 0 by a host, 1 by failure of both supervisors, 2 at a STANDBY exit (R90, R93, R127). -/
def State.warmReset (s : State) (kind : Nat) : State :=
  let s1 := s.faults.partials.foldl (fun t e => t.outageEnd e.1) ((if kind = 1 then s else s.availEnd).dropRepair 2)
  let s2 := s1.resetRegs fun off => blkAt off != some BlkId.sio || isFaultReg off
  let tb := if kind = 2 ∧ !s.flag TIME_CTRL TIME_CTRL_STBY_HOLD then TimeBase.reset else { s.tb with slew := 0 }
  let s3 := s2.warmBase kind tb
  let s4 := (s3.bump GEN_RST_CAUSE GEN_RST_CAUSE_WARM_COUNT 1).wr GEN_RST_CAUSE GEN_RST_CAUSE_STANDBY_EXIT (b2n (kind == 2))
  let s5 := (s4.wr GEN_RST_CAUSE GEN_RST_CAUSE_WARM_SC (b2n (kind == 1))).wr GEN_RST_CAUSE GEN_RST_CAUSE_WARM_HOST (b2n (kind == 0))
  ((s5.driveFlt).sioFollow).pwrShow

/-- What PORST_N loads from NVM (R128, R985, R991, R1033), and the classes that R876 gives the AZ-9416-M10. -/
def State.loadNvm (s : State) : State :=
  let s1 := (wornRegs.zip s.nvm.savedCnt).foldl (fun t e => t.setReg e.1 e.2) s
  let s2 := (s1.setReg GEN_BOOT_CFG s.nvm.bootCfg).updMirror
  if s.m10 then
    [F_SIO_DQ_STUCK, F_SIO_DQ_XSHORT].foldl (fun t src =>
      (t.wr (FCLASS .sio (src / 8)) ⟨4 * (src % 8) + 2, 4 * (src % 8)⟩ 2).wr (FREACT .sio (src / 8))
        ⟨4 * (src % 8) + 3, 4 * (src % 8)⟩ 0) s2
  else s2

/-- The module under PORST_N: what R90 keeps, the rest as at reset. -/
def State.porstBase (s : State) : State :=
  let keep := fun (h : HostPort) => { HostPort.reset with perst := h.perst }
  { State.reset with
    pending := s.pending, out := s.out, rdata := s.rdata, draws := s.draws
    m10 := s.m10, bonded := s.bonded, bondPin := s.bondPin
    faults := { FaultSt.reset with due := [], fltLow := s.faults.fltLow }
    boot := { BootSt.reset with porst := true, trialReset := true }
    flashA := s.flashA, flashB := s.flashB, nvm := s.nvm.lostWear
    portA := keep s.portA, portB := keep s.portB
    pes := s.resetPes, mbx := { MbxSt.reset with epoch := s.nextEpochs }
    pwr := s.pwr }

/-- PORST_N or the internal power-on reset (R90, R127): the pin and the monitor leave their mark, a power-up does not. -/
def State.porst (s : State) (pin brownout : Bool) : State :=
  ((s.porstBase.loadNvm.wr GEN_RST_CAUSE GEN_RST_CAUSE_PIN (b2n pin)).wr GEN_RST_CAUSE GEN_RST_CAUSE_BROWNOUT
    (b2n brownout)).driveFlt

/-- The internal power-on reset may end (R1008). -/
def State.mayRelease (s : State) : Bool :=
  s.pwr.on && s.pwr.rails && s.pwr.present && !s.pwr.pin && s.pwr.supply && !s.pwr.hot

/-- The internal power-on reset is released and BOOT starts at t = 0 (R447, R1008, R1033). -/
def State.release (s : State) : State :=
  if !s.boot.porst || !s.mayRelease then s
  else
    let s1 := if s.pwr.powerUp then
        { s.bump PWR_CNT PWR_CNT_INSERTIONS 1 with pwr := { s.pwr with powerUp := false } } else s
    { s1 with boot := { s1.boot with porst := false }, bonded := s1.bondPin }.pwrShow

/-- The soft-start switch turns off (R1004, R1009, R1010): the module loses its power. FLT_N floats high (R1014). -/
def State.powerOff (s : State) : State :=
  let s1 := { s with pwr := { s.pwr with on := false, charging := false, powerUp := true } }.porst false false
  { s1 with faults := { s1.faults with fltLow := false } }.setPin "FLT_N" true

/-! ## The ends of quiesces -/

/-- What STANDBY loses beyond the registers (R83, R90). -/
def State.standbyBase (s : State) : State :=
  { s with
    quiesce := none, rings := [], pes := s.resetPes, mem := MemSt.reset, slots := [], pers := PersSt.reset
    swc := { SwcSt.reset with nextFid := s.swc.nextFid, subMap := s.swc.subMap }
    portA := s.portA.warmed true, portB := s.portB.warmed true
    boot := { s.boot with latched := none } }

/-- STANDBY is reached (R83, R823, R824): clocks stop, contents are lost, a latched wake acts. -/
def State.reachStandby (s : State) : State :=
  let s0 := (s.seqStopAll 0).setMode .standby
  match s0.boot.latched with
  | some (src, bus, id, ide) => s0.standbyBase.later (.standbyWake src bus id ide)
  | none => s0.standbyBase

/-- A wake in STANDBY (R825): the cause is recorded and a full boot starts. -/
def State.wakeUp (s : State) (src bus id : Nat) (ide : Bool) : State :=
  if s.mode ≠ .standby then s
  else
    let s1 := (s.wr WAKE_CAUSE WAKE_CAUSE_SOURCE src).wr WAKE_CAUSE WAKE_CAUSE_BUS bus
    (s1.setReg WAKE_CAUSE_ID (BitVec.ofNat 32 (b2n ide * 2 ^ 29 + id))).warmReset 2

/-! ## Supervisors (R97 to R100) -/

/-- A supervisor that can take over. -/
def State.scUsable (s : State) (u : Nat) : Bool := if u = 0 then !s.boot.scFail0 else !s.boot.scFail1

/-- A supervisor has failed. -/
def State.scFailed (s : State) (u : Nat) : State :=
  ({ s with boot := if u = 0 then { s.boot with scFail0 := true } else { s.boot with scFail1 := true } }).unitFailed kSupervisor u

/-- Both supervisors have failed: a warm reset at once (R91, R100, R981). -/
def State.scDouble (s : State) : State := (s.availFrom).warmReset 1

/-- The standby supervisor takes over (R98, R99, R116, R292). -/
def State.takeover (s : State) : State :=
  let s1 := if s.inBlackout then s else s.migAbandon 8
  let s2 := { s1.dropRepair 3 with
    boot := { s1.boot with scActive := 1 - s1.boot.scActive }, wadi := { s1.wadi with skip := true } }
  s2.raise .gen F_GEN_SC_TAKEOVER [s.boot.scActive]

/-- The active supervisor has failed (R98, R100). -/
def State.scLost (s : State) : State :=
  let a := s.boot.scActive
  let s1 := s.scFailed a
  if s1.scUsable (1 - a) then s1.takeover else s1.scDouble

end Sys2Proof.Machine
end

