-- ==== Sys2Proof/Machine/React.lean ====
section
/-! DEFINITION. What follows an occurrence: reactions, hold windows and the mode transitions that faults trigger (R87, R944,
R949, R950, R958, R962), and which accesses a block answers (R62, R1035). -/

namespace Sys2Proof.Machine

/-- The answer of a command. -/
abbrev Res := Host.Outcome State Fault Refusal

/-! ## Reactions -/

/-- A hold window opens with its cause ID (R958, R962). -/
def State.openHold (s : State) (b : BlkId) (src react slot : Nat) : State :=
  let n := SMap.get (fun _ => 0) s.faults.counts b.code
  { s with faults := { s.faults with holds := s.faults.holds ++ [⟨b, react, slot, b.code * 2 ^ 16 + src * 2 ^ 8 + n⟩] } }

/-- The reactions of an instance are counted modulo 256 (R962). -/
def State.countReact (s : State) (b : BlkId) : State :=
  { s with faults := { s.faults with
    counts := SMap.set (fun _ => 0) s.faults.counts b.code ((SMap.get (fun _ => 0) s.faults.counts b.code + 1) % 256) } }

/-- A fault reaction halts an engine (R179, R292, R319, R981). -/
def State.reactHalt (s : State) (n : Fin 18) (src : Nat) : State :=
  let ends : Bool := s.inBlackout && (match s.pers.mig with | some m => m.src == n | none => false)
  let s1 := (s.noteHalt n src).peHalt n 3
  let s2 := if ends then s1.migAbandon 9 else s1
  match (s2.pe n).slot with
  | some l => if s2.flag (WADI_SLOT_CFG l) WADI_SLOT_CFG_NO_RESTART then s2 else s2.outageFrom (outSlot l)
  | none => s2

/-- UNIT_RESET: engine, port or block (R949); one that runs takes the reaction in (R950). -/
def State.reactReset (s : State) (b : BlkId) (src slot : Nat) : State :=
  match b with
  | .pe n =>
    if h : n < 18 then
      let e := s.pe ⟨n, h⟩
      if e.inReset then s else ((s.countReact b).openHold b src 2 e.slotNo).peReset ⟨n, h⟩ true
    else s
  | .mac n => ((s.countReact b).openHold b src 2 n).portReset n
  | _ =>
    match b.resetCode with
    | some c => if s.boot.blkReset.contains c then s else
        ((s.countReact b).openHold b src 2 (match b with | .mdb n => n | _ => slot)).blockReset c
    | none => s

/-- PORT_DOWN (R530, R949, R981). -/
def State.reactPortDown (s : State) (n src : Nat) : State :=
  if s.portDown n then s
  else ((((s.countReact (.mac n)).openHold (.mac n) src 3 n).takePortDown n).outageFrom (outPort n)).lossOf 6 n

/-- A SAFE reaction or the effect of class FATAL (R948, R981): the outage counts when the source was not forced. -/
def State.reactSafe (s : State) (b : BlkId) (src : Nat) (forced : Bool) : State :=
  let s1 := s.later (.safe 1)
  if forced ∨ s.mode = .safe ∨ s.mode = .standby then s1
  else
    let fatal : Bool := match s.srcSt b src with | some x => decide (4 ≤ x.eff) | none => false
    { s1.availFrom with faults := { s1.availFrom.faults with outageSrc := if fatal then some (srcKey b src) else none } }

/-- The reaction of a source starts (R944, R949). -/
def State.react (s : State) (b : BlkId) (src code slot : Nat) (forced : Bool) : State :=
  match code with
  | 1 => match b with
    | .pe n => if h : n < 18 then (s.countReact b).reactHalt ⟨n, h⟩ src else s
    | _ => s
  | 2 => s.reactReset b src slot
  | 3 => match b with | .mac n => s.reactPortDown n src | _ => s
  | 4 => (s.countReact b).reactSafe b src forced
  | 5 => ((s.countReact b).sioReset src).later (.safe 5)
  | _ => s

/-! ## The order of what is due (R87) -/

/-- The rank of a mode transition in R87; none for work that is no transition. -/
def Due.rank : Due → Option Nat
  | .safe c => some (if c = 5 then 3 else 4)
  | .standby => some 5
  | .degrade => some 6
  | .standbyWake _ _ _ _ => some 2
  | _ => none

/-- One piece of work that is due. -/
def State.treat (s : State) (d : Due) : State :=
  match d with
  | .occur b src caps slot forced => s.occur b src caps slot forced
  | .react b src code slot forced => s.react b src code slot forced
  | .degrade => s.enterDegraded
  | .safe c => s.enterSafe c
  | .timedStart => s.timedStart true
  | .standby => if s.mode.working then s.quiesceStandby.2 else s
  | .standbyWake src bus id ide => s.wakeUp src bus id ide

/-- The transition of highest rank in a list. -/
def topDue : List Due → Option Due
  | [] => none
  | d :: ds =>
    match topDue ds with
    | none => if d.rank.isSome then some d else none
    | some e => match d.rank, e.rank with | some a, some b => if a ≤ b then some d else some e | _, _ => some e

/-- Everything that is due is treated: occurrences and reactions in order, then the highest of the transitions that fall
together (R87, R944). -/
def drain (fuel : Nat) (s : State) : State :=
  match fuel with
  | 0 => s
  | n + 1 =>
    match s.faults.due.find? fun d => d.rank.isNone with
    | some d =>
      drain n ({ s with faults := { s.faults with due := s.faults.due.erase d } }.treat d)
    | none =>
      match topDue s.faults.due with
      | some d => drain n ({ s with faults := { s.faults with due := [] } }.treat d)
      | none => s

/-- What goes on by itself once a command has acted: the Mirage unit's watch (R292), unbinds (R273), headroom (R290), Caravan
links (R728), and a transition to CONFIG that waited for a blackout (R292). -/
def State.watch (s : State) : State :=
  let s1 := ((s.migWatch.unbindSettle).graceSettle).cvnWatch
  match s1.pers.toConfig with
  | none => s1
  | some r =>
    if s1.inBlackout then s1
    else
      let s2 := { s1 with pers := { s1.pers with toConfig := none } }
      let s3 := if s2.mode = .run ∨ s2.mode = .degraded ∨ s2.mode = .safe then s2.enterConfig else s2
      match r with
      | some ring => s3.finish ring 1 stOk 0
      | none => s3

/-- The end of a command: what it raised is treated. -/
def settle (s : State) : State := drain 1000 (drain 1000 s).watch

/-- A command's effect is complete: the faults it raised are treated, then it ends (R944). -/
def done (s : State) : Res := .next (settle s)

/-! ## Which accesses a block answers -/

/-- The block is in block reset (R95). -/
def State.inBlkReset (s : State) (b : BlkId) : Bool :=
  match b.resetCode with
  | some c => s.boot.blkReset.contains c
  | none => false

/-- BOOT, STANDBY or a boot flow stopped by SAFE leaves only GEN within reach of MW0 (R1035). -/
def State.onlyGen (s : State) : Bool := s.mode == .boot || s.mode == .standby || (s.mode == .safe && s.boot.stopped)

/-- Whether MW0 accesses reach a block (R62, R1035). -/
def State.serves (s : State) (b : BlkId) : Bool :=
  !s.inBlkReset b && (!s.onlyGen || (b == .gen && s.boot.hifServes && s.mode != .standby))

/-- An MW0 access that the block does not answer (R62): REG_TIMEOUT is raised, but not in BOOT (R1035). -/
def State.mw0Timeout (s : State) (port off : Nat) (store : Bool) : State :=
  if s.onlyGen then s else s.raise .hif F_HIF_REG_TIMEOUT [off, 20 + port, b2n store + 4]

/-- Port B does not exist in bonded operation (R448). -/
def State.noPort (s : State) (p : Nat) : Bool := s.bonded && p == 1

/-- A host write of a register: its meaning where the block answers, else discarded as in R62. -/
def onMw0 (s : State) (port : Nat) (b : BlkId) (off : Nat) (body : Res) : Res :=
  if s.noPort port then .next s else if s.serves b then body else done (s.mw0Timeout port off true)

end Sys2Proof.Machine
end

