-- ==== Sys2Proof/Machine/Boot.lean ====
section
/-! DEFINITION. PORST_N, the boot flow, image choice and image update (R90, R101 to R114, R358, R495, R496, R1008, R1035). -/

namespace Sys2Proof.Machine

/-! ## Power-on reset (R90, R101, R1008) -/

/-- R90, R127: PORST_N is accepted low. -/
def execPorstNAssert (s : State) : Res :=
  let s1 := { s with pwr := { s.pwr with pin := true } }
  .next (if s.boot.porst then s1 else s1.porst true false).pwrShow

/-- R101, R1008: PORST_N is deasserted; with all supplies valid BOOT starts. -/
def execPorstNDeassert (s : State) : Res := .next { s with pwr := { s.pwr with pin := false } }.release

/-- R1008: supplies, rails, PRESENT_N and PORST_N have held for 10 ms. -/
def execPowerOnRelease (s : State) : Res :=
  .next (if s.boot.porst then { s with pwr := { s.pwr with rails := true } } else s).release

/-- R101, R1035: 100 ms after t = 0, HIF answers configuration requests and MW0 accesses to GEN. -/
def execHifBootServiceStart (s : State) : Res :=
  if !s.boot.porst && (s.mode == .boot || (s.mode == .safe && s.boot.stopped)) then
    .next { s with boot := { s.boot with hifServes := true } }
  else .next s

/-! ## STAGE 0x0 to 0x3 (R101 to R103, R358) -/

def State.stage (s : State) : Nat := s.rd GEN_BOOT_STAT GEN_BOOT_STAT_STAGE
def State.setStage (s : State) (n : Nat) : State := s.wr GEN_BOOT_STAT GEN_BOOT_STAT_STAGE n
def State.bootErr (s : State) (n : Nat) : State := s.wr GEN_BOOT_STAT GEN_BOOT_STAT_ERR n

/-- The boot flow runs: mode BOOT, released, firmware not started. -/
def State.booting (s : State) : Bool := s.mode == .boot && !s.boot.porst

/-- The lock bits of CLK_STAT (R73). -/
def lockBits : Fld := ⟨13, 4⟩

/-- R45, R101, R522: a PLL gains lock; with every PLL locked the supervisors start. -/
def execPllLockAcquired (pll : Fin 10) (s : State) : Res :=
  let s1 := s.wr CLK_STAT ⟨4 + pll, 4 + pll⟩ 1
  let s2 := if pll.val = 8 then { s1 with portA := { s1.portA with clockFailed := false } }
    else if pll.val = 9 then { s1 with portB := { s1.portB with clockFailed := false } } else s1
  .next (if s2.booting ∧ s2.stage = 0 ∧ s2.rd CLK_STAT lockBits = 1023 then s2.setStage 1 else s2)

/-- The supervisor that becomes active (R102); `ok` are the self-tests, not both failed. -/
def State.chooseSc (s : State) (ok0 ok1 : Bool) : Nat :=
  let pref := s.rd GEN_BOOT_CFG GEN_BOOT_CFG_SC_PREF
  let other := 1 - pref
  let ok := fun (u : Nat) => if u = 0 then ok0 else ok1
  let ix := fun (u : Nat) => (s.wear kSupervisor u).index
  if !ok pref then other
  else if !ok other || !s.worn kSupervisor pref then pref
  else if !s.worn kSupervisor other then other
  else if ix pref < ix other then other else pref

/-- A unit passes or fails its BOOT test (R103, R295, R975). -/
def State.tested (s : State) (k u : Nat) (bad : Bool) : State :=
  let w := s.wear k u
  s.setWear k u { w with failed := bad, index := if bad then 0 else w.index }

/-- R98, R100, R101, R102, R966: the self-tests end. With a supervisor that passes, the march starts; with none, BOOT stays. -/
def execBootSelfTestDone (ok0 ok1 : Bool) (s : State) : Res :=
  if !s.booting || decide (1 < s.stage) then .next s
  else
    let s1 := ({ s with boot := { s.boot with scFail0 := !ok0, scFail1 := !ok1 } }.tested kSupervisor 0 (!ok0)).tested
      kSupervisor 1 (!ok1)
    let s2 := s1.wr CLK_STAT lockBits 1023
    if !ok0 && !ok1 then .next ((s2.setStage 1).bootErr 1)
    else
      let s3 := { s2.setStage 2 with
        boot := { s2.boot with scActive := s2.chooseSc ok0 ok1 }, faults := { s2.faults with resetLow := false } }
      .next s3.fltSettle

/-- The march over the engines (R103, R295): failed ones are FAILED, the others IDLE, and their memories are overwritten. -/
def State.marchPes (s : State) (bad : Nat → Bool) : State :=
  let pe := fun (n : Fin 18) (e : Engine) =>
    { e with
      state := if bad n then .failed else .idle
      imem := Mem.marched (s.draws + 2 * n), dmem := Mem.marched (s.draws + 2 * n + 1) }
  { s with pes := Vector.ofFn fun n => pe n (s.pe n), draws := s.draws + 36 }

/-- The FCT sub-arrays after the march: committed remaps are loaded, failed sub-arrays are replaced while spares last (R598,
R599). -/
def State.marchFct (s : State) (bad : Nat → Bool) : State :=
  let failed := (List.range 18).filter bad
  let map := s.nvm.subMaps.foldl (fun m e => SMap.set id m e.1 e.2) []
  let left := s.nvm.subMaps.map fun e => e.1
  let gone := (left.filter fun l => SMap.get id map l != l).filter fun l => !failed.contains l
  let s1 := { s with swc := { s.swc with subMap := map, subBad := failed ++ gone } }
  (List.range 16).foldl (fun t l =>
    if !failed.contains (t.subPhys l) then t
    else match t.spareSubs with
      | p :: _ => { t with swc := { t.swc with subMap := SMap.set id t.swc.subMap l p } }
      | [] => ((t.wr SWC_FCT_STAT SWC_FCT_STAT_LOST (setBit (t.rd SWC_FCT_STAT SWC_FCT_STAT_LOST) l true)).lossOf 3 l).raise
          .swc F_SWC_SUB_LOST [l, 0, 0]) s1

/-- Sequencers over failed machines take spares, or are shed (R333, R862). -/
def State.marchPsq (s : State) (bad : Nat → Bool) : State :=
  let s1 := { s with psq := { s.psq with bad := (List.range 36).filter bad } }
  (List.range 32).foldl (fun t q =>
    if !bad (t.seqMap q) then t
    else match t.spareSeqs with
      | m :: _ => t.setSeqMap q m
      | [] => ((t.shedSeq q).outageFrom (outSeq q)).lossOf 4 q) s1

/-- Buses over failed controllers take the spare, or are shed (R333, R768). -/
def State.marchMdb (s : State) (bad : Nat → Bool) : State :=
  let s1 := { s with ctrlBad := (List.range 9).filter bad }
  (List.range 8).foldl (fun t b =>
    if !bad (t.ctrlOf b) then t
    else match t.spareCtrls with
      | c :: _ => t.setCtrl b c
      | [] => ((t.shedBus b).outageFrom (outBus b)).lossOf 5 b) s1

/-- A MAC that fails the BOOT test stays down (R530). -/
def State.marchMac (s : State) (bad : Nat → Bool) : State :=
  (List.range 16).foldl (fun t n => if bad n then (t.takePortDown n).lossOf 6 n else t) s

/-- The NVM copies are compared (R101, R129, R980). -/
def State.nvmCheck (s : State) (ok0 ok1 : Bool) : State :=
  let s1 := ({ s with nvm := { s.nvm with copyBad := b2n (!ok0) + 2 * b2n (!ok1) } }.tested kNvm 0 (!ok0)).tested kNvm 1 (!ok1)
  if ok0 && ok1 then s1
  else if !ok0 && !ok1 then s1.bootErr 2
  else s1.raise .hlth F_HLTH_NVM_COPY [kNvm * 256 + (if ok0 then 1 else 0)]

/-- The kinds that the march and the BOOT test cover. -/
def marchKinds : List Nat := [kEngine, kShared, kBuffer, kFct, kPsq, kMdb, kMac]

/-- R101, R103, R358: the march ends; `fails` are the units that failed it, by kind of R979 and number. -/
def execBootMarchDone (fails : List (Fin 9 × Fin 128)) (nvmOk0 nvmOk1 : Bool) (s : State) : Res :=
  if !s.booting || s.stage != 2 then .next s
  else
    let bad := fun (k u : Nat) => marchKinds.contains k && decide (u < kindUnits.getD k 0) && fails.any fun e => e.1.val == k && e.2.val == u
    let all := marchKinds.flatMap fun k => (List.range (kindUnits.getD k 0)).map fun u => (k, u)
    let s1 := all.foldl (fun t e => t.tested e.1 e.2 (bad e.1 e.2)) s
    let s2 := s1.mapAllBanks ((List.range 72).filter (bad kShared)) ((List.range 52).filter (bad kBuffer))
    let s3 := (((s2.marchPes (bad kEngine)).marchFct (bad kFct)).marchPsq (bad kPsq)).marchMdb (bad kMdb)
    let s4 := (s3.marchMac (bad kMac)).wr GEN_BOOT_STAT GEN_BOOT_STAT_MARCH_FAIL
      (stopAt 255 (all.filter fun e => bad e.1 e.2).length)
    done ((s4.nvmCheck nvmOk0 nvmOk1).setStage 3)

/-! ## Image choice (R104 to R109, R112, R113, R130) -/

def verReg (b : Bool) : Nat := GEN_IMG_VER (b2n b)

def State.rejected (s : State) (b : Bool) : Bool := if b then s.nvm.rejectedB else s.nvm.rejectedA

def State.setRejected (s : State) (b v : Bool) : State :=
  { s with nvm := if b then { s.nvm with rejectedB := v } else { s.nvm with rejectedA := v } }

/-- The checks of R104 other than the signature and the version. -/
def State.slotWhole (s : State) (b : Bool) : Bool :=
  let f := s.flash b
  f.marker == some f.version && f.crcOk && !s.rejected b

/-- Every check of R104 other than the signature. -/
def State.slotFits (s : State) (b : Bool) : Bool := s.slotWhole b && decide (s.nvm.minVersion ≤ (s.flash b).version)

/-- A slot that the present boot can still use (R106). -/
def State.slotUsable (s : State) (b : Bool) : Bool := s.slotFits b && !(if b then s.boot.badB else s.boot.badA)

/-- GEN_IMG_VER_A or B (R130). -/
def State.showVersion (s : State) (b : Bool) : State :=
  s.setReg (verReg b) (BitVec.ofNat 32 (if s.slotUsable b then (s.flash b).version else 0))

/-- The choice of AUTO (R105). -/
def State.autoChoice (s : State) : Option Bool :=
  match s.slotUsable false, s.slotUsable true with
  | true, true => some (decide ((s.flash false).version < (s.flash true).version))
  | true, false => some false
  | false, true => some true
  | false, false => none

/-- The slot that SRC chooses (R105). -/
def State.slotChoice (s : State) : Option Bool :=
  match s.rd GEN_BOOT_CFG GEN_BOOT_CFG_SRC with
  | 0 => s.autoChoice
  | 1 => if s.slotUsable false then some false else if s.slotUsable true then some true else none
  | 2 => if s.slotUsable true then some true else if s.slotUsable false then some false else none
  | _ => none

/-- R109: a trial that was started and not confirmed before a PORST_N or a failure of both supervisors is rejected. -/
def State.settleTrial (s : State) : State :=
  match s.nvm.trial with
  | some b =>
    if s.nvm.tried && s.boot.trialReset then
      let s1 := { s.setRejected b true with boot := { s.boot with trialLost := some b } }
      { s1 with nvm := { s1.nvm with trial := none, tried := false } }.updAppend .trialFailed b (s.flash b).version
        (units64 (s.flash b).data.length)
    else s
  | none => s

/-- UPD_FAIL (R952). -/
def State.updFail (s : State) : State := s.raise .gen F_GEN_UPD_FAIL [s.boot.scActive]

/-- R112, R113: a START entry without COMPLETE. The marker decides. -/
def State.settleUpdate (s : State) : State :=
  match s.nvm.updLog with
  | e :: es =>
    if e.kind ≠ .start then s
    else if (s.flash e.slotB).marker.isSome then
      { s with nvm := { s.nvm with trial := some e.slotB, tried := false } }.updAppend .complete e.slotB e.version
        (units64 (s.flash e.slotB).data.length)
    else (({ s with nvm := { s.nvm with updLog := { e with kind := .incomplete } :: es } }.updMirror).updTell).updFail
  | [] => s

/-- BOOT waits for a host image (R106). -/
def State.waitHost (s : State) : State := s.wr GEN_BOOT_STAT GEN_BOOT_STAT_WAIT_HOST (b2n s.boot.hostRead.isNone)

/-- BOOT_FALLBACK (R106, R109, R952). -/
def State.fallback (s : State) : State := s.raise .gen F_GEN_BOOT_FALLBACK [s.boot.scActive]

/-- R101, R105, R106, R109, R112, R113, R130: headers and markers are read and the image is chosen. -/
def execFlashHeadersRead (s : State) : Res :=
  if !s.booting || s.stage != 3 then .next s
  else
    let s1 := (((s.settleTrial.settleUpdate).showVersion false).showVersion true).setStage 4
    if s1.rd GEN_BOOT_CFG GEN_BOOT_CFG_SRC = 3 then done s1.waitHost
    else match s1.slotChoice with
      | some b =>
        let s2 := { s1 with boot := { s1.boot with chosenB := b } }.setStage 5
        done (if s1.boot.trialLost = some (!b) then s2.fallback else s2)
      | none =>
        let low := [false, true].any fun b => s1.slotWhole b && !s1.slotFits b
        done (if low then s1.bootErr 4 else s1).waitHost

/-- R101: the chosen image has been read and hashed. -/
def execImageHashDone (s : State) : Res := if s.booting && s.stage == 5 then .next (s.setStage 6) else .next s

/-- Firmware starts from a slot, or from host memory (R101, R109, R981). -/
def State.startFirmware (s : State) (slot : Option Bool) (version : Nat) : State :=
  let trial := slot.isSome && s.nvm.trial == slot
  let src := match slot with | some false => 1 | some true => 2 | none => 3
  let s1 := ((((s.setStage 7).wr GEN_BOOT_STAT GEN_BOOT_STAT_SOURCE src).wr GEN_BOOT_STAT GEN_BOOT_STAT_TRIAL (b2n trial)).wr
    GEN_BOOT_STAT GEN_BOOT_STAT_WAIT_HOST 0).wr GEN_BOOT_STAT GEN_BOOT_STAT_DONE 1
  let s2 := { s1 with
    boot := { s1.boot with runB := slot, runVersion := version, doneTime := s1.now, hostRead := none, hifServes := true }
    nvm := { s1.nvm with tried := s1.nvm.tried || trial } }
  s2.availEnd.toMode .config

/-- R101, R104, R106, R130: the signature check of the chosen image ends. -/
def execSignatureCheckDone (s : State) : Res :=
  if !s.booting || s.stage != 6 || s.flag GEN_BOOT_STAT GEN_BOOT_STAT_WAIT_HOST then .next s
  else
    let b := s.boot.chosenB
    let f := s.flash b
    if Config.imageHashOk f.data f.version && Config.imageSigOk f.data f.version then done (s.startFirmware (some b) f.version)
    else
      let s1 := ({ s with boot := if b then { s.boot with badB := true } else { s.boot with badA := true } }.bootErr 3).setReg
        (verReg b) 0
      if s1.slotUsable (!b) then done ({ s1 with boot := { s1.boot with chosenB := !b } }.setStage 5).fallback
      else done s1.waitHost

/-! ## Host images (R107, R108) -/

/-- R107, R108, R133: a write of GO. -/
def execGenHostimgGo (port : Fin 2) (value : Word) (s : State) : Res :=
  onMw0 s port .gen GEN_HOSTIMG_GO <|
    let may := s.flag GEN_BOOT_STAT GEN_BOOT_STAT_WAIT_HOST || s.rd GEN_BOOT_CFG GEN_BOOT_CFG_SRC == 3
    if bitOf value.toNat 0 && s.booting && may && s.boot.hostRead.isNone then
      .next ({ s with boot := { s.boot with hostRead := some port.val } }.wr GEN_BOOT_STAT GEN_BOOT_STAT_WAIT_HOST 0)
    else .next s

/-- R104, R107, R108, R129: the host image has been read and checked; `dma` are its bytes, none when a read failed. -/
def execHostimgCheckDone (version : Word) (dma : Option (List Byte)) (s : State) : Res :=
  match s.boot.hostRead with
  | none => .next s
  | some p =>
    if !s.booting || decide (s.stage < 4) then .next s
    else
      let s1 := { s with boot := { s.boot with hostRead := none } }
      let len := s.rd GEN_HOSTIMG_LEN GEN_HOSTIMG_LEN_LEN
      let reject := fun (t : State) (e : Nat) => done (t.bootErr e).waitHost
      if 0x1000000 < len then reject s1 6
      else match dma with
        | none => reject (s1.dmaError p (s.reg64 GEN_HOSTIMG_ADDR / 4 * 4) 8) 5
        | some bs =>
          let img := bs.take len
          if version.toNat < s.nvm.minVersion then reject s1 4
          else if !(Config.imageHashOk img version.toNat && Config.imageSigOk img version.toNat) then reject s1 3
          else done (s1.startFirmware none version.toNat)

/-! ## Image update (R110 to R114, R495, R496) -/

/-- The slot that an update writes (R495). -/
def State.updTarget (s : State) : Bool :=
  match s.boot.runB with
  | some b => !b
  | none => match s.autoChoice with | some b => !b | none => false

def State.isTrial (s : State) : Bool := s.flag GEN_BOOT_STAT GEN_BOOT_STAT_TRIAL

def cmdImgUpdStart (ring : Nat) (p0 p1 : BitVec 64) (s : State) : State :=
  let len := p0.toNat % 2 ^ 25
  let version := p1.toNat % 2 ^ 32
  if s.upd.isSome then s.finish ring 0x08 stBusy 0
  else if s.isTrial then s.finish ring 0x08 stBadState 0
  else if len < 1 ∨ 0x1000000 < len then s.finish ring 0x08 stBadParam 0
  else
    let b := s.updTarget
    let s1 := s.updAppend .start b version 0
    let s2 := (s1.setFlash b ⟨version, [], false, none, (s.flash b).erases + 1⟩).setRejected b false
    let s3 := if s2.nvm.trial = some b then { s2 with nvm := { s2.nvm with trial := none, tried := false } } else s2
    ({ s3 with upd := some ⟨b, len, version, 0⟩ }.setReg (verReg b) 0).finish ring 0x08 stOk 0

/-- R109, R111, R495: an update starts: START is logged and the target slot is erased. -/
def execImgUpdStart (ring : Fin 512) (p0 p1 : BitVec 64) (s : State) : Res :=
  done (s.command ring 0x08 Mode.working (cmdImgUpdStart ring p0 p1))

/-- The progress of the START entry (R114). -/
def State.updProgress (s : State) (n : Nat) : State :=
  match s.nvm.updLog with
  | e :: es => { s with nvm := { s.nvm with updLog := { e with progress := n / 65536 } :: es } }.updMirror
  | [] => s

def cmdImgUpdData (ring : Nat) (p0 p1 p2 : BitVec 64) (dma : Option (List Byte)) (s : State) : State :=
  let off := p1.toNat % 2 ^ 25
  let len := p2.toNat % 2 ^ 21
  match s.upd with
  | none => s.finish ring 0x09 stBadState 0
  | some u =>
    if off ≠ u.got ∨ len < 1 ∨ 0x100000 < len ∨ u.len < u.got + len then s.finish ring 0x09 stBadParam 0
    else s.withDma ring 0x09 p0.toNat dma fun s bs =>
      let f := s.flash u.slotB
      let s1 := s.setFlash u.slotB { f with data := f.data ++ bs.take len }
      ({ s1 with upd := some { u with got := u.got + len } }.updProgress (u.got + len)).finish ring 0x09 stOk 0

/-- R111, R114, R495: one chunk is programmed. -/
def execImgUpdData (ring : Fin 512) (p0 p1 p2 : BitVec 64) (dma : Option (List Byte)) (s : State) : Res :=
  done (s.command ring 0x09 Mode.working (cmdImgUpdData ring p0 p1 p2 dma))

/-- An update ends INCOMPLETE (R495). -/
def State.updStop (s : State) (u : UpdRun) : State :=
  ({ s with upd := none }.updAppend .incomplete u.slotB u.version (u.got / 65536)).updFail

def cmdImgUpdFinish (ring : Nat) (s : State) : State :=
  match s.upd with
  | none => s.finish ring 0x0A stBadState 0
  | some u =>
    let f := s.flash u.slotB
    if u.got ≠ u.len then s.finish ring 0x0A stBadState 0
    else if !Config.imageHashOk f.data u.version || decide (u.version < s.nvm.minVersion) then
      (s.updStop u).finish ring 0x0A stBadImage 0
    else if !Config.imageSigOk f.data u.version then (s.updStop u).finish ring 0x0A stBadKey 0
    else
      let s1 := { s.setFlash u.slotB { f with crcOk := true, marker := some u.version } with upd := none }
      let s2 := { s1 with nvm := { s1.nvm with trial := some u.slotB, tried := false } }
      ((s2.updAppend .complete u.slotB u.version (units64 u.len)).setReg (verReg u.slotB)
        (BitVec.ofNat 32 u.version)).finish ring 0x0A stOk 0

/-- R104, R111, R130, R495: the image is verified, its marker is written and COMPLETE is logged. -/
def execImgUpdFinish (ring : Fin 512) (s : State) : Res := done (s.command ring 0x0A Mode.working (cmdImgUpdFinish ring))

def cmdImgUpdCancel (ring : Nat) (s : State) : State :=
  match s.upd with
  | none => s.finish ring 0x0B stBadState 0
  | some u => (s.updStop u).finish ring 0x0B stOk 0

/-- R495: the update is abandoned. -/
def execImgUpdCancel (ring : Fin 512) (s : State) : Res := done (s.command ring 0x0B Mode.working (cmdImgUpdCancel ring))

def cmdImgConfirm (ring : Nat) (s : State) : State :=
  if !s.isTrial then s.finish ring 0x0C stBadState 0
  else
    let b := s.boot.runB.getD false
    let s1 := { s.wr GEN_BOOT_STAT GEN_BOOT_STAT_TRIAL 0 with nvm := { s.nvm with trial := none, tried := false } }
    (s1.updAppend .confirmed b s.boot.runVersion (units64 (s.flash b).data.length)).finish ring 0x0C stOk 0

/-- R109, R496: the trial image is confirmed. -/
def execImgConfirm (ring : Fin 512) (s : State) : Res := done (s.command ring 0x0C Mode.working (cmdImgConfirm ring))

def cmdImgMinVersion (ring : Nat) (p0 : BitVec 64) (s : State) : State :=
  let v := p0.toNat % 2 ^ 32
  if s.isTrial then s.finish ring 0x0D stBadState 0
  else if s.boot.runVersion < v then s.finish ring 0x0D stBadParam 0
  else { s with nvm := { s.nvm with minVersion := v } }.finish ring 0x0D stOk 0

/-- R110, R496: the minimum version changes. -/
def execImgMinVersion (ring : Fin 512) (p0 _p1 : BitVec 64) (s : State) : Res :=
  done (s.command ring 0x0D Mode.working (cmdImgMinVersion ring p0))

end Sys2Proof.Machine
end

