-- ==== Sys2Proof/Machine/Clk.lean ====
section
/-! DEFINITION. References, PLLs, the frequency monitor and clock fallbacks (R39 to R51, R73 to R81). PLLs are numbered in the
order of CLK_STAT bits [13:4]. -/

namespace Sys2Proof.Machine

/-- The clocks run: not in STANDBY and not under PORST_N (R49). -/
def State.clocked (s : State) : Bool := s.mode != .standby && !s.boot.porst

/-- The lock bit of a PLL (R74). -/
def pllBit (pll : Nat) : Fld := ⟨4 + pll, 4 + pll⟩

def State.locked (s : State) (pll : Nat) : Bool := s.flag CLK_STAT (pllBit pll)

/-! ## The reference (R39 to R41, R76, R77) -/

/-- R40: four edges of REFCLK_IN are missing. -/
def execRefclkLoss (s : State) : Res :=
  if s.clocked && s.rd CLK_STAT CLK_STAT_REF_ACTIVE == 1 then
    done (((s.wr CLK_STAT CLK_STAT_REF_ACTIVE 0).bump CLK_SWITCH_CNT CLK_SWITCH_CNT_REF 1).raise .clk F_CLK_REF_LOSS [])
  else .next s

/-- R41: REFCLK_IN has been clean for 1 s. -/
def execRefRevert (s : State) : Res :=
  if s.clocked && s.flag CLK_REF_CFG CLK_REF_CFG_REF_REVERT && s.rd CLK_REF_CFG CLK_REF_CFG_REF_SEL == 1 then
    .next (s.wr CLK_STAT CLK_STAT_REF_ACTIVE 1)
  else .next s

/-- The reference follows REF_SEL (R77); a reserved code changes nothing. -/
def State.refSel (s : State) (value : Word) : State :=
  let s1 := s.regWrite CLK_REF_CFG value
  let sel := s1.rd CLK_REF_CFG CLK_REF_CFG_REF_SEL
  if sel ≤ 1 then s1.wr CLK_STAT CLK_STAT_REF_ACTIVE sel else s1

/-- R76, R77: a write of CLK_REF_CFG. -/
def execRefSelWrite (port : Fin 2) (value : Word) (s : State) : Res :=
  onMw0 s port .clk CLK_REF_CFG (.next (s.refSel value))

/-! ## Main domains (R42 to R46, R75): 0 CK_PE, 1 CK_SW, 2 CK_TB -/

/-- The active PLL of a domain, and its standby. -/
def State.activePll (s : State) (d : Nat) : Nat := 2 * d + s.rd CLK_STAT ⟨d, d⟩
def State.standbyPll (s : State) (d : Nat) : Nat := 2 * d + (1 - s.rd CLK_STAT ⟨d, d⟩)

/-- The domain's AUTO bit (R75). -/
def State.autoClk (s : State) (d : Nat) : Bool := s.flag CLK_PLL_CTRL ⟨3 + d, 3 + d⟩

/-- The count of switchovers of a domain (R80). -/
def switchCnt (d : Nat) : Fld := ⟨8 * d + 15, 8 * d + 8⟩

/-- SWITCH_REFUSED (R45, R952). -/
def State.switchRefused (s : State) (d : Nat) : State := s.raise .clk F_CLK_SWITCH_REFUSED [s.standbyPll d]

/-- A switchover (R43, R44, R952). -/
def State.switchPll (s : State) (d : Nat) : State :=
  ((s.wr CLK_STAT ⟨d, d⟩ (1 - s.rd CLK_STAT ⟨d, d⟩)).bump CLK_SWITCH_CNT (switchCnt d) 1).raise .clk F_CLK_PLL_SWITCH
    [s.activePll d]

/-- A request for a switchover (R45). -/
def State.askSwitch (s : State) (d : Nat) : State :=
  if s.locked (s.standbyPll d) then s.switchPll d else s.switchRefused d

/-- The active PLL of a domain fails (R43, R45, R46). -/
def State.activeFails (s : State) (d : Nat) : State :=
  let s1 := if s.locked (s.standbyPll d) then s else s.raise .clk F_CLK_CLK_LOST [s.activePll d]
  if s.autoClk d then s1.askSwitch d else s1

/-- The wear index of a PLL crosses its threshold (R43, R977). -/
def State.pllWorn (s : State) (pll : Nat) : State :=
  if s.activePll (pll / 2) = pll ∧ s.autoClk (pll / 2) then s.askSwitch (pll / 2) else s

/-- R43, R45, R46: a main-domain PLL loses lock. -/
def execPllLockLoss (pll : Fin 6) (s : State) : Res :=
  if !s.clocked || !s.locked pll then .next s
  else
    let s1 := s.wr CLK_STAT (pllBit pll) 0
    done (if s.activePll (pll / 2) = pll then s1.activeFails (pll / 2) else s1)

/-- A write of CLK_PLL_CTRL (R75). -/
def State.pllCtrl (s : State) (value : Word) : State :=
  [0, 1, 2].foldl (fun t d => if bitOf value.toNat (8 + d) then t.askSwitch d else t) (s.regWrite CLK_PLL_CTRL value)

/-- R43, R45, R75: a write of CLK_PLL_CTRL, with its SWITCH bits. -/
def execPllSwitch (port : Fin 2) (value : Word) (s : State) : Res :=
  onMw0 s port .clk CLK_PLL_CTRL (done (s.pllCtrl value))

/-! ## Fallbacks and host ports (R47, R48) -/

/-- PLL_MDB (false) or PLL_PSQ (true) fails (R47). -/
def State.clkFallback (s : State) (psq : Bool) : State :=
  let auto := s.flag CLK_PLL_CTRL (if psq then CLK_PLL_CTRL_PSQ_FB_AUTO else CLK_PLL_CTRL_MDB_FB_AUTO)
  let bit := if psq then CLK_STAT_PSQ_FALLBACK else CLK_STAT_MDB_FALLBACK
  if auto && !s.flag CLK_STAT bit then (s.wr CLK_STAT bit 1).raise .clk F_CLK_FALLBACK [if psq then 7 else 6] else s

/-- R47: PLL_MDB or PLL_PSQ fails. -/
def execClkFallback (psq : Bool) (s : State) : Res :=
  if s.clocked then done ((s.wr CLK_STAT (pllBit (if psq then 7 else 6)) 0).clkFallback psq) else .next s

/-- The clock of a host port fails (R48). In bonded operation the port runs on CK_HIF_A. -/
def State.hifClockLost (s : State) (p : Nat) : State :=
  let s1 := s.wr CLK_STAT (pllBit (8 + p)) 0
  if s.bonded ∧ p = 1 then s1
  else ((s1.setPort p { s1.port p with clockFailed := true }).linkDropped p).hostPortLost p

/-- R48: CK_HIF_A or CK_HIF_B fails. -/
def execHifClockFail (port : Fin 2) (s : State) : Res := if s.clocked then done (s.hifClockLost port) else .next s

/-! ## The frequency monitor (R50, R51, R78 to R81) -/

/-- The nominal frequencies of the monitored clocks in MHz (R37, R81). -/
def monFreqs : List Nat := [500, 400, 250, 250, 250, 80, 200]

def State.monWindow (s : State) : Nat := max 480 (s.rd CLK_MON_CFG CLK_MON_CFG_WINDOW)

/-- LIMIT in steps of 0.01 %; values outside 5 to 100 act as 100 (R78). -/
def State.monLimit (s : State) : Nat :=
  let l := s.rd CLK_MON_CFG CLK_MON_CFG_LIMIT
  if 5 ≤ l ∧ l ≤ 100 then l else 100

/-- How a count departs from nominal: none within the limit, some false below, some true above. -/
def State.monVerdict (s : State) (f count : Nat) : Option Bool :=
  let nom := s.monWindow * f
  let got := 48 * count
  if nom < got then (if s.monLimit * nom < (got - nom) * 10000 then some true else none)
  else if s.monLimit * nom < (nom - got) * 10000 then some false else none

/-- What a failed domain does: a main domain switches, a host port goes down, CK_MDB and CK_PSQ fall back (R43, R47, R48). -/
def State.monFail (s : State) (k : Nat) : State :=
  if k < 3 then s.activeFails k
  else if k < 5 then s.hifClockLost (k - 3)
  else s.clkFallback (k == 6)

/-- R43, R50, R51: a monitor window ends with the counts of the seven clocks, in the order of R81. -/
def execFreqMonWindowEnd (counts : List (BitVec 24)) (s : State) : Res :=
  if !s.clocked then .next s
  else
    let cnt := fun (k : Nat) => (counts.getD k 0).toNat
    let vs := (List.range 7).map fun k => s.monVerdict (monFreqs.getD k 0) (cnt k)
    let failed := fun (k : Nat) => (vs.getD k none).isSome
    let suspect := vs.all (· == some true) || vs.all (· == some false)
    let s1 := (List.range 7).foldl (fun t k => t.wr (CLK_MON_CNT k) CLK_MON_CNT_COUNT (cnt k)) s
    let s2 := s1.setReg CLK_MON_STAT (BitVec.ofNat 32 (sumOf ((List.range 7).map fun k => b2n (failed k) * 2 ^ k) +
      b2n suspect * 2 ^ 7))
    if suspect then done (s2.raise .clk F_CLK_SIO_SUSPECT [])
    else done ((List.range 7).foldl (fun t k => if failed k then t.monFail k else t) s2)

end Sys2Proof.Machine
end

