-- ==== Sys2Proof/Machine/Cvn.lean ====
section
/-! DEFINITION. The commands and events of the CVN block (file 13). -/

namespace Sys2Proof.Machine

/-! ## Set-up and training (R695 to R702) -/

/-- R695, R697: a write of CVN_CHc_CFG.EN = 1. -/
def execCvnChannelEnable (port c : Fin 2) (value : Word) (s : State) : Res :=
  onMw0 s port .cvn (CVN_CH_CFG c) <| if !bitOf value.toNat 31 then .next s else done (s.cvnCfgWrite c value)

/-- R700, R701: a Caravan port has trained at 10 Gbit/s, or with `slow` at 2.5 Gbit/s; `nbr`, `ring` and `nbrIsD` are what
the partner's training words carry. -/
def execCvnTrainDone (port : Fin 4) (slow : Bool) (nbr : Fin 4096) (ring : Fin 256) (nbrIsD : Bool) (s : State) : Res :=
  if !s.cvnPort port || s.linkUp port then .next s
  else
    let c := port.val / 2
    let d := port.val % 2 == 0
    let x := s.chan c
    let sl := slow || s.flag (CVN_CH_CFG c) CVN_CH_CFG_MAX_RATE || (if d then x.slowD else x.slowU)
    let s1 := (s.linkCame port 6 (if sl then 4 else 6) false 0).wr (CVN_CH_NBR c)
      (if d then CVN_CH_NBR_D_ADDR else CVN_CH_NBR_U_ADDR) nbr
    if nbrIsD == d || ring.val != s.rd (CVN_CH_CFG c) CVN_CH_CFG_RING then done ((s1.cvnDown c d).cvnCfgErr)
    else
      let s2 := s1.onChan c fun x =>
        if d then { x with upD := true, slowD := sl, loopD := x.loopD && s.cvnState c != 1 }
        else { x with upU := true, slowU := sl, loopU := x.loopU && s.cvnState c != 1 }
      let s3 := if s.cvnState c ≤ 2 then s2.cvnSetRate c sl else s2
      done ((s3.cvnWrap c).cvnTrained c)

/-- R700: training ends without a link: at 10 Gbit/s the port goes on at 2.5 Gbit/s, else the link is found down. -/
def execCvnTrainTimeout (port : Fin 4) (s : State) : Res :=
  if !s.cvnPort port || s.linkUp port then .next s
  else
    let c := port.val / 2
    let d := port.val % 2 == 0
    let x := s.chan c
    if !(s.flag (CVN_CH_CFG c) CVN_CH_CFG_MAX_RATE || (if d then x.slowD else x.slowU)) then
      .next (s.onChan c fun x => if d then { x with slowD := true } else { x with slowU := true })
    else
      let s1 := s.onChan c fun x => if d then { x with slowD := false } else { x with slowU := false }
      done ((if (if d then x.loopD else x.loopU) then s1 else s1.cvnDown c d).cvnTrained c)

/-! ## The cycle (R703 to R706) -/

/-- What the start of a cycle does on a channel: a committed switch, and the cold start after the first node's leave
(R727, R735). -/
def State.cycleStart (s : State) (c : Nat) : State :=
  let n := s.cvnN % 2 ^ 32
  let s1 := match (s.chan c).switchAt with
    | some (k, mode) =>
      if k ≠ n then s
      else
        let t := s.onChan c fun x => { x with switchAt := none }
        if t.cvnOther c mode then t.cvnSwitch c mode else t
    | none => s
  match (s1.chan c).firstLeft with
  | some k =>
    if s1.cvnN < k + 2 then s1
    else
      let t := s1.onChan c fun x => { x with firstLeft := none, cold := 0 }
      if (t.cvnState c = 4 ∨ t.cvnState c = 5) ∧ !t.cvnFirst c ∧ !(t.chan c).left ∧ t.cvnMayCold c then t.cvnTo c 3 else t
  | none => s1

/-- R703: a cycle starts. -/
def execCvnCycleStart (s : State) : Res :=
  let one := fun (t : State) (c : Nat) => if t.cvnEn c then t.cycleStart c else t
  done (one (one s 0) 1)

/-- R706: the switch queues of a Caravan port are released. -/
def execCvnOpenWindowStart (c : Fin 2) (s : State) : Res :=
  let h := s.cvnHeader c (s.cvnBank c)
  if !s.cvnEn c || !h.valid || h.openStart == h.openEnd then .next s
  else .next (s.onChan c fun x => { x with window := true })

/-- R706: they are held again. -/
def execCvnOpenWindowEnd (c : Fin 2) (s : State) : Res := .next (s.onChan c fun x => { x with window := false })

/-! ## Sending (R709, R712, R715, R724, R734, R735) -/

/-- DEPTH of the CS frames that the node sends (R740). -/
def State.cvnDepth (s : State) (c : Nat) : Nat := if c = s.tch ∨ s.cvnFirst s.tch then 0 else (s.chan s.tch).depth + 1

/-- The payload of a CS frame (R709). -/
def State.csPayload (s : State) (c : Nat) (target flags : Nat) : List Byte :=
  let t := s.cvnN * s.cvnCycle
  let p := beBytes 6 (t / 1000000000) ++ beBytes 4 (t % 1000000000) ++ [0, 0] ++ beBytes 4 s.cvnCycle ++
    [BitVec.ofNat 8 (b2n (s.cvnSlow c)), BitVec.ofNat 8 (s.cvnDepth c), BitVec.ofNat 8 target, BitVec.ofNat 8 flags] ++
    List.replicate 140 0
  if s.cvnState c ≠ 5 then p
  else
    let q := setMember p 32 s.cvnMember
    if flags % 128 / 64 = 1 && s.cvnOther c target then setMember q 96 s.cvnMember else q

/-- TARGET and MFLAGS of the CS of the present cycle, and the change with its first cycle noted (R735). -/
def State.csRequest (s : State) (c : Nat) : Nat × Nat × State :=
  match (s.chan c).change with
  | none => (0, 0, s)
  | some ch =>
    match ch.start with
    | none => (ch.target, 0x80, s.onChan c fun x => { x with change := some { ch with start := some s.cvnN } })
    | some k => (ch.target, if s.cvnN = k then 0x80 else 0xC0, s)

/-- The CS frame of a channel is sent, with the target and the flags of a mode change (R707, R735). -/
def State.csSent (s : State) (c : Nat) (cold : Bool) (target flags : Nat) : State :=
  let g := (s.cvnHeader c (s.cvnBank c)).guard
  let s1 := if cold then s.onChan c fun x => { x with cold := x.cold + 1 } else s
  s1.cvnGuard c (decide (s1.cvnPos ≤ 2 * g)) { s1.cvnOwn c cvnCS 0 g (s1.csPayload c target flags) with cold := cold }

/-- R709, R732: the CS frame of the first node or of a cold-starter, at G. `late`: a repeat holds it past G + G/2 (R712). -/
def execCvnCsSend (c : Fin 2) (late : Bool) (s : State) : Res :=
  if !((s.cvnState c == 5 && s.cvnFirst c) || s.cvnState c == 3) || (s.chan c).left then .next s
  else if late then .next (s.cvnBlocked c)
  else
    let s1 := if s.cvnState c = 3 ∧ max 1 (s.rd CVN_CTRL CVN_CTRL_COLD_CYCLES) ≤ (s.chan c).cold then s.cvnBecomeFirst c else s
    let r := s1.csRequest c
    let s4 := r.2.2.csSent c (s1.cvnState c == 3) r.1 r.2.1
    match (s4.chan c).leaving with
    | some k => done (if k ≤ s4.cvnN then s4.cvnTell c s4.cvnN 0 else s4)
    | none => done s4

/-- A transmit entry of the bank in force that the node uses in SYNC. -/
def State.txEntry (s : State) (c e : Nat) : Option CvnEnt :=
  let b := s.cvnBank c
  let ent := s.cvnEntry c b e
  if s.cvnState c = 5 ∧ !(s.chan c).left ∧ e ≠ 0 ∧ (s.cvnHeader c b).valid ∧ ent.valid ∧ ent.tx then some ent else none

/-- R724: at ACT − 1,000 ns the mover reads a transmit entry. -/
def execCvnMoverStart (c : Fin 2) (e : Fin 256) (complete : Bool) (ecc : Ecc) (s : State) : Res :=
  match s.txEntry c e with
  | none => .next s
  | some ent => done (s.cvnMove c e ent complete ecc)

/-- R724, R726, R734: at ACT the node sends DATA, NULL or LEAVE. -/
def execCvnSlotSend (c : Fin 2) (e : Fin 256) (late : Bool) (s : State) : Res :=
  match s.txEntry c e with
  | none => .next s
  | some ent =>
    let p := (SMap.get (fun _ => none) (s.chan c).prep e).getD ⟨true, false, 0, []⟩
    let s1 := s.onChan c fun x => { x with prep := SMap.set (fun _ => none) x.prep e none }
    let leaves : Bool := match (s.chan c).leaving with | some k => decide (k ≤ s.cvnN) | none => false
    if late then .next (s1.cvnBlocked c)
    else if leaves then done (s1.cvnTell c s.cvnN e)
    else if p.null || s.mode == .safe then
      done ((s1.bump (CVN_CH_CNT2 c) cntHi 1).cvnGuard c (s1.inTxWindow c 0) (s1.cvnOwn c cvnNULL ent.slot ent.act []))
    else
      let s2 := s1.onChan c fun x => { x with lastSeq := SMap.set (fun _ => none) x.lastSeq e (some p.seq) }
      done (s2.cvnGuard c (s2.inTxWindow c p.data.length)
        { s2.cvnOwn c cvnDATA ent.slot ent.act p.data with stale := p.stale, seq := p.seq })

/-- R735, R736: the first node sends COMMIT in the tail of N + 1. -/
def execCvnCommitSend (c : Fin 2) (late : Bool) (s : State) : Res :=
  match (s.chan c).change with
  | none => .next s
  | some ch =>
    if s.cvnState c ≠ 5 ∨ !s.cvnFirst c ∨ ch.start.map (· + 1) ≠ some s.cvnN then .next s
    else if late then done ((s.cvnBlocked c).cvnChangeEnd c ch 3)
    else
      let cause : Nat := match ch.equal with | some true => 1 | some false => 2 | none => 3
      let next := (s.cvnN + 1) % 2 ^ 32
      let h := s.cvnHeader c (s.cvnBank c)
      let s1 := s.cvnGuard c (decide (h.tail ≤ s.cvnPos)) (s.cvnOwn c cvnCOMMIT 0 (h.tail + h.guard)
        ([BitVec.ofNat 8 ch.target, BitVec.ofNat 8 (b2n (cause == 1) * 128 + cause)] ++ beBytes 4 next ++ [0, 0]))
      let s2 := if cause = 1 then s1.onChan c fun x => { x with switchAt := some (next, ch.target) } else s1
      done (s2.cvnChangeEnd c ch cause)

/-- R715: DLY_REQ on each Caravan port whose link is up. -/
def execDlyReqSend (c : Fin 2) (s : State) : Res :=
  if s.cvnState c = 0 ∨ (s.chan c).left then .next s else done ((s.dlyReq (2 * c)).dlyReq (2 * c + 1))

/-! ## Receiving and repeating (R708, R710, R711, R728) -/

/-- A frame of the node's own that is removed here: it arrives on U, or would be turned (R711, R728). -/
def State.cvnReturns (s : State) (p : Nat) (f : CvnFrame) : Bool :=
  f.src == s.cvnAddr && s.cvnAddr != 0xFFF && (p % 2 == 1 || !(s.chan (p / 2)).openU)

/-- A side of a channel takes frames. -/
def State.cvnTakes (s : State) (p : Nat) : Bool :=
  s.cvnPort p && s.linkUp p && (if p % 2 = 0 then (s.chan (p / 2)).openD else (s.chan (p / 2)).openU)

/-- A valid frame passes the node: it is processed when it arrives on U or is turned, and repeated (R710, R711, R728).
`resid` is the residence time in units of 2⁻¹⁶ ns; `proc` answers EDGE of the copy. -/
def State.cvnPass (s : State) (p : Nat) (f : CvnFrame) (bytes : List Byte) (resid : Nat) (marks : List Byte → List Byte)
    (proc : State → Nat → Nat → Bool × State) : State :=
  let c := p / 2
  let d := p % 2 == 0
  let x := s.chan c
  match s.cvnDelay c d with
  | none => s
  | some ld =>
    if 1040 ≤ f.hops ∨ s.cvnState c = 1 then s
    else
      let good := cvnGood f bytes
      let turned := if d then !x.openU else !x.openD
      let own := f.src == s.cvnAddr && s.cvnAddr != 0xFFF
      let does := good && !own && (!d || turned) && s.cvnEn c
      let s1 := if good then s else s.bump (CVN_CH_CNT3 c) cntLo 1
      let (edge, s2) := if does then proc s1 (f.corr + ld) (scaledView (s.rxStamp p)) else (f.edge, s1)
      let out := cvnRepeat bytes (f.hops + 1) (f.corr + ld + resid) edge turned (!good) (if does then marks else id)
      let dst : Option Nat := if d then (if x.openU then some (2 * c + 1) else some (2 * c))
        else if x.openD then some (2 * c) else some (2 * c + 1)
      match dst with
      | some q => s2.emit (.caravan q out)
      | none => s2

/-- A frame of one type arrives at a Caravan port. -/
def cvnArrive (s : State) (p : Nat) (bytes : List Byte) (resid typ : Nat) (marks : CvnFrame → List Byte → List Byte)
    (proc : CvnFrame → State → Nat → Nat → Bool × State) : Res :=
  if !s.cvnTakes p then .next s
  else
    match cvnParse bytes with
    | none => .next (s.bump (CVN_CH_CNT3 (p / 2)) cntHi 1)
    | some f =>
      if f.typ ≠ typ ∨ s.cvnReturns p f then .next s else done (s.cvnPass p f bytes resid (marks f) (proc f))

/-- R717: a CS frame. -/
def execCsFrameRx (port : Fin 4) (bytes : List Byte) (resid : Nat) (s : State) : Res :=
  let c := port.val / 2
  cvnArrive s port bytes resid cvnCS (fun f => s.csMarks c f) fun f t path at_ => (f.edge, t.cvnCs c f path at_)

/-- R722: a DATA frame. -/
def execDataFrameRx (port : Fin 4) (bytes : List Byte) (resid : Nat) (s : State) : Res :=
  let c := port.val / 2
  cvnArrive s port bytes resid cvnDATA (fun _ => id) fun f t path at_ =>
    t.cvnSlotFrame c f path at_ fun u e edge => u.publish e f f.cycle edge

/-- R722: a NULL frame. -/
def execNullFrameRx (port : Fin 4) (bytes : List Byte) (resid : Nat) (s : State) : Res :=
  let c := port.val / 2
  cvnArrive s port bytes resid cvnNULL (fun _ => id) fun f t path at_ =>
    t.cvnSlotFrame c f path at_ fun u e _ => u.ctlSet e ctlNull

/-- CVN_LEAVE (R744). -/
def State.leaveEvent (s : State) (c src : Nat) : State := s.event .cvn 0x3C 4 (c * 2 ^ 32 + src) 0

/-- R722, R727: a LEAVE frame; slot 0 is the first node's. -/
def execLeaveFrameRx (port : Fin 4) (bytes : List Byte) (resid : Nat) (s : State) : Res :=
  let c := port.val / 2
  cvnArrive s port bytes resid cvnLEAVE (fun _ => id) fun f t path at_ =>
    if f.slot = 0 then
      if f.src ≠ t.rd (CVN_CH_STAT c) CVN_CH_STAT_FIRST_ADDR ∨ t.cvnState c < 4 ∨ (t.chan c).firstLeft.isSome then (f.edge, t)
      else (f.edge, (t.onChan c fun x => { x with firstLeft := some (t.cvnFull f.cycle) }).leaveEvent c f.src)
    else
      t.cvnSlotFrame c f path at_ fun u e _ =>
        match u.areaCtl e with
        | (some v, _) => if bitOf v ctlLeft then u else (u.ctlSet e ctlLeft).leaveEvent c f.src
        | (none, u1) => u1

/-- R735, R736: a COMMIT frame of the first node. -/
def execCommitFrameRx (port : Fin 4) (bytes : List Byte) (resid : Nat) (s : State) : Res :=
  let c := port.val / 2
  cvnArrive s port bytes resid cvnCOMMIT (fun _ => id) fun f t _ _ =>
    let target := byteAt f.payload 0
    let cause := byteAt f.payload 1 % 16
    if t.cvnState c ≠ 5 ∨ f.src ≠ t.rd (CVN_CH_STAT c) CVN_CH_STAT_FIRST_ADDR ∨
        f.ring ≠ t.rd (CVN_CH_CFG c) CVN_CH_CFG_RING then (f.edge, t)
    else
      let t1 := ((t.wr (CVN_CH_STAT c) CVN_CH_STAT_PEND 0).wr (CVN_CH_MODE c) CVN_CH_MODE_TARGET target).wr (CVN_CH_MODE c)
        CVN_CH_MODE_CAUSE cause
      let t2 := if bitOf (byteAt f.payload 1) 7 then
          t1.onChan c fun x => { x with switchAt := some (be f.payload 2 4, target) } else t1
      (f.edge, t2.event .cvn 0x39 4
        (c * 2 ^ 32 + target * 2 ^ 16 + t.rd (CVN_CH_MODE c) CVN_CH_MODE_MODE * 2 ^ 8 + cause) 0)

/-- R711, R733, R735, R756: a frame of the node's own returns and is removed. -/
def execCvnOwnFrameReturn (port : Fin 4) (bytes : List Byte) (s : State) : Res :=
  let c := port.val / 2
  if !s.cvnTakes port then .next s
  else
    match cvnParse bytes with
    | none => .next (s.bump (CVN_CH_CNT3 c) cntHi 1)
    | some f =>
      if !s.cvnReturns port f || decide (6 ≤ f.typ) then .next s
      else if !cvnGood f bytes then .next (s.bump (CVN_CH_CNT3 c) cntLo 1)
      else
        let s1 := if f.edge && s.cvnState c == 5 then s.cvnViolate c f.cycle else s
        if f.typ ≠ cvnCS ∨ !s1.cvnFirst c then done s1
        else
          let s2 := match s1.cvnDelay c (port.val % 2 == 0) with
            | some ld => s1.wr (CVN_CH_LAT c) CVN_CH_LAT_NS ((f.corr + ld) / 65536)
            | none => s1
          let members := sumOf ((List.range 512).map fun m => b2n (memberBit f.payload 32 m))
          let s3 := s2.wr (CVN_CH_STAT c) CVN_CH_STAT_MEMBERS members
          match (s3.chan c).change with
          | some ch =>
            if bitOf (byteAt f.payload 19) 6 && ch.start.map (fun k => (k + 1) % 2 ^ 32) == some f.cycle &&
                decide (s3.cvnPos ≤ (s3.cvnHeader c (s3.cvnBank c)).tail) then
              done (s3.onChan c fun x => { x with change := some { ch with
                equal := some (slice f.payload 32 64 == slice f.payload 96 64) } })
            else done s3
          | none => done s3

/-- R715, R716, R729: a DLY_REQ is answered after `turn`, in units of 2⁻¹⁶ ns, within 200 ns to 300 ns. -/
def execDlyReqRx (port : Fin 4) (bytes : List Byte) (turn : Nat) (s : State) : Res :=
  let c := port.val / 2
  let d := port.val % 2 == 0
  if !s.cvnPort port || !s.linkUp port then .next s
  else
    match cvnParse bytes with
    | none => .next (s.bump (CVN_CH_CNT3 c) cntHi 1)
    | some f =>
      if f.typ ≠ cvnREQ then .next s
      else if !cvnGood f bytes then .next (s.bump (CVN_CH_CNT3 c) cntLo 1)
      else
        let n := s.cvnFull f.cycle
        let s1 := if n ≤ s.cvnN then s else s.onChan c fun x =>
          if d then (if x.loopD then { x with loopEndD := some n } else x)
          else if x.loopU then { x with loopEndU := some n } else x
        if s.cvnState c = 0 then .next s1
        else
          let wait : Nat := max (200 * 65536) (min (300 * 65536) turn)
          done (s1.emit (.caravan port
            ((s1.cvnOwn c cvnRSP 0 f.act (timeBytes (s.rxStamp port) ++ timeBytes (s.txStampIn port wait))).bytes false)))

/-- R716: a DLY_RSP gives a link delay value. -/
def execDlyRspRx (port : Fin 4) (bytes : List Byte) (s : State) : Res :=
  let c := port.val / 2
  let d := port.val % 2 == 0
  if !s.cvnPort port || !s.linkUp port then .next s
  else
    match cvnParse bytes with
    | none => .next (s.bump (CVN_CH_CNT3 c) cntHi 1)
    | some f =>
      if f.typ ≠ cvnRSP then .next s
      else if !cvnGood f bytes then .next (s.bump (CVN_CH_CNT3 c) cntLo 1)
      else
        match (if d then (s.chan c).reqD else (s.chan c).reqU) with
        | none => .next s
        | some t1 =>
          let t4 : Int := scaledView (s.rxStamp port)
          let v : Int := ((t4 - t1) - (timeOf f.payload 12 - timeOf f.payload 0)) / 2
          .next (s.dlyValue port v.toNat)

/-! ## What does not arrive (R722, R730, R731) -/

/-- R722: no frame of a receive slot has arrived for a cycle. -/
def execCvnSlotMissed (c : Fin 2) (e : Fin 256) (s : State) : Res :=
  let b := s.cvnBank c
  let ent := s.cvnEntry c b e
  if s.cvnState c < 4 ∨ e.val = 0 ∨ !(s.cvnHeader c b).valid ∨ !ent.valid ∨ ent.tx then .next s
  else done ((s.bump (CVN_CH_CNT1 c) cntLo 1).ctlSet ent ctlMissed)

/-- R730: no CS frame in two consecutive cycles. -/
def execCvnCsMissing (c : Fin 2) (s : State) : Res :=
  if s.cvnState c < 4 ∨ s.cvnFirst c then .next s else done (s.cvnListen c)

/-- R731, R732: the LISTEN time has passed. -/
def execCvnListenTimeout (c : Fin 2) (s : State) : Res :=
  if s.cvnState c ≠ 2 ∨ (s.chan c).left ∨ !s.cvnMayCold c then .next s
  else done ((s.onChan c fun x => { x with cold := 0 }).cvnTo c 3)

/-- R729: the loopback ends at the start of the named cycle. -/
def execCvnLoopbackEnd (c : Fin 2) (s : State) : Res :=
  let due := fun (o : Option Nat) => match o with | some n => decide (n ≤ s.cvnN) | none => false
  let x := s.chan c
  if !(due x.loopEndU || due x.loopEndD) then .next s
  else
    done ((s.onChan c fun x => { x with
      loopU := x.loopU && !(due x.loopEndU && x.upU)
      loopD := x.loopD && !(due x.loopEndD && x.upD)
      loopEndU := if due x.loopEndU then none else x.loopEndU
      loopEndD := if due x.loopEndD then none else x.loopEndD }).cvnWrap c)

/-- R726, R727: the LEAVE frames of both announcement cycles are sent, and the node sends nothing of its own from then on. -/
def execCvnLeave (c : Fin 2) (s : State) : Res :=
  match (s.chan c).leaving with
  | none => .next s
  | some k =>
    let s1 := if s.cvnState c = 5 then (s.cvnTellCycle c k).cvnTellCycle c (k + 1) else s
    let s2 := if s1.cvnFirst c then (s1.cvnUnfirst c).wr (CVN_CH_STAT c) CVN_CH_STAT_FIRST_ADDR 0xFFF else s1
    done (s2.onChan c fun x => { x with leaving := none, told := [], left := true })

/-! ## Banks and modes (R714, R735 to R743) -/

/-- R714: a write of VALID = 1 to a bank header. -/
def execCvnBankValidate (port c bank : Fin 2) (value : Word) (s : State) : Res :=
  onMw0 s port .cvn (cvnOff c bank 0 3) <|
    if !bitOf value.toNat 31 then .next s else done (s.cvnTableWrite c bank 0 3 value)

/-- R742: a table message. `ecc` is what the image's first word shows. -/
def execCvnTableMessage (k : Fin 4) (ecc : Ecc) (s : State) : Res :=
  if !s.msgWaits k 0x10 then .next s
  else
    let (sender, ws, s1) := s.takeMsg k
    let w := (ws.getD 0 0).toNat
    let c := bitsOf w 8 8
    let b := w % 64
    let off := (ws.getD 1 0).toNat
    let p := s1.physOf false b
    if 16 ≤ sender ∨ sender ≠ s1.rd TIME_CTRL TIME_CTRL_SLOT ∨ s1.rd (WADI_FUNC 4) WADI_FUNC_CUR ≠ 0 ∨
        s1.owner b ≠ 0x10 + sender ∨ 131072 < off + 4096 ∨ s1.flag (CVN_CH_STAT c) CVN_CH_STAT_PEND then
      done (s1.steerRej (s1.steererOf sender))
    else if ecc = .double ∨ ((List.range 513).any fun i => (s1.bank false p).mem.isBad (off + min 4095 (8 * i))) then
      done (s1.bankUe false p (off / 8) (18 + s1.boot.scActive) false 8)
    else
      let s2 := if ecc = .single then s1.bankCe false p (off / 8) (18 + s1.boot.scActive) false 8 else s1
      done ((s2.cvnLoad c ((s2.bank false p).mem.bytes off 4096)).2.ringDb sender (BitVec.ofNat 32 (2 ^ 27)))

/-- The body of CVN_MODE (R735, R737, R739, R743). -/
def State.cmdCvnMode (s : State) (ring : Nat) (p0 : Nat) : State :=
  let c := bitsOf p0 8 8
  let target := p0 % 256
  if !s.cvnFirst c || s.cvnState c != 5 then s.finish ring 0x88 stBadState 0
  else if (s.chan c).change.isSome then s.finish ring 0x88 stBusy 0
  else if !s.cvnOther c target then s.finish ring 0x88 stNoEntry 0
  else if !s.cvnFits c then
    let s1 := ((s.wr (CVN_CH_MODE c) CVN_CH_MODE_TARGET target).wr (CVN_CH_MODE c) CVN_CH_MODE_CAUSE 4).event .cvn 0x39 4
      (c * 2 ^ 32 + target * 2 ^ 16 + s.rd (CVN_CH_MODE c) CVN_CH_MODE_MODE * 2 ^ 8 + 4) 0
    (s1.raise .cvn F_CVN_LATENCY []).finish ring 0x88 stRefused 4
  else (s.onChan c fun x => { x with change := some ⟨ring, target, none, none⟩ }).wr (CVN_CH_STAT c) CVN_CH_STAT_PEND 1

/-- R735: the first node is asked for a mode change. -/
def execCvnMode (ring : Fin 512) (p0 : BitVec 64) (s : State) : Res :=
  done (s.command ring 0x88 Mode.working fun t => t.cmdCvnMode ring p0.toNat)

/-- The body of CVN_TABLE (R743). -/
def State.cmdCvnTable (s : State) (ring : Nat) (p0 p1 : Nat) (dma : Option (List Byte)) : State :=
  let c := bitsOf p0 8 8
  if s.flag (CVN_CH_STAT c) CVN_CH_STAT_PEND then s.finish ring 0x89 stBadState 0
  else s.withDma ring 0x89 p1 dma fun t bs =>
    let (ok, t1) := t.cvnLoad c bs
    t1.finish ring 0x89 (if ok then stOk else stBadParam) 0

/-- R743: a bank image from host memory. -/
def execCvnTable (ring : Fin 512) (p0 p1 : BitVec 64) (dma : Option (List Byte)) (s : State) : Res :=
  done (s.command ring 0x89 Mode.working fun t => t.cmdCvnTable ring p0.toNat p1.toNat dma)

end Sys2Proof.Machine
end

