-- ==== Sys2Proof/Machine/Gen.lean ====
section
/-! DEFINITION. Mode requests, resets, supervisors and quiesces (file 02, R823 to R826, R1036). -/

namespace Sys2Proof.Machine

/-! ## Mode requests (R84, R494) -/

/-- R84 to R87, R125: a write of GEN_MODE_REQ. -/
def execGenModeReq (port : Fin 2) (value : Word) (s : State) : Res :=
  onMw0 s port .gen GEN_MODE_REQ (done (s.modeRequest (value.toNat % 8) (bitOf value.toNat 8) none).2)

def cmdMode (ring : Nat) (p0 : BitVec 64) (s : State) : State :=
  let (c, s1) := s.modeRequest (p0.toNat % 8) (bitOf p0.toNat 8) (some ring)
  if c ≠ 0 then s1.finish ring 0x01 stRefused c
  else if s1.pers.toConfig = some (some ring) then s1
  else s1.finish ring 0x01 stOk 0

/-- R494: MODE. A transition to CONFIG that waits for a blackout (R292) holds the completion. -/
def execMode (ring : Fin 512) (p0 : BitVec 64) (s : State) : Res :=
  done (s.command ring 0x01 Mode.working (cmdMode ring p0))

/-! ## Resets commanded by a host (R91 to R96) -/

/-- RESET_KEY (R92, R95, R96, R952). -/
def State.resetKey (s : State) : State := s.raise .gen F_GEN_RESET_KEY [s.boot.scActive]

/-- R91, R92, R1036: a write of GEN_RESET with WARM = 1. -/
def execWarmResetRequest (port : Fin 2) (key : BitVec 8) (s : State) : Res :=
  onMw0 s port .gen GEN_RESET (done (if key = 0xA5 then s.quiesceWarm else s.resetKey))

/-- A block code that a port may not name: none of R95, its own port, or the second port of a bonded pair (R96). -/
def State.badBlock (s : State) (port code : Nat) : Bool :=
  !blockCode code || (code == 1 && (s.bonded || port == 0)) || (code == 2 && (s.bonded || port == 1))

/-- R92, R95, R96: a write of GEN_RESET with BLK_GO = 1 and WARM = 0. -/
def execBlockReset (port : Fin 2) (key : BitVec 8) (blk : BitVec 5) (s : State) : Res :=
  onMw0 s port .gen GEN_RESET
    (done (if key ≠ 0xA5 ∨ s.badBlock port blk.toNat = true then s.resetKey else s.blockReset blk.toNat))

/-- R95: a block reset completes. -/
def execBlockResetDone (blk : BitVec 5) (s : State) : Res :=
  .next { s with boot := { s.boot with blkReset := s.boot.blkReset.filter (· != blk.toNat) } }

/-! ## Supervisors (R97 to R100) -/

/-- The supervisors run: not in STANDBY and not under PORST_N. -/
def State.scRuns (s : State) : Bool := s.mode != .standby && !s.boot.porst

/-- R98: the lockstep self-check of the active supervisor fails. -/
def execScLockstepFail (s : State) : Res := if s.scRuns then done s.scLost else .next s

/-- R98: the active supervisor misses its watchdog. -/
def execScWatchdogExpiry (s : State) : Res := if s.scRuns then done s.scLost else .next s

/-- R100: both supervisors fail. -/
def execSupervisorDoubleFail (s : State) : Res :=
  if s.scRuns then done ((s.scFailed 0).scFailed 1).scDouble else .next s

/-! ## The ejector and the module's presence (R117 to R119, R826, R1009, R1010) -/

/-- R117, R826: EJECT_N is accepted low. -/
def execEjectNAssert (s : State) : Res :=
  let s1 := { s with pwr := { s.pwr with eject := true } }.pwrShow
  if s.pwr.on ∧ s.scRuns = true then done (s1.quiesceEject .eject) else .next s1

/-- R119: EJECT_N is accepted high; with PRESENT_N low an eject ends. -/
def execEjectNDeassert (s : State) : Res :=
  let s1 := { s with pwr := { s.pwr with eject := false } }.pwrShow
  if s.pwr.present ∧ s.ejecting = true then done s1.quiesceAbort else .next s1

/-- R1009, R1010: PRESENT_N is accepted high. -/
def execPresentNHigh (s : State) : Res :=
  let s1 := { s with pwr := { s.pwr with present := false } }.pwrShow
  if !s.pwr.present || !s.pwr.on then .next s1
  else if s.flag GEN_MODE_STAT GEN_MODE_STAT_QUIESCED ∨ s.scRuns = false then .next s1.powerOff
  else done (((s1.raise .pwr F_PWR_SURPRISE [0]).bump PWR_CNT PWR_CNT_SURPRISE 1).quiesceEject .removal)

/-- R1010: PRESENT_N is accepted low again. -/
def execPresentNLow (s : State) : Res :=
  let s1 := { s with pwr := { s.pwr with present := true } }.pwrShow
  if s.ejecting ∧ s.pwr.eject = false then done s1.quiesceAbort else .next s1

/-! ## Quiesces (R117, R91, R823, R1010, R1036) -/

/-- What was posted and not started completes with EJECTED or FLUSHED (R91, R117, R823). -/
def State.drainRings (s : State) : State :=
  let st := if s.ejecting then stEjected else stFlushed
  (s.rings.map Prod.fst).foldl (fun t r =>
    let x := (t.ring r).state
    if x = .active ∨ x = .draining ∨ x = .orphaned then t.flushPosted r st else t) s

/-- The event of a quiesce: EJECT, or the MODE_CHANGED of R91 and R823. -/
def State.quiesceTell (s : State) (q : Quiesce) : State :=
  if q.told then s
  else match q.kind with
    | .eject | .removal => s.ejectEvent
    | .warm => s.modeEvent (s.rd GEN_MODE_STAT GEN_MODE_STAT_PREV_MODE) Mode.safe.code
    | .standby => s.modeEvent s.mode.code Mode.standby.code

/-- R117, R91, R823: every descriptor that had started has completed; the others are completed and the event is written. -/
def execQuiesceDrainDone (s : State) : Res :=
  match s.quiesce with
  | some q =>
    if q.drained then .next s
    else done { s.drainRings.quiesceTell q with quiesce := some { q with drained := true, told := true } }
  | none => .next s

/-- R117, R823, R1036: records and logs are in NVM; a warm reset that replaced a STANDBY entry follows. -/
def execNvmFlushDone (s : State) : Res :=
  match s.quiesce with
  | some q =>
    if !q.drained || q.flushed then .next s
    else
      let s1 := { s.flushFaultLog.flushWear with quiesce := some { q with flushed := true } }
      if q.early ∧ q.kind = .warm then done (s1.warmReset 0) else done s1
  | none => .next s

/-- R117, R91, R1010: QUIESCED becomes 1; a host warm reset starts; a module that has been pulled loses its power. -/
def execQuiesceComplete (s : State) : Res :=
  match s.quiesce with
  | some q =>
    if !q.flushed || q.kind == QuiesceKind.standby || s.flag GEN_MODE_STAT GEN_MODE_STAT_QUIESCED then .next s
    else
      let s1 := s.wr GEN_MODE_STAT GEN_MODE_STAT_QUIESCED 1
      if q.kind = .warm then done (s1.warmReset 0)
      else if !s.pwr.present then .next s1.powerOff else .next s1
  | none => .next s

/-- R823: filters are armed, clocks stop and the links go down. -/
def execStandbyReached (s : State) : Res :=
  match s.quiesce with
  | some q => if q.kind = .standby ∧ q.flushed then done s.reachStandby else .next s
  | none => .next s

/-- The condition of a source of R825. -/
def State.mayWake (s : State) (src bus : Nat) : Bool :=
  if src = 0 then false
  else if src ≤ 4 then s.flag (WAKE_BUS_CFG bus) WAKE_BUS_CFG_STBY_EN
  else if src = 5 then s.flag WAKE_CTRL WAKE_CTRL_PIN_EN
  else if src = 6 then s.rd WAKE_CTRL WAKE_CTRL_TIMER != 0
  else false

/-- R825: a wake event in STANDBY starts a full boot. -/
def execStandbyWake (src : Fin 8) (bus : Fin 8) (ide : Bool) (id : BitVec 29) (s : State) : Res :=
  if s.mode = .standby ∧ s.mayWake src bus then
    done (if src.val ≤ 4 then s.wakeUp src bus id.toNat ide else s.wakeUp src 0 0 false)
  else .next s

end Sys2Proof.Machine
end

