-- ==== Sys2Proof/Machine/Hif.lean ====
section
/-! DEFINITION. The commands and events of the host interface (file 09). -/

namespace Sys2Proof.Machine

/-! ## Bindings (R459 to R461) -/

/-- R459: a write of EN = 1 to HIF_RINGr_CFG. A ring that is not DISABLED keeps its context (R460). -/
def execRingBind (port : Fin 2) (ring : Fin 512) (value : Word) (s : State) : Res :=
  onMw0 s port .hif (HIF_RING_CFG ring) <|
    if !bitOf value.toNat 31 || (s.bonded && port.val == 1) then .next s
    else if (s.ring ring).state ≠ .disabled then done (s.ctxWrite port (HIF_RING_CFG ring) (s.ringType ring))
    else done ((s.regWrite (HIF_RING_CFG ring) value).bindRing port ring)

/-- R461: a write of EN = 0 to a ring that is not DISABLED. -/
def execRingUnbind (port : Fin 2) (ring : Fin 512) (s : State) : Res :=
  onMw0 s port .hif (HIF_RING_CFG ring) (done (s.unbindRing port ring))

/-- R461, R491: the started work of a DRAINING ring is finished. What was posted meanwhile completes FLUSHED first, but on
a ring that is released. -/
def execRingDrainDone (ring : Fin 512) (s : State) : Res :=
  if (s.ring ring).state ≠ .draining then .next s
  else
    let s1 := if (s.ring ring).release.isSome then s else s.flushPosted ring stFlushed
    if s1.ringDrained ring then done (s1.endDrain ring) else done s1

/-- R504, R505: a write of a doorbell page register. -/
def execDbBaseWrite (port page : Fin 2) (value : BitVec 64) (s : State) : Res :=
  onMw0 s port .hif (HIF_DB_BASE page) <|
    if port ≠ page ∨ 0 < s.ringsUnder page then
      done (s.raise .hif F_HIF_CTX_WRITE [HIF_DB_BASE page, 20 + port, 5])
    else .next (s.setReg64 (HIF_DB_BASE page) (value.toNat / 4096 * 4096 + value.toNat % 2))

/-- R465 to R468: the slots that a poll of a page finds. -/
def execDoorbellPoll (port : Fin 2) (slots : List (Fin 512 × Word)) (s : State) : Res :=
  if !s.dmaOk port || !s.flag (HIF_DB_BASE port) HIF_DB_BASE_EN || s.mode == .standby then .next s
  else
    done (slots.foldl (fun t e =>
      let x := t.ring e.1
      if (x.state = .active ∨ x.state = .draining) ∧ x.port = port then t.slotUpdate e.1 e.2 else t) s)

/-! ## FTX (R469, R470, R477, R478, R581) -/

/-- Descriptors of a frame: those chained by MORE and the one that ends it. -/
def ftxChain (ds : List (BitVec 64 × BitVec 64)) : List (BitVec 64 × BitVec 64) :=
  let more := ds.takeWhile fun d => bitOf d.2.toNat 14
  more ++ (ds.drop more.length).take 1

/-- LEN of a descriptor. -/
def ftxLen (d : BitVec 64 × BitVec 64) : Nat := d.2.toNat % 2 ^ 14

/-- The frame's bytes: with FCS = 1 padded with zeros to 60 bytes and closed with the FCS (R470). -/
def ftxBytes (addFcs : Bool) (data : List Byte) : List Byte :=
  if addFcs then
    let b := data ++ List.replicate (60 - data.length) 0
    b ++ fcs b
  else data

/-- A chain that R470 completes with BAD_DESC; `q` is Q1 of its first descriptor. -/
def ftxBad (chain : List (BitVec 64 × BitVec 64)) (q len : Nat) : Bool :=
  let addFcs := bitOf q 15
  let dest := bitsOf q 19 18
  let ports := sumOf ((List.range 16).map fun n => b2n (bitOf q (24 + n)))
  decide (8 < chain.length) || chain.any (fun d => ftxLen d == 0 || decide (9216 < ftxLen d)) ||
    (if addFcs then decide (len < 1 ∨ 9212 < len) else decide (len < 64 ∨ 9216 < len)) || dest == 3 ||
    (bitOf q 17 && (ports != 1 || dest != 0))

/-- Complete the descriptors of a chain. -/
def State.chainDone (s : State) (r : Nat) (idx : List Nat) (st : Status) : State :=
  idx.foldl (fun t i => t.ringComplete r i st 0 0) s

/-- Where an FTX frame goes, `none` for a CLASSIFY miss (R469, R581). -/
def State.ftxDest (s : State) (p q : Nat) (bs : List Byte) (ecc : Option (Nat × Ecc)) : Option Dest × State :=
  let dest := bitsOf q 19 18
  if dest = 0 then (some { Dest.nowhere with ports := portsOf (bitsOf q 39 24) 16 (bitsOf q 22 20) }, s)
  else if dest = 2 then (some { Dest.nowhere with slot := some (bitsOf q 43 40, bitsOf q 46 44) }, s)
  else
    let tagged := isTagged 0x8100 bs
    let tci := be bs 14 2
    let k := forwardKey 2 0x8100 (if tagged then tci % 4096 else 0) (16 + p) bs
    let s1 := match ecc with | some (i, e) => s.fctEcc i e | none => s
    let d := (s1.lookup k (16 + p)).map fun e => s1.destOf e.1 e.2 16 (if tagged then tci / 8192 else 0)
    (d, match ecc with | some (i, e) => s1.fctRewrite i e | none => s1)

/-- A frame of an FTX chain whose data have been read. -/
def State.ftxSend (s : State) (r : Nat) (idx : List Nat) (q : Nat) (bs : List Byte) (ecc : Option (Nat × Ecc)) : State :=
  let p := (s.ring r).port
  let (d, s1) := s.ftxDest p q bs ecc
  match d with
  | none => (s1.ringDrop r).chainDone r idx stOk
  | some d =>
    let tagged := isTagged 0x8100 bs
    let tci := be bs 14 2
    let timed := (bitOf q 16 || bitOf q 17) && !d.ports.isEmpty
    let last := idx.getLastD 0
    let s2 := if timed then s1.chainDone r idx.dropLast stOk else s1.chainDone r idx stOk
    let (fid, s3) := s2.store
      { bytes := bs, src := 1, port := p, ring := some r, slot := none, tsNs := 0, tsFrac := 0, err := false, bad := false
        redelivered := false, entry := d.entry, tagged := tagged, tci := tci, vid := tci % 4096, pcp := tci / 8192
        dei := bitOf tci 12, gen := s2.rd SWC_FCT_FENCE SWC_FCT_FENCE_GEN, op := d.op, opVid := d.opVid
        oneStep := bitOf q 17, report := if timed then some (r, last, (d.ports.head?.map Prod.fst).getD 0) else none
        txSlot := none, redSeq := none }
    s3.deliver fid d

/-- R470: a chain is read and its frame is queued, or completed with an error. `descs` are Q0 and Q1 of the next posted
descriptors, `data` the bytes of their buffers. -/
def execFtxFrame (ring : Fin 512) (descs : List (BitVec 64 × BitVec 64)) (data : List Byte) (ecc : Option (Fin 33024 × Ecc))
    (s : State) : Res :=
  let chain := ftxChain descs
  let len := sumOf (chain.map ftxLen)
  let whole := match chain.getLast? with | some d => !bitOf d.2.toNat 14 || decide (8 < chain.length) | none => false
  if !s.hasWork ring 0 || !whole || decide (s.posted ring < chain.length) then .next s
  else
    let q := match chain.head? with | some d => d.2.toNat | none => 0
    let idx := s.nextIdx ring chain.length
    if ftxBad chain q len then done ((s.ringStart ring chain.length).chainDone ring idx stBadDesc)
    else if data.length ≠ len then .next s
    else
      let bs := ftxBytes (bitOf q 15) data
      let s1 := s.ringStart ring chain.length
      if !s1.admitRing ring (cellsOf bs.length) then done (s1.chainDone ring idx stQuota)
      else done (s1.ftxSend ring idx q bs (ecc.map fun e => (e.1.val, e.2)))

/-! ## FRX (R471, R472, R477) -/

/-- The length of an FRX buffer, when its descriptor is well formed (R471). -/
def frxLen (d : BitVec 64 × BitVec 64) : Option Nat :=
  let n := d.2.toNat % 2 ^ 14
  if d.1.toNat % 64 = 0 ∧ 256 ≤ n ∧ n ≤ 9216 ∧ n % 64 = 0 then some n else none

/-- How many of the buffers a frame of `len` bytes takes, at most 8; none when they do not hold it and are fewer than 8. -/
def frxNeed : List Nat → Nat → Nat → Option Nat
  | _, 0, k => some k
  | [], _, k => if k = 8 then some 8 else none
  | b :: bs, len, k => if k = 8 then some 8 else frxNeed bs (len - b) (k + 1)

/-- INFO of an FRX completion (R477). -/
def frxInfo (f : Frame) (more : Bool) (n : Nat) : Nat :=
  f.tsFrac / 0x4000 * 2 ^ 22 + f.src * 2 ^ 20 + (if f.src = 0 then f.port * 2 ^ 16 else 0) + b2n f.err * 2 ^ 15 +
    b2n more * 2 ^ 14 + n

/-- The pieces of a frame go to their buffers, each with its completion. -/
def State.frxWrite (s : State) (r : Nat) (f : Frame) : List (Nat × Nat × Nat) → List Byte → State
  | [], _ => s
  | (i, addr, n) :: rest, bs =>
    let s1 := s.emit (.hostData (s.ring r).port addr (bs.take n))
    let left := bs.drop n
    let trunc := rest.isEmpty && !left.isEmpty
    State.frxWrite (s1.ringComplete r i (if trunc then stTrunc else stOk)
      (frxInfo f (!rest.isEmpty) (min n bs.length)) f.tsNs) r f rest left

/-- R471: the oldest frame of an FRX ring is written into the next posted buffers. A frame that a buffer error marked is dropped
(R609). A malformed descriptor completes with BAD_DESC and holds nothing. -/
def execFrxFrameDeliver (ring : Fin 512) (bufs : List (BitVec 64 × BitVec 64)) (s : State) : Res :=
  match s.frxQ ring with
  | [] => .next s
  | fid :: rest =>
    match s.frame fid with
    | none => .next s
    | some f =>
      if f.bad then done ((s.setFrxQ ring rest).collect fid)
      else if !s.hasWork ring 1 || decide (s.posted ring < bufs.length) then .next s
      else
        match bufs.head? with
        | none => .next s
        | some b =>
          if (frxLen b).isNone then
            done ((s.ringStart ring 1).chainDone ring (s.nextIdx ring 1) stBadDesc)
          else
            let good := bufs.takeWhile fun d => (frxLen d).isSome
            let lens := good.filterMap frxLen
            match frxNeed lens f.bytes.length 0 with
            | none => .next s
            | some k =>
              let parts := (s.nextIdx ring k).zip ((good.take k).map fun d => (d.1.toNat, (frxLen d).getD 0))
              let s1 := (s.ringStart ring k).frxWrite ring f (parts.map fun e => (e.1, e.2.1, e.2.2)) f.bytes
              done ((s1.setFrxQ ring rest).collect fid)

/-! ## PDX (R473, R474) -/

/-- A descriptor that R474 completes with BAD_DESC. -/
def pdxBad (q0 q1 q2 q3 : Nat) : Bool :=
  let len := bitsOf q1 16 0
  let off := bitsOf q1 40 24
  q0 % 8 != 0 || off % 8 != 0 || decide (len < 8) || decide (65536 < len) || len % 8 != 0 || decide (0x20000 < off + len) ||
    q1 / 2 ^ 41 != 0 || q2 != 0 || q3 != 0

/-- Words of a transfer to a bank. -/
def State.pdxIn (s : State) (m o b off : Nat) : List (List Byte) → State
  | [] => s
  | w :: ws => State.pdxIn (s.bankStore m o b off w false .ok).2 m o b (off + 8) ws

/-- Words of a transfer from a bank, the first at byte `off`; `ecc` names a word of the bank whose check bits show an error. A
poisoned word reads as ones (R363). -/
def State.pdxOut (s : State) (m o b off : Nat) (ecc : Option (Nat × Ecc)) : Nat → List Byte × State
  | 0 => ([], s)
  | k + 1 =>
    let e := match ecc with | some (w, x) => if w = off / 8 then x else .ok | none => Ecc.ok
    match s.bankLoad m o b off 8 false e with
    | (.data bs, s1) =>
      let (rest, s2) := State.pdxOut s1 m o b (off + 8) ecc k
      (bs ++ rest, s2)
    | (_, s1) =>
      let (rest, s2) := State.pdxOut s1 m o b (off + 8) ecc k
      (List.replicate 8 0xFF ++ rest, s2)

/-- The bytes of a list in words of 8. -/
def wordsOf : Nat → List Byte → List (List Byte)
  | 0, _ => []
  | k + 1, bs => bs.take 8 :: wordsOf k (bs.drop 8)

/-- The owner code of a PDX ring (R370, R510). -/
def State.pdxOwner (s : State) (r : Nat) : Nat :=
  let b := s.rd (HIF_RING_BIND r) HIF_RING_BIND_BIND
  if b = 0 then 0x21 + (s.ring r).port else b

/-- R474: the transfer of the next PDX descriptor, as the ring's owner. `data` are the bytes read from host memory, `ecc` what
the check bits of one word of the bank show. -/
def execPdxTransfer (ring : Fin 512) (q0 q1 q2 q3 : BitVec 64) (data : List Byte) (ecc : Option (Fin 16384 × Ecc)) (s : State) :
    Res :=
  if !s.hasWork ring 2 then .next s
  else
    let x := s.ring ring
    let i := x.cidx
    let s0 := s.ringStart ring 1
    if pdxBad q0.toNat q1.toNat q2.toNat q3.toNat then done (s0.ringComplete ring i stBadDesc 0 0)
    else
      let len := bitsOf q1.toNat 16 0
      let b := bitsOf q1.toNat 23 18
      let off := bitsOf q1.toNat 40 24
      let m := 20 + x.port
      let o := s.pdxOwner ring
      let e := ecc.map fun e => (e.1.val, e.2)
      match s.mayAccess o b with
      | none => .next (s.countWait m)
      | some false =>
        done ((s0.nonOwner m b (off / 8) (!bitOf q1.toNat 17) 8).ringComplete ring i stNotOwner 0 0)
      | some true =>
        if bitOf q1.toNat 17 then
          let (bs, s1) := s0.pdxOut m o b off e (len / 8)
          done ((s1.emit (.hostData x.port q0.toNat bs)).ringComplete ring i stOk len 0)
        else if data.length ≠ len then .next s
        else
          let s1 := s0.pdxIn m o b off (wordsOf (len / 8) data)
          done (s1.ringComplete ring i stOk len 0)

/-! ## Errors and interrupts (R480, R484) -/

/-- R480: a DMA read fails: of a descriptor (`fetched` false) or of the data of the next descriptor of a ring, or of a doorbell
page (no ring). A command's own read is its operand `dma`. -/
def execDmaReadError (port : Fin 2) (ring : Option (Fin 512)) (fetched : Bool) (addr : BitVec 64) (size : Fin 4097) (s : State) :
    Res :=
  match ring with
  | none => if s.dmaOk port then done (s.dmaError port addr.toNat size) else .next s
  | some r =>
    let t := s.ringType r
    if (s.ring r).port ≠ port ∨ !s.hasWork r t ∨ 3 < t then .next s
    else
      let s1 := s.dmaError port addr.toNat size
      let i := (s.ring r).cidx
      if fetched && (t == 0 || t == 2) then done (((s1.ringStart r 1).ringComplete r i stDmaErr 0 0).stopRing r 2)
      else if fetched then .next s
      else done (s1.stopRing r 2)

/-- R484: MOD µs have passed since the ring last raised its vector. -/
def execMsixModerationExpiry (ring : Fin 512) (s : State) : Res :=
  let x := s.ring ring
  if !x.modBusy then .next s
  else if x.modWait then
    done ((s.setRing ring { x with modWait := false }).raiseVec x.port (s.rd (HIF_RING_CFG ring) HIF_RING_CFG_VEC))
  else .next (s.setRing ring { x with modBusy := false })

/-! ## Ports (R449, R450, R486, R1013) -/

/-- R486: the link leaves DL_Active; DMA and polling pause. -/
def execHostLinkDown (port : Fin 2) (s : State) : Res :=
  if s.noPort port || !(s.port port).up then .next s else done (s.linkDropped port)

/-- R449, R450, R503: the link is in DL_Active at a width and a speed; a return within GRACE loses nothing. -/
def execHostLinkUp (port : Fin 2) (width speed : Fin 5) (s : State) : Res :=
  let h := s.port port
  if s.noPort port || h.up || h.perst || h.clockFailed || s.mode == .standby || width.val == 0 || width.val == 3 ||
      speed.val == 0 then .next s
  else
    done ((s.setPort port { h with up := true, lostBit := false, d3hot := false, width := width, speed := speed }).portBack port)

/-- R450: Bus Master Enable changes. -/
def execHostBmeChange (port : Fin 2) (on : Bool) (s : State) : Res :=
  let h := s.port port
  if s.noPort port || !h.up then .next s else done ((s.setPort port { h with bme := on }).portBack port)

/-- R450: the function enters D3hot; the port is lost. -/
def execHostD3hotEntry (port : Fin 2) (s : State) : Res :=
  let h := s.port port
  if s.noPort port || !h.up || h.d3hot then .next s
  else done ((s.setPort port { h with d3hot := true }).hostPortLost port)

/-- R450, R1013: the pin HIF_PERST_x_N. Low holds the link down and the configuration space at reset values; the port trains
again at the release. -/
def execHifPerst (port : Fin 2) (low : Bool) (s : State) : Res :=
  let h := s.port port
  if s.noPort port || h.perst == low then .next s
  else if low then
    done (s.setPort port
      { h with perst := true, up := false, width := 0, speed := 0, bme := false, d3hot := false, msix := [], pba := [] })
  else .next (s.setPort port { h with perst := false })

/-- R450, R486: GRACE has passed with the link down or Bus Master Enable 0. -/
def execHostPortLost (port : Fin 2) (s : State) : Res :=
  let h := s.port port
  if h.up && h.bme then .next s else done (s.hostPortLost port)

/-! ## RING_ADOPT and RING_RELEASE (R488 to R491) -/

/-- P0 of RING_ADOPT outside its fields is reserved. -/
def adoptParams (p0 p2 : Nat) : Bool :=
  let n := bitsOf p0 24 16
  decide (1 ≤ n) && decide (n ≤ 256) && decide (p0 % 512 + n ≤ 512) && bitsOf p0 15 9 == 0 && bitsOf p0 31 25 == 0 &&
    p0 / 2 ^ 33 == 0 && p2 == 0

/-- The table of an adoption from the bytes read: 16 bytes a ring when P1 names a table, then 8 bytes of slot a ring. -/
def adoptTable (first n : Nat) (tabled : Bool) (bs : List Byte) : List (Nat × Nat × Nat × Nat) :=
  let slots := if tabled then bs.drop (16 * n) else bs
  (List.range n).map fun k =>
    (first + k, (if tabled then ofLe (slice bs (16 * k) 8) else 0), (if tabled then ofLe (slice bs (16 * k + 8) 8) else 0),
      ofLe (slice slots (8 * k) 8))

def cmdRingAdopt (ring : Nat) (p0 p1 p2 : BitVec 64) (dma : Option (List Byte)) (s : State) : State :=
  let first := p0.toNat % 512
  let n := bitsOf p0.toNat 24 16
  let p := (s.ring ring).port
  if !adoptParams p0.toNat p2.toNat then s.finish ring 0x02 stBadParam 0
  else if (List.range n).any fun k => (s.ring (first + k)).state != .orphaned then s.finish ring 0x02 stNotOrphaned 0
  else if s.ringLimit < s.ringsUnder p + n then s.finish ring 0x02 stLimit 0
  else s.withDma ring 0x02 p1.toNat dma fun t bs =>
    (t.adoptAll p (adoptTable first n (p1 != 0) bs) (bitOf p0.toNat 32)).finish ring 0x02 stOk 0

/-- R488 to R490: orphaned rings become ACTIVE under the issuing port, all or none. -/
def execRingAdopt (ring : Fin 512) (p0 p1 p2 : BitVec 64) (dma : Option (List Byte)) (s : State) : Res :=
  done (s.command ring 0x02 Mode.working (cmdRingAdopt ring p0 p1 p2 dma))

def cmdRingRelease (ring : Nat) (p0 p1 p2 : BitVec 64) (s : State) : State :=
  let r := p0.toNat % 512
  let x := s.ring r
  if p0.toNat / 512 ≠ 0 ∨ p1 ≠ 0 ∨ p2 ≠ 0 then s.finish ring 0x03 stBadParam 0
  else if x.state ≠ .active ∨ x.port ≠ (s.ring ring).port then s.finish ring 0x03 stBadState 0
  else
    let s1 := s.setRing r { x with state := .draining, release := some ring }
    if r = ring then s1.finish ring 0x03 stOk 0 else s1

/-- R491: an ACTIVE ring of the issuing port is drained and left ORPHANED. -/
def execRingRelease (ring : Fin 512) (p0 p1 p2 : BitVec 64) (s : State) : Res :=
  done (s.command ring 0x03 Mode.working (cmdRingRelease ring p0 p1 p2))

end Sys2Proof.Machine
end

