-- ==== Sys2Proof/Machine/Mac.lean ====
section
/-! DEFINITION. The commands and events of the MAC blocks (file 10). -/

namespace Sys2Proof.Machine

/-- A write of MAC_CTRL.EN (R516, R529). -/
def State.macSetEn (s : State) (n : Nat) (en : Bool) : State :=
  if s.macEn n == en then s
  else if en then (s.wr (MAC_CTRL n) MAC_CTRL_EN 1).startSearch n
  else ((s.linkLost n).endSending n false).wr (MAC_CTRL n) MAC_CTRL_EN 0 |>.startSearch n

/-- R516, R529: a write of MAC_CTRL.EN. -/
def execMacEnable (port : Fin 2) (n : Fin 16) (en : Bool) (s : State) : Res :=
  onMw0 s port (.mac n) (MAC_CTRL n) <| done (s.macSetEn n en)

/-- RENEG (R527): the present link or attempt ends and the search restarts; ignored while EN is 0. -/
def State.macReneg (s : State) (n : Nat) : State :=
  if s.macEn n && !s.portDown n then (s.linkLost n).startSearch n else s

/-- R527: a write of MAC_CTRL.RENEG. -/
def execMacReneg (port : Fin 2) (n : Fin 16) (s : State) : Res :=
  onMw0 s port (.mac n) (MAC_CTRL n) <| done (s.macReneg n)

/-- R528: a write of MAC_CTRL.RESET. -/
def execMacPortReset (port : Fin 2) (n : Fin 16) (s : State) : Res :=
  onMw0 s port (.mac n) (MAC_CTRL n) <| done (s.portReset n)

/-- The port is searching for a link outside Caravan mode. -/
def State.searching (s : State) (n : Nat) : Bool :=
  s.macEn n && !s.portDown n && !s.linkUp n && !s.flag (MAC_MODE n) MAC_MODE_CARAVAN

/-- R516, R521: an attempt ends without meeting its criterion. `noCommon`: the partner showed no usable ability. -/
def execNegDwellExpiry (n : Fin 16) (noCommon : Bool) (s : State) : Res :=
  if !s.searching n then .next s
  else
    let s1 := if s.flag (MAC_MODE n) MAC_MODE_AN73 then s
      else s.tryMode n (nextMode (s.allowed n) (s.mac n).trying)
    if noCommon then
      let s2 := s1.wr (MAC_STAT n) MAC_STAT_RESULT 2
      if (s.mac n).negFail then done s2
      else done ((s2.setMac n { s2.mac n with negFail := true }).raise (.mac n) F_MAC_NEG_FAIL (s.macCaps n))
    else done s1

/-- R518: a 10GBASE-R attempt meets a USXGMII partner, or a 1000BASE-X attempt an SGMII partner. -/
def execNegModeSwitch (n : Fin 16) (s : State) : Res :=
  let m := (s.mac n).trying
  let other := if m = 1 then 2 else if m = 5 then 4 else 0
  if s.searching n && !s.flag (MAC_MODE n) MAC_MODE_AN73 && (s.allowed n).contains other then done (s.tryMode n other)
  else .next s

/-- R517 to R522: an attempt meets its link criterion. With Clause 73 the mode is the one it resolved. -/
def execLinkUp (n : Fin 16) (mode rate : Fin 8) (fec : Bool) (word : BitVec 16) (s : State) : Res :=
  let an := s.flag (MAC_MODE n) MAC_MODE_AN73
  let m := if an then mode.val else (s.mac n).trying
  let sp := s.rd (MAC_NEG_CFG n) MAC_NEG_CFG_SGMII_SPEED
  let r := if m = 4 && s.flag (MAC_NEG_CFG n) MAC_NEG_CFG_SGMII_ROLE then (if sp = 0 then 1 else if sp = 1 then 2 else 3) else rate.val
  if s.searching n && (!an || (m == 1 || m == 3)) && (s.allowed n).contains m && rateOk m r then
    done (s.linkCame n m r (fec && an && m == 1 && s.flag (MAC_MODE n) MAC_MODE_FEC) word.toNat)
  else .next s

/-- R523, R524: the PCS reports a loss. -/
def execLinkDown (n : Fin 16) (s : State) : Res :=
  if !s.linkUp n then .next s
  else
    let s1 := (s.linkLost n).bump (MAC_STAT n) MAC_STAT_DOWN_COUNT 1
    done ((s1.startSearch n).raise (.mac n) F_MAC_LINK_DOWN (s.macCaps n))

/-- The port fails (R530): it goes down and the module enters DEGRADED (R331). -/
def State.macFail (s : State) (n : Nat) : State :=
  ((((s.unitFailed kMac n).takePortDown n).outageFrom (outPort n)).lossOf 6 n).raiseFor (.mac n) F_MAC_MAC_FAIL (s.macCaps n) n

/-- R530: the lane's transmit PLL stays unlocked for 1 ms. -/
def execMacFail (n : Fin 16) (s : State) : Res := if s.portDown n then .next s else done (s.macFail n)

/-- R530: a datapath parity check fails; the first failure resets the port, a second within 1 s is MAC_FAIL. -/
def execMacParityFail (n : Fin 16) (s : State) : Res :=
  if s.portDown n then .next s
  else
    let again := match (s.mac n).parityAt with
      | some t => decide (s.now < t + 1000000000)
      | none => false
    let s1 := s.setMac n { s.mac n with parityAt := some s.now }
    if again then done (s1.macFail n) else done (s1.portReset n)

/-- R29, R539 to R549, R574 to R605: a frame is received on a port. -/
def execRxFrame (n : Fin 16) (bytes : List Byte) (aborted code : Bool) (ecc : Option (Nat × Ecc)) (s : State) : Res :=
  if !s.linkUp n then .next s else done (s.rxFrame n bytes aborted code ecc)

/-- R549: the pause time ends. -/
def execPauseExpiry (n : Fin 16) (s : State) : Res := done (s.setMac n { s.mac n with paused := false })

/-- R532: the free transmitter starts the oldest frame of the highest open queue that is not empty. -/
def execTxFrameStart (n : Fin 16) (drift : Int) (s : State) : Res :=
  if !s.linkUp n || (s.mac n).sending.isSome || (s.mac n).paused then .next s
  else
    match s.nextQueue n with
    | some q => done (s.startFrame n q drift)
    | none => .next s

/-- R573, R666, R667: a frame copy has been sent. -/
def execTxFrameEnd (n : Fin 16) (bufUe : Bool) (s : State) : Res := done (s.endFrame n bufUe)

/-- The supervisor's totals of one port follow its data counters (R553). -/
def State.accumulate (s : State) (n : Nat) : State :=
  let m := s.mac n
  let m1 := (List.range 8).foldl (fun (x : MacSt) i =>
    let c := s.reg64 (MAC_DCNT n i)
    let d := (c + 2 ^ 48 - SMap.get (fun _ => 0) x.seen i) % 2 ^ 48
    { x with
      totals := SMap.set (fun _ => 0) x.totals i ((SMap.get (fun _ => 0) x.totals i + d) % 2 ^ 64)
      seen := SMap.set (fun _ => 0) x.seen i c }) m
  s.setMac n m1

/-- R553: in hardware mode of function 7 the supervisor reads every data counter. -/
def execCounterAccumulate (s : State) : Res :=
  if s.rd (WADI_FUNC 7) WADI_FUNC_CUR = 1 then .next s else done ((List.range 16).foldl State.accumulate s)

/-- The body of MAC_CNT_READ. -/
def cmdMacCntRead (ring : Nat) (p0 p1 : BitVec 64) (s : State) : State :=
  let n := p0.toNat
  if s.rd (WADI_FUNC 7) WADI_FUNC_CUR = 1 then s.finish ring 0x80 stMode 0
  else if 16 ≤ n then s.finish ring 0x80 stBadParam 0
  else
    let s1 := s.accumulate n
    let bytes := ((List.range 8).map fun i => leBytes 8 (SMap.get (fun _ => 0) (s1.mac n).totals i)).flatten
    s1.writeHost ring 0x80 p1.toNat bytes s.now

/-- R553: MAC_CNT_READ writes the totals of one port to host memory. -/
def execMacCntRead (ring : Fin 512) (p0 p1 : BitVec 64) (s : State) : Res :=
  done (s.command ring 0x80 Mode.working (cmdMacCntRead ring p0 p1))

end Sys2Proof.Machine
end

