-- ==== Sys2Proof/Machine/Wadi.lean ====
section
/-! DEFINITION. Wadi's decisions, its commands and the function split (file 06). -/

namespace Sys2Proof.Machine

/-- Firmware runs: Wadi decides and HLTH measures (R305, R974). -/
def State.firmware (s : State) : Bool := s.mode.working && !s.boot.stopped

/-! ## Decisions (R308 to R336) -/

/-- R99, R308, R313, R331 to R336: a decision. `readBad` are the slots whose readback of a loaded image fails (R268). -/
def execWadiDecision (readBad : List (Fin 16)) (s : State) : Res :=
  if !s.firmware then .next s
  else if s.wadi.skip then .next { s with wadi := { s.wadi with skip := false } }
  else done (s.decide_ fun l => !(readBad.any fun b => b.val == l)).leaveDegraded

/-- The refusal of WADI_ACCEPT and WADI_VETO for a proposal that is not open (R326). -/
def State.noProposal (s : State) (id : Nat) : Status := if s.wadi.started.contains id then stTooLate else stNoEntry

def cmdWadiAccept (ring : Nat) (p0 : BitVec 64) (s : State) : State :=
  if s.wadi.props.any (·.id == p0.toNat) then
    { s with wadi := { s.wadi with props := s.wadi.props.map fun (p : Proposal) => if p.id = p0.toNat then { p with accepted := true } else p }
      }.finish ring 0x50 stOk 0
  else s.finish ring 0x50 (s.noProposal p0.toNat) 0

/-- R322, R326: an open proposal is accepted. -/
def execWadiAccept (ring : Fin 512) (p0 : BitVec 64) (s : State) : Res :=
  done (s.command ring 0x50 Mode.working (cmdWadiAccept ring p0))

def cmdWadiVeto (ring : Nat) (p0 : BitVec 64) (s : State) : State :=
  if s.wadi.props.any (·.id == p0.toNat) then (s.withdraw p0.toNat 3).finish ring 0x51 stOk 0
  else s.finish ring 0x51 (s.noProposal p0.toNat) 0

/-- R322, R326, R344: an open proposal is vetoed. -/
def execWadiVeto (ring : Fin 512) (p0 : BitVec 64) (s : State) : Res :=
  done (s.command ring 0x51 Mode.working (cmdWadiVeto ring p0))

/-! ## The function split (R337 to R342, R356) -/

/-- A host write of WADI_FUNCn (R337, R339, R341). -/
def State.funcWrite (s : State) (k : Nat) (value : Word) : State :=
  let want := bitOf value.toNat 0
  let s1 := s.wr (WADI_FUNC k) WADI_FUNC_SHED_OK (b2n (bitOf value.toNat 8))
  let s2 := if want then s1 else { s1 with wadi := { s1.wadi with
    moved := s1.wadi.moved.filter (· != k)
    keepHw := if s1.mode = .degraded ∧ s1.wadi.keepHw.contains k = false ∧ (s1.funcHost k ∨ s1.wadi.moved.contains k) then
      k :: s1.wadi.keepHw else s1.wadi.keepHw } }
  if want = s2.funcHost k then (s2.wr (WADI_FUNC k) WADI_FUNC_FUNC_MODE (b2n want)).wr (WADI_FUNC k) WADI_FUNC_PENDING 0
  else s2.funcAsk k want 0

/-- R337 to R341: a write of WADI_FUNCn. -/
def execFuncModeWrite (port : Fin 2) (func : Fin 8) (value : Word) (s : State) : Res :=
  onMw0 s port .wadi (WADI_FUNC func) (done (s.funcWrite func value))

/-- R338 to R341: the switch point of a function with a pending move. -/
def execFuncSwitchPoint (func : Fin 8) (s : State) : Res :=
  let host := s.flag (WADI_FUNC func) WADI_FUNC_FUNC_MODE
  if !s.flag (WADI_FUNC func) WADI_FUNC_PENDING || s.funcMoving func then .next s
  else if host && !s.funcRings func then done (s.funcRefuse func 1)
  else if host && byPersonality func && (s.hookSlot func).isNone then done (s.funcRefuse func 2)
  else done (s.funcSet func host (b2n (s.wadi.moved.contains func.val)))

/-- R340, R341: the bound of a switch point passes; a move to host-assisted mode is refused. -/
def execFuncSwitchTimeout (func : Fin 8) (s : State) : Res :=
  if s.flag (WADI_FUNC func) WADI_FUNC_PENDING && s.flag (WADI_FUNC func) WADI_FUNC_FUNC_MODE && !s.funcMoving func then
    done (s.funcRefuse func 3)
  else .next s

/-- R342: the rings of a host-assisted function have stayed orphaned for 100 ms. -/
def execFuncRingOrphanTimeout (func : Fin 8) (s : State) : Res :=
  if !s.funcHost func || s.funcRings func then .next s
  else if byPersonality func && (s.hookSlot func).isNone then done (s.raise .wadi F_WADI_FUNC_STOPPED [])
  else done (s.funcAsk func false 1)

end Sys2Proof.Machine
end

