-- ==== Sys2Proof/Machine/Hlth.lean ====
section
/-! DEFINITION. Faults and health as the host and the decision period see them (R190, R191, R946 to R992). -/

namespace Sys2Proof.Machine

/-! ## Fault registers (R946, R958, R964, R972, R973) -/

/-- The instance at an MW0 base whose bits [23:12] are given. -/
def blkOf (code : Nat) : Option BlkId :=
  match blkAt (code * 4096) with
  | some b => if b.base = code * 4096 then some b else none
  | none => none

/-- REG_UNMAPPED (R65, R499). -/
def State.mw0Unmapped (s : State) (port off : Nat) (store : Bool) : State :=
  s.raise .hif F_HIF_REG_UNMAPPED [off, 20 + port, b2n store + 4]

/-- A force bit acts (R932, R973). -/
def State.mayForce (s : State) (b : BlkId) (src : Nat) : Bool :=
  match b with
  | .hlth => !(src == F_HLTH_FLOGIC || src == F_HLTH_FFORCE_STUCK) || s.flag HLTH_STAT HLTH_STAT_FACTORY
  | .sio => s.flag SIO_STAT SIO_STAT_UNLOCKED
  | _ => true

/-- A write of FFORCE (R972). -/
def State.forceFaults (s : State) (b : BlkId) (value : Word) : State :=
  if s.mode = .boot ∨ s.mode = .standby then s
  else b.sources.foldl (fun t r =>
    if bitOf value.toNat r.bit && s.mayForce b r.bit then t.later (.occur b r.bit [0, 0, 0] 255 true) else t) s

/-- R972, R973: a write of FFORCE of an instance. -/
def execFaultForce (port : Fin 2) (blk : BitVec 12) (value : Word) (s : State) : Res :=
  match blkOf blk.toNat with
  | some b => onMw0 s port b (FFORCE b) (done (s.forceFaults b value))
  | none => done (s.mw0Unmapped port (blk.toNat * 4096 + 0xF08) true)

/-- A write of FSTAT: cleared sources are acknowledged (R946, R954, R964, R981). -/
def State.ackFaults (s : State) (b : BlkId) (value : Word) : State :=
  let cleared := (List.range 24).filter fun k => bitOf value.toNat k
  let keys := cleared.map (srcKey b)
  let s1 := s.regWrite (FSTAT b) value
  let s2 := { s1 with faults := { s1.faults with
    srcs := keys.foldl (fun m k => SMap.set (fun _ => none) m k none) s1.faults.srcs } }
  let ends := match s.faults.outageSrc with | some k => keys.contains k | none => false
  let s3 := if ends then { s2.availEnd with faults := { s2.availEnd.faults with outageSrc := none } } else s2
  s3.fltSettle

/-- R946, R964: a write of FSTAT of an instance. -/
def execFstatWrite (port : Fin 2) (blk : BitVec 12) (value : Word) (s : State) : Res :=
  match blkOf blk.toNat with
  | some b => onMw0 s port b (FSTAT b) (.next (s.ackFaults b value))
  | none => done (s.mw0Unmapped port (blk.toNat * 4096 + 0xF00) true)

/-- R958: the k-th open hold window, in the order of opening, ends. -/
def execHoldWindowEnd (k : Fin 64) (s : State) : Res :=
  .next { s with faults := { s.faults with holds := s.faults.holds.eraseIdx k } }

/-- R963, R964: the FLT_N pulse ends. -/
def execFltPulseEnd (s : State) : Res := .next { s with faults := { s.faults with pulse := false } }.fltSettle

/-! ## The worn latch and the fault log (R970, R971, R976, R978) -/

/-- A write of HLTH_UNIT (R976). -/
def State.wornClear (s : State) (value : Word) : State :=
  let k := s.rd HLTH_SEL HLTH_SEL_KIND
  let u := s.rd HLTH_SEL HLTH_SEL_UNIT
  if bitOf value.toNat 30 && decide (u < kindUnits.getD k 0) && decide (s.swapThr k ≤ s.health k u) then
    s.setWear k u { s.wear k u with worn := false }
  else s

/-- R976: a write of HLTH_UNIT. -/
def execHlthWornClear (port : Fin 2) (value : Word) (s : State) : Res :=
  onMw0 s port .hlth HLTH_UNIT (.next (s.wornClear value))

/-- The 32 bytes of a fault log entry (R971). -/
def LogEntry.bytes (e : LogEntry) : List Byte :=
  leBytes 8 e.time ++ leBytes 4 (e.block * 2 ^ 16 + e.src * 2 ^ 8 + e.inst) ++
    leBytes 4 (b2n e.escalated * 2 ^ 7 + b2n e.forced * 2 ^ 6 + e.eff + e.react * 2 ^ 8 + e.mode * 2 ^ 16) ++
    leBytes 4 e.cap0 ++ leBytes 4 e.cap1 ++ leBytes 4 e.cap2 ++ leBytes 4 0

def cmdHlthLogRead (ring : Nat) (p0 p1 p2 : BitVec 64) (s : State) : State :=
  let n := p1.toNat % 256
  if n < 1 ∨ 128 < n then s.finish ring 0xB0 stBadParam 0
  else
    let es := (s.faultLog.drop (p0.toNat % 128)).take n
    s.writeHost ring 0xB0 p2.toNat (es.map LogEntry.bytes).flatten es.length

/-- R970: fault log entries go to host memory, newest first. -/
def execHlthLogRead (ring : Fin 512) (p0 p1 p2 : BitVec 64) (s : State) : Res :=
  done (s.command ring 0xB0 Mode.working (cmdHlthLogRead ring p0 p1 p2))

/-- R971: buffered entries reach NVM. -/
def execFaultLogFlush (s : State) : Res := if s.boot.porst then .next s else .next s.flushFaultLog

/-- R978, R982: wear records and hour counts reach NVM once per hour. -/
def execWearRecordFlush (s : State) : Res :=
  if s.boot.porst then .next s else .next (s.bump HLTH_HOURS HLTH_HOURS_HOURS 1).flushWear

/-! ## The end of a decision period (R190, R191, R379, R531, R553, R974 to R977) -/

/-- The engines' counts of the period (R190, R309). -/
def State.enginePeriod (s : State) : State :=
  let s1 := (List.finRange 18).foldl (fun (t : State) n =>
    let e := t.pe n
    let t1 := (t.wr (PE_LOAD n) ⟨22, 0⟩ (stopAt 0x7FFFFF e.busy)).wr (PE_STALL n) ⟨22, 0⟩ (stopAt 0x7FFFFF e.stalled)
    match e.slot with
    | some l =>
      let x := t1.slot l
      t1.setSlot l { x with loads := (e.busy :: x.loads).take 16 }
    | none => t1) s
  { s1 with pes := s1.pes.map fun (e : Engine) => { e with busy := 0, stalled := 0 } }

/-- The measure that the module's own counts give for a unit: erases of a flash slot, thermal cycles of a half-switch (R974,
R979); another unit's comes from its monitor. -/
def State.ownMeasure (s : State) (k u : Nat) (raw : Option Nat) : Option Nat :=
  if k = kFlash then some (s.flash (u == 1)).erases
  else if k = kDq then some (s.rd (SIO_DQ_CNT (u / 2)) (if u % 2 = 0 then SIO_DQ_CNT_TC_HA else SIO_DQ_CNT_TC_HB))
  else raw

/-- What a measure shows in its own block: PE_RO_COUNT (R191) and MAC_EYE (R531, R566). -/
def State.showMeasure (s : State) (k u : Nat) (raw : Option Nat) : State :=
  match raw with
  | none => s
  | some r =>
    if k = kEngine then s.wr (PE_RO_COUNT u) PE_RO_COUNT_COUNT r
    else if k = kMac ∧ s.linkUp u then
      ((s.wr (MAC_EYE u) MAC_EYE_VALID 1).wr (MAC_EYE u) MAC_EYE_HEIGHT (bitsOf r 23 16)).wr (MAC_EYE u) MAC_EYE_WIDTH (bitsOf r 7 0)
    else s

/-- The active supervisor crosses its swap threshold (R98): the standby takes over unless it has crossed too. -/
def State.scWorn (s : State) (u : Nat) : State :=
  if s.boot.scActive = u ∧ s.scUsable (1 - u) ∧ s.swapThr kSupervisor ≤ s.health kSupervisor (1 - u) then s.takeover else s

/-- The action of the unit's own block at a crossing of SWAP (R43, R98, R531, R977). -/
def State.crossed (s : State) (k u : Nat) : State :=
  if k = kSupervisor then s.scWorn u
  else if k = kPll then s.pllWorn u
  else if k = kMac then s.raiseFor (.mac u) F_MAC_EYE_LOW (s.macCaps u) u
  else s

/-- One unit is measured at the end of a period. A lane has an eye only while its link is up (R531). -/
def State.measureUnit (s : State) (k u : Nat) (raw : Option Nat) : State :=
  if kindUnits.getD k 0 ≤ u || (k == kMac && !s.linkUp u) then s
  else
    let r := s.ownMeasure k u raw
    let before : Bool := decide (s.swapThr k ≤ s.health k u)
    let s1 := (s.showMeasure k u r).measure k u r
    if before && decide (s1.health k u < s1.swapThr k) then s1.crossed k u else s1

/-- R190, R191, R379, R531, R553, R911, R974 to R977: a period ends. `measures` are the readings of the monitors, `cycles` the
thermal cycles of half-switches in the period. -/
def execDecisionPeriodEnd (measures : List (Fin 13 × Fin 128 × Option Nat)) (cycles : List (Fin 16 × Nat)) (s : State) : Res :=
  if !s.firmware then .next s
  else
    let s1 := ((s.setReg WADI_PERIOD (s.reg WADI_PERIOD + 1)).memPeriod).enginePeriod
    let s2 := cycles.foldl (fun t e => t.thermalCycles e.1 e.2) s1
    let s3 := measures.foldl (fun t e => t.measureUnit e.1 e.2.1 e.2.2) s2
    let s4 := if s3.rd (WADI_FUNC 7) WADI_FUNC_CUR = 1 then s3 else (List.range 16).foldl State.accumulate s3
    done s4.sioSync

end Sys2Proof.Machine
end

