-- ==== Sys2Proof/Machine/Mdb.lean ====
section
/-! DEFINITION. The commands and events of the multi-drop buses (file 14). -/

namespace Sys2Proof.Machine

/-- Slot l holds bus n. -/
def State.holdsBus (s : State) (l n : Nat) : Bool := s.busSlot n == some l

/-- An access of slot l to the window of bus n: discarded with WIN_ERR where the slot does not hold the bus (R776). -/
def onBusWin (s : State) (l n what : Nat) (body : Res) : Res :=
  if s.inBlkReset (.mdb n) then .next s
  else if s.holdsBus l n then body
  else done ({ s with rdata := 0 }.winErr n l what)

/-- A read of the window of bus n: the value returned and its effects. -/
def busWinRead (s : State) (l n off : Nat) (ecc : Ecc) : Res :=
  onBusWin s l n 0 <|
  let (v, s1) := s.busRead n off ecc
  done { s1 with rdata := v }

/-- R776, R777: a write of TX_GO with REQUEST. -/
def execMdbTxRequest (l : Fin 16) (bus : Fin 8) (buf : Fin 32) (s : State) : Res :=
  onBusWin s l bus buf <| done (s.busWrite bus l 0x20 (BitVec.ofNat 32 (2 ^ 8 + buf)))

/-- R777, R779: a write of TX_GO with ABORT. -/
def execMdbTxAbort (l : Fin 16) (bus : Fin 8) (buf : Fin 32) (s : State) : Res :=
  onBusWin s l bus buf <| done (s.busWrite bus l 0x20 (BitVec.ofNat 32 (2 ^ 9 + buf)))

/-- R776: a read of TX_DONE. -/
def execMdbTxDonePop (l : Fin 16) (bus : Fin 8) (s : State) : Res := busWinRead s l bus 0x30 .ok

/-- R776: a read of RX_POP. -/
def execMdbRxPop (l : Fin 16) (bus : Fin 8) (ecc : Ecc) (s : State) : Res := busWinRead s l bus 0x40 ecc

/-- R776: a read of MW_EVENT. -/
def execMdbMwEventRead (l : Fin 16) (bus : Fin 8) (s : State) : Res := busWinRead s l bus 0x68 .ok

/-- R772: the bus is free, and the buffer that wins arbitration starts, one held at bus-off first. -/
def execMdbTxStart (bus : Fin 8) (ecc : Ecc) (s : State) : Res :=
  match s.nextBuf bus with
  | some i => if s.canSend bus then done (s.sendBuf bus i false ecc) else .next s
  | none => .next s

/-- R773, R776: the frame being sent ends successfully; TEC falls by 1 (R778; log entry 6). -/
def execMdbFrameSent (bus : Fin 8) (s : State) : Res :=
  let b := s.bus bus
  match b.sending with
  | none => .next s
  | some (i, t, _) =>
    let x := b.buf i
    let s1 := (s.setBus bus { b with sending := none }).emit (.bus bus x.hdr x.bytes)
    let s2 := (s1.bufDone bus i 0 t).setErrs bus (s.rd (MDB_STAT bus) MDB_STAT_TEC - 1) (s.rd (MDB_STAT bus) MDB_STAT_REC)
    done (s2.modeSettle bus)

/-- R773: the frame being sent loses arbitration. -/
def execMdbArbitrationLost (bus : Fin 8) (s : State) : Res := done (s.sendEnds bus)

/-- The controller receives: NORMAL, MONITOR or DETECT, served, and not in bus-off or recovery. -/
def State.canReceive (s : State) (n : Nat) : Bool :=
  [1, 2, 3].contains (s.mdbMode n) && !(s.bus n).shed && decide (s.mdbEst n < 2)

/-- The receive error counter after a frame received without error (R778; log entry 6). -/
def State.recDown (s : State) (n : Nat) : State :=
  let rec_ := s.rd (MDB_STAT n) MDB_STAT_REC
  let tec := s.rd (MDB_STAT n) MDB_STAT_TEC
  if s.mdbMode n ≠ 1 then s
  else if 127 < rec_ then
    let (v, s1) := s.draw 32
    s1.setErrs n tec (119 + v % 9)
  else s.setErrs n tec (rec_ - 1)

/-- R774, R782: a frame of another node ends without error. -/
def execMdbFrameReceived (bus : Fin 8) (hdr0 hdr1 hdr2 hdr3 : Word) (data : List Byte) (s : State) : Res :=
  let h := [hdr0, hdr1, hdr2, hdr3]
  if s.canReceive bus && s.fmtAllowed bus h then
    let s1 := (s.recDown bus).storeRx bus h data
    done (if s1.mdbMode bus = 3 then s1.detectGood bus else s1)
  else .next s

/-- Function 3 (R338) is in hardware mode. -/
def State.fun3Hw (s : State) : Bool := !s.flag (WADI_FUNC 3) WADI_FUNC_CUR

/-- MDB_ERROR in host-assisted mode, at most one per bus per 100 µs (R788). -/
def State.errEvent (s : State) (n kind : Nat) (transmitting : Bool) : State :=
  let b := s.bus n
  if s.fun3Hw then s
  else if (match b.lastErr with | some t => decide (s.now < t + 100000) | none => false) then
    s.bump (MDB_CNT n) MDB_CNT_ERR_DROP 1
  else
    (s.setBus n { b with lastErr := some s.now }).event (.mdb n) 0x44 5
      (n * 2 ^ 32 + kind * 2 ^ 16 + b2n transmitting * 2 ^ 15 + s.rd (MDB_STAT n) MDB_STAT_TEC) 0

/-- The counters after an error (R778; log entry 6). `dominant`: a dominant bit followed the error flag. -/
def State.errCount (s : State) (n kind : Nat) (transmitting afterArb dominant : Bool) : State :=
  let tec := s.rd (MDB_STAT n) MDB_STAT_TEC
  let rec_ := s.rd (MDB_STAT n) MDB_STAT_REC
  if s.mdbMode n ≠ 1 then s
  else if transmitting then
    let spared := (kind == 3 && s.mdbEst n == 1 && !dominant) || (kind == 1 && !afterArb)
    if spared then s else s.setErrs n (tec + 8) rec_
  else s.setErrs n tec (rec_ + (if dominant then 9 else 1))

/-- Recovery from bus-off starts (R779). -/
def State.startRecovery (s : State) (n : Nat) : State :=
  ((s.wr (MDB_STAT n) MDB_STAT_ESTATE 3).wr (MDB_STAT n) MDB_STAT_RECOV 0).mdbState n

/-- Bus-off has been entered (R779): the buffer being sent is held, and in hardware mode recovery starts. -/
def State.enterBusOff (s : State) (n : Nat) : State :=
  let b := s.bus n
  let s1 := match b.sending with
    | none => s
    | some (i, t, _) =>
      let t0 := s.setBus n { b with sending := none }
      if (b.buf i).abort then t0.bufDone n i 1 t
      else (t0.setBus n ({ b with sending := none }.setBuf i { b.buf i with held := true })).wr (MDB_STAT n) MDB_STAT_HELD 1
  (if s.fun3Hw then s1.startRecovery n else s1).modeSettle n

/-- R778, R781, R782, R788: the controller detects an error. `afterArb`: after the arbitration field and before the ACK
slot; `dataPhase`: in the data phase of an FD or XL frame. -/
def execMdbErrorDetected (bus : Fin 8) (kind : Fin 5) (transmitting afterArb dataPhase dominant : Bool) (s : State) : Res :=
  if !s.canReceive bus then .next s
  else
    let h0 := match (s.bus bus).sending with
      | some (i, _, _) => some (((s.bus bus).buf i).hdr.getD 0 0)
      | none => none
    let s1 := s.errCount bus kind transmitting afterArb dominant
    let s2 := match h0 with
      | some h => if transmitting && afterArb then s1.clashEvent bus h else s1
      | none => s1
    let s3 := s2.errEvent bus kind transmitting
    let s4 := if s3.mdbMode bus = 3 ∧ !dataPhase then s3.detectBad bus else s3
    if s4.mdbEst bus = 2 then done (s4.enterBusOff bus)
    else if transmitting then done (s4.sendEnds bus)
    else done s4

/-- R779: recovery has counted 128 occurrences of 11 recessive bits. -/
def execMdbRecoveryDone (bus : Fin 8) (s : State) : Res :=
  if s.mdbEst bus ≠ 3 then .next s
  else
    let w := MDB_STAT bus
    done ((((((s.wr w MDB_STAT_ESTATE 0).wr w MDB_STAT_RECOV 0).wr w MDB_STAT_TEC 0).wr w MDB_STAT_REC 0).wr w
      MDB_STAT_WARN 0).mdbState bus)

/-- MDB_RECOVER (R789). -/
def cmdMdbRecover (ring : Fin 512) (p0 : BitVec 64) (s : State) : State :=
  let n := p0.toNat % 8
  if s.mdbEst n ≠ 2 ∨ s.fun3Hw then s.finish ring 0x91 stBadState 0
  else (s.startRecovery n).finish ring 0x91 stOk 0

/-- R779, R789. -/
def execMdbRecover (ring : Fin 512) (p0 : BitVec 64) (s : State) : Res :=
  done (s.command ring 0x91 Mode.working (cmdMdbRecover ring p0))

/-- MDB_ABORT (R789): the command completes when its buffer does. The status of a buffer that is not pending is not
stated: a free value. -/
def cmdMdbAbort (ring : Fin 512) (p0 : BitVec 64) (s : State) : State :=
  let n := bitsOf p0.toNat 18 16
  let i := p0.toNat % 32
  let b := s.bus n
  let x := b.buf i
  let now := match b.sending with | some (j, _, _) => j == i | none => false
  if s.tbCount n ≤ i then s.finish ring 0x90 stBadParam 0
  else if (s.busSlot n).isNone then s.finish ring 0x90 stNotBound 0
  else if !x.pending then
    let (v, s1) := s.draw 3
    s1.finish ring 0x90 stOk v
  else if now then s.setBus n (b.setBuf i { x with abort := true, abortCmds := x.abortCmds ++ [ring.val] })
  else (s.bufDone n i 1 s.now).finish ring 0x90 stOk 1

/-- R777, R789. -/
def execMdbAbort (ring : Fin 512) (p0 : BitVec 64) (s : State) : Res :=
  done (s.command ring 0x90 Mode.working (cmdMdbAbort ring p0))

/-- MDB_TT_NEXT (R788, R789). -/
def cmdMdbTtNext (ring : Fin 512) (p0 p1 : BitVec 64) (s : State) : State :=
  let n := p0.toNat % 8
  if s.fun3Hw ∨ !s.flag (MDB_STAT n) MDB_STAT_TT_MASTER then s.finish ring 0x92 stBadState 0
  else if p1.toNat < s.now then s.finish ring 0x92 stBadParam 0
  else (s.setBus n { s.bus n with ttNext := some p1.toNat }).finish ring 0x92 stOk 0

/-- R788, R789. -/
def execMdbTtNext (ring : Fin 512) (p0 p1 : BitVec 64) (s : State) : Res :=
  done (s.command ring 0x92 Mode.working (cmdMdbTtNext ring p0 p1))

/-- TT_EN written 1 (R784): the trigger list is checked. -/
def State.ttEnable (s : State) (n master : Nat) : State :=
  if s.trgOk n then s.wr (MDB_CTRL n) MDB_CTRL_TT_EN 1
  else ((s.wr (MDB_CTRL n) MDB_CTRL_TT_EN 0).ttStop n).raiseFor (.mdb n) F_MDB_CFG_ERR (mdbCaps n 0 master) n

/-- R784, R793: a host write of MDBn_CTRL. -/
def execMdbModeWrite (port : Fin 2) (bus : Fin 8) (value : Word) (s : State) : Res :=
  onMw0 s port (.mdb bus) (MDB_CTRL bus) <|
  let s1 := s.busCtrl bus value
  done (if bitOf value.toNat 7 then s1.ttEnable bus (20 + port) else s1)

/-- R784: a write of TT_EN = 1. -/
def execMdbTtEnable (port : Fin 2) (bus : Fin 8) (s : State) : Res :=
  onMw0 s port (.mdb bus) (MDB_CTRL bus) <| done (s.ttEnable bus (20 + port))

/-- MDBn_CTRL.MODE is INIT; codes above 3 act as INIT (R793). -/
def State.busInit (s : State) (n : Nat) : Bool :=
  let m := s.rd (MDB_CTRL n) MDB_CTRL_MODE
  m == 0 || decide (4 ≤ m)

/-- R770, R792: a host write of MDBn_RAM_CFG. -/
def execMdbRamCfgWrite (port : Fin 2) (bus : Fin 8) (value : Word) (s : State) : Res :=
  onMw0 s port (.mdb bus) (MDB_RAM_CFG bus) <|
  if s.busInit bus then done (s.ramCfg bus value (20 + port))
  else done (s.raiseFor (.mdb bus) F_MDB_CFG_ERR (mdbCaps bus 0 (20 + port)) bus)

/-- MDB_TT (R790), shown in MW_EVENT bit [3]. -/
def State.ttEvent (s : State) (n cause : Nat) (q3 : Nat) : State :=
  (s.setBus n { s.bus n with ttEv := true }).event (.mdb n) 0x45 5 (n * 2 ^ 32 + cause) q3

/-- Time-triggered operation runs: TT_EN in NORMAL mode (R784). -/
def State.ttOn (s : State) (n : Nat) : Bool := s.flag (MDB_CTRL n) MDB_CTRL_TT_EN && s.mdbMode n == 1

/-- A basic cycle starts with a cycle count and a master's priority. -/
def State.ttCycleStart (s : State) (n count prio : Nat) : State :=
  let w := MDB_TT_STAT n
  let s1 := ((s.wr w MDB_TT_STAT_SYNCED 1).wr w MDB_TT_STAT_MASTER prio).wr w MDB_TT_STAT_CYCLE_CNT count
  s1.setBus n { s1.bus n with ttRun := true, matched := [] }

/-- The cycle count of the basic cycle that the time master starts now (R786, R788). -/
def State.ttCount (s : State) (n : Nat) : Nat :=
  let m := 2 ^ s.ttMatrix n
  if s.fun3Hw then (s.now - s.reg64 (MDB_TT_BASE n)) / s.ttCycle n % m
  else if (s.bus n).ttRun then (s.rd (MDB_TT_STAT n) MDB_TT_STAT_CYCLE_CNT + 1) % m
  else 0

/-- The time master sends its reference message (R786; log entry 7 for its data bytes), and a basic cycle starts. -/
def State.sendRef (s : State) (n : Nat) : State :=
  let count := s.ttCount n
  let prio := s.rd (MDB_TT_CFG n) MDB_TT_CFG_PRIO
  let id := s.rd (MDB_TT_CFG n) MDB_TT_CFG_REF_ID / 8 * 8 + prio
  let glob := s.now / 100
  let lvl2 := s.flag (MDB_TT_CFG n) MDB_TT_CFG_LEVEL2
  let data := leBytes 1 count ++ (if lvl2 then [0] ++ leBytes 2 (glob % 65536) else [])
  let was := s.flag (MDB_STAT n) MDB_STAT_TT_MASTER
  let s1 := (s.ttCycleStart n count prio).wr (MDB_STAT n) MDB_STAT_TT_MASTER 1
  let s2 := if count = 0 then s1.setBus n { s1.bus n with ttNext := none } else s1
  let s3 := s2.emit (.bus n [BitVec.ofNat 32 (id * 2 ^ 18), BitVec.ofNat 32 data.length, 0, 0] data)
  if was then s3 else s3.ttEvent n 2 0

/-- This bus may act as time master now. -/
def State.refOk (s : State) (n : Nat) : Bool :=
  s.ttOn n && s.canSend n && s.flag (MDB_TT_CFG n) MDB_TT_CFG_MASTER_EN

/-- R786: the reference message of the next basic cycle is due. -/
def execMdbRefDue (bus : Fin 8) (s : State) : Res :=
  if s.refOk bus then done (s.sendRef bus) else .next s

/-- R785: a trigger's time mark is reached. -/
def execMdbTrigger (bus : Fin 8) (i : Fin 64) (s : State) : Res :=
  let w := s.reg64 (MDB_TRG bus i)
  let kind := bitsOf w 63 62
  let b := bitsOf w 50 46
  let acts := s.rd (MDB_TT_STAT bus) MDB_TT_STAT_CYCLE_CNT % 2 ^ bitsOf w 54 52 == bitsOf w 60 55
  if !(s.ttOn bus && (s.bus bus).ttRun && bitOf w 61 && acts) then .next s
  else if kind = 0 then
    if ((s.bus bus).buf b).pending && s.canSend bus then done (s.sendBuf bus b (bitOf w 51) .ok) else .next s
  else if kind = 1 then
    if (s.bus bus).matched.contains b then .next s
    else done ((s.bump (MDB_TT_STAT bus) MDB_TT_STAT_TT_MISS 1).setBus bus { s.bus bus with ttEv := true })
  else if kind = 2 then (if s.refOk bus then done (s.sendRef bus) else .next s)
  else
    let s1 := (s.ttEvent bus 1 0).raiseFor (.mdb bus) F_MDB_TT_ERR
      (mdbCaps bus (s.rd (MDB_TT_CFG bus) MDB_TT_CFG_REF_ID) 31) bus
    done (if s1.refOk bus then s1.sendRef bus else s1.ttStop bus)

/-- R787: a valid reference message of a master of priority `prio`. A current time master of higher priority ignores it. -/
def execMdbRefReceived (bus prio : Fin 8) (cycle : Fin 64) (globalTime : Nat) (s : State) : Res :=
  let was := s.flag (MDB_STAT bus) MDB_STAT_TT_MASTER
  if !(s.ttOn bus && s.canReceive bus) || (was && decide (s.rd (MDB_TT_CFG bus) MDB_TT_CFG_PRIO ≤ prio)) then .next s
  else
    let old := s.rd (MDB_TT_STAT bus) MDB_TT_STAT_MASTER
    let running := (s.bus bus).ttRun
    let count := cycle.val % 2 ^ s.ttMatrix bus
    let s1 := (s.ttCycleStart bus count prio).wr (MDB_STAT bus) MDB_STAT_TT_MASTER 0
    let s2 := if running && old != prio.val then s1.ttEvent bus 2 0 else s1
    if s.flag (MDB_TT_CFG bus) MDB_TT_CFG_LEVEL2 && count == 0 then
      done (s2.ttEvent bus 4 (toBits 64 ((globalTime * 100 : Nat) - (s.now : Int))))
    else done s2

/-- R788: no next start has arrived before the last basic cycle of the matrix cycle. -/
def execMdbTtLate (bus : Fin 8) (s : State) : Res :=
  if s.ttOn bus && !s.fun3Hw && s.flag (MDB_STAT bus) MDB_STAT_TT_MASTER && (s.bus bus).ttNext.isNone then
    done ((s.bump (MDB_TT_STAT bus) MDB_TT_STAT_TT_LATE 1).ttEvent bus 3 0)
  else .next s

/-- A remap stands at a step (R806). -/
def State.remapAt (s : State) (step : Nat) : Bool :=
  s.flag MDB8_REMAP MDB8_REMAP_ACTIVE && s.rd MDB8_REMAP MDB8_REMAP_STEP == step

/-- R766: FOLLOW ends. -/
def execMdbRemapFollowDone (s : State) : Res :=
  if s.remapAt 1 then .next (s.wr MDB8_REMAP MDB8_REMAP_STEP 2) else .next s

/-- R766: the switch at the first bus idle; the error state passes to the spare. -/
def execMdbRemapSwitch (s : State) : Res :=
  let n := s.rd MDB8_REMAP MDB8_REMAP_BUS
  let new := s.rd MDB8_REMAP MDB8_REMAP_TO
  let old := s.rd MDB8_REMAP MDB8_REMAP_FROM
  if s.remapAt 2 && (s.bus n).sending.isNone && decide (s.mdbEst n < 2) then
    let s1 := (((s.setCtrl n new).wr MDB8_REMAP MDB8_REMAP_STEP 3).wr MDB8_REMAP MDB8_REMAP_ACTIVE 0).bump MDB8_REMAP
      MDB8_REMAP_COUNT 1
    done ({ s1 with ctrlWorn := old :: s1.ctrlWorn }.remapEvent n new old false)
  else .next s

/-- R766: no switch point has occurred within 1 s of the end of FOLLOW. -/
def execMdbRemapTimeout (s : State) : Res := if s.remapAt 2 then .next s.dropRemap else .next s

/-- R767, R768: a controller fails. -/
def execMdbCtrlFail (ctrl : Fin 9) (s : State) : Res :=
  if s.ctrlBad.contains ctrl.val then .next s
  else
    let inRemap := s.flag MDB8_REMAP MDB8_REMAP_ACTIVE &&
      (s.rd MDB8_REMAP MDB8_REMAP_TO == ctrl.val || s.rd MDB8_REMAP MDB8_REMAP_FROM == ctrl.val)
    let s0 := { (if inRemap then s.dropRemap else s).unitFailed kMdb ctrl with ctrlBad := ctrl.val :: s.ctrlBad }
    match s.busOfCtrl ctrl with
    | none => done (s0.raiseFor (.mdb 8) F_MDB_CTRL_FAIL [0, 31, 0] 255)
    | some n =>
      match s0.spareCtrls with
      | c :: _ => done (((s0.moveBus n c).remapEvent n c ctrl true).raiseFor (.mdb n) F_MDB_CTRL_FAIL (mdbCaps n 0 31) n)
      | [] => done ((((s0.shedBus n).outageFrom (outBus n)).lossOf 5 n).raiseFor (.mdb n) F_MDB_CTRL_FAIL (mdbCaps n 0 31) n)

end Sys2Proof.Machine
end

