-- ==== Sys2Proof/Machine/Pers.lean ====
section
/-! DEFINITION. Personality and migration commands and events (file 05). Where a command's parameters lie in P0 to P2 the spec
leaves open (log entry 8). -/

namespace Sys2Proof.Machine

/-! ## The key table and the store (R254, R265 to R267) -/

def cmdPersKeyAdd (ring : Nat) (p0 : BitVec 64) (dma : Option (List Byte)) (s : State) : State :=
  s.withDma ring 0x40 p0.toNat dma fun s bs =>
    if 8 ≤ s.nvm.keys.length then s.finish ring 0x40 stTableFull 0
    else { s with nvm := { s.nvm with keys := s.nvm.keys ++ [(Config.sha384 (bs.take 97), false)] } }.finish ring 0x40 stOk 0

/-- R254, R275: a key joins the table of 8, in CONFIG. -/
def execPersKeyAdd (ring : Fin 512) (p0 : BitVec 64) (dma : Option (List Byte)) (s : State) : Res :=
  done (s.command ring 0x40 (· == .config) (cmdPersKeyAdd ring p0 dma))

def cmdPersKeyRevoke (ring : Nat) (p0 : BitVec 64) (s : State) : State :=
  match s.nvm.keys[p0.toNat]? with
  | some (_, false) =>
    { s with nvm := { s.nvm with keys := mapAt s.nvm.keys p0.toNat fun k => (k.1, true) } }.finish ring 0x41 stOk 0
  | _ => s.finish ring 0x41 stNoEntry 0

/-- R254, R275: an entry of the key table is revoked, in CONFIG. -/
def execPersKeyRevoke (ring : Fin 512) (p0 : BitVec 64) (s : State) : Res :=
  done (s.command ring 0x41 (· == .config) (cmdPersKeyRevoke ring p0))

/-- The checks of R255 on a file, in order; OK and the image, or a refusal. -/
def State.checkImage (s : State) (bs : List Byte) : Status × Image :=
  let i := parseImage bs
  if !headerOk i bs.length then (stBadImage, i)
  else if !s.keyOk i.pubKey then (stBadKey, i)
  else if !i.sigOk || !sectionsOk i bs || !declOk i then (stBadImage, i)
  else (stOk, i)

def cmdPersLoad (ring : Nat) (p0 p1 : BitVec 64) (dma : Option (List Byte)) (s : State) : State :=
  s.withDma ring 0x42 p0.toNat dma fun s all =>
    let bs := all.take p1.toNat
    let (st, i) := s.checkImage bs
    if st ≠ stOk then s.finish ring 0x42 st 0
    else if (s.image i.id).isSome then s.finish ring 0x42 stDuplicate 0
    else if 16 ≤ s.pers.images.length ∨ s.unowned.length < i.banksNeeded then s.finish ring 0x42 stStoreFull 0
    else
      let banks := s.unowned.take i.banksNeeded
      let s1 := (s.grantBanks 0x20 banks).storeBanks bs banks
      { s1 with pers := { s1.pers with images := s1.pers.images ++ [{ i with banks := banks }] } }.finish ring 0x42 stOk 0

/-- R255, R265, R266, R267: an image is read, checked and stored. -/
def execPersLoad (ring : Fin 512) (p0 p1 : BitVec 64) (dma : Option (List Byte)) (s : State) : Res :=
  done (s.command ring 0x42 Mode.working (cmdPersLoad ring p0 p1 dma))

def cmdPersDrop (ring : Nat) (p0 : BitVec 64) (s : State) : State :=
  match s.image (p0.toNat % 2 ^ 32) with
  | none => s.finish ring 0x43 stNoEntry 0
  | some i =>
    if (List.range 16).any fun l => (s.slot l).bound && (s.slot l).img == i.id then s.finish ring 0x43 stBound 0
    else
      let s1 := i.banks.foldl (fun t b => t.supHandover b 0) s
      { s1 with pers := { s1.pers with images := s1.pers.images.filter (·.id != i.id) } }.finish ring 0x43 stOk 0

/-- R267, R378: an unbound image leaves the store and its banks. -/
def execPersDrop (ring : Fin 512) (p0 : BitVec 64) (s : State) : Res :=
  done (s.command ring 0x43 Mode.working (cmdPersDrop ring p0))

def cmdPersCaps (ring : Nat) (p0 p1 : BitVec 64) (s : State) : State :=
  match s.image (p0.toNat % 2 ^ 32) with
  | none => s.finish ring 0x44 stNoEntry 0
  | some i => s.writeHost ring 0x44 p1.toNat i.caps 0

/-- R261, R275: the capability records of an image go to a host buffer. -/
def execPersCaps (ring : Fin 512) (p0 p1 : BitVec 64) (s : State) : Res :=
  done (s.command ring 0x44 Mode.working (cmdPersCaps ring p0 p1))

/-! ## Binding (R262, R263, R270 to R273) -/

/-- The slot's resources can be granted: buses and sequencers that no other slot holds, banks and quota (R270, R604, R776,
R835). -/
def State.resourcesFor (s : State) (l : Nat) (i : Image) : Bool :=
  ((List.range 16).all fun k => k == l || (s.slot k).mdb &&& i.mdbUsed == 0 && (s.slot k).psq &&& i.psqUsed == 0) &&
    decide (i.bankNeed ≤ s.unowned.length) && s.quotaFits (s.slotQuota l) i.quota

/-- The binding itself, on the engine chosen. -/
def State.bindSlot (s : State) (ring : Nat) (l : Fin 16) (n : Fin 18) (i : Image) (host : List CapRec) : State :=
  let params := s.paramBlock i host
  let banks := s.unowned.take i.bankNeed
  let s1 := (s.setSlot l { SlotSt.free with
    bound := true, img := i.id, caps := levelWords (capRecs i.caps) host, mdb := i.mdbUsed, psq := i.psqUsed }).setQuota l i.quota
  let s2 := ((s1.grantBanks (0x10 + l) banks).peRegs n i).loadPe n l i params
  let (v, s3) := (s2.startBinding l n).draw 64
  (s3.emit (.told 0x45 ([n.val] ++ banks ++ levelWords (capRecs i.caps) host))).finish ring 0x45 stOk v

def cmdPersBind (ring : Nat) (p0 _p1 p2 : BitVec 64) (dma : Option (List Byte)) (readOk : Bool) (s : State) : State :=
  s.withDma ring 0x45 _p1.toNat dma fun s bs =>
    let l : Fin 16 := Fin.ofNat 16 (bitsOf p0.toNat 35 32)
    match s.image (p0.toNat % 2 ^ 32) with
    | none => s.finish ring 0x45 stNoEntry 0
    | some i =>
      let host := capRecs (bs.take (8 * p2.toNat))
      if (s.slot l).bound then s.finish ring 0x45 stSlotBound 0
      else if !s.resourcesFor l i then s.finish ring 0x45 stNoResource 0
      else if noCommon (capRecs i.caps) host then s.finish ring 0x45 stNoCommon 0
      else if i.paramLen < 4 * (s.paramBlock i host).length then s.finish ring 0x45 stBadDecl 0
      else
        let s1 := if s.pinBroken l then s.breakPin l (s.rd (WADI_SLOT_CFG l) WADI_SLOT_CFG_PIN_ENG) 0 else s
        match s1.placeSlot l false with
        | none => s1.finish ring 0x45 stNoEngine 0
        | some n =>
          if readOk then s1.bindSlot ring l n i host
          else (s1.raiseFor .wadi F_WADI_IMG_MISMATCH [l] l).finish ring 0x45 stNoEngine 0

/-- R262 to R264, R268, R270, R271, R312: a stored image is bound to a slot. `readOk` says that the readback of IMEM and of the
initial data gives the hashes of the image. -/
def execPersBind (ring : Fin 512) (p0 p1 p2 : BitVec 64) (dma : Option (List Byte)) (readOk : Bool) (s : State) : Res :=
  done (s.command ring 0x45 Mode.working (cmdPersBind ring p0 p1 p2 dma readOk))

/-- Proposals that a command of host software excludes (R325). -/
def State.hostAction (s : State) (slot tgt : Nat) : State :=
  { s with wadi := { s.wadi with props := s.wadi.props.map fun p =>
      if p.slot.val = slot ∨ p.tgt.val = tgt then { p with hostAct := true } else p } }

def cmdPersUnbind (ring : Nat) (p0 : BitVec 64) (s : State) : State :=
  let l := p0.toNat % 16
  let x := s.slot l
  if !x.bound || x.unbind.isSome then s.finish ring 0x46 stNotBound 0
  else
    let s1 := (s.hostAction l 32).setSlot l { x with unbind := some ring }
    let moving := match s.pers.mig with | some m => m.slot.val == l | none => false
    match s1.servingPe l with
    | some n => if moving then s1 else s1.peStop n
    | none => s1

/-- R273: a stop request on the slot's engine; the slot is released when it has stopped. -/
def execPersUnbind (ring : Fin 512) (p0 : BitVec 64) (s : State) : Res :=
  done (s.command ring 0x46 Mode.working (cmdPersUnbind ring p0))

/-- R273: BOUNDARY_MAX has passed without a stop point; the unbind is forced. -/
def execPersUnbindTimeout (slot : Fin 16) (s : State) : Res :=
  let moving := match s.pers.mig with | some m => m.slot == slot | none => false
  match (s.slot slot).unbind with
  | some r => if moving then .next s else done (s.unbindNow slot r true)
  | none => .next s

/-! ## Migration (R275 to R296) -/

def Mode.running (m : Mode) : Bool := m == .run || m == .degraded || m == .safe

def cmdMigStart (ring : Nat) (p0 p1 : BitVec 64) (s : State) : State :=
  let l : Fin 16 := Fin.ofNat 16 p0.toNat
  let t := p1.toNat % 32
  match s.slotImage l, s.servingPe l with
  | some i, some src =>
    let s0 := s.hostAction l (if t = 31 then 32 else t)
    if !i.migratable then s.finish ring 0x47 stNotMigratable 0
    else if s.pers.mig.isSome then s.finish ring 0x47 stBusy 0
    else if t = 31 then
      match s.placeSlot l false with
      | some tgt => s0.migBegin l src tgt 0 0 false [ring]
      | none => s.finish ring 0x47 stNoEngine 0
    else if h : t < 18 then
      if s.idlePe ⟨t, h⟩ then s0.migBegin l src ⟨t, h⟩ 0 0 false [ring] else s.finish ring 0x47 stBadTarget 0
    else s.finish ring 0x47 stBadTarget 0
  | _, _ => s.finish ring 0x47 stNotBound 0

/-- R276, R277: a migration starts; its completion is written when it ends. -/
def execMigStart (ring : Fin 512) (p0 p1 : BitVec 64) (s : State) : Res :=
  done (s.command ring 0x47 Mode.running (cmdMigStart ring p0 p1))

def cmdMigAbort (ring : Nat) (s : State) : State :=
  if s.pers.mig.isNone then s.finish ring 0x48 stNotActive 0
  else if s.inBlackout then s.finish ring 0x48 stTooLate 0
  else (s.migAbandon 6).finish ring 0x48 stOk 0

/-- R292: the running migration is abandoned with HOST_ABORT, unless its blackout runs. -/
def execMigAbort (ring : Fin 512) (s : State) : Res := done (s.command ring 0x48 Mode.running (cmdMigAbort ring))

/-- An engine goes to FAILED (R179, R294). -/
def State.retirePe (s : State) (n : Fin 18) : State := s.onPe n fun e => { e with state := .failed, slot := none, stopPend := false }

def cmdEngRetire (ring : Nat) (p0 : BitVec 64) (s : State) : State :=
  let k := p0.toNat % 32
  if h : k < 18 then
    let n : Fin 18 := ⟨k, h⟩
    let e := s.pe n
    if e.state == .failed then s.finish ring 0x49 stRetired 0
    else
      let s0 := s.hostAction e.slotNo n
      let isSrc := match s.pers.mig with | some m => m.src == n | none => false
      let isTgt := match s.pers.mig with | some m => m.tgt == n | none => false
      if isTgt then ((s0.migAbandon 5).retirePe n).finish ring 0x49 stOk 0
      else if e.slot.isNone then (s0.retirePe n).finish ring 0x49 stOk 0
      else
        let s1 := if isSrc && !s.inBlackout then s0.migAbandon 4 else s0.onPe n fun e => { e with stopPend := e.stopPend && isSrc }
        { s1 with wadi := { s1.wadi with retire := s1.wadi.retire ++ [(n, ring)] } }
  else s.finish ring 0x49 stNoEngine 0

/-- R294: an idle engine is retired at once; one that serves a slot is moved from first (R313). -/
def execEngRetire (ring : Fin 512) (p0 : BitVec 64) (s : State) : Res :=
  done (s.command ring 0x49 Mode.working (cmdEngRetire ring p0))

/-- R268, R278, R280: the target's IMEM is loaded and checked, and the first pass copies every line. -/
def execMigPrepareDone (readOk : Bool) (s : State) : Res :=
  match s.pers.mig with
  | none => .next s
  | some m =>
    if m.phase != .prepare then .next s
    else
      match s.slotImage m.slot with
      | none => .next s
      | some i =>
        if !readOk then done ((s.raiseFor .wadi F_WADI_IMG_MISMATCH [m.slot] m.slot).migAbandon 10)
        else
          let s1 := s.onPe m.tgt fun e => { e with imem := e.imem.loadImage i.imem }
          done (((s1.migStat true 2).wr WADI_MIG_DIRTY WADI_MIG_DIRTY_PASS 1).migCopyAll { m with phase := .precopy })

/-- The dirty rate of a pass against the declaration (R260, R344): lines per 10 µs, one line copied every 16 ns. -/
def State.rateReport (s : State) (m : Mig) (copied : Nat) : State :=
  match s.slotImage m.slot with
  | none => s
  | some i =>
    let rate := m.lines.length * 10000 / (16 * max copied 1)
    if i.dirtyRate < rate then s.report 0x67 [m.slot, 2, rate, i.dirtyRate] else s

/-- R281: a pass ends: a stop is requested, a further pass copies the dirty lines, or the migration is abandoned. In STOPWAIT the
copying goes on (R282). -/
def execPrecopyPassEnd (s : State) : Res :=
  match s.pers.mig with
  | none => .next s
  | some m =>
    match m.phase with
    | .prepare => .next s
    | .stopwait => if (s.pe m.src).state == .stopped then .next s else .next (s.migCopy m)
    | .precopy =>
      let pass := s.rd WADI_MIG_DIRTY WADI_MIG_DIRTY_PASS
      let s0 := if pass = 1 ∧ s.rd WADI_MIG_DIRTY WADI_MIG_DIRTY_RETRY = 0 then s.rateReport m 2048 else s
      if m.lines.length ≤ s.stopThr then
        done (((s0.setMig (some { m with phase := .stopwait })).migStat true 3).peStop m.src)
      else if s.passMax ≤ pass then done (s0.migAbandon 2)
      else done ((s0.wr WADI_MIG_DIRTY WADI_MIG_DIRTY_PASS (pass + 1)).migCopy m)

/-- R282: BOUNDARY_MAX passes in STOPWAIT without a stop point. -/
def execMigNoBoundary (s : State) : Res :=
  match s.pers.mig with
  | none => .next s
  | some m => if m.phase == .stopwait && (s.pe m.src).state != .stopped then done (s.migAbandon 1) else .next s

/-- R283, R286 to R290: the source has stopped. `ns` is the length of the blackout or of the pause. -/
def execMigSourceStopped (ns : Fin 5001) (s : State) : Res :=
  match s.pers.mig with
  | none => .next s
  | some m =>
    if m.phase == .stopwait && (s.pe m.src).state == .stopped then
      done (if s.finalMax < m.lines.length then s.migRetry m ns else s.migCommit m ns)
    else .next s

/-- R287: a step of the blackout misses its deadline before the commit; `ns` is the length of the blackout. -/
def execMigDeadlineExpiry (ns : Fin 5001) (s : State) : Res :=
  if s.inBlackout then done ((s.blackout ns).migAbandon 9) else .next s

end Sys2Proof.Machine
end

