-- ==== Sys2Proof/Machine/Sio.lean ====
section
/-! DEFINITION. The commands and events of the safety I/O (file 17). -/

namespace Sys2Proof.Machine

/-! ## Process image (R883 to R890) -/

/-- A byte of flags. -/
def bits8 (f : Nat → Bool) : Nat := sumOf ((List.range 8).map fun i => b2n (f i) * 2 ^ i)

/-- The input block (R885). -/
def State.inputBlock (s : State) : List Byte :=
  let ok := fun (k : Nat) => s.pairEn k && !(s.di (2 * k)).failed && !(s.di (2 * k + 1)).failed &&
    !s.flag (SIO_PAIR_STAT k) SIO_PAIR_STAT_DISC_LATCH
  let b := leBytes 4 s.sio.cntIn ++
    [BitVec.ofNat 8 (bits8 fun k => s.flag (SIO_PAIR_STAT k) SIO_PAIR_STAT_VALUE), BitVec.ofNat 8 (bits8 ok),
      BitVec.ofNat 8 (bits8 fun i => (s.di i).level), BitVec.ofNat 8 (bits8 fun i => (s.di (8 + i)).level),
      BitVec.ofNat 8 (bits8 fun m => (s.dq m).readback), BitVec.ofNat 8 (bits8 fun m => (s.dq m).on),
      BitVec.ofNat 8 (b2n (s.flag SIO_STAT SIO_STAT_L1_OK) + b2n (s.flag SIO_STAT SIO_STAT_L2_OK) * 2 +
        b2n (s.flag SIO_STAT SIO_STAT_SOTE) * 4 + b2n (s.flag SIO_STAT SIO_STAT_COMM_OK) * 8 + s.sstate * 16), 0] ++
    leBytes 8 s.now ++ leBytes 4 (s.reg SIO_CFG_CRC).toNat ++ leBytes 4 (s.sio.cntOut.getD 0)
  b ++ leBytes 4 (crc32c (s.reg SIO_CFG_CRC).toNat b ^^^ 0xFFFFFFFF)

/-- A word of the image area, on behalf of the owner (R883). -/
def State.imgLoad (s : State) (off : Nat) (ecc : Ecc) : Option (List Byte) × State :=
  let o := s.rd SIO_IMG_CFG SIO_IMG_CFG_OWNER
  match s.bankLoad (s.masterOf o) o (s.rd SIO_IMG_CFG SIO_IMG_CFG_BANK) (s.rd SIO_IMG_OFF SIO_IMG_OFF_OFFSET * 64 + off) 8 false ecc with
  | (.data bs, t) => (some bs, t)
  | (_, t) => (none, t)

def State.imgStore (s : State) (off : Nat) (bs : List Byte) : State :=
  let o := s.rd SIO_IMG_CFG SIO_IMG_CFG_OWNER
  (s.bankStore (s.masterOf o) o (s.rd SIO_IMG_CFG SIO_IMG_CFG_BANK) (s.rd SIO_IMG_OFF SIO_IMG_OFF_OFFSET * 64 + off) bs false .ok).2

/-- The output block, if every word could be read. -/
def State.outputBlock (s : State) (ecc : Ecc) : Option (List Byte) × State :=
  [0x28, 0x30, 0x38].foldl (fun a off =>
    match a.1 with
    | none => a
    | some bs =>
      let (w, t) := a.2.imgLoad off .ok
      (w.map fun x => bs ++ x, t)) (s.imgLoad 0x20 ecc)

/-- The outputs of a pair switch on together from off: the start-up window opens (R914). -/
def State.startWindows (s t : State) : State :=
  (List.range 4).foldl (fun u j =>
    if !(s.dq (2 * j)).on && !(s.dq (2 * j + 1)).on && (u.dq (2 * j)).on && (u.dq (2 * j + 1)).on then u.joinWindow j 1 else u) t

/-- An accepted output block (R888). -/
def State.acceptBlock (s : State) (bs : List Byte) : State :=
  let cmds := byteAt bs 4
  let s1 := { s with sio := { s.sio with cntOut := some (ofLe (bs.take 4)) } }.wr SIO_STAT SIO_STAT_COMM_OK 1
  let s2 := s1.allDq fun t m => t.dqCommand m (s1.cmdBit cmds m)
  (s.startWindows s2).sioSync

/-- R884 to R888: one exchange of the image mover. `readback` are the DQ readback levels it samples, `ecc` what the first
word of the output block shows. -/
def execSioImageCycle (readback : BitVec 8) (ecc : Ecc) (s : State) : Res :=
  if s.sstate = 0 then .next s
  else
    let s0 := s.allDq fun t m => t.onDq m fun x => { x with readback := bitOf readback.toNat m }
    let s1 := { s0 with sio := { s0.sio with cntIn := (s0.sio.cntIn + 1) % 2 ^ 32 } }
    let blk := s1.inputBlock
    let s2 := [0, 8, 16, 24].foldl (fun t i => t.imgStore i (slice blk i 8)) s1
    match s2.outputBlock ecc with
    | (none, s3) => done s3
    | (some bs, s3) =>
      let good := crc32c (s3.reg SIO_CFG_CRC).toNat (bs.take 28) ^^^ 0xFFFFFFFF
      if good = ofLe (slice bs 28 4) ∧ s3.sio.cntOut ≠ some (ofLe (bs.take 4)) then done (s3.acceptBlock bs)
      else done (s3.bump SIO_COMM SIO_COMM_REJECT 1)

/-- Communication is lost (R890). -/
def State.commLoss (s : State) : State :=
  let s1 := ((s.wr SIO_STAT SIO_STAT_COMM_OK 0).allDq State.dqOff).bump SIO_COMM SIO_COMM_LOSS 1
  ((s1.raiseSio F_SIO_COMM_LOSS 0).sioDemand F_SIO_COMM_LOSS).sioSync

/-- R890: no output block has been accepted for COMM_TO since the last one. -/
def execSioCommTimeout (s : State) : Res :=
  if s.sstate = 0 ∨ !s.flag SIO_STAT SIO_STAT_COMM_OK then .next s else done s.commLoss

/-- R890: the die-to-die link fails. -/
def execSioLinkFail (s : State) : Res := if s.sstate = 0 then .next s else done s.commLoss

/-! ## Inputs and test pulses (R891 to R901) -/

/-- R891, R892, R898 to R902: a new level of a channel is accepted. -/
def execDiFilterAccept (ch : Fin 16) (level : Bool) (s : State) : Res :=
  if s.sstate = 0 ∨ (s.di ch).level = level then .next s
  else done (((s.setDi ch { s.di ch with level := level }).pairTrack (ch / 2)).sioSync)

/-- R893, R917: a source goes low for its pulse. -/
def execTpPulseStart (src : Fin 4) (s : State) : Res :=
  if s.sstate = 0 ∨ s.sio.stopped ∨ !bitOf (s.rd SIO_TP_CFG SIO_TP_CFG_TP_EN) src ∨ s.sio.pulses.contains src.val then .next s
  else .next ({ s with sio := { s.sio with pulses := s.sio.pulses ++ [src.val] } }.setPin ("TP" ++ toString src.val) false)

/-- A fed channel after a pulse of its own source (R894, R897). -/
def State.ownPulse (s : State) (ch : Nat) (reached : Bool) : State :=
  let x := s.di ch
  if !x.level then s
  else if reached then s.setDi ch { x with missed := 0, failed := x.failed && !x.acked, acked := false }
  else if 2 ≤ x.missed + 1 then (s.setDi ch { x with missed := 0 }).diFail ch F_SIO_DI_TEST
  else s.setDi ch { x with missed := x.missed + 1 }

/-- A channel of another source after a pulse: `low` says it read 0 during the pulse and 1 on both sides (R895). -/
def State.crossPulse (s : State) (ch src : Nat) (low : Bool) : State :=
  let k := ch * 4 + src
  let n := SMap.get (fun _ => 0) s.sio.cross k
  let put := fun (t : State) (v : Nat) => { t with sio := { t.sio with cross := SMap.set (fun _ => 0) t.sio.cross k v } }
  if !low then put s 0 else if 2 ≤ n + 1 then (put s 0).diFail ch F_SIO_DI_XSHORT else put s (n + 1)

/-- R894 to R897: a test pulse ends. `reached` are the channels whose raw level reached 0 within it, `lowOutside` those of
other sources that read 0 during it and 1 on both sides, `readbackOk` says the source read back low in the pulse and high
outside it. -/
def execTpPulseEnd (src : Fin 4) (reached lowOutside : BitVec 16) (readbackOk : Bool) (s : State) : Res :=
  if !s.sio.pulses.contains src.val then .next s
  else
    let s1 := { s with sio := { s.sio with pulses := s.sio.pulses.filter (· != src.val) } }.setPin ("TP" ++ toString src.val) true
    let s2 := (List.range 16).foldl (fun t ch =>
      match t.feed ch with
      | some f => if f = src.val then t.ownPulse ch (bitOf reached.toNat ch) else t.crossPulse ch src (bitOf lowOutside.toNat ch)
      | none => t) s1
    let n : Nat := SMap.get (fun _ => 0) s2.sio.srcMiss src
    let put := fun (v : Nat) => { s2 with sio := { s2.sio with srcMiss := SMap.set (fun _ => 0) s2.sio.srcMiss src v } }
    let s3 :=
      if readbackOk then put 0
      else if n + 1 < 2 then put (n + 1)
      else
        (List.range 16).foldl (fun t ch =>
          if t.feed ch == some src.val && !(t.di ch).failed then
            (t.setDi ch { t.di ch with failed := true, acked := false }).pairEvent (ch / 2) 3 else t)
          ((put 0).raiseSio F_SIO_TP_FAULT src)
    done s3.sioSync

/-- A boundary of the 1 ms tick at a pair (R899). -/
def State.pairTick (s : State) (k : Nat) : State :=
  let x := s.pair k
  if s.m10 || !s.pairEn k || !x.dis then s
  else
    let s1 := s.setPair k { x with count := x.count + 1 }
    if x.count + 1 = s.discOf k ∧ !s.flag (SIO_PAIR_STAT k) SIO_PAIR_STAT_DISC_LATCH then
      let s2 := ((s1.wr (SIO_PAIR_STAT k) SIO_PAIR_STAT_DISC_LATCH 1).wr (SIO_PAIR_STAT k) SIO_PAIR_STAT_LAST
        (min 255 (x.count + 1))).setPair k { x with count := x.count + 1, both := false }
      (s2.raiseSio F_SIO_DISC k).pairEvent k 1
    else s1

/-- R899: the 1 ms tick. -/
def execSioTick (s : State) : Res :=
  if s.sstate = 0 then .next s else done (((List.range 8).foldl State.pairTick s).sioSync)

/-! ## Outputs (R903 to R912) -/

/-- The channels of a test: a joined pair is tested together at the phase of DQ2j (R913). -/
def State.testGroup (s : State) (m : Nat) : List Nat :=
  if s.sio.joined.contains (m / 2) then (if m % 2 = 0 then [m, m + 1] else []) else [m]

/-- An output is switched off for its test; a worn half is retired meanwhile (R905, R911). -/
def State.dqTest (s : State) (m : Nat) : State :=
  let s1 := s.onDq m fun x => { x with on := false, test := true }
  let s2 := if s1.worn kDq (2 * m) then s1.halfOut m true true else s1
  if s2.worn kDq (2 * m + 1) then s2.halfOut m false true else s2

/-- R905: the test pulse of an output that is on. -/
def execDqTestStart (m : Fin 8) (s : State) : Res :=
  if !(s.dq m).on || (s.testGroup m).isEmpty then .next s
  else done (((s.testGroup m).foldl State.dqTest s).sioSync)

/-- The halves' currents in mA after the turn-on at the end of a test (R910, R911). -/
def State.halfCurrents (s : State) (m ia ib : Nat) : State :=
  let x := s.dq m
  if x.outA || x.outB then s
  else
    let low := fun (i : Nat) => decide (50 < ia + ib) && decide (i * 4 < ia + ib)
    let y : SioDq := { x with lowA := if low ia then x.lowA + 1 else 0, lowB := if low ib then x.lowB + 1 else 0 }
    let s1 := s.setDq m y
    let s2 := if 3 ≤ y.lowA then s1.halfOut m true false else s1
    if 3 ≤ y.lowB then s2.halfOut m false false else s2

/-- The end of a test at one output (R905, R909). -/
def State.testEnd (s : State) (m : Nat) (fell : Bool) (ia ib : Nat) : State :=
  let x := s.dq m
  if fell then (s.setDq m { x with test := false, on := x.fail == 0 && !x.lost, missed := 0 }).halfCurrents m ia ib
  else if 2 ≤ x.missed + 1 then (s.setDq m { x with missed := 0 }).dqFail m 7 F_SIO_DQ_STUCK
  else (s.setDq m { x with test := false, on := x.fail == 0 && !x.lost, missed := x.missed + 1 }).halfCurrents m ia ib

/-- Another output that is on and read low during a test is tied to the tested one (R908). -/
def State.tied (s : State) (m a : Nat) : State :=
  ((s.dqFail (min m a) 8 F_SIO_DQ_XSHORT).dqFail (max m a) 8 F_SIO_DQ_XSHORT)

/-- R905 to R911: a test ends. `fell` are the outputs whose readback fell low before its end, `low` the outputs that read low
during it, `ha` and `hb` the currents of the halves of each output. -/
def execDqTestEnd (m : Fin 8) (fell low : BitVec 8) (ha hb : List Nat) (s : State) : Res :=
  if !(s.dq m).test then .next s
  else
    let group := (s.testGroup m).filter fun k => (s.dq k).test
    let g := if group.isEmpty then [m.val] else group
    let shorted := (List.range 8).filter fun a => !g.contains a && (s.dq a).on && bitOf low.toNat a
    let s1 := g.foldl (fun t k => t.testEnd k (bitOf fell.toNat k) (ha.getD k 0) (hb.getD k 0)) s
    done ((shorted.foldl (fun t a => t.tied m a) s1).sioSync)

/-- R904: OFF_SETTLE after an off command the readback is `high`. -/
def execDqOffSettleCheck (m : Fin 8) (high : Bool) (s : State) : Res :=
  let x := s.dq m
  if x.on || x.test || x.fail != 0 then .next s
  else
    let s1 := s.setDq m { x with readback := high }
    if high then done ((s1.dqFail m 7 F_SIO_DQ_STUCK).sioSync) else .next s1

/-- An output trips (R903). -/
def State.trip (s : State) (m code src : Nat) : State :=
  ((s.onDq m fun x => { x with on := false, test := false, trip := code, cooling := true, wait := true, seen := false }).raiseSio
    src m).sioSync

/-- R903: an output has been at its current limit for 5 ms. -/
def execDqOverloadTrip (m : Fin 8) (s : State) : Res :=
  if !(s.dq m).on then .next s else done (s.trip m 4 F_SIO_DQ_OVERLOAD)

/-- R903: an output's junction has reached 170 °C. -/
def execDqThermalTrip (m : Fin 8) (s : State) : Res :=
  if !(s.dq m).on then .next s else done (s.trip m 5 F_SIO_DQ_THERMAL)

/-- R903: 100 ms after an overload trip. -/
def execDqOverloadRestartTimeout (m : Fin 8) (s : State) : Res :=
  .next (s.onDq m fun x => if x.trip = 4 then { x with cooling := false } else x)

/-- R903: the junction has fallen to 155 °C. -/
def execDqThermalCooled (m : Fin 8) (s : State) : Res :=
  .next (s.onDq m fun x => if x.trip = 5 then { x with cooling := false } else x)

/-! ## Supplies (R916, R917) -/

/-- R916: L2+ falls to a voltage in 0.1 V. -/
def execL2Sag (tenths : Fin 512) (s : State) : Res :=
  let s0 := s.wr SIO_SUPPLY SIO_SUPPLY_L2 tenths
  let s1 := if tenths.val < 192 ∧ s0.flag SIO_STAT SIO_STAT_L2_OK then
      (s0.wr SIO_STAT SIO_STAT_L2_OK 0).raiseSio F_SIO_L2_LOW 0 else s0
  if tenths.val < 168 ∧ !s1.flag SIO_STAT SIO_STAT_L2_LATCH then
    let s2 := ((s1.allDq State.dqHold).wr SIO_STAT SIO_STAT_L2_LATCH 1).raiseSio F_SIO_L2_OFF 0
    done ((s2.event .sio 0x53 6 (2 ^ 31 + s2.rd SIO_SUPPLY SIO_SUPPLY_L1 * 2 ^ 16 + tenths.val) 0).sioSync)
  else done s1.sioSync

/-- R916: L2+ has stayed above 19.2 V for 100 ms. -/
def execL2Recovered (tenths : Fin 512) (s : State) : Res :=
  if tenths.val < 192 then .next s
  else done (((s.wr SIO_SUPPLY SIO_SUPPLY_L2 tenths).wr SIO_STAT SIO_STAT_L2_OK 1).sioSync)

/-- R917: L1+ falls to a voltage in 0.1 V. -/
def execL1Sag (tenths : Fin 512) (s : State) : Res :=
  let s0 := s.wr SIO_SUPPLY SIO_SUPPLY_L1 tenths
  let s1 := if tenths.val < 192 ∧ s0.flag SIO_STAT SIO_STAT_L1_OK then
      (s0.wr SIO_STAT SIO_STAT_L1_OK 0).raiseSio F_SIO_L1_LOW 0 else s0
  let s2 := if tenths.val < 168 ∧ !s1.sio.stopped then
      ({ s1 with sio := { s1.sio with stopped := true, pulses := [] } }).setPin "SOTE" false else s1
  done s2.sioSync

/-- R917: L1+ has been above 19.2 V for 100 ms. -/
def execL1Recovered (tenths : Fin 512) (s : State) : Res :=
  if tenths.val < 192 then .next s
  else
    let s1 := (s.wr SIO_SUPPLY SIO_SUPPLY_L1 tenths).wr SIO_STAT SIO_STAT_L1_OK 1
    let s2 := if s1.sio.stopped then
        ({ s1 with sio := { s1.sio with stopped := false } }).setPin "SOTE" (s1.flag SIO_STAT SIO_STAT_SOTE) else s1
    done s2.sioSync

/-! ## Reset and INIT (R880, R882) -/

/-- R880: the die resets itself: `clock` for the coarse clock check, else its self-test or watchdog. -/
def execSafetyDomainReset (clock : Bool) (s : State) : Res :=
  let src := if clock then F_SIO_CLK_FAULT else F_SIO_INTERNAL
  done (((s.raiseSio src 0).sioReset src).later (.safe 5))

/-- The configuration at the end of INIT; a copy that fails is rewritten from the other (R882). -/
def State.sioCopies (s : State) (okA okB : Bool) : State :=
  let n := s.nvm.sio
  let a := { n.a with good := okA && n.a.good }
  let b := { n.b with good := okB && n.b.good }
  let n1 := if a.good then { n with a := a, b := { a with good := true } } else if b.good then { n with a := b, b := b }
    else { n with a := a, b := b }
  { s with nvm := { s.nvm with sio := n1 } }

/-- R880, R882: INIT ends. `okA` and `okB` say whether the NVM copies verify, `badDi` and `badDq` which channels fail their
test. -/
def execSioInitDone (okA okB : Bool) (badDi : BitVec 16) (badDq : BitVec 8) (s : State) : Res :=
  if s.sstate ≠ 0 then .next s
  else
    let s1 := (if s.m10 then s else s.sioCopies okA okB).sioReload.sioLogShow
    let bad := !s.m10 && s1.sioSaved.isNone
    let s2 := { s1 with sio := { s1.sio with badCfg := bad } }.wr SIO_STAT SIO_STAT_PWD_SET (b2n s1.nvm.sio.pwd.isSome)
    let s3 := if bad then s2.raiseSio F_SIO_CFG_CRC 0 else s2
    let s4 := (List.range 16).foldl (fun t ch => if bitOf badDi.toNat ch then t.diFail ch F_SIO_DI_TEST else t) s3
    let s5 := (List.range 8).foldl (fun t m => if bitOf badDq.toNat m then t.dqFail m 7 F_SIO_DQ_STUCK else t) s4
    done ((s5.sioTo 1 0xF).sioFollow)

/-! ## Configuration and commands (R914, R921 to R929) -/

/-- A safety configuration register may be written (R876, R923). -/
def State.sioMayWrite (s : State) : Bool := s.mode == .config && (s.m10 || s.flag SIO_STAT SIO_STAT_UNLOCKED)

/-- A host write of the register at an offset of the safety configuration. -/
def State.sioCfgWrite (s : State) (off : Nat) (v : Word) : State :=
  if s.sioMayWrite then ((s.regWrite off v).sioPend).sioSync else s.raiseSio F_SIO_CFG_WRITE 0

/-- R923: a write of a safety configuration register, numbered in ascending offset order. -/
def execSioCfgWrite (port : Fin 2) (reg : Fin 13) (value : Word) (s : State) : Res :=
  let off := sioCfgOffs.getD reg 0
  onMw0 s port .sio off <| done (s.sioCfgWrite off value)

/-- A safety command that the AZ-9416-M10 does not accept (R493, R876). -/
def State.safetyCmd (s : State) (ring code : Nat) (modes : Mode → Bool) (body : State → State) : State :=
  if s.m10 && s.canTake ring then (s.take ring).finish ring code stUnsupported 0 else s.command ring code modes body

def configOnly (m : Mode) : Bool := m == .config

/-- The characters of a password record, if it is well formed (R924). -/
def pwdOf (bs : List Byte) : Option (List Byte) :=
  let n := byteAt bs 0
  let cs := slice bs 1 n
  if 8 ≤ n ∧ n ≤ 32 ∧ cs.length = n ∧ cs.all (fun c => decide (0x21 ≤ c.toNat ∧ c.toNat ≤ 0x7E)) then some cs else none

/-- A password against the stored one (R924). -/
def State.pwdOk (s : State) (cs : List Byte) : Bool :=
  match s.nvm.sio.pwd with
  | some (salt, h) => Config.sha384 (salt ++ cs) == h
  | none => true

/-- A wrong password (R925). -/
def State.wrongPwd (s : State) : State :=
  let n := s.sio.wrongPwd + 1
  { s with sio := { s.sio with wrongPwd := n, lockout := decide (5 ≤ n) } }.raiseSio F_SIO_PWD_FAIL 0

def State.rightPwd (s : State) : State := { s with sio := { s.sio with wrongPwd := 0 } }

/-- The body of SIO_UNLOCK (R925). -/
def State.cmdSioUnlock (s : State) (ring addr : Nat) (dma : Option (List Byte)) : State :=
  if s.nvm.sio.pwd.isNone then s.finish ring 0xA0 stBadState 0
  else if s.sio.lockout then s.finish ring 0xA0 stRefused 0
  else s.withDma ring 0xA0 addr dma fun t bs =>
    match pwdOf bs with
    | none => t.finish ring 0xA0 stBadParam 0
    | some cs =>
      if t.pwdOk cs then (t.rightPwd.wr SIO_STAT SIO_STAT_UNLOCKED 1).finish ring 0xA0 stOk 0
      else t.wrongPwd.finish ring 0xA0 stBadParam 0

/-- R925: the safety configuration is unlocked with a password. -/
def execSioUnlock (ring : Fin 512) (p0 : BitVec 64) (dma : Option (List Byte)) (s : State) : Res :=
  done (s.safetyCmd ring 0xA0 configOnly fun t => t.cmdSioUnlock ring p0.toNat dma)

/-- The body of SIO_LOCK (R926). -/
def State.cmdSioLock (s : State) (ring : Nat) : State :=
  if !s.flag SIO_STAT SIO_STAT_UNLOCKED then s.finish ring 0xA1 stBadState 0 else s.sioRelock.finish ring 0xA1 stOk 0

/-- R926: the configuration is locked and reloaded. -/
def execSioLock (ring : Fin 512) (s : State) : Res := done (s.safetyCmd ring 0xA1 configOnly fun t => t.cmdSioLock ring)

/-- The checks of SIO_COMMIT on the edited configuration (R927). -/
def State.commitOk (s : State) (ver crc : Nat) : Bool :=
  let en := s.rd SIO_TP_CFG SIO_TP_CFG_TP_EN
  let cyc := max 1 (s.rd SIO_IMG_CFG SIO_IMG_CFG_CYCLE)
  crc == (s.reg SIO_PEND_CRC).toNat && decide ((s.reg SIO_CFG_VER).toNat < ver) &&
    ((List.range 16).all fun ch => match s.feed ch with | some f => bitOf en f | none => true) &&
    decide (cyc ≤ 2 * s.rd SIO_IMG_OFF SIO_IMG_OFF_COMM_TO)

/-- The body of SIO_COMMIT (R927, R928). -/
def State.cmdSioCommit (s : State) (ring p0 p1 : Nat) : State :=
  let ver := p0 % 2 ^ 32
  if !s.flag SIO_STAT SIO_STAT_UNLOCKED then s.finish ring 0xA2 stBadState 0
  else if !s.commitOk ver (p1 % 2 ^ 32) then s.finish ring 0xA2 stBadParam 0
  else
    let c : SioCopy := ⟨s.sioWords, ver, true⟩
    let old := (s.reg SIO_CFG_VER).toNat
    let s1 := { s with nvm := { s.nvm with sio := { s.nvm.sio with a := c, b := c } }, sio := { s.sio with badCfg := false } }
    let s2 := s1.sioLog 1 (s.ring ring).port (cfgCrc c.words) old ver
    let s3 := ((s2.setReg SIO_CFG_CRC (BitVec.ofNat 32 (cfgCrc c.words))).setReg SIO_CFG_VER (BitVec.ofNat 32 ver)).wr SIO_STAT
      SIO_STAT_UNLOCKED 0
    s3.sioSync.finish ring 0xA2 stOk 0

/-- R927: the edited configuration is written to both NVM copies. -/
def execSioCommit (ring : Fin 512) (p0 p1 : BitVec 64) (s : State) : Res :=
  done (s.safetyCmd ring 0xA2 configOnly fun t => t.cmdSioCommit ring p0.toNat p1.toNat)

/-- A salt of 16 random bytes (R924): a free value. -/
def State.salt (s : State) : List Byte × State :=
  let (a, s1) := s.draw 64
  let (b, s2) := s1.draw 64
  (leBytes 8 a ++ leBytes 8 b, s2)

/-- The body of SIO_PWD_SET (R924, R925, R928). -/
def State.cmdSioPwdSet (s : State) (ring addr : Nat) (dma : Option (List Byte)) : State :=
  if s.sio.lockout then s.finish ring 0xA3 stRefused 0
  else s.withDma ring 0xA3 addr dma fun t bs =>
    match pwdOf bs, pwdOf (bs.drop 33) with
    | old, some new =>
      let okOld := t.nvm.sio.pwd.isNone || (match old with | some cs => t.pwdOk cs | none => false)
      if okOld then
        let (salt, t1) := t.rightPwd.salt
        let t2 := { t1 with nvm := { t1.nvm with sio := { t1.nvm.sio with pwd := some (salt, Config.sha384 (salt ++ new)) } } }
        let v := (t2.reg SIO_CFG_VER).toNat
        ((t2.sioLog 2 (t2.ring ring).port (t2.reg SIO_CFG_CRC).toNat v v).wr SIO_STAT SIO_STAT_PWD_SET 1).finish ring 0xA3 stOk 0
      else t.wrongPwd.finish ring 0xA3 stBadParam 0
    | _, none => t.finish ring 0xA3 stBadParam 0

/-- R924: a new safety password. -/
def execSioPwdSet (ring : Fin 512) (p0 : BitVec 64) (dma : Option (List Byte)) (s : State) : Res :=
  done (s.safetyCmd ring 0xA3 configOnly fun t => t.cmdSioPwdSet ring p0.toNat dma)

/-- The recovery window opens for pairs that are commanded on (R914). -/
def State.recoveryWindows (s : State) : State :=
  (List.range 4).foldl (fun t j =>
    if (t.dq (2 * j)).cmd && (t.dq (2 * j + 1)).cmd then t.joinWindow j 3 else t) s

/-- The body of SIO_ACK (R897, R909, R921): `high` are the outputs that read back high. -/
def State.cmdSioAck (s : State) (ring crc : Nat) (high : Nat) : State :=
  if crc % 2 ^ 32 ≠ (s.reg SIO_CFG_CRC).toNat then s.finish ring 0xA4 stBadParam 0
  else if s.sstate = 0 ∨ s.sio.badCfg ∨ !s.flag SIO_STAT SIO_STAT_COMM_OK ∨ !s.flag SIO_STAT SIO_STAT_L1_OK ∨
      ((List.range 8).any fun m => bitOf high m && !(s.dq m).on && !(s.dq m).test) then s.finish ring 0xA4 stBadState 0
  else
    let s1 := (List.range 16).foldl (fun t ch =>
      let x := t.di ch
      if x.failed then t.setDi ch { x with failed := (t.feed ch).isSome, acked := (t.feed ch).isSome, missed := 0 } else t) s
    let s2 := s1.allDq fun t m => t.onDq m fun x =>
      if x.fail ≠ 0 then { x with fail := 0, missed := 1, wait := true, seen := false } else x
    (((s2.wr SIO_STAT SIO_STAT_ACK_OK 1).recoveryWindows).sioSync).finish ring 0xA4 stOk 0

/-- R921: failed channels are cleared and ACK_OK is set. -/
def execSioAck (ring : Fin 512) (p0 : BitVec 64) (high : BitVec 8) (s : State) : Res :=
  done (s.safetyCmd ring 0xA4 Mode.working fun t => t.cmdSioAck ring p0.toNat high.toNat)

/-- The body of SIO_OUT_ENABLE (R916). -/
def State.cmdSioOutEnable (s : State) (ring : Nat) : State :=
  if !s.flag SIO_STAT SIO_STAT_L2_OK then s.finish ring 0xA5 stBadState 0
  else
    let s1 := (s.wr SIO_STAT SIO_STAT_L2_LATCH 0).allDq fun t m => if (t.dq m).on then t else t.dqHold m
    (s1.recoveryWindows.sioSync).finish ring 0xA5 stOk 0

/-- R916: the latch of a supply sag is cleared. -/
def execSioOutEnable (ring : Fin 512) (s : State) : Res := done (s.command ring 0xA5 Mode.working fun t => t.cmdSioOutEnable ring)

/-- The body of SIO_LOG_READ (R929). -/
def State.cmdSioLogRead (s : State) (ring p0 p1 p2 : Nat) : State :=
  let n := p1 % 512
  if n < 1 ∨ 256 < n then s.finish ring 0xA6 stBadParam 0
  else s.writeHost ring 0xA6 p2 ((s.nvm.sio.log.reverse.drop (p0 % 256)).take n).flatten 0

/-- R929: change-log entries go to host memory, newest first. -/
def execSioLogRead (ring : Fin 512) (p0 p1 p2 : BitVec 64) (s : State) : Res :=
  done (s.command ring 0xA6 Mode.working fun t => t.cmdSioLogRead ring p0.toNat p1.toNat p2.toNat)

/-- The body of SIO_TEST (R914, R915, R929). -/
def State.cmdSioTest (s : State) (ring p0 : Nat) : State :=
  let outs := (List.range 8).filter fun m => bitOf p0 m
  let pairs := (List.range 4).filter fun j => bitOf p0 (8 + j)
  if s.sstate ≠ 2 ∨ (outs.any fun m => !(s.dq m).on) ∨ (pairs.any fun j => !(s.dq (2 * j)).on || !(s.dq (2 * j + 1)).on) then
    s.finish ring 0xA7 stBadState 0
  else
    let s1 := pairs.foldl (fun t j =>
      if t.joinAble j then t.joinWindow j 2 else t.raiseSio F_SIO_PAR_WINDOW j) s
    ((outs.foldl State.dqTest s1).sioSync).finish ring 0xA7 stOk 0

/-- R929: outputs and join switches are tested at once. -/
def execSioTest (ring : Fin 512) (p0 : BitVec 64) (s : State) : Res :=
  done (s.command ring 0xA7 Mode.working fun t => t.cmdSioTest ring p0.toNat)

/-- R926: 600 s without a configuration write. -/
def execSioUnlockTimeout (s : State) : Res := if s.m10 then .next s else done s.sioRelock

/-- R925: the refusal after five wrong passwords ends. -/
def execPwdLockoutEnd (s : State) : Res :=
  .next { s with sio := { s.sio with lockout := false, wrongPwd := if s.sio.lockout then 0 else s.sio.wrongPwd } }

/-- R922: ACK_OK clears after 10 s. -/
def execAckOkTimeout (s : State) : Res := .next (s.wr SIO_STAT SIO_STAT_ACK_OK 0)

/-- R914: a join window ends. -/
def execParStartExpiry (pair : Fin 4) (s : State) : Res :=
  done ({ s with sio := { s.sio with windows := SMap.set (fun _ => 0) s.sio.windows pair 0 } }.sioSync)

end Sys2Proof.Machine
end

