-- ==== Sys2Proof/Machine/Swc.lean ====
section
/-! DEFINITION. The commands and events of the switch core (file 11). -/

namespace Sys2Proof.Machine

/-- R588, R589: one queued learn action is applied or reported. -/
def execLearnActionApply (s : State) : Res :=
  match s.swc.learnQ with
  | [] => .next s
  | a :: rest => done ({ s with swc := { s.swc with learnQ := rest } }.applyLearn a)

/-- What a visit of the ageing scan does to an entry (R590). -/
def ageEntry (e : BitVec 256) : BitVec 256 :=
  if !entValid e || entStatic e then e
  else if entF e 250 250 = 1 then entPut (entPut e 250 250 0) 249 248 0
  else if entF e 249 248 < 2 then entPut e 249 248 (entF e 249 248 + 1)
  else entPut e 255 255 0

/-- R590: the ageing scan visits 256 entries. -/
def execAgeingScanStep (s : State) : Res :=
  if !s.flag SWC_AGE_CFG SWC_AGE_CFG_EN || s.rd (WADI_FUNC 1) WADI_FUNC_CUR == 1 then .next s
  else
    let lo := s.swc.agePos
    let here := s.swc.fct.filter fun e => decide (lo ≤ e.1) && decide (e.1 < lo + 256)
    let s1 := here.foldl (fun t e => t.setFct e.1 (ageEntry e.2)) s
    done { s1 with swc := { s1.swc with agePos := (lo + 256) % 32768 } }

/-- The bits of an entry that must be 0 (R583): with OVERRIDE and IN_MASK in an exact entry. -/
def entReserved (exact : Bool) (e : BitVec 256) : Bool :=
  entF e 246 240 != 0 || entF e 186 146 != 0 || (exact && (entF e 247 247 != 0 || entF e 145 128 != 0))

/-- The entry that 32 bytes spell (R583). -/
def entOf (bs : List Byte) : BitVec 256 := BitVec.ofNat 256 (ofLe (bs.take 32))

/-- The body of FCT_ADD (R592). -/
def cmdFctAdd (ring : Nat) (p0 : BitVec 64) (dma : Option (List Byte)) (s : State) : State :=
  if s.rd (WADI_FUNC 2) WADI_FUNC_CUR = 1 then s.finish ring 0x81 stBadState 0
  else s.withDma ring 0x81 p0.toNat dma fun t bs =>
    let e := entOf bs
    if entReserved true e || !entValid e then t.finish ring 0x81 stBadParam 0
    else
      match t.place e with
      | (some i, t1) => t1.finish ring 0x81 stOk i
      | (none, t1) => t1.finish ring 0x81 stTableFull 0

/-- R592: FCT_ADD places an exact entry. -/
def execFctAdd (ring : Fin 512) (p0 : BitVec 64) (dma : Option (List Byte)) (s : State) : Res :=
  done (s.command ring 0x81 Mode.working (cmdFctAdd ring p0 dma))

/-- The body of FCT_DEL (R593). -/
def cmdFctDel (ring : Nat) (p0 : BitVec 64) (dma : Option (List Byte)) (s : State) : State :=
  if s.rd (WADI_FUNC 2) WADI_FUNC_CUR = 1 then s.finish ring 0x82 stBadState 0
  else s.withDma ring 0x82 p0.toNat dma fun t bs =>
    let e := entOf bs
    match t.exactHit ⟨entF e 254 252, entF e 127 0⟩ with
    | some i => ((t.setFct i 0).setShadow i 0).finish ring 0x82 stOk i
    | none => t.finish ring 0x82 stNoEntry 0

/-- R593: FCT_DEL clears the exact entry of a key. -/
def execFctDel (ring : Fin 512) (p0 : BitVec 64) (dma : Option (List Byte)) (s : State) : Res :=
  done (s.command ring 0x82 Mode.working (cmdFctDel ring p0 dma))

/-- The bytes FCT_READ returns for one index (R593). -/
def State.fctBytes (s : State) (i : Nat) : List Byte :=
  if i < 32768 then leBytes 32 (s.fctAt i).toNat
  else leBytes 32 (s.ternAt (i - 32768)).1.toNat ++ leBytes 16 (s.ternAt (i - 32768)).2.toNat

/-- The body of FCT_READ. -/
def cmdFctRead (ring : Nat) (p0 p1 p2 : BitVec 64) (s : State) : State :=
  let (i, k) := (p0.toNat, p1.toNat)
  if k = 0 ∨ 4096 < k ∨ 33792 < i + k then s.finish ring 0x83 stBadParam 0
  else s.writeHost ring 0x83 p2.toNat ((List.range k).map fun j => s.fctBytes (i + j)).flatten 0

/-- R593: FCT_READ copies entries to host memory. -/
def execFctRead (ring : Fin 512) (p0 p1 p2 : BitVec 64) (s : State) : Res :=
  done (s.command ring 0x83 Mode.working (cmdFctRead ring p0 p1 p2))

/-- The body of FCT_WRITE. -/
def cmdFctWrite (ring : Nat) (p0 p1 : BitVec 64) (dma : Option (List Byte)) (s : State) : State :=
  let i := p0.toNat
  if 33792 ≤ i then s.finish ring 0x84 stBadParam 0
  else if i < 32768 ∧ s.rd (WADI_FUNC 2) WADI_FUNC_CUR = 0 then s.finish ring 0x84 stBadState 0
  else s.withDma ring 0x84 p1.toNat dma fun t bs =>
    let e := entOf bs
    if entReserved (decide (i < 32768)) e then t.finish ring 0x84 stBadParam 0
    else if i < 32768 then (t.setFct i e).finish ring 0x84 stOk i
    else (t.setTern (i - 32768) (e, BitVec.ofNat 128 (ofLe (slice bs 32 16)))).finish ring 0x84 stOk i

/-- R593: FCT_WRITE writes one entry at an index. -/
def execFctWrite (ring : Fin 512) (p0 p1 : BitVec 64) (dma : Option (List Byte)) (s : State) : Res :=
  done (s.command ring 0x84 Mode.working (cmdFctWrite ring p0 p1 dma))

/-- The body of FCT_FENCE: it completes when the fence ends, or with BUSY (R596, R597). -/
def cmdFctFence (ring : Nat) (s : State) : State :=
  match s.startFence (some ring) with
  | (true, t) => t.finish ring 0x85 stBusy t.fenceValue
  | (false, t) => t

/-- R596: FCT_FENCE. -/
def execFctFence (ring : Fin 512) (s : State) : Res := done (s.command ring 0x85 Mode.working (cmdFctFence ring))

/-- R596: a host write of SWC_FCT_FENCE.GO. -/
def execSwcFctFence (port : Fin 2) (s : State) : Res :=
  onMw0 s port .swc SWC_FCT_FENCE <| done (s.startFence none).2

/-- The frames of every generation but the present one are gone (R596). -/
def State.fenceClear (s : State) : Bool :=
  (List.range 16).all fun g => g == s.rd SWC_FCT_FENCE SWC_FCT_FENCE_GEN || s.genCount g == 0

/-- R596: the fence ends with DONE. -/
def execFenceDone (s : State) : Res :=
  if s.flag SWC_FCT_FENCE SWC_FCT_FENCE_BUSY && s.fenceClear then done (s.endFence 1) else .next s

/-- R597: BUSY has stayed set for FENCE_MAX. -/
def execFenceTimeout (s : State) : Res :=
  if s.flag SWC_FCT_FENCE SWC_FCT_FENCE_BUSY then done ((s.endFence 2).raise .swc F_SWC_FENCE_TIMEOUT [0, 0, 0]) else .next s

/-- R598: the copy of a sub-array is complete, the remap is recorded in NVM and the spare serves. -/
def execFctSubarrayRemap (s : State) : Res :=
  match s.swc.subCopy with
  | none => .next s
  | some c =>
    done { s with
      swc := { s.swc with
        subCopy := none
        subMap := SMap.set id s.swc.subMap c.sub c.spare
        subBad := s.swc.subBad ++ [s.subPhys c.sub] }
      nvm := { s.nvm with subMaps := s.nvm.subMaps ++ [(c.sub, c.spare)] } }

/-- R599: a sub-array fails with no spare left; in hardware mode of function 2 its shadow entries are placed elsewhere. -/
def execFctSubarrayLost (sub : Fin 16) (s : State) : Res :=
  if !s.spareSubs.isEmpty || s.subLost (2048 * sub) then .next s
  else
    let s1 := (s.unitFailed kFct (s.subPhys sub)).wr SWC_FCT_STAT SWC_FCT_STAT_LOST (setBit (s.rd SWC_FCT_STAT SWC_FCT_STAT_LOST) sub true)
    let inSub := fun (e : Nat × BitVec 256) => e.1 / 2048 == sub.val
    let mine := s.swc.shadow.filter inSub
    let s2 := { s1 with swc := { s1.swc with
      fct := s1.swc.fct.filter fun e => !inSub e, shadow := s1.swc.shadow.filter fun e => !inSub e } }
    let (left, s3) := if s.rd (WADI_FUNC 2) WADI_FUNC_CUR = 1 then (0, s2)
      else mine.foldl (fun (a : Nat × State) e =>
        match a.2.place e.2 with
        | (some _, t) => (a.1, t)
        | (none, t) => (a.1 + 1, t)) (0, s2)
    done (((s3.event .swc 0x29 4 (sub * 2 ^ 16 + left % 2 ^ 16) 0).lossOf 3 sub).raise .swc F_SWC_SUB_LOST [sub, 0, 0])

/-- A write of SWC_PORTn_CFG.REMOVE (R615). -/
def State.portRemove (s : State) (n : Nat) (remove : Bool) : State :=
  let s1 := s.wr (SWC_PORT_CFG n) SWC_PORT_CFG_REMOVE (b2n remove)
  if remove then s1 else s1.wr (SWC_PORT_OCC n) SWC_PORT_OCC_DRAINED 0

/-- R615: a write of SWC_PORTn_CFG.REMOVE. -/
def execPortRemove (port : Fin 2) (n : Fin 16) (remove : Bool) (s : State) : Res :=
  onMw0 s port .swc (SWC_PORT_CFG n) <| done (s.portRemove n remove)

/-- R615: SWC_DRAIN_MAX passes; the frames still queued are dropped. -/
def execPortDrainExpiry (n : Fin 16) (s : State) : Res :=
  if s.flag (SWC_PORT_CFG n) SWC_PORT_CFG_REMOVE && !s.flag (SWC_PORT_OCC n) SWC_PORT_OCC_DRAINED then
    let (k, s1) := s.dropPort n
    done (s1.drained n k)
  else .next s

/-- R610, R611: a gate cycle starts; a pending bank change takes effect and the list runs from entry 0. -/
def execGateCycleStart (n : Fin 16) (s : State) : Res :=
  let c := SWC_GATE_CFG n
  if !s.flag c SWC_GATE_CFG_EN then .next s
  else
    let s1 := if s.flag c SWC_GATE_CFG_PEND then
        (s.wr c SWC_GATE_CFG_ACTIVE (1 - s.rd c SWC_GATE_CFG_ACTIVE)).wr c SWC_GATE_CFG_PEND 0
      else s
    done (s1.setGate n (s1.gateEntry n 0))

/-- R610: an entry's interval ends; the last entry lasts until the cycle ends. -/
def execGateEntryChange (n : Fin 16) (s : State) : Res :=
  let g := s.gate n
  let len := (s.gateList n (s.rd (SWC_GATE_CFG n) SWC_GATE_CFG_ACTIVE)).length
  if s.flag (SWC_GATE_CFG n) SWC_GATE_CFG_EN && g.running && decide (g.entry + 1 < len) then
    done (s.setGate n (s.gateEntry n (g.entry + 1)))
  else .next s

/-- R611: a write of SWC_GATEn_CFG.SWITCH. -/
def execGateBankSwitch (port : Fin 2) (n : Fin 16) (s : State) : Res :=
  onMw0 s port .swc (SWC_GATE_CFG n) <| done (s.wr (SWC_GATE_CFG n) SWC_GATE_CFG_PEND 1)

end Sys2Proof.Machine
end

