-- ==== Sys2Proof/Machine/Command.lean ====
section
/-! DEFINITION. The supervisor takes the next command of a CMD ring, whatever its code (R475, R492 to R497). -/

namespace Sys2Proof.Machine

/-- The commands of HIF, boot images and resets (R494 to R496). -/
def cmdHost (s : State) (ring : Fin 512) (code : Nat) (p0 p1 p2 : BitVec 64) (dma : Option (List Byte)) : Option State :=
  match code with
  | 0x01 => some (s.command ring 0x01 Mode.working (cmdMode ring p0))
  | 0x02 => some (s.command ring 0x02 Mode.working (cmdRingAdopt ring p0 p1 p2 dma))
  | 0x03 => some (s.command ring 0x03 Mode.working (cmdRingRelease ring p0 p1 p2))
  | 0x08 => some (s.command ring 0x08 Mode.working (cmdImgUpdStart ring p0 p1))
  | 0x09 => some (s.command ring 0x09 Mode.working (cmdImgUpdData ring p0 p1 p2 dma))
  | 0x0A => some (s.command ring 0x0A Mode.working (cmdImgUpdFinish ring))
  | 0x0B => some (s.command ring 0x0B Mode.working (cmdImgUpdCancel ring))
  | 0x0C => some (s.command ring 0x0C Mode.working (cmdImgConfirm ring))
  | 0x0D => some (s.command ring 0x0D Mode.working (cmdImgMinVersion ring p0))
  | _ => none

/-- The commands of personalities, migration and Wadi (R275, R297, R326). `readOk`: the image read back sound (R266). -/
def cmdSlots (s : State) (ring : Fin 512) (code : Nat) (p0 p1 p2 : BitVec 64) (dma : Option (List Byte)) (readOk : Bool) :
    Option State :=
  match code with
  | 0x40 => some (s.command ring 0x40 configOnly (cmdPersKeyAdd ring p0 dma))
  | 0x41 => some (s.command ring 0x41 configOnly (cmdPersKeyRevoke ring p0))
  | 0x42 => some (s.command ring 0x42 Mode.working (cmdPersLoad ring p0 p1 dma))
  | 0x43 => some (s.command ring 0x43 Mode.working (cmdPersDrop ring p0))
  | 0x44 => some (s.command ring 0x44 Mode.working (cmdPersCaps ring p0 p1))
  | 0x45 => some (s.command ring 0x45 Mode.working (cmdPersBind ring p0 p1 p2 dma readOk))
  | 0x46 => some (s.command ring 0x46 Mode.working (cmdPersUnbind ring p0))
  | 0x47 => some (s.command ring 0x47 Mode.running (cmdMigStart ring p0 p1))
  | 0x48 => some (s.command ring 0x48 Mode.running (cmdMigAbort ring))
  | 0x49 => some (s.command ring 0x49 Mode.working (cmdEngRetire ring p0))
  | 0x50 => some (s.command ring 0x50 Mode.working (cmdWadiAccept ring p0))
  | 0x51 => some (s.command ring 0x51 Mode.working (cmdWadiVeto ring p0))
  | _ => none

/-- The commands of MAC, SWC, CVN, MDB and HLTH (R555, R593, R743, R789, R970). -/
def cmdBlocks (s : State) (ring : Fin 512) (code : Nat) (p0 p1 p2 : BitVec 64) (dma : Option (List Byte)) : Option State :=
  match code with
  | 0x80 => some (s.command ring 0x80 Mode.working (cmdMacCntRead ring p0 p1))
  | 0x81 => some (s.command ring 0x81 Mode.working (cmdFctAdd ring p0 dma))
  | 0x82 => some (s.command ring 0x82 Mode.working (cmdFctDel ring p0 dma))
  | 0x83 => some (s.command ring 0x83 Mode.working (cmdFctRead ring p0 p1 p2))
  | 0x84 => some (s.command ring 0x84 Mode.working (cmdFctWrite ring p0 p1 dma))
  | 0x85 => some (s.command ring 0x85 Mode.working (cmdFctFence ring))
  | 0x88 => some (s.command ring 0x88 Mode.working fun t => t.cmdCvnMode ring p0.toNat)
  | 0x89 => some (s.command ring 0x89 Mode.working fun t => t.cmdCvnTable ring p0.toNat p1.toNat dma)
  | 0x90 => some (s.command ring 0x90 Mode.working (cmdMdbAbort ring p0))
  | 0x91 => some (s.command ring 0x91 Mode.working (cmdMdbRecover ring p0))
  | 0x92 => some (s.command ring 0x92 Mode.working (cmdMdbTtNext ring p0 p1))
  | 0xB0 => some (s.command ring 0xB0 Mode.working (cmdHlthLogRead ring p0 p1 p2))
  | _ => none

/-- The safety commands (R876, R929). `high`: the outputs that read back high. -/
def cmdSafety (s : State) (ring : Fin 512) (code : Nat) (p0 p1 p2 : BitVec 64) (dma : Option (List Byte)) (high : BitVec 8) :
    Option State :=
  match code with
  | 0xA0 => some (s.safetyCmd ring 0xA0 configOnly fun t => t.cmdSioUnlock ring p0.toNat dma)
  | 0xA1 => some (s.safetyCmd ring 0xA1 configOnly fun t => t.cmdSioLock ring)
  | 0xA2 => some (s.safetyCmd ring 0xA2 configOnly fun t => t.cmdSioCommit ring p0.toNat p1.toNat)
  | 0xA3 => some (s.safetyCmd ring 0xA3 configOnly fun t => t.cmdSioPwdSet ring p0.toNat dma)
  | 0xA4 => some (s.safetyCmd ring 0xA4 Mode.working fun t => t.cmdSioAck ring p0.toNat high.toNat)
  | 0xA5 => some (s.command ring 0xA5 Mode.working fun t => t.cmdSioOutEnable ring)
  | 0xA6 => some (s.command ring 0xA6 Mode.working fun t => t.cmdSioLogRead ring p0.toNat p1.toNat p2.toNat)
  | 0xA7 => some (s.command ring 0xA7 Mode.working fun t => t.cmdSioTest ring p0.toNat)
  | _ => none

/-- A code that no chapter assigns (R493). -/
def cmdUnknown (s : State) (ring : Fin 512) (code : Nat) : State :=
  s.command ring code (fun _ => true) fun t => t.finish ring code stUnknownCmd 0

/-- R492, R493: the next command of a CMD ring; `code` is Q0 [7:0] of its descriptor. -/
def execCommandTake (ring : Fin 512) (code : BitVec 8) (p0 p1 p2 : BitVec 64) (dma : Option (List Byte)) (readOk : Bool)
    (high : BitVec 8) (s : State) : Res :=
  let c := code.toNat
  done ((cmdHost s ring c p0 p1 p2 dma).getD ((cmdSlots s ring c p0 p1 p2 dma readOk).getD
    ((cmdBlocks s ring c p0 p1 p2 dma).getD ((cmdSafety s ring c p0 p1 p2 dma high).getD (cmdUnknown s ring c)))))

end Sys2Proof.Machine
end

