-- ==== Sys2Proof/Machine/EngineAlu.lean ====
section
/-! DEFINITION. The slot 0 instructions of an engine (R225 to R228, R243 to R249). -/

namespace Sys2Proof.Machine

/-- sext and zext of a 16-bit immediate (R225). -/
def sext16 (i : BitVec 16) : Word := i.signExtend 32
def zext16 (i : BitVec 16) : Word := i.zeroExtend 32

/-- NOP in slot 0 (R225); `last` says that slot 1 is omitted. A NOP in slot 1 closes the bundle (R229). -/
def execNop (n : Fin 18) (last : Bool) (s : State) : Res :=
  done (if last then s.issue1 n fun t => (t, true) else s.issue0 n false id)

/-- ADD: modulo 2³² (R225). -/
def execAdd (n : Fin 18) (rd ra rb : Fin 32) (last : Bool) (s : State) : Res :=
  done (s.alu2 n last rd ra rb 1 fun a b => plain (a + b))

/-- SUB: modulo 2³² (R225). -/
def execSub (n : Fin 18) (rd ra rb : Fin 32) (last : Bool) (s : State) : Res :=
  done (s.alu2 n last rd ra rb 1 fun a b => plain (a - b))

/-- AND (R225). -/
def execAnd (n : Fin 18) (rd ra rb : Fin 32) (last : Bool) (s : State) : Res :=
  done (s.alu2 n last rd ra rb 1 fun a b => plain (a &&& b))

/-- OR (R225). -/
def execOr (n : Fin 18) (rd ra rb : Fin 32) (last : Bool) (s : State) : Res :=
  done (s.alu2 n last rd ra rb 1 fun a b => plain (a ||| b))

/-- XOR (R225). -/
def execXor (n : Fin 18) (rd ra rb : Fin 32) (last : Bool) (s : State) : Res :=
  done (s.alu2 n last rd ra rb 1 fun a b => plain (a ^^^ b))

/-- SHL by rb[4:0] (R225). -/
def execShl (n : Fin 18) (rd ra rb : Fin 32) (last : Bool) (s : State) : Res :=
  done (s.alu2 n last rd ra rb 1 fun a b => plain (a <<< (b.toNat % 32)))

/-- SHR by rb[4:0] (R225). -/
def execShr (n : Fin 18) (rd ra rb : Fin 32) (last : Bool) (s : State) : Res :=
  done (s.alu2 n last rd ra rb 1 fun a b => plain (a >>> (b.toNat % 32)))

/-- SAR by rb[4:0] (R225). -/
def execSar (n : Fin 18) (rd ra rb : Fin 32) (last : Bool) (s : State) : Res :=
  done (s.alu2 n last rd ra rb 1 fun a b => plain (a.sshiftRight (b.toNat % 32)))

/-- SLT (R225). -/
def execSlt (n : Fin 18) (rd ra rb : Fin 32) (last : Bool) (s : State) : Res :=
  done (s.alu2 n last rd ra rb 1 fun a b => plain (boolWord (a.slt b)))

/-- SLTU (R225). -/
def execSltu (n : Fin 18) (rd ra rb : Fin 32) (last : Bool) (s : State) : Res :=
  done (s.alu2 n last rd ra rb 1 fun a b => plain (boolWord (a.ult b)))

/-- MIN (R225). -/
def execMin (n : Fin 18) (rd ra rb : Fin 32) (last : Bool) (s : State) : Res :=
  done (s.alu2 n last rd ra rb 1 fun a b => plain (minSigned a b))

/-- MAX (R225). -/
def execMax (n : Fin 18) (rd ra rb : Fin 32) (last : Bool) (s : State) : Res :=
  done (s.alu2 n last rd ra rb 1 fun a b => plain (maxSigned a b))

/-- ADDS (R225). -/
def execAdds (n : Fin 18) (rd ra rb : Fin 32) (last : Bool) (s : State) : Res :=
  done (s.alu2 n last rd ra rb 1 fun a b => addSat a b)

/-- SUBS (R225). -/
def execSubs (n : Fin 18) (rd ra rb : Fin 32) (last : Bool) (s : State) : Res :=
  done (s.alu2 n last rd ra rb 1 fun a b => subSat a b)

/-- ADDI (R225). -/
def execAddi (n : Fin 18) (rd ra : Fin 32) (imm : BitVec 16) (last : Bool) (s : State) : Res :=
  done (s.alu1 n last rd ra fun a => plain (a + sext16 imm))

/-- ANDI (R225). -/
def execAndi (n : Fin 18) (rd ra : Fin 32) (imm : BitVec 16) (last : Bool) (s : State) : Res :=
  done (s.alu1 n last rd ra fun a => plain (a &&& zext16 imm))

/-- ORI (R225). -/
def execOri (n : Fin 18) (rd ra : Fin 32) (imm : BitVec 16) (last : Bool) (s : State) : Res :=
  done (s.alu1 n last rd ra fun a => plain (a ||| zext16 imm))

/-- XORI (R225). -/
def execXori (n : Fin 18) (rd ra : Fin 32) (imm : BitVec 16) (last : Bool) (s : State) : Res :=
  done (s.alu1 n last rd ra fun a => plain (a ^^^ zext16 imm))

/-- SHLI (R225). imm16[15:5] must be 0. -/
def execShli (n : Fin 18) (rd ra : Fin 32) (imm : BitVec 16) (last : Bool) (s : State) : Res :=
  if 32 ≤ imm.toNat then done (s.illegal n)
  else done (s.alu1 n last rd ra fun a => plain (a <<< imm.toNat))

/-- SHRI (R225). imm16[15:5] must be 0. -/
def execShri (n : Fin 18) (rd ra : Fin 32) (imm : BitVec 16) (last : Bool) (s : State) : Res :=
  if 32 ≤ imm.toNat then done (s.illegal n)
  else done (s.alu1 n last rd ra fun a => plain (a >>> imm.toNat))

/-- SARI (R225). imm16[15:5] must be 0. -/
def execSari (n : Fin 18) (rd ra : Fin 32) (imm : BitVec 16) (last : Bool) (s : State) : Res :=
  if 32 ≤ imm.toNat then done (s.illegal n)
  else done (s.alu1 n last rd ra fun a => plain (a.sshiftRight imm.toNat))

/-- SLTI (R225). -/
def execSlti (n : Fin 18) (rd ra : Fin 32) (imm : BitVec 16) (last : Bool) (s : State) : Res :=
  done (s.alu1 n last rd ra fun a => plain (boolWord (a.slt (sext16 imm))))

/-- MOVI (R225). -/
def execMovi (n : Fin 18) (rd : Fin 32) (imm : BitVec 16) (last : Bool) (s : State) : Res :=
  done (s.alu0 n last rd (sext16 imm))

/-- LUI (R225). -/
def execLui (n : Fin 18) (rd : Fin 32) (imm : BitVec 16) (last : Bool) (s : State) : Res :=
  done (s.alu0 n last rd (zext16 imm <<< 16))

/-- ABS (R225). -/
def execAbs (n : Fin 18) (rd ra : Fin 32) (last : Bool) (s : State) : Res :=
  done (s.alu1 n last rd ra fun a => absSat a)

/-- CLZ (R225). -/
def execClz (n : Fin 18) (rd ra : Fin 32) (last : Bool) (s : State) : Res :=
  done (s.alu1 n last rd ra fun a => plain (BitVec.ofNat 32 (leadingZeros a 32)))

/-- POPC (R225). -/
def execPopc (n : Fin 18) (rd ra : Fin 32) (last : Bool) (s : State) : Res :=
  done (s.alu1 n last rd ra fun a => plain (BitVec.ofNat 32 (onesBelow a 32)))

/-- BSWAP (R225). -/
def execBswap (n : Fin 18) (rd ra : Fin 32) (last : Bool) (s : State) : Res :=
  done (s.alu1 n last rd ra fun a => plain (bswap a))

/-- BREV (R225). -/
def execBrev (n : Fin 18) (rd ra : Fin 32) (last : Bool) (s : State) : Res :=
  done (s.alu1 n last rd ra fun a => plain (brev a))

/-- EXTU: POS + WIDTH above 32 is an undefined encoding (R225, R228); `wm1` is WIDTH − 1. -/
def execExtu (n : Fin 18) (rd ra pos wm1 : Fin 32) (last : Bool) (s : State) : Res :=
  if 32 < pos.val + wm1.val + 1 then done (s.illegal n)
  else done (s.alu1 n last rd ra fun a => plain (fieldU a pos.val (wm1.val + 1)))

/-- EXTS (R225, R228). -/
def execExts (n : Fin 18) (rd ra pos wm1 : Fin 32) (last : Bool) (s : State) : Res :=
  if 32 < pos.val + wm1.val + 1 then done (s.illegal n)
  else done (s.alu1 n last rd ra fun a => plain (fieldS a pos.val (wm1.val + 1)))

/-- INS: rd is a source operand too (R225, R228). -/
def execIns (n : Fin 18) (rd ra pos wm1 : Fin 32) (last : Bool) (s : State) : Res :=
  if 32 < pos.val + wm1.val + 1 then done (s.illegal n)
  else done (s.alu2 n last rd rd ra 1 fun d a => plain (insertField d a pos.val (wm1.val + 1)))

/-- CRC (R247 to R249): SIZE 3 and POLY 5 and 6 are undefined encodings. The polynomial 7 is taken from rb. -/
def execCrc (n : Fin 18) (rd ra rb : Fin 32) (poly : Fin 8) (size uw : Fin 4) (uref : Bool) (last : Bool) (s : State) :
    Res :=
  if size.val = 3 ∨ poly.val = 5 ∨ poly.val = 6 then done (s.illegal n)
  else
    done (s.issue0 n last fun t =>
      let (st, t1) := t.readW n rd
      let (a, t2) := t1.readW n ra
      let (b, t3) := if poly.val = 7 then t2.readW n rb else (0, t2)
      match crcPoly poly.val uw.val uref b with
      | none => t3
      | some p => t3.put n rd (plain (crcUpdate p st a (2 ^ size.val))) 2)

/-- MPY (R243, R244). -/
def execMpy (n : Fin 18) (acc : Fin 4) (ra rb : Fin 32) (sat : Bool) (rnd : Fin 4) (last : Bool) (s : State) : Res :=
  done (s.macClass n last acc ra rb sat rnd.val fun _ p => p)

/-- MAC (R243, R244). -/
def execMac (n : Fin 18) (acc : Fin 4) (ra rb : Fin 32) (sat : Bool) (rnd : Fin 4) (last : Bool) (s : State) : Res :=
  done (s.macClass n last acc ra rb sat rnd.val fun z p => z + p)

/-- MSU (R243, R244). -/
def execMsu (n : Fin 18) (acc : Fin 4) (ra rb : Fin 32) (sat : Bool) (rnd : Fin 4) (last : Bool) (s : State) : Res :=
  done (s.macClass n last acc ra rb sat rnd.val fun z p => z - p)

/-- MUL: the low 32 bits, at distance 3 (R225). -/
def execMul (n : Fin 18) (rd ra rb : Fin 32) (last : Bool) (s : State) : Res :=
  done (s.alu2 n last rd ra rb 3 fun a b => plain (a * b))

/-- EXT: SH above 8 and RND 3 are undefined encodings (R224, R245). -/
def execExt (n : Fin 18) (rd : Fin 32) (acc : Fin 4) (sh : Fin 16) (sat : Bool) (rnd : Fin 4) (last : Bool) (s : State) :
    Res :=
  if 8 < sh.val ∨ rnd.val = 3 then done (s.illegal n)
  else
    done (s.issue0 n last fun t =>
      let (z, t1) := t.readAcc n acc false
      t1.put n rd (extResult z sh.val sat rnd.val) 1)

/-- SETACC (R246). -/
def execSetacc (n : Fin 18) (acc : Fin 4) (ra : Fin 32) (last : Bool) (s : State) : Res :=
  done (s.issue0 n last fun t =>
    let (a, t1) := t.readW n ra
    t1.putAcc n acc (a.signExtend 40, 0) 1 false)

/-- SETG: the guard bits take ra[7:0], the low 32 bits are kept (R225, R246). -/
def execSetg (n : Fin 18) (acc : Fin 4) (ra : Fin 32) (last : Bool) (s : State) : Res :=
  done (s.issue0 n last fun t =>
    let (a, t1) := t.readW n ra
    let (z, t2) := t1.readAcc n acc false
    t2.putAcc n acc (a.extractLsb' 0 8 ++ z.extractLsb' 0 32, 0) 1 false)

/-- EXTG (R225, R246). -/
def execExtg (n : Fin 18) (rd : Fin 32) (acc : Fin 4) (last : Bool) (s : State) : Res :=
  done (s.issue0 n last fun t =>
    let (z, t1) := t.readAcc n acc false
    t1.put n rd (plain ((z.extractLsb' 32 8).signExtend 32)) 1)

/-- GETF (R225, R227). -/
def execGetf (n : Fin 18) (rd : Fin 32) (last : Bool) (s : State) : Res :=
  done (s.issue0 n last fun t =>
    let (f, t1) := t.readFlags n
    t1.put n rd (plain (f.zeroExtend 32)) 1)

/-- CLRF: imm16[15:10] must be 0 (R225, R227). -/
def execClrf (n : Fin 18) (imm : BitVec 16) (last : Bool) (s : State) : Res :=
  if 1024 ≤ imm.toNat then done (s.illegal n)
  else done (s.issue0 n last fun t => t.onPe n (·.result .clearFlags (imm.zeroExtend 40) 1 false))

end Sys2Proof.Machine
end

