-- ==== Sys2Proof/Machine/EngineMem.lean ====
section
/-! DEFINITION. The loads and stores of an engine, and what ends a stall (R140 to R146, R229 to R233). -/

namespace Sys2Proof.Machine

/-- The address of a load or store: ra + sext(simm16), modulo 2³² (R231). -/
def State.effAddr (s : State) (n : Fin 18) (ra : Fin 32) (imm : BitVec 16) : Nat × State :=
  let (a, s1) := s.readW n ra
  ((a + sext16 imm).toNat, s1)

/-- A load instruction. -/
def State.loadInstr (s : State) (n : Fin 18) (kind : LoadKind) (rd ra : Fin 32) (imm : BitVec 16) (ecc : Ecc) : State :=
  s.issue1 n fun t =>
    let (a, t1) := t.effAddr n ra imm
    t1.loadAt n a kind rd ecc

/-- A store instruction of the low `size` bytes of rs. -/
def State.storeInstr (s : State) (n : Fin 18) (size : Nat) (rs ra : Fin 32) (imm : BitVec 16) : State :=
  s.issue1 n fun t =>
    let (a, t1) := t.effAddr n ra imm
    let (v, t2) := t1.readW n rs
    t2.storeAt n a (leBytes size v.toNat)

/-- LB: a byte, sign-extended (R229). -/
def execLb (n : Fin 18) (rd ra : Fin 32) (imm : BitVec 16) (ecc : Ecc) (s : State) : Res :=
  done (s.loadInstr n .s8 rd ra imm ecc)

/-- LBU: a byte, zero-extended (R229). -/
def execLbu (n : Fin 18) (rd ra : Fin 32) (imm : BitVec 16) (ecc : Ecc) (s : State) : Res :=
  done (s.loadInstr n .u8 rd ra imm ecc)

/-- LH: 2 bytes, sign-extended (R229). -/
def execLh (n : Fin 18) (rd ra : Fin 32) (imm : BitVec 16) (ecc : Ecc) (s : State) : Res :=
  done (s.loadInstr n .s16 rd ra imm ecc)

/-- LHU: 2 bytes, zero-extended (R229). -/
def execLhu (n : Fin 18) (rd ra : Fin 32) (imm : BitVec 16) (ecc : Ecc) (s : State) : Res :=
  done (s.loadInstr n .u16 rd ra imm ecc)

/-- LW: 4 bytes (R229). -/
def execLw (n : Fin 18) (rd ra : Fin 32) (imm : BitVec 16) (ecc : Ecc) (s : State) : Res :=
  done (s.loadInstr n .w32 rd ra imm ecc)

/-- A register number that LD, PUSH or POP cannot name (R230). -/
def oddPair (r : Fin 32) : Bool := r.val % 2 == 1 || r.val == 30

/-- LD: 8 bytes into a pair (R229, R230, R232). -/
def execLd (n : Fin 18) (rd ra : Fin 32) (imm : BitVec 16) (ecc : Ecc) (s : State) : Res :=
  done (if oddPair rd then s.illegal n else s.loadInstr n .d64 rd ra imm ecc)

/-- SB: a byte (R229). -/
def execSb (n : Fin 18) (rs ra : Fin 32) (imm : BitVec 16) (s : State) : Res :=
  done (s.storeInstr n 1 rs ra imm)

/-- SH: 2 bytes (R229). -/
def execSh (n : Fin 18) (rs ra : Fin 32) (imm : BitVec 16) (s : State) : Res :=
  done (s.storeInstr n 2 rs ra imm)

/-- SW: 4 bytes (R229). -/
def execSw (n : Fin 18) (rs ra : Fin 32) (imm : BitVec 16) (s : State) : Res :=
  done (s.storeInstr n 4 rs ra imm)

/-- SD: a pair, 8 bytes (R229, R230, R232). -/
def execSd (n : Fin 18) (rs ra : Fin 32) (imm : BitVec 16) (s : State) : Res :=
  done (if rs.val % 2 = 1 then s.illegal n
    else s.issue1 n fun t =>
      let (a, t1) := t.effAddr n ra imm
      let (x, t2) := t1.readW n rs
      let (y, t3) := t2.readW n (rs + 1)
      t3.storeAt n a (leBytes 4 x.toNat ++ leBytes 4 y.toNat))

/-- R142, R144: a far load is answered, once every earlier far store has been accepted. -/
def execFarLoadReturn (n : Fin 18) (ecc : Ecc) (s : State) : Res :=
  match (s.pe n).stall with
  | some (.load addr kind rd) =>
    if !(s.pe n).wbuf.isEmpty || (s.pe n).inReset then .next s
    else
      match s.farLoad n addr kind.size ecc with
      | (some v, s1) => done ((s1.putLoad n kind rd v).endStall n)
      | (none, s1) => .next s1
  | _ => .next s

/-- R143: the head of the write buffer is accepted by its target. -/
def execFarStoreAccepted (n : Fin 18) (ecc : Ecc) (s : State) : Res :=
  match (s.pe n).wbuf with
  | [] => .next s
  | st :: _ =>
    match s.farStore n st ecc with
    | (true, s1) => done (s1.wbufPop n)
    | (false, s1) => .next s1

/-- R145: the far access at the head of program order gets no response and is ended. -/
def execFarTimeout (n : Fin 18) (s : State) : Res :=
  match (s.pe n).wbuf, (s.pe n).stall with
  | st :: _, _ => done ((s.raiseAcc n F_PE_FAR_TIMEOUT st.addr st.data.length true).wbufPop n)
  | [], some (.load addr kind rd) =>
    done (((s.raiseAcc n F_PE_FAR_TIMEOUT addr kind.size false).putLoad n kind rd 0).endStall n)
  | [], _ => .next s

end Sys2Proof.Machine
end

