-- ==== Sys2Proof/Machine/EngineCtl.lean ====
section
/-! DEFINITION. The control instructions of an engine: branches, the stack, WAIT, FENCE, BRK (R229, R234 to R242), undefined
encodings and breakpoints (R182, R219). -/

namespace Sys2Proof.Machine

/-- A transfer starts, taken or not. In a delay slot of another it executes as NOP (R235, R236). -/
def Engine.transfer (e : Engine) (target : Option (BitVec 14)) : Engine :=
  if e.xfer.isSome then e else { e with xfer := some ⟨target, 3⟩ }

/-- The target of a branch (R234). -/
def branchTarget (pc : BitVec 14) (imm : BitVec 16) : BitVec 14 := pc + imm.setWidth 14

/-- The bundle index in bits [16:3] of an address. -/
def bundleOf (w : Word) : BitVec 14 := (w >>> (3 : Nat)).setWidth 14

/-- A branch (R234, R235). -/
def State.branch (s : State) (n : Fin 18) (ra rb : Fin 32) (imm : BitVec 16) (cond : Word → Word → Bool) : State :=
  s.issue1 n fun t =>
    let (a, t1) := t.readW n ra
    let (b, t2) := t1.readW n rb
    (t2.onPe n fun e => e.transfer (if cond a b then some (branchTarget e.pc imm) else none), true)

/-- BEQ: branch when ra = rb (R229). -/
def execBeq (n : Fin 18) (ra rb : Fin 32) (imm : BitVec 16) (s : State) : Res :=
  done (s.branch n ra rb imm fun a b => a == b)

/-- BNE: branch when ra ≠ rb (R229). -/
def execBne (n : Fin 18) (ra rb : Fin 32) (imm : BitVec 16) (s : State) : Res :=
  done (s.branch n ra rb imm fun a b => a != b)

/-- BLT: branch when ra < rb, signed (R229). -/
def execBlt (n : Fin 18) (ra rb : Fin 32) (imm : BitVec 16) (s : State) : Res :=
  done (s.branch n ra rb imm fun a b => a.slt b)

/-- BGE: branch when ra ≥ rb, signed (R229). -/
def execBge (n : Fin 18) (ra rb : Fin 32) (imm : BitVec 16) (s : State) : Res :=
  done (s.branch n ra rb imm fun a b => !(a.slt b))

/-- BLTU: branch when ra < rb, unsigned (R229). -/
def execBltu (n : Fin 18) (ra rb : Fin 32) (imm : BitVec 16) (s : State) : Res :=
  done (s.branch n ra rb imm fun a b => a.ult b)

/-- BGEU: branch when ra ≥ rb, unsigned (R229). -/
def execBgeu (n : Fin 18) (ra rb : Fin 32) (imm : BitVec 16) (s : State) : Res :=
  done (s.branch n ra rb imm fun a b => !(a.ult b))

/-- J: jump to a bundle index (R234). -/
def execJ (n : Fin 18) (idx : BitVec 14) (s : State) : Res :=
  done (s.issue1 n fun t => (t.onPe n (·.transfer (some idx)), true))

/-- JR: jump to ra[16:3] (R234). -/
def execJr (n : Fin 18) (ra : Fin 32) (s : State) : Res :=
  done (s.issue1 n fun t =>
    let (a, t1) := t.readW n ra
    (t1.onPe n (·.transfer (some (bundleOf a))), true))

/-! ## The stack (R238 to R242) -/

/-- A stack word at an address: DMEM holds the stack; an address outside it raises ADDR_ERR, a misaligned one ALIGN. -/
def State.stackStore (s : State) (n : Fin 18) (a : Nat) (bs : List Byte) : State :=
  if a % 8 ≠ 0 then s.raiseAcc n F_PE_ALIGN a 8 true
  else match regionOf a with
    | .dmem off => s.dmemStore n off bs
    | _ => s.raiseAcc n F_PE_ADDR_ERR a 8 true

def State.stackLoad (s : State) (n : Fin 18) (a : Nat) (ecc : Ecc) : Nat × State :=
  if a % 8 ≠ 0 then (0, s.raiseAcc n F_PE_ALIGN a 8 false)
  else match regionOf a with
    | .dmem off => s.dmemLoad n off 8 ecc
    | _ => (0, s.raiseAcc n F_PE_ADDR_ERR a 8 false)

/-- w31 takes a value at distance 1. -/
def State.setSp (s : State) (n : Fin 18) (v : Word) : State := s.onPe n (·.result (.reg 31) (v.setWidth 40) 1 false)

/-- A push of 8 bytes: the check of R241, then w31 falls by 8 and the bytes are stored. The answer says whether it was
performed. -/
def State.push (s : State) (n : Fin 18) (bs : List Byte) : Bool × State :=
  let (sp, s1) := s.readW n 31
  let new := sp - 8
  if sp.toNat < (s1.pe n).stackLimit.toNat + 8 then (false, s1.raisePe n F_PE_STACK)
  else (true, (s1.stackStore n new.toNat bs).setSp n new)

/-- A pop of 8 bytes: the check of R241, then the bytes are loaded and w31 rises by 8. -/
def State.pop (s : State) (n : Fin 18) : Option Nat × State :=
  let (sp, s1) := s.readW n 31
  let top := 0x10000000 + 8 * s1.rd (PE_SP_INIT n) PE_SP_INIT_TOP
  if top < sp.toNat + 8 then (none, s1.raisePe n F_PE_STACK)
  else
    let (v, s2) := s1.stackLoad n sp.toNat .ok
    (some v, s2.setSp n (sp + 8))

/-- A call: the return address, the call bundle's plus 24, is pushed and the transfer starts (R238). In a delay slot it is a
NOP (R236). -/
def State.call (s : State) (n : Fin 18) (target : State → BitVec 14 × State) : State × Bool :=
  if (s.pe n).xfer.isSome then (s, true)
  else
    let (t, s1) := target s
    let ret := pcAddr ((s.pe n).pc + 3)
    match s1.push n (leBytes 8 ret) with
    | (true, s2) => (s2.onPe n (·.transfer (some t)), true)
    | (false, s2) => (s2, true)

/-- CALL (R238). -/
def execCall (n : Fin 18) (idx : BitVec 14) (s : State) : Res := done (s.issue1 n fun t => t.call n fun u => (idx, u))

/-- CALLR (R238). -/
def execCallr (n : Fin 18) (ra : Fin 32) (s : State) : Res :=
  done (s.issue1 n fun t => t.call n fun u =>
    let (a, u1) := u.readW n ra
    (bundleOf a, u1))

/-- RET (R239). In a delay slot it is a NOP (R236). -/
def execRet (n : Fin 18) (s : State) : Res :=
  done (s.issue1 n fun t =>
    if (t.pe n).xfer.isSome then (t, true)
    else
      match t.pop n with
      | (some v, t1) => (t1.onPe n (·.transfer (some (bundleOf (BitVec.ofNat 32 v)))), true)
      | (none, t1) => (t1, true))

/-- PUSH of a pair (R230, R240). -/
def execPush (n : Fin 18) (rn : Fin 32) (s : State) : Res :=
  done (if oddPair rn then s.illegal n
    else s.issue1 n fun t =>
      let (x, t1) := t.readW n rn
      let (y, t2) := t1.readW n (rn + 1)
      ((t2.push n (leBytes 4 x.toNat ++ leBytes 4 y.toNat)).2, true))

/-- POP into a pair (R230, R240). -/
def execPop (n : Fin 18) (rn : Fin 32) (s : State) : Res :=
  done (if oddPair rn then s.illegal n
    else s.issue1 n fun t =>
      match t.pop n with
      | (some v, t1) => (t1.putLoad n .d64 rn v, true)
      | (none, t1) => (t1, true))

/-! ## WAIT, FENCE, BRK, undefined bundles, breakpoints -/

/-- WAIT: the engine sleeps unless an enabled event is pending (R171). -/
def execWait (n : Fin 18) (s : State) : Res :=
  done (s.issue1 n fun t =>
    (if t.eventPending n then t else t.onPe n fun e => { e.disturb with state := .wait }, true))

/-- FENCE: the engine stalls until every earlier far store has been accepted (R229). -/
def execFence (n : Fin 18) (s : State) : Res :=
  done (s.issue1 n fun t => if (t.pe n).wbuf.isEmpty then (t, true) else t.stallOn n .fence)

/-- BRK: the engine halts after this bundle (R229). -/
def execBrk (n : Fin 18) (s : State) : Res :=
  done (s.issue1 n fun t => (t.onPe n fun e => { e with haltPend := some 2 }, true))

/-- R219: a bundle with an undefined encoding. -/
def execIllegalBundle (n : Fin 18) (s : State) : Res := done (s.illegal n)

/-- R182: the bundle at PE_BP.ADDR is about to issue. -/
def execBreakpointHit (n : Fin 18) (s : State) : Res :=
  done (if (s.pe n).canIssue && !(s.pe n).half && s.atBreakpoint n then s.onPe n (·.haltNow 2) else s)

end Sys2Proof.Machine
end

