-- ==== Sys2Proof/Machine/Engine.lean ====
section
/-! DEFINITION. The engine's accesses to its frame access unit, timers and control registers as commands, PE_CTRL, engine resets
and the scrubber (file 03). -/

namespace Sys2Proof.Machine

/-- A near access of an engine that is executing. -/
def onEng (s : State) (n : Fin 18) (f : State → State) : Res := if (s.pe n).canIssue then done (f s) else .next s

/-- A near read of the granule of a region: its value is returned. -/
def engRead (s : State) (n : Fin 18) (r : Region) : Res :=
  onEng s n fun t =>
    let (v, t1) := t.nearRead n r
    { t1 with rdata := v }

/-- A near write of a 32-bit value. -/
def engWrite (s : State) (n : Fin 18) (r : Region) (v : Nat) : Res := onEng s n fun t => t.nearWrite n r 0 (leBytes 4 v)

/-- A near load that has waited ends with a value, and its stall with it. -/
def State.endNearLoad (s : State) (n : Fin 18) (kind : LoadKind) (rd : Fin 32) (v : Nat) : State :=
  (s.putLoad n kind rd v).endStall n

/-- R157: the handle and the first 256 bytes of the next frame of queue q are present; a load that waits for them ends. -/
def execFauFetchAheadDone (n : Fin 18) (q : Fin 8) (s : State) : Res :=
  let e := s.pe n
  match e.fau.rx with
  | some (p, _) =>
    if p = q.val ∧ !e.fau.rxAhead then
      let s1 := s.onFau n fun f => { f with rxAhead := true }
      match e.stall with
      | some (.fetch addr kind rd) => done (s1.endNearLoad n kind rd (s.rxBytes n (e.fau.rxBase + (addr - 0x20000000)) kind.size))
      | _ => .next s1
    else .next (s.onFau n fun f => { f with ahead := setBit f.ahead q true })
  | none => .next (s.onFau n fun f => { f with ahead := setBit f.ahead q true })

/-- R154: a read of FAU_RX_POP. -/
def execFauRxPop (n : Fin 18) (s : State) : Res := engRead s n (.fau 0x800)

/-- The value of FAU_RX_DONE and FAU_TX_SEND (R160, R164). -/
def fauWord (ports queue action : Nat) (oneStep : Bool) : Nat := ports * 2 ^ 16 + queue * 2 ^ 8 + b2n oneStep * 2 ^ 4 + action

/-- R160: FAU_RX_DONE with ACTION FREE. -/
def execFauRxDoneFree (n : Fin 18) (s : State) : Res := engWrite s n (.fau 0x828) 0

/-- R160, R161: FAU_RX_DONE with ACTION FORWARD. -/
def execFauRxDoneForward (n : Fin 18) (ports : BitVec 16) (queue : Fin 8) (oneStep : Bool) (s : State) : Res :=
  engWrite s n (.fau 0x828) (fauWord ports.toNat queue 1 oneStep)

/-- R162: a write of FAU_TX_ALLOC. -/
def execFauTxAlloc (n : Fin 18) (value : Word) (s : State) : Res := engWrite s n (.fau 0x830) value.toNat

/-- R163: a write of FAU_TX_BASE. -/
def execFauTxBaseWrite (n : Fin 18) (value : Word) (s : State) : Res := engWrite s n (.fau 0x838) value.toNat

/-- R164: FAU_TX_SEND to ports. -/
def execFauTxSendPorts (n : Fin 18) (ports : BitVec 16) (queue : Fin 8) (oneStep : Bool) (s : State) : Res :=
  engWrite s n (.fau 0x840) (fauWord ports.toNat queue 1 oneStep)

/-- R164: FAU_TX_SEND to a host FRX ring. -/
def execFauTxSendHost (n : Fin 18) (ring : Fin 512) (s : State) : Res := engWrite s n (.fau 0x840) (ring * 2 ^ 16 + 2)

/-- R164: FAU_TX_SEND with ACTION 0b00. -/
def execFauTxAbandon (n : Fin 18) (s : State) : Res := engWrite s n (.fau 0x840) 0

/-- R167: a write of ETM_SNAP_REQ. -/
def execEtmSnapReq (n : Fin 18) (s : State) : Res := engWrite s n (.etm 8) 0

/-- A load that waited for the snapshot reads its granule and ends (R167). -/
def State.endSnapLoad (s : State) (n : Fin 18) (g : Region × Nat) (kind : LoadKind) (rd : Fin 32) : State :=
  let q := s.nearRead n g.1
  q.2.endNearLoad n kind rd (part64 q.1 g.2 kind.size)

/-- R167: the snapshot arrives; a load that waits for it ends. -/
def execSnapshotArrived (n : Fin 18) (s : State) : Res :=
  if !(s.pe n).snapPend then .next s
  else
    let s1 := s.onPe n fun e => { e with snapPend := false, snapReady := true }
    match (s.pe n).stall with
    | some (.snap addr kind rd) =>
      done (s1.endSnapLoad n (Region.etm (addr - 0x20001000)).granule kind rd)
    | _ => .next s1

/-- R168, R170: ETMn_CTRL enables a timer. -/
def execEtmTimerEnable (n : Fin 18) (t : Fin 4) (absolute periodic : Bool) (s : State) : Res :=
  engWrite s n (.etm (0x40 + 0x20 * t)) (1 + b2n absolute * 2 + b2n periodic * 4)

/-- R168, R169: a timer reaches its compare value. -/
def execEtmTimerFire (n : Fin 18) (t : Fin 4) (s : State) : Res :=
  let x := (s.pe n).timers[t]
  if x.en && !x.spent then .next (s.onPe n fun e => { e with timers := e.timers.set t (x.fire false) }) else .next s

/-- R171: an enabled event is pending; the engine leaves WAIT. -/
def execEngineEventWake (n : Fin 18) (s : State) : Res :=
  let e := s.pe n
  if e.state == .wait && !e.inReset && s.eventPending n then .next (s.onPe n fun e => { e with state := .run }) else .next s

/-- R173, R174: a write of ECS_BOUNDARY. -/
def execEcsBoundary (n : Fin 18) (s : State) : Res :=
  onEng s n fun t =>
    let t1 := t.nearWrite n (.ecs 0x10) 0 [0, 0, 0, 0]
    t1.onPe n fun e => if e.state == .stopped then e.stopNow else e

/-- R176: a write of ECS_WDOG_KICK. -/
def execEcsWdogKick (n : Fin 18) (s : State) : Res := engWrite s n (.ecs 0x18) 0

/-- R176: the watchdog has counted PE_WDOG.TIMEOUT µs in RUN and WAIT. -/
def execEngineWatchdogExpiry (n : Fin 18) (s : State) : Res :=
  let e := s.pe n
  let limit := s.rd (PE_WDOG n) PE_WDOG_TIMEOUT
  if limit ≠ 0 ∧ (e.state == .run || e.state == .wait) ∧ !e.inReset ∧ 500 * limit ≤ e.wdog then done (s.raisePe n F_PE_WDOG)
  else .next s

/-- R667: a read of ETM_TXTS_INFO. -/
def execEtmTxtsPop (n : Fin 18) (s : State) : Res := engRead s n (.etm 0x108)

/-! ## PE_CTRL (R179, R180, R194) -/

/-- R179: PE_CTRL.START. -/
def execPeStart (port : Fin 2) (n : Fin 18) (s : State) : Res := onMw0 s port (.pe n) (PE_CTRL n) <| done (s.peCtrlWrite n 1)

/-- R174: PE_CTRL.STOP. -/
def execPeStop (port : Fin 2) (n : Fin 18) (s : State) : Res := onMw0 s port (.pe n) (PE_CTRL n) <| done (s.peCtrlWrite n 2)

/-- R147, R181: PE_CTRL.HALT. -/
def execPeHalt (port : Fin 2) (n : Fin 18) (s : State) : Res := onMw0 s port (.pe n) (PE_CTRL n) <| done (s.peCtrlWrite n 4)

/-- R185: PE_CTRL.RESET starts an engine reset. -/
def execPeReset (port : Fin 2) (n : Fin 18) (s : State) : Res := onMw0 s port (.pe n) (PE_CTRL n) <| done (s.peCtrlWrite n 8)

/-- R185, R186: an engine reset completes. -/
def execEngineResetDone (n : Fin 18) (s : State) : Res := if (s.pe n).inReset then done (s.peResetDone n) else .next s

/-! ## PE_DBG_DATA (R207 to R209) -/

/-- Engine states in which PE_DBG_DATA is readable and writable (R208). -/
def PeState.debug (p : PeState) : Bool := p == .loaded || p == .stopped || p == .halt

/-- The value that PE_DBG_SEL selects. A reserved selection reads a free value. -/
def State.dbgRead (s : State) (n : Fin 18) : Nat × State :=
  let e := s.pe n
  let sel := s.rd (PE_DBG_SEL n) PE_DBG_SEL_SEL
  if h : sel < 32 then (e.w[sel].toNat, s)
  else if h : 32 ≤ sel ∧ sel < 36 then ((e.acc[sel - 32]'(by omega)).toNat % 2 ^ 32, s)
  else if h : 36 ≤ sel ∧ sel < 40 then ((e.acc[sel - 36]'(by omega)).toNat / 2 ^ 32, s)
  else if sel = 40 then (e.stackLimit.toNat, s)
  else if sel = 41 then (s.ecsEvent n, s)
  else s.draw 32

/-- A write of PE_DBG_DATA; selections 40 and above take none (R209). -/
def State.dbgWrite (s : State) (n : Fin 18) (v : Word) : State :=
  let sel := s.rd (PE_DBG_SEL n) PE_DBG_SEL_SEL
  s.onPe n fun e =>
    if h : sel < 32 then { e with w := e.w.set sel v }
    else if h : 32 ≤ sel ∧ sel < 36 then
      let a := e.acc[sel - 32]'(by omega)
      { e with acc := e.acc.set (sel - 32) (BitVec.ofNat 40 (a.toNat / 2 ^ 32 * 2 ^ 32 + v.toNat)) (by omega) }
    else if h : 36 ≤ sel ∧ sel < 40 then
      let a := e.acc[sel - 36]'(by omega)
      { e with acc := e.acc.set (sel - 36) (BitVec.ofNat 40 (v.toNat % 256 * 2 ^ 32 + a.toNat % 2 ^ 32)) (by omega) }
    else e

/-- R208, R209: an access to PE_DBG_DATA. In RUN, WAIT and SHADOW a read returns all ones; in IDLE and FAILED its value is not
stated. -/
def execPeDbgDataAccess (port : Fin 2) (n : Fin 18) (write : Option Word) (s : State) : Res :=
  onMw0 s port (.pe n) (PE_DBG_DATA n) <|
    let p := (s.pe n).state
    match write with
    | some v => .next (if p.debug then s.dbgWrite n v else s)
    | none =>
      let (v, s1) := if p.debug then s.dbgRead n
        else if p == .idle || p == .failed then s.draw 32 else (0xFFFFFFFF, s)
      .next { s1 with rdata := v }

/-! ## The scrubber (R151) -/

/-- The scrubber reads word `w` of IMEM. -/
def State.scrubImem (s : State) (n : Fin 18) (w : Nat) (ecc : Ecc) : State :=
  if (s.pe n).imem.bad.contains w || ecc == .double then
    (s.onPe n fun e => { e with imem := e.imem.setBad w }).raiseFor (.pe n) F_PE_IMEM_UE [8 * w] (s.pe n).slotNo
  else if ecc == .single then
    (s.bump (PE_ECC_CNT n) PE_ECC_CNT_IMEM_CE 1).raiseFor (.pe n) F_PE_IMEM_CE [8 * w] (s.pe n).slotNo
  else s

/-- The scrubber reads word `w` of DMEM. -/
def State.scrubDmem (s : State) (n : Fin 18) (w : Nat) (ecc : Ecc) : State :=
  if (s.pe n).dmem.bad.contains w || ecc == .double then
    (s.onPe n fun e => { e with dmem := e.dmem.setBad w }).raisePe n F_PE_DMEM_UE
  else if ecc == .single then (s.bump (PE_ECC_CNT n) PE_ECC_CNT_DMEM_CE 1).raisePe n F_PE_DMEM_CE
  else s

/-- R151: one word of each memory. -/
def execEngineScrubStep (n : Fin 18) (imem dmem : Ecc) (s : State) : Res :=
  let w := (s.pe n).scrubAt
  done (((s.onPe n fun e => { e with scrubAt := (w + 1) % 16384 }).scrubImem n w imem).scrubDmem n w dmem)

end Sys2Proof.Machine
end

