-- ==== Sys2Proof/Machine/EngineStep.lean ====
section
/-! DEFINITION. The slot words of R221 to R230 as a halted engine reads them from IMEM, and PE_CTRL.STEP (R179). -/

namespace Sys2Proof.Machine

/-- Bits `[hi:lo]` of a slot word. -/
def slotF (w : Word) (hi lo : Nat) : Nat := bitsOf w.toNat hi lo

/-- A register number of a slot word, from its lowest bit. -/
def slotR (w : Word) (lo : Nat) : Fin 32 := Fin.ofNat 32 (slotF w (lo + 4) lo)

def slotImm (w : Word) : BitVec 16 := BitVec.ofNat 16 (slotF w 15 0)

/-- `x` where a condition on the reserved fields holds, else an undefined encoding (R223). -/
def defined (c : Bool) (x : State → Res) : Option (State → Res) := if c then some x else none

/-- A slot 0 word (R221, R223 to R225, R228, R245, R247, R248): its meaning on engine n, or none where it is undefined. -/
def slot0 (n : Fin 18) (w : Word) : Option (State → Res) :=
  let rd := slotR w 21
  let ra := slotR w 16
  let rb := slotR w 11
  let imm := slotImm w
  let acc : Fin 4 := Fin.ofNat 4 (slotF w 25 24)
  let r := slotF w 10 0 == 0
  let r1 := r && slotF w 15 11 == 0
  let bf := slotF w 5 0 == 0 && decide (slotF w 15 11 + slotF w 10 6 + 1 ≤ 32)
  let pos := slotR w 11
  let wm1 := slotR w 6
  let mOk := slotF w 23 21 == 0 && slotF w 7 0 == 0 && slotF w 9 8 != 3
  let sat := bitOf w.toNat 10
  let rnd : Fin 4 := Fin.ofNat 4 (slotF w 9 8)
  match slotF w 31 26 with
  | 0x01 => defined (slotF w 25 0 == 0) (execNop n false)
  | 0x02 => defined r (execAdd n rd ra rb false)
  | 0x03 => defined r (execSub n rd ra rb false)
  | 0x04 => defined r (execAnd n rd ra rb false)
  | 0x05 => defined r (execOr n rd ra rb false)
  | 0x06 => defined r (execXor n rd ra rb false)
  | 0x07 => defined r (execShl n rd ra rb false)
  | 0x08 => defined r (execShr n rd ra rb false)
  | 0x09 => defined r (execSar n rd ra rb false)
  | 0x0A => defined r (execSlt n rd ra rb false)
  | 0x0B => defined r (execSltu n rd ra rb false)
  | 0x0C => defined r (execMin n rd ra rb false)
  | 0x0D => defined r (execMax n rd ra rb false)
  | 0x0E => defined r (execAdds n rd ra rb false)
  | 0x0F => defined r (execSubs n rd ra rb false)
  | 0x10 => some (execAddi n rd ra imm false)
  | 0x11 => some (execAndi n rd ra imm false)
  | 0x12 => some (execOri n rd ra imm false)
  | 0x13 => some (execXori n rd ra imm false)
  | 0x17 => some (execSlti n rd ra imm false)
  | 0x14 => defined (slotF w 15 5 == 0) (execShli n rd ra imm false)
  | 0x15 => defined (slotF w 15 5 == 0) (execShri n rd ra imm false)
  | 0x16 => defined (slotF w 15 5 == 0) (execSari n rd ra imm false)
  | 0x18 => defined (slotF w 20 16 == 0) (execMovi n rd imm false)
  | 0x19 => defined (slotF w 20 16 == 0) (execLui n rd imm false)
  | 0x1A => defined r1 (execAbs n rd ra false)
  | 0x1B => defined r1 (execClz n rd ra false)
  | 0x1C => defined r1 (execPopc n rd ra false)
  | 0x1D => defined r1 (execBswap n rd ra false)
  | 0x1E => defined r1 (execBrev n rd ra false)
  | 0x20 => defined bf (execExtu n rd ra pos wm1 false)
  | 0x21 => defined bf (execExts n rd ra pos wm1 false)
  | 0x22 => defined bf (execIns n rd ra pos wm1 false)
  | 0x24 =>
    let poly : Fin 8 := Fin.ofNat 8 (slotF w 10 8)
    defined (slotF w 2 0 == 0 && slotF w 7 6 != 3 && poly != 5 && poly != 6)
      (execCrc n rd ra rb poly (Fin.ofNat 4 (slotF w 7 6)) (Fin.ofNat 4 (slotF w 5 4)) (bitOf w.toNat 3) false)
  | 0x28 => defined mOk (execMpy n acc ra rb sat rnd false)
  | 0x29 => defined mOk (execMac n acc ra rb sat rnd false)
  | 0x2A => defined mOk (execMsu n acc ra rb sat rnd false)
  | 0x2B => defined r (execMul n rd ra rb false)
  | 0x2C => defined (slotF w 20 18 == 0 && slotF w 8 0 == 0 && decide (slotF w 15 12 ≤ 8) && slotF w 10 9 != 3)
      (execExt n rd (Fin.ofNat 4 (slotF w 17 16)) (Fin.ofNat 16 (slotF w 15 12)) (bitOf w.toNat 11)
        (Fin.ofNat 4 (slotF w 10 9)) false)
  | 0x2D => defined (slotF w 23 21 == 0 && slotF w 15 0 == 0) (execSetacc n acc ra false)
  | 0x2E => defined (slotF w 23 21 == 0 && slotF w 15 0 == 0) (execSetg n acc ra false)
  | 0x2F => defined (slotF w 20 18 == 0 && slotF w 15 0 == 0) (execExtg n rd (Fin.ofNat 4 (slotF w 17 16)) false)
  | 0x30 => defined (slotF w 20 0 == 0) (execGetf n rd false)
  | 0x31 => defined (slotF w 25 16 == 0 && slotF w 15 10 == 0) (execClrf n imm false)
  | _ => none

/-- A slot 1 word (R222, R223, R229, R230). -/
def slot1 (n : Fin 18) (w : Word) : Option (State → Res) :=
  let rd := slotR w 21
  let ra := slotR w 16
  let imm := slotImm w
  let idx : BitVec 14 := BitVec.ofNat 14 (slotF w 13 0)
  let c := slotF w 25 0 == 0
  let p := slotF w 20 0 == 0 && !oddPair rd
  match slotF w 31 26 with
  | 0x01 => defined c (execNop n true)
  | 0x02 => some (execLb n rd ra imm .ok)
  | 0x03 => some (execLbu n rd ra imm .ok)
  | 0x04 => some (execLh n rd ra imm .ok)
  | 0x05 => some (execLhu n rd ra imm .ok)
  | 0x06 => some (execLw n rd ra imm .ok)
  | 0x07 => defined (!oddPair rd) (execLd n rd ra imm .ok)
  | 0x08 => some (execSb n rd ra imm)
  | 0x09 => some (execSh n rd ra imm)
  | 0x0A => some (execSw n rd ra imm)
  | 0x0B => defined (rd.val % 2 == 0) (execSd n rd ra imm)
  | 0x10 => some (execBeq n rd ra imm)
  | 0x11 => some (execBne n rd ra imm)
  | 0x12 => some (execBlt n rd ra imm)
  | 0x13 => some (execBge n rd ra imm)
  | 0x14 => some (execBltu n rd ra imm)
  | 0x15 => some (execBgeu n rd ra imm)
  | 0x18 => defined (slotF w 25 14 == 0) (execJ n idx)
  | 0x19 => defined (slotF w 25 14 == 0) (execCall n idx)
  | 0x1A => defined (slotF w 25 21 == 0 && slotF w 15 0 == 0) (execJr n ra)
  | 0x1B => defined (slotF w 25 21 == 0 && slotF w 15 0 == 0) (execCallr n ra)
  | 0x1C => defined c (execRet n)
  | 0x1D => defined p (execPush n rd)
  | 0x1E => defined p (execPop n rd)
  | 0x20 => defined c (execWait n)
  | 0x21 => defined c (execFence n)
  | 0x22 => defined c (execBrk n)
  | _ => none

/-- The state an outcome leaves; a meaning of an engine instruction always answers one. -/
def stateOf (s : State) : Res → State
  | .next t => t
  | _ => s

/-- The bundle at the program counter: slot 0 in bits [63:32] (R138). -/
def State.bundleAt (s : State) (n : Fin 18) : Nat := ofLe ((s.pe n).imem.bytes (pcAddr (s.pe n).pc) 8)

/-- One bundle of engine n from IMEM (R138, R219). -/
def State.runBundle (s : State) (n : Fin 18) : State :=
  let b := s.bundleAt n
  match slot0 n (BitVec.ofNat 32 (b / 2 ^ 32)), slot1 n (BitVec.ofNat 32 (b % 2 ^ 32)) with
  | some f, some g =>
    let t := stateOf s (f s)
    stateOf t (g t)
  | _, _ => stateOf s (execIllegalBundle n s)

/-- STEP (R179): a halted engine executes one bundle and halts with HALT_CAUSE = 4. The breakpoint does not stop it. -/
def State.peStep (s : State) (n : Fin 18) : State :=
  let e := s.pe n
  if e.state != .halt || e.inReset then s
  else
    let bp := s.reg (PE_BP n)
    let s1 := ((s.wr (PE_BP n) PE_BP_EN 0).onPe n fun e => { e with state := .run }).runBundle n
    let s2 := s1.setReg (PE_BP n) bp
    let p := (s2.pe n).state
    if p == .run || p == .wait then
      s2.onPe n fun e => if e.stall.isSome then { e with haltPend := some 4 } else e.haltNow 4
    else s2

/-- R179: PE_CTRL.STEP. -/
def execPeStep (port : Fin 2) (n : Fin 18) (s : State) : Res := onMw0 s port (.pe n) (PE_CTRL n) <| done (s.peStep n)

end Sys2Proof.Machine
end

