-- ==== Sys2Proof/Machine/Mbx.lean ====
section
/-! DEFINITION. The commands of the MBX block (file 08). The endpoint that acts is an operand: a slot, the supervisor (16)
or a host port (17, 18). -/

namespace Sys2Proof.Machine

/-- An access to the view of endpoint `ep` at an offset: a host port reaches its view through MW0 (R407). While MBX is in
block reset no access reaches it. -/
def onWin (s : State) (ep : Fin 19) (off : Nat) (body : Res) : Res :=
  if ep.val < 17 then (if s.inBlkReset .mbx then .next s else body)
  else onMw0 s (ep.val - 17) .mbx (0x20000 + 0x1000 * (ep.val - 16) + off) body

/-- R413: a write of OUT_SENDc. -/
def execMbxSend (ep : Fin 19) (c : Fin 4) (value : Word) (s : State) : Res :=
  onWin s ep (0x240 + 0x80 * c) <| done (s.winWrite ep (s.epMaster ep) (0x240 + 0x80 * c) value)

/-- R415, R420, R421: a write of word `i` of OUT_DATAc. -/
def execMbxDataWrite (ep : Fin 19) (c : Fin 4) (i : Fin 16) (value : Word) (s : State) : Res :=
  onWin s ep (0x200 + 0x80 * c + 4 * i) <| done (s.winWrite ep (s.epMaster ep) (0x200 + 0x80 * c + 4 * i) value)

/-- R417: a read of word `i` of inbound mailbox `k`. -/
def execMbxInRead (ep : Fin 19) (k : Fin 4) (i : Fin 16) (s : State) : Res :=
  onWin s ep (0x80 * k + 4 * i) <|
  let (w, s1) := s.winRead ep (0x80 * k + 4 * i)
  .next { s1 with rdata := w.toNat }

/-- R424: a write of DB_RINGn. -/
def execDbRing (ep : Fin 19) (n : Fin 32) (value : Word) (s : State) : Res :=
  onWin s ep (0x480 + 8 * n) <| done (s.winWrite ep (s.epMaster ep) (0x480 + 8 * n) value)

/-- Modes in which a route may be written (R412). -/
def Mode.routes (m : Mode) : Bool := m == .config || m == .run || m == .degraded || m == .safe

/-- R411, R412: a host write of MBX_ROUTEn; reserved bits keep their reset value. -/
def execMbxRouteWrite (port : Fin 2) (i : Fin 76) (value : Word) (s : State) : Res :=
  onMw0 s port .mbx (MBX_ROUTE i) <|
  if !s.mode.routes then .next s
  else if s.routeBad i value then
    done (s.raiseMbx F_MBX_ROUTE_ERR (MBX_ROUTE_DEST.get value) (MBX_ROUTE_MB.get value) 0 (20 + port) 255)
  else .next (s.setReg (MBX_ROUTE i) (value &&& 0xC0001F03))

/-- R443: MBX_HOST_RESET.A resets endpoint 17. -/
def execMbxHostResetA (port : Fin 2) (s : State) : Res := onMw0 s port .mbx MBX_HOST_RESET <| done (s.epReset 17)

/-- R443: MBX_HOST_RESET.B resets endpoint 18; in bonded operation it has no effect. -/
def execMbxHostResetB (port : Fin 2) (s : State) : Res :=
  onMw0 s port .mbx MBX_HOST_RESET <| if s.bonded then .next s else done (s.epReset 18)

/-- R435: the message in mailbox `k` of endpoint `ep` has stayed unread beyond the limit. -/
def execMbxAgeExpiry (ep : Fin 19) (k : Fin 4) (s : State) : Res :=
  let b := s.inbox ep k
  if !b.full || b.agedOnce || s.rd MBX_AGE_LIMIT MBX_AGE_LIMIT_LIMIT == 0 then .next s
  else
    let s1 := ((s.setInbox ep k { b with aged := true, agedOnce := true }).setOstat b.sender b.chan 3).ringDb ep
      (BitVec.ofNat 32 (2 ^ 31))
    done (((s1.ringDb b.sender (BitVec.ofNat 32 (2 ^ 31))).bump MBX_CNT MBX_CNT_AGED 1).raiseMbx F_MBX_AGED ep k 0 31 b.sender)

end Sys2Proof.Machine
end

