-- ==== Sys2Proof/Machine/Mem.lean ====
section
/-! DEFINITION. The commands of the MEM block (file 07). -/

namespace Sys2Proof.Machine

/-- R365: the scrubber reads and corrects the next word or row of a bank. A word that already shows an uncorrectable
error shows it again. -/
def execBankScrubStep (buffer : Bool) (bank : Fin 72) (ecc : Ecc) (s : State) : Res :=
  if !s.flag MEM_SCRUB_CFG MEM_SCRUB_CFG_EN || decide (physBanks buffer ≤ bank.val) then .next s
  else
    let b := s.bank buffer bank
    let w := b.scrubAt
    let words := if buffer then 1024 else 16384
    let s1 := s.setBank buffer bank { b with scrubAt := (w + 1) % words }
    if b.mem.bad.contains w || ecc == .double then done (s1.bankUe buffer bank w 31 false 8)
    else if ecc == .single then done (s1.bankCe buffer bank w 31 false 8)
    else .next s1

/-- Modes in which host software may use MEM_OWN_REQ (R376). -/
def Mode.ownReq (m : Mode) : Bool := m == .config || m == .run || m == .degraded || m == .safe

/-- R372 to R376: a write of MEM_OWN_REQ. -/
def execMemOwnReq (port : Fin 2) (bank owner : Fin 64) (s : State) : Res :=
  onMw0 s port .mem MEM_OWN_REQ <|
    if !s.mode.ownReq then .next s else
    let o := owner.val
    let known := o == 0 || decide (0x10 ≤ o ∧ o < 0x20) || (o == 0x21) || (o == 0x22 && !s.bonded) || (o == 0x23)
    if !known || s.owner bank == 0x20 || s.mem.handover.isSome then
      .next (((s.wr MEM_OWN_STAT MEM_OWN_STAT_RESULT 3).wr MEM_OWN_STAT MEM_OWN_STAT_OWNER o).wr MEM_OWN_STAT
        MEM_OWN_STAT_BANK bank)
    else .next (s.startHandover bank o)

/-- R373: the drain marker reaches the bank, behind every access the old owner issued before the write. -/
def execHandoverMarkerArrive (s : State) : Res :=
  match s.mem.handover with
  | some h => if h.ahead = 0 then done (s.endHandover h 1) else .next s
  | none => .next s

/-- R374: 20 µs have passed; the handover is forced. -/
def execHandoverForceTimeout (s : State) : Res :=
  match s.mem.handover with
  | some h => done ((s.endHandover h 2).raise .mem F_MEM_HANDOVER_FORCED
      [memCap0 false (s.physOf false h.bank) 0, s.masterOf h.old, 0])
  | none => .next s

/-- R384: a write of MEM_MARCH_REQ with GO = 1. -/
def execMemMarchReq (port : Fin 2) (preserving buffer : Bool) (bank : Fin 128) (s : State) : Res :=
  onMw0 s port .mem MEM_MARCH_REQ <|
  let role := (s.bank buffer bank).role
  let unowned := !buffer && role == 0 && s.owner (s.logicalOf false bank) == 0
  let ok := decide (bank.val < physBanks buffer) && (preserving || role == 1 || role == 2 || unowned)
  let busy := s.mem.march.isSome || (match s.mem.repair with | some r => r.step == 1 | none => false)
  let s1 := s.wr MEM_MARCH_STAT MEM_MARCH_STAT_TARGET (b2n preserving * 256 + b2n buffer * 128 + bank)
  if busy || !ok then .next (s1.wr MEM_MARCH_STAT MEM_MARCH_STAT_RESULT 3)
  else .next (({ s1 with mem := { s1.mem with march := some ⟨preserving, buffer, bank⟩ } }.wr MEM_MARCH_STAT
    MEM_MARCH_STAT_BUSY 1).wr MEM_MARCH_STAT MEM_MARCH_STAT_FAIL_WORDS 0)

/-- R381, R383: the requested march ends; `failWords` words failed. A destructive march loses the data. -/
def execMarchDone (failWords : Nat) (s : State) : Res :=
  match s.mem.march with
  | none => .next s
  | some m =>
    let b := s.bank m.buffer m.bank
    let s1 := if m.preserving then s
      else { s.setBank m.buffer m.bank { b with mem := Mem.marched s.draws } with draws := s.draws + 1 }
    let s2 := (({ s1 with mem := { s1.mem with march := none } }.wr MEM_MARCH_STAT MEM_MARCH_STAT_BUSY 0).wr MEM_MARCH_STAT
      MEM_MARCH_STAT_RESULT (if failWords = 0 then 1 else 2)).wr MEM_MARCH_STAT MEM_MARCH_STAT_FAIL_WORDS
      (stopAt 4095 failWords)
    if failWords = 0 then .next s2 else done (s2.raise .mem F_MEM_MARCH_FAIL [memCap0 m.buffer m.bank 0, 30, 0])

/-- R401: host software asks Wadi to repair a logical bank at its next decision. -/
def execMemRepairReq (port : Fin 2) (buffer : Bool) (logical : Fin 64) (s : State) : Res :=
  onMw0 s port .mem MEM_REPAIR_REQ <|
  if logicalBanks buffer ≤ logical ∨ s.mem.asks.contains (buffer, logical.val) then .next s
  else .next { s with mem := { s.mem with asks := s.mem.asks ++ [(buffer, logical.val)] } }

/-- R385, R386: the marches of a repair end. -/
def execRepairMarchDone (spareOk origOk : Bool) (s : State) : Res :=
  match s.mem.repair with
  | none => .next s
  | some r =>
    if r.step ≠ 1 then .next s
    else
      let s0 := if origOk then s else s.raise .mem F_MEM_MARCH_FAIL [memCap0 r.buffer r.orig 0, 30, 0]
      if !spareOk then
        done ((s0.raise .mem F_MEM_MARCH_FAIL [memCap0 r.buffer r.spare 0, 30, 0]).abandonRepair r 1 2)
      else done ({ s0 with mem := { s0.mem with repair := some { r with step := 2 } } }.repairStat true 2)

/-- R385, R387: every word has been copied, poisoned words with their poison; mirrored stores keep the copy equal, so
the content moves as one at COMMIT. Each word that the copy read with an uncorrectable error raises UE (R390). -/
def execRepairCopyDone (s : State) : Res :=
  match s.mem.repair with
  | none => .next s
  | some r =>
    if r.step ≠ 2 then .next s
    else
      let s1 := { s with mem := { s.mem with repair := some { r with step := 3 } } }.repairStat true 3
      done ((s.bank r.buffer r.orig).mem.bad.foldl (fun t w => t.bankUe r.buffer r.orig w 30 false 8) s1)

/-- R385, R388: the NVM write of the repair entry ends. -/
def execRepairCommit (nvmOk : Bool) (s : State) : Res :=
  match s.mem.repair with
  | none => .next s
  | some r =>
    if r.step ≠ 3 then .next s
    else if !nvmOk then
      done ((s.abandonRepair r 5 1).raise .mem F_MEM_NVM_ERR [memCap0 r.buffer r.spare 0, 30, 0])
    else
      let o := s.bank r.buffer r.orig
      let k := s.bank r.buffer r.spare
      let s1 := (s.setBank r.buffer r.spare { k with role := 0, mem := o.mem }).setBank r.buffer r.orig { o with role := 2 }
      let s2 := { s1.setPhys r.buffer r.logical r.spare with
        nvm := { s1.nvm with repairs := s1.nvm.repairs ++ [(r.buffer, r.logical, r.orig, r.spare)] } }
      .next ((({ s2 with mem := { s2.mem with repair := none } }.repairStat false 4).wr MEM_REPAIR_STAT
        MEM_REPAIR_STAT_COMMIT 1).bump MEM_REPAIR_CNT MEM_REPAIR_CNT_DONE 1)

/-- R388: the original bank fails outright during COPY; Wadi remaps the logical bank with its content lost (R333). -/
def execRepairOrigFail (s : State) : Res :=
  match s.mem.repair with
  | none => .next s
  | some r => if r.step ≠ 2 then .next s else done ((s.abandonRepair r 6 1).remapLost r.buffer r.logical)

end Sys2Proof.Machine
end

