-- ==== Sys2Proof/Machine/Psq.lean ====
section
/-! DEFINITION. The commands and events of the pin sequencers (file 16). A row that names a part of an instruction is the
tick in which an instruction with that part is due; the whole instruction acts or stalls in it (R842, R847). -/

namespace Sys2Proof.Machine

/-- The tick of sequencer n in which a legal instruction that meets `p` is due. -/
def seqTickIf (s : State) (n : Nat) (pins : BitVec 48) (bad : Bool) (p : Word → Bool) : Res :=
  let w := (s.seqDue n).1
  if s.seqTicks n && seqLegal w && p w then done (s.seqTick n pins bad) else .next s

/-- R845: an instruction with FETCH_WAIT is due. -/
def execPsqFetchWait (seq : Fin 32) (pins : BitVec 48) (bad : Bool) (s : State) : Res :=
  seqTickIf s seq pins bad fun w => iDop w == 1

/-- R850: an instruction with FETCH_GO is due. -/
def execPsqFetchGo (seq : Fin 32) (pins : BitVec 48) (bad : Bool) (s : State) : Res :=
  seqTickIf s seq pins bad fun w => iDop w == 2

/-- R845: an instruction with STORE_WAIT is due. -/
def execPsqStoreWait (seq : Fin 32) (pins : BitVec 48) (bad : Bool) (s : State) : Res :=
  seqTickIf s seq pins bad fun w => iDop w == 3

/-- R850: an instruction with STORE_GO is due. -/
def execPsqStoreGo (seq : Fin 32) (pins : BitVec 48) (bad : Bool) (s : State) : Res :=
  seqTickIf s seq pins bad fun w => iDop w == 4

/-- R845: an instruction with RELOAD0 is due. -/
def execPsqReload0 (seq : Fin 32) (pins : BitVec 48) (bad : Bool) (s : State) : Res :=
  seqTickIf s seq pins bad fun w => iDop w == 5

/-- R845: an instruction with RELOAD1 is due. -/
def execPsqReload1 (seq : Fin 32) (pins : BitVec 48) (bad : Bool) (s : State) : Res :=
  seqTickIf s seq pins bad fun w => iDop w == 6

/-- R845: an instruction with SIGNAL is due. -/
def execPsqSignal (seq : Fin 32) (pins : BitVec 48) (bad : Bool) (s : State) : Res :=
  seqTickIf s seq pins bad fun w => iDop w == 7

/-- R846: an instruction with EMIT is due. -/
def execPsqEmit (seq : Fin 32) (pins : BitVec 48) (bad : Bool) (s : State) : Res :=
  seqTickIf s seq pins bad fun w => iPop w == 1

/-- R845: an instruction with PATTERN is due. -/
def execPsqPattern (seq : Fin 32) (pins : BitVec 48) (bad : Bool) (s : State) : Res :=
  seqTickIf s seq pins bad fun w => iPop w == 2

/-- R846: an instruction with CAPTURE is due. -/
def execPsqCapture (seq : Fin 32) (pins : BitVec 48) (bad : Bool) (s : State) : Res :=
  seqTickIf s seq pins bad fun w => iPop w == 3

/-- R845: an instruction with EXCHANGE is due. -/
def execPsqExchange (seq : Fin 32) (pins : BitVec 48) (bad : Bool) (s : State) : Res :=
  seqTickIf s seq pins bad fun w => iPop w == 4

/-- R845: an instruction with DIRECT is due. -/
def execPsqDirect (seq : Fin 32) (pins : BitVec 48) (bad : Bool) (s : State) : Res :=
  seqTickIf s seq pins bad fun w => iPop w == 5

/-- R845: an instruction with TOGGLE is due. -/
def execPsqToggle (seq : Fin 32) (pins : BitVec 48) (bad : Bool) (s : State) : Res :=
  seqTickIf s seq pins bad fun w => iPop w == 6

/-- R845: an instruction with flow BRANCH is due. -/
def execPsqBranch (seq : Fin 32) (pins : BitVec 48) (bad : Bool) (s : State) : Res :=
  seqTickIf s seq pins bad fun w => iFlow w == 1

/-- R845: an instruction with flow WAIT is due. -/
def execPsqFlowWait (seq : Fin 32) (pins : BitVec 48) (bad : Bool) (s : State) : Res :=
  seqTickIf s seq pins bad fun w => iFlow w == 2

/-- R845: an instruction with flow COUNT is due. -/
def execPsqCount (seq : Fin 32) (pins : BitVec 48) (bad : Bool) (s : State) : Res :=
  seqTickIf s seq pins bad fun w => iFlow w == 3

/-- R845: an illegal instruction is due. -/
def execPsqIllegal (seq : Fin 32) (pins : BitVec 48) (bad : Bool) (s : State) : Res :=
  if s.seqTicks seq && !seqLegal (s.seqDue seq).1 then done (s.seqTick seq pins bad) else .next s

/-- An instruction with no data operation, pin operation or flow: it only occupies its ticks. -/
def seqPlain (w : Word) : Bool := iDop w == 0 && iPop w == 0 && iFlow w == 0

/-- R842: the dwell of the present instruction ends. Outside a dwell, a due instruction that only occupies its ticks acts. -/
def execPsqDwellExpiry (seq : Fin 32) (pins : BitVec 48) (bad : Bool) (s : State) : Res :=
  let q := s.seqSt seq
  if q.running && q.dwell.isSome && s.seqMap seq != 0x3F then done (s.seqDwellEnd seq pins bad)
  else seqTickIf s seq pins bad seqPlain

/-- R852: a write of PSQ_START. -/
def execPsqStart (port : Fin 2) (value : Word) (s : State) : Res :=
  onMw0 s port .psq PSQ_START <| done (s.seqMask value.toNat fun t n => t.seqStart n true)

/-- R852: a write of PSQ_STOP. -/
def execPsqStop (port : Fin 2) (value : Word) (s : State) : Res :=
  onMw0 s port .psq PSQ_STOP <| done (s.seqMask value.toNat fun t n => t.seqHalt n 1)

/-- R852: a write of PSQ_CLKRST. -/
def execPsqClkrst (port : Fin 2) (value : Word) (s : State) : Res :=
  onMw0 s port .psq PSQ_CLKRST <| done (s.seqMask value.toNat fun t n => t.setSeq n { t.seqSt n with phase := 0 })

/-- R853: the upper-word write of PSQ_TSTART_TIME. -/
def execPsqTstartArm (port : Fin 2) (value : Word) (s : State) : Res :=
  onMw0 s port .psq (PSQ_TSTART_TIME + 4) <|
    done (s.armStart (value.toNat * 2 ^ 32 + (s.held32 PSQ_TSTART_TIME).toNat))

/-- R853: the time base reaches the armed time. -/
def execPsqTimedStart (s : State) : Res :=
  if s.flag PSQ_TSTART_STAT PSQ_TSTART_STAT_ARMED then done (s.timedStart false) else .next s

/-- An access to sequencer n by slot `who` below 16 through its window, or by host port `who - 16` through MW0. -/
def onSeq (s : State) (who : Fin 18) (n reg : Nat) (win mw0 : State → State) : Res :=
  if who.val < 16 then
    if s.inBlkReset .psq then .next s
    else if s.seqSlot n = some who.val then done (win s)
    else done ({ s with rdata := 0 }.raisePsq F_PSQ_WIN_ERR n 0 who)
  else onMw0 s (who - 16) .psq reg <| done (mw0 s)

/-- R851: START of one sequencer. -/
def execPsqSeqStart (who : Fin 18) (seq : Fin 32) (s : State) : Res :=
  onSeq s who seq (PSQ_SEQ_CTRL seq) (fun t => t.seqCtrl seq 2 1) fun t => t.seqCtrl seq 1 1

/-- R851: STOP of one sequencer. -/
def execPsqSeqStop (who : Fin 18) (seq : Fin 32) (s : State) : Res :=
  onSeq s who seq (PSQ_SEQ_CTRL seq) (fun t => t.seqCtrl seq 2 2) fun t => t.seqCtrl seq 1 2

/-- R851: RESTART of one sequencer. -/
def execPsqSeqRestart (who : Fin 18) (seq : Fin 32) (s : State) : Res :=
  onSeq s who seq (PSQ_SEQ_CTRL seq) (fun t => t.seqCtrl seq 2 4) fun t => t.seqCtrl seq 1 4

/-- R857: a write of INJECT. -/
def execPsqInject (who : Fin 18) (seq : Fin 32) (value : Word) (s : State) : Res :=
  onSeq s who seq (PSQ_SEQ_INJECT seq) (fun t => t.seqInject seq value) fun t => t.seqInject seq value

/-- A host access to TXF or RXF acts only for a sequencer held by no slot (R874). -/
def State.hostFifo (s : State) (n : Nat) (f : State → State) : State :=
  if (s.seqSlot n).isSome then { s with rdata := 0 }.raisePsq F_PSQ_WIN_ERR n 0 255 else f s

/-- R860, R874: a write of TXF. -/
def execPsqTxfPush (who : Fin 18) (seq : Fin 32) (value : Word) (s : State) : Res :=
  onSeq s who seq (PSQ_SEQ_TXF seq) (fun t => t.txfPush seq who value) fun t => t.hostFifo seq fun u => u.txfPush seq 255 value

/-- The word that a read of RXF returns. -/
def State.rxfRead (s : State) (n : Nat) : State :=
  let (_, w, t) := s.rxfPop n
  { t with rdata := w.toNat }

/-- R860, R874: a read of RXF. -/
def execPsqRxfPop (who : Fin 18) (seq : Fin 32) (s : State) : Res :=
  onSeq s who seq (PSQ_SEQ_RXF seq) (fun t => t.rxfRead seq) fun t => t.hostFifo seq fun u => u.rxfRead seq

/-- R856: a write of an instruction memory word. -/
def execPsqImemWrite (port : Fin 2) (seq : Fin 32) (i : Fin 128) (value : Word) (s : State) : Res :=
  onMw0 s port .psq (0x3C2000 + 0x200 * seq + 4 * i) <|
    .next (s.setSeq seq { s.seqSt seq with imem := SMap.set (fun _ => 0) (s.seqSt seq).imem i value })

/-- R848, R869: a write of PSQ_SEQn_SHIFT, which holds FIFO_MODE. -/
def execPsqFifoModeWrite (port : Fin 2) (seq : Fin 32) (value : Word) (s : State) : Res :=
  onMw0 s port .psq (PSQ_SEQ_SHIFT seq) <|
    .next ((s.setReg (PSQ_SEQ_SHIFT seq) (value &&& 0xCF067FE0)).setSeq seq { s.seqSt seq with tx := [], rx := [] })

/-- R861: a tick in which the sequencer is stopped, stalled or waiting; its execution state moves to the spare. -/
def execPsqRemapPoint (s : State) : Res :=
  let n := s.rd PSQ_REMAP PSQ_REMAP_LOGICAL
  let new := s.rd PSQ_REMAP PSQ_REMAP_TO
  let old := s.rd PSQ_REMAP PSQ_REMAP_FROM
  let q := s.seqSt n
  if s.flag PSQ_REMAP PSQ_REMAP_ACTIVE && (!q.running || q.stalled.isSome) then
    let s1 := (((s.setSeqMap n new).wr PSQ_REMAP PSQ_REMAP_ACTIVE 0).wr PSQ_REMAP PSQ_REMAP_STEP 2).bump PSQ_REMAP
      PSQ_REMAP_COUNT 1
    done ({ s1 with psq := { s1.psq with worn := old :: s1.psq.worn } }.seqRemapEvent n new old false)
  else .next s

/-- R861: no such tick within 1 s. -/
def execPsqRemapTimeout (s : State) : Res := .next s.dropSeqRemap

/-- R862: the parity of a machine's execution state fails. -/
def execPsqSmFail (machine : Fin 36) (s : State) : Res :=
  if s.psq.bad.contains machine.val then .next s
  else
    let inRemap := s.rd PSQ_REMAP PSQ_REMAP_TO == machine.val || s.rd PSQ_REMAP PSQ_REMAP_FROM == machine.val
    let s0 := (if inRemap then s.dropSeqRemap else s).unitFailed kPsq machine
    let s1 := { s0 with psq := { s0.psq with bad := machine.val :: s0.psq.bad } }
    match s.seqOfMachine machine with
    | none => done (s1.raiseFor .psq F_PSQ_SM_FAIL [0, 0, 0] 255)
    | some n =>
      let s2 := s1.raisePsq F_PSQ_SM_FAIL n 0 255
      match s2.spareSeqs with
      | m :: _ =>
        let q := s2.seqSt n
        let s3 := (s2.setSeq n { q with running := false }).setSeqMap n m
        done (((s3.seqRestart n 0).seqStart n true).seqRemapEvent n m machine true)
      | [] => done (((s2.shedSeq n).outageFrom (outSeq n)).lossOf 4 n)

end Sys2Proof.Machine
end

