-- ==== Sys2Proof/Machine/Pwr.lean ====
section
/-! DEFINITION. Supplies, soft start, rails and temperature (R1000 to R1010, R1025 to R1033). -/

namespace Sys2Proof.Machine

def State.onPwr (s : State) (f : PwrSt → PwrSt) : State := { s with pwr := f s.pwr }

/-! ## Soft start (R1000, R1004) -/

/-- R1000, R1004: 12V_PRE makes, and the input begins to charge. -/
def execInputSupplyApplied (s : State) : Res :=
  if s.pwr.on || s.pwr.charging then .next s else .next (s.onPwr fun p => { p with charging := true, fails := 0 })

/-- R966, R1004: the input has reached 10.8 V and the switch is fully on; the regulators start and FLT_N is driven low. -/
def execSoftStartOn (s : State) : Res :=
  if !s.pwr.charging then .next s
  else .next (((s.onPwr fun p => { p with
    charging := false, on := true, fails := 0, supply := true, rails := true, low := false, powerUp := true }).driveFlt).pwrShow)

/-- R1004: the input has not reached 10.8 V within 5 ms. -/
def execSoftStartTimeout (s : State) : Res :=
  if !s.pwr.charging then .next s
  else .next ((s.onPwr fun p => { p with charging := false, fails := p.fails + 1 }).bump PWR_CNT PWR_CNT_SS_FAIL 1)

/-- R1004: 100 ms after a failure the switch tries again, but not after three in a row. -/
def execSoftStartRetry (s : State) : Res :=
  if !s.pwr.on && !s.pwr.charging && decide (1 ≤ s.pwr.fails ∧ s.pwr.fails < 3) then
    .next (s.onPwr fun p => { p with charging := true })
  else .next s

/-! ## The logic supply and the rails (R1005, R1027) -/

/-- LOGIC_LOW at the onset of a low supply (R943, R1005). -/
def State.logicLow (s : State) (mv : Nat) : State :=
  let s1 := (s.onPwr fun p => { p with low := true }).pwrShow
  if s.pwr.low || s.boot.porst then s1 else s1.raise .pwr F_PWR_LOGIC_LOW [mv]

/-- R90, R127, R1005: 12V falls below 10.0 V, or to less than 10.8 V. -/
def execLogicSupplyLow (mv : BitVec 16) (s : State) : Res :=
  let v := mv.toNat
  let s1 := s.wr PWR_VMON PWR_VMON_V12 v
  if !s.pwr.on || decide (10800 ≤ v) then .next s
  else if 10000 ≤ v then done (s1.logicLow v)
  else
    let s2 := s.onPwr fun p => { p with supply := false }
    .next (if s.boot.porst then s2 else s2.porst false true).pwrShow

/-- R1005, R1008: 12V has stayed above 10.6 V for 10 ms. -/
def execLogicSupplyRecover (mv : BitVec 16) (s : State) : Res :=
  let v := mv.toNat
  if v ≤ 10600 then .next s
  else
    let s1 := (s.onPwr fun p => { p with supply := true, low := false }).release.wr PWR_VMON PWR_VMON_V12 v
    if v < 10800 then done (s1.logicLow v) else .next s1.pwrShow

/-- R1027: a rail has been outside ±5 % for 10 µs. -/
def execRailFail (rail : Fin 16) (s : State) : Res :=
  let s1 := (s.onPwr fun p => { p with rails := false }).pwrShow
  if !s.pwr.rails || s.boot.porst then .next s1 else done (s1.raise .pwr F_PWR_RAIL_FAIL [rail])

/-! ## Temperature (R1025, R1031, R1032) -/

/-- HIGH in units of 0.125 °C; values outside 90 to 120 act as the nearer limit (R1032). -/
def State.tempHigh (s : State) : Int := 8 * (max 90 (min 120 (s.rd PWR_TEMP_CFG PWR_TEMP_CFG_HIGH)) : Nat)

/-- R1025, R1030, R1031: the hottest sensor, 12V in mV and the 3.3 V rail in mV. -/
def execTempSample (temp mv v33 : BitVec 16) (s : State) : Res :=
  let t := temp.toInt
  let cap := temp.toNat
  let hot : Bool := if 135 * 8 ≤ t then true else if t < 100 * 8 then false else s.pwr.hot
  if s.boot.porst then .next (s.onPwr fun p => { p with hot := hot })
  else
    let old := signedOf 16 (s.rd PWR_TEMP PWR_TEMP_MAX)
    let s1 := (s.wr PWR_VMON PWR_VMON_V12 mv.toNat).wr PWR_VMON PWR_VMON_V33 v33.toNat
    let s2 := (s1.wr PWR_TEMP PWR_TEMP_NOW cap).wr PWR_TEMP PWR_TEMP_MAX (if old < t then cap else toBits 16 old)
    let high : Bool := decide (s.tempHigh ≤ t)
    let crit : Bool := decide (125 * 8 ≤ t)
    let s3 := s2.onPwr fun p => { p with hot := hot, high := high, crit := crit }
    if hot then .next (s3.porst false false).pwrShow
    else
      let s4 := if high && !s.pwr.high then s3.raise .pwr F_PWR_TEMP_HIGH [cap] else s3
      done (if crit && !s.pwr.crit then s4.raise .pwr F_PWR_TEMP_CRIT [cap] else s4)

end Sys2Proof.Machine
end

