-- ==== Sys2Proof/Machine/Time.lean ====
section
/-! DEFINITION. The commands and events of the TIME block (file 12). -/

namespace Sys2Proof.Machine

/-- R644, R649: a host write of TIME_FREQ. -/
def execTimeFreqWrite (port : Fin 2) (value : Word) (s : State) : Res :=
  onMw0 s port .time TIME_FREQ <| done (s.steer (.mw0 port) fun t => t.setFreq value (20 + port))

/-- R651: the upper-word write of TIME_STEP; the lower word is the holding value (R1034). -/
def execTimeStep (port : Fin 2) (value : Word) (s : State) : Res :=
  onMw0 s port .time (TIME_STEP + 4) <|
    done (s.steer (.mw0 port) fun t =>
      t.stepTime (signedOf 64 (value.toNat * 2 ^ 32 + (t.held32 TIME_STEP).toNat)) 0)

/-- R652: a host write of TIME_SLEW. -/
def execTimeSlew (port : Fin 2) (value : Word) (s : State) : Res :=
  onMw0 s port .time TIME_SLEW <| done (s.steer (.mw0 port) fun t => t.startSlew (signedOf 32 value.toNat) (20 + port))

/-- R652: a slew has added its whole amount. -/
def execSlewComplete (s : State) : Res := if s.tb.slew = 0 then .next s else done s.slewDone

/-- R651, R686: the upper-word write of TIME_SET_SEC replaces SEC and NS. -/
def execTimeSet (port : Fin 2) (value : Word) (s : State) : Res :=
  onMw0 s port .time (TIME_SET_SEC + 4) <|
    done (s.steer (.mw0 port) fun t =>
      let sec := value.toNat % 2 ^ 16 * 2 ^ 32 + (t.held32 TIME_SET_SEC).toNat
      (t.setReg64 TIME_SET_SEC sec).setTime sec (t.rd TIME_SET_NS ⟨29, 0⟩) 0)

/-- R683: a read of TIME_NOW_FRAC returns FRAC and latches NS and SEC for the port. -/
def execTimeNowFracRead (port : Fin 2) (s : State) : Res :=
  onMw0 s port .time TIME_NOW_FRAC <|
    done ({ s with rdata := s.tb.frac }.setPort port { s.port port with
      nowNs := s.tb.ns.toNat, nowSec := s.tb.sec.toNat, nowHeld := true })

/-- R655: a FREQ message. -/
def execSteerFreq (k : Fin 4) (s : State) : Res :=
  if !s.msgWaits k 1 then .next s else done (s.takeSteer k fun t ws => t.setFreq (ws.getD 1 0) (t.epMaster (s.inbox 16 k).sender))

/-- R655: a STEP message. -/
def execSteerStep (k : Fin 4) (s : State) : Res :=
  if !s.msgWaits k 2 then .next s
  else done (s.takeSteer k fun t ws =>
    t.stepTime (signedOf 64 ((ws.getD 2 0).toNat * 2 ^ 32 + (ws.getD 1 0).toNat)) 1)

/-- R655: a SLEW message. -/
def execSteerSlew (k : Fin 4) (s : State) : Res :=
  if !s.msgWaits k 3 then .next s
  else done (s.takeSteer k fun t ws => t.startSlew (signedOf 32 (ws.getD 1 0).toNat) (t.epMaster (s.inbox 16 k).sender))

/-- R655, R656: a LINK_DELAY message is applied whoever sent it. -/
def execLinkDelay (k : Fin 4) (s : State) : Res :=
  if !s.msgWaits k 4 then .next s
  else
    let (sender, ws, s1) := s.takeMsg k
    done ((s1.setReg (TIME_PORT_LINKDLY ((ws.getD 0 0).toNat % 16)) (ws.getD 1 0)).ringDb sender (BitVec.ofNat 32 (2 ^ 27)))

/-- R656: a message with an unknown OP or a length that does not match its OP is taken and rejected. -/
def execSteerMsgInvalid (k : Fin 4) (s : State) : Res :=
  let b := s.inbox 16 k
  if !b.full || opLen (msgOp [SMap.get (fun _ => 0) b.words 0]) == some b.len then .next s
  else
    let (sender, _, s1) := s.takeMsg k
    done (s1.steerRej (s1.steererOf sender))

/-- R672: a selected edge on a capture pin is time-stamped and queued, or lost. -/
def execTioCapture (pin : Fin 16) (rising : Bool) (s : State) : Res :=
  let cfg := TIO_CFG pin
  let edge := s.rd cfg TIO_CFG_EDGE
  if !s.flag cfg TIO_CFG_EN || s.rd cfg TIO_CFG_MODE != 0 || !bitOf edge (if rising then 0 else 1) then .next s
  else
    let x := s.tioAt pin
    let q : Nat := s.tb.total / 2 ^ 38
    let close := match x.last with | some l => decide (q < l + 32) && decide (l ≤ q) | none => false
    if close || decide (4 ≤ x.caps.length) then
      done (((s.bump (TIO_STAT pin) TIO_STAT_LOST 1).wr (TIO_STAT pin) TIO_STAT_OVF 1).raise .time F_TIME_TIO_OVF [pin])
    else
      let c := ((q : Int) - signedOf 16 (s.rd cfg TIO_CFG_CORR)) % (2 ^ 66 : Int)
      let ns := c.toNat / 4
      let s1 := s.setTio pin { x with caps := x.caps ++ [(ns, c.toNat % 4, rising)], last := some q }
      done (if s.flag cfg TIO_CFG_EVT then s1.event .time 0x31 4 ns (b2n rising * 64 + c.toNat % 4 * 16 + pin) else s1)

/-- R673: a read of TIOn_CAP, lower word then upper word: the head capture is latched, returned and removed. -/
def execTioCapRead (port : Fin 2) (pin : Fin 16) (s : State) : Res :=
  onMw0 s port .time (TIO_CAP pin) <|
    match (s.tioAt pin).caps with
    | [] => done ({ s with rdata := 0 }.wr (TIO_STAT pin) TIO_STAT_CAP_Q 0)
    | (ns, q, r) :: rest =>
      done ((({ s with rdata := ns }.wr (TIO_STAT pin) TIO_STAT_CAP_Q q).wr (TIO_STAT pin) TIO_STAT_CAP_EDGE (b2n r)).setTio
        pin { s.tioAt pin with caps := rest })

/-- A write of TIOn_CFG: enabling a pin starts its function; a disabled output drives its inactive level (R670, R674). -/
def State.tioCfg (s : State) (pin : Nat) (value : Word) : State :=
  let was := s.flag (TIO_CFG pin) TIO_CFG_EN
  let s1 := s.setReg (TIO_CFG pin) (value &&& 0xFFC0FFFF)
  let mode := s1.rd (TIO_CFG pin) TIO_CFG_MODE
  let out := mode == 1 || mode == 2 || mode == 3
  let level := s1.flag (TIO_CFG pin) TIO_CFG_LEVEL
  if !s1.flag (TIO_CFG pin) TIO_CFG_EN then
    (if out then (s1.setTio pin { s1.tioAt pin with pulse := false, done := false }).drive pin (!level) else s1)
  else if was then s1
  else
    let s2 := s1.setTio pin { s1.tioAt pin with done := false, next := s1.tioIndex pin, pulse := false }
    if mode = 1 ∧ s2.singlePast pin then (s2.singleEdge pin).tioLate pin
    else if out then s2.drive pin (!level) else s2

/-- R670, R674: a write of TIOn_CFG that enables the pin. -/
def execTioEnable (port : Fin 2) (pin : Fin 16) (value : Word) (s : State) : Res :=
  onMw0 s port .time (TIO_CFG pin) <| done (s.tioCfg pin value)

/-- The pin is enabled in a mode. -/
def State.tioRuns (s : State) (pin mode : Nat) : Bool :=
  s.flag (TIO_CFG pin) TIO_CFG_EN && s.rd (TIO_CFG pin) TIO_CFG_MODE == mode

/-- R670: the SINGLE edge occurs, once. -/
def execTioSingleEdge (pin : Fin 16) (s : State) : Res :=
  if s.tioRuns pin 1 && !(s.tioAt pin).done then done (s.singleEdge pin) else .next s

/-- A leading edge: the pin takes its active level and a pulse runs. -/
def State.leadEdge (s : State) (pin : Nat) : State :=
  (s.setTio pin { s.tioAt pin with pulse := true }).drive pin (s.flag (TIO_CFG pin) TIO_CFG_LEVEL)

/-- R670: a PERIODIC leading edge. -/
def execTioPeriodicEdge (pin : Fin 16) (s : State) : Res :=
  if s.tioRuns pin 2 then done ((s.setTio pin { s.tioAt pin with next := (s.tioAt pin).next + 1 }).leadEdge pin) else .next s

/-- R670: a PPS leading edge, as NS passes 0. -/
def execTioPpsEdge (pin : Fin 16) (s : State) : Res :=
  if s.tioRuns pin 3 then done (s.leadEdge pin) else .next s

/-- R670: a pulse ends after its WIDTH. -/
def execTioPulseEnd (pin : Fin 16) (s : State) : Res :=
  if (s.tioAt pin).pulse then
    done ((s.setTio pin { s.tioAt pin with pulse := false }).drive pin (!s.flag (TIO_CFG pin) TIO_CFG_LEVEL))
  else .next s

end Sys2Proof.Machine
end

