-- ==== Sys2Proof/Machine/Wake.lean ====
section
/-! DEFINITION. The commands and events of WAKE (file 15). -/

namespace Sys2Proof.Machine

/-- A write of SLP_CTRL by slot `who` below 16, or of WAKE_BUSn_CTRL through host port `who - 16` (R808). -/
def onSleepCtrl (s : State) (who : Fin 18) (bus : Fin 8) (v : Word) : Res :=
  if who.val < 16 then
    if s.inBlkReset .wake then .next s else onBusWin s who bus 0 <| done (s.sleepCtrl bus v)
  else onMw0 s (who - 16) .wake (WAKE_BUS_CTRL bus) <| done (s.sleepCtrl bus v)

/-- R808, R809: a sleep request. -/
def execBusSleepRequest (who : Fin 18) (bus : Fin 8) (s : State) : Res := onSleepCtrl s who bus 1

/-- R810: a CANCEL. -/
def execBusSleepCancel (who : Fin 18) (bus : Fin 8) (s : State) : Res := onSleepCtrl s who bus 2

/-- R811: the idle count of a PENDING bus reaches WAKE_COMMIT.TIME. -/
def execSleepGateClose (bus : Fin 8) (s : State) : Res :=
  let b := s.bus bus
  if s.sleepState bus = 1 ∧ b.sending.isNone ∧ b.bits (·.pending) = 0 ∧ s.mdbEst bus < 2 then done (s.fallAsleep bus 2)
  else .next s

/-- The source code of R825. -/
def wakeCode : WakeSrc → Nat
  | .activity => 1 | .pattern => 2 | .selective => 3 | .frameErr => 4

/-- Whether a wake event is one of the bus's mode (R814); a frame error count wakes when it exceeds 31 (R817). -/
def State.wakeOfMode (s : State) (n : Nat) (src : WakeSrc) : Bool :=
  let m := s.rd (WAKE_BUS_CFG n) WAKE_BUS_CFG_MODE
  match src with
  | .activity => m == 0 || m == 3
  | .pattern => m == 1
  | .selective => m == 2
  | .frameErr => m == 2 && s.rd (WAKE_BUS_STAT n) WAKE_BUS_STAT_FERR == 31

/-- R812 to R814, R819, R820, R824, R825: a wake event. `afterIdle`: its dominant phase begins after the idle count has
started (PENDING), or after the bus has been idle for WAKE_COMMIT.TIME (WITHDRAWN). -/
def execBusWakeEvent (bus : Fin 8) (src : WakeSrc) (ide : Bool) (id : BitVec 29) (afterIdle : Bool) (s : State) : Res :=
  if s.filterArmed bus && s.wakeOfMode bus src then
    done (match src with
      | .selective => s.busWakeEvent bus 3 id.toNat ide afterIdle
      | _ => s.busWakeEvent bus (wakeCode src) 0 false afterIdle)
  else .next s

/-- R815, R817: the armed filter sees something that is not a wake event. -/
def execWakeFilterActivity (bus : Fin 8) (what : FilterSeen) (s : State) : Res :=
  let st := WAKE_BUS_STAT bus
  let ferr := s.rd st WAKE_BUS_STAT_FERR
  let selective := s.rd (WAKE_BUS_CFG bus) WAKE_BUS_CFG_MODE == 2
  if !s.filterArmed bus then .next s
  else match what with
    | .short => .next (s.bump st WAKE_BUS_STAT_FALSE 1)
    | .badFrame =>
      if !selective then .next s
      else if ferr < 31 then .next (s.wr st WAKE_BUS_STAT_FERR (ferr + 1))
      else done (s.busWakeEvent bus 4 0 false true)
    | .goodFrame => if selective then .next (s.wr st WAKE_BUS_STAT_FERR (ferr - 1)) else .next s

/-- R818, R819: a bus has been PENDING for AWAKE_MAX. -/
def execAwakeMaxExpiry (bus : Fin 8) (s : State) : Res :=
  if s.sleepState bus = 1 ∧ s.rd (WAKE_BUS_CFG bus) WAKE_BUS_CFG_AWAKE_MAX ≠ 0 then
    let s1 := (s.event .wake 0x4A 5 (bus * 2 ^ 32) 0).raiseFor .wake F_WAKE_AWAKE_MAX [bus, 0, 0] bus
    done (if s.flag (WAKE_BUS_CFG bus) WAKE_BUS_CFG_WITHDRAW then s1.fallAsleep bus 3 else s1)
  else .next s

/-- R824, R825: WAKE_N has been low for 1 ms. -/
def execWakeNAssert (s : State) : Res :=
  if s.flag WAKE_CTRL WAKE_CTRL_PIN_EN then done (s.moduleWake 5 0 0 false) else .next s

/-- R824, R825: the wake timer expires. -/
def execStandbyTimerExpiry (s : State) : Res :=
  if s.mode = .standby ∧ s.rd WAKE_CTRL WAKE_CTRL_TIMER ≠ 0 then done (s.moduleWake 6 0 0 false) else .next s

end Sys2Proof.Machine
end

