-- ==== Sys2Proof/Machine/MwRead.lean ====
section
/-! DEFINITION. What MW0 holds and what a read of it returns: registers, the values that registers show of the machine's other
state, mailbox views, MSI-X table and pending bits (R18, R62 to R68, R409, R485, and the blocks' register tables). -/

namespace Sys2Proof.Machine

/-! ## What an offset names -/

/-- What an MW0 offset names: a mailbox view offset, a word of the MSI-X table or of the pending-bit array, a register of a
block, or nothing (R65, R409, R500). -/
inductive Mw0Place where
  | window (ep off : Nat)
  | msix (k : Nat)
  | pba (k : Nat)
  | reg (b : BlkId)
  | nothing
  deriving DecidableEq, Repr

/-- The place of an offset as host port `p` sees it: a port's mailbox view is its own (R409). -/
def mw0Place (p off : Nat) : Mw0Place :=
  if 0x21000 + 0x1000 * p ≤ off ∧ off < 0x22000 + 0x1000 * p then .window (17 + p) (off - (0x21000 + 0x1000 * p))
  else if 0x18000 ≤ off ∧ off < 0x18400 then .msix ((off - 0x18000) / 4)
  else if 0x18400 ≤ off ∧ off < 0x18408 then .pba ((off - 0x18400) / 4)
  else match blkAt off with
    | some b => if (fieldsAt off).isSome then .reg b else .nothing
    | none => .nothing

/-- The block whose reset or stopped clock leaves an access without a response (R62). -/
def mw0Blk (off : Nat) : Option BlkId := blkAt off

/-- Whether the access gets a response (R62, R65, R1035): outside every block HIF itself answers. -/
def State.mw0Served (s : State) (off : Nat) : Bool :=
  match mw0Blk off with
  | some b => s.serves b
  | none => !s.onlyGen

/-- The offset is the lower word of a 64-bit register, by block and instance offset. -/
def wideAt (b : BlkId) (o : Nat) : Bool :=
  o == 0xF40 ||
    match b with
    | .gen => o == 0x28
    | .hif => o == 0x10 || o == 0x18 || (decide (0x4000 ≤ o ∧ o < 0x8000) && (o % 0x20 == 0 || o % 0x20 == 8))
    | .swc => decide (0x600 ≤ o ∧ o < 0x800) && o % 0x20 == 8
    | .time => [0x18, 0x20, 0x38, 0x40].contains o ||
        (decide (0x200 ≤ o ∧ o < 0x400) && (o % 0x20 == 8 || o % 0x20 == 0x18))
    | .mac _ => decide (0x100 ≤ o ∧ o < 0x140) && o % 8 == 0
    | .mdb n => n != 8 && (o == 0x20 || (decide (0x400 ≤ o ∧ o < 0x600) && o % 8 == 0))
    | .wake => decide (0x100 ≤ o ∧ o < 0x300) && o % 0x40 == 0x18
    | .psq => o == 0x18
    | _ => false

/-- The lower word of a 64-bit register (R14). -/
def isWide (off : Nat) : Bool :=
  match blkAt off with
  | some b => (fieldsAt off).isSome && wideAt b (off - b.base)
  | none => false

/-- The upper word of a 64-bit register. -/
def isUpper (off : Nat) : Bool := decide (4 ≤ off) && isWide (off - 4)

/-- The element of an array of `n` registers at `base` with a stride. -/
def elemAt (off base stride n : Nat) : Option Nat :=
  if base ≤ off ∧ (off - base) % stride = 0 ∧ (off - base) / stride < n then some ((off - base) / stride) else none

/-! ## What registers show -/

/-- FSTAT with HOLD (R984). -/
def State.fstatView (s : State) (b : BlkId) : Word :=
  (Fld.mk 29 29).put (s.reg (FSTAT b)) (b2n (s.faults.holds.any fun h => h.blk == b))

/-- GEN registers (R123, R124). -/
def State.genView (s : State) (off : Nat) : Word :=
  if off = 4 then BitVec.ofNat 32 (b2n !s.m10)
  else if off = GEN_MODE_STAT then
    GEN_MODE_STAT_SHORT.put (GEN_MODE_STAT_MODE.put (s.reg off) s.mode.code) (b2n s.fewUnits)
  else s.reg off

/-- HIF_LINK_A or HIF_LINK_B (R503). -/
def HostPort.linkView (h : HostPort) : Nat :=
  b2n h.up * 2 ^ 31 + b2n h.bme * 2 ^ 30 + b2n h.lostBit * 2 ^ 29 + h.downCount * 2 ^ 16 + h.width * 2 ^ 8 + h.speed

/-- HIF_RINGr_STAT (R511). -/
def Ring.statView (x : Ring) : Nat := x.cidx * 2 ^ 16 + x.err * 2 ^ 8 + x.port * 2 ^ 6 + x.state.code

/-- HIF registers (R501, R503, R511, R512). -/
def State.hifView (s : State) (off : Nat) : Word :=
  if off = 0x10000 then
    BitVec.ofNat 32 (b2n s.bonded * 2 ^ 31 + (s.rings.filter fun e => e.2.state == .orphaned).length * 2 ^ 20 +
      s.ringsUnder 1 * 2 ^ 10 + s.ringsUnder 0)
  else if off = HIF_LINK 0 then BitVec.ofNat 32 s.portA.linkView
  else if off = HIF_LINK 1 then BitVec.ofNat 32 s.portB.linkView
  else match elemAt off 0x14018 0x20 512 with
    | some r => BitVec.ofNat 32 (s.ring r).statView
    | none =>
      match elemAt off 0x1401C 0x20 512 with
      | some r => BitVec.ofNat 32 (s.ring r).drops
      | none => s.reg off

/-- WADI registers (R301, R347, R351, R352). -/
def State.wadiView (s : State) (off : Nat) : Word :=
  if off = 0x30004 then BitVec.ofNat 32 s.wadiStat
  else if off = 0x30014 then BitVec.ofNat 32 s.oasis
  else if off = WADI_SHORT then BitVec.ofNat 32 s.wadiShort
  else if off = WADI_MIG_DIRTY then
    (Fld.mk 11 0).put (s.reg off) (match s.pers.mig with | some m => m.lines.length | none => 0)
  else s.reg off

/-- MEM_BANK_INFO of the selected bank (R395, R396); values beyond the kind read as failed. -/
def State.bankInfo (s : State) : Nat :=
  let buffer := s.flag MEM_BANK_SEL MEM_BANK_SEL_KIND
  let p := s.rd MEM_BANK_SEL MEM_BANK_SEL_BANK
  if physBanks buffer ≤ p then 2 * 2 ^ 30
  else
    let k := s.bank buffer p
    k.role * 2 ^ 30 + (if k.role = 0 then s.logicalOf buffer p * 2 ^ 24 else 0) + k.ue * 2 ^ 16 + k.ce

/-- MEM registers (R396, R406). -/
def State.memView (s : State) (off : Nat) : Word :=
  if off = 0x4000C then BitVec.ofNat 32 s.bankInfo
  else match elemAt off 0x40400 4 64 with
    | some n => BitVec.ofNat 32 (s.physOf false n * 2 ^ 24 + s.owner n)
    | none => s.reg off

/-- PE_STAT (R193). -/
def Engine.statView (e : Engine) : Nat :=
  stopAt 255 e.deferred * 2 ^ 24 + b2n e.stopPend * 2 ^ 20 + b2n (e.fau.rx.isSome || e.fau.tx.isSome) * 2 ^ 19 +
    b2n e.wbuf.isEmpty * 2 ^ 18 + (match e.slot with | some l => 2 ^ 16 + l.val * 2 ^ 8 | none => 0) + e.haltCause * 2 ^ 3 + e.state.code

/-- PE registers (R193, R199). -/
def State.peView (s : State) (n off : Nat) : Word :=
  if h : n < 18 then
    let e := s.pe ⟨n, h⟩
    if off = PE_CTRL n - 4 then BitVec.ofNat 32 e.statView
    else if off = PE_WDOG n + 4 then BitVec.ofNat 32 (pcAddr e.lastPc)
    else s.reg off
  else s.reg off

/-- MAC registers: at the higher port of a pair MAC_RED_SEQ reads 0 (R565). -/
def State.macView (s : State) (n off : Nat) : Word :=
  if off = MAC_RED_SEQ n ∧ (match s.pairOf n with | some p => decide (p < n) | none => false) = true then 0 else s.reg off

/-- SWC registers (R620, R627, R634, R636, R637). -/
def State.swcView (s : State) (off : Nat) : Word :=
  if off = 0x280000 then BitVec.ofNat 32 (s.poolFree * 2 ^ 16 + s.poolSize)
  else if off = SWC_FCT_STAT then (Fld.mk 31 16).put (s.reg off) s.fctValid
  else match (List.range 16).find? fun n => off == SWC_PORT_OCC n with
    | some n => (Fld.mk 15 0).put (s.reg off) (s.portOcc n)
    | none =>
      match (List.range 16).find? fun l => off == SWC_SLOT_BUF l with
      | some l => (Fld.mk 31 16).put (s.reg off) (s.slotOcc l)
      | none =>
        match (List.range 512).find? fun r => off == SWC_RING_QUOTA r with
        | some r => if s.ringType r ≤ 1 then (Fld.mk 31 16).put (s.reg off) (s.ringOcc r) else s.reg off
        | none => s.reg off

/-- TIME registers (R683, R687, R693). NS and SEC stay as the port's last read of TIME_NOW_FRAC latched them. -/
def State.timeView (s : State) (p off : Nat) : Word :=
  let h := s.port p
  if off = TIME_NOW_FRAC then BitVec.ofNat 32 s.tb.frac
  else if off = TIME_NOW_FRAC + 4 then BitVec.ofNat 32 (if h.nowHeld then h.nowNs else s.tb.ns.toNat)
  else if off = TIME_NOW_FRAC + 8 then BitVec.ofNat 32 ((if h.nowHeld then h.nowSec else s.tb.sec.toNat) % 2 ^ 32)
  else if off = TIME_NOW_FRAC + 12 then BitVec.ofNat 32 ((if h.nowHeld then h.nowSec else s.tb.sec.toNat) / 2 ^ 32)
  else if off = 0x300040 then BitVec.ofNat 32 (s.now % 2 ^ 32)
  else if off = 0x300044 then BitVec.ofNat 32 (s.now / 2 ^ 32)
  else match (List.range 16).find? fun n => off == TIO_STAT n with
    | some n => (Fld.mk 18 16).put (s.reg off) (s.tioAt n).caps.length
    | none => s.reg off

/-- WAKE_BUSn_AWAKE: ms in PENDING (R832). -/
def State.awakeMs (s : State) (n : Nat) : Nat :=
  if s.sleepState n = 1 then ((s.now + 2 ^ 64 - (s.bus n).pendAt) % 2 ^ 64 / 1000000) % 2 ^ 32 else 0

def State.wakeView (s : State) (off : Nat) : Word :=
  match elemAt off 0x3A0120 0x40 8 with
  | some n => BitVec.ofNat 32 (s.awakeMs n)
  | none => s.reg off

/-- PSQ registers (R868, R873, R874). -/
def State.psqView (s : State) (off : Nat) : Word :=
  if off = 0x3C000C then
    BitVec.ofNat 32 (sumOf ((List.range 32).map fun n => b2n (s.seqSt n).running * 2 ^ n))
  else if off = 0x3C0028 then BitVec.ofNat 32 (s.psq.pins.toNat % 2 ^ 32)
  else if off = 0x3C002C then BitVec.ofNat 32 (s.psq.pins.toNat / 2 ^ 32)
  else if 0x3C2000 ≤ off then
    SMap.get (fun _ => 0) (s.seqSt ((off - 0x3C2000) / 0x200)).imem ((off - 0x3C2000) % 0x200 / 4)
  else match (List.range 32).find? fun n => off + 4 == PSQ_SEQ_CTRL n with
    | some n => BitVec.ofNat 32 (s.seqStat n)
    | none => s.reg off

/-- WORST: the highest effective class among unacknowledged occurrences; 7 for none (R989). -/
def State.worstClass (s : State) : Nat :=
  let m := s.faults.srcs.foldl (fun m e => match e.2 with | some x => max m (x.eff + 1) | none => m) 0
  if m = 0 then 7 else m - 1

/-- HLTH_UNIT, RAW and REF show the selected unit (R990); a selection that names no unit reads as failed. -/
def State.unitView (s : State) (what : Nat) : Nat :=
  let k := s.rd HLTH_SEL HLTH_SEL_KIND
  let u := s.rd HLTH_SEL HLTH_SEL_UNIT
  if kindUnits.getD k 0 ≤ u then (if what = 0 then 2 ^ 31 else 0)
  else
    let w := s.wear k u
    if what = 0 then
      b2n w.failed * 2 ^ 31 + b2n w.worn * 2 ^ 30 + b2n w.retire * 2 ^ 29 + b2n w.valid * 2 ^ 28 + w.index
    else if what = 1 then w.raw % 2 ^ 32
    else (w.ref.getD 0) % 2 ^ 32

/-- HLTH registers (R989 to R991). -/
def State.hlthView (s : State) (off : Nat) : Word :=
  if off = HLTH_STAT then
    (Fld.mk 29 27).put ((Fld.mk 30 30).put (s.reg off) (b2n s.faults.fltLow)) s.worstClass
  else if off = HLTH_UNIT then BitVec.ofNat 32 (s.unitView 0)
  else if off = HLTH_UNIT + 4 then BitVec.ofNat 32 (s.unitView 1)
  else if off = HLTH_UNIT + 8 then BitVec.ofNat 32 (s.unitView 2)
  else if off = 0x440028 then
    BitVec.ofNat 32 (s.faultLog.length * 2 ^ 16 + (s.nvm.faultNext + s.faults.buffered.length) % 128)
  else s.reg off

/-- The word that a register shows to host port `p`. -/
def State.view (s : State) (p : Nat) (b : BlkId) (off : Nat) : Word :=
  if off = FSTAT b then s.fstatView b
  else if isFaultReg off then s.reg off
  else match b with
    | .gen => s.genView off
    | .hif => s.hifView off
    | .wadi => s.wadiView off
    | .mem => s.memView off
    | .pe n => s.peView n off
    | .mac n => s.macView n off
    | .swc => s.swcView off
    | .time => s.timeView p off
    | .wake => s.wakeView off
    | .psq => s.psqView off
    | .hlth => s.hlthView off
    | _ => s.reg off

/-! ## Reads -/

/-- The RC fields of a register clear (R18); HIF_RINGr_CNT is the ring's own count. -/
def State.clearRc (s : State) (b : BlkId) (off : Nat) : State :=
  match (if b = .hif then elemAt off 0x1401C 0x20 512 else none) with
  | some r => s.setRing r { s.ring r with drops := 0 }
  | none =>
    let m := accMask (· == .rc) ((fieldsAt off).getD [])
    if m = 0 then s else s.setReg off (s.reg off &&& ~~~ m)

/-- The upper word latched for a port by its last lower-word read of a register (R67). -/
def HostPort.latched (h : HostPort) (off : Nat) : Option Word := SMap.get (fun _ => none) h.latch off

def State.setLatch (s : State) (p off : Nat) (w : Option Word) : State :=
  s.setPort p { s.port p with latch := SMap.set (fun _ => none) (s.port p).latch off w }

/-- The lower word of TIOn_CAP latches the head capture; the read of its upper word removes it (R673). -/
def tioCapOf (off : Nat) : Option Nat := (List.range 16).find? fun n => off == TIO_CAP n

/-- A read of TIOn_CAP's lower word: the capture stays at the head until its upper word is read. -/
def State.tioCapLow (s : State) (p n : Nat) : Word × State :=
  match (s.tioAt n).caps with
  | [] => (0, (s.wr (TIO_STAT n) TIO_STAT_CAP_Q 0).setLatch p (TIO_CAP n) (some 0))
  | (ns, q, r) :: _ =>
    (BitVec.ofNat 32 (ns % 2 ^ 32),
      (((s.wr (TIO_STAT n) TIO_STAT_CAP_Q q).wr (TIO_STAT n) TIO_STAT_CAP_EDGE (b2n r)).setLatch p (TIO_CAP n)
        (some (BitVec.ofNat 32 (ns / 2 ^ 32)))))

/-- A read of TIOn_CAP's upper word. -/
def State.tioCapHigh (s : State) (p n : Nat) : Word × State :=
  match (s.port p).latched (TIO_CAP n) with
  | some w => (w, (s.setTio n { s.tioAt n with caps := (s.tioAt n).caps.drop 1 }).setLatch p (TIO_CAP n) none)
  | none => (match (s.tioAt n).caps with | (ns, _, _) :: _ => BitVec.ofNat 32 (ns / 2 ^ 32) | [] => 0, s)

/-- A 32-bit read of a register that its block answers: the value and the state after its effects (R18, R67). -/
def State.readReg (s : State) (p : Nat) (b : BlkId) (off : Nat) : Word × State :=
  match (if b = .time then tioCapOf off else none), (if b = .time ∧ 4 ≤ off then tioCapOf (off - 4) else none) with
  | some n, _ => s.tioCapLow p n
  | none, some n => s.tioCapHigh p n
  | none, none =>
    if isUpper off then
      match (s.port p).latched (off - 4) with
      | some w => (w, s.setLatch p (off - 4) none)
      | none => (s.view p b off, s)
    else if isWide off then (s.view p b off, s.setLatch p off (some (s.view p b (off + 4))))
    else (s.view p b off, s.clearRc b off)

/-- The pending-bit array (R485). -/
def HostPort.pbaWord (h : HostPort) (k : Nat) : Word :=
  BitVec.ofNat 32 (sumOf ((List.range 32).map fun v => b2n (h.pba.contains (32 * k + v)) * 2 ^ v))

/-- The answer of a read. -/
def readAns (x : Word × State) : Res := done { x.2 with rdata := x.1.toNat }

/-- A 32-bit read of MW0 by a host port. -/
def mw0Read (s : State) (p : Fin 2) (off : Nat) : Res :=
  if !s.mw0Served off then done { s.mw0Timeout p off false with rdata := 0xFFFFFFFF }
  else match mw0Place p off with
    | .nothing => done { s.mw0Unmapped p off false with rdata := 0 }
    | .window ep o => readAns (s.winRead ep o)
    | .msix k => readAns (SMap.get msixDefault (s.port p).msix k, s)
    | .pba k => readAns ((s.port p).pbaWord k, s)
    | .reg b =>
      match b with
      | .pe n => if off = PE_DBG_DATA n then execPeDbgDataAccess p (Fin.ofNat 18 n) none s else readAns (s.readReg p b off)
      | .time => if off = TIME_NOW_FRAC then execTimeNowFracRead p s else readAns (s.readReg p b off)
      | .psq =>
        match elemAt off (PSQ_SEQ_RXF 0) (PSQ_SEQ_RXF 1 - PSQ_SEQ_RXF 0) 32 with
        | some n => done (s.hostFifo n fun t => t.rxfRead n)
        | none => readAns (s.readReg p b off)
      | _ => readAns (s.readReg p b off)

end Sys2Proof.Machine
end

