-- ==== Sys2Proof/Machine/MwWrite.lean ====
section
/-! DEFINITION. What a host write of MW0 does, by the register it names (R18, R62 to R68, R1034, and the blocks' register
tables). A register whose write has a row of its own is written by that row's meaning. -/

namespace Sys2Proof.Machine

/-! ## Fault registers (R945, R949, R951, R972, R986) -/

/-- A reaction code that an instance allows for a source (R949). -/
def reactAllowed (b : BlkId) (code : Nat) : Bool :=
  if code = 0 ∨ code = 4 then true
  else match b with
    | .pe _ => code == 1 || code == 2
    | .mac _ => code == 2 || code == 3
    | .sio => code == 5
    | _ => code == 2 && b.resetCode.isSome

/-- A write of FCLASSw or FREACTw: source by source, a code that is not allowed keeps the old one (R949, R986, R932). -/
def State.sourceWrite (s : State) (b : BlkId) (off w : Nat) (react : Bool) (v : Word) : State :=
  s.regWrite off ((b.sources.filter fun r => r.bit / 8 == w).foldl (fun (x : Word) r =>
    let f : Fld := ⟨4 * (r.bit % 8) + (if react then 3 else 2), 4 * (r.bit % 8)⟩
    let ok := (if react then reactAllowed b (f.get v) else decide (f.get v ≤ 4)) && !(b == .sio && !s.m10 && sioFixed r.bit)
    if ok then x else f.put x (f.get (s.reg off))) v)

/-- A write of a fault register. -/
def State.faultWrite (s : State) (p : Fin 2) (b : BlkId) (off : Nat) (v : Word) : Res :=
  let o := off - b.base
  if o = 0xF00 then execFstatWrite p (BitVec.ofNat 12 b.code) v s
  else if o = 0xF08 then execFaultForce p (BitVec.ofNat 12 b.code) v s
  else if 0xF10 ≤ o ∧ o ≤ 0xF18 then done (s.sourceWrite b off ((o - 0xF10) / 4) false v)
  else if 0xF20 ≤ o ∧ o ≤ 0xF28 then done (s.sourceWrite b off ((o - 0xF20) / 4) true v)
  else done (s.regWrite off v)

/-! ## 64-bit registers (R1034) -/

/-- A lower-word write sets the holding value, where the register has anything to write. -/
def State.hold (s : State) (off : Nat) (v : Word) : State :=
  if accMask (fun a => a == .rw || a == .rws || a == .wo) ((fieldsAt off).getD []) = 0 then s
  else { s with holding := SMap.set (fun _ => 0) s.holding off v }

/-- An upper-word write: the register takes both words. -/
def State.pairWrite (s : State) (off : Nat) (v : Word) : State :=
  (s.regWrite (off - 4) (s.held32 (off - 4))).regWrite off v

/-- A write of WAKE_BUSn_CFG, ID, IDMASK, DLC or DMASK while the bus is not AWAKE (R828). -/
def State.wakeCfgErr (s : State) (n : Nat) : State := s.raiseFor .wake F_WAKE_CFG_ERR [n, 0, 0] n

/-- MDB's CFG_ERR for a write of a host port (R784, R791, R792). -/
def State.mdbCfgErr (s : State) (p n : Nat) : State := s.raiseFor (.mdb n) F_MDB_CFG_ERR (mdbCaps n 0 (20 + p)) n

/-- What a discarded write of either word of a 64-bit register leaves (R460, R505, R611, R804, R828); none where the write is
accepted. -/
def State.wideDrop (s : State) (p : Nat) (b : BlkId) (off : Nat) : Option State :=
  match b with
  | .hif =>
    if off < 0x14000 then
      let page := (off - HIF_DB_BASE 0) / 8
      if p ≠ page ∨ 0 < s.ringsUnder page then some (s.raise .hif F_HIF_CTX_WRITE [off, 20 + p, 5]) else none
    else
      let r := (off - 0x14000) / 0x20
      if (s.ring r).state ≠ .disabled then some (s.ctxWrite p off (s.ringType r)) else none
  | .swc => if s.flag (SWC_GATE_CFG ((off - 0x280600) / 0x20)) SWC_GATE_CFG_EN then some s else none
  | .mdb n => if 0x400 ≤ off - b.base ∧ s.flag (MDB_CTRL n) MDB_CTRL_TT_EN then some (s.mdbCfgErr p n) else none
  | .wake =>
    let n := (off - 0x3A0100) / 0x40
    if s.sleepState n ≠ 0 then some (s.wakeCfgErr n) else none
  | _ => none

/-- A write of the lower word. -/
def State.lowWrite (s : State) (p : Nat) (b : BlkId) (off : Nat) (v : Word) : Res :=
  match s.wideDrop p b off with
  | some t => done t
  | none => done (s.hold off v)

/-- A write of the upper word. -/
def State.highWrite (s : State) (p : Fin 2) (b : BlkId) (off : Nat) (v : Word) : Res :=
  match s.wideDrop p b off with
  | some t => done t
  | none =>
    match b with
    | .hif =>
      if off < 0x14000 then execDbBaseWrite p (Fin.ofNat 2 ((off - HIF_DB_BASE 0) / 8)) (v ++ s.held32 (off - 4)) s
      else done (s.pairWrite off v)
    | .time =>
      if off = TIME_STEP + 4 then execTimeStep p v s
      else if off = TIME_SET_SEC + 4 then execTimeSet p v s
      else done (s.pairWrite off v)
    | .psq => execPsqTstartArm p v s
    | _ => done (s.pairWrite off v)

/-! ## 32-bit registers, block by block -/

/-- GEN (R92, R107, R125, R126, R128, R133). -/
def State.genWrite (s : State) (p : Fin 2) (off : Nat) (v : Word) : Res :=
  if off = GEN_MODE_REQ then execGenModeReq p v s
  else if off = GEN_RESET then
    let key := BitVec.ofNat 8 (bitsOf v.toNat 31 24)
    if bitOf v.toNat 0 then execWarmResetRequest p key s
    else if bitOf v.toNat 1 then execBlockReset p key (BitVec.ofNat 5 (bitsOf v.toNat 12 8)) s
    else done (if key = 0xA5 then s else s.resetKey)
  else if off = GEN_HOSTIMG_GO then execGenHostimgGo p v s
  else if off = GEN_BOOT_CFG then
    let s1 := s.regWrite off v
    done { s1 with nvm := { s1.nvm with bootCfg := s1.reg off } }
  else done (s.regWrite off v)

/-- HIF (R459 to R461, R512). -/
def State.hifWrite (s : State) (p : Fin 2) (off : Nat) (v : Word) : Res :=
  if off < 0x14000 then done (s.regWrite off v)
  else
    let r := Fin.ofNat 512 ((off - 0x14000) / 0x20)
    let o := (off - 0x14000) % 0x20
    let free := (s.ring r).state == .disabled
    if o = 0x1C then .next s
    else if o = 0x10 then
      if bitOf v.toNat 31 then execRingBind p r v s
      else if free then done (s.regWrite off v)
      else execRingUnbind p r s
    else if free then done (s.regWrite off v)
    else done (s.ctxWrite p off (s.ringType r))

/-- MBX (R411, R443). -/
def State.mbxWrite (s : State) (p : Fin 2) (off : Nat) (v : Word) : Res :=
  if off = MBX_HOST_RESET then
    let s1 := if bitOf v.toNat 0 then stateOf s (execMbxHostResetA p s) else s
    if bitOf v.toNat 1 then execMbxHostResetB p s1 else done s1
  else match elemAt off (MBX_ROUTE 0) 4 76 with
    | some i => execMbxRouteWrite p (Fin.ofNat 76 i) v s
    | none => done (s.regWrite off v)

/-- WADI (R337). -/
def State.wadiWrite (s : State) (p : Fin 2) (off : Nat) (v : Word) : Res :=
  match elemAt off (WADI_FUNC 0) 4 8 with
  | some k => execFuncModeWrite p (Fin.ofNat 8 k) v s
  | none => done (s.regWrite off v)

/-- MEM (R372, R384, R401). -/
def State.memWrite (s : State) (p : Fin 2) (off : Nat) (v : Word) : Res :=
  if off = MEM_OWN_REQ then
    execMemOwnReq p (Fin.ofNat 64 (bitsOf v.toNat 5 0)) (Fin.ofNat 64 (bitsOf v.toNat 13 8)) s
  else if off = MEM_MARCH_REQ then
    if bitOf v.toNat 31 then
      execMemMarchReq p (bitOf v.toNat 8) (bitOf v.toNat 7) (Fin.ofNat 128 (bitsOf v.toNat 6 0)) s
    else .next s
  else if off = MEM_REPAIR_REQ then
    if bitOf v.toNat 31 then execMemRepairReq p (bitOf v.toNat 6) (Fin.ofNat 64 (bitsOf v.toNat 5 0)) s else .next s
  else done (s.regWrite off v)

/-- PE (R180, R208): of PE_CTRL's bits STEP comes last. -/
def State.peWrite (s : State) (p : Fin 2) (n off : Nat) (v : Word) : Res :=
  let e := Fin.ofNat 18 n
  if off = PE_CTRL n then
    if v.toNat % 32 = 16 then execPeStep p e s else done (s.peCtrlWrite e (v.toNat % 16))
  else if off = PE_DBG_DATA n then execPeDbgDataAccess p e (some v) s
  else done (s.regWrite off v)

/-- The bits of MAC_MODE that a port has (R559). -/
def macModeMask (n : Nat) : Word := if n < 4 then 0x00001EF0 else 0x00003860

/-- MAC (R516, R527, R528, R543, R559, R565). -/
def State.macWrite (s : State) (n off : Nat) (v : Word) : Res :=
  if off = MAC_CTRL n then
    let s1 := if bitOf v.toNat 2 then s.portReset n else s
    let s2 := s1.macSetEn n (bitOf v.toNat 0)
    done (if bitOf v.toNat 1 then s2.macReneg n else s2)
  else if off = MAC_MODE n then done (s.regWrite off (v &&& macModeMask n))
  else if off = MAC_RED_CFG n then
    let s1 := s.regWrite off v
    done (if s1.redRole n ≠ 0 ∧ s1.pairOf n = none then s1.raise (.mac n) F_MAC_RED_CFG (s1.macCaps n) else s1)
  else if off = MAC_RED_SEQ n ∧ (match s.pairOf n with | some p => decide (p < n) | none => false) = true then .next s
  else done (s.regWrite off v)

/-- A write of SWC_GATEn_CFG (R610, R611): enabling or disabling starts the list anew; SWITCH sets PEND. -/
def State.gateCfgWrite (s : State) (n : Nat) (v : Word) : State :=
  let c := SWC_GATE_CFG n
  let s1 := s.regWrite c v
  let s2 := if s1.flag c SWC_GATE_CFG_EN = s.flag c SWC_GATE_CFG_EN then s1 else s1.setGate n GateSt.reset
  if bitOf v.toNat 29 then s2.wr c SWC_GATE_CFG_PEND 1 else s2

/-- A write of SWC_PORTn_QUOTA (R604): a RESERVE that the pool cannot give is refused. -/
def State.portQuotaWrite (s : State) (n : Nat) (v : Word) : State :=
  let old := s.portReserve n
  let new := SWC_PORT_QUOTA_RESERVE.get v
  if s.quotaFits old new then s.regWrite (SWC_PORT_QUOTA n) v
  else (s.regWrite (SWC_PORT_QUOTA n) (SWC_PORT_QUOTA_RESERVE.put v old)).raise .swc F_SWC_QUOTA_CFG [n]

/-- A write of SWC_PORTn_CFG (R615, R632). -/
def State.portCfgWrite (s : State) (n : Nat) (v : Word) : State :=
  let s1 := s.regWrite (SWC_PORT_CFG n) v
  if s1.flag (SWC_PORT_CFG n) SWC_PORT_CFG_REMOVE = s.flag (SWC_PORT_CFG n) SWC_PORT_CFG_REMOVE then s1
  else s1.portRemove n (s1.flag (SWC_PORT_CFG n) SWC_PORT_CFG_REMOVE)

/-- A gate list entry, by its index over all ports and banks (R611). -/
def State.gclWrite (s : State) (i : Nat) (v : Word) : State :=
  let c := SWC_GATE_CFG (i / 128)
  if s.flag c SWC_GATE_CFG_EN && s.rd c SWC_GATE_CFG_ACTIVE == i % 128 / 64 then s else s.regWrite (SWC_GCL i) v

/-- SWC (R596, R604, R611, R615, R631). -/
def State.swcWrite (s : State) (p : Fin 2) (off : Nat) (v : Word) : Res :=
  if off = SWC_FCT_FENCE then if bitOf v.toNat 4 then execSwcFctFence p s else .next s
  else if 0x280030 ≤ off ∧ off < 0x280040 then (if s.mode = .config then done (s.regWrite off v) else .next s)
  else if 0x288000 ≤ off then done (s.gclWrite ((off - 0x288000) / 4) v)
  else match elemAt off (SWC_PORT_CFG 0) 0x20 16, elemAt off (SWC_PORT_QUOTA 0) 0x20 16 with
    | some n, _ => done (s.portCfgWrite n v)
    | none, some n => done (s.portQuotaWrite n v)
    | none, none =>
      match elemAt off (SWC_GATE_CFG 0) 0x20 16, elemAt off (SWC_GATE_CYCLE 0) 0x20 16 with
      | some n, _ => done (s.gateCfgWrite n v)
      | none, some n => if s.flag (SWC_GATE_CFG n) SWC_GATE_CFG_EN then .next s else done (s.regWrite off v)
      | none, none => done (s.regWrite off v)

/-- TIME (R649 to R653, R670, R678). -/
def State.timeWrite (s : State) (p : Fin 2) (off : Nat) (v : Word) : Res :=
  if off = TIME_FREQ then execTimeFreqWrite p v s
  else if off = TIME_SLEW then execTimeSlew p v s
  else if off = TIME_SLEW_CFG then
    let s1 := s.regWrite off v
    done (if s.tb.slew = 0 then s1 else s1.rateWritten (20 + p))
  else match (List.range 16).find? fun n => off == TIO_CFG n with
    | some n => execTioEnable p (Fin.ofNat 16 n) v s
    | none => done (s.regWrite off v)

/-- CVN (R697, R713, R747 to R749, R753). -/
def State.cvnWrite (s : State) (off : Nat) (v : Word) : Res :=
  if 0x341000 ≤ off then
    let o := off - 0x341000
    done (s.cvnTableWrite (o / 0x2000) (o / 0x1000 % 2) (o % 0x1000 / 16) (o % 16 / 4) v)
  else if off = CVN_CTRL then done (s.regWrite off v).cvnRoot
  else if off = CVN_NODE ∨ off = CVN_CYCLE then (if s.cvnAnyEn then .next s else done (s.regWrite off v))
  else match elemAt off (CVN_CH_CFG 0) 0x40 2 with
    | some c => done (s.cvnCfgWrite c v)
    | none => done (s.regWrite off v)

/-- MDB (R784, R792, R793). -/
def State.mdbWrite (s : State) (p : Fin 2) (n off : Nat) (v : Word) : Res :=
  if n = 8 then done (s.regWrite off v)
  else if off = MDB_CTRL n then execMdbModeWrite p (Fin.ofNat 8 n) v s
  else if off = MDB_RAM_CFG n then execMdbRamCfgWrite p (Fin.ofNat 8 n) v s
  else if MDB_NBT n ≤ off ∧ off < MDB_RAM_CFG n then
    done (if s.busInit n then s.regWrite off v else s.mdbCfgErr p n)
  else done (s.regWrite off v)

/-- The network's agreement to sleep may follow from a write (R822). -/
def State.agreedNow (s old : State) : State := if old.sleepAgreed then s else s.afterSleep

/-- WAKE (R810, R822, R828). -/
def State.wakeWrite (s : State) (off : Nat) (v : Word) : Res :=
  if off = WAKE_CTRL then done ((s.regWrite off v).agreedNow s)
  else if off < 0x3A0100 then done (s.regWrite off v)
  else
    let n := (off - 0x3A0100) / 0x40
    let o := (off - 0x3A0100) % 0x40
    if o = 4 then done (s.sleepCtrl n v)
    else if o = 0 ∨ (0xC ≤ o ∧ o < 0x20) then
      if s.sleepState n ≠ 0 then done (s.wakeCfgErr n) else done ((s.regWrite off v).agreedNow s)
    else done (s.regWrite off v)

/-- PSQ (R840, R848, R851 to R857, R874). -/
def State.psqWrite (s : State) (p : Fin 2) (off : Nat) (v : Word) : Res :=
  let who : Fin 18 := Fin.ofNat 18 (16 + p.val)
  if off = PSQ_START then execPsqStart p v s
  else if off = PSQ_STOP then execPsqStop p v s
  else if off = PSQ_CLKRST then execPsqClkrst p v s
  else if 0x3C2000 ≤ off then
    let o := off - 0x3C2000
    execPsqImemWrite p (Fin.ofNat 32 (o / 0x200)) (Fin.ofNat 128 (o % 0x200 / 4)) v s
  else if 0x3C1000 ≤ off then
    let n := Fin.ofNat 32 ((off - 0x3C1000) / 0x40)
    if off = PSQ_SEQ_SHIFT n then execPsqFifoModeWrite p n v s
    else if off = PSQ_SEQ_CTRL n then done (s.seqCtrl n 1 v.toNat)
    else if off = PSQ_SEQ_INJECT n then execPsqInject who n v s
    else if off = PSQ_SEQ_TXF n then execPsqTxfPush who n v s
    else done (s.regWrite off v)
  else match elemAt off (PSQ_PIO_CFG 0) 4 48 with
    | some _ => done ((s.regWrite off v).pioShow s)
    | none => done (s.regWrite off v)

/-- SIO (R923). -/
def State.sioWrite (s : State) (p : Fin 2) (off : Nat) (v : Word) : Res :=
  match sioCfgOffs.findIdx? (· == off) with
  | some i => execSioCfgWrite p (Fin.ofNat 13 i) v s
  | none => done (s.regWrite off v)

/-- HLTH (R965, R976, R992). -/
def State.hlthWrite (s : State) (p : Fin 2) (off : Nat) (v : Word) : Res :=
  if off = HLTH_UNIT then execHlthWornClear p v s
  else if off = HLTH_FLT_CFG then done (s.regWrite off v).fltSettle
  else match elemAt off (HLTH_KIND_THR 0) 8 13 with
    | some _ => if bitsOf v.toNat 25 16 ≤ bitsOf v.toNat 9 0 then .next s else done (s.regWrite off v)
    | none => done (s.regWrite off v)

/-- CLK (R75, R77). -/
def State.clkWrite (s : State) (p : Fin 2) (off : Nat) (v : Word) : Res :=
  if off = CLK_REF_CFG then execRefSelWrite p v s
  else if off = CLK_PLL_CTRL then execPllSwitch p v s
  else done (s.regWrite off v)

/-- A write of a register that its block answers. -/
def State.writeReg (s : State) (p : Fin 2) (b : BlkId) (off : Nat) (v : Word) : Res :=
  if isFaultReg off then s.faultWrite p b off v
  else if isWide off then s.lowWrite p b off v
  else if isUpper off then s.highWrite p b off v
  else match b with
    | .gen => s.genWrite p off v
    | .hif => s.hifWrite p off v
    | .mbx => s.mbxWrite p off v
    | .wadi => s.wadiWrite p off v
    | .mem => s.memWrite p off v
    | .pe n => s.peWrite p n off v
    | .mac n => s.macWrite n off v
    | .swc => s.swcWrite p off v
    | .time => s.timeWrite p off v
    | .cvn => s.cvnWrite off v
    | .mdb n => s.mdbWrite p n off v
    | .wake => s.wakeWrite off v
    | .psq => s.psqWrite p off v
    | .sio => s.sioWrite p off v
    | .hlth => s.hlthWrite p off v
    | .clk => s.clkWrite p off v
    | .pwr => done (s.regWrite off v)

/-- A write of a word of a port's MSI-X table (R485): unmasking a vector that is pending raises it. -/
def State.msixWrite (s : State) (p k : Nat) (v : Word) : State :=
  let w := if k % 4 = 3 then v &&& 1 else if k % 4 = 0 then v &&& 0xFFFFFFFC else v
  let h := s.port p
  let s1 := s.setPort p { h with msix := SMap.set msixDefault h.msix k w }
  if k % 4 = 3 ∧ w = 0 ∧ h.pba.contains (k / 4) = true then
    (s1.setPort p { s1.port p with pba := h.pba.filter (· != k / 4) }).raiseVec p (k / 4)
  else s1

/-- A 32-bit write of MW0 by a host port. -/
def mw0Write (s : State) (p : Fin 2) (off : Nat) (v : Word) : Res :=
  if !s.mw0Served off then done (s.mw0Timeout p off true)
  else match mw0Place p off with
    | .nothing => done (s.mw0Unmapped p off true)
    | .window ep o => done (s.winWrite ep (20 + p) o v)
    | .msix k => done (s.msixWrite p k v)
    | .pba _ => .next s
    | .reg b => s.writeReg p b off v

end Sys2Proof.Machine
end

