-- ==== Sys2Proof/Machine/Mw0.lean ====
section
/-! DEFINITION. The commands of a host at MW0: reads and writes of registers (R18, R62, R65, R67, R1034). `word` is the
offset divided by 4: MW0 takes only aligned 32-bit accesses (R66). -/

namespace Sys2Proof.Machine

/-- The MW0 offset of a word. -/
def mw0Off (word : BitVec 22) : Nat := 4 * word.toNat

/-- R18, R1034: a host write of a register. -/
def execRegisterWrite (port : Fin 2) (word : BitVec 22) (value : Word) (s : State) : Res :=
  if s.noPort port then .next s else mw0Write s port (mw0Off word) value

/-- R18: a host read of a register; what is read and then cleared holds no lost event. -/
def execRcRead (port : Fin 2) (word : BitVec 22) (s : State) : Res :=
  if s.noPort port then .next s else mw0Read s port (mw0Off word)

/-- R1034: a write of the lower word of a 64-bit register. -/
def execReg64LowerWrite (port : Fin 2) (word : BitVec 22) (value : Word) (s : State) : Res :=
  if s.noPort port || !isWide (mw0Off word) then .next s else mw0Write s port (mw0Off word) value

/-- R67: a read of the lower word of a 64-bit register. -/
def execReg64LowerRead (port : Fin 2) (word : BitVec 22) (s : State) : Res :=
  if s.noPort port || !isWide (mw0Off word) then .next s else mw0Read s port (mw0Off word)

/-- R65: an access to an unassigned offset of a range that is served. -/
def execMw0UnmappedAccess (port : Fin 2) (word : BitVec 22) (store : Bool) (s : State) : Res :=
  let off := mw0Off word
  if s.noPort port || !s.mw0Served off || mw0Place port off != .nothing then .next s
  else if store then mw0Write s port off 0
  else mw0Read s port off

/-- R62, R1035: no response to an access comes within 2 µs. -/
def execMw0AccessTimeout (port : Fin 2) (word : BitVec 22) (store : Bool) (s : State) : Res :=
  if s.noPort port then .next s
  else
    let s1 := s.mw0Timeout port (mw0Off word) store
    done (if store then s1 else { s1 with rdata := 0xFFFFFFFF })

end Sys2Proof.Machine
end

