-- ==== Sys2Proof/Machine/Mw2.lean ====
section
/-! DEFINITION. Host accesses through MW2: engine memories, shared banks and the classification table (R152, R285, R371,
R452 to R454). -/

namespace Sys2Proof.Machine

/-- What an MW2 offset reaches: a byte of an engine's IMEM or DMEM, of a logical shared bank, of an FCT entry, or nothing. -/
inductive Mw2Place where
  | imem (n : Fin 18) (a : Nat)
  | dmem (n : Fin 18) (a : Nat)
  | bank (b a : Nat)
  | fct (e a : Nat)
  | nothing
  deriving DecidableEq, Repr

/-- The regions of MW2 (R452). -/
def mw2Place (off : Nat) : Mw2Place :=
  if off < 0x480000 then
    let n := Fin.ofNat 18 (off / 0x40000)
    if off % 0x40000 < 0x20000 then .imem n (off % 0x20000) else .dmem n (off % 0x20000)
  else if 0x1000000 ≤ off ∧ off < 0x1800000 then .bank ((off - 0x1000000) / 0x20000) (off % 0x20000)
  else if 0x2000000 ≤ off ∧ off < 0x2100000 then .fct ((off - 0x2000000) / 32) (off % 32)
  else .nothing

/-- The sizes MW2 accepts (R454). A PCI Express request does not cross a 4 KiB boundary. -/
def mw2Size (off size : Nat) : Bool :=
  ((size == 4 || size == 8) && off % size == 0 || (decide (8 < size) && decide (size ≤ 512) && size % 8 == 0 && off % 8 == 0)) &&
    off / 4096 == (off + size - 1) / 4096

/-- Modes and regions in which MW2 denies an access (R453). -/
def State.mw2Denies (s : State) (p : Mw2Place) : Bool :=
  s.onlyGen ||
    match p with
    | .fct _ _ => s.mode != .config
    | .nothing => true
    | _ => false

/-- MW2_DENIED (R454, R499): a read returns all ones. -/
def State.mw2Deny (s : State) (p off size : Nat) (store : Bool) : State :=
  let s1 := s.raise .hif F_HIF_MW2_DENIED [off, 20 + p, b2n store + 2 * Nat.log2 size]
  if store then s1 else { s1 with rdata := 2 ^ (8 * size) - 1 }

/-- The DMEM of an engine takes part in a running Mirage copy, as source or target (R285). -/
def State.inCopy (s : State) (n : Fin 18) : Bool :=
  match s.pers.mig with
  | some m => m.phase != .prepare && (m.src == n || m.tgt == n)
  | none => false

/-- The DMEM of the target of a running Mirage copy (R285). -/
def State.copyTarget (s : State) (n : Fin 18) : Bool :=
  match s.pers.mig with
  | some m => m.phase != .prepare && m.tgt == n
  | none => false

/-- Words read from a memory: a word with an uncorrectable error reads as a free value. -/
def State.readWords (s : State) (m : Mem) : List (Nat × Nat) → List Byte × State
  | [] => ([], s)
  | (a, n) :: ws =>
    let x : List Byte × State := if m.isBad a then (leBytes n (s.draw (8 * n)).1, (s.draw (8 * n)).2) else (m.bytes a n, s)
    let r := State.readWords x.2 m ws
    (x.1 ++ r.1, r.2)

/-- The bytes of a read as its answer. -/
def hostAns (x : List Byte × State) : State := { x.2 with rdata := ofLe x.1 }

/-- A memory written word by word: 8 bytes give a word fresh check bits. -/
def Mem.putPieces (m : Mem) (data : List Byte) : List (Nat × Nat) → Mem
  | [] => m
  | (a, n) :: ws => Mem.putPieces ((if n = 8 then m.clearBad (a / 8) else m).putBytes a (data.take n)) (data.drop n) ws

/-- An FCT entry with bytes written from a byte offset up. -/
def fctPut (e : BitVec 256) (a : Nat) (bs : List Byte) : BitVec 256 :=
  let old := leBytes 32 e.toNat
  BitVec.ofNat 256 (ofLe (old.take a ++ bs ++ old.drop (a + bs.length)))

/-- The words of a write to the FCT. -/
def State.fctStore (s : State) (data : List Byte) : List (Nat × Nat) → State
  | [] => s
  | (a, n) :: ws => State.fctStore (s.setFct (a / 32) (fctPut (s.fctAt (a / 32)) (a % 32) (data.take n))) (data.drop n) ws

/-- What the check bits of a word of an entry show to a read (R586). -/
def State.fctFound (s : State) (e : Nat) (ecc : Ecc) : State :=
  match ecc with
  | .ok => s
  | .single => s.raise .swc F_SWC_FCT_CE [e, 0, 0]
  | .double => (s.unitFailed kFct (SMap.get id s.swc.subMap (e / 2048))).raise .swc F_SWC_FCT_UE [e, 0, 0]

/-- The bytes of a read of the FCT. The first word is a free value when its check bits show an uncorrectable error. -/
def State.fctLoad (s : State) (ecc : Ecc) : List (Nat × Nat) → List Byte × State
  | [] => ([], s)
  | (a, n) :: ws =>
    let x : List Byte × State := if ecc = .double then (leBytes n (s.draw (8 * n)).1, (s.draw (8 * n)).2)
      else (slice (leBytes 32 (s.fctAt (a / 32)).toNat) (a % 32) n, s)
    let r := State.fctLoad x.2 .ok ws
    (x.1 ++ r.1, r.2)

/-- A read that MW2 serves; `ecc` is what the check bits of the first word show (R150, R285, R363). -/
def State.mw2Read (s : State) (p : Nat) (place : Mw2Place) (size : Nat) (ecc : Ecc) : State :=
  match place with
  | .imem n a =>
    let s1 := s.scrubImem n (a / 8) ecc
    hostAns (s1.readWords (s1.pe n).imem (hostWords a size))
  | .dmem n a =>
    if s.copyTarget n then { s with rdata := 2 ^ (8 * size) - 1 }
    else
      let s1 := s.scrubDmem n (a / 8) ecc
      hostAns (s1.readWords (s1.pe n).dmem (hostWords a size))
  | .bank b a => s.hostBank ⟨p, b, a, size, none, ecc⟩
  | .fct e a => hostAns ((s.fctFound e ecc).fctLoad ecc (hostWords (32 * e + a) size))
  | .nothing => s

/-- A write that MW2 serves (R152, R285, R371). -/
def State.mw2Write (s : State) (p : Nat) (place : Mw2Place) (bs : List Byte) (ecc : Ecc) : State :=
  match place with
  | .imem n a =>
    if s.executing n then s.raisePe n F_PE_HOST_WR
    else s.onPe n fun e => { e with imem := e.imem.putPieces bs (hostWords a bs.length) }
  | .dmem n a =>
    if s.executing n || s.inCopy n then s.raisePe n F_PE_HOST_WR
    else s.onPe n fun e => { e with dmem := e.dmem.putPieces bs (hostWords a bs.length) }
  | .bank b a => s.hostBank ⟨p, b, a, bs.length, some bs, ecc⟩
  | .fct e a => s.fctStore bs (hostWords (32 * e + a) bs.length)
  | .nothing => s

/-- R453, R454: a read of `len` bytes, or a write of the bytes given. -/
def execMw2Access (port : Fin 2) (off : BitVec 26) (len : Fin 513) (data : Option (List Byte)) (ecc : Ecc) (s : State) : Res :=
  let size := match data with | some bs => bs.length | none => len.val
  let place := mw2Place off.toNat
  if s.noPort port || size == 0 then .next s
  else if !mw2Size off.toNat size || s.mw2Denies place then done (s.mw2Deny port off.toNat size data.isSome)
  else match data with
    | some bs => done (s.mw2Write port place bs ecc)
    | none => done (s.mw2Read port place size ecc)

end Sys2Proof.Machine
end

