-- ==== Sys2Proof/Machine/Dispatch.lean ====
section
/-! DEFINITION. The dispatch: one arm per command. -/

namespace Sys2Proof.Machine

/-- The meaning of a command. -/
def exec (i : Instr) (s : State) : Host.Outcome State Fault Refusal :=
  match i with
  | .registerWrite port word value => Sys2Proof.Machine.execRegisterWrite port word value s
  | .rcRead port word => Sys2Proof.Machine.execRcRead port word s
  | .reg64LowerWrite port word value => Sys2Proof.Machine.execReg64LowerWrite port word value s
  | .reg64LowerRead port word => Sys2Proof.Machine.execReg64LowerRead port word s
  | .mw0UnmappedAccess port word store => Sys2Proof.Machine.execMw0UnmappedAccess port word store s
  | .mw0AccessTimeout port word store => Sys2Proof.Machine.execMw0AccessTimeout port word store s
  | .mw2Access port off len data ecc => Sys2Proof.Machine.execMw2Access port off len data ecc s
  | .refclkLoss => Sys2Proof.Machine.execRefclkLoss s
  | .refRevert => Sys2Proof.Machine.execRefRevert s
  | .refSelWrite port value => Sys2Proof.Machine.execRefSelWrite port value s
  | .pllLockLoss pll => Sys2Proof.Machine.execPllLockLoss pll s
  | .pllSwitch port value => Sys2Proof.Machine.execPllSwitch port value s
  | .freqMonWindowEnd counts => Sys2Proof.Machine.execFreqMonWindowEnd counts s
  | .clkFallback psq => Sys2Proof.Machine.execClkFallback psq s
  | .hifClockFail port => Sys2Proof.Machine.execHifClockFail port s
  | .porstNAssert => Sys2Proof.Machine.execPorstNAssert s
  | .porstNDeassert => Sys2Proof.Machine.execPorstNDeassert s
  | .bootSelfTestDone ok0 ok1 => Sys2Proof.Machine.execBootSelfTestDone ok0 ok1 s
  | .bootMarchDone fails nvmOk0 nvmOk1 => Sys2Proof.Machine.execBootMarchDone fails nvmOk0 nvmOk1 s
  | .flashHeadersRead => Sys2Proof.Machine.execFlashHeadersRead s
  | .imageHashDone => Sys2Proof.Machine.execImageHashDone s
  | .signatureCheckDone => Sys2Proof.Machine.execSignatureCheckDone s
  | .genHostimgGo port value => Sys2Proof.Machine.execGenHostimgGo port value s
  | .hostimgCheckDone version dma => Sys2Proof.Machine.execHostimgCheckDone version dma s
  | .genModeReq port value => Sys2Proof.Machine.execGenModeReq port value s
  | .mode ring p0 => Sys2Proof.Machine.execMode ring p0 s
  | .warmResetRequest port key => Sys2Proof.Machine.execWarmResetRequest port key s
  | .blockReset port key blk => Sys2Proof.Machine.execBlockReset port key blk s
  | .blockResetDone blk => Sys2Proof.Machine.execBlockResetDone blk s
  | .scLockstepFail => Sys2Proof.Machine.execScLockstepFail s
  | .scWatchdogExpiry => Sys2Proof.Machine.execScWatchdogExpiry s
  | .supervisorDoubleFail => Sys2Proof.Machine.execSupervisorDoubleFail s
  | .ejectNAssert => Sys2Proof.Machine.execEjectNAssert s
  | .ejectNDeassert => Sys2Proof.Machine.execEjectNDeassert s
  | .quiesceDrainDone => Sys2Proof.Machine.execQuiesceDrainDone s
  | .nvmFlushDone => Sys2Proof.Machine.execNvmFlushDone s
  | .quiesceComplete => Sys2Proof.Machine.execQuiesceComplete s
  | .standbyReached => Sys2Proof.Machine.execStandbyReached s
  | .standbyWake src bus ide id => Sys2Proof.Machine.execStandbyWake src bus ide id s
  | .nop n last => Sys2Proof.Machine.execNop n last s
  | .add n rd ra rb last => Sys2Proof.Machine.execAdd n rd ra rb last s
  | .sub n rd ra rb last => Sys2Proof.Machine.execSub n rd ra rb last s
  | .and n rd ra rb last => Sys2Proof.Machine.execAnd n rd ra rb last s
  | .or n rd ra rb last => Sys2Proof.Machine.execOr n rd ra rb last s
  | .xor n rd ra rb last => Sys2Proof.Machine.execXor n rd ra rb last s
  | .shl n rd ra rb last => Sys2Proof.Machine.execShl n rd ra rb last s
  | .shr n rd ra rb last => Sys2Proof.Machine.execShr n rd ra rb last s
  | .sar n rd ra rb last => Sys2Proof.Machine.execSar n rd ra rb last s
  | .slt n rd ra rb last => Sys2Proof.Machine.execSlt n rd ra rb last s
  | .sltu n rd ra rb last => Sys2Proof.Machine.execSltu n rd ra rb last s
  | .min n rd ra rb last => Sys2Proof.Machine.execMin n rd ra rb last s
  | .max n rd ra rb last => Sys2Proof.Machine.execMax n rd ra rb last s
  | .adds n rd ra rb last => Sys2Proof.Machine.execAdds n rd ra rb last s
  | .subs n rd ra rb last => Sys2Proof.Machine.execSubs n rd ra rb last s
  | .addi n rd ra imm last => Sys2Proof.Machine.execAddi n rd ra imm last s
  | .andi n rd ra imm last => Sys2Proof.Machine.execAndi n rd ra imm last s
  | .ori n rd ra imm last => Sys2Proof.Machine.execOri n rd ra imm last s
  | .xori n rd ra imm last => Sys2Proof.Machine.execXori n rd ra imm last s
  | .shli n rd ra imm last => Sys2Proof.Machine.execShli n rd ra imm last s
  | .shri n rd ra imm last => Sys2Proof.Machine.execShri n rd ra imm last s
  | .sari n rd ra imm last => Sys2Proof.Machine.execSari n rd ra imm last s
  | .slti n rd ra imm last => Sys2Proof.Machine.execSlti n rd ra imm last s
  | .movi n rd imm last => Sys2Proof.Machine.execMovi n rd imm last s
  | .lui n rd imm last => Sys2Proof.Machine.execLui n rd imm last s
  | .abs n rd ra last => Sys2Proof.Machine.execAbs n rd ra last s
  | .clz n rd ra last => Sys2Proof.Machine.execClz n rd ra last s
  | .popc n rd ra last => Sys2Proof.Machine.execPopc n rd ra last s
  | .bswap n rd ra last => Sys2Proof.Machine.execBswap n rd ra last s
  | .brev n rd ra last => Sys2Proof.Machine.execBrev n rd ra last s
  | .extu n rd ra pos wm1 last => Sys2Proof.Machine.execExtu n rd ra pos wm1 last s
  | .exts n rd ra pos wm1 last => Sys2Proof.Machine.execExts n rd ra pos wm1 last s
  | .ins n rd ra pos wm1 last => Sys2Proof.Machine.execIns n rd ra pos wm1 last s
  | .crc n rd ra rb poly size uw uref last => Sys2Proof.Machine.execCrc n rd ra rb poly size uw uref last s
  | .mpy n acc ra rb sat rnd last => Sys2Proof.Machine.execMpy n acc ra rb sat rnd last s
  | .mac n acc ra rb sat rnd last => Sys2Proof.Machine.execMac n acc ra rb sat rnd last s
  | .msu n acc ra rb sat rnd last => Sys2Proof.Machine.execMsu n acc ra rb sat rnd last s
  | .mul n rd ra rb last => Sys2Proof.Machine.execMul n rd ra rb last s
  | .ext n rd acc sh sat rnd last => Sys2Proof.Machine.execExt n rd acc sh sat rnd last s
  | .setacc n acc ra last => Sys2Proof.Machine.execSetacc n acc ra last s
  | .setg n acc ra last => Sys2Proof.Machine.execSetg n acc ra last s
  | .extg n rd acc last => Sys2Proof.Machine.execExtg n rd acc last s
  | .getf n rd last => Sys2Proof.Machine.execGetf n rd last s
  | .clrf n imm last => Sys2Proof.Machine.execClrf n imm last s
  | .lb n rd ra imm ecc => Sys2Proof.Machine.execLb n rd ra imm ecc s
  | .lbu n rd ra imm ecc => Sys2Proof.Machine.execLbu n rd ra imm ecc s
  | .lh n rd ra imm ecc => Sys2Proof.Machine.execLh n rd ra imm ecc s
  | .lhu n rd ra imm ecc => Sys2Proof.Machine.execLhu n rd ra imm ecc s
  | .lw n rd ra imm ecc => Sys2Proof.Machine.execLw n rd ra imm ecc s
  | .ld n rd ra imm ecc => Sys2Proof.Machine.execLd n rd ra imm ecc s
  | .sb n rs ra imm => Sys2Proof.Machine.execSb n rs ra imm s
  | .sh n rs ra imm => Sys2Proof.Machine.execSh n rs ra imm s
  | .sw n rs ra imm => Sys2Proof.Machine.execSw n rs ra imm s
  | .sd n rs ra imm => Sys2Proof.Machine.execSd n rs ra imm s
  | .beq n ra rb imm => Sys2Proof.Machine.execBeq n ra rb imm s
  | .bne n ra rb imm => Sys2Proof.Machine.execBne n ra rb imm s
  | .blt n ra rb imm => Sys2Proof.Machine.execBlt n ra rb imm s
  | .bge n ra rb imm => Sys2Proof.Machine.execBge n ra rb imm s
  | .bltu n ra rb imm => Sys2Proof.Machine.execBltu n ra rb imm s
  | .bgeu n ra rb imm => Sys2Proof.Machine.execBgeu n ra rb imm s
  | .j n idx => Sys2Proof.Machine.execJ n idx s
  | .call n idx => Sys2Proof.Machine.execCall n idx s
  | .jr n ra => Sys2Proof.Machine.execJr n ra s
  | .callr n ra => Sys2Proof.Machine.execCallr n ra s
  | .ret n => Sys2Proof.Machine.execRet n s
  | .push n rn => Sys2Proof.Machine.execPush n rn s
  | .pop n rn => Sys2Proof.Machine.execPop n rn s
  | .wait n => Sys2Proof.Machine.execWait n s
  | .fence n => Sys2Proof.Machine.execFence n s
  | .brk n => Sys2Proof.Machine.execBrk n s
  | .illegalBundle n => Sys2Proof.Machine.execIllegalBundle n s
  | .breakpointHit n => Sys2Proof.Machine.execBreakpointHit n s
  | .farLoadReturn n ecc => Sys2Proof.Machine.execFarLoadReturn n ecc s
  | .farStoreAccepted n ecc => Sys2Proof.Machine.execFarStoreAccepted n ecc s
  | .farTimeout n => Sys2Proof.Machine.execFarTimeout n s
  | .fauFetchAheadDone n q => Sys2Proof.Machine.execFauFetchAheadDone n q s
  | .fauRxPop n => Sys2Proof.Machine.execFauRxPop n s
  | .fauRxDoneFree n => Sys2Proof.Machine.execFauRxDoneFree n s
  | .fauRxDoneForward n ports queue oneStep => Sys2Proof.Machine.execFauRxDoneForward n ports queue oneStep s
  | .fauTxAlloc n value => Sys2Proof.Machine.execFauTxAlloc n value s
  | .fauTxBaseWrite n value => Sys2Proof.Machine.execFauTxBaseWrite n value s
  | .fauTxSendPorts n ports queue oneStep => Sys2Proof.Machine.execFauTxSendPorts n ports queue oneStep s
  | .fauTxSendHost n ring => Sys2Proof.Machine.execFauTxSendHost n ring s
  | .fauTxAbandon n => Sys2Proof.Machine.execFauTxAbandon n s
  | .etmSnapReq n => Sys2Proof.Machine.execEtmSnapReq n s
  | .snapshotArrived n => Sys2Proof.Machine.execSnapshotArrived n s
  | .etmTimerEnable n t absolute periodic => Sys2Proof.Machine.execEtmTimerEnable n t absolute periodic s
  | .etmTimerFire n t => Sys2Proof.Machine.execEtmTimerFire n t s
  | .engineEventWake n => Sys2Proof.Machine.execEngineEventWake n s
  | .ecsBoundary n => Sys2Proof.Machine.execEcsBoundary n s
  | .ecsWdogKick n => Sys2Proof.Machine.execEcsWdogKick n s
  | .engineWatchdogExpiry n => Sys2Proof.Machine.execEngineWatchdogExpiry n s
  | .etmTxtsPop n => Sys2Proof.Machine.execEtmTxtsPop n s
  | .peStart port n => Sys2Proof.Machine.execPeStart port n s
  | .peStop port n => Sys2Proof.Machine.execPeStop port n s
  | .peHalt port n => Sys2Proof.Machine.execPeHalt port n s
  | .peReset port n => Sys2Proof.Machine.execPeReset port n s
  | .peStep port n => Sys2Proof.Machine.execPeStep port n s
  | .engineResetDone n => Sys2Proof.Machine.execEngineResetDone n s
  | .peDbgDataAccess port n write => Sys2Proof.Machine.execPeDbgDataAccess port n write s
  | .engineScrubStep n imem dmem => Sys2Proof.Machine.execEngineScrubStep n imem dmem s
  | .decisionPeriodEnd measures cycles => Sys2Proof.Machine.execDecisionPeriodEnd measures cycles s
  | .persKeyAdd ring p0 dma => Sys2Proof.Machine.execPersKeyAdd ring p0 dma s
  | .persKeyRevoke ring p0 => Sys2Proof.Machine.execPersKeyRevoke ring p0 s
  | .persLoad ring p0 p1 dma => Sys2Proof.Machine.execPersLoad ring p0 p1 dma s
  | .persDrop ring p0 => Sys2Proof.Machine.execPersDrop ring p0 s
  | .persCaps ring p0 p1 => Sys2Proof.Machine.execPersCaps ring p0 p1 s
  | .persBind ring p0 p1 p2 dma readOk => Sys2Proof.Machine.execPersBind ring p0 p1 p2 dma readOk s
  | .persUnbind ring p0 => Sys2Proof.Machine.execPersUnbind ring p0 s
  | .persUnbindTimeout slot => Sys2Proof.Machine.execPersUnbindTimeout slot s
  | .migStart ring p0 p1 => Sys2Proof.Machine.execMigStart ring p0 p1 s
  | .migAbort ring => Sys2Proof.Machine.execMigAbort ring s
  | .engRetire ring p0 => Sys2Proof.Machine.execEngRetire ring p0 s
  | .migPrepareDone readOk => Sys2Proof.Machine.execMigPrepareDone readOk s
  | .precopyPassEnd => Sys2Proof.Machine.execPrecopyPassEnd s
  | .migNoBoundary => Sys2Proof.Machine.execMigNoBoundary s
  | .migSourceStopped ns => Sys2Proof.Machine.execMigSourceStopped ns s
  | .migDeadlineExpiry ns => Sys2Proof.Machine.execMigDeadlineExpiry ns s
  | .wadiDecision readBad => Sys2Proof.Machine.execWadiDecision readBad s
  | .wadiAccept ring p0 => Sys2Proof.Machine.execWadiAccept ring p0 s
  | .wadiVeto ring p0 => Sys2Proof.Machine.execWadiVeto ring p0 s
  | .funcModeWrite port func value => Sys2Proof.Machine.execFuncModeWrite port func value s
  | .funcSwitchPoint func => Sys2Proof.Machine.execFuncSwitchPoint func s
  | .funcSwitchTimeout func => Sys2Proof.Machine.execFuncSwitchTimeout func s
  | .funcRingOrphanTimeout func => Sys2Proof.Machine.execFuncRingOrphanTimeout func s
  | .bankScrubStep buffer bank ecc => Sys2Proof.Machine.execBankScrubStep buffer bank ecc s
  | .memOwnReq port bank owner => Sys2Proof.Machine.execMemOwnReq port bank owner s
  | .handoverMarkerArrive => Sys2Proof.Machine.execHandoverMarkerArrive s
  | .handoverForceTimeout => Sys2Proof.Machine.execHandoverForceTimeout s
  | .memMarchReq port preserving buffer bank => Sys2Proof.Machine.execMemMarchReq port preserving buffer bank s
  | .marchDone failWords => Sys2Proof.Machine.execMarchDone failWords s
  | .memRepairReq port buffer logical => Sys2Proof.Machine.execMemRepairReq port buffer logical s
  | .repairMarchDone spareOk origOk => Sys2Proof.Machine.execRepairMarchDone spareOk origOk s
  | .repairCopyDone => Sys2Proof.Machine.execRepairCopyDone s
  | .repairCommit nvmOk => Sys2Proof.Machine.execRepairCommit nvmOk s
  | .repairOrigFail => Sys2Proof.Machine.execRepairOrigFail s
  | .mbxSend ep c value => Sys2Proof.Machine.execMbxSend ep c value s
  | .mbxDataWrite ep c j value => Sys2Proof.Machine.execMbxDataWrite ep c j value s
  | .mbxInRead ep k j => Sys2Proof.Machine.execMbxInRead ep k j s
  | .dbRing ep n value => Sys2Proof.Machine.execDbRing ep n value s
  | .mbxRouteWrite port j value => Sys2Proof.Machine.execMbxRouteWrite port j value s
  | .mbxHostResetA port => Sys2Proof.Machine.execMbxHostResetA port s
  | .mbxHostResetB port => Sys2Proof.Machine.execMbxHostResetB port s
  | .mbxAgeExpiry ep k => Sys2Proof.Machine.execMbxAgeExpiry ep k s
  | .ringBind port ring value => Sys2Proof.Machine.execRingBind port ring value s
  | .ringUnbind port ring => Sys2Proof.Machine.execRingUnbind port ring s
  | .ringDrainDone ring => Sys2Proof.Machine.execRingDrainDone ring s
  | .dbBaseWrite port page value => Sys2Proof.Machine.execDbBaseWrite port page value s
  | .doorbellPoll port slots => Sys2Proof.Machine.execDoorbellPoll port slots s
  | .ftxFrame ring descs data ecc => Sys2Proof.Machine.execFtxFrame ring descs data ecc s
  | .frxFrameDeliver ring bufs => Sys2Proof.Machine.execFrxFrameDeliver ring bufs s
  | .pdxTransfer ring q0 q1 q2 q3 data ecc => Sys2Proof.Machine.execPdxTransfer ring q0 q1 q2 q3 data ecc s
  | .commandTake ring code p0 p1 p2 dma readOk high => Sys2Proof.Machine.execCommandTake ring code p0 p1 p2 dma readOk high s
  | .dmaReadError port ring fetched addr size => Sys2Proof.Machine.execDmaReadError port ring fetched addr size s
  | .msixModerationExpiry ring => Sys2Proof.Machine.execMsixModerationExpiry ring s
  | .hostLinkDown port => Sys2Proof.Machine.execHostLinkDown port s
  | .hostLinkUp port width speed => Sys2Proof.Machine.execHostLinkUp port width speed s
  | .hostBmeChange port on => Sys2Proof.Machine.execHostBmeChange port on s
  | .hostD3hotEntry port => Sys2Proof.Machine.execHostD3hotEntry port s
  | .hifPerst port low => Sys2Proof.Machine.execHifPerst port low s
  | .hostPortLost port => Sys2Proof.Machine.execHostPortLost port s
  | .ringAdopt ring p0 p1 p2 dma => Sys2Proof.Machine.execRingAdopt ring p0 p1 p2 dma s
  | .ringRelease ring p0 p1 p2 => Sys2Proof.Machine.execRingRelease ring p0 p1 p2 s
  | .imgUpdStart ring p0 p1 => Sys2Proof.Machine.execImgUpdStart ring p0 p1 s
  | .imgUpdData ring p0 p1 p2 dma => Sys2Proof.Machine.execImgUpdData ring p0 p1 p2 dma s
  | .imgUpdFinish ring => Sys2Proof.Machine.execImgUpdFinish ring s
  | .imgUpdCancel ring => Sys2Proof.Machine.execImgUpdCancel ring s
  | .imgConfirm ring => Sys2Proof.Machine.execImgConfirm ring s
  | .imgMinVersion ring p0 p1 => Sys2Proof.Machine.execImgMinVersion ring p0 p1 s
  | .macEnable port n en => Sys2Proof.Machine.execMacEnable port n en s
  | .macReneg port n => Sys2Proof.Machine.execMacReneg port n s
  | .macPortReset port n => Sys2Proof.Machine.execMacPortReset port n s
  | .negDwellExpiry n noCommon => Sys2Proof.Machine.execNegDwellExpiry n noCommon s
  | .negModeSwitch n => Sys2Proof.Machine.execNegModeSwitch n s
  | .linkUp n mode rate fec word => Sys2Proof.Machine.execLinkUp n mode rate fec word s
  | .linkDown n => Sys2Proof.Machine.execLinkDown n s
  | .macFail n => Sys2Proof.Machine.execMacFail n s
  | .macParityFail n => Sys2Proof.Machine.execMacParityFail n s
  | .rxFrame n bytes aborted code ecc => Sys2Proof.Machine.execRxFrame n bytes aborted code ecc s
  | .pauseExpiry n => Sys2Proof.Machine.execPauseExpiry n s
  | .txFrameStart n drift => Sys2Proof.Machine.execTxFrameStart n drift s
  | .txFrameEnd n bufUe => Sys2Proof.Machine.execTxFrameEnd n bufUe s
  | .counterAccumulate => Sys2Proof.Machine.execCounterAccumulate s
  | .macCntRead ring p0 p1 => Sys2Proof.Machine.execMacCntRead ring p0 p1 s
  | .learnActionApply => Sys2Proof.Machine.execLearnActionApply s
  | .ageingScanStep => Sys2Proof.Machine.execAgeingScanStep s
  | .fctAdd ring p0 dma => Sys2Proof.Machine.execFctAdd ring p0 dma s
  | .fctDel ring p0 dma => Sys2Proof.Machine.execFctDel ring p0 dma s
  | .fctRead ring p0 p1 p2 => Sys2Proof.Machine.execFctRead ring p0 p1 p2 s
  | .fctWrite ring p0 p1 dma => Sys2Proof.Machine.execFctWrite ring p0 p1 dma s
  | .fctFence ring => Sys2Proof.Machine.execFctFence ring s
  | .swcFctFence port => Sys2Proof.Machine.execSwcFctFence port s
  | .fenceDone => Sys2Proof.Machine.execFenceDone s
  | .fenceTimeout => Sys2Proof.Machine.execFenceTimeout s
  | .fctSubarrayRemap => Sys2Proof.Machine.execFctSubarrayRemap s
  | .fctSubarrayLost sub => Sys2Proof.Machine.execFctSubarrayLost sub s
  | .portRemove port n remove => Sys2Proof.Machine.execPortRemove port n remove s
  | .portDrainExpiry n => Sys2Proof.Machine.execPortDrainExpiry n s
  | .gateCycleStart n => Sys2Proof.Machine.execGateCycleStart n s
  | .gateEntryChange n => Sys2Proof.Machine.execGateEntryChange n s
  | .gateBankSwitch port n => Sys2Proof.Machine.execGateBankSwitch port n s
  | .timeFreqWrite port value => Sys2Proof.Machine.execTimeFreqWrite port value s
  | .timeStep port value => Sys2Proof.Machine.execTimeStep port value s
  | .timeSlew port value => Sys2Proof.Machine.execTimeSlew port value s
  | .slewComplete => Sys2Proof.Machine.execSlewComplete s
  | .timeSet port value => Sys2Proof.Machine.execTimeSet port value s
  | .timeNowFracRead port => Sys2Proof.Machine.execTimeNowFracRead port s
  | .steerFreq k => Sys2Proof.Machine.execSteerFreq k s
  | .steerStep k => Sys2Proof.Machine.execSteerStep k s
  | .steerSlew k => Sys2Proof.Machine.execSteerSlew k s
  | .linkDelay k => Sys2Proof.Machine.execLinkDelay k s
  | .steerMsgInvalid k => Sys2Proof.Machine.execSteerMsgInvalid k s
  | .tioCapture pin rising => Sys2Proof.Machine.execTioCapture pin rising s
  | .tioCapRead port pin => Sys2Proof.Machine.execTioCapRead port pin s
  | .tioEnable port pin value => Sys2Proof.Machine.execTioEnable port pin value s
  | .tioSingleEdge pin => Sys2Proof.Machine.execTioSingleEdge pin s
  | .tioPeriodicEdge pin => Sys2Proof.Machine.execTioPeriodicEdge pin s
  | .tioPpsEdge pin => Sys2Proof.Machine.execTioPpsEdge pin s
  | .tioPulseEnd pin => Sys2Proof.Machine.execTioPulseEnd pin s
  | .cvnChannelEnable port c value => Sys2Proof.Machine.execCvnChannelEnable port c value s
  | .cvnTrainDone port slow nbr ring nbrIsD => Sys2Proof.Machine.execCvnTrainDone port slow nbr ring nbrIsD s
  | .cvnTrainTimeout port => Sys2Proof.Machine.execCvnTrainTimeout port s
  | .cvnCycleStart => Sys2Proof.Machine.execCvnCycleStart s
  | .cvnCsSend c late => Sys2Proof.Machine.execCvnCsSend c late s
  | .cvnMoverStart c e complete ecc => Sys2Proof.Machine.execCvnMoverStart c e complete ecc s
  | .cvnSlotSend c e late => Sys2Proof.Machine.execCvnSlotSend c e late s
  | .cvnCommitSend c late => Sys2Proof.Machine.execCvnCommitSend c late s
  | .dlyReqSend c => Sys2Proof.Machine.execDlyReqSend c s
  | .csFrameRx port bytes resid => Sys2Proof.Machine.execCsFrameRx port bytes resid s
  | .dataFrameRx port bytes resid => Sys2Proof.Machine.execDataFrameRx port bytes resid s
  | .nullFrameRx port bytes resid => Sys2Proof.Machine.execNullFrameRx port bytes resid s
  | .leaveFrameRx port bytes resid => Sys2Proof.Machine.execLeaveFrameRx port bytes resid s
  | .commitFrameRx port bytes resid => Sys2Proof.Machine.execCommitFrameRx port bytes resid s
  | .dlyReqRx port bytes turn => Sys2Proof.Machine.execDlyReqRx port bytes turn s
  | .dlyRspRx port bytes => Sys2Proof.Machine.execDlyRspRx port bytes s
  | .cvnOwnFrameReturn port bytes => Sys2Proof.Machine.execCvnOwnFrameReturn port bytes s
  | .cvnSlotMissed c e => Sys2Proof.Machine.execCvnSlotMissed c e s
  | .cvnCsMissing c => Sys2Proof.Machine.execCvnCsMissing c s
  | .cvnListenTimeout c => Sys2Proof.Machine.execCvnListenTimeout c s
  | .cvnLoopbackEnd c => Sys2Proof.Machine.execCvnLoopbackEnd c s
  | .cvnLeave c => Sys2Proof.Machine.execCvnLeave c s
  | .cvnBankValidate port c bank value => Sys2Proof.Machine.execCvnBankValidate port c bank value s
  | .cvnTableMessage k ecc => Sys2Proof.Machine.execCvnTableMessage k ecc s
  | .cvnMode ring p0 => Sys2Proof.Machine.execCvnMode ring p0 s
  | .cvnTable ring p0 p1 dma => Sys2Proof.Machine.execCvnTable ring p0 p1 dma s
  | .mdbTxRequest l bus buf => Sys2Proof.Machine.execMdbTxRequest l bus buf s
  | .mdbTxAbort l bus buf => Sys2Proof.Machine.execMdbTxAbort l bus buf s
  | .mdbTxDonePop l bus => Sys2Proof.Machine.execMdbTxDonePop l bus s
  | .mdbRxPop l bus ecc => Sys2Proof.Machine.execMdbRxPop l bus ecc s
  | .mdbMwEventRead l bus => Sys2Proof.Machine.execMdbMwEventRead l bus s
  | .mdbFrameSent bus => Sys2Proof.Machine.execMdbFrameSent bus s
  | .mdbArbitrationLost bus => Sys2Proof.Machine.execMdbArbitrationLost bus s
  | .mdbFrameReceived bus hdr0 hdr1 hdr2 hdr3 data => Sys2Proof.Machine.execMdbFrameReceived bus hdr0 hdr1 hdr2 hdr3 data s
  | .mdbErrorDetected bus kind transmitting afterArb dataPhase dominant => Sys2Proof.Machine.execMdbErrorDetected bus kind transmitting afterArb dataPhase dominant s
  | .mdbRecoveryDone bus => Sys2Proof.Machine.execMdbRecoveryDone bus s
  | .mdbRecover ring p0 => Sys2Proof.Machine.execMdbRecover ring p0 s
  | .mdbAbort ring p0 => Sys2Proof.Machine.execMdbAbort ring p0 s
  | .mdbTtNext ring p0 p1 => Sys2Proof.Machine.execMdbTtNext ring p0 p1 s
  | .mdbModeWrite port bus value => Sys2Proof.Machine.execMdbModeWrite port bus value s
  | .mdbTtEnable port bus => Sys2Proof.Machine.execMdbTtEnable port bus s
  | .mdbRamCfgWrite port bus value => Sys2Proof.Machine.execMdbRamCfgWrite port bus value s
  | .mdbTrigger bus j => Sys2Proof.Machine.execMdbTrigger bus j s
  | .mdbRefDue bus => Sys2Proof.Machine.execMdbRefDue bus s
  | .mdbRefReceived bus prio cycle global => Sys2Proof.Machine.execMdbRefReceived bus prio cycle global s
  | .mdbTtLate bus => Sys2Proof.Machine.execMdbTtLate bus s
  | .mdbRemapFollowDone => Sys2Proof.Machine.execMdbRemapFollowDone s
  | .mdbRemapSwitch => Sys2Proof.Machine.execMdbRemapSwitch s
  | .mdbRemapTimeout => Sys2Proof.Machine.execMdbRemapTimeout s
  | .mdbCtrlFail ctrl => Sys2Proof.Machine.execMdbCtrlFail ctrl s
  | .busSleepRequest who bus => Sys2Proof.Machine.execBusSleepRequest who bus s
  | .busSleepCancel who bus => Sys2Proof.Machine.execBusSleepCancel who bus s
  | .sleepGateClose bus => Sys2Proof.Machine.execSleepGateClose bus s
  | .busWakeEvent bus src ide id afterIdle => Sys2Proof.Machine.execBusWakeEvent bus src ide id afterIdle s
  | .awakeMaxExpiry bus => Sys2Proof.Machine.execAwakeMaxExpiry bus s
  | .wakeNAssert => Sys2Proof.Machine.execWakeNAssert s
  | .standbyTimerExpiry => Sys2Proof.Machine.execStandbyTimerExpiry s
  | .psqFetchWait seq pins bad => Sys2Proof.Machine.execPsqFetchWait seq pins bad s
  | .psqFetchGo seq pins bad => Sys2Proof.Machine.execPsqFetchGo seq pins bad s
  | .psqStoreWait seq pins bad => Sys2Proof.Machine.execPsqStoreWait seq pins bad s
  | .psqStoreGo seq pins bad => Sys2Proof.Machine.execPsqStoreGo seq pins bad s
  | .psqReload0 seq pins bad => Sys2Proof.Machine.execPsqReload0 seq pins bad s
  | .psqReload1 seq pins bad => Sys2Proof.Machine.execPsqReload1 seq pins bad s
  | .psqSignal seq pins bad => Sys2Proof.Machine.execPsqSignal seq pins bad s
  | .psqEmit seq pins bad => Sys2Proof.Machine.execPsqEmit seq pins bad s
  | .psqPattern seq pins bad => Sys2Proof.Machine.execPsqPattern seq pins bad s
  | .psqCapture seq pins bad => Sys2Proof.Machine.execPsqCapture seq pins bad s
  | .psqExchange seq pins bad => Sys2Proof.Machine.execPsqExchange seq pins bad s
  | .psqDirect seq pins bad => Sys2Proof.Machine.execPsqDirect seq pins bad s
  | .psqToggle seq pins bad => Sys2Proof.Machine.execPsqToggle seq pins bad s
  | .psqBranch seq pins bad => Sys2Proof.Machine.execPsqBranch seq pins bad s
  | .psqFlowWait seq pins bad => Sys2Proof.Machine.execPsqFlowWait seq pins bad s
  | .psqCount seq pins bad => Sys2Proof.Machine.execPsqCount seq pins bad s
  | .psqIllegal seq pins bad => Sys2Proof.Machine.execPsqIllegal seq pins bad s
  | .psqDwellExpiry seq pins bad => Sys2Proof.Machine.execPsqDwellExpiry seq pins bad s
  | .psqStart port value => Sys2Proof.Machine.execPsqStart port value s
  | .psqStop port value => Sys2Proof.Machine.execPsqStop port value s
  | .psqClkrst port value => Sys2Proof.Machine.execPsqClkrst port value s
  | .psqTstartArm port value => Sys2Proof.Machine.execPsqTstartArm port value s
  | .psqTimedStart => Sys2Proof.Machine.execPsqTimedStart s
  | .psqSeqStart who seq => Sys2Proof.Machine.execPsqSeqStart who seq s
  | .psqSeqStop who seq => Sys2Proof.Machine.execPsqSeqStop who seq s
  | .psqSeqRestart who seq => Sys2Proof.Machine.execPsqSeqRestart who seq s
  | .psqInject who seq value => Sys2Proof.Machine.execPsqInject who seq value s
  | .psqImemWrite port seq j value => Sys2Proof.Machine.execPsqImemWrite port seq j value s
  | .psqTxfPush who seq value => Sys2Proof.Machine.execPsqTxfPush who seq value s
  | .psqRxfPop who seq => Sys2Proof.Machine.execPsqRxfPop who seq s
  | .psqFifoModeWrite port seq value => Sys2Proof.Machine.execPsqFifoModeWrite port seq value s
  | .psqRemapPoint => Sys2Proof.Machine.execPsqRemapPoint s
  | .psqRemapTimeout => Sys2Proof.Machine.execPsqRemapTimeout s
  | .psqSmFail machine => Sys2Proof.Machine.execPsqSmFail machine s
  | .sioImageCycle readback ecc => Sys2Proof.Machine.execSioImageCycle readback ecc s
  | .sioCommTimeout => Sys2Proof.Machine.execSioCommTimeout s
  | .sioLinkFail => Sys2Proof.Machine.execSioLinkFail s
  | .diFilterAccept ch level => Sys2Proof.Machine.execDiFilterAccept ch level s
  | .tpPulseStart src => Sys2Proof.Machine.execTpPulseStart src s
  | .tpPulseEnd src reached lowOutside readbackOk => Sys2Proof.Machine.execTpPulseEnd src reached lowOutside readbackOk s
  | .sioTick => Sys2Proof.Machine.execSioTick s
  | .dqTestStart m => Sys2Proof.Machine.execDqTestStart m s
  | .dqTestEnd m fell low ha hb => Sys2Proof.Machine.execDqTestEnd m fell low ha hb s
  | .dqOffSettleCheck m high => Sys2Proof.Machine.execDqOffSettleCheck m high s
  | .dqOverloadTrip m => Sys2Proof.Machine.execDqOverloadTrip m s
  | .dqThermalTrip m => Sys2Proof.Machine.execDqThermalTrip m s
  | .l2Sag tenths => Sys2Proof.Machine.execL2Sag tenths s
  | .l2Recovered tenths => Sys2Proof.Machine.execL2Recovered tenths s
  | .l1Sag tenths => Sys2Proof.Machine.execL1Sag tenths s
  | .l1Recovered tenths => Sys2Proof.Machine.execL1Recovered tenths s
  | .safetyDomainReset clock => Sys2Proof.Machine.execSafetyDomainReset clock s
  | .sioInitDone okA okB badDi badDq => Sys2Proof.Machine.execSioInitDone okA okB badDi badDq s
  | .sioCfgWrite port reg value => Sys2Proof.Machine.execSioCfgWrite port reg value s
  | .sioUnlock ring p0 dma => Sys2Proof.Machine.execSioUnlock ring p0 dma s
  | .sioLock ring => Sys2Proof.Machine.execSioLock ring s
  | .sioCommit ring p0 p1 => Sys2Proof.Machine.execSioCommit ring p0 p1 s
  | .sioPwdSet ring p0 dma => Sys2Proof.Machine.execSioPwdSet ring p0 dma s
  | .sioAck ring p0 high => Sys2Proof.Machine.execSioAck ring p0 high s
  | .sioOutEnable ring => Sys2Proof.Machine.execSioOutEnable ring s
  | .sioLogRead ring p0 p1 p2 => Sys2Proof.Machine.execSioLogRead ring p0 p1 p2 s
  | .sioTest ring p0 => Sys2Proof.Machine.execSioTest ring p0 s
  | .sioUnlockTimeout => Sys2Proof.Machine.execSioUnlockTimeout s
  | .pwdLockoutEnd => Sys2Proof.Machine.execPwdLockoutEnd s
  | .ackOkTimeout => Sys2Proof.Machine.execAckOkTimeout s
  | .parStartExpiry pair => Sys2Proof.Machine.execParStartExpiry pair s
  | .faultForce port blk value => Sys2Proof.Machine.execFaultForce port blk value s
  | .fstatWrite port blk value => Sys2Proof.Machine.execFstatWrite port blk value s
  | .holdWindowEnd k => Sys2Proof.Machine.execHoldWindowEnd k s
  | .fltPulseEnd => Sys2Proof.Machine.execFltPulseEnd s
  | .hlthWornClear port value => Sys2Proof.Machine.execHlthWornClear port value s
  | .hlthLogRead ring p0 p1 p2 => Sys2Proof.Machine.execHlthLogRead ring p0 p1 p2 s
  | .faultLogFlush => Sys2Proof.Machine.execFaultLogFlush s
  | .wearRecordFlush => Sys2Proof.Machine.execWearRecordFlush s
  | .presentNHigh => Sys2Proof.Machine.execPresentNHigh s
  | .presentNLow => Sys2Proof.Machine.execPresentNLow s
  | .softStartTimeout => Sys2Proof.Machine.execSoftStartTimeout s
  | .softStartOn => Sys2Proof.Machine.execSoftStartOn s
  | .powerOnRelease => Sys2Proof.Machine.execPowerOnRelease s
  | .logicSupplyLow mv => Sys2Proof.Machine.execLogicSupplyLow mv s
  | .logicSupplyRecover mv => Sys2Proof.Machine.execLogicSupplyRecover mv s
  | .railFail rail => Sys2Proof.Machine.execRailFail rail s
  | .tempSample temp mv v33 => Sys2Proof.Machine.execTempSample temp mv v33 s
  | .hifBootServiceStart => Sys2Proof.Machine.execHifBootServiceStart s
  | .pllLockAcquired pll => Sys2Proof.Machine.execPllLockAcquired pll s
  | .cvnOpenWindowStart c => Sys2Proof.Machine.execCvnOpenWindowStart c s
  | .cvnOpenWindowEnd c => Sys2Proof.Machine.execCvnOpenWindowEnd c s
  | .mdbTxStart bus ecc => Sys2Proof.Machine.execMdbTxStart bus ecc s
  | .wakeFilterActivity bus what => Sys2Proof.Machine.execWakeFilterActivity bus what s
  | .dqOverloadRestartTimeout m => Sys2Proof.Machine.execDqOverloadRestartTimeout m s
  | .dqThermalCooled m => Sys2Proof.Machine.execDqThermalCooled m s
  | .inputSupplyApplied => Sys2Proof.Machine.execInputSupplyApplied s
  | .softStartRetry => Sys2Proof.Machine.execSoftStartRetry s

end Sys2Proof.Machine
end

