-- ==== Sys2Proof/Machine/Tick.lean ====
section
/-! DEFINITION. One cycle of CK_TB in which no command arrives (log entry 3). -/

namespace Sys2Proof.Machine

/-- CK_TB runs: not under PORST_N, and in STANDBY only while the time base is held (R49, R647). -/
def State.tbRuns (s : State) : Bool :=
  !s.boot.porst && (s.mode != .standby || s.flag TIME_CTRL TIME_CTRL_STBY_HOLD)

/-- The part of a slew that one cycle adds, in units of 2⁻⁴⁰ ns: the held rate less FREQ, and no more than what is left (R652,
R653). -/
def State.slewPart (s : State) : Int :=
  let p := s.heldRate - s.freq
  if s.tb.slew = 0 then 0
  else if 0 < s.tb.slew then (if s.tb.slew < p then s.tb.slew else p)
  else if p < s.tb.slew then s.tb.slew else p

/-- The time base after one CK_TB cycle: 4 ns plus FREQ × 2⁻⁴⁰ ns and the slew's part (R644, R652). -/
def State.tbTick (s : State) : State :=
  let p := s.slewPart
  let s1 := { s with tb := { s.tb.add (4 * 2 ^ 40 + s.freq + p) with slew := s.tb.slew - p } }
  if s.tb.slew = 0 then s1
  else if s1.tb.slew = 0 then s1.slewShow.wr TIME_STAT TIME_STAT_FREQ_CLAMP 0
  else s1.slewShow

/-- The stall counts in PE_STALL: it waits for a far access (R190). -/
def Stall.far : Stall → Bool
  | .load _ _ _ | .store _ | .fence => true
  | .fetch _ _ _ | .snap _ _ _ => false

/-- The two CK_PE cycles of one CK_TB cycle in an engine (R166, R176, R190). The cycles in which an engine issues are counted
as its bundles issue, so one that can issue counts none here. -/
def Engine.tick (e : Engine) : Engine :=
  if e.canIssue then e
  else
    let e1 := { e with cycles := e.cycles + 2 }
    let far := match e.stall with | some x => x.far | none => false
    match e.state with
    | .run => { e1 with busy := e.busy + 2, wdog := e.wdog + 2, stalled := if far then e.stalled + 2 else e.stalled }
    | .wait => { e1 with wdog := e.wdog + 2 }
    | _ => e1

/-- One CK_TB cycle. In STANDBY only the time base runs (R49). -/
def tick (s : State) : State :=
  if !s.tbRuns then s
  else if s.mode = .standby then s.tbTick
  else { s.tbTick with pes := s.tbTick.pes.map Engine.tick }

end Sys2Proof.Machine
end

