-- ==== Sys2Proof/Machine/Step.lean ====
section
/-! DEFINITION. One step: the command at the front of the queue, or a CK_TB cycle of time when the queue is empty. -/

namespace Sys2Proof.Machine

/-- One step of the module. With a command waiting it is that command's meaning with the queue's rest; with none, one
cycle of CK_TB passes (R644; log entry 3). -/
def step (s : State) : Host.Outcome State Fault Refusal :=
  match s.pending with
  | [] => .next (tick s)
  | c :: cs => exec c { s with pending := cs }

/-- `s` with the command that the table's bits spell put at the front of its queue. The table gives no row any bits, so
no word spells a command and `s` is unchanged. -/
def State.withFetchWord (s : State) (nbits w : Nat) : State :=
  match decodeTableWord nbits w with
  | none => s
  | some c => { s with pending := c :: s.pending }

end Sys2Proof.Machine
end

