-- ==== Sys2Proof/Safety.lean ====
section
/-! DEFINITION. What counts as a safe step and as a quiet, canonical state: the terms that statements are made in. -/

namespace Sys2Proof.Machine

/-- A step goes on: it neither faults nor is refused. -/
def Goes (r : Res) : Prop := ∃ t, r = .next t

/-- Nothing goes on beside the next command: no work is left from the last one, no migration runs (R277), no slot waits for its
unbinding (R273) or spends the headroom of a migration (R290), no Caravan link is up (R730), no transition to CONFIG waits
(R292). In such a state a command has its own effect and nothing else. -/
def State.quiet (s : State) : Bool :=
  s.faults.due.isEmpty && s.pers.mig.isNone && s.pers.toConfig.isNone &&
    (s.slots.all fun e => e.2.unbind.isNone && !e.2.grace) && (s.cvn.chans.all fun e => !e.2.upD && !e.2.upU)

/-- A memory is in canonical form: addresses rise and no listed byte equals what an unlisted one reads as. -/
def Mem.wf (m : Mem) : Bool := SMap.wf m.dflt m.cells

/-- The register file is in canonical form: offsets rise and no listed word equals its reset value. -/
def State.regsWf (s : State) : Bool := SMap.wf resetWord s.regs

/-- Every sparse map of the machine is in canonical form: registers, rings, slots, buses, channels, sequencers, the safety die,
mailboxes, the switch core, timed pins. Equal contents are then equal data. -/
def State.canon (s : State) : Bool :=
  s.regsWf && SMap.wf (fun _ => 0) s.holding && SMap.wf (fun _ => Ring.reset) s.rings &&
  SMap.wf (fun _ => SlotSt.free) s.slots && SMap.wf (fun _ => BusSt.reset) s.buses &&
  SMap.wf (fun _ => TioSt.reset) s.tio && SMap.wf (fun _ => 0) s.lastPe &&
  SMap.wf (fun _ => CvnChan.reset) s.cvn.chans && SMap.wf (fun _ => SeqSt.reset) s.psq.seqs &&
  SMap.wf (fun _ => SioPair.reset) s.sio.pairs && SMap.wf (fun _ => SioDi.reset) s.sio.dis &&
  SMap.wf (fun _ => SioDq.reset) s.sio.dqs && SMap.wf (fun _ => Inbox.empty) s.mbx.inbox &&
  SMap.wf (fun _ => 0) s.mbx.ostat && SMap.wf (fun _ => 0) s.mbx.db && SMap.wf (fun _ => 0) s.mbx.mask &&
  SMap.wf (fun _ => 0) s.mbx.epoch && SMap.wf (fun _ => none) s.swc.frames && SMap.wf (fun _ => []) s.swc.tq &&
  SMap.wf (fun _ => []) s.swc.eq && SMap.wf (fun _ => []) s.swc.frx && SMap.wf (fun _ => 0) s.swc.fct &&
  SMap.wf (fun _ => (0, 0)) s.swc.tern && SMap.wf (fun _ => 0) s.swc.shadow &&
  SMap.wf (fun _ => GateSt.reset) s.swc.gates && SMap.wf (fun _ => MacSt.reset) s.swc.macs &&
  SMap.wf (fun _ => ([], 0)) s.swc.txts

/-- A command is taken from its CMD ring and executed: it is posted, none is being executed, the port can be reached, the mode
is one that allows it, and no eject runs (R492, R494, R497). -/
def State.takes (s : State) (ring : Nat) (modes : Mode → Bool) : Bool := s.canTake ring && !s.ejecting && modes s.mode

/-- `t` is `s` but for what events change: the rings, what has gone out, the pending bits of the host ports and what is due
(R481, R482). -/
def Told (s t : State) : Prop :=
  ∃ out rings pa pb due,
    t = { s with out := out, rings := rings, portA := pa, portB := pb, faults := { s.faults with due := due } }

/-- Host port `p` exists, and its MW0 accesses reach block `b` (R62, R448, R1035). -/
def State.hears (s : State) (p : Nat) (b : BlkId) : Bool := !s.noPort p && s.serves b

/-- Engine `n` issues the next bundle: it runs, is not stalled, stands at the start of a bundle, not at its breakpoint, and the
fetch is sound (R142, R150, R178, R182). -/
def State.issues (s : State) (n : Fin 18) : Bool :=
  (s.pe n).canIssue && !(s.pe n).half && !s.atBreakpoint n && !s.fetchBad n

/-- Engine `n` issues a slot 1 instruction: it runs, is not stalled, its bundle has begun or stands before no breakpoint, the
fetch is sound, and no stall, WAIT or halt has fallen since a result in flight was issued (R142, R150, R178, R182, R217). -/
def State.closes (s : State) (n : Fin 18) : Bool :=
  (s.pe n).canIssue && ((s.pe n).half || !s.atBreakpoint n) && !s.fetchBad n && (s.pe n).pend.all fun p => !p.disturbed

/-- An engine with no result in flight, no transfer under way and no halt that waits. -/
def Engine.calm (e : Engine) : Bool := e.pend.isEmpty && e.xfer.isNone && e.haltPend.isNone

/-- What issuing one whole bundle does to an engine besides the results: the program counter moves on by one bundle, and the
cycle, busy and watchdog counts by one cycle. -/
def Engine.ran (e : Engine) : Engine :=
  { e with
    lastPc := e.pc, pc := e.pc + 1, half := false, cycles := e.cycles + 1, busy := e.busy + 1, wdog := e.wdog + 1 }

end Sys2Proof.Machine
end

