-- ==== Sys2Proof/WellFormed.lean ====
section
/-! DEFINITION. Which commands are well formed: the operand values that the spec's encodings and layouts admit. Operand
types already bound most of them. -/

namespace Sys2Proof

/-- A register that LD, PUSH and POP can name: even, and not w30 (R230). -/
def pairBase (r : Fin 32) : Bool := r.val % 2 == 0 && r.val != 30

/-- Whether a command's operands are admitted: encodings of engine instructions (R223, R228, R230, R245, R247), one count
for each monitored clock (R79, R81), the sizes of MW2 (R454), and a frame's first descriptor (R470). -/
def Instr.wellFormed : Instr → Bool
  | .mw2Access _ _ _ data _ => (match data with | some bs => decide (bs.length ≤ 512) | none => true)
  | .freqMonWindowEnd counts => counts.length == 7
  | .shli _ _ _ imm _ => decide (imm.toNat < 32)
  | .shri _ _ _ imm _ => decide (imm.toNat < 32)
  | .sari _ _ _ imm _ => decide (imm.toNat < 32)
  | .extu _ _ _ pos wm1 _ => decide (pos.val + wm1.val < 32)
  | .exts _ _ _ pos wm1 _ => decide (pos.val + wm1.val < 32)
  | .ins _ _ _ pos wm1 _ => decide (pos.val + wm1.val < 32)
  | .crc _ _ _ _ poly size _ _ _ => poly != 5 && poly != 6 && size != 3
  | .mpy _ _ _ _ _ rnd _ => rnd != 3
  | .mac _ _ _ _ _ rnd _ => rnd != 3
  | .msu _ _ _ _ _ rnd _ => rnd != 3
  | .ext _ _ _ scale _ rnd _ => decide (scale.val ≤ 8) && rnd != 3
  | .clrf _ imm _ => decide (imm.toNat < 2 ^ 10)
  | .ld _ rd _ _ _ => pairBase rd
  | .sd _ rs _ _ => rs.val % 2 == 0
  | .push _ rn => pairBase rn
  | .pop _ rn => pairBase rn
  | .ftxFrame _ descs _ _ => !descs.isEmpty
  | .registerWrite .. | .rcRead .. | .reg64LowerWrite .. | .reg64LowerRead .. | .mw0UnmappedAccess .. |
    .mw0AccessTimeout .. | .refclkLoss .. | .refRevert .. | .refSelWrite .. | .pllLockLoss .. | .pllSwitch .. |
    .clkFallback .. | .hifClockFail .. | .porstNAssert .. | .porstNDeassert .. | .bootSelfTestDone .. |
    .bootMarchDone .. | .flashHeadersRead .. | .imageHashDone .. | .signatureCheckDone .. | .genHostimgGo .. |
    .hostimgCheckDone .. | .genModeReq .. | .mode .. | .warmResetRequest .. | .blockReset .. | .blockResetDone .. |
    .scLockstepFail .. | .scWatchdogExpiry .. | .supervisorDoubleFail .. | .ejectNAssert .. | .ejectNDeassert .. |
    .quiesceDrainDone .. | .nvmFlushDone .. | .quiesceComplete .. | .standbyReached .. | .standbyWake .. | .nop .. |
    .add .. | .sub .. | .and .. | .or .. | .xor .. | .shl .. | .shr .. | .sar .. | .slt .. | .sltu .. | .min .. |
    .max .. | .adds .. | .subs .. | .addi .. | .andi .. | .ori .. | .xori .. | .slti .. | .movi .. | .lui .. |
    .abs .. | .clz .. | .popc .. | .bswap .. | .brev .. | .mul .. | .setacc .. | .setg .. | .extg .. | .getf .. |
    .lb .. | .lbu .. | .lh .. | .lhu .. | .lw .. | .sb .. | .sh .. | .sw .. | .beq .. | .bne .. | .blt .. | .bge .. |
    .bltu .. | .bgeu .. | .j .. | .call .. | .jr .. | .callr .. | .ret .. | .wait .. | .fence .. | .brk .. |
    .illegalBundle .. | .breakpointHit .. | .farLoadReturn .. | .farStoreAccepted .. | .farTimeout .. |
    .fauFetchAheadDone .. | .fauRxPop .. | .fauRxDoneFree .. | .fauRxDoneForward .. | .fauTxAlloc .. |
    .fauTxBaseWrite .. | .fauTxSendPorts .. | .fauTxSendHost .. | .fauTxAbandon .. | .etmSnapReq .. |
    .snapshotArrived .. | .etmTimerEnable .. | .etmTimerFire .. | .engineEventWake .. | .ecsBoundary .. |
    .ecsWdogKick .. | .engineWatchdogExpiry .. | .etmTxtsPop .. | .peStart .. | .peStop .. | .peHalt .. |
    .peReset .. | .peStep .. | .engineResetDone .. | .peDbgDataAccess .. | .engineScrubStep .. |
    .decisionPeriodEnd .. | .persKeyAdd .. | .persKeyRevoke .. | .persLoad .. | .persDrop .. | .persCaps .. |
    .persBind .. | .persUnbind .. | .persUnbindTimeout .. | .migStart .. | .migAbort .. | .engRetire .. |
    .migPrepareDone .. | .precopyPassEnd .. | .migNoBoundary .. | .migSourceStopped .. | .migDeadlineExpiry .. |
    .wadiDecision .. | .wadiAccept .. | .wadiVeto .. | .funcModeWrite .. | .funcSwitchPoint .. |
    .funcSwitchTimeout .. | .funcRingOrphanTimeout .. | .bankScrubStep .. | .memOwnReq .. |
    .handoverMarkerArrive .. | .handoverForceTimeout .. | .memMarchReq .. | .marchDone .. | .memRepairReq .. |
    .repairMarchDone .. | .repairCopyDone .. | .repairCommit .. | .repairOrigFail .. | .mbxSend .. |
    .mbxDataWrite .. | .mbxInRead .. | .dbRing .. | .mbxRouteWrite .. | .mbxHostResetA .. | .mbxHostResetB .. |
    .mbxAgeExpiry .. | .ringBind .. | .ringUnbind .. | .ringDrainDone .. | .dbBaseWrite .. | .doorbellPoll .. |
    .frxFrameDeliver .. | .pdxTransfer .. | .commandTake .. | .dmaReadError .. | .msixModerationExpiry .. |
    .hostLinkDown .. | .hostLinkUp .. | .hostBmeChange .. | .hostD3hotEntry .. | .hifPerst .. | .hostPortLost .. |
    .ringAdopt .. | .ringRelease .. | .imgUpdStart .. | .imgUpdData .. | .imgUpdFinish .. | .imgUpdCancel .. |
    .imgConfirm .. | .imgMinVersion .. | .macEnable .. | .macReneg .. | .macPortReset .. | .negDwellExpiry .. |
    .negModeSwitch .. | .linkUp .. | .linkDown .. | .macFail .. | .macParityFail .. | .rxFrame .. | .pauseExpiry .. |
    .txFrameStart .. | .txFrameEnd .. | .counterAccumulate .. | .macCntRead .. | .learnActionApply .. |
    .ageingScanStep .. | .fctAdd .. | .fctDel .. | .fctRead .. | .fctWrite .. | .fctFence .. | .swcFctFence .. |
    .fenceDone .. | .fenceTimeout .. | .fctSubarrayRemap .. | .fctSubarrayLost .. | .portRemove .. |
    .portDrainExpiry .. | .gateCycleStart .. | .gateEntryChange .. | .gateBankSwitch .. | .timeFreqWrite .. |
    .timeStep .. | .timeSlew .. | .slewComplete .. | .timeSet .. | .timeNowFracRead .. | .steerFreq .. |
    .steerStep .. | .steerSlew .. | .linkDelay .. | .steerMsgInvalid .. | .tioCapture .. | .tioCapRead .. |
    .tioEnable .. | .tioSingleEdge .. | .tioPeriodicEdge .. | .tioPpsEdge .. | .tioPulseEnd .. |
    .cvnChannelEnable .. | .cvnTrainDone .. | .cvnTrainTimeout .. | .cvnCycleStart .. | .cvnCsSend .. |
    .cvnMoverStart .. | .cvnSlotSend .. | .cvnCommitSend .. | .dlyReqSend .. | .csFrameRx .. | .dataFrameRx .. |
    .nullFrameRx .. | .leaveFrameRx .. | .commitFrameRx .. | .dlyReqRx .. | .dlyRspRx .. | .cvnOwnFrameReturn .. |
    .cvnSlotMissed .. | .cvnCsMissing .. | .cvnListenTimeout .. | .cvnLoopbackEnd .. | .cvnLeave .. |
    .cvnBankValidate .. | .cvnTableMessage .. | .cvnMode .. | .cvnTable .. | .mdbTxRequest .. | .mdbTxAbort .. |
    .mdbTxDonePop .. | .mdbRxPop .. | .mdbMwEventRead .. | .mdbFrameSent .. | .mdbArbitrationLost .. |
    .mdbFrameReceived .. | .mdbErrorDetected .. | .mdbRecoveryDone .. | .mdbRecover .. | .mdbAbort .. |
    .mdbTtNext .. | .mdbModeWrite .. | .mdbTtEnable .. | .mdbRamCfgWrite .. | .mdbTrigger .. | .mdbRefDue .. |
    .mdbRefReceived .. | .mdbTtLate .. | .mdbRemapFollowDone .. | .mdbRemapSwitch .. | .mdbRemapTimeout .. |
    .mdbCtrlFail .. | .busSleepRequest .. | .busSleepCancel .. | .sleepGateClose .. | .busWakeEvent .. |
    .awakeMaxExpiry .. | .wakeNAssert .. | .standbyTimerExpiry .. | .psqFetchWait .. | .psqFetchGo .. |
    .psqStoreWait .. | .psqStoreGo .. | .psqReload0 .. | .psqReload1 .. | .psqSignal .. | .psqEmit .. |
    .psqPattern .. | .psqCapture .. | .psqExchange .. | .psqDirect .. | .psqToggle .. | .psqBranch .. |
    .psqFlowWait .. | .psqCount .. | .psqIllegal .. | .psqDwellExpiry .. | .psqStart .. | .psqStop .. |
    .psqClkrst .. | .psqTstartArm .. | .psqTimedStart .. | .psqSeqStart .. | .psqSeqStop .. | .psqSeqRestart .. |
    .psqInject .. | .psqImemWrite .. | .psqTxfPush .. | .psqRxfPop .. | .psqFifoModeWrite .. | .psqRemapPoint .. |
    .psqRemapTimeout .. | .psqSmFail .. | .sioImageCycle .. | .sioCommTimeout .. | .sioLinkFail .. |
    .diFilterAccept .. | .tpPulseStart .. | .tpPulseEnd .. | .sioTick .. | .dqTestStart .. | .dqTestEnd .. |
    .dqOffSettleCheck .. | .dqOverloadTrip .. | .dqThermalTrip .. | .l2Sag .. | .l2Recovered .. | .l1Sag .. |
    .l1Recovered .. | .safetyDomainReset .. | .sioInitDone .. | .sioCfgWrite .. | .sioUnlock .. | .sioLock .. |
    .sioCommit .. | .sioPwdSet .. | .sioAck .. | .sioOutEnable .. | .sioLogRead .. | .sioTest .. |
    .sioUnlockTimeout .. | .pwdLockoutEnd .. | .ackOkTimeout .. | .parStartExpiry .. | .faultForce .. |
    .fstatWrite .. | .holdWindowEnd .. | .fltPulseEnd .. | .hlthWornClear .. | .hlthLogRead .. | .faultLogFlush .. |
    .wearRecordFlush .. | .presentNHigh .. | .presentNLow .. | .softStartTimeout .. | .softStartOn .. |
    .powerOnRelease .. | .logicSupplyLow .. | .logicSupplyRecover .. | .railFail .. | .tempSample .. |
    .hifBootServiceStart .. | .pllLockAcquired .. | .cvnOpenWindowStart .. | .cvnOpenWindowEnd .. | .mdbTxStart .. |
    .wakeFilterActivity .. | .dqOverloadRestartTimeout .. | .dqThermalCooled .. | .inputSupplyApplied .. |
    .softStartRetry .. => true

end Sys2Proof
end

