-- ==== Sys2Proof/Certificates/Slice0/Obligations.lean ====
section
/-! DEFINITION. The statements for the provers, family by family. -/

open Sys2Proof Sys2Proof.Machine

/-- A step with a command in front is that command with the queue's rest. -/
def Obligations.StepRunsFront : Prop :=
  ∀ (c : Instr) (s : State), step { s with pending := c :: s.pending } = exec c s

/-- The model's choice of log entry 3: an idle step is one cycle of CK_TB. -/
def Obligations.IdleStepIsOneCycle : Prop :=
  ∀ s : State, s.pending = [] →
    step s = .next (tick s) ∧
    (s.boot.porst = true → tick s = s) ∧
    (s.boot.porst = false → s.mode ≠ .standby → s.tb.slew = 0 →
      tick s = { s with
        tb := { s.tb.add (4 * 2 ^ 40 + s.freq) with slew := 0 }
        pes := s.pes.map Engine.tick })

/-- No command and no operand stops the module. -/
def Obligations.EveryStepGoesOn : Prop :=
  ∀ s : State, ∃ t : State, step s = .next t ∧ t.pending = s.pending.tail ∧ t.m10 = s.m10

/-- Equal contents stay equal data. -/
def Obligations.StepKeepsCanonicalForm : Prop :=
  ∀ s t : State, s.canon = true → step s = .next t → t.canon = true

/-- What reset leaves. -/
def Obligations.ResetIsCanonicalAndQuiet : Prop :=
  State.reset.canon = true ∧ State.reset.quiet = true ∧ State.reset.pending = [] ∧ State.reset.mode = .boot ∧
    ∀ off : Nat, State.reset.reg off = resetWord off

/-- What `settle` does in a quiet state: nothing. -/
def Obligations.QuietStateStaysAsItIs : Prop :=
  ∀ s : State, s.quiet = true → settle s = s

/-- R945. -/
def Obligations.MaskedFaultSetsItsBitOnly : Prop :=
  ∀ (s : State) (b : BlkId) (src : Nat) (caps : List Nat) (slot : Nat), s.quiet = true → s.regsWf = true →
    s.masked b src = true →
    ∃ t, done (s.raiseFor b src caps slot) = .next t ∧ t = s.setReg (FSTAT b) (t.reg (FSTAT b)) ∧
      t.reg (FSTAT b) = s.reg (FSTAT b) ||| BitVec.ofNat 32 (2 ^ src)

/-- R954. -/
def Obligations.FreeCaptureIsFilled : Prop :=
  ∀ (s : State) (b : BlkId) (src : Nat) (c0 c1 c2 : Word) (slot : Nat) (forced : Bool), s.regsWf = true → src < 24 →
    s.masked b src = false → s.heldBy b src slot c0.toNat = none →
    let t := s.occur b src [c0.toNat, c1.toNat, c2.toNat] slot forced
    ((s.reg (FSTAT b)).getLsbD 31 = false →
      t.reg (FSTAT b) = (Fld.mk 28 24).put (s.reg (FSTAT b) ||| BitVec.ofNat 32 (2 ^ src)) src ||| BitVec.ofNat 32 (2 ^ 31) ∧
      t.reg (FCAP b 0) = c0 ∧ t.reg (FCAP b 1) = c1 ∧ t.reg (FCAP b 2) = c2 ∧
      t.reg (FCAP3 b) = BitVec.ofNat 32 (s.now % 2 ^ 32) ∧ t.reg (FCAP3 b + 4) = BitVec.ofNat 32 (s.now / 2 ^ 32)) ∧
    ((s.reg (FSTAT b)).getLsbD 31 = true →
      t.reg (FSTAT b) = s.reg (FSTAT b) ||| BitVec.ofNat 32 (2 ^ src) ||| BitVec.ofNat 32 (2 ^ 30) ∧
      (∀ k, k < 3 → t.reg (FCAP b k) = s.reg (FCAP b k)) ∧ t.reg (FCAP3 b) = s.reg (FCAP3 b) ∧
      t.reg (FCAP3 b + 4) = s.reg (FCAP3 b + 4)) ∧
    ∀ o, o ≠ FSTAT b → o ≠ FCAP b 0 → o ≠ FCAP b 1 → o ≠ FCAP b 2 → o ≠ FCAP3 b → o ≠ FCAP3 b + 4 → o ≠ HLTH_STAT →
      t.reg o = s.reg o

/-- R957, with the log of R948 and R971. -/
def Obligations.SecondOfItsClassEscalates : Prop :=
  ∀ (s : State) (b : BlkId) (src c0 c1 c2 slot : Nat) (forced : Bool), s.masked b src = false →
    s.heldBy b src slot c0 = none →
    let second := s.unackedOf b (s.confClass b src)
    let eff := if second = true ∧ s.confClass b src < 4 then s.confClass b src + 1 else s.confClass b src
    (s.occur b src [c0, c1, c2] slot forced).faults.buffered =
      if eff < 2 then s.faults.buffered
      else ⟨s.now, b.code, src, b.instNo, decide (s.confClass b src < eff), forced, eff, s.reaction b src, s.mode.code,
        c0, c1, c2⟩ :: s.faults.buffered

/-- R960. -/
def Obligations.HeldFaultIsToldOnly : Prop :=
  ∀ (s : State) (b : BlkId) (src c0 c1 c2 slot : Nat) (forced : Bool) (h : Hold), s.masked b src = false →
    s.heldBy b src slot c0 = some h →
    s.occur b src [c0, c1, c2] slot forced =
      (s.setFstat b src).post ⟨0x10, 1, s.confClass b src, b.code, s.now,
        h.cause * 2 ^ 32 + 2 ^ 31 + b2n forced * 2 ^ 29 + src * 2 ^ 16 + s.confClass b src, c1 % 2 ^ 32 * 2 ^ 32 + c0 % 2 ^ 32⟩ ∧
    Told (s.setFstat b src) (s.occur b src [c0, c1, c2] slot forced)

/-- R18: what a host write leaves, bit by bit. -/
def Obligations.HostWriteFollowsAccessCodes : Prop :=
  ∀ (fs : List FieldRow) (old v : Word) (i : Nat), (∀ f ∈ fs, f.hi < 32) → i < 32 →
    let in' := fun (q : Acc → Bool) => fs.any fun f => q f.acc && decide (f.lo ≤ i) && decide (i ≤ f.hi)
    (hostWrite fs old v).getLsbD i =
      if in' (· == .w1c) = true ∧ v.getLsbD i = true then false
      else if in' (fun a => a == .rw || a == .rws) = true then v.getLsbD i
      else old.getLsbD i

/-- Registers with no effect beyond their fields. -/
def Obligations.PlainRegisterReadAndWrite : Prop :=
  ∀ (s : State) (p : Fin 2) (word : BitVec 22) (v : Word) (b : BlkId), s.quiet = true → s.hears p b = true →
    mw0Place p (mw0Off word) = .reg b → isFaultReg (mw0Off word) = false →
    isWide (mw0Off word) = false → isUpper (mw0Off word) = false →
    (b = .pwr ∨ (b = .clk ∧ mw0Off word ≠ CLK_REF_CFG ∧ mw0Off word ≠ CLK_PLL_CTRL) ∨
        (b = .wadi ∧ elemAt (mw0Off word) (WADI_FUNC 0) 4 8 = none) →
      exec (.registerWrite p word v) s =
        .next (s.setReg (mw0Off word) (hostWrite ((fieldsAt (mw0Off word)).getD []) (s.reg (mw0Off word)) v))) ∧
    (b ≠ .time → b ≠ .psq → (∀ n, b ≠ .pe n) →
      exec (.rcRead p word) s = .next { s.clearRc b (mw0Off word) with rdata := (s.view p b (mw0Off word)).toNat })

/-- R1034, R67. -/
def Obligations.WideRegisterTakesTwoWrites : Prop :=
  ∀ (s : State) (p : Fin 2) (word up : BitVec 22) (v : Word) (b : BlkId), s.quiet = true → s.hears p b = true →
    mw0Place p (mw0Off word) = .reg b → isFaultReg (mw0Off word) = false → isWide (mw0Off word) = true →
    isUpper (mw0Off word) = false → s.wideDrop p b (mw0Off word) = none →
    exec (.reg64LowerWrite p word v) s = .next (s.hold (mw0Off word) v) ∧
    (b ≠ .time → b ≠ .psq → (∀ n, b ≠ .pe n) →
      exec (.reg64LowerRead p word) s = .next
        { s.setLatch p (mw0Off word) (some (s.view p b (mw0Off word + 4))) with rdata := (s.view p b (mw0Off word)).toNat }) ∧
    (mw0Off up = mw0Off word + 4 → mw0Place p (mw0Off up) = .reg b → isFaultReg (mw0Off up) = false →
      isWide (mw0Off up) = false → s.wideDrop p b (mw0Off up) = none →
      ((∃ n, b = .mac n ∨ b = .mdb n) ∨ b = .swc ∨ b = .wake →
        exec (.registerWrite p up v) s = .next (s.pairWrite (mw0Off up) v)) ∧
      (b ≠ .time → b ≠ .psq → (∀ n, b ≠ .pe n) → ∀ w, (s.port p).latched (mw0Off word) = some w →
        exec (.rcRead p up) s = .next { s.setLatch p (mw0Off word) none with rdata := w.toNat }))

/-- R62, R65. -/
def Obligations.UnansweredAccessIsReported : Prop :=
  ∀ (s : State) (p : Fin 2) (word : BitVec 22) (store : Bool), s.noPort p = false →
    (s.mw0Served (mw0Off word) = true → mw0Place p (mw0Off word) = .nothing →
      exec (.mw0UnmappedAccess p word store) s = .next (settle
        (let t := s.raise .hif F_HIF_REG_UNMAPPED [mw0Off word, 20 + p, b2n store + 4]
         if store then t else { t with rdata := 0 }))) ∧
    exec (.mw0AccessTimeout p word store) s = .next (settle
      (let t := if s.onlyGen then s else s.raise .hif F_HIF_REG_TIMEOUT [mw0Off word, 20 + p, b2n store + 4]
       if store then t else { t with rdata := 0xFFFFFFFF }))

/-- R453, R454, R152. -/
def Obligations.Mw2WriteThenReadReturnsTheBytes : Prop :=
  ∀ (s : State) (p q : Fin 2) (n : Fin 18) (a : Nat) (off : BitVec 26) (bs : List Byte) (k : Fin 513) (ecc : Ecc),
    s.quiet = true → s.noPort p = false → s.noPort q = false → s.onlyGen = false → s.executing n = false →
    s.inCopy n = false → s.copyTarget n = false → mw2Place off.toNat = .dmem n a → a % 8 = 0 → off.toNat % 8 = 0 →
    bs.length = 8 → (s.pe n).dmem.wf = true →
    ∃ m, exec (.mw2Access p off k (some bs) ecc) s = .next (s.setPe n { s.pe n with dmem := m }) ∧
      (∀ i, i < 8 → m.byte (a + i) = bs.getD i 0) ∧ (∀ b, b < a ∨ a + 8 ≤ b → m.byte b = (s.pe n).dmem.byte b) ∧
      m.isBad a = false ∧
      exec (.mw2Access q off 8 none .ok) (s.setPe n { s.pe n with dmem := m }) =
        .next { s.setPe n { s.pe n with dmem := m } with rdata := ofLe bs }

/-- R39 to R48, R73 to R77. -/
def Obligations.ReferenceAndPllEvents : Prop :=
  ∀ (s : State) (p : Fin 2) (v : Word) (d : Fin 3) (pll : Fin 6), s.clocked = true → s.quiet = true →
    (s.rd CLK_STAT CLK_STAT_REF_ACTIVE = 1 → exec .refclkLoss s = .next (settle
      (((s.wr CLK_STAT CLK_STAT_REF_ACTIVE 0).bump CLK_SWITCH_CNT CLK_SWITCH_CNT_REF 1).raise .clk F_CLK_REF_LOSS []))) ∧
    (s.flag CLK_REF_CFG CLK_REF_CFG_REF_REVERT = true → s.rd CLK_REF_CFG CLK_REF_CFG_REF_SEL = 1 →
      exec .refRevert s = .next (s.wr CLK_STAT CLK_STAT_REF_ACTIVE 1)) ∧
    (s.hears p .clk = true → (s.regWrite CLK_REF_CFG v).rd CLK_REF_CFG CLK_REF_CFG_REF_SEL ≤ 1 →
      exec (.refSelWrite p v) s = .next ((s.regWrite CLK_REF_CFG v).wr CLK_STAT CLK_STAT_REF_ACTIVE
        ((s.regWrite CLK_REF_CFG v).rd CLK_REF_CFG CLK_REF_CFG_REF_SEL))) ∧
    (s.locked pll = true → s.activePll (pll / 2) ≠ pll →
      exec (.pllLockLoss pll) s = .next (s.wr CLK_STAT (pllBit pll) 0)) ∧
    (let u := s.wr CLK_STAT (pllBit pll) 0
     s.locked pll = true → s.activePll (pll / 2) = pll → u.locked (u.standbyPll (pll / 2)) = true → u.autoClk (pll / 2) = true →
      exec (.pllLockLoss pll) s = .next (settle (u.switchPll (pll / 2)))) ∧
    (let u := s.regWrite CLK_PLL_CTRL v
     s.hears p .clk = true → (∀ e, e < 3 → bitOf v.toNat (8 + e) = decide (e = d.val)) →
      (u.locked (u.standbyPll d) = true → exec (.pllSwitch p v) s = .next (settle (u.switchPll d))) ∧
      (u.locked (u.standbyPll d) = false → exec (.pllSwitch p v) s =
        .next (settle (u.raise .clk F_CLK_SWITCH_REFUSED [u.standbyPll d])))) ∧
    (let u := s.wr CLK_STAT (pllBit 6) 0
     u.flag CLK_PLL_CTRL CLK_PLL_CTRL_MDB_FB_AUTO = true → u.flag CLK_STAT CLK_STAT_MDB_FALLBACK = false →
      exec (.clkFallback false) s = .next (settle ((u.wr CLK_STAT CLK_STAT_MDB_FALLBACK 1).raise .clk F_CLK_FALLBACK [6]))) ∧
    (let u := s.wr CLK_STAT (pllBit 7) 0
     u.flag CLK_PLL_CTRL CLK_PLL_CTRL_PSQ_FB_AUTO = true → u.flag CLK_STAT CLK_STAT_PSQ_FALLBACK = false →
      exec (.clkFallback true) s = .next (settle ((u.wr CLK_STAT CLK_STAT_PSQ_FALLBACK 1).raise .clk F_CLK_FALLBACK [7]))) ∧
    (let u := s.wr CLK_STAT (pllBit (8 + p)) 0
     s.bonded = false → exec (.hifClockFail p) s = .next (settle
      (((u.setPort p { u.port p with clockFailed := true }).linkDropped p).hostPortLost p))) ∧
    (∀ j : Fin 10, let u := s.wr CLK_STAT (pllBit j) 1
     let w := if j.val < 8 then u else u.setPort (j.val - 8) { u.port (j.val - 8) with clockFailed := false }
     exec (.pllLockAcquired j) s = .next
      (if w.booting = true ∧ w.stage = 0 ∧ w.rd CLK_STAT lockBits = 1023 then w.setStage 1 else w)) ∧
    (∀ counts : List (BitVec 24),
      (∀ k, k < 7 → s.monVerdict (monFreqs.getD k 0) (counts.getD k 0).toNat = none) →
      exec (.freqMonWindowEnd counts) s = .next
        (((List.range 7).foldl (fun t k => t.wr (CLK_MON_CNT k) CLK_MON_CNT_COUNT (counts.getD k 0).toNat) s).setReg
          CLK_MON_STAT 0))

/-- R19, R90. -/
def Obligations.PowerOnResetReturnsEveryField : Prop :=
  ∀ s : State, s.boot.porst = false → s.m10 = false →
    ∃ t, exec .porstNAssert s = .next t ∧ t.mode = .boot ∧ t.boot.porst = true ∧ t.rings = [] ∧ t.slots = [] ∧
      t.quiesce = none ∧ t.holding = [] ∧ t.tio = [] ∧ t.flashA = s.flashA ∧ t.flashB = s.flashB ∧
      (∀ n : Fin 18, (t.pe n).state = if (s.pe n).state = .failed then .failed else .idle) ∧
      ∀ off : Nat, off ∉ [HLTH_AVAIL, HLTH_PARTIAL, HLTH_HOURS, PWR_CNT, GEN_BOOT_CFG, GEN_UPD_STAT, GEN_RST_CAUSE,
        PWR_STAT] → t.reg off = resetWord off

/-- R101 to R108, R130, R447, R1008, R1035. -/
def Obligations.BootRunsStageByStage : Prop :=
  ∀ (s : State) (p : Fin 2) (ok0 ok1 : Bool) (v : Word) (bs : List Byte), s.quiet = true →
    (s.boot.porst = true → ({ s with pwr := { s.pwr with pin := false } } : State).mayRelease = true →
      ∃ t, exec .porstNDeassert s = .next t ∧ t.boot = { s.boot with porst := false } ∧ t.bonded = s.bondPin ∧
        t.mode = s.mode ∧ t.pwr.pin = false) ∧
    (s.boot.porst = true → ({ s with pwr := { s.pwr with rails := true } } : State).mayRelease = true →
      ∃ t, exec .powerOnRelease s = .next t ∧ t.boot = { s.boot with porst := false } ∧ t.bonded = s.bondPin ∧
        t.mode = s.mode ∧ t.pwr.rails = true) ∧
    (s.booting = true → exec .hifBootServiceStart s = .next { s with boot := { s.boot with hifServes := true } }) ∧
    (s.booting = true → s.stage ≤ 1 → ok0 = false → ok1 = false → ∃ t, exec (.bootSelfTestDone ok0 ok1) s = .next t ∧
      t.boot = { s.boot with scFail0 := true, scFail1 := true } ∧ t.mode = .boot ∧ (s.regsWf = true → t.stage = 1 ∧
        t.rd GEN_BOOT_STAT GEN_BOOT_STAT_ERR = 1)) ∧
    (s.booting = true → s.stage ≤ 1 → ok0 = true ∨ ok1 = true → ∃ t a, exec (.bootSelfTestDone ok0 ok1) s = .next t ∧
      t.boot = { s.boot with scFail0 := !ok0, scFail1 := !ok1, scActive := a } ∧ t.mode = .boot ∧
      t.faults.resetLow = false ∧ (s.regsWf = true → t.stage = 2)) ∧
    (s.booting = true → s.stage = 3 → s.nvm.trial = none → s.nvm.updLog = [] → s.boot.trialLost = none →
      let u := ((s.showVersion false).showVersion true).setStage 4
      (u.rd GEN_BOOT_CFG GEN_BOOT_CFG_SRC = 3 → exec .flashHeadersRead s = .next u.waitHost) ∧
      (∀ b, u.rd GEN_BOOT_CFG GEN_BOOT_CFG_SRC ≠ 3 → u.slotChoice = some b →
        exec .flashHeadersRead s = .next ({ u with boot := { u.boot with chosenB := b } }.setStage 5))) ∧
    (s.booting = true → s.stage = 5 → exec .imageHashDone s = .next (s.setStage 6)) ∧
    (s.booting = true → s.stage = 6 → s.flag GEN_BOOT_STAT GEN_BOOT_STAT_WAIT_HOST = false →
      Config.imageHashOk (s.flash s.boot.chosenB).data (s.flash s.boot.chosenB).version = true →
      Config.imageSigOk (s.flash s.boot.chosenB).data (s.flash s.boot.chosenB).version = true →
      exec .signatureCheckDone s =
        .next (settle (s.startFirmware (some s.boot.chosenB) (s.flash s.boot.chosenB).version))) ∧
    (s.hears p .gen = true → bitOf v.toNat 0 = true → s.booting = true →
      s.flag GEN_BOOT_STAT GEN_BOOT_STAT_WAIT_HOST = true → s.boot.hostRead = none →
      exec (.genHostimgGo p v) s =
        .next ({ s with boot := { s.boot with hostRead := some p.val } }.wr GEN_BOOT_STAT GEN_BOOT_STAT_WAIT_HOST 0)) ∧
    (s.booting = true → 4 ≤ s.stage → s.boot.hostRead = some p.val →
      s.rd GEN_HOSTIMG_LEN GEN_HOSTIMG_LEN_LEN ≤ 0x1000000 → s.nvm.minVersion ≤ v.toNat →
      Config.imageHashOk (bs.take (s.rd GEN_HOSTIMG_LEN GEN_HOSTIMG_LEN_LEN)) v.toNat = true →
      Config.imageSigOk (bs.take (s.rd GEN_HOSTIMG_LEN GEN_HOSTIMG_LEN_LEN)) v.toNat = true →
      exec (.hostimgCheckDone v (some bs)) s =
        .next (settle (({ s with boot := { s.boot with hostRead := none } } : State).startFirmware none v.toNat)))

/-- R101, R103, R358. -/
def Obligations.MarchEndsInStageThree : Prop :=
  ∀ (s : State) (fails : List (Fin 9 × Fin 128)) (ok0 ok1 : Bool), s.booting = true → s.stage = 2 →
    let bad := fun (k u : Nat) => marchKinds.contains k && decide (u < kindUnits.getD k 0) &&
      fails.any fun e => e.1.val == k && e.2.val == u
    let units := marchKinds.flatMap fun k => (List.range (kindUnits.getD k 0)).map fun u => (k, u)
    let s1 := units.foldl (fun t e => t.tested e.1 e.2 (bad e.1 e.2)) s
    let s2 := s1.mapAllBanks ((List.range 72).filter (bad kShared)) ((List.range 52).filter (bad kBuffer))
    let s3 := ((((s2.marchPes (bad kEngine)).marchFct (bad kFct)).marchPsq (bad kPsq)).marchMdb (bad kMdb)).marchMac (bad kMac)
    exec (.bootMarchDone fails ok0 ok1) s = .next (settle (((s3.wr GEN_BOOT_STAT GEN_BOOT_STAT_MARCH_FAIL
      (stopAt 255 (units.filter fun e => bad e.1 e.2).length)).nvmCheck ok0 ok1).setStage 3))

/-- R109 to R114, R495, R496. -/
def Obligations.ImageUpdateCommands : Prop :=
  ∀ (s : State) (ring : Fin 512) (p0 p1 p2 : BitVec 64) (bs : List Byte), s.takes ring Mode.working = true →
    let t := s.take ring
    (s.upd = none → s.isTrial = false → 1 ≤ p0.toNat % 2 ^ 25 → p0.toNat % 2 ^ 25 ≤ 0x1000000 →
      t.nvm.trial ≠ some t.updTarget →
      let b := t.updTarget
      exec (.imgUpdStart ring p0 p1) s = .next (settle
        (({ (((t.updAppend .start b (p1.toNat % 2 ^ 32) 0).setFlash b
            ⟨p1.toNat % 2 ^ 32, [], false, none, (t.flash b).erases + 1⟩).setRejected b false) with
          upd := some ⟨b, p0.toNat % 2 ^ 25, p1.toNat % 2 ^ 32, 0⟩ }.setReg (verReg b) 0).finish ring 0x08 stOk 0))) ∧
    (∀ u, s.upd = some u → p1.toNat % 2 ^ 25 = u.got → 1 ≤ p2.toNat % 2 ^ 21 → p2.toNat % 2 ^ 21 ≤ 0x100000 →
      u.got + p2.toNat % 2 ^ 21 ≤ u.len →
      exec (.imgUpdData ring p0 p1 p2 (some bs)) s = .next (settle
        (({ t.setFlash u.slotB { t.flash u.slotB with
              data := (t.flash u.slotB).data ++ bs.take (p2.toNat % 2 ^ 21) } with
            upd := some { u with got := u.got + p2.toNat % 2 ^ 21 } }.updProgress (u.got + p2.toNat % 2 ^ 21)).finish
          ring 0x09 stOk 0))) ∧
    (∀ u, s.upd = some u → u.got = u.len → Config.imageHashOk (s.flash u.slotB).data u.version = true →
      Config.imageSigOk (s.flash u.slotB).data u.version = true → s.nvm.minVersion ≤ u.version →
      let w := { t.setFlash u.slotB { t.flash u.slotB with crcOk := true, marker := some u.version } with upd := none }
      exec (.imgUpdFinish ring) s = .next (settle
        ((({ w with nvm := { w.nvm with trial := some u.slotB, tried := false } }.updAppend .complete u.slotB u.version
          (units64 u.len)).setReg (verReg u.slotB) (BitVec.ofNat 32 u.version)).finish ring 0x0A stOk 0))) ∧
    (∀ u, s.upd = some u → exec (.imgUpdCancel ring) s = .next (settle ((t.updStop u).finish ring 0x0B stOk 0))) ∧
    (s.isTrial = true →
      exec (.imgConfirm ring) s = .next (settle
        (({ t.wr GEN_BOOT_STAT GEN_BOOT_STAT_TRIAL 0 with nvm := { t.nvm with trial := none, tried := false } }.updAppend
          .confirmed (t.boot.runB.getD false) t.boot.runVersion
          (units64 (t.flash (t.boot.runB.getD false)).data.length)).finish ring 0x0C stOk 0))) ∧
    (s.isTrial = false → p0.toNat % 2 ^ 32 ≤ s.boot.runVersion →
      exec (.imgMinVersion ring p0 p1) s = .next (settle
        ({ t with nvm := { t.nvm with minVersion := p0.toNat % 2 ^ 32 } }.finish ring 0x0D stOk 0)))

/-- R86. -/
def Obligations.RefusedModeRequestIsReported : Prop :=
  ∀ (s : State) (target : Nat) (sack : Bool) (ring : Option Nat), (s.modeRequest target sack ring).1 ≠ 0 →
    let r := s.modeRequest target sack ring
    r.2.mode = s.mode ∧ (s.regsWf = true → r.2.rd GEN_MODE_STAT GEN_MODE_STAT_REFUSE = r.1 % 16) ∧
      r.2 = (s.wr GEN_MODE_STAT GEN_MODE_STAT_REFUSE r.1).event .gen 0x03 0 (r.1 * 2 ^ 12 + target) 0

/-- R83 to R89, R494. -/
def Obligations.HostModeRequestsAct : Prop :=
  ∀ (s t : State) (k : Option Nat), (k = none → t = s) → (∀ r, k = some r → t = s.take r) →
    let result := fun (target : Nat) (sack : Bool) (c : Nat) (u : State) =>
      (k = none → ∀ (p : Fin 2) (v : Word), s.hears p .gen = true → v.toNat % 8 = target → bitOf v.toNat 8 = sack →
        exec (.genModeReq p v) s = .next (settle u)) ∧
      ∀ (r : Fin 512) (p0 : BitVec 64), k = some r.val → s.takes r Mode.working = true → p0.toNat % 8 = target →
        bitOf p0.toNat 8 = sack →
        exec (.mode r p0) s = .next (settle (if c ≠ 0 then u.finish r 0x01 stRefused c
          else if u.pers.toConfig = some (some r.val) then u else u.finish r 0x01 stOk 0))
    (∀ target sack, target = 2 ∨ target = 3 → s.mode = .config → s.enteringStandby = false →
      result target sack 0 t.enterService) ∧
    (∀ sack, s.mode = .run ∨ s.mode = .degraded → s.enteringStandby = false → t.inBlackout = false →
      result 1 sack 0 t.enterConfig) ∧
    (∀ sack, s.mode = .boot ∨ s.mode = .config ∨ s.mode = .run ∨ s.mode = .degraded →
      result 4 sack 0 (t.enterSafe 3)) ∧
    (∀ sack, s.mode ≠ .boot → s.mode ≠ .standby → s.quiesce = none →
      result 5 sack 0 (t.quiesceStart .standby)) ∧
    (s.mode = .safe → s.enteringStandby = false → s.boot.stopped = false → s.fatalUncleared = false →
      s.m10 = true ∨ s.flag SIO_STAT SIO_STAT_ACK_OK = true →
      result 2 true 0 (t.wr SIO_STAT SIO_STAT_ACK_OK 0).enterService) ∧
    (∀ target sack, hostMayAsk s.mode (if target = 3 then 2 else target) = false →
      result target sack 1 (t.refuseMode 1 target))

/-- R92. -/
def Obligations.ResetKeyGuardsEveryReset : Prop :=
  ∀ (s : State) (p : Fin 2) (key : BitVec 8) (blk : BitVec 5), s.hears p .gen = true →
    (key ≠ 0xA5 →
      exec (.warmResetRequest p key) s = .next (settle (s.raise .gen F_GEN_RESET_KEY [s.boot.scActive])) ∧
      exec (.blockReset p key blk) s = .next (settle (s.raise .gen F_GEN_RESET_KEY [s.boot.scActive])) ∧
      ∀ v : Word, BitVec.ofNat 8 (bitsOf v.toNat 31 24) = key →
        s.genWrite p GEN_RESET v = .next (settle (s.raise .gen F_GEN_RESET_KEY [s.boot.scActive]))) ∧
    exec (.warmResetRequest p 0xA5) s = .next (settle s.quiesceWarm) ∧
    (s.badBlock p blk.toNat = false → exec (.blockReset p 0xA5 blk) s = .next (settle (s.blockReset blk.toNat)))

/-- R95, R98 to R100, R117, R119, R823 to R826, R1009, R1010, R1036. -/
def Obligations.SupervisorAndQuiesceEvents : Prop :=
  ∀ (s : State) (q : Quiesce) (blk : BitVec 5) (bus : Fin 8) (ide : Bool) (id : BitVec 29),
    (s.scRuns = true → (s.scFailed s.boot.scActive).scUsable (1 - s.boot.scActive) = true →
      exec .scLockstepFail s = .next (settle (s.scFailed s.boot.scActive).takeover) ∧
      exec .scWatchdogExpiry s = .next (settle (s.scFailed s.boot.scActive).takeover)) ∧
    (s.scRuns = true → (s.scFailed s.boot.scActive).scUsable (1 - s.boot.scActive) = false →
      exec .scLockstepFail s = .next (settle ((s.scFailed s.boot.scActive).availFrom.warmReset 1)) ∧
      exec .scWatchdogExpiry s = .next (settle ((s.scFailed s.boot.scActive).availFrom.warmReset 1))) ∧
    (s.scRuns = true →
      exec .supervisorDoubleFail s = .next (settle (((s.scFailed 0).scFailed 1).availFrom.warmReset 1))) ∧
    (let t := ({ s with pwr := { s.pwr with eject := true } } : State).pwrShow
     s.pwr.on = true → s.scRuns = true → exec .ejectNAssert s = .next (settle (t.quiesceEject .eject))) ∧
    (let t := ({ s with pwr := { s.pwr with eject := false } } : State).pwrShow
     s.pwr.present = true → s.ejecting = true → exec .ejectNDeassert s = .next (settle t.quiesceAbort)) ∧
    (let t := ({ s with pwr := { s.pwr with present := false } } : State).pwrShow
     s.pwr.present = true → s.pwr.on = true →
      (s.flag GEN_MODE_STAT GEN_MODE_STAT_QUIESCED = true → exec .presentNHigh s = .next t.powerOff) ∧
      (s.flag GEN_MODE_STAT GEN_MODE_STAT_QUIESCED = false → s.scRuns = true →
        exec .presentNHigh s = .next (settle (((t.raise .pwr F_PWR_SURPRISE [0]).bump PWR_CNT PWR_CNT_SURPRISE 1).quiesceEject
          .removal)))) ∧
    (let t := ({ s with pwr := { s.pwr with present := true } } : State).pwrShow
     s.ejecting = true → s.pwr.eject = false → exec .presentNLow s = .next (settle t.quiesceAbort)) ∧
    (s.quiesce = some q → q.drained = false → exec .quiesceDrainDone s =
      .next (settle { s.drainRings.quiesceTell q with quiesce := some { q with drained := true, told := true } })) ∧
    (s.quiesce = some q → q.drained = true → q.flushed = false → q.early = false → exec .nvmFlushDone s =
      .next (settle { s.flushFaultLog.flushWear with quiesce := some { q with flushed := true } })) ∧
    (let t := s.wr GEN_MODE_STAT GEN_MODE_STAT_QUIESCED 1
     s.quiesce = some q → q.flushed = true → q.kind ≠ .standby → s.flag GEN_MODE_STAT GEN_MODE_STAT_QUIESCED = false →
      (q.kind = .warm → exec .quiesceComplete s = .next (settle (t.warmReset 0))) ∧
      (q.kind ≠ .warm → s.pwr.present = true → exec .quiesceComplete s = .next t) ∧
      (q.kind ≠ .warm → s.pwr.present = false → exec .quiesceComplete s = .next t.powerOff)) ∧
    (s.quiesce = some q → q.kind = .standby → q.flushed = true →
      exec .standbyReached s = .next (settle s.reachStandby)) ∧
    (s.mode = .standby → s.flag (WAKE_BUS_CFG bus) WAKE_BUS_CFG_STBY_EN = true →
      exec (.standbyWake 2 bus ide id) s = .next (settle (s.wakeUp 2 bus id.toNat ide))) ∧
    (s.mode = .standby → s.flag WAKE_CTRL WAKE_CTRL_PIN_EN = true →
      exec (.standbyWake 5 bus ide id) s = .next (settle (s.wakeUp 5 0 0 false))) ∧
    exec (.blockResetDone blk) s =
      .next { s with boot := { s.boot with blkReset := s.boot.blkReset.filter (· != blk.toNat) } }

/-- R225, the rows ADD to SUBS. -/
def Obligations.RegisterArithmeticOfSlotZero : Prop :=
  ∀ (s : State) (n : Fin 18) (rd ra rb : Fin 32), s.quiet = true → s.issues n = true → (s.pe n).calm = true →
    let e := s.pe n
    let a := e.w[ra]
    let b := e.w[rb]
    let wrote := fun (v : Word) => Host.Outcome.next (s.setPe n { e.ran with w := e.w.set rd v })
    let clamped := fun (x : Int) => Host.Outcome.next (s.setPe n (if x > 2 ^ 31 - 1 then
        { e.ran with w := e.w.set rd 0x7FFFFFFF, flags := e.flags ||| 0x100 }
      else if x < -2 ^ 31 then { e.ran with w := e.w.set rd 0x80000000, flags := e.flags ||| 0x100 }
      else { e.ran with w := e.w.set rd (BitVec.ofInt 32 x) }))
    exec (.add n rd ra rb true) s = wrote (BitVec.ofNat 32 (a.toNat + b.toNat)) ∧
    exec (.sub n rd ra rb true) s = wrote (BitVec.ofInt 32 (a.toNat - b.toNat)) ∧
    exec (.and n rd ra rb true) s = wrote (a &&& b) ∧
    exec (.or n rd ra rb true) s = wrote (a ||| b) ∧
    exec (.xor n rd ra rb true) s = wrote (a ^^^ b) ∧
    exec (.shl n rd ra rb true) s = wrote (BitVec.ofNat 32 (a.toNat * 2 ^ (b.toNat % 32))) ∧
    exec (.shr n rd ra rb true) s = wrote (BitVec.ofNat 32 (a.toNat / 2 ^ (b.toNat % 32))) ∧
    exec (.sar n rd ra rb true) s = wrote (BitVec.ofInt 32 (a.toInt / 2 ^ (b.toNat % 32))) ∧
    exec (.slt n rd ra rb true) s = wrote (if a.toInt < b.toInt then 1 else 0) ∧
    exec (.sltu n rd ra rb true) s = wrote (if a.toNat < b.toNat then 1 else 0) ∧
    exec (.min n rd ra rb true) s = wrote (BitVec.ofInt 32 (min a.toInt b.toInt)) ∧
    exec (.max n rd ra rb true) s = wrote (BitVec.ofInt 32 (max a.toInt b.toInt)) ∧
    exec (.adds n rd ra rb true) s = clamped (a.toInt + b.toInt) ∧
    exec (.subs n rd ra rb true) s = clamped (a.toInt - b.toInt)

/-- R225, the rows ADDI to INS, and R228. -/
def Obligations.ImmediateAndUnaryOfSlotZero : Prop :=
  ∀ (s : State) (n : Fin 18) (rd ra pos wm1 : Fin 32) (imm : BitVec 16), s.quiet = true → s.issues n = true →
    (s.pe n).calm = true →
    let e := s.pe n
    let a := e.w[ra]
    let wrote := fun (v : Word) => Host.Outcome.next (s.setPe n { e.ran with w := e.w.set rd v })
    exec (.addi n rd ra imm true) s = wrote (BitVec.ofInt 32 (a.toInt + imm.toInt)) ∧
    exec (.andi n rd ra imm true) s = wrote (a &&& BitVec.ofNat 32 imm.toNat) ∧
    exec (.ori n rd ra imm true) s = wrote (a ||| BitVec.ofNat 32 imm.toNat) ∧
    exec (.xori n rd ra imm true) s = wrote (a ^^^ BitVec.ofNat 32 imm.toNat) ∧
    (imm.toNat < 32 →
      exec (.shli n rd ra imm true) s = wrote (BitVec.ofNat 32 (a.toNat * 2 ^ imm.toNat)) ∧
      exec (.shri n rd ra imm true) s = wrote (BitVec.ofNat 32 (a.toNat / 2 ^ imm.toNat)) ∧
      exec (.sari n rd ra imm true) s = wrote (BitVec.ofInt 32 (a.toInt / 2 ^ imm.toNat))) ∧
    exec (.slti n rd ra imm true) s = wrote (if a.toInt < imm.toInt then 1 else 0) ∧
    exec (.movi n rd imm true) s = wrote (BitVec.ofInt 32 imm.toInt) ∧
    exec (.lui n rd imm true) s = wrote (BitVec.ofNat 32 (imm.toNat * 2 ^ 16)) ∧
    exec (.abs n rd ra true) s = (if a = 0x80000000 then
        .next (s.setPe n { e.ran with w := e.w.set rd 0x7FFFFFFF, flags := e.flags ||| 0x100 })
      else wrote (BitVec.ofNat 32 a.toInt.natAbs)) ∧
    (∃ k, k ≤ 32 ∧ exec (.clz n rd ra true) s = wrote (BitVec.ofNat 32 k) ∧
      (∀ i, 32 - k ≤ i → i < 32 → a.getLsbD i = false) ∧ (k < 32 → a.getLsbD (31 - k) = true)) ∧
    exec (.popc n rd ra true) s = wrote (BitVec.ofNat 32 ((List.range 32).countP a.getLsbD)) ∧
    (∃ v, exec (.bswap n rd ra true) s = wrote v ∧
      ∀ j i, j < 4 → i < 8 → v.getLsbD (8 * j + i) = a.getLsbD (8 * (3 - j) + i)) ∧
    (∃ v, exec (.brev n rd ra true) s = wrote v ∧ ∀ i, i < 32 → v.getLsbD i = a.getLsbD (31 - i)) ∧
    (pos.val + wm1.val + 1 ≤ 32 →
      (∃ v, exec (.extu n rd ra pos wm1 true) s = wrote v ∧
        ∀ i, i < 32 → v.getLsbD i = (decide (i ≤ wm1.val) && a.getLsbD (pos + i))) ∧
      (∃ v, exec (.exts n rd ra pos wm1 true) s = wrote v ∧
        ∀ i, i < 32 → v.getLsbD i = a.getLsbD (pos + min i wm1)) ∧
      (∃ v, exec (.ins n rd ra pos wm1 true) s = wrote v ∧
        ∀ i, i < 32 → v.getLsbD i =
          if pos.val ≤ i ∧ i ≤ pos.val + wm1.val then a.getLsbD (i - pos) else e.w[rd].getLsbD i))

/-- R225 (MPY to CLRF), R226, R227, R243 to R246. A result in flight is ⟨destination, value, bundles left, of this bundle, of
the MAC class, disturbed⟩. -/
def Obligations.AccumulatorAndFlagInstructions : Prop :=
  ∀ (s : State) (n : Fin 18) (acc : Fin 4) (rd ra rb : Fin 32) (sh : Fin 16) (rnd : Fin 4) (imm : BitVec 16),
    s.quiet = true → s.issues n = true → (s.pe n).calm = true →
    let e := s.pe n
    let a := e.w[ra]
    let b := e.w[rb]
    let z := e.acc[acc]
    let now := fun (x : Engine) => Host.Outcome.next (s.setPe n x)
    let rounded := fun (k : Nat) (x : Int) =>
      if k = 0 then x else if rnd.val = 0 then x / 2 ^ k
      else if rnd.val = 1 ∨ x % 2 ^ k ≠ 2 ^ (k - 1) then (x + 2 ^ (k - 1)) / 2 ^ k
      else 2 * ((x / 2 ^ k + 1) / 2)
    let p := rounded 31 (a.toInt * b.toInt)
    let late := fun (v : BitVec 40) (f : Nat) => now { e.ran with
      pend := ⟨.acc acc, v, 2, false, true, false⟩ ::
        (if f = 0 then [] else [⟨.setFlags, BitVec.ofNat 40 f, 2, false, true, false⟩]) }
    let fitted := fun (sat : Bool) (x : Int) =>
      if -2 ^ 39 ≤ x ∧ x < 2 ^ 39 then late (BitVec.ofInt 40 x) 0
      else if sat then late (if 0 < x then 0x7FFFFFFFFF else 0x8000000000) (2 ^ acc.val)
      else late (BitVec.ofInt 40 x) (2 ^ (4 + acc.val))
    exec (.nop n true) s = now e.ran ∧
    (rnd.val ≠ 3 → ∀ sat : Bool,
      exec (.mpy n acc ra rb sat rnd true) s = fitted sat p ∧
      exec (.mac n acc ra rb sat rnd true) s = fitted sat (z.toInt + p) ∧
      exec (.msu n acc ra rb sat rnd true) s = fitted sat (z.toInt - p)) ∧
    exec (.mul n rd ra rb true) s = now { e.ran with
      pend := [⟨.reg rd, BitVec.ofNat 40 (a.toNat * b.toNat % 2 ^ 32), 2, false, false, false⟩] } ∧
    (rnd.val ≠ 3 → sh.val ≤ 8 → ∀ sat : Bool,
      let x := rounded sh z.toInt
      exec (.ext n rd acc sh sat rnd true) s = now (
        if -2 ^ 31 ≤ x ∧ x < 2 ^ 31 then { e.ran with w := e.w.set rd (BitVec.ofInt 32 x) }
        else if sat then
          { e.ran with w := e.w.set rd (if 0 < x then 0x7FFFFFFF else 0x80000000), flags := e.flags ||| 0x100 }
        else { e.ran with w := e.w.set rd (BitVec.ofInt 32 x), flags := e.flags ||| 0x200 })) ∧
    exec (.setacc n acc ra true) s = now { e.ran with acc := e.acc.set acc (BitVec.ofInt 40 a.toInt) } ∧
    exec (.setg n acc ra true) s = now { e.ran with
      acc := e.acc.set acc (BitVec.ofNat 40 (a.toNat % 256 * 2 ^ 32 + z.toNat % 2 ^ 32)) } ∧
    exec (.extg n rd acc true) s = now { e.ran with w := e.w.set rd (BitVec.ofInt 32 (z.toInt / 2 ^ 32)) } ∧
    exec (.getf n rd true) s = now { e.ran with w := e.w.set rd (BitVec.ofNat 32 e.flags.toNat) } ∧
    (imm.toNat < 1024 → exec (.clrf n imm true) s = now { e.ran with
      flags := e.flags &&& ~~~ (BitVec.ofNat 10 imm.toNat) })

/-- R219, R223 to R225, R228, R230, R245, R247, R248. -/
def Obligations.CrcAndUndefinedEncodings : Prop :=
  ∀ (s : State) (n : Fin 18) (acc : Fin 4) (rd ra rb pos wm1 : Fin 32) (poly : Fin 8) (sh : Fin 16) (size uw rnd : Fin 4)
    (imm : BitVec 16) (uref sat last : Bool) (ecc : Ecc),
    let e := s.pe n
    (s.quiet = true → s.issues n = true → e.calm = true → ∀ p : CrcPoly, size.val ≠ 3 →
      ((poly.val, p) ∈ [(0, ⟨32, 0x04C11DB7, true⟩), (1, ⟨32, 0x1EDC6F41, true⟩), (2, ⟨16, 0x1021, false⟩),
        (3, ⟨16, 0x8005, true⟩), (4, ⟨8, 0x07, false⟩),
        (7, (⟨8 * (uw.val + 1), e.w[rb].toNat % 2 ^ (8 * (uw.val + 1)), uref⟩ : CrcPoly))]) →
      exec (.crc n rd ra rb poly size uw uref true) s = .next (s.setPe n { e.ran with
        pend := [⟨.reg rd, (crcUpdate p e.w[rd] e.w[ra] (2 ^ size.val)).setWidth 40, 1, false, false, false⟩] })) ∧
    (∀ i ∈ [Instr.shli n rd ra imm last, .shri n rd ra imm last, .sari n rd ra imm last, .extu n rd ra pos wm1 last,
        .exts n rd ra pos wm1 last, .ins n rd ra pos wm1 last, .crc n rd ra rb poly size uw uref last,
        .mpy n acc ra rb sat rnd last, .mac n acc ra rb sat rnd last, .msu n acc ra rb sat rnd last,
        .ext n rd acc sh sat rnd last, .clrf n imm last, .ld n rd ra imm ecc, .sd n rd ra imm, .push n rd, .pop n rd],
      i.wellFormed = false → exec i s = exec (.illegalBundle n) s) ∧
    (s.issues n = true →
      let t := (s.onPe n fun x => { x with lastPc := x.pc, pend := x.pend.filter (!·.fresh), half := false }).raiseFor (.pe n)
        F_PE_ILLEGAL [8 * e.pc.toNat] e.slotNo
      (s.stays n F_PE_ILLEGAL = true → exec (.illegalBundle n) s = .next (settle t)) ∧
      (s.stays n F_PE_ILLEGAL = false → exec (.illegalBundle n) s = .next (settle (t.onPe n Engine.finishBundle))))

/-- R229 (LB to LD), R231, R232. What the end of a bundle does is `Engine.finishBundle`. -/
def Obligations.LoadsFromDmem : Prop :=
  ∀ (s : State) (n : Fin 18) (rd ra : Fin 32) (imm : BitVec 16), s.quiet = true → s.closes n = true →
    let e := s.pe n
    let a := (BitVec.ofInt 32 (e.w[ra].toInt + imm.toInt)).toNat
    let b := fun (k : Nat) => e.dmem.byte (a - 0x10000000 + k)
    let loads := fun (vs : List (Fin 32 × Word)) => Host.Outcome.next (s.setPe n ({ e with
      lastPc := e.pc, half := true,
      pend := e.pend ++ vs.map fun v => ⟨.reg v.1, v.2.setWidth 40, 2, true, false, false⟩ } : Engine).finishBundle)
    0x10000000 ≤ a → a < 0x10020000 → e.dmem.isBad (a - 0x10000000) = false →
      exec (.lb n rd ra imm .ok) s = loads [(rd, (b 0).signExtend 32)] ∧
      exec (.lbu n rd ra imm .ok) s = loads [(rd, (b 0).setWidth 32)] ∧
      (a % 2 = 0 → exec (.lh n rd ra imm .ok) s = loads [(rd, (b 1 ++ b 0).signExtend 32)] ∧
        exec (.lhu n rd ra imm .ok) s = loads [(rd, (b 1 ++ b 0).setWidth 32)]) ∧
      (a % 4 = 0 → exec (.lw n rd ra imm .ok) s = loads [(rd, b 3 ++ b 2 ++ b 1 ++ b 0)]) ∧
      (a % 8 = 0 → pairBase rd = true → exec (.ld n rd ra imm .ok) s =
        loads [(rd, b 3 ++ b 2 ++ b 1 ++ b 0), (rd + 1, b 7 ++ b 6 ++ b 5 ++ b 4)])

/-- R229 (SB to SD), R150, R231, R232. -/
def Obligations.StoresToDmem : Prop :=
  ∀ (s : State) (n : Fin 18) (rs ra : Fin 32) (imm : BitVec 16), s.quiet = true → s.closes n = true →
    let e := s.pe n
    let a := (BitVec.ofInt 32 (e.w[ra].toInt + imm.toInt)).toNat
    let off := a - 0x10000000
    let v := fun (r : Fin 32) (k : Nat) => e.w[r].extractLsb' (8 * k) 8
    let stores := fun (bs : List Byte) => Host.Outcome.next (s.setPe n ({ e with
      lastPc := e.pc, half := true,
      dmem := (if bs.length = 8 then e.dmem.clearBad (off / 8) else e.dmem).putBytes off bs } : Engine).finishBundle)
    0x10000000 ≤ a → a < 0x10020000 →
      exec (.sb n rs ra imm) s = stores [v rs 0] ∧
      (a % 2 = 0 → exec (.sh n rs ra imm) s = stores [v rs 0, v rs 1]) ∧
      (a % 4 = 0 → exec (.sw n rs ra imm) s = stores [v rs 0, v rs 1, v rs 2, v rs 3]) ∧
      (a % 8 = 0 → rs.val % 2 = 0 → exec (.sd n rs ra imm) s =
        stores [v rs 0, v rs 1, v rs 2, v rs 3, v (rs + 1) 0, v (rs + 1) 1, v (rs + 1) 2, v (rs + 1) 3]) ∧
      (e.dmem.wf = true → ∀ (m : Mem) (bs : List Byte) (k : Nat), m = e.dmem ∨ m = e.dmem.clearBad (off / 8) →
        (m.putBytes off bs).byte k =
          if h : off ≤ k ∧ k - off < bs.length then bs[k - off] else e.dmem.byte k)

/-- R140 to R144, R150, R189, R231. -/
def Obligations.AccessesThatFaultOrGoFar : Prop :=
  ∀ (s : State) (n : Fin 18) (rd ra : Fin 32) (imm : BitVec 16), s.quiet = true → s.closes n = true →
    let e := s.pe n
    let a := (BitVec.ofInt 32 (e.w[ra].toInt + imm.toInt)).toNat
    let i := s.onPe n fun x => { x with lastPc := x.pc, half := true }
    let caps := fun (size store : Nat) =>
      [a, n.val + (match e.slot with | some l => l.val * 256 | none => 0), store + 2 * Nat.log2 size]
    let ends := fun (t : State) => Host.Outcome.next (settle (t.onPe n Engine.finishBundle))
    let slot := e.slotNo
    let le := fun (r : Fin 32) => leBytes 4 e.w[r].toNat
    (∀ x ∈ [(LoadKind.s8, fun c => Instr.lb n rd ra imm c), (.u8, fun c => .lbu n rd ra imm c), (.s16, fun c => .lh n rd ra imm c),
        (.u16, fun c => .lhu n rd ra imm c), (.w32, fun c => .lw n rd ra imm c), (.d64, fun c => .ld n rd ra imm c)],
      ∀ ecc : Ecc, (x.2 ecc).wellFormed = true →
      let size := x.1.size
      (a % size ≠ 0 → exec (x.2 ecc) s = ends ((i.raiseFor (.pe n) F_PE_ALIGN (caps size 0) slot).putLoad n x.1 rd 0)) ∧
      (a % size = 0 → regionOf a = .nothing →
        exec (x.2 ecc) s = ends ((i.raiseFor (.pe n) F_PE_ADDR_ERR (caps size 0) slot).putLoad n x.1 rd 0)) ∧
      (∀ o, a % size = 0 → regionOf a = .dmem o → e.dmem.isBad o = true ∨ ecc = .double →
        exec (x.2 ecc) s = ends (((i.onPe n fun y => { y with dmem := y.dmem.setBad (o / 8) }).raiseFor (.pe n) F_PE_DMEM_UE
          [8 * e.pc.toNat] slot).putLoad n x.1 rd 0)) ∧
      (∀ o, a % size = 0 → regionOf a = .dmem o → e.dmem.isBad o = false → ecc = .single →
        exec (x.2 ecc) s = ends (((i.bump (PE_ECC_CNT n) PE_ECC_CNT_DMEM_CE 1).raiseFor (.pe n) F_PE_DMEM_CE
          [8 * e.pc.toNat] slot).putLoad n x.1 rd (ofLe (e.dmem.bytes o size)))) ∧
      (∀ o, a % size = 0 → regionOf a ∈ [Region.bank o, .mbx o, .mdb o, .psq o] →
        exec (x.2 ecc) s = .next (s.setPe n { ({ e with lastPc := e.pc, half := true } : Engine).disturb with
          stall := some (.load a x.1 rd) }))) ∧
    (∀ x ∈ [((le rd).take 1, Instr.sb n rd ra imm), ((le rd).take 2, .sh n rd ra imm), (le rd, .sw n rd ra imm),
        (le rd ++ le (rd + 1), .sd n rd ra imm)], x.2.wellFormed = true →
      let size := x.1.length
      (a % size ≠ 0 → exec x.2 s = ends (i.raiseFor (.pe n) F_PE_ALIGN (caps size 1) slot)) ∧
      (a % size = 0 → regionOf a = .nothing → exec x.2 s = ends (i.raiseFor (.pe n) F_PE_ADDR_ERR (caps size 1) slot)) ∧
      (∀ o, a % size = 0 → regionOf a ∈ [Region.bank o, .mbx o, .mdb o, .psq o] → e.wbuf.length < 8 →
        exec x.2 s = .next (s.setPe n ({ e with
          lastPc := e.pc, half := true, wbuf := e.wbuf ++ [⟨a, x.1, e.pc, .bus⟩] } : Engine).finishBundle)) ∧
      (∀ o, a % size = 0 → regionOf a ∈ [Region.bank o, .mbx o, .mdb o, .psq o] → 8 ≤ e.wbuf.length →
        exec x.2 s = .next (s.setPe n { ({ e with lastPc := e.pc, half := true } : Engine).disturb with
          stall := some (.store ⟨a, x.1, e.pc, .bus⟩) })))

/-- R171, R182, R229 (BEQ to BRK), R234 to R236. A transfer is its target, if taken, and the bundles left before it. -/
def Obligations.TransfersStart : Prop :=
  ∀ (s : State) (n : Fin 18) (ra rb : Fin 32) (imm : BitVec 16) (idx : BitVec 14), s.quiet = true →
    let e := s.pe n
    let e1 : Engine := { e with lastPc := e.pc, half := true }
    let a := e.w[ra]
    let b := e.w[rb]
    let ends := fun (x : Engine) => Host.Outcome.next (s.setPe n x.finishBundle)
    let goes := fun (target : Option (BitVec 14)) => ends (if e.xfer.isSome then e1 else { e1 with xfer := some ⟨target, 3⟩ })
    let to_ := some (e.pc + imm.setWidth 14)
    (s.closes n = true →
      exec (.beq n ra rb imm) s = goes (if a = b then to_ else none) ∧
      exec (.bne n ra rb imm) s = goes (if a ≠ b then to_ else none) ∧
      exec (.blt n ra rb imm) s = goes (if a.toInt < b.toInt then to_ else none) ∧
      exec (.bge n ra rb imm) s = goes (if a.toInt ≥ b.toInt then to_ else none) ∧
      exec (.bltu n ra rb imm) s = goes (if a.toNat < b.toNat then to_ else none) ∧
      exec (.bgeu n ra rb imm) s = goes (if a.toNat ≥ b.toNat then to_ else none) ∧
      exec (.j n idx) s = goes (some idx) ∧
      exec (.jr n ra) s = goes (some (a.extractLsb' 3 14)) ∧
      exec (.wait n) s = ends (if s.ecsEvent n &&& e.even ≠ 0 then e1 else { e1.disturb with state := .wait }) ∧
      exec (.fence n) s = (if e.wbuf = [] then ends e1 else .next (s.setPe n { e1.disturb with stall := some .fence })) ∧
      exec (.brk n) s = ends { e1 with haltPend := some 2 }) ∧
    (e.canIssue = true → e.half = false → s.atBreakpoint n = true →
      exec (.breakpointHit n) s = .next (s.setPe n (e.haltNow 2)))

/-- R234, R235. -/
def Obligations.TransferReachesItsTarget : Prop :=
  ∀ (s : State) (n : Fin 18) (ra rb : Fin 32) (imm : BitVec 16) (idx : BitVec 14), s.quiet = true → s.issues n = true →
    (s.pe n).calm = true → s.flag (PE_BP n) PE_BP_EN = false → (s.pe n).imem.bad = [] →
    let e := s.pe n
    ∀ x ∈ [(Instr.j n idx, idx), (.beq n ra rb imm, if e.w[ra] = e.w[rb] then e.pc + imm.setWidth 14 else e.pc + 3)],
      ∃ t u v, exec x.1 s = .next t ∧ exec (.nop n true) t = .next u ∧ exec (.nop n true) u = .next v ∧
        (t.pe n).pc = e.pc + 1 ∧ (u.pe n).pc = e.pc + 2 ∧ (v.pe n).pc = x.2 ∧ (v.pe n).xfer = none ∧
        v = s.setPe n { e with
          pc := x.2, lastPc := e.pc + 2, cycles := e.cycles + 3, busy := e.busy + 3, wdog := e.wdog + 3 }

/-- R229, R236, R238 to R241. -/
def Obligations.CallsAndTheStack : Prop :=
  ∀ (s : State) (n : Fin 18) (ra rn : Fin 32) (idx : BitVec 14), s.quiet = true → s.closes n = true → pairBase rn = true →
    let e := s.pe n
    let e1 : Engine := { e with lastPc := e.pc, half := true }
    let sp := e.w[(31 : Fin 32)]
    let top := 0x10000000 + 8 * s.rd (PE_SP_INIT n) PE_SP_INIT_TOP
    let ends := fun (x : Engine) => Host.Outcome.next (s.setPe n x.finishBundle)
    let moved := fun (v : Word) => (⟨.reg 31, v.setWidth 40, 1, true, false, false⟩ : Pend)
    let off := (sp - 8).toNat - 0x10000000
    let pushed := fun (bs : List Byte) => { e1 with
      pend := e.pend ++ [moved (sp - 8)], dmem := (e.dmem.clearBad (off / 8)).putBytes off bs }
    let entry := ofLe (e.dmem.bytes (sp.toNat - 0x10000000) 8)
    let bad := Host.Outcome.next (settle (((s.setPe n e1).raiseFor (.pe n) F_PE_STACK [8 * e.pc.toNat] e.slotNo).onPe n
      Engine.finishBundle))
    (sp.toNat % 8 = 0 → e.stackLimit.toNat + 8 ≤ sp.toNat → 0x10000000 ≤ (sp - 8).toNat → (sp - 8).toNat < 0x10020000 →
      exec (.push n rn) s = ends (pushed (leBytes 4 e.w[rn].toNat ++ leBytes 4 e.w[rn + 1].toNat)) ∧
      (e.xfer = none →
        exec (.call n idx) s = ends { pushed (leBytes 8 (8 * (e.pc + 3).toNat)) with xfer := some ⟨some idx, 3⟩ } ∧
        exec (.callr n ra) s = ends { pushed (leBytes 8 (8 * (e.pc + 3).toNat)) with
          xfer := some ⟨some (e.w[ra].extractLsb' 3 14), 3⟩ })) ∧
    (sp.toNat % 8 = 0 → sp.toNat + 8 ≤ top → 0x10000000 ≤ sp.toNat → sp.toNat < 0x10020000 →
      e.dmem.isBad (sp.toNat - 0x10000000) = false →
      exec (.pop n rn) s = ends { e1 with pend := e.pend ++ [moved (sp + 8),
        ⟨.reg rn, BitVec.ofNat 40 (entry % 2 ^ 32), 2, true, false, false⟩,
        ⟨.reg (rn + 1), BitVec.ofNat 40 (entry / 2 ^ 32 % 2 ^ 32), 2, true, false, false⟩] } ∧
      (e.xfer = none → exec (.ret n) s = ends { e1 with
        pend := e.pend ++ [moved (sp + 8)], xfer := some ⟨some (BitVec.ofNat 14 (entry / 8)), 3⟩ })) ∧
    (sp.toNat < e.stackLimit.toNat + 8 → exec (.push n rn) s = bad ∧
      (e.xfer = none → exec (.call n idx) s = bad ∧ exec (.callr n ra) s = bad)) ∧
    (top < sp.toNat + 8 → exec (.pop n rn) s = bad ∧ (e.xfer = none → exec (.ret n) s = bad)) ∧
    (e.xfer.isSome = true → exec (.call n idx) s = ends e1 ∧ exec (.callr n ra) s = ends e1 ∧ exec (.ret n) s = ends e1)

/-- R138, R214, R221, R225. -/
def Obligations.BundleOfTwoSlots : Prop :=
  ∀ (s : State) (n : Fin 18) (acc : Fin 4) (rd ra rb pos wm1 : Fin 32) (poly : Fin 8) (sh : Fin 16) (size uw rnd : Fin 4)
    (imm : BitVec 16) (uref sat : Bool), s.quiet = true → s.issues n = true → (s.pe n).calm = true →
    ∀ i ∈ ([(Instr.add n rd ra rb ·), (.sub n rd ra rb ·), (.and n rd ra rb ·), (.or n rd ra rb ·), (.xor n rd ra rb ·),
      (.shl n rd ra rb ·), (.shr n rd ra rb ·), (.sar n rd ra rb ·), (.slt n rd ra rb ·), (.sltu n rd ra rb ·),
      (.min n rd ra rb ·), (.max n rd ra rb ·), (.adds n rd ra rb ·), (.subs n rd ra rb ·), (.addi n rd ra imm ·),
      (.andi n rd ra imm ·), (.ori n rd ra imm ·), (.xori n rd ra imm ·), (.shli n rd ra imm ·), (.shri n rd ra imm ·),
      (.sari n rd ra imm ·), (.slti n rd ra imm ·), (.movi n rd imm ·), (.lui n rd imm ·), (.abs n rd ra ·), (.clz n rd ra ·),
      (.popc n rd ra ·), (.bswap n rd ra ·), (.brev n rd ra ·), (.extu n rd ra pos wm1 ·), (.exts n rd ra pos wm1 ·),
      (.ins n rd ra pos wm1 ·), (.crc n rd ra rb poly size uw uref ·), (.mpy n acc ra rb sat rnd ·), (.mac n acc ra rb sat rnd ·),
      (.msu n acc ra rb sat rnd ·), (.mul n rd ra rb ·), (.ext n rd acc sh sat rnd ·), (.setacc n acc ra ·), (.setg n acc ra ·),
      (.extg n rd acc ·), (.getf n rd ·), (.clrf n imm ·), (.nop n ·)] : List (Bool → Instr)), (i false).wellFormed = true →
    ∃ ps u, exec (i false) s = .next (s.setPe n { s.pe n with lastPc := (s.pe n).pc, half := true, pend := ps }) ∧
      exec (.nop n true) (s.setPe n { s.pe n with lastPc := (s.pe n).pc, half := true, pend := ps }) = .next u ∧
      exec (i true) s = .next u

/-- R154 to R164. -/
def Obligations.FrameAccessUnitCommands : Prop :=
  ∀ (s : State) (n : Fin 18) (ports : BitVec 16) (queue : Fin 8) (oneStep : Bool) (v : Word) (ring : Fin 512),
    let e := s.pe n
    let closed := (s.flushWindow n true).onFau n fun f => { f with rx := none, rxAhead := false }
    let err := Host.Outcome.next (settle (s.raisePe n F_PE_FAU_ERR))
    let dests := { Dest.nowhere with ports := portsOf ports.toNat 16 queue.val }
    let txDone := fun (t : State) => t.onFau n fun f => { f with tx := none }
    (s.quiet = true → e.fau.rx = none → exec (.fauFetchAheadDone n queue) s =
      .next (s.onFau n fun f => { f with ahead := setBit f.ahead queue true })) ∧
    (e.canIssue = true →
      (∀ (l : Fin 16) (q fid : Nat) (rest : List Nat) (f : Frame), e.slot = some l → e.fau.rx = none →
        [7, 6, 5, 4, 3, 2, 1, 0].find? (fun q => bitOf e.fau.qen q && !(s.eq l q).isEmpty) = some q →
        s.eq l q = fid :: rest → s.frame fid = some f →
        exec (.fauRxPop n) s = .next (settle { ((s.setEq l q rest).onFau n fun x =>
            { x with rx := some (q, fid), rxAhead := bitOf x.ahead q, ahead := setBit x.ahead q false }) with
          rdata := 2 ^ 31 + q * 2 ^ 28 + b2n f.err * 2 ^ 27 + b2n f.redelivered * 2 ^ 26 + f.src * 2 ^ 24 +
            (if f.src = 0 then f.port * 2 ^ 20 else 0) + f.bytes.length })) ∧
      (e.fau.rx.isSome = true →
        exec (.fauRxPop n) s = .next (settle { s.raisePe n F_PE_FAU_ERR with rdata := 0 })) ∧
      (∀ (q fid : Nat) (f : Frame), e.fau.rx = some (q, fid) → closed.frame fid = some f →
        exec (.fauRxDoneFree n) s = .next (settle (closed.collect fid)) ∧
        (f.err = false → f.bad = false → exec (.fauRxDoneForward n ports queue oneStep) s =
          .next (settle ((closed.setFrame fid (some { f with
            oneStep := oneStep, txSlot := if oneStep then (s.pe n).slot.map Fin.val else none })).deliver fid dests)))) ∧
      (e.fau.rx = none → exec (.fauRxDoneFree n) s = err ∧ exec (.fauRxDoneForward n ports queue oneStep) s = err) ∧
      (∀ l, e.fau.tx = none → 60 ≤ v.toNat → v.toNat ≤ 9216 → e.slot = some l →
        (s.admitSlot l (cellsOf v.toNat) = true → exec (.fauTxAlloc n v) s = .next (settle ((s.onFau n fun f =>
          { f with tx := some ⟨v.toNat, [], [], cellsOf v.toNat⟩, allocStat := 2 ^ 31 }).noteSlot l false))) ∧
        (s.admitSlot l (cellsOf v.toNat) = false → exec (.fauTxAlloc n v) s = .next (settle ((s.onFau n fun f =>
          { f with allocStat := 2 ^ 30 }).noteSlot l false)))) ∧
      (v.toNat % 2 ^ 14 / 64 * 64 ≠ e.fau.txBase → exec (.fauTxBaseWrite n v) s =
        .next (settle (s.onFau n fun f => { f.flush with txBase := v.toNat % 2 ^ 14 / 64 * 64 }))) ∧
      (∀ t, ((((s.flushWindow n false).onFau n Fau.flush).pe n).fau.tx = some t) →
        let s1 := txDone ((s.flushWindow n false).onFau n Fau.flush)
        let bytes := (List.range t.len).map fun k => SMap.get (fun _ => 0) t.bytes k
        exec (.fauTxAbandon n) s = .next (settle s1) ∧
        (∃ fid x, (s1.store x).1 = fid ∧ x.bytes = bytes ∧ x.src = 2 ∧ x.oneStep = oneStep ∧
          exec (.fauTxSendPorts n ports queue oneStep) s = .next (settle ((s1.store x).2.deliver fid dests))) ∧
        (∃ fid x, (s1.store x).1 = fid ∧ x.bytes = bytes ∧ x.src = 2 ∧ x.oneStep = false ∧
          exec (.fauTxSendHost n ring) s =
            .next (settle ((s1.store x).2.deliver fid { Dest.nowhere with ring := some ring.val })))) ∧
      ((((s.flushWindow n false).onFau n Fau.flush).pe n).fau.tx = none →
        exec (.fauTxAbandon n) s = err ∧ exec (.fauTxSendPorts n ports queue oneStep) s = err ∧
        exec (.fauTxSendHost n ring) s = err))

/-- R167 to R171, R173, R174, R176, R667. -/
def Obligations.EngineTimersEventsAndBoundaries : Prop :=
  ∀ (s : State) (n : Fin 18) (t : Fin 4) (absolute periodic : Bool), s.quiet = true →
    let e := s.pe n
    let put := fun (f : Engine → Engine) => Host.Outcome.next (s.onPe n f)
    let set := fun (x : EtTimer) => put fun e => { e with timers := e.timers.set t x }
    let x := e.timers[t]
    (e.canIssue = true → exec (.etmSnapReq n) s = put fun e =>
      { e with snapCyc := e.cycles, snapNs := s.now, snapFrac := s.tb.frac, snapPend := true, snapReady := false }) ∧
    (e.snapPend = true → e.stall = none →
      exec (.snapshotArrived n) s = put fun e => { e with snapPend := false, snapReady := true }) ∧
    (e.canIssue = true →
      let y := { x with en := true, absolute := absolute, periodic := periodic, spent := x.spent && x.en }
      exec (.etmTimerEnable n t absolute periodic) s =
        set (if x.en = false ∧ absolute = true ∧ x.cmp < s.now then y.fire true else y)) ∧
    (x.en = true → x.spent = false → exec (.etmTimerFire n t) s = set (x.fire false)) ∧
    (e.state = .wait → e.inReset = false → s.ecsEvent n &&& e.even ≠ 0 →
      exec (.engineEventWake n) s = put fun e => { e with state := .run }) ∧
    (e.canIssue = true → exec (.ecsWdogKick n) s = put fun e => { e with wdog := 0 }) ∧
    (e.canIssue = true → s.regsWf = true →
      ∃ u, exec (.ecsBoundary n) s = .next u ∧ u.reg (PE_CYC_CNT n) = s.reg (PE_CYC_CNT n) + 1 ∧
        (u.pe n).lastBoundary = e.cycles ∧ (u.pe n).wdog = 0 ∧ (u.pe n).longest = max e.longest (e.cycles - e.lastBoundary) ∧
        (e.stopPend = false → (u.pe n).state = .run) ∧
        (e.stopPend = true → e.fau.rx = none → e.fau.tx = none → (u.pe n).state = .stopped ∧ (u.pe n).stopPend = false) ∧
        (e.stopPend = true → e.fau.rx.isSome = true ∨ e.fau.tx.isSome = true →
          (u.pe n).state = .run ∧ (u.pe n).deferred = min 255 (e.deferred + 1))) ∧
    (s.rd (PE_WDOG n) PE_WDOG_TIMEOUT ≠ 0 → e.state = .run ∨ e.state = .wait → e.inReset = false →
      500 * s.rd (PE_WDOG n) PE_WDOG_TIMEOUT ≤ e.wdog →
      exec (.engineWatchdogExpiry n) s = .next (settle (s.raiseFor (.pe n) F_PE_WDOG [8 * e.lastPc.toNat] e.slotNo))) ∧
    (∀ (l : Fin 16) (h : TxTs) (rest : List TxTs) (lost : Nat), e.canIssue = true → e.slot = some l →
      SMap.get (fun _ => ([], 0)) s.swc.txts l.val = (h :: rest, lost) →
      exec (.etmTxtsPop n) s = .next { s with
        swc := { s.swc with txts := SMap.set (fun _ => ([], 0)) s.swc.txts l.val (rest, 0) }
        rdata := 2 ^ 31 + b2n h.inserted * 2 ^ 30 + lost * 2 ^ 24 + h.quarter * 2 ^ 22 + h.port * 2 ^ 16 + h.seq })

/-- R147, R151, R174, R179 to R181, R185, R207 to R209. -/
def Obligations.EngineControlCommands : Prop :=
  ∀ (s : State) (p : Fin 2) (n : Fin 18) (v : Word), s.quiet = true →
    let e := s.pe n
    let put := fun (f : Engine → Engine) => Host.Outcome.next (s.onPe n f)
    (s.hears p (.pe n) = true →
      (e.inReset = false → e.state = .loaded → exec (.peStart p n) s = .next ((s.setReg (PE_CYC_CNT n) 0).onPe n fun e =>
        { e with state := .run, cycles := 0, lastBoundary := 0, wdog := 0 })) ∧
      (e.inReset = false → e.state = .stopped ∨ e.state = .halt →
        exec (.peStart p n) s = put fun e => { e with state := .run, haltCause := 0 }) ∧
      (e.inReset = false → e.state = .run ∨ e.state = .wait → e.stopPend = false →
        exec (.peStop p n) s = put fun e => { e with stopPend := true, deferred := 0 }) ∧
      (e.inReset = false → e.state = .run ∨ e.state = .wait ∨ e.state = .stopped →
        exec (.peHalt p n) s = put fun e =>
          if e.half = true ∨ e.stall.isSome = true then { e with haltPend := some 1, stopPend := false } else e.haltNow 1) ∧
      (e.state ≠ .idle → e.state ≠ .failed → exec (.peReset p n) s = put fun e =>
        { e with inReset := true, stopPend := false, haltPend := none }) ∧
      (e.inReset = false → e.state = .halt → exec (.peStep p n) s = .next (settle (s.peStep n))) ∧
      (e.state = .loaded ∨ e.state = .stopped ∨ e.state = .halt → ∀ r : Fin 32, s.rd (PE_DBG_SEL n) PE_DBG_SEL_SEL = r.val →
        exec (.peDbgDataAccess p n none) s = .next { s with rdata := e.w[r].toNat } ∧
        exec (.peDbgDataAccess p n (some v)) s = put fun e => { e with w := e.w.set r v }) ∧
      (e.state = .loaded ∨ e.state = .stopped ∨ e.state = .halt → s.rd (PE_DBG_SEL n) PE_DBG_SEL_SEL = 40 →
        exec (.peDbgDataAccess p n none) s = .next { s with rdata := e.stackLimit.toNat } ∧
        exec (.peDbgDataAccess p n (some v)) s = .next s) ∧
      (e.state = .run ∨ e.state = .wait ∨ e.state = .shadow →
        exec (.peDbgDataAccess p n none) s = .next { s with rdata := 0xFFFFFFFF } ∧
        exec (.peDbgDataAccess p n (some v)) s = .next s)) ∧
    (e.inReset = true → exec (.engineResetDone n) s = .next (settle (s.peResetDone n)) ∧
      (e.slot = none → e.fau.rx = none → e.wbuf = [] → s.mem.handover = none → e.startAfter = false →
        exec (.engineResetDone n) s = put fun e => { Engine.reset with
          w := (Vector.replicate 32 0).set 31 (BitVec.ofNat 32 (0x10000000 + 8 * s.rd (PE_SP_INIT n) PE_SP_INIT_TOP))
          stackLimit := BitVec.ofNat 32 (0x10000000 + 8 * s.rd (PE_STACK_LIMIT n) PE_STACK_LIMIT_LIMIT)
          pc := BitVec.ofNat 14 (s.rd (PE_START_PC n) PE_START_PC_PC)
          state := if s.reg (PE_IMG_ID n) = 0 then .idle else .loaded
          lastPc := e.lastPc, imem := e.imem, dmem := e.dmem, busy := e.busy, stalled := e.stalled, scrubAt := e.scrubAt,
          longest := e.longest })) ∧
    ((e.imem.bad.contains e.scrubAt || e.dmem.bad.contains e.scrubAt) = false →
      exec (.engineScrubStep n .ok .ok) s = put fun e => { e with scrubAt := (e.scrubAt + 1) % 16384 })

/-- R254, R255, R261 to R273, R275. -/
def Obligations.PersonalityCommands : Prop :=
  ∀ (s : State) (ring : Fin 512) (p0 p1 p2 : BitVec 64) (bs : List Byte) (readOk : Bool) (slot : Fin 16),
    let u := s.take ring
    let ends := fun (t : State) (code : Nat) (st : Status) (v : Nat) => Host.Outcome.next (settle (t.finish ring code st v))
    (s.takes ring (· == .config) = true →
      (u.nvm.keys.length < 8 → exec (.persKeyAdd ring p0 (some bs)) s =
        ends { u with nvm := { u.nvm with keys := u.nvm.keys ++ [(Config.sha384 (bs.take 97), false)] } } 0x40 stOk 0) ∧
      (8 ≤ u.nvm.keys.length → exec (.persKeyAdd ring p0 (some bs)) s = ends u 0x40 stTableFull 0) ∧
      (∀ k, u.nvm.keys[p0.toNat]? = some (k, false) → exec (.persKeyRevoke ring p0) s =
        ends { u with nvm := { u.nvm with keys := mapAt u.nvm.keys p0.toNat fun k => (k.1, true) } } 0x41 stOk 0) ∧
      (u.nvm.keys[p0.toNat]? = none → exec (.persKeyRevoke ring p0) s = ends u 0x41 stNoEntry 0)) ∧
    (s.takes ring Mode.working = true →
      (∀ (st : Status) (i : Image), u.checkImage (bs.take p1.toNat) = (st, i) →
        (st ≠ stOk → exec (.persLoad ring p0 p1 (some bs)) s = ends u 0x42 st 0) ∧
        (st = stOk → u.image i.id = none → u.pers.images.length < 16 → i.banksNeeded ≤ u.unowned.length →
          let banks := u.unowned.take i.banksNeeded
          let t := (u.grantBanks 0x20 banks).storeBanks (bs.take p1.toNat) banks
          exec (.persLoad ring p0 p1 (some bs)) s =
            ends { t with pers := { t.pers with images := t.pers.images ++ [{ i with banks := banks }] } } 0x42 stOk 0)) ∧
      (∀ i : Image, u.image (p0.toNat % 2 ^ 32) = some i →
        (((List.range 16).any fun l => (u.slot l).bound && (u.slot l).img == i.id) = false →
          let t := i.banks.foldl (fun t b => t.supHandover b 0) u
          exec (.persDrop ring p0) s =
            ends { t with pers := { t.pers with images := t.pers.images.filter (·.id != i.id) } } 0x43 stOk 0) ∧
        (u.dmaOk (u.ring ring).port = true → exec (.persCaps ring p0 p1) s =
          ends (u.emit (.hostData (u.ring ring).port p1.toNat i.caps)) 0x44 stOk 0) ∧
        (∀ n : Fin 18, let l : Fin 16 := Fin.ofNat 16 (bitsOf p0.toNat 35 32)
          let host := capRecs (bs.take (8 * p2.toNat))
          (u.slot l).bound = false → u.resourcesFor l i = true → noCommon (capRecs i.caps) host = false →
          4 * (u.paramBlock i host).length ≤ i.paramLen → u.pinBroken l = false → u.placeSlot l false = some n →
          exec (.persBind ring p0 p1 p2 (some bs) readOk) s = .next (settle (if readOk then u.bindSlot ring l n i host
            else (u.raiseFor .wadi F_WADI_IMG_MISMATCH [l] l).finish ring 0x45 stNoEngine 0)))) ∧
      (u.image (p0.toNat % 2 ^ 32) = none → exec (.persDrop ring p0) s = ends u 0x43 stNoEntry 0 ∧
        exec (.persCaps ring p0 p1) s = ends u 0x44 stNoEntry 0 ∧
        exec (.persBind ring p0 p1 p2 (some bs) readOk) s = ends u 0x45 stNoEntry 0) ∧
      (let l := p0.toNat % 16
        let t := (u.hostAction l 32).setSlot l { u.slot l with unbind := some ring.val }
        (u.slot l).bound = true → (u.slot l).unbind = none → u.pers.mig = none → (∀ n, t.servingPe l = some n →
          exec (.persUnbind ring p0) s = .next (settle (t.peStop n))) ∧
          (t.servingPe l = none → exec (.persUnbind ring p0) s = .next (settle t)))) ∧
    (∀ r, (s.slot slot).unbind = some r → s.pers.mig = none →
      exec (.persUnbindTimeout slot) s = .next (settle (s.unbindNow slot r true)))

/-- R276 to R294. -/
def Obligations.MigrationCommandsAndEvents : Prop :=
  ∀ (s : State) (ring : Fin 512) (p0 p1 : BitVec 64) (readOk : Bool) (ns : Fin 5001),
    let u := s.take ring
    let ends := fun (t : State) (code : Nat) (st : Status) => Host.Outcome.next (settle (t.finish ring code st 0))
    let to_ := fun (t : State) => Host.Outcome.next (settle t)
    (s.takes ring Mode.running = true →
      (∀ (i : Image) (src : Fin 18) (l : Fin 16), l = Fin.ofNat 16 p0.toNat →
        u.slotImage l = some i → u.servingPe l = some src → i.migratable = true → u.pers.mig = none →
        (p1.toNat % 32 = 31 → ∀ tgt, u.placeSlot l false = some tgt → exec (.migStart ring p0 p1) s =
          to_ ((u.hostAction l 32).migBegin l src tgt 0 0 false [ring.val])) ∧
        (∀ tgt : Fin 18, p1.toNat % 32 = tgt.val → u.idlePe tgt = true → exec (.migStart ring p0 p1) s =
          to_ ((u.hostAction l tgt).migBegin l src tgt 0 0 false [ring.val]))) ∧
      (u.pers.mig = none → exec (.migAbort ring) s = ends u 0x48 stNotActive) ∧
      (u.pers.mig.isSome = true → u.inBlackout = false → exec (.migAbort ring) s = ends (u.migAbandon 6) 0x48 stOk)) ∧
    (s.takes ring Mode.working = true → ∀ n : Fin 18, p0.toNat % 32 = n.val → (u.pe n).state ≠ .failed →
      (u.pe n).slot = none → u.pers.mig = none →
      exec (.engRetire ring p0) s = ends ((u.hostAction 255 n).onPe n fun e =>
        { e with state := .failed, slot := none, stopPend := false }) 0x49 stOk) ∧
    (∀ (m : Mig), s.pers.mig = some m →
      (∀ i, m.phase = .prepare → s.slotImage m.slot = some i → exec (.migPrepareDone readOk) s = to_ (if readOk then
        (((s.onPe m.tgt fun e => { e with imem := e.imem.loadImage i.imem }).migStat true 2).wr WADI_MIG_DIRTY
          WADI_MIG_DIRTY_PASS 1).migCopyAll { m with phase := .precopy }
        else (s.raiseFor .wadi F_WADI_IMG_MISMATCH [m.slot] m.slot).migAbandon 10)) ∧
      (let pass := s.rd WADI_MIG_DIRTY WADI_MIG_DIRTY_PASS;
        m.phase = .precopy → pass ≠ 1 →
        (m.lines.length ≤ s.stopThr → exec .precopyPassEnd s =
          to_ (((s.setMig (some { m with phase := .stopwait })).migStat true 3).peStop m.src)) ∧
        (s.stopThr < m.lines.length → s.passMax ≤ pass → exec .precopyPassEnd s = to_ (s.migAbandon 2)) ∧
        (s.stopThr < m.lines.length → pass < s.passMax → exec .precopyPassEnd s =
          to_ ((s.wr WADI_MIG_DIRTY WADI_MIG_DIRTY_PASS (pass + 1)).migCopy m))) ∧
      (m.phase = .stopwait → (s.pe m.src).state ≠ .stopped → exec .migNoBoundary s = to_ (s.migAbandon 1)) ∧
      (m.phase = .stopwait → (s.pe m.src).state = .stopped →
        (m.lines.length ≤ s.finalMax → exec (.migSourceStopped ns) s = to_ (s.migCommit m ns) ∧
          exec (.migDeadlineExpiry ns) s = to_ ((s.blackout ns).migAbandon 9)) ∧
        (s.finalMax < m.lines.length → exec (.migSourceStopped ns) s = to_ (s.migRetry m ns))))

/-- R308, R322, R326, R337 to R342. -/
def Obligations.WadiDecidesAndSplitsFunctions : Prop :=
  ∀ (s : State) (ring : Fin 512) (p0 : BitVec 64) (bad : List (Fin 16)) (p : Fin 2) (f : Fin 8) (v : Word),
    let u := s.take ring
    let to_ := fun (t : State) => Host.Outcome.next (settle t)
    let ends := fun (t : State) (code : Nat) (st : Status) => to_ (t.finish ring code st 0)
    let isOpen := u.wadi.props.any (·.id == p0.toNat)
    let refused := if u.wadi.started.contains p0.toNat then stTooLate else stNoEntry
    (s.firmware = true → s.wadi.skip = true →
      exec (.wadiDecision bad) s = .next { s with wadi := { s.wadi with skip := false } }) ∧
    (s.firmware = true → s.wadi.skip = false →
      exec (.wadiDecision bad) s = to_ (s.decide_ fun l => !(bad.any fun b => b.val == l)).leaveDegraded) ∧
    (s.takes ring Mode.working = true →
      (isOpen = true → exec (.wadiAccept ring p0) s = ends { u with wadi := { u.wadi with props := u.wadi.props.map (fun (x : Proposal) => if x.id = p0.toNat then { x with accepted := true } else x) } } 0x50 stOk ∧
        exec (.wadiVeto ring p0) s = ends (u.withdraw p0.toNat 3) 0x51 stOk) ∧
      (isOpen = false → exec (.wadiAccept ring p0) s = ends u 0x50 refused ∧
        exec (.wadiVeto ring p0) s = ends u 0x51 refused)) ∧
    (let u := s.wr (WADI_FUNC f) WADI_FUNC_SHED_OK (b2n (bitOf v.toNat 8));
      s.hears p .wadi = true → bitOf v.toNat 0 = true → exec (.funcModeWrite p f v) s = to_ (if u.funcHost f then
        (u.wr (WADI_FUNC f) WADI_FUNC_FUNC_MODE 1).wr (WADI_FUNC f) WADI_FUNC_PENDING 0 else u.funcAsk f true 0)) ∧
    (s.flag (WADI_FUNC f) WADI_FUNC_PENDING = true → s.funcMoving f = false →
      (s.flag (WADI_FUNC f) WADI_FUNC_FUNC_MODE = false →
        exec (.funcSwitchPoint f) s = to_ (s.funcSet f false (b2n (s.wadi.moved.contains f.val)))) ∧
      (s.flag (WADI_FUNC f) WADI_FUNC_FUNC_MODE = true →
        (s.funcRings f = true → byPersonality f = false →
          exec (.funcSwitchPoint f) s = to_ (s.funcSet f true (b2n (s.wadi.moved.contains f.val)))) ∧
        (s.funcRings f = false → exec (.funcSwitchPoint f) s = to_ (s.funcRefuse f 1)) ∧
        exec (.funcSwitchTimeout f) s = to_ (s.funcRefuse f 3))) ∧
    (s.funcHost f = true → s.funcRings f = false → byPersonality f = false →
      exec (.funcRingOrphanTimeout f) s = to_ (s.funcAsk f false 1))

/-- R365, R372 to R376, R381 to R388, R401. -/
def Obligations.MemoryBanksAndRepairs : Prop :=
  ∀ (s : State) (p : Fin 2) (buffer preserving : Bool) (bank owner : Fin 64) (unit : Fin 72) (any : Fin 128) (words : Nat),
    s.quiet = true →
    let to_ := fun (t : State) => Host.Outcome.next (settle t)
    let w := (s.bank buffer unit).scrubAt
    let moved := s.setBank buffer unit { s.bank buffer unit with scrubAt := (w + 1) % (if buffer then 1024 else 16384) }
    let fails := fun (t : State) (b : Bool) (p : Nat) => t.raise .mem F_MEM_MARCH_FAIL [memCap0 b p 0, 30, 0]
    (s.flag MEM_SCRUB_CFG MEM_SCRUB_CFG_EN = true → unit.val < physBanks buffer → (s.bank buffer unit).mem.bad.contains w = false →
      exec (.bankScrubStep buffer unit .ok) s = .next moved ∧
      exec (.bankScrubStep buffer unit .single) s = to_ (moved.bankCe buffer unit w 31 false 8) ∧
      exec (.bankScrubStep buffer unit .double) s = to_ (moved.bankUe buffer unit w 31 false 8)) ∧
    (s.hears p .mem = true → s.mode.ownReq = true →
      (owner = 0 ∨ (0x10 ≤ owner.val ∧ owner.val < 0x20) ∨ owner = 0x21 ∨ owner = 0x23 → s.owner bank ≠ 0x20 →
        s.mem.handover = none → exec (.memOwnReq p bank owner) s = .next (s.startHandover bank owner)) ∧
      (s.owner bank = 0x20 ∨ s.mem.handover.isSome = true → exec (.memOwnReq p bank owner) s =
        .next (((s.wr MEM_OWN_STAT MEM_OWN_STAT_RESULT 3).wr MEM_OWN_STAT MEM_OWN_STAT_OWNER owner).wr MEM_OWN_STAT
          MEM_OWN_STAT_BANK bank))) ∧
    (∀ h, s.mem.handover = some h → (h.ahead = 0 → exec .handoverMarkerArrive s = to_ (s.endHandover h 1)) ∧
      exec .handoverForceTimeout s = to_ ((s.endHandover h 2).raise .mem F_MEM_HANDOVER_FORCED
        [memCap0 false (s.physOf false h.bank) 0, s.masterOf h.old, 0])) ∧
    (s.hears p .mem = true →
      let t := s.wr MEM_MARCH_STAT MEM_MARCH_STAT_TARGET (b2n preserving * 256 + b2n buffer * 128 + any);
      (any.val < physBanks buffer → preserving = true ∨ (s.bank buffer any).role = 1 ∨ (s.bank buffer any).role = 2 →
        s.mem.march = none → s.mem.repair = none → exec (.memMarchReq p preserving buffer any) s =
          .next (({ t with mem := { t.mem with march := some ⟨preserving, buffer, any⟩ } }.wr MEM_MARCH_STAT
            MEM_MARCH_STAT_BUSY 1).wr MEM_MARCH_STAT MEM_MARCH_STAT_FAIL_WORDS 0)) ∧
      (physBanks buffer ≤ any.val ∨ s.mem.march.isSome = true → exec (.memMarchReq p preserving buffer any) s =
        .next (t.wr MEM_MARCH_STAT MEM_MARCH_STAT_RESULT 3))) ∧
    (∀ m, s.mem.march = some m → m.preserving = true →
      let t := (({ s with mem := { s.mem with march := none } }.wr MEM_MARCH_STAT MEM_MARCH_STAT_BUSY 0).wr MEM_MARCH_STAT
        MEM_MARCH_STAT_RESULT (if words = 0 then 1 else 2)).wr MEM_MARCH_STAT MEM_MARCH_STAT_FAIL_WORDS (stopAt 4095 words);
      exec (.marchDone words) s = if words = 0 then .next t else to_ (fails t m.buffer m.bank)) ∧
    (∀ m, s.mem.march = some m → m.preserving = false →
      let t := { s.setBank m.buffer m.bank { s.bank m.buffer m.bank with mem := Mem.marched s.draws } with draws := s.draws + 1 };
      exec (.marchDone 0) s = .next ((({ t with mem := { t.mem with march := none } }.wr MEM_MARCH_STAT MEM_MARCH_STAT_BUSY 0).wr
        MEM_MARCH_STAT MEM_MARCH_STAT_RESULT 1).wr MEM_MARCH_STAT MEM_MARCH_STAT_FAIL_WORDS 0)) ∧
    (s.hears p .mem = true → bank.val < logicalBanks buffer → s.mem.asks.contains (buffer, bank.val) = false →
      exec (.memRepairReq p buffer bank) s =
        .next { s with mem := { s.mem with asks := s.mem.asks ++ [(buffer, bank.val)] } }) ∧
    (∀ r, s.mem.repair = some r →
      let at_ := fun (t : State) (k : Nat) => { t with mem := { t.mem with repair := some { r with step := k } } }.repairStat true k
      (r.step = 1 → exec (.repairMarchDone true true) s = to_ (at_ s 2) ∧
        exec (.repairMarchDone true false) s = to_ (at_ (fails s r.buffer r.orig) 2) ∧
        exec (.repairMarchDone false true) s = to_ ((fails s r.buffer r.spare).abandonRepair r 1 2)) ∧
      (r.step = 2 → exec .repairCopyDone s = to_ ((s.bank r.buffer r.orig).mem.bad.foldl
          (fun t w => t.bankUe r.buffer r.orig w 30 false 8) (at_ s 3)) ∧
        exec .repairOrigFail s = to_ ((s.abandonRepair r 6 1).remapLost r.buffer r.logical)) ∧
      (r.step = 3 → exec (.repairCommit false) s = to_ ((s.abandonRepair r 5 1).raise .mem F_MEM_NVM_ERR
          [memCap0 r.buffer r.spare 0, 30, 0]) ∧
        let o := s.bank r.buffer r.orig;
        let k := s.bank r.buffer r.spare;
        let s1 := (s.setBank r.buffer r.spare { k with role := 0, mem := o.mem }).setBank r.buffer r.orig { o with role := 2 };
        let s2 := s1.setPhys r.buffer r.logical r.spare;
        let s3 := { s2 with nvm := { s1.nvm with repairs := s1.nvm.repairs ++ [(r.buffer, r.logical, r.orig, r.spare)] } };
        exec (.repairCommit true) s = .next ((({ s3 with mem := { s3.mem with repair := none } }.repairStat false 4).wr
          MEM_REPAIR_STAT MEM_REPAIR_STAT_COMMIT 1).bump MEM_REPAIR_CNT MEM_REPAIR_CNT_DONE 1)))

/-- R411 to R431, R435, R443. -/
def Obligations.MailboxesAndDoorbells : Prop :=
  ∀ (s : State) (p : Fin 2) (ep : Fin 19) (c k : Fin 4) (w : Fin 16) (n : Fin 32) (v : Word) (i : Fin 76),
    let to_ := fun (t : State) => Host.Outcome.next (settle t)
    let r := 4 * ep.val + c.val
    let d := s.routeDest r
    let m := s.routeMb r
    let len := bitsOf v.toNat 4 0
    let b := s.inbox ep k
    let away := fun (src mb word : Nat) => (s.setOstat ep c 0).raiseMbx src d mb word (s.epMaster ep) ep
    let word := SMap.get (fun _ => 0) b.words w.val
    ((if ep.val < 17 then s.inBlkReset .mbx = false else s.hears (ep.val - 17) .mbx = true) →
      (s.routeEn r = true → (s.inbox d m).full = false →
        (1 ≤ len → len ≤ 16 → exec (.mbxSend ep c v) s = to_ ((s.setInbox d m { s.inbox d m with
          full := true, len := len, sender := ep, chan := c, epoch := s.epoch ep, agedOnce := false }).ringDb d
            (BitVec.ofNat 32 (2 ^ m)))) ∧
        exec (.mbxDataWrite ep c w v) s = to_ (s.setInbox d m { s.inbox d m with
          words := SMap.set (fun _ => 0) (s.inbox d m).words w.val v })) ∧
      (s.routeEn r = true → len = 0 ∨ 16 < len → exec (.mbxSend ep c v) s = to_ (away F_MBX_REJECT m 0)) ∧
      (s.routeEn r = false → exec (.mbxSend ep c v) s = to_ (away F_MBX_ROUTE_ERR c 0) ∧
        exec (.mbxDataWrite ep c w v) s = to_ (away F_MBX_ROUTE_ERR c w)) ∧
      (b.full = true → b.len ≤ w.val → exec (.mbxInRead ep k w) s = .next { s with rdata := 0 }) ∧
      (b.full = true → b.len = w.val + 1 → exec (.mbxInRead ep k w) s =
        .next { s.setInbox ep k { b with full := false } with rdata := word.toNat }) ∧
      (b.full = false ∨ w.val + 1 < b.len → exec (.mbxInRead ep k w) s = .next { s with rdata := word.toNat }) ∧
      (n.val < 19 → exec (.dbRing ep n v) s = to_ (s.ringDb n (v &&& 0x0FFFFFF0))) ∧
      (19 ≤ n.val → exec (.dbRing ep n v) s = to_ (s.raiseMbx F_MBX_ROUTE_ERR n 0 0 (s.epMaster ep) ep))) ∧
    (s.hears p .mbx = true → s.mode = .config ∨ s.mode = .run ∨ s.mode = .degraded ∨ s.mode = .safe →
      (s.routeBad i v = false → exec (.mbxRouteWrite p i v) s = .next (s.setReg (MBX_ROUTE i) (v &&& 0xC0001F03))) ∧
      (s.routeBad i v = true → exec (.mbxRouteWrite p i v) s = to_ (s.raiseMbx F_MBX_ROUTE_ERR (MBX_ROUTE_DEST.get v)
        (MBX_ROUTE_MB.get v) 0 (20 + p) 255))) ∧
    (s.hears p .mbx = true → exec (.mbxHostResetA p) s = to_ (s.epReset 17) ∧
      (s.bonded = false → exec (.mbxHostResetB p) s = to_ (s.epReset 18))) ∧
    (b.full = true → b.agedOnce = false → s.rd MBX_AGE_LIMIT MBX_AGE_LIMIT_LIMIT ≠ 0 → exec (.mbxAgeExpiry ep k) s =
      to_ ((((((s.setInbox ep k { b with aged := true, agedOnce := true }).setOstat b.sender b.chan 3).ringDb ep 0x80000000).ringDb
        b.sender 0x80000000).bump MBX_CNT MBX_CNT_AGED 1).raiseMbx F_MBX_AGED ep k 0 31 b.sender))

/-- R456 to R468, R484, R488 to R491, R504, R505. -/
def Obligations.RingsAreBoundDrainedAndAdopted : Prop :=
  ∀ (s : State) (p page : Fin 2) (ring r : Fin 512) (v w : Word) (base p0 p1 p2 : BitVec 64) (bs : List Byte),
    let to_ := fun (t : State) => Host.Outcome.next (settle t)
    let u := s.take ring
    let x := s.ring ring
    let t := s.regWrite (HIF_RING_CFG ring) v
    let y := t.ring ring
    let refuse := fun (err : Nat) => (t.wr (HIF_RING_CFG ring) HIF_RING_CFG_EN 0).setRing ring { y with err := err }
    let first := p0.toNat % 512
    let n := bitsOf p0.toNat 24 16
    (s.hears p .hif = true →
      (bitOf v.toNat 31 = true → s.bonded = false ∨ p = 0 → x.state = .disabled →
        (t.badBind p ring = true → exec (.ringBind p ring v) s = to_ (refuse 3)) ∧
        (t.badBind p ring = false → t.ringLimit ≤ t.ringsUnder p → exec (.ringBind p ring v) s = to_ (refuse 4)) ∧
        (t.badBind p ring = false → t.ringsUnder p < t.ringLimit → exec (.ringBind p ring v) s = to_ (((t.setRing ring { Ring.reset with
          state := .active, port := p, waiting := y.waiting, drops := y.drops }).bootDone ring).flushRsp 4096 ring))) ∧
      (x.state = .active → x.port = p.val → exec (.ringUnbind p ring) s = to_ (((s.setRing ring { x with
        state := .draining, release := none }).dropFrx ring).flushPosted ring stFlushed)) ∧
      (x.state = .stopped ∧ x.port = p.val ∨ x.state = .orphaned → exec (.ringUnbind p ring) s =
        to_ ((s.forgetRing ring).disableRing ring)) ∧
      (x.state = .active ∨ x.state = .stopped → x.port ≠ p.val → exec (.ringUnbind p ring) s =
        to_ (s.raise .hif F_HIF_CTX_WRITE [HIF_RING_CFG ring, 20 + p.val, 5 + 16 * s.ringType ring])) ∧
      (p = page → s.ringsUnder page = 0 → exec (.dbBaseWrite p page base) s =
        .next (s.setReg64 (HIF_DB_BASE page) (base.toNat / 4096 * 4096 + base.toNat % 2))) ∧
      (p ≠ page ∨ 0 < s.ringsUnder page → exec (.dbBaseWrite p page base) s =
        to_ (s.raise .hif F_HIF_CTX_WRITE [HIF_DB_BASE page, 20 + p.val, 5]))) ∧
    (x.state = .draining →
      (x.release = none → (s.flushPosted ring stFlushed).ringDrained ring = true →
        exec (.ringDrainDone ring) s = to_ ((s.flushPosted ring stFlushed).endDrain ring)) ∧
      (∀ c, x.release = some c → c ≠ ring.val → s.ringDrained ring = true → exec (.ringDrainDone ring) s =
        to_ ((s.setRing ring { x with state := .orphaned, release := none }).finish c 0x03 stOk 0))) ∧
    (s.dmaOk p = true → s.flag (HIF_DB_BASE p) HIF_DB_BASE_EN = true → s.mode ≠ .standby → x.state = .active → x.port = p.val →
      s.ringType ring < 4 → bitsOf w.toNat 31 16 ≠ x.seq →
      let room := (x.cidx + s.ringSize ring + 65536 - x.pidx) % 65536;
      let step := (w.toNat % 65536 + 65536 - x.pidx) % 65536;
      (step ≤ room → exec (.doorbellPoll p [(ring, w)]) s =
        to_ (s.setRing ring { x with seq := bitsOf w.toNat 31 16, pidx := w.toNat % 65536 })) ∧
      (room < step → exec (.doorbellPoll p [(ring, w)]) s =
        to_ ((s.setRing ring { x with seq := bitsOf w.toNat 31 16 }).stopRing ring 1))) ∧
    (x.modBusy = true → (x.modWait = true → exec (.msixModerationExpiry ring) s = to_ ((s.setRing ring { x with
        modWait := false }).raiseVec x.port (s.rd (HIF_RING_CFG ring) HIF_RING_CFG_VEC))) ∧
      (x.modWait = false → exec (.msixModerationExpiry ring) s = .next (s.setRing ring { x with modBusy := false }))) ∧
    (s.takes ring Mode.working = true →
      (adoptParams p0.toNat p2.toNat = true →
        (((List.range n).all fun k => (u.ring (first + k)).state == .orphaned) = true →
          u.ringsUnder (u.ring ring).port + n ≤ u.ringLimit → exec (.ringAdopt ring p0 p1 p2 (some bs)) s =
            to_ ((u.adoptAll (u.ring ring).port (adoptTable first n (p1 != 0) bs) (bitOf p0.toNat 32)).finish ring 0x02 stOk 0)) ∧
        (((List.range n).any fun k => (u.ring (first + k)).state != .orphaned) = true →
          exec (.ringAdopt ring p0 p1 p2 (some bs)) s = to_ (u.finish ring 0x02 stNotOrphaned 0))) ∧
      (p0.toNat = r.val → p1 = 0 → p2 = 0 →
        let y := u.ring r;
        (y.state = .active → y.port = (u.ring ring).port → r ≠ ring → exec (.ringRelease ring p0 p1 p2) s =
          to_ (u.setRing r { y with state := .draining, release := some ring.val })) ∧
        (y.state ≠ .active → exec (.ringRelease ring p0 p1 p2) s = to_ (u.finish ring 0x03 stBadState 0))))

/-- R449, R450, R469 to R480, R486, R487, R493, R497, R1013. -/
def Obligations.HostPortsAndDescriptors : Prop :=
  ∀ (s : State) (p : Fin 2) (ring : Fin 512) (width speed : Fin 5) (on readOk : Bool) (q0 q1 q2 q3 p0 p1 p2 addr : BitVec 64)
    (code high : BitVec 8) (size : Fin 4097) (descs : List (BitVec 64 × BitVec 64)) (data : List Byte) (dma : Option (List Byte)),
    let to_ := fun (t : State) => Host.Outcome.next (settle t)
    let h := s.port p
    let x := s.ring ring
    let u := s.ringStart ring 1
    (s.noPort p = false →
      (h.up = true → exec (.hostLinkDown p) s = to_ (s.setPort p { h with up := false, width := 0, speed := 0 }) ∧
        exec (.hostBmeChange p on) s = to_ ((s.setPort p { h with bme := on }).portBack p) ∧
        (h.d3hot = false → exec (.hostD3hotEntry p) s = to_ ((s.setPort p { h with d3hot := true }).hostPortLost p))) ∧
      (h.up = false → h.perst = false → h.clockFailed = false → s.mode ≠ .standby → width = 1 ∨ width = 2 ∨ width = 4 → speed ≠ 0 →
        exec (.hostLinkUp p width speed) s = to_ ((s.setPort p { h with
          up := true, lostBit := false, d3hot := false, width := width, speed := speed }).portBack p)) ∧
      (h.perst = false → exec (.hifPerst p true) s = to_ (s.setPort p { h with
        perst := true, up := false, width := 0, speed := 0, bme := false, d3hot := false, msix := [], pba := [] })) ∧
      (h.perst = true → exec (.hifPerst p false) s = .next (s.setPort p { h with perst := false }))) ∧
    (h.up = false ∨ h.bme = false → exec (.hostPortLost p) s = to_ (s.hostPortLost p)) ∧
    (s.hasWork ring 0 = true →
      let chain := ftxChain descs;
      let n := chain.length;
      let len := sumOf (chain.map ftxLen);
      ∀ d e, chain.head? = some d → chain.getLast? = some e → bitOf e.2.toNat 14 = false → n ≤ s.posted ring →
        let bs := ftxBytes (bitOf d.2.toNat 15) data;
        let t := s.ringStart ring n;
        (ftxBad chain d.2.toNat len = true →
          exec (.ftxFrame ring descs data none) s = to_ (t.chainDone ring (s.nextIdx ring n) stBadDesc)) ∧
        (ftxBad chain d.2.toNat len = false → data.length = len →
          (t.admitRing ring (cellsOf bs.length) = false →
            exec (.ftxFrame ring descs data none) s = to_ (t.chainDone ring (s.nextIdx ring n) stQuota)) ∧
          (t.admitRing ring (cellsOf bs.length) = true →
            exec (.ftxFrame ring descs data none) s = to_ (t.ftxSend ring (s.nextIdx ring n) d.2.toNat bs none)))) ∧
    (∀ fid rest f, s.frxQ ring = fid :: rest → s.frame fid = some f →
      (f.bad = true → exec (.frxFrameDeliver ring descs) s = to_ ((s.setFrxQ ring rest).collect fid)) ∧
      (f.bad = false → s.hasWork ring 1 = true → 1 ≤ s.posted ring →
        (frxLen (q0, q1) = none → exec (.frxFrameDeliver ring [(q0, q1)]) s =
          to_ (u.chainDone ring (s.nextIdx ring 1) stBadDesc)) ∧
        (∀ k, frxLen (q0, q1) = some k → 0 < f.bytes.length → f.bytes.length ≤ k →
          exec (.frxFrameDeliver ring [(q0, q1)]) s = to_ ((((u.emit (.hostData (u.ring ring).port q0.toNat f.bytes)).ringComplete ring
            (x.cidx % 65536) stOk (frxInfo f false f.bytes.length) f.tsNs).setFrxQ ring rest).collect fid)))) ∧
    (s.hasWork ring 2 = true →
      let len := bitsOf q1.toNat 16 0;
      let b := bitsOf q1.toNat 23 18;
      let off := bitsOf q1.toNat 40 24;
      let o := s.pdxOwner ring;
      (pdxBad q0.toNat q1.toNat q2.toNat q3.toNat = true →
        exec (.pdxTransfer ring q0 q1 q2 q3 data none) s = to_ (u.ringComplete ring x.cidx stBadDesc 0 0)) ∧
      (pdxBad q0.toNat q1.toNat q2.toNat q3.toNat = false →
        (s.mayAccess o b = some false → exec (.pdxTransfer ring q0 q1 q2 q3 data none) s =
          to_ ((u.nonOwner (20 + x.port) b (off / 8) (!bitOf q1.toNat 17) 8).ringComplete ring x.cidx stNotOwner 0 0)) ∧
        (s.mayAccess o b = some true → bitOf q1.toNat 17 = true → exec (.pdxTransfer ring q0 q1 q2 q3 data none) s =
          (let r := u.pdxOut (20 + x.port) o b off none (len / 8);
            to_ ((r.2.emit (.hostData x.port q0.toNat r.1)).ringComplete ring x.cidx stOk len 0))) ∧
        (s.mayAccess o b = some true → bitOf q1.toNat 17 = false → data.length = len →
          exec (.pdxTransfer ring q0 q1 q2 q3 data none) s =
            to_ ((u.pdxIn (20 + x.port) o b off (wordsOf (len / 8) data)).ringComplete ring x.cidx stOk len 0)))) ∧
    (s.dmaOk p = true → exec (.dmaReadError p none on addr size) s = to_ (s.dmaError p addr.toNat size)) ∧
    (x.port = p.val →
      let t := s.dmaError p addr.toNat size;
      ((s.hasWork ring 0 = true ∧ s.ringType ring = 0) ∨ (s.hasWork ring 2 = true ∧ s.ringType ring = 2) →
        exec (.dmaReadError p (some ring) true addr size) s =
          to_ (((t.ringStart ring 1).ringComplete ring x.cidx stDmaErr 0 0).stopRing ring 2)) ∧
      (s.hasWork ring (s.ringType ring) = true → s.ringType ring ≤ 3 →
        exec (.dmaReadError p (some ring) false addr size) s = to_ (t.stopRing ring 2))) ∧
    (let take := fun (c : BitVec 8) => exec (.commandTake ring c p0 p1 p2 dma readOk high) s;
      (take 0x01 = exec (.mode ring p0) s ∧ take 0x02 = exec (.ringAdopt ring p0 p1 p2 dma) s ∧
        take 0x0C = exec (.imgConfirm ring) s ∧ take 0x45 = exec (.persBind ring p0 p1 p2 dma readOk) s ∧
        take 0x51 = exec (.wadiVeto ring p0) s ∧ take 0x80 = exec (.macCntRead ring p0 p1) s ∧
        take 0x85 = exec (.fctFence ring) s ∧ take 0x88 = exec (.cvnMode ring p0) s ∧
        take 0x92 = exec (.mdbTtNext ring p0 p1) s ∧ take 0xA4 = exec (.sioAck ring p0 high) s ∧
        take 0xB0 = exec (.hlthLogRead ring p0 p1 p2) s) ∧
      (s.takes ring (fun _ => true) = true → 0xC0 ≤ code.toNat → take code = to_ ((s.take ring).finish ring code.toNat stUnknownCmd 0)) ∧
      (s.canTake ring = true → s.ejecting = true → 0xC0 ≤ code.toNat → take code = to_ ((s.take ring).finish ring 0 stEjected 0)))

/-- R516 to R530, R532, R547 to R553, R573. -/
def Obligations.MacCommandsAndFrames : Prop :=
  ∀ (s : State) (p : Fin 2) (n : Fin 16) (ring : Fin 512) (mode rate : Fin 8) (fec code : Bool) (word : BitVec 16)
    (bs : List Byte) (ecc : Option (Nat × Ecc)) (drift : Int) (p0 p1 : BitVec 64),
    let to_ := fun (t : State) => Host.Outcome.next (settle t)
    let m := s.mac n
    let u := s.take ring
    let an := s.flag (MAC_MODE n) MAC_MODE_AN73
    (s.hears p (.mac n) = true →
      (s.macEn n = false → exec (.macEnable p n true) s = to_ ((s.wr (MAC_CTRL n) MAC_CTRL_EN 1).startSearch n)) ∧
      (s.macEn n = true →
        exec (.macEnable p n false) s = to_ ((((s.linkLost n).endSending n false).wr (MAC_CTRL n) MAC_CTRL_EN 0).startSearch n) ∧
        (s.portDown n = false → exec (.macReneg p n) s = to_ ((s.linkLost n).startSearch n))) ∧
      exec (.macPortReset p n) s = to_ (s.portReset n)) ∧
    (s.searching n = true →
      (an = false → exec (.negDwellExpiry n false) s = to_ (s.tryMode n (nextMode (s.allowed n) m.trying)) ∧
        (m.trying = 1 → (s.allowed n).contains 2 = true → exec (.negModeSwitch n) s = to_ (s.tryMode n 2)) ∧
        (m.trying = 5 → (s.allowed n).contains 4 = true → exec (.negModeSwitch n) s = to_ (s.tryMode n 4)) ∧
        (m.trying ≠ 4 → (s.allowed n).contains m.trying = true → rateOk m.trying rate = true →
          exec (.linkUp n mode rate fec word) s = to_ (s.linkCame n m.trying rate false word.toNat))) ∧
      (an = true → exec (.negDwellExpiry n false) s = to_ s ∧
        (let t := s.wr (MAC_STAT n) MAC_STAT_RESULT 2;
          m.negFail = false → exec (.negDwellExpiry n true) s =
            to_ ((t.setMac n { t.mac n with negFail := true }).raise (.mac n) F_MAC_NEG_FAIL (s.macCaps n))))) ∧
    (s.linkUp n = true → exec (.linkDown n) s =
      to_ ((((s.linkLost n).bump (MAC_STAT n) MAC_STAT_DOWN_COUNT 1).startSearch n).raise (.mac n) F_MAC_LINK_DOWN (s.macCaps n))) ∧
    (s.portDown n = false → exec (.macFail n) s = to_ (s.macFail n) ∧
      (let t := s.setMac n { m with parityAt := some s.now };
        (m.parityAt = none → exec (.macParityFail n) s = to_ (t.portReset n)) ∧
        (∀ x, m.parityAt = some x → s.now < x + 1000000000 → exec (.macParityFail n) s = to_ (t.macFail n)) ∧
        (∀ x, m.parityAt = some x → x + 1000000000 ≤ s.now → exec (.macParityFail n) s = to_ (t.portReset n)))) ∧
    (s.linkUp n = true →
      (s.flag (MAC_CFG n) MAC_CFG_PASS_BAD = false → 9216 < bs.length → exec (.rxFrame n bs false code ecc) s =
        to_ (s.macErr n 4)) ∧
      (s.rxKind n bs false code = none →
        let t := s.countFrame n 0 bs;
        let tpid := s.rd (MAC_VLAN n) MAC_VLAN_TPID;
        (∀ x, etherType tpid bs = 0x8808 → pauseTime tpid bs = some x → s.flag (MAC_CFG n) MAC_CFG_PAUSE_RX = true →
          exec (.rxFrame n bs false code ecc) s = to_ ((t.macErr n 9).setMac n { (t.macErr n 9).mac n with paused := x != 0 })) ∧
        (etherType tpid bs ≠ 0x8808 → s.rd (MAC_CFG n) MAC_CFG_ACCEPT = 0 → s.redRole n = 0 → t.pairOf n = none →
          exec (.rxFrame n bs false code ecc) s = to_ (t.admitRx n bs false ecc)))) ∧
    exec (.pauseExpiry n) s = to_ (s.setMac n { m with paused := false }) ∧
    (∀ q, s.linkUp n = true → m.sending = none → m.paused = false → s.nextQueue n = some q →
      exec (.txFrameStart n drift) s = to_ (s.startFrame n q drift)) ∧
    (∀ x, m.sending = some x →
      (∀ f, s.frame x.fid = some f → exec (.txFrameEnd n true) s =
        to_ (((s.setFrame x.fid (some { f with bad := true })).endSending n true).raise .mem F_MEM_UE [])) ∧
      (let t := (s.emit (.frame n x.bytes false)).countFrame n 4 x.bytes;
        let t' := t.setMac n { t.mac n with sending := none };
        ∀ f, t'.frame x.fid = some f → f.report = none → f.txSlot = none →
          exec (.txFrameEnd n false) s = to_ (t'.collect x.fid))) ∧
    (s.rd (WADI_FUNC 7) WADI_FUNC_CUR ≠ 1 → exec .counterAccumulate s = to_ ((List.range 16).foldl State.accumulate s)) ∧
    (s.takes ring Mode.working = true → u.rd (WADI_FUNC 7) WADI_FUNC_CUR ≠ 1 →
      (p0.toNat < 16 → exec (.macCntRead ring p0 p1) s =
        (let t := u.accumulate p0.toNat;
          to_ (t.writeHost ring 0x80 p1.toNat (((List.range 8).map fun i =>
            leBytes 8 (SMap.get (fun _ => 0) (t.mac p0.toNat).totals i)).flatten) u.now))) ∧
      (16 ≤ p0.toNat → exec (.macCntRead ring p0 p1) s = to_ (u.finish ring 0x80 stBadParam 0)))

/-- R588 to R593, R596 to R599, R610, R611, R615. -/
def Obligations.SwitchTablesFencesAndGates : Prop :=
  ∀ (s : State) (p : Fin 2) (n sub : Fin 16) (ring : Fin 512) (p0 p1 p2 : BitVec 64) (bs : List Byte),
    let to_ := fun (t : State) => Host.Outcome.next (settle t)
    let u := s.take ring
    let ends := fun (t : State) (code : Nat) (st : Status) (v : Nat) => to_ (t.finish ring code st v)
    let e := entOf bs
    let key : Key := ⟨entF e 254 252, entF e 127 0⟩
    let here := s.swc.fct.filter fun x => decide (s.swc.agePos ≤ x.1) && decide (x.1 < s.swc.agePos + 256)
    let aged := here.foldl (fun t x => t.setFct x.1 (ageEntry x.2)) s
    let g := s.rd SWC_FCT_FENCE SWC_FCT_FENCE_GEN
    let begun := fun (t : State) (c : Option Nat) => ({ t with swc := { t.swc with fenceCmd := c } }.wr SWC_FCT_FENCE
      SWC_FCT_FENCE_GEN (g + 1)).wr SWC_FCT_FENCE SWC_FCT_FENCE_BUSY 1
    let busy := s.flag SWC_FCT_FENCE SWC_FCT_FENCE_BUSY
    let gate := SWC_GATE_CFG n
    (∀ a rest, s.swc.learnQ = a :: rest →
      exec .learnActionApply s = to_ ({ s with swc := { s.swc with learnQ := rest } }.applyLearn a)) ∧
    (s.flag SWC_AGE_CFG SWC_AGE_CFG_EN = true → s.rd (WADI_FUNC 1) WADI_FUNC_CUR ≠ 1 → exec .ageingScanStep s =
      to_ { aged with swc := { aged.swc with agePos := (s.swc.agePos + 256) % 32768 } }) ∧
    (s.takes ring Mode.working = true →
      (u.rd (WADI_FUNC 2) WADI_FUNC_CUR = 0 →
        (entReserved true e = false → entValid e = true → (∀ i, (u.exactHit key = some i ∨ u.exactHit key = none ∧
            ((u.candidates key.key).filter fun i => !u.subLost i).find? (fun i => !entValid (u.fctAt i)) = some i) →
          exec (.fctAdd ring p0 (some bs)) s = ends ((u.setFct i e).setShadow i e) 0x81 stOk i)) ∧
        (entReserved true e = true → exec (.fctAdd ring p0 (some bs)) s = ends u 0x81 stBadParam 0) ∧
        (∀ i, u.exactHit key = some i → exec (.fctDel ring p0 (some bs)) s = ends ((u.setFct i 0).setShadow i 0) 0x82 stOk i) ∧
        (u.exactHit key = none → exec (.fctDel ring p0 (some bs)) s = ends u 0x82 stNoEntry 0) ∧
        (p0.toNat < 32768 → exec (.fctWrite ring p0 p1 (some bs)) s = ends u 0x84 stBadState 0)) ∧
      (u.rd (WADI_FUNC 2) WADI_FUNC_CUR = 1 →
        exec (.fctAdd ring p0 (some bs)) s = ends u 0x81 stBadState 0 ∧ exec (.fctDel ring p0 (some bs)) s = ends u 0x82 stBadState 0 ∧
        (p0.toNat < 32768 → entReserved true e = false → exec (.fctWrite ring p0 p1 (some bs)) s =
          ends (u.setFct p0.toNat e) 0x84 stOk p0.toNat)) ∧
      (32768 ≤ p0.toNat → p0.toNat < 33792 → entReserved false e = false → exec (.fctWrite ring p0 p1 (some bs)) s =
        ends (u.setTern (p0.toNat - 32768) (e, BitVec.ofNat 128 (ofLe (slice bs 32 16)))) 0x84 stOk p0.toNat) ∧
      (p1.toNat ≠ 0 → p1.toNat ≤ 4096 → p0.toNat + p1.toNat ≤ 33792 → exec (.fctRead ring p0 p1 p2) s = to_ (u.writeHost ring 0x83
        p2.toNat ((List.range p1.toNat).map fun j => u.fctBytes (p0.toNat + j)).flatten 0)) ∧
      (busy = false → s.genCount ((g + 1) % 16) = 0 → exec (.fctFence ring) s = to_ (begun u (some ring.val))) ∧
      (busy = true → exec (.fctFence ring) s =
        (let t := u.wr SWC_FCT_FENCE SWC_FCT_FENCE_RESULT 3; ends t 0x85 stBusy t.fenceValue))) ∧
    (s.hears p .swc = true →
      (busy = false → s.genCount ((g + 1) % 16) = 0 → exec (.swcFctFence p) s = to_ (begun s none)) ∧
      (busy = true → exec (.swcFctFence p) s = to_ (s.wr SWC_FCT_FENCE SWC_FCT_FENCE_RESULT 3)) ∧
      exec (.portRemove p n true) s = to_ (s.wr (SWC_PORT_CFG n) SWC_PORT_CFG_REMOVE 1) ∧
      exec (.portRemove p n false) s =
        to_ ((s.wr (SWC_PORT_CFG n) SWC_PORT_CFG_REMOVE 0).wr (SWC_PORT_OCC n) SWC_PORT_OCC_DRAINED 0) ∧
      exec (.gateBankSwitch p n) s = to_ (s.wr gate SWC_GATE_CFG_PEND 1)) ∧
    (busy = true → exec .fenceTimeout s = to_ ((s.endFence 2).raise .swc F_SWC_FENCE_TIMEOUT [0, 0, 0]) ∧
      (((List.range 16).all fun k => k == g || s.genCount k == 0) = true → exec .fenceDone s = to_ (s.endFence 1))) ∧
    (∀ c, s.swc.subCopy = some c → exec .fctSubarrayRemap s = to_ { s with
      swc := { s.swc with
        subCopy := none, subMap := SMap.set id s.swc.subMap c.sub c.spare, subBad := s.swc.subBad ++ [s.subPhys c.sub] },
      nvm := { s.nvm with subMaps := s.nvm.subMaps ++ [(c.sub, c.spare)] } }) ∧
    (s.spareSubs = [] → s.subLost (2048 * sub) = false →
      let inSub := fun (x : Nat × BitVec 256) => x.1 / 2048 == sub.val;
      let t := (s.unitFailed kFct (s.subPhys sub)).wr SWC_FCT_STAT SWC_FCT_STAT_LOST
        (setBit (s.rd SWC_FCT_STAT SWC_FCT_STAT_LOST) sub true);
      let t' := { t with swc := { t.swc with
        fct := t.swc.fct.filter fun x => !inSub x, shadow := t.swc.shadow.filter fun x => !inSub x } };
      let r := if s.rd (WADI_FUNC 2) WADI_FUNC_CUR = 1 then (0, t')
        else (s.swc.shadow.filter inSub).foldl (fun (a : Nat × State) x => match a.2.place x.2 with
          | (some _, v) => (a.1, v)
          | (none, v) => (a.1 + 1, v)) (0, t');
      exec (.fctSubarrayLost sub) s =
        to_ (((r.2.event .swc 0x29 4 (sub * 2 ^ 16 + r.1 % 2 ^ 16) 0).lossOf 3 sub).raise .swc F_SWC_SUB_LOST [sub, 0, 0])) ∧
    (s.flag (SWC_PORT_CFG n) SWC_PORT_CFG_REMOVE = true → s.flag (SWC_PORT_OCC n) SWC_PORT_OCC_DRAINED = false →
      exec (.portDrainExpiry n) s = to_ ((s.dropPort n).2.drained n (s.dropPort n).1)) ∧
    (s.flag gate SWC_GATE_CFG_EN = true →
      (s.flag gate SWC_GATE_CFG_PEND = false → exec (.gateCycleStart n) s = to_ (s.setGate n (s.gateEntry n 0))) ∧
      (s.flag gate SWC_GATE_CFG_PEND = true → exec (.gateCycleStart n) s =
        (let t := (s.wr gate SWC_GATE_CFG_ACTIVE (1 - s.rd gate SWC_GATE_CFG_ACTIVE)).wr gate SWC_GATE_CFG_PEND 0;
          to_ (t.setGate n (t.gateEntry n 0)))) ∧
      ((s.gate n).running = true → (s.gate n).entry + 1 < (s.gateList n (s.rd gate SWC_GATE_CFG_ACTIVE)).length →
        exec (.gateEntryChange n) s = to_ (s.setGate n (s.gateEntry n ((s.gate n).entry + 1)))))

/-- R644, R649 to R656, R670 to R674, R683, R686. -/
def Obligations.TimeBaseSteeringAndPins : Prop :=
  ∀ (s : State) (p : Fin 2) (k : Fin 4) (pin : Fin 16) (v : Word) (rising : Bool),
    let to_ := fun (t : State) => Host.Outcome.next (settle t)
    let rej := fun (t : State) (code slot : Nat) =>
      to_ ((t.bump TIME_CNT TIME_CNT_STEER_REJ 1).raiseFor .time F_TIME_STEER_REJ [0, code] slot)
    let wide := signedOf 64 (v.toNat * 2 ^ 32 + (s.held32 TIME_STEP).toNat)
    let sec := v.toNat % 2 ^ 16 * 2 ^ 32 + (s.held32 TIME_SET_SEC).toNat
    let b := s.inbox 16 k
    let word := fun (i : Nat) => SMap.get (fun _ => 0) b.words i
    let op := bitsOf (word 0).toNat 31 24
    let u := (s.setInbox 16 k { b with full := false }).clearDb 16 (BitVec.ofNat 32 (2 ^ k.val))
    let x := s.tioAt pin
    let cfg := TIO_CFG pin
    let lead := fun (t : State) => (t.setTio pin { t.tioAt pin with pulse := true }).drive pin (t.flag cfg TIO_CFG_LEVEL)
    (s.hears p .time = true →
      (s.maySteer (.mw0 p) = true →
        exec (.timeFreqWrite p v) s = to_ (((s.setReg TIME_FREQ v).tbValid).rateWritten (20 + p)) ∧
        exec (.timeStep p v) s = to_ (s.stepBy (wide * 2 ^ 24) wide 0) ∧
        exec (.timeSlew p v) s = to_ (((({ s with tb := { s.tb with slew := signedOf 32 v.toNat * 2 ^ 40 } }.slewShow).tbValid)).rateWritten
          (20 + p)) ∧
        exec (.timeSet p v) s =
          to_ ((s.setReg64 TIME_SET_SEC sec).setTime sec (s.rd TIME_SET_NS ⟨29, 0⟩) 0)) ∧
      (s.maySteer (.mw0 p) = false → exec (.timeFreqWrite p v) s = rej s (20 + p) 255 ∧
        exec (.timeStep p v) s = rej s (20 + p) 255 ∧ exec (.timeSlew p v) s = rej s (20 + p) 255 ∧
        exec (.timeSet p v) s = rej s (20 + p) 255) ∧
      exec (.timeNowFracRead p) s = to_ ({ s with rdata := s.tb.sub.toNat / 2 ^ 24 }.setPort p { s.port p with
        nowNs := s.tb.ns.toNat, nowSec := s.tb.sec.toNat, nowHeld := true }) ∧
      (x.caps = [] → exec (.tioCapRead p pin) s = to_ ({ s with rdata := 0 }.wr (TIO_STAT pin) TIO_STAT_CAP_Q 0)) ∧
      (∀ ns q r rest, x.caps = (ns, q, r) :: rest → exec (.tioCapRead p pin) s = to_ ((({ s with rdata := ns }.wr (TIO_STAT pin)
        TIO_STAT_CAP_Q q).wr (TIO_STAT pin) TIO_STAT_CAP_EDGE (b2n r)).setTio pin { x with caps := rest })) ∧
      (s.flag cfg TIO_CFG_EN = false →
        let t := s.setReg cfg (v &&& 0xFFC0FFFF);
        t.flag cfg TIO_CFG_EN = true → t.rd cfg TIO_CFG_MODE = 2 ∨ t.rd cfg TIO_CFG_MODE = 3 → exec (.tioEnable p pin v) s =
          to_ ((t.setTio pin { t.tioAt pin with done := false, next := t.tioIndex pin, pulse := false }).drive pin
            (!t.flag cfg TIO_CFG_LEVEL)))) ∧
    (s.tb.slew ≠ 0 → exec .slewComplete s =
      to_ ({ s with tb := { s.tb.add s.tb.slew with slew := 0 } }.slewShow.wr TIME_STAT TIME_STAT_FREQ_CLAMP 0)) ∧
    (b.full = true →
      (op = 4 → b.len = 2 → exec (.linkDelay k) s =
        to_ ((u.setReg (TIME_PORT_LINKDLY ((word 0).toNat % 16)) (word 1)).ringDb b.sender (BitVec.ofNat 32 (2 ^ 27)))) ∧
      (opLen op ≠ some b.len → exec (.steerMsgInvalid k) s = to_ (u.steerRej (u.steererOf b.sender))) ∧
      (u.maySteer (u.steererOf b.sender) = true →
        (op = 1 → b.len = 2 → exec (.steerFreq k) s = to_ ((u.setFreq (word 1) (u.epMaster
          b.sender)).ringDb b.sender (BitVec.ofNat 32 (2 ^ 27)))) ∧
        (op = 2 → b.len = 3 → exec (.steerStep k) s = to_ ((u.stepTime (signedOf 64 ((word 2).toNat * 2 ^ 32 + (word 1).toNat)) 1).ringDb
          b.sender (BitVec.ofNat 32 (2 ^ 27)))) ∧
        (op = 3 → b.len = 2 → exec (.steerSlew k) s = to_ ((u.startSlew (signedOf 32 (word 1).toNat) (u.epMaster
          b.sender)).ringDb b.sender (BitVec.ofNat 32 (2 ^ 27))))) ∧
      (u.maySteer (u.steererOf b.sender) = false →
        (op = 1 → b.len = 2 → exec (.steerFreq k) s = to_ (u.steerRej (u.steererOf b.sender))) ∧
        (op = 2 → b.len = 3 → exec (.steerStep k) s = to_ (u.steerRej (u.steererOf b.sender))) ∧
        (op = 3 → b.len = 2 → exec (.steerSlew k) s = to_ (u.steerRej (u.steererOf b.sender))))) ∧
    (s.flag cfg TIO_CFG_EN = true →
      (s.rd cfg TIO_CFG_MODE = 0 → bitOf (s.rd cfg TIO_CFG_EDGE) (if rising then 0 else 1) = true →
        let q : Nat := s.tb.total / 2 ^ 38;
        let c := (((q : Int) - signedOf 16 (s.rd cfg TIO_CFG_CORR)) % (2 ^ 66 : Int)).toNat;
        (x.caps.length < 4 → (∀ l, x.last = some l → l + 32 ≤ q) → s.flag cfg TIO_CFG_EVT = false → exec (.tioCapture pin rising) s =
          to_ (s.setTio pin { x with caps := x.caps ++ [(c / 4, c % 4, rising)], last := some q })) ∧
        (4 ≤ x.caps.length → exec (.tioCapture pin rising) s = to_ (((s.bump (TIO_STAT pin) TIO_STAT_LOST 1).wr (TIO_STAT pin)
          TIO_STAT_OVF 1).raise .time F_TIME_TIO_OVF [pin]))) ∧
      (s.rd cfg TIO_CFG_MODE = 1 → x.done = false → exec (.tioSingleEdge pin) s =
        to_ ((s.setTio pin { x with done := true }).drive pin (s.flag cfg TIO_CFG_LEVEL))) ∧
      (s.rd cfg TIO_CFG_MODE = 2 → exec (.tioPeriodicEdge pin) s = to_ (lead (s.setTio pin { x with next := x.next + 1 }))) ∧
      (s.rd cfg TIO_CFG_MODE = 3 → exec (.tioPpsEdge pin) s = to_ (lead s))) ∧
    (x.pulse = true → exec (.tioPulseEnd pin) s = to_ ((s.setTio pin { x with pulse := false }).drive pin (!s.flag cfg TIO_CFG_LEVEL)))

/-- R695 to R706, R709, R712 to R715, R724 to R743. -/
def Obligations.CaravanChannelsStartAndSend : Prop :=
  ∀ (s : State) (p c bank : Fin 2) (port : Fin 4) (k : Fin 4) (ring : Fin 512) (e : Fin 256) (v : Word) (nbr : Fin 4096) (rg : Fin 256)
    (slow nbrIsD full : Bool) (ecc : Ecc) (p0 p1 : BitVec 64) (bs : List Byte),
    let to_ := fun (t : State) => Host.Outcome.next (settle t)
    let u := s.take ring
    let x := s.chan c
    let h := s.cvnHeader c (s.cvnBank c)
    let blocked := s.bump (CVN_CH_CNT2 c) cntLo 1
    (s.hears p .cvn = true → bitOf v.toNat 31 = true →
      (s.cvnEn c = false → s.cvnAddr = 0xFFF → exec (.cvnChannelEnable p c v) s = to_ (s.raise .cvn F_CVN_CFG_ERR [])) ∧
      (s.cvnEn c = false → s.cvnAddr ≠ 0xFFF → exec (.cvnChannelEnable p c v) s =
        to_ (((s.regWrite (CVN_CH_CFG c) v).wr (CVN_CH_CFG c) CVN_CH_CFG_EN 0).cvnSetEn c true)) ∧
      (s.cvnEn c = true → s.cvnBank c = bank.val → exec (.cvnBankValidate p c bank v) s = to_ (s.raise .cvn F_CVN_CFG_ERR [])) ∧
      (s.cvnEn c = false ∨ s.cvnBank c ≠ bank.val → exec (.cvnBankValidate p c bank v) s =
        to_ (((s.regWrite (cvnOff c bank 0 3) v).cvnValid c bank false).cvnCheck c bank))) ∧
    (s.cvnPort port = true → s.linkUp port = false →
      let c := port.val / 2;
      let x := s.chan c;
      let d := port.val % 2 == 0;
      let tried := s.flag (CVN_CH_CFG c) CVN_CH_CFG_MAX_RATE || (if d then x.slowD else x.slowU);
      let sl := slow || s.flag (CVN_CH_CFG c) CVN_CH_CFG_MAX_RATE || (if d then x.slowD else x.slowU);
      let up := (s.linkCame port 6 (if sl then 4 else 6) false 0).wr (CVN_CH_NBR c)
        (if d then CVN_CH_NBR_D_ADDR else CVN_CH_NBR_U_ADDR) nbr;
      let joined := up.onChan c fun x => if d then { x with upD := true, slowD := sl, loopD := x.loopD && s.cvnState c != 1 }
        else { x with upU := true, slowU := sl, loopU := x.loopU && s.cvnState c != 1 };
      ((nbrIsD == d || rg.val != s.rd (CVN_CH_CFG c) CVN_CH_CFG_RING) = true →
        exec (.cvnTrainDone port slow nbr rg nbrIsD) s = to_ ((up.cvnDown c d).raise .cvn F_CVN_CFG_ERR [])) ∧
      ((nbrIsD == d || rg.val != s.rd (CVN_CH_CFG c) CVN_CH_CFG_RING) = false →
        exec (.cvnTrainDone port slow nbr rg nbrIsD) s =
          to_ (((if s.cvnState c ≤ 2 then joined.cvnSetRate c sl else joined).cvnWrap c).cvnTrained c)) ∧
      (tried = false → exec (.cvnTrainTimeout port) s =
        .next (s.onChan c fun x => if d then { x with slowD := true } else { x with slowU := true })) ∧
      (tried = true → (if d then x.loopD else x.loopU) = false → exec (.cvnTrainTimeout port) s =
        to_ (((s.onChan c fun x => if d then { x with slowD := false } else { x with slowU := false }).cvnDown c d).cvnTrained c))) ∧
    (s.cvnEn 0 = false → s.cvnEn 1 = true →
      let t := s.onChan 1 fun x => { x with switchAt := none };
      ∀ m, (s.chan 1).switchAt = some (s.cvnN % 2 ^ 32, m) → t.cvnOther 1 m = true → ((t.cvnSwitch 1 m).chan 1).firstLeft = none →
        exec .cvnCycleStart s = to_ (t.cvnSwitch 1 m)) ∧
    (s.cvnEn c = true → h.valid = true → h.openStart ≠ h.openEnd →
      exec (.cvnOpenWindowStart c) s = .next (s.onChan c fun x => { x with window := true })) ∧
    exec (.cvnOpenWindowEnd c) s = .next (s.onChan c fun x => { x with window := false }) ∧
    (s.cvnState c = 5 → x.left = false → s.cvnFirst c = true →
      exec (.cvnCsSend c true) s = .next blocked ∧
      (let r := s.csRequest c;
        let t := r.2.2.csSent c false r.1 r.2.1;
        (t.chan c).leaving = none → exec (.cvnCsSend c false) s = to_ t)) ∧
    (∀ ent, s.txEntry c e = some ent →
      let q := (SMap.get (fun _ => none) x.prep e.val).getD ⟨true, false, 0, []⟩;
      let t := s.onChan c fun x => { x with prep := SMap.set (fun _ => none) x.prep e none };
      let sent := t.onChan c fun x => { x with lastSeq := SMap.set (fun _ => none) x.lastSeq e (some q.seq) };
      exec (.cvnMoverStart c e full ecc) s = to_ (s.cvnMove c e ent full ecc) ∧
      exec (.cvnSlotSend c e true) s = .next (t.bump (CVN_CH_CNT2 c) cntLo 1) ∧
      (∀ k, x.leaving = some k → k ≤ s.cvnN → exec (.cvnSlotSend c e false) s = to_ (t.cvnTell c s.cvnN e)) ∧
      (x.leaving = none → q.null = true ∨ s.mode = .safe → exec (.cvnSlotSend c e false) s =
        to_ ((t.bump (CVN_CH_CNT2 c) cntHi 1).cvnGuard c (t.inTxWindow c 0) (t.cvnOwn c cvnNULL ent.slot ent.act []))) ∧
      (x.leaving = none → q.null = false → s.mode ≠ .safe → exec (.cvnSlotSend c e false) s =
        to_ (sent.cvnGuard c (sent.inTxWindow c q.data.length)
          { sent.cvnOwn c cvnDATA ent.slot ent.act q.data with stale := q.stale, seq := q.seq }))) ∧
    (∀ ch, x.change = some ch → s.cvnState c = 5 → s.cvnFirst c = true → ch.start.map (· + 1) = some s.cvnN →
      exec (.cvnCommitSend c true) s = to_ (blocked.cvnChangeEnd c ch 3) ∧
      (let next := (s.cvnN + 1) % 2 ^ 32;
        let t := s.cvnGuard c (decide (h.tail ≤ s.cvnPos)) (s.cvnOwn c cvnCOMMIT 0 (h.tail + h.guard)
          ([BitVec.ofNat 8 ch.target, BitVec.ofNat 8 0x81] ++ beBytes 4 next ++ [0, 0]));
        ch.equal = some true → exec (.cvnCommitSend c false) s =
          to_ ((t.onChan c fun x => { x with switchAt := some (next, ch.target) }).cvnChangeEnd c ch 1))) ∧
    (s.cvnState c ≠ 0 → x.left = false → exec (.dlyReqSend c) s = to_ ((s.dlyReq (2 * c)).dlyReq (2 * c + 1))) ∧
    (4 ≤ s.cvnState c → s.cvnFirst c = false → exec (.cvnCsMissing c) s = to_ (s.cvnListen c)) ∧
    (s.cvnState c = 2 → x.left = false → s.cvnMayCold c = true →
      exec (.cvnListenTimeout c) s = to_ ((s.onChan c fun x => { x with cold := 0 }).cvnTo c 3)) ∧
    (∀ n, x.loopEndD = some n → x.loopEndU = none → n ≤ s.cvnN → exec (.cvnLoopbackEnd c) s =
      to_ ((s.onChan c fun x => { x with loopD := x.loopD && !x.upD, loopEndD := none }).cvnWrap c)) ∧
    (∀ n, x.leaving = some n →
      let t := if s.cvnState c = 5 then (s.cvnTellCycle c n).cvnTellCycle c (n + 1) else s;
      t.cvnFirst c = false → exec (.cvnLeave c) s =
        to_ (t.onChan c fun x => { x with leaving := none, told := [], left := true })) ∧
    (∀ b sender ws t, s.msgWaits k 0x10 = true → s.takeMsg k = (sender, ws, t) → b = (ws.getD 0 0).toNat % 64 →
      let ch := bitsOf (ws.getD 0 0).toNat 8 8;
      let off := (ws.getD 1 0).toNat;
      let q := t.physOf false b;
      (16 ≤ sender ∨ t.owner b ≠ 0x10 + sender → exec (.cvnTableMessage k ecc) s = to_ (t.steerRej (t.steererOf sender))) ∧
      (sender < 16 → sender = t.rd TIME_CTRL TIME_CTRL_SLOT → t.rd (WADI_FUNC 4) WADI_FUNC_CUR = 0 → t.owner b = 0x10 + sender →
        off + 4096 ≤ 131072 → t.flag (CVN_CH_STAT ch) CVN_CH_STAT_PEND = false →
        ((List.range 513).any fun i => (t.bank false q).mem.isBad (off + min 4095 (8 * i))) = false →
        exec (.cvnTableMessage k .ok) s =
          to_ ((t.cvnLoad ch ((t.bank false q).mem.bytes off 4096)).2.ringDb sender (BitVec.ofNat 32 (2 ^ 27))))) ∧
    (s.takes ring Mode.working = true →
      let c := bitsOf p0.toNat 8 8;
      let m := p0.toNat % 256;
      let ends := fun (t : State) (code : Nat) (st : Status) => to_ (t.finish ring code st 0);
      (u.cvnFirst c = false ∨ u.cvnState c ≠ 5 → exec (.cvnMode ring p0) s = ends u 0x88 stBadState) ∧
      (u.cvnFirst c = true → u.cvnState c = 5 →
        ((u.chan c).change.isSome = true → exec (.cvnMode ring p0) s = ends u 0x88 stBusy) ∧
        ((u.chan c).change = none → u.cvnOther c m = false → exec (.cvnMode ring p0) s = ends u 0x88 stNoEntry) ∧
        ((u.chan c).change = none → u.cvnOther c m = true → u.cvnFits c = true → exec (.cvnMode ring p0) s =
          to_ ((u.onChan c fun x => { x with change := some ⟨ring, m, none, none⟩ }).wr (CVN_CH_STAT c) CVN_CH_STAT_PEND 1))) ∧
      (u.flag (CVN_CH_STAT c) CVN_CH_STAT_PEND = true → exec (.cvnTable ring p0 p1 (some bs)) s = ends u 0x89 stBadState) ∧
      (u.flag (CVN_CH_STAT c) CVN_CH_STAT_PEND = false → exec (.cvnTable ring p0 p1 (some bs)) s =
        ends (u.cvnLoad c bs).2 0x89 (if (u.cvnLoad c bs).1 then stOk else stBadParam)))

/-- R708, R710, R711, R715 to R717, R722, R727 to R729, R735, R736. -/
def Obligations.CaravanFramesReceived : Prop :=
  ∀ (s : State) (port : Fin 4) (c : Fin 2) (e : Fin 256) (bs : List Byte) (resid turn : Nat),
    let to_ := fun (t : State) => Host.Outcome.next (settle t)
    let ch := port.val / 2
    let d := port.val % 2 == 0
    let x := s.chan ch
    (s.cvnTakes port = true →
      (cvnParse bs = none →
        let t := s.bump (CVN_CH_CNT3 ch) cntHi 1;
        exec (.csFrameRx port bs resid) s = .next t ∧ exec (.dataFrameRx port bs resid) s = .next t ∧
        exec (.nullFrameRx port bs resid) s = .next t ∧ exec (.leaveFrameRx port bs resid) s = .next t ∧
        exec (.commitFrameRx port bs resid) s = .next t ∧ exec (.cvnOwnFrameReturn port bs) s = .next t) ∧
      (∀ f, cvnParse bs = some f → s.cvnReturns port f = false →
        (f.typ = cvnCS → exec (.csFrameRx port bs resid) s = to_ (s.cvnPass port f bs resid (s.csMarks ch f)
          fun t path at_ => (f.edge, t.cvnCs ch f path at_))) ∧
        (f.typ = cvnDATA → exec (.dataFrameRx port bs resid) s = to_ (s.cvnPass port f bs resid id
          fun t path at_ => t.cvnSlotFrame ch f path at_ fun u en edge => u.publish en f f.cycle edge)) ∧
        (f.typ = cvnNULL → exec (.nullFrameRx port bs resid) s = to_ (s.cvnPass port f bs resid id
          fun t path at_ => t.cvnSlotFrame ch f path at_ fun u en _ => u.ctlSet en ctlNull)) ∧
        (∀ ld, s.cvnDelay ch d = some ld → f.hops < 1040 → s.cvnState ch ≠ 1 → d = true → x.openU = true →
          let out := cvnRepeat bs (f.hops + 1) (f.corr + ld + resid) f.edge false (!cvnGood f bs) id;
          let t := (if cvnGood f bs then s else s.bump (CVN_CH_CNT3 ch) cntLo 1).emit (.caravan (2 * ch + 1) out);
          (f.typ = cvnLEAVE → exec (.leaveFrameRx port bs resid) s = to_ t) ∧
          (f.typ = cvnCOMMIT → exec (.commitFrameRx port bs resid) s = to_ t))) ∧
      (∀ f, cvnParse bs = some f → s.cvnReturns port f = true → f.typ < 6 →
        (cvnGood f bs = false → exec (.cvnOwnFrameReturn port bs) s = .next (s.bump (CVN_CH_CNT3 ch) cntLo 1)) ∧
        (cvnGood f bs = true → f.edge = false →
          (f.typ ≠ cvnCS → exec (.cvnOwnFrameReturn port bs) s = to_ s) ∧
          (f.typ = cvnCS → s.cvnFirst ch = true → x.change = none → ∀ ld, s.cvnDelay ch d = some ld →
            let t := (s.wr (CVN_CH_LAT ch) CVN_CH_LAT_NS ((f.corr + ld) / 65536)).wr (CVN_CH_STAT ch) CVN_CH_STAT_MEMBERS
              (sumOf ((List.range 512).map fun m => b2n (memberBit f.payload 32 m)));
            (t.chan ch).change = none → exec (.cvnOwnFrameReturn port bs) s = to_ t)))) ∧
    (s.cvnPort port = true → s.linkUp port = true → ∀ f, cvnParse bs = some f →
      (f.typ = cvnREQ →
        (cvnGood f bs = false → exec (.dlyReqRx port bs turn) s = .next (s.bump (CVN_CH_CNT3 ch) cntLo 1)) ∧
        (cvnGood f bs = true → s.cvnFull f.cycle ≤ s.cvnN → s.cvnState ch ≠ 0 → exec (.dlyReqRx port bs turn) s =
          to_ (s.emit (.caravan port ((s.cvnOwn ch cvnRSP 0 f.act (timeBytes (s.rxStamp port) ++
            timeBytes (s.txStampIn port (max (200 * 65536) (min (300 * 65536) turn))))).bytes false))))) ∧
      (f.typ = cvnRSP →
        (cvnGood f bs = false → exec (.dlyRspRx port bs) s = .next (s.bump (CVN_CH_CNT3 ch) cntLo 1)) ∧
        (∀ t1, cvnGood f bs = true → (if d then x.reqD else x.reqU) = some t1 → exec (.dlyRspRx port bs) s = .next (s.dlyValue port
          (((((scaledView (s.rxStamp port) : Nat) : Int) - (t1 : Int)) - (timeOf f.payload 12 - timeOf f.payload 0)) / 2).toNat)))) ∧
    (let b := s.cvnBank c;
      4 ≤ s.cvnState c → e ≠ 0 → (s.cvnHeader c b).valid = true → (s.cvnEntry c b e).valid = true → (s.cvnEntry c b e).tx = false →
      exec (.cvnSlotMissed c e) s = to_ ((s.bump (CVN_CH_CNT1 c) cntLo 1).ctlSet (s.cvnEntry c b e) ctlMissed))

/-- R770 to R779, R781, R788, R789. -/
def Obligations.BusBuffersFramesAndErrors : Prop :=
  ∀ (s : State) (l : Fin 16) (bus : Fin 8) (i : Fin 32) (ring : Fin 512) (kind : Fin 5) (afterArb dataPhase dominant : Bool)
    (ecc : Ecc) (h0 h1 h2 h3 : Word) (data : List Byte) (p0 : BitVec 64),
    let to_ := fun (t : State) => Host.Outcome.next (settle t)
    let n := bus.val
    let b := s.bus n
    let x := b.buf i
    let u := s.take ring
    let w := MDB_STAT n
    let answer := fun (r : Nat × State) => to_ { r.2 with rdata := r.1 }
    (s.inBlkReset (.mdb n) = false →
      (s.busSlot n ≠ some l.val →
        exec (.mdbTxRequest l bus i) s = to_ ({ s with rdata := 0 }.winErr n l i) ∧
        exec (.mdbTxAbort l bus i) s = to_ ({ s with rdata := 0 }.winErr n l i) ∧
        exec (.mdbRxPop l bus ecc) s = to_ ({ s with rdata := 0 }.winErr n l 0)) ∧
      (s.busSlot n = some l.val →
        (x.pending = false → (lenOk x.hdr = false ∨ s.dmax n < hdrLen x.hdr) →
          exec (.mdbTxRequest l bus i) s = to_ (s.bufDone n i 4 s.now)) ∧
        (x.pending = false → lenOk x.hdr = true → hdrLen x.hdr ≤ s.dmax n →
          exec (.mdbTxRequest l bus i) s = to_ (s.setBus n (b.setBuf i { x with pending := true }))) ∧
        (x.pending = true → (∀ q, b.sending = some q → q.1 ≠ i.val) → exec (.mdbTxAbort l bus i) s = to_ (s.bufDone n i 1 s.now)) ∧
        (∀ t e, x.pending = true → b.sending = some (i.val, t, e) →
          exec (.mdbTxAbort l bus i) s = to_ (s.setBus n (b.setBuf i { x with abort := true }))) ∧
        exec (.mdbTxDonePop l bus) s = answer (s.txDonePop n) ∧
        exec (.mdbRxPop l bus ecc) s = answer (s.rxPop n ecc) ∧
        exec (.mdbMwEventRead l bus) s = answer (b.mwEvent, s.setBus n { b with stateEv := false, ttEv := false }))) ∧
    (∀ j, s.nextBuf n = some j → s.canSend n = true →
      exec (.mdbTxStart bus .ok) s = to_ (s.setBus n { b with sending := some (j, s.now, false) })) ∧
    (∀ j t excl, b.sending = some (j, t, excl) →
      exec (.mdbArbitrationLost bus) s = to_ (s.sendEnds n) ∧
      exec (.mdbFrameSent bus) s = to_ ((((((s.setBus n { b with sending := none }).emit (.bus n (b.buf j).hdr (b.buf j).bytes)).bufDone
        n j 0 t).setErrs n (s.rd w MDB_STAT_TEC - 1) (s.rd w MDB_STAT_REC)).modeSettle n))) ∧
    (s.canReceive n = true → s.mdbMode n = 1 →
      (s.rd w MDB_STAT_REC ≤ 127 → s.fmtAllowed n [h0, h1, h2, h3] = true →
        let t := (s.setErrs n (s.rd w MDB_STAT_TEC) (s.rd w MDB_STAT_REC - 1)).storeRx n [h0, h1, h2, h3] data;
        t.mdbMode n ≠ 3 → exec (.mdbFrameReceived bus h0 h1 h2 h3 data) s = to_ t) ∧
      (let t := (s.setErrs n (s.rd w MDB_STAT_TEC) (s.rd w MDB_STAT_REC + (if dominant then 9 else 1))).errEvent n kind false;
        b.sending = none → t.mdbMode n ≠ 3 → t.mdbEst n ≠ 2 →
          exec (.mdbErrorDetected bus kind false afterArb dataPhase dominant) s = to_ t) ∧
      (let t := (s.setErrs n (s.rd w MDB_STAT_TEC + 8) (s.rd w MDB_STAT_REC)).errEvent n kind true;
        kind ≠ 3 → kind ≠ 1 → t.mdbMode n ≠ 3 →
          (t.mdbEst n ≠ 2 → exec (.mdbErrorDetected bus kind true false dataPhase dominant) s = to_ (t.sendEnds n)) ∧
          (t.mdbEst n = 2 → exec (.mdbErrorDetected bus kind true false dataPhase dominant) s = to_ (t.enterBusOff n)))) ∧
    (s.mdbEst n = 3 → exec (.mdbRecoveryDone bus) s = to_ ((((((s.wr w MDB_STAT_ESTATE 0).wr w MDB_STAT_RECOV 0).wr w MDB_STAT_TEC 0).wr
      w MDB_STAT_REC 0).wr w MDB_STAT_WARN 0).mdbState n)) ∧
    (s.takes ring Mode.working = true →
      let k := p0.toNat % 8;
      let m := bitsOf p0.toNat 18 16;
      let j := p0.toNat % 32;
      let y := (u.bus m).buf j;
      let ends := fun (t : State) (code : Nat) (st : Status) (v : Nat) => to_ (t.finish ring code st v);
      (u.mdbEst k = 2 → u.fun3Hw = false → exec (.mdbRecover ring p0) s = ends (u.startRecovery k) 0x91 stOk 0) ∧
      (u.mdbEst k ≠ 2 ∨ u.fun3Hw = true → exec (.mdbRecover ring p0) s = ends u 0x91 stBadState 0) ∧
      (u.tbCount m ≤ j → exec (.mdbAbort ring p0) s = ends u 0x90 stBadParam 0) ∧
      (j < u.tbCount m → u.busSlot m = none → exec (.mdbAbort ring p0) s = ends u 0x90 stNotBound 0) ∧
      (j < u.tbCount m → (u.busSlot m).isSome = true → y.pending = true →
        (∀ t e, (u.bus m).sending = some (j, t, e) → exec (.mdbAbort ring p0) s =
          to_ (u.setBus m ((u.bus m).setBuf j { y with abort := true, abortCmds := y.abortCmds ++ [ring.val] }))) ∧
        ((∀ q, (u.bus m).sending = some q → q.1 ≠ j) → exec (.mdbAbort ring p0) s = ends (u.bufDone m j 1 u.now) 0x90 stOk 1)))

/-- R765 to R768, R770, R784 to R789. -/
def Obligations.BusModesTriggersAndRemaps : Prop :=
  ∀ (s : State) (p : Fin 2) (bus : Fin 8) (prio : Fin 8) (cycle : Fin 64) (i : Fin 64) (ctrl : Fin 9) (g : Nat) (ring : Fin 512)
    (v : Word) (p0 p1 : BitVec 64),
    let to_ := fun (t : State) => Host.Outcome.next (settle t)
    let n := bus.val
    let b := s.bus n
    let u := s.take ring
    let st := MDB_TT_STAT n
    let cfgErr := fun (t : State) => t.raiseFor (.mdb n) F_MDB_CFG_ERR (mdbCaps n 0 (20 + p)) n
    let on := fun (t : State) => if t.trgOk n then t.wr (MDB_CTRL n) MDB_CTRL_TT_EN 1
      else cfgErr ((t.wr (MDB_CTRL n) MDB_CTRL_TT_EN 0).ttStop n)
    (s.hears p (.mdb n) = true →
      (bitOf v.toNat 7 = false → exec (.mdbModeWrite p bus v) s = to_ (s.busCtrl n v)) ∧
      (bitOf v.toNat 7 = true → exec (.mdbModeWrite p bus v) s = to_ (on (s.busCtrl n v))) ∧
      exec (.mdbTtEnable p bus) s = to_ (on s) ∧
      (s.busInit n = true → exec (.mdbRamCfgWrite p bus v) s = to_ (s.ramCfg n v (20 + p))) ∧
      (s.busInit n = false → exec (.mdbRamCfgWrite p bus v) s = to_ (cfgErr s))) ∧
    (s.takes ring Mode.working = true →
      let k := p0.toNat % 8;
      (u.fun3Hw = false → u.flag (MDB_STAT k) MDB_STAT_TT_MASTER = true →
        (u.now ≤ p1.toNat → exec (.mdbTtNext ring p0 p1) s =
          to_ ((u.setBus k { u.bus k with ttNext := some p1.toNat }).finish ring 0x92 stOk 0)) ∧
        (p1.toNat < u.now → exec (.mdbTtNext ring p0 p1) s = to_ (u.finish ring 0x92 stBadParam 0))) ∧
      (u.fun3Hw = true ∨ u.flag (MDB_STAT k) MDB_STAT_TT_MASTER = false →
        exec (.mdbTtNext ring p0 p1) s = to_ (u.finish ring 0x92 stBadState 0))) ∧
    (s.ttOn n = true →
      (let w := s.reg64 (MDB_TRG n i);
        let j := bitsOf w 50 46;
        b.ttRun = true → bitOf w 61 = true → s.rd st MDB_TT_STAT_CYCLE_CNT % 2 ^ bitsOf w 54 52 = bitsOf w 60 55 →
          (bitsOf w 63 62 = 0 → (b.buf j).pending = true → s.canSend n = true →
            exec (.mdbTrigger bus i) s = to_ (s.setBus n { b with sending := some (j, s.now, bitOf w 51) })) ∧
          (bitsOf w 63 62 = 1 → b.matched.contains j = false → exec (.mdbTrigger bus i) s =
            to_ ((s.bump st MDB_TT_STAT_TT_MISS 1).setBus n { b with ttEv := true })) ∧
          (bitsOf w 63 62 = 2 → s.refOk n = true → exec (.mdbTrigger bus i) s = to_ (s.sendRef n)) ∧
          (bitsOf w 63 62 = 3 →
            let t := (s.ttEvent n 1 0).raiseFor (.mdb n) F_MDB_TT_ERR (mdbCaps n (s.rd (MDB_TT_CFG n) MDB_TT_CFG_REF_ID) 31) n;
            (t.refOk n = true → exec (.mdbTrigger bus i) s = to_ (t.sendRef n)) ∧
            (t.refOk n = false → exec (.mdbTrigger bus i) s = to_ (t.ttStop n)))) ∧
      (s.refOk n = true → exec (.mdbRefDue bus) s = to_ (s.sendRef n)) ∧
      (s.canReceive n = true → s.flag (MDB_STAT n) MDB_STAT_TT_MASTER = false → s.flag (MDB_TT_CFG n) MDB_TT_CFG_LEVEL2 = false →
        let t := (s.ttCycleStart n (cycle.val % 2 ^ s.ttMatrix n) prio).wr (MDB_STAT n) MDB_STAT_TT_MASTER 0;
        (b.ttRun = false ∨ s.rd st MDB_TT_STAT_MASTER = prio.val → exec (.mdbRefReceived bus prio cycle g) s = to_ t) ∧
        (b.ttRun = true → s.rd st MDB_TT_STAT_MASTER ≠ prio.val → exec (.mdbRefReceived bus prio cycle g) s = to_ (t.ttEvent n 2 0))) ∧
      (s.fun3Hw = false → s.flag (MDB_STAT n) MDB_STAT_TT_MASTER = true → b.ttNext = none →
        exec (.mdbTtLate bus) s = to_ ((s.bump st MDB_TT_STAT_TT_LATE 1).ttEvent n 3 0))) ∧
    (s.flag MDB8_REMAP MDB8_REMAP_ACTIVE = true →
      (s.rd MDB8_REMAP MDB8_REMAP_STEP = 1 → exec .mdbRemapFollowDone s = .next (s.wr MDB8_REMAP MDB8_REMAP_STEP 2)) ∧
      (s.rd MDB8_REMAP MDB8_REMAP_STEP = 2 → exec .mdbRemapTimeout s = .next s.dropRemap ∧
        (let m := s.rd MDB8_REMAP MDB8_REMAP_BUS;
          let new := s.rd MDB8_REMAP MDB8_REMAP_TO;
          let old := s.rd MDB8_REMAP MDB8_REMAP_FROM;
          let t := (((s.setCtrl m new).wr MDB8_REMAP MDB8_REMAP_STEP 3).wr MDB8_REMAP MDB8_REMAP_ACTIVE 0).bump MDB8_REMAP
            MDB8_REMAP_COUNT 1;
          (s.bus m).sending = none → s.mdbEst m < 2 → exec .mdbRemapSwitch s =
            to_ ({ t with ctrlWorn := old :: t.ctrlWorn }.remapEvent m new old false)))) ∧
    (s.ctrlBad.contains ctrl.val = false → s.flag MDB8_REMAP MDB8_REMAP_ACTIVE = false →
      let t := { s.unitFailed kMdb ctrl with ctrlBad := ctrl.val :: s.ctrlBad };
      (s.busOfCtrl ctrl = none → exec (.mdbCtrlFail ctrl) s = to_ (t.raiseFor (.mdb 8) F_MDB_CTRL_FAIL [0, 31, 0] 255)) ∧
      (∀ m, s.busOfCtrl ctrl = some m →
        (∀ c rest, t.spareCtrls = c :: rest → exec (.mdbCtrlFail ctrl) s =
          to_ (((t.moveBus m c).remapEvent m c ctrl true).raiseFor (.mdb m) F_MDB_CTRL_FAIL (mdbCaps m 0 31) m)) ∧
        (t.spareCtrls = [] → exec (.mdbCtrlFail ctrl) s =
          to_ ((((t.shedBus m).outageFrom (outBus m)).lossOf 5 m).raiseFor (.mdb m) F_MDB_CTRL_FAIL (mdbCaps m 0 31) m))))

/-- R807 to R820, R824, R825. -/
def Obligations.BusesSleepAndWake : Prop :=
  ∀ (s : State) (who : Fin 18) (bus : Fin 8) (ide after : Bool) (id : BitVec 29),
    let to_ := fun (t : State) => Host.Outcome.next (settle t)
    let n := bus.val
    let st := WAKE_BUS_STAT n
    let cfg := WAKE_BUS_CFG n
    let mode := s.rd (MDB_CTRL n) MDB_CTRL_MODE
    let tt := s.flag (MDB_CTRL n) MDB_CTRL_TT_EN
    let pend := (s.wr st WAKE_BUS_STAT_FERR 0).setSleep n 1
    ((if who.val < 16 then s.inBlkReset .wake = false ∧ s.inBlkReset (.mdb n) = false ∧ s.busSlot n = some who.val
        else s.hears (who.val - 16) .wake = true) →
      (s.sleepState n = 0 →
        (tt = false → mode = 1 ∨ mode = 2 → (s.bus n).shed = false → exec (.busSleepRequest who bus) s =
          to_ (pend.setBus n { pend.bus n with pendAt := s.now })) ∧
        (tt = true ∨ (mode ≠ 1 ∧ mode ≠ 2) ∨ (s.bus n).shed = true → exec (.busSleepRequest who bus) s =
          to_ (s.raiseFor .wake F_WAKE_SLP_REFUSED [n, 0, 0] n))) ∧
      (s.sleepState n = 1 → exec (.busSleepCancel who bus) s = to_ (s.setSleep n 0)) ∧
      (2 ≤ s.sleepState n → exec (.busSleepCancel who bus) s = to_ (s.wakeBus n 7 0 false))) ∧
    (s.sleepState n = 1 →
      ((s.bus n).sending = none → (s.bus n).bits (·.pending) = 0 → s.mdbEst n < 2 →
        exec (.sleepGateClose bus) s = to_ (s.fallAsleep n 2)) ∧
      (let t := (s.event .wake 0x4A 5 (n * 2 ^ 32) 0).raiseFor .wake F_WAKE_AWAKE_MAX [n, 0, 0] n;
        s.rd cfg WAKE_BUS_CFG_AWAKE_MAX ≠ 0 →
          (s.flag cfg WAKE_BUS_CFG_WITHDRAW = false → exec (.awakeMaxExpiry bus) s = to_ t) ∧
          (s.flag cfg WAKE_BUS_CFG_WITHDRAW = true → exec (.awakeMaxExpiry bus) s = to_ (t.fallAsleep n 3)))) ∧
    (s.rd cfg WAKE_BUS_CFG_MODE = 1 →
      (s.mode = .standby → s.flag cfg WAKE_BUS_CFG_STBY_EN = true → exec (.busWakeEvent bus .pattern ide id after) s =
        to_ (s.later (.standbyWake 2 n 0 false))) ∧
      (s.mode ≠ .standby → s.enteringStandby = false →
        (s.sleepState n = 1 → after = true → exec (.busWakeEvent bus .pattern ide id after) s =
          to_ (((s.setSleep n 0).bump st WAKE_BUS_STAT_ABORTS 1).sleepEvent n 2)) ∧
        (s.sleepState n = 1 → after = false → exec (.busWakeEvent bus .pattern ide id after) s = to_ s) ∧
        (s.sleepState n = 2 → exec (.busWakeEvent bus .pattern ide id after) s = to_ (s.wakeBus n 2 0 false)) ∧
        (s.sleepState n = 3 → after = true → exec (.busWakeEvent bus .pattern ide id after) s = to_ (s.wakeBus n 2 0 false)))) ∧
    (s.rd cfg WAKE_BUS_CFG_MODE = 2 → s.mode ≠ .standby → s.enteringStandby = false → s.sleepState n = 2 →
      exec (.busWakeEvent bus .selective ide id after) s = to_ (s.wakeBus n 3 id.toNat ide)) ∧
    (s.filterArmed n = true →
      let ferr := s.rd st WAKE_BUS_STAT_FERR;
      exec (.wakeFilterActivity bus .short) s = .next (s.bump st WAKE_BUS_STAT_FALSE 1) ∧
      (s.rd cfg WAKE_BUS_CFG_MODE = 2 →
        exec (.wakeFilterActivity bus .goodFrame) s = .next (s.wr st WAKE_BUS_STAT_FERR (ferr - 1)) ∧
        (ferr < 31 → exec (.wakeFilterActivity bus .badFrame) s = .next (s.wr st WAKE_BUS_STAT_FERR (ferr + 1))) ∧
        (31 ≤ ferr → exec (.wakeFilterActivity bus .badFrame) s = to_ (s.busWakeEvent n 4 0 false true)))) ∧
    (s.mode = .standby →
      (s.flag WAKE_CTRL WAKE_CTRL_PIN_EN = true → exec .wakeNAssert s = to_ (s.later (.standbyWake 5 0 0 false))) ∧
      (s.rd WAKE_CTRL WAKE_CTRL_TIMER ≠ 0 → exec .standbyTimerExpiry s = to_ (s.later (.standbyWake 6 0 0 false))))

/-- R841 to R850, R857, R863. -/
def Obligations.SequencersExecuteInstructions : Prop :=
  ∀ (s : State) (seq : Fin 32) (pins : BitVec 48) (bad : Bool) (w : Word) (adv : Bool),
    let n := seq.val;
    let q := s.seqSt n;
    let fetched := q.inject.isNone && q.stalled.isNone
    let to_ := fun (t : State) => Host.Outcome.next (settle t)
    let s1 := ({ s with psq := { s.psq with pins := pins } } : State).seqPhase n 1;
    let ends := fun (t : State) => to_ (t.setSeq n { t.seqSt n with test := s1.testLevel n })
    let runs := fun (i : Instr) =>
      (s1.seqStalls n w = true → exec i s = ends (s1.setSeq n { s1.seqSt n with stalled := some (w, adv), inject := none })) ∧
      (s1.seqStalls n w = false →
        let base := if adv = true then s1.seqAfter n q.pc else q.pc
        let a := (s1.setSeq n { s1.seqSt n with stalled := none, inject := none }).seqAct n w base;
        (iDwell w = 0 → exec i s = ends (a.2.seqGo n a.1)) ∧
        (iDwell w ≠ 0 → exec i s = ends (a.2.setSeq n { a.2.seqSt n with dwell := some (iDwell w, a.1) })));
    (s.seqTicks n = true → s.seqDue n = (w, adv) →
      ((fetched && bad) = false → seqLegal w = true →
        (iDop w = 1 → runs (.psqFetchWait seq pins bad)) ∧ (iDop w = 2 → runs (.psqFetchGo seq pins bad)) ∧
        (iDop w = 3 → runs (.psqStoreWait seq pins bad)) ∧ (iDop w = 4 → runs (.psqStoreGo seq pins bad)) ∧
        (iDop w = 5 → runs (.psqReload0 seq pins bad)) ∧ (iDop w = 6 → runs (.psqReload1 seq pins bad)) ∧
        (iDop w = 7 → runs (.psqSignal seq pins bad)) ∧ (iPop w = 1 → runs (.psqEmit seq pins bad)) ∧
        (iPop w = 2 → runs (.psqPattern seq pins bad)) ∧ (iPop w = 3 → runs (.psqCapture seq pins bad)) ∧
        (iPop w = 4 → runs (.psqExchange seq pins bad)) ∧ (iPop w = 5 → runs (.psqDirect seq pins bad)) ∧
        (iPop w = 6 → runs (.psqToggle seq pins bad)) ∧ (iFlow w = 1 → runs (.psqBranch seq pins bad)) ∧
        (iFlow w = 2 → runs (.psqFlowWait seq pins bad)) ∧ (iFlow w = 3 → runs (.psqCount seq pins bad)) ∧
        (q.dwell = none → iDop w = 0 → iPop w = 0 → iFlow w = 0 → runs (.psqDwellExpiry seq pins bad))) ∧
      ((fetched && bad) = false → seqLegal w = false → exec (.psqIllegal seq pins bad) s =
        to_ (((s.setSeq n { q with inject := none, cause := 4 }).seqHalt n 4).raisePsq F_PSQ_ILLEGAL n 0 255)) ∧
      ((fetched && bad) = true → seqLegal w = true → iFlow w = 1 → exec (.psqBranch seq pins bad) s =
        to_ ((s.seqHalt n 5).raisePsq F_PSQ_IMEM_UE n 0 255))) ∧
    (∀ (k : Nat) (next : SeqNext), q.running = true → s.seqMap n ≠ 0x3F → q.dwell = some (k, next) →
      let p1 := ({ s with psq := { s.psq with pins := pins } } : State).seqPhase n k;
      let p2 := (p1.setSeq n { p1.seqSt n with test := p1.testLevel n }).seqGo n next;
      ((bad && (p2.seqSt n).running && (p2.seqSt n).inject.isNone) = false → exec (.psqDwellExpiry seq pins bad) s = to_ p2) ∧
      ((bad && (p2.seqSt n).running && (p2.seqSt n).inject.isNone) = true → exec (.psqDwellExpiry seq pins bad) s =
        to_ ((p2.seqHalt n 5).raisePsq F_PSQ_IMEM_UE n 0 255))) ∧
    (∀ (t : State) (base : BitVec 7), t.seqAct n w base =
      ((((t.seqData n (iDop w)).seqPins n (iPop w) (iArg w)).seqStore n (iDop w)).pioShow t).seqFlow n w (t.seqCond n (iCond w)) base) ∧
    (∀ (t : State) (v : Word) (vs : List Word) (base : BitVec 7) (cond : Bool) (arg : Nat),
      let p := t.seqSt n
      let five := ((t.drivePins n).take 5).zipIdx;
      (p.tx = v :: vs → t.seqData n 1 = t.setSeq n { p with tx := vs, tsr := v, hold := v, tcnt := 0 } ∧
        t.seqData n 2 = t.setSeq n { p with tx := vs, tsr := v, hold := v, tcnt := 0 }) ∧
      (p.tx = [] → t.seqData n 2 = (t.setSeq n { p with tsr := p.hold, tcnt := 0 }).psqStale n PSQ_SEQ_CNT_TX_STALE) ∧
      t.seqData n 5 = t.setSeq n { p with lc0 := BitVec.ofNat 16 (t.rd (PSQ_SEQ_LOOP n) PSQ_SEQ_LOOP_INIT0) } ∧
      t.seqData n 6 = t.setSeq n { p with lc1 := BitVec.ofNat 16 (t.rd (PSQ_SEQ_LOOP n) PSQ_SEQ_LOOP_INIT1) } ∧
      (∀ l, t.seqSlot n = some l → t.seqData n 7 = t.setSeq n { p with signal := true }) ∧
      (t.seqSlot n = none → t.seqData n 7 = t.event .psq 0x4E 5 (n * 2 ^ 16 + p.pc.toNat) 0) ∧
      (p.rx.length < (t.fifoDepth n).2 → t.seqStore n 3 = t.setSeq n { p with rsr := 0, rcnt := 0, rx := p.rx ++ [p.rsr] } ∧
        t.seqStore n 4 = t.setSeq n { p with rsr := 0, rcnt := 0, rx := p.rx ++ [p.rsr] }) ∧
      ((t.fifoDepth n).2 ≤ p.rx.length → t.seqStore n 4 = (t.setSeq n { p with rsr := 0, rcnt := 0 }).psqStale n PSQ_SEQ_CNT_RX_DROP) ∧
      t.seqPins n 2 arg = five.foldl (fun u e => u.driveAs n e.1 fun x b => x.setPioLvl b (bitOf arg e.2)) t ∧
      t.seqPins n 5 arg = five.foldl (fun u e => u.driveAs n e.1 fun x b => x.setPioDir b (bitOf arg e.2)) t ∧
      t.seqPins n 6 arg = five.foldl (fun u e => u.driveAs n e.1 fun x b =>
        if bitOf arg e.2 then x.setPioLvl b (!x.psq.lvl.getLsbD b) else x) t ∧
      t.seqPins n 4 arg = (t.seqPins n 3 arg).seqPins n 1 arg ∧
      (iFlow w = 1 → iCond w = 0xF → t.seqFlow n w cond base = (.stop, t)) ∧
      (iFlow w = 1 → iCond w ≠ 0xF → t.seqFlow n w true base = (.goto (BitVec.ofNat 7 (iTarget w)), t) ∧
        t.seqFlow n w false base = (.goto base, t)) ∧
      (iFlow w = 2 → t.seqFlow n w cond base = (.goto base, t)) ∧
      (iFlow w = 3 → iCond w = 0xA → 1 < p.lc0.toNat →
        t.seqFlow n w cond base = (.goto (BitVec.ofNat 7 (iTarget w)), t.setSeq n { p with lc0 := p.lc0 - 1 })) ∧
      (iFlow w = 3 → iCond w = 0xA → p.lc0.toNat ≤ 1 → t.seqFlow n w cond base = (.goto base, t.setSeq n { p with lc0 := 0 })))

/-- R840, R848, R851 to R857, R860 to R862, R870, R874. -/
def Obligations.SequencersStartStopAndRemap : Prop :=
  ∀ (s : State) (port : Fin 2) (value : Word) (seq : Fin 32) (i : Fin 128) (who : Fin 18),
    let to_ := fun (t : State) => Host.Outcome.next (settle t)
    let n := seq.val;
    let q := s.seqSt n;
    let full := (s.fifoDepth n).1 ≤ q.tx.length
    (s.hears port .psq = true →
      exec (.psqStart port value) s = to_ (s.seqMask value.toNat fun t k => t.seqStart k true) ∧
      exec (.psqStop port value) s = to_ (s.seqMask value.toNat fun t k => t.seqHalt k 1) ∧
      exec (.psqClkrst port value) s = to_ (s.seqMask value.toNat fun t k => t.setSeq k { t.seqSt k with phase := 0 }) ∧
      (let time := value.toNat * 2 ^ 32 + (s.held32 PSQ_TSTART_TIME).toNat;
        let a := (s.setReg64 PSQ_TSTART_TIME time).wr PSQ_TSTART_STAT PSQ_TSTART_STAT_ARMED 1;
        let armed := { a with psq := { a.psq with timed := s.reg PSQ_TSTART_MASK } };
        (s.now ≤ time → exec (.psqTstartArm port value) s = to_ armed) ∧
        (time < s.now → exec (.psqTstartArm port value) s = to_ (armed.timedStart true))) ∧
      exec (.psqImemWrite port seq i value) s = .next (s.setSeq n { q with imem := SMap.set (fun _ => 0) q.imem i value }) ∧
      exec (.psqFifoModeWrite port seq value) s =
        .next ((s.setReg (PSQ_SEQ_SHIFT n) (value &&& 0xCF067FE0)).setSeq n { q with tx := [], rx := [] })) ∧
    (s.flag PSQ_TSTART_STAT PSQ_TSTART_STAT_ARMED = true → exec .psqTimedStart s =
      to_ ((s.wr PSQ_TSTART_STAT PSQ_TSTART_STAT_ARMED 0).seqMask s.psq.timed.toNat fun t k => t.seqStart k true)) ∧
    ((if who.val < 16 then s.inBlkReset .psq = false ∧ s.seqSlot n = some who.val else s.hears (who.val - 16) .psq = true) →
      let cause := if who.val < 16 then 2 else 1;
      exec (.psqSeqStart who seq) s = to_ (s.seqStart n false) ∧
      exec (.psqSeqStop who seq) s = to_ (s.seqHalt n cause) ∧
      exec (.psqSeqRestart who seq) s = to_ (s.seqRestart n cause) ∧
      (q.running = true → exec (.psqInject who seq value) s = to_ (s.setSeq n { q with inject := some value })) ∧
      (q.running = false → seqLegal value = false → exec (.psqInject who seq value) s = to_ (s.seqIllegal n)) ∧
      (q.running = false → seqLegal value = true → s.seqStalls n value = true → exec (.psqInject who seq value) s = to_ s) ∧
      (∀ (pc : BitVec 7) (t : State), q.running = false → seqLegal value = true → s.seqStalls n value = false →
        s.seqAct n value q.pc = (.goto pc, t) → exec (.psqInject who seq value) s = to_ (t.setSeq n { t.seqSt n with pc := pc })) ∧
      (who.val < 16 ∨ s.seqSlot n = none →
        let w := if who.val < 16 then who.val else 255;
        (¬ full → exec (.psqTxfPush who seq value) s = to_ (s.setSeq n { q with tx := q.tx ++ [value] })) ∧
        (full → exec (.psqTxfPush who seq value) s = to_ (s.raisePsq F_PSQ_WIN_ERR n 0 w)) ∧
        (q.rx = [] → exec (.psqRxfPop who seq) s = to_ { s with rdata := 0 }) ∧
        (∀ (v : Word) (vs : List Word), q.rx = v :: vs → exec (.psqRxfPop who seq) s =
          to_ { s.setSeq n { q with rx := vs } with rdata := v.toNat })) ∧
      (∀ l, 16 ≤ who.val → s.seqSlot n = some l → exec (.psqRxfPop who seq) s =
        to_ (({ s with rdata := 0 } : State).raisePsq F_PSQ_WIN_ERR n 0 255))) ∧
    (who.val < 16 → s.inBlkReset .psq = false → s.seqSlot n ≠ some who.val → exec (.psqSeqStart who seq) s =
      to_ (({ s with rdata := 0 } : State).raisePsq F_PSQ_WIN_ERR n 0 who)) ∧
    (∀ (t : State) (cause : Nat),
      ((t.seqSt n).running = false → t.seqHalt n cause = t) ∧
      ((t.seqSt n).running = true → t.seqHalt n cause =
        ((((t.setSeq n { t.seqSt n with running := false, cause := cause, stalled := none }).pinsIdle n).pioShow t).event .psq 0x4D 5
          (n * 2 ^ 16 + cause * 2 ^ 8 + (t.seqSt n).pc.toNat) 0)) ∧
      (t.seqMap n = 0x3F → t.seqStart n false = t)) ∧
    (let l := s.rd PSQ_REMAP PSQ_REMAP_LOGICAL;
      let new := s.rd PSQ_REMAP PSQ_REMAP_TO;
      let old := s.rd PSQ_REMAP PSQ_REMAP_FROM;
      s.flag PSQ_REMAP PSQ_REMAP_ACTIVE = true →
        ((s.seqSt l).running = false ∨ (s.seqSt l).stalled ≠ none →
          let r := (((s.setSeqMap l new).wr PSQ_REMAP PSQ_REMAP_ACTIVE 0).wr PSQ_REMAP PSQ_REMAP_STEP 2).bump PSQ_REMAP PSQ_REMAP_COUNT 1;
          exec .psqRemapPoint s = to_ (({ r with psq := { r.psq with worn := old :: r.psq.worn } } : State).seqRemapEvent l new old false)) ∧
        exec .psqRemapTimeout s = .next ((s.wr PSQ_REMAP PSQ_REMAP_ACTIVE 0).wr PSQ_REMAP PSQ_REMAP_STEP 3)) ∧
    (∀ (m : Fin 36), m.val ∉ s.psq.bad →
      let inRemap := s.rd PSQ_REMAP PSQ_REMAP_TO == m.val || s.rd PSQ_REMAP PSQ_REMAP_FROM == m.val
      let s0 := (if inRemap then s.dropSeqRemap else s).unitFailed kPsq m;
      let s1 : State := { s0 with psq := { s0.psq with bad := m.val :: s0.psq.bad } };
      (s.seqOfMachine m = none → exec (.psqSmFail m) s = to_ (s1.raiseFor .psq F_PSQ_SM_FAIL [0, 0, 0] 255)) ∧
      (∀ (l new : Nat) (rest : List Nat), s.seqOfMachine m = some l →
        let s2 := s1.raisePsq F_PSQ_SM_FAIL l 0 255;
        (s2.spareSeqs = new :: rest → exec (.psqSmFail m) s =
          to_ (((((s2.setSeq l { s2.seqSt l with running := false }).setSeqMap l new).seqRestart l 0).seqStart l true).seqRemapEvent l new m true)) ∧
        (s2.spareSeqs = [] → exec (.psqSmFail m) s =
          to_ ((((s2.seqHalt l 6).setSeqMap l 0x3F).outageFrom (outSeq l)).lossOf 4 l))))

/-- R880, R882 to R917. -/
def Obligations.SafetyInputsOutputsAndSupplies : Prop :=
  ∀ (s : State) (readback : BitVec 8) (ecc : Ecc) (ch : Fin 16) (level : Bool) (src : Fin 4) (reached outside : BitVec 16) (m : Fin 8)
    (fell low : BitVec 8) (ha hb : List Nat) (tenths : Fin 512) (k : Nat) (clock okA okB : Bool) (badDi : BitVec 16) (badDq : BitVec 8),
    let to_ := fun (t : State) => Host.Outcome.next (settle t)
    let shown := fun (t : State) => Host.Outcome.next (settle t.sioSync)
    let x := s.dq m;
    let pulse := "TP" ++ toString src.val;
    (s.sstate ≠ 0 →
      (let s0 := s.allDq fun t j => t.onDq j fun y => { y with readback := bitOf readback.toNat j };
        let s1 : State := { s0 with sio := { s0.sio with cntIn := (s0.sio.cntIn + 1) % 2 ^ 32 } };
        let s2 := [0, 8, 16, 24].foldl (fun t i => t.imgStore i (slice s1.inputBlock i 8)) s1;
        (∀ t, s2.outputBlock ecc = (none, t) → exec (.sioImageCycle readback ecc) s = to_ t) ∧
        (∀ bs t, s2.outputBlock ecc = (some bs, t) →
          let good := crc32c (t.reg SIO_CFG_CRC).toNat (bs.take 28) ^^^ 0xFFFFFFFF
          let cnt := ofLe (bs.take 4);
          (¬ (good = ofLe (slice bs 28 4) ∧ t.sio.cntOut ≠ some cnt) → exec (.sioImageCycle readback ecc) s =
            to_ (t.bump SIO_COMM SIO_COMM_REJECT 1)) ∧
          (good = ofLe (slice bs 28 4) → t.sio.cntOut ≠ some cnt →
            let a := ({ t with sio := { t.sio with cntOut := some cnt } } : State).wr SIO_STAT SIO_STAT_COMM_OK 1;
            exec (.sioImageCycle readback ecc) s =
              shown (t.startWindows (a.allDq fun v j => v.dqCommand j (a.cmdBit (byteAt bs 4) j)))))) ∧
      (let off := ((s.wr SIO_STAT SIO_STAT_COMM_OK 0).allDq State.dqOff).bump SIO_COMM SIO_COMM_LOSS 1;
        let lost := (off.raiseSio F_SIO_COMM_LOSS 0).sioDemand F_SIO_COMM_LOSS;
        exec .sioLinkFail s = shown lost ∧ (s.flag SIO_STAT SIO_STAT_COMM_OK = true → exec .sioCommTimeout s = shown lost)) ∧
      ((s.di ch).level ≠ level → exec (.diFilterAccept ch level) s =
        shown ((s.setDi ch { s.di ch with level := level }).pairTrack (ch / 2))) ∧
      (s.sio.stopped = false → bitOf (s.rd SIO_TP_CFG SIO_TP_CFG_TP_EN) src = true → src.val ∉ s.sio.pulses →
        exec (.tpPulseStart src) s = .next (({ s with sio := { s.sio with pulses := s.sio.pulses ++ [src.val] } } : State).setPin pulse false)) ∧
      exec .sioTick s = shown ((List.range 8).foldl State.pairTick s)) ∧
    (s.m10 = false → s.pairEn k = true → (s.pair k).dis = true → s.flag (SIO_PAIR_STAT k) SIO_PAIR_STAT_DISC_LATCH = false →
      let c := (s.pair k).count + 1;
      let t := s.setPair k { s.pair k with count := c };
      (c ≠ s.discOf k → s.pairTick k = t) ∧
      (c = s.discOf k → s.pairTick k =
        ((((t.wr (SIO_PAIR_STAT k) SIO_PAIR_STAT_DISC_LATCH 1).wr (SIO_PAIR_STAT k) SIO_PAIR_STAT_LAST (min 255 c)).setPair k
          { s.pair k with count := c, both := false }).raiseSio F_SIO_DISC k).pairEvent k 1)) ∧
    (s.pairValue k = true ↔ s.m10 = false ∧ s.pairEn k = true ∧ (s.di (2 * k)).level = true ∧ (s.di (2 * k + 1)).level = false ∧
      (s.di (2 * k)).failed = false ∧ (s.di (2 * k + 1)).failed = false ∧
      s.flag (SIO_PAIR_STAT k) SIO_PAIR_STAT_DISC_LATCH = false ∧ s.flag SIO_STAT SIO_STAT_L1_OK = true) ∧
    (src.val ∈ s.sio.pulses →
      let s1 := ({ s with sio := { s.sio with pulses := s.sio.pulses.filter (· != src.val) } } : State).setPin pulse true;
      let s2 := (List.range 16).foldl (fun t c => (t.feed c).elim t fun f =>
        if f = src.val then t.ownPulse c (bitOf reached.toNat c) else t.crossPulse c src (bitOf outside.toNat c)) s1;
      let missed : Nat := SMap.get (fun _ => 0) s2.sio.srcMiss src;
      let put := fun (v : Nat) => ({ s2 with sio := { s2.sio with srcMiss := SMap.set (fun _ => 0) s2.sio.srcMiss src v } } : State);
      exec (.tpPulseEnd src reached outside true) s = shown (put 0) ∧
      (missed = 0 → exec (.tpPulseEnd src reached outside false) s = shown (put 1)) ∧
      (1 ≤ missed → exec (.tpPulseEnd src reached outside false) s = shown ((List.range 16).foldl (fun t c =>
        if t.feed c == some src.val && !(t.di c).failed then (t.setDi c { t.di c with failed := true, acked := false }).pairEvent (c / 2) 3
        else t) ((put 0).raiseSio F_SIO_TP_FAULT src)))) ∧
    (x.on = true →
      (s.testGroup m ≠ [] → exec (.dqTestStart m) s = shown ((s.testGroup m).foldl State.dqTest s)) ∧
      exec (.dqOverloadTrip m) s = shown ((s.setDq m { x with
        on := false, test := false, trip := 4, cooling := true, wait := true, seen := false }).raiseSio F_SIO_DQ_OVERLOAD m) ∧
      exec (.dqThermalTrip m) s = shown ((s.setDq m { x with
        on := false, test := false, trip := 5, cooling := true, wait := true, seen := false }).raiseSio F_SIO_DQ_THERMAL m)) ∧
    (x.trip = 4 → exec (.dqOverloadRestartTimeout m) s = .next (s.setDq m { x with cooling := false })) ∧
    (x.trip = 5 → exec (.dqThermalCooled m) s = .next (s.setDq m { x with cooling := false })) ∧
    (x.test = true →
      let group := (s.testGroup m).filter fun j => (s.dq j).test
      let g := if group.isEmpty then [m.val] else group
      let shorted := (List.range 8).filter fun a => !g.contains a && (s.dq a).on && bitOf low.toNat a;
      exec (.dqTestEnd m fell low ha hb) s = shown (shorted.foldl (fun t a =>
          ((t.dqFail (min m a) 8 F_SIO_DQ_XSHORT).dqFail (max m a) 8 F_SIO_DQ_XSHORT))
        (g.foldl (fun t j => t.testEnd j (bitOf fell.toNat j) (ha.getD j 0) (hb.getD j 0)) s))) ∧
    (x.on = false → x.test = false → x.fail = 0 →
      exec (.dqOffSettleCheck m true) s = shown ((s.setDq m { x with readback := true }).dqFail m 7 F_SIO_DQ_STUCK) ∧
      exec (.dqOffSettleCheck m false) s = .next (s.setDq m { x with readback := false })) ∧
    (let v2 := s.wr SIO_SUPPLY SIO_SUPPLY_L2 tenths;
      let v1 := s.wr SIO_SUPPLY SIO_SUPPLY_L1 tenths;
      (192 ≤ tenths.val → exec (.l2Sag tenths) s = shown v2 ∧ exec (.l2Recovered tenths) s = shown (v2.wr SIO_STAT SIO_STAT_L2_OK 1) ∧
        (s.sio.stopped = false → exec (.l1Sag tenths) s = shown v1 ∧ exec (.l1Recovered tenths) s = shown (v1.wr SIO_STAT SIO_STAT_L1_OK 1)) ∧
        (s.sio.stopped = true → let r := v1.wr SIO_STAT SIO_STAT_L1_OK 1;
          exec (.l1Recovered tenths) s =
            shown (({ r with sio := { r.sio with stopped := false } } : State).setPin "SOTE" (r.flag SIO_STAT SIO_STAT_SOTE)))) ∧
      (tenths.val < 192 → v2.flag SIO_STAT SIO_STAT_L2_OK = true →
        let a := (v2.wr SIO_STAT SIO_STAT_L2_OK 0).raiseSio F_SIO_L2_LOW 0;
        (168 ≤ tenths.val → exec (.l2Sag tenths) s = shown a) ∧
        (tenths.val < 168 → a.flag SIO_STAT SIO_STAT_L2_LATCH = false →
          let b := ((a.allDq State.dqHold).wr SIO_STAT SIO_STAT_L2_LATCH 1).raiseSio F_SIO_L2_OFF 0;
          exec (.l2Sag tenths) s = shown (b.event .sio 0x53 6 (2 ^ 31 + b.rd SIO_SUPPLY SIO_SUPPLY_L1 * 2 ^ 16 + tenths.val) 0))) ∧
      (tenths.val < 192 → v1.flag SIO_STAT SIO_STAT_L1_OK = true →
        let a := (v1.wr SIO_STAT SIO_STAT_L1_OK 0).raiseSio F_SIO_L1_LOW 0;
        (168 ≤ tenths.val → exec (.l1Sag tenths) s = shown a) ∧
        (tenths.val < 168 → a.sio.stopped = false → exec (.l1Sag tenths) s =
          shown (({ a with sio := { a.sio with stopped := true, pulses := [] } } : State).setPin "SOTE" false)))) ∧
    (let f := if clock = true then F_SIO_CLK_FAULT else F_SIO_INTERNAL;
      exec (.safetyDomainReset clock) s = to_ (((s.raiseSio f 0).sioReset f).later (.safe 5))) ∧
    (s.sstate = 0 → s.m10 = false →
      let t := ((s.sioCopies okA okB).sioReload).sioLogShow;
      let bad := t.sioSaved.isNone
      let u := ({ t with sio := { t.sio with badCfg := bad } } : State).wr SIO_STAT SIO_STAT_PWD_SET (b2n t.nvm.sio.pwd.isSome)
      let v := if bad = true then u.raiseSio F_SIO_CFG_CRC 0 else u
      let w := (List.range 16).foldl (fun y c => if bitOf badDi.toNat c then y.diFail c F_SIO_DI_TEST else y) v
      let z := (List.range 8).foldl (fun y j => if bitOf badDq.toNat j then y.dqFail j 7 F_SIO_DQ_STUCK else y) w;
      exec (.sioInitDone okA okB badDi badDq) s = to_ ((z.sioTo 1 0xF).sioFollow))

/-- R876, R914, R916, R921 to R929. The salt of R924 is a free value (log entry 1). -/
def Obligations.SafetyConfigurationAndCommands : Prop :=
  ∀ (s : State) (port : Fin 2) (reg : Fin 13) (value : Word) (ring : Fin 512) (p0 p1 p2 : BitVec 64) (bs cs new : List Byte)
    (high : BitVec 8) (pair : Fin 4),
    let to_ := fun (t : State) => Host.Outcome.next (settle t)
    let u := s.take ring;
    let off := sioCfgOffs.getD reg 0;
    let unlocked := u.flag SIO_STAT SIO_STAT_UNLOCKED
    (s.hears port .sio = true →
      (s.mode = .config → s.m10 = true ∨ s.flag SIO_STAT SIO_STAT_UNLOCKED = true → exec (.sioCfgWrite port reg value) s =
        to_ (((s.regWrite off value).sioPend).sioSync)) ∧
      (s.mode ≠ .config ∨ (s.m10 = false ∧ s.flag SIO_STAT SIO_STAT_UNLOCKED = false) → exec (.sioCfgWrite port reg value) s =
        to_ (s.raiseSio F_SIO_CFG_WRITE 0))) ∧
    (s.m10 = true → s.canTake ring = true →
      exec (.sioUnlock ring p0 (some bs)) s = to_ (u.finish ring 0xA0 stUnsupported 0) ∧
      exec (.sioLock ring) s = to_ (u.finish ring 0xA1 stUnsupported 0) ∧
      exec (.sioCommit ring p0 p1) s = to_ (u.finish ring 0xA2 stUnsupported 0) ∧
      exec (.sioPwdSet ring p0 (some bs)) s = to_ (u.finish ring 0xA3 stUnsupported 0) ∧
      exec (.sioAck ring p0 high) s = to_ (u.finish ring 0xA4 stUnsupported 0)) ∧
    (s.m10 = false → s.takes ring configOnly = true →
      (u.nvm.sio.pwd = none → exec (.sioUnlock ring p0 (some bs)) s = to_ (u.finish ring 0xA0 stBadState 0)) ∧
      (u.nvm.sio.pwd ≠ none → u.sio.lockout = true → exec (.sioUnlock ring p0 (some bs)) s = to_ (u.finish ring 0xA0 stRefused 0)) ∧
      (u.nvm.sio.pwd ≠ none → u.sio.lockout = false →
        exec (.sioUnlock ring p0 none) s = to_ ((u.dmaError (u.ring ring).port p0.toNat 8).finish ring 0xA0 stDmaErr 0) ∧
        (pwdOf bs = none → exec (.sioUnlock ring p0 (some bs)) s = to_ (u.finish ring 0xA0 stBadParam 0)) ∧
        (pwdOf bs = some cs →
          (u.pwdOk cs = true → exec (.sioUnlock ring p0 (some bs)) s =
            to_ ((({ u with sio := { u.sio with wrongPwd := 0 } } : State).wr SIO_STAT SIO_STAT_UNLOCKED 1).finish ring 0xA0 stOk 0)) ∧
          (u.pwdOk cs = false → exec (.sioUnlock ring p0 (some bs)) s =
            to_ ((({ u with sio := { u.sio with wrongPwd := u.sio.wrongPwd + 1, lockout := decide (5 ≤ u.sio.wrongPwd + 1) } } : State).raiseSio
              F_SIO_PWD_FAIL 0).finish ring 0xA0 stBadParam 0)))) ∧
      (unlocked = false → exec (.sioLock ring) s = to_ (u.finish ring 0xA1 stBadState 0) ∧
        exec (.sioCommit ring p0 p1) s = to_ (u.finish ring 0xA2 stBadState 0)) ∧
      (unlocked = true →
        exec (.sioLock ring) s = to_ ((((u.wr SIO_STAT SIO_STAT_UNLOCKED 0).sioReload).sioSync).finish ring 0xA1 stOk 0) ∧
        (let ver := p0.toNat % 2 ^ 32;
          (u.commitOk ver (p1.toNat % 2 ^ 32) = false → exec (.sioCommit ring p0 p1) s = to_ (u.finish ring 0xA2 stBadParam 0)) ∧
          (u.commitOk ver (p1.toNat % 2 ^ 32) = true →
            let c : SioCopy := ⟨u.sioWords, ver, true⟩;
            let a : State := { u with
              nvm := { u.nvm with sio := { u.nvm.sio with a := c, b := c } }, sio := { u.sio with badCfg := false } };
            let b := a.sioLog 1 (u.ring ring).port (cfgCrc c.words) (u.reg SIO_CFG_VER).toNat ver;
            let d := ((b.setReg SIO_CFG_CRC (BitVec.ofNat 32 (cfgCrc c.words))).setReg SIO_CFG_VER (BitVec.ofNat 32 ver)).wr SIO_STAT
              SIO_STAT_UNLOCKED 0;
            exec (.sioCommit ring p0 p1) s = to_ (d.sioSync.finish ring 0xA2 stOk 0)))) ∧
      (u.sio.lockout = true → exec (.sioPwdSet ring p0 (some bs)) s = to_ (u.finish ring 0xA3 stRefused 0)) ∧
      (u.sio.lockout = false →
        (pwdOf (bs.drop 33) = none → exec (.sioPwdSet ring p0 (some bs)) s = to_ (u.finish ring 0xA3 stBadParam 0)) ∧
        (pwdOf (bs.drop 33) = some new → u.nvm.sio.pwd = none ∨ (pwdOf bs = some cs ∧ u.pwdOk cs = true) →
          let t := u.rightPwd.salt.2;
          let w : State := { t with nvm := { t.nvm with sio := { t.nvm.sio with
            pwd := some (u.rightPwd.salt.1, Config.sha384 (u.rightPwd.salt.1 ++ new)) } } };
          let v := (w.reg SIO_CFG_VER).toNat;
          exec (.sioPwdSet ring p0 (some bs)) s = to_ (((w.sioLog 2 (w.ring ring).port (w.reg SIO_CFG_CRC).toNat v v).wr SIO_STAT
            SIO_STAT_PWD_SET 1).finish ring 0xA3 stOk 0)) ∧
        (pwdOf (bs.drop 33) = some new → u.nvm.sio.pwd ≠ none → pwdOf bs = none ∨ (pwdOf bs = some cs ∧ u.pwdOk cs = false) →
          exec (.sioPwdSet ring p0 (some bs)) s = to_ (u.wrongPwd.finish ring 0xA3 stBadParam 0)))) ∧
    (s.takes ring Mode.working = true →
      let low := fun (m : Nat) => bitOf high.toNat m && !(u.dq m).on && !(u.dq m).test
      let stuck := (List.range 8).any low
      let held := fun (t : State) (m : Nat) => if (t.dq m).on = true then t else t.dqHold m;
      (s.m10 = false →
        (p0.toNat % 2 ^ 32 ≠ (u.reg SIO_CFG_CRC).toNat → exec (.sioAck ring p0 high) s = to_ (u.finish ring 0xA4 stBadParam 0)) ∧
        (p0.toNat % 2 ^ 32 = (u.reg SIO_CFG_CRC).toNat →
          (u.sstate = 0 ∨ u.sio.badCfg = true ∨ u.flag SIO_STAT SIO_STAT_COMM_OK = false ∨ u.flag SIO_STAT SIO_STAT_L1_OK = false ∨
            stuck = true → exec (.sioAck ring p0 high) s = to_ (u.finish ring 0xA4 stBadState 0)) ∧
          (u.sstate ≠ 0 → u.sio.badCfg = false → u.flag SIO_STAT SIO_STAT_COMM_OK = true → u.flag SIO_STAT SIO_STAT_L1_OK = true →
            stuck = false →
            let a := (List.range 16).foldl (fun t ch =>
              if (t.di ch).failed = true then t.setDi ch { t.di ch with
                failed := (t.feed ch).isSome, acked := (t.feed ch).isSome, missed := 0 } else t) u;
            let b := a.allDq fun t m => t.onDq m fun x =>
              if x.fail ≠ 0 then { x with fail := 0, missed := 1, wait := true, seen := false } else x;
            exec (.sioAck ring p0 high) s = to_ ((((b.wr SIO_STAT SIO_STAT_ACK_OK 1).recoveryWindows).sioSync).finish ring 0xA4 stOk 0)))) ∧
      (u.flag SIO_STAT SIO_STAT_L2_OK = false → exec (.sioOutEnable ring) s = to_ (u.finish ring 0xA5 stBadState 0)) ∧
      (u.flag SIO_STAT SIO_STAT_L2_OK = true → exec (.sioOutEnable ring) s =
        to_ (((((u.wr SIO_STAT SIO_STAT_L2_LATCH 0).allDq held).recoveryWindows).sioSync).finish ring 0xA5 stOk 0)) ∧
      (let n := p1.toNat % 512;
        (n < 1 ∨ 256 < n → exec (.sioLogRead ring p0 p1 p2) s = to_ (u.finish ring 0xA6 stBadParam 0)) ∧
        (1 ≤ n → n ≤ 256 → exec (.sioLogRead ring p0 p1 p2) s =
          to_ (u.writeHost ring 0xA6 p2.toNat ((u.nvm.sio.log.reverse.drop (p0.toNat % 256)).take n).flatten 0))) ∧
      (let outs := (List.range 8).filter fun m => bitOf p0.toNat m;
        let pairs := (List.range 4).filter fun j => bitOf p0.toNat (8 + j);
        let off := (outs.any fun m => !(u.dq m).on) || pairs.any fun j => !(u.dq (2 * j)).on || !(u.dq (2 * j + 1)).on;
        (u.sstate ≠ 2 ∨ off = true → exec (.sioTest ring p0) s = to_ (u.finish ring 0xA7 stBadState 0)) ∧
        (u.sstate = 2 → off = false → exec (.sioTest ring p0) s = to_ (((outs.foldl State.dqTest (pairs.foldl (fun t j =>
          if t.joinAble j then t.joinWindow j 2 else t.raiseSio F_SIO_PAR_WINDOW j) u)).sioSync).finish ring 0xA7 stOk 0)))) ∧
    (s.m10 = false → s.flag SIO_STAT SIO_STAT_UNLOCKED = true → exec .sioUnlockTimeout s =
      to_ (((s.wr SIO_STAT SIO_STAT_UNLOCKED 0).sioReload).sioSync)) ∧
    (s.sio.lockout = true → exec .pwdLockoutEnd s = .next { s with sio := { s.sio with lockout := false, wrongPwd := 0 } }) ∧
    exec .ackOkTimeout s = .next (s.wr SIO_STAT SIO_STAT_ACK_OK 0) ∧
    exec (.parStartExpiry pair) s =
      to_ (({ s with sio := { s.sio with windows := SMap.set (fun _ => 0) s.sio.windows pair 0 } } : State).sioSync)

/-- R190, R191, R946, R954, R958, R963, R964, R970 to R982. -/
def Obligations.FaultRegistersLogsAndWear : Prop :=
  ∀ (s : State) (port : Fin 2) (blk : BitVec 12) (b : BlkId) (value : Word) (k : Fin 64) (ring : Fin 512) (p0 p1 p2 : BitVec 64)
    (measures : List (Fin 13 × Fin 128 × Option Nat)) (cycles : List (Fin 16 × Nat)) (kind unit : Nat) (raw : Option Nat),
    let to_ := fun (t : State) => Host.Outcome.next (settle t)
    let u := s.take ring;
    (blkOf blk.toNat = some b → s.hears port b = true →
      (s.mode = .boot ∨ s.mode = .standby → exec (.faultForce port blk value) s = to_ s) ∧
      (s.mode ≠ .boot → s.mode ≠ .standby → exec (.faultForce port blk value) s = to_ (b.sources.foldl (fun t r =>
        if bitOf value.toNat r.bit && s.mayForce b r.bit then t.later (.occur b r.bit [0, 0, 0] 255 true) else t) s)) ∧
      (let keys := ((List.range 24).filter fun i => bitOf value.toNat i).map (srcKey b);
        let s1 := s.regWrite (FSTAT b) value;
        let s2 : State := { s1 with faults := { s1.faults with
          srcs := keys.foldl (fun m i => SMap.set (fun _ => none) m i none) s1.faults.srcs } };
        (s.faults.outageSrc = none → exec (.fstatWrite port blk value) s = .next s2.fltSettle) ∧
        (∀ c, s.faults.outageSrc = some c →
          (c ∉ keys → exec (.fstatWrite port blk value) s = .next s2.fltSettle) ∧
          (c ∈ keys → exec (.fstatWrite port blk value) s =
            .next ({ s2.availEnd with faults := { s2.availEnd.faults with outageSrc := none } } : State).fltSettle)))) ∧
    (blkOf blk.toNat = none →
      exec (.faultForce port blk value) s = to_ (s.raise .hif F_HIF_REG_UNMAPPED [blk.toNat * 4096 + 0xF08, 20 + port.val, 5]) ∧
      exec (.fstatWrite port blk value) s = to_ (s.raise .hif F_HIF_REG_UNMAPPED [blk.toNat * 4096 + 0xF00, 20 + port.val, 5])) ∧
    exec (.holdWindowEnd k) s = .next { s with faults := { s.faults with holds := s.faults.holds.eraseIdx k } } ∧
    exec .fltPulseEnd s = .next ({ s with faults := { s.faults with pulse := false } } : State).fltSettle ∧
    (s.hears port .hlth = true →
      let i := s.rd HLTH_SEL HLTH_SEL_KIND;
      let n := s.rd HLTH_SEL HLTH_SEL_UNIT;
      (bitOf value.toNat 30 = true → n < kindUnits.getD i 0 → s.swapThr i ≤ s.health i n →
        exec (.hlthWornClear port value) s = .next (s.setWear i n { s.wear i n with worn := false })) ∧
      (bitOf value.toNat 30 = false ∨ kindUnits.getD i 0 ≤ n ∨ s.health i n < s.swapThr i →
        exec (.hlthWornClear port value) s = .next s)) ∧
    (s.takes ring Mode.working = true →
      let n := p1.toNat % 256;
      (n < 1 ∨ 128 < n → exec (.hlthLogRead ring p0 p1 p2) s = to_ (u.finish ring 0xB0 stBadParam 0)) ∧
      (1 ≤ n → n ≤ 128 → exec (.hlthLogRead ring p0 p1 p2) s =
        let es := (u.faultLog.drop (p0.toNat % 128)).take n;
        to_ (u.writeHost ring 0xB0 p2.toNat (es.map LogEntry.bytes).flatten es.length))) ∧
    (s.boot.porst = false → exec .faultLogFlush s = .next s.flushFaultLog ∧
      exec .wearRecordFlush s = .next (s.bump HLTH_HOURS HLTH_HOURS_HOURS 1).flushWear) ∧
    (s.firmware = true →
      let s1 := ((s.setReg WADI_PERIOD (s.reg WADI_PERIOD + 1)).memPeriod).enginePeriod;
      let s3 := measures.foldl (fun t e => t.measureUnit e.1 e.2.1 e.2.2) (cycles.foldl (fun t e => t.thermalCycles e.1 e.2) s1);
      (s3.rd (WADI_FUNC 7) WADI_FUNC_CUR = 1 → exec (.decisionPeriodEnd measures cycles) s = to_ s3.sioSync) ∧
      (s3.rd (WADI_FUNC 7) WADI_FUNC_CUR ≠ 1 → exec (.decisionPeriodEnd measures cycles) s =
        to_ ((List.range 16).foldl State.accumulate s3).sioSync)) ∧
    (unit < kindUnits.getD kind 0 → kind ≠ kMac ∨ s.linkUp unit = true →
      let r := s.ownMeasure kind unit raw;
      let t := (s.showMeasure kind unit r).measure kind unit r;
      (s.swapThr kind ≤ s.health kind unit → t.health kind unit < t.swapThr kind → s.measureUnit kind unit raw = t.crossed kind unit) ∧
      (s.health kind unit < s.swapThr kind ∨ t.swapThr kind ≤ t.health kind unit → s.measureUnit kind unit raw = t))

/-- R90, R127, R966, R1000, R1004, R1005, R1008, R1025 to R1032. -/
def Obligations.SuppliesSoftStartAndTemperature : Prop :=
  ∀ (s : State) (mv temp v33 : BitVec 16) (rail : Fin 16),
    let to_ := fun (t : State) => Host.Outcome.next (settle t)
    let x := s.pwr;
    let with_ := fun (t : State) (p : PwrSt) => ({ t with pwr := p } : State);
    let v := mv.toNat;
    let seen := s.wr PWR_VMON PWR_VMON_V12 v;
    (x.on = false → x.charging = false →
      exec .inputSupplyApplied s = .next (with_ s { x with charging := true, fails := 0 }) ∧
      (1 ≤ x.fails → x.fails < 3 → exec .softStartRetry s = .next (with_ s { x with charging := true })) ∧
      (x.fails = 0 ∨ 3 ≤ x.fails → exec .softStartRetry s = .next s)) ∧
    (x.charging = true →
      exec .softStartOn s = .next ((with_ s { x with
        charging := false, on := true, fails := 0, supply := true, rails := true, low := false, powerUp := true }).driveFlt).pwrShow ∧
      exec .softStartTimeout s =
        .next ((with_ s { x with charging := false, fails := x.fails + 1 }).bump PWR_CNT PWR_CNT_SS_FAIL 1)) ∧
    (x.on = true →
      (10000 ≤ v → v < 10800 →
        (x.low = false → s.boot.porst = false → exec (.logicSupplyLow mv) s =
          to_ ((with_ seen { x with low := true }).pwrShow.raise .pwr F_PWR_LOGIC_LOW [v])) ∧
        (x.low = true ∨ s.boot.porst = true → exec (.logicSupplyLow mv) s = to_ (with_ seen { x with low := true }).pwrShow)) ∧
      (v < 10000 →
        (s.boot.porst = false → exec (.logicSupplyLow mv) s = .next ((with_ s { x with supply := false }).porst false true).pwrShow) ∧
        (s.boot.porst = true → exec (.logicSupplyLow mv) s = .next (with_ s { x with supply := false }).pwrShow))) ∧
    (10800 ≤ v → exec (.logicSupplyRecover mv) s =
      .next ((with_ s { x with supply := true, low := false }).release.wr PWR_VMON PWR_VMON_V12 v).pwrShow) ∧
    (x.rails = true → s.boot.porst = false → exec (.railFail rail) s =
      to_ ((with_ s { x with rails := false }).pwrShow.raise .pwr F_PWR_RAIL_FAIL [rail.val])) ∧
    (x.rails = false ∨ s.boot.porst = true → exec (.railFail rail) s = .next (with_ s { x with rails := false }).pwrShow) ∧
    (let t := temp.toInt
      let hot : Bool := if 1080 ≤ t then true else if t < 800 then false else x.hot
      let high : Bool := decide (s.tempHigh ≤ t)
      let crit : Bool := decide (1000 ≤ t)
      let old := signedOf 16 (s.rd PWR_TEMP PWR_TEMP_MAX)
      let shown := ((seen.wr PWR_VMON PWR_VMON_V33 v33.toNat).wr PWR_TEMP PWR_TEMP_NOW temp.toNat).wr PWR_TEMP PWR_TEMP_MAX
        (if old < t then temp.toNat else toBits 16 old)
      let now := with_ shown { x with hot := hot, high := high, crit := crit };
      (s.boot.porst = true → exec (.tempSample temp mv v33) s = .next (with_ s { x with hot := hot })) ∧
      (s.boot.porst = false →
        (hot = true → exec (.tempSample temp mv v33) s = .next (now.porst false false).pwrShow) ∧
        (hot = false →
          ((high && !x.high) = false → (crit && !x.crit) = false → exec (.tempSample temp mv v33) s = to_ now) ∧
          ((high && !x.high) = true → (crit && !x.crit) = false → exec (.tempSample temp mv v33) s =
            to_ (now.raise .pwr F_PWR_TEMP_HIGH [temp.toNat])) ∧
          ((high && !x.high) = false → (crit && !x.crit) = true → exec (.tempSample temp mv v33) s =
            to_ (now.raise .pwr F_PWR_TEMP_CRIT [temp.toNat])) ∧
          ((high && !x.high) = true → (crit && !x.crit) = true → exec (.tempSample temp mv v33) s =
            to_ ((now.raise .pwr F_PWR_TEMP_HIGH [temp.toNat]).raise .pwr F_PWR_TEMP_CRIT [temp.toNat])))))

/-- R142 to R145, R177. -/
def Obligations.FarAccessesAreAnsweredOrEnd : Prop :=
  ∀ (s : State) (n : Fin 18) (ecc : Ecc),
    let to_ := fun (t : State) => Host.Outcome.next (settle t)
    let e := s.pe n;
    (∀ (addr : Nat) (kind : LoadKind) (rd : Fin 32), e.stall = some (.load addr kind rd) → e.wbuf = [] →
      (e.inReset = false →
        (∀ (v : Nat) (t : State), s.farLoad n addr kind.size ecc = (some v, t) → exec (.farLoadReturn n ecc) s =
          to_ ((t.putLoad n kind rd v).endStall n)) ∧
        (∀ t, s.farLoad n addr kind.size ecc = (none, t) → exec (.farLoadReturn n ecc) s = .next t) ∧
        (∀ (off : Nat) (t : State), regionOf addr = .bank off →
          (∀ bs, s.bankLoad n e.ownerCode (off / 0x20000) (off % 0x20000) kind.size false ecc = (.data bs, t) →
            exec (.farLoadReturn n ecc) s = to_ ((t.putLoad n kind rd (ofLe bs)).endStall n)) ∧
          (s.bankLoad n e.ownerCode (off / 0x20000) (off % 0x20000) kind.size false ecc = (.denied, t) →
            exec (.farLoadReturn n ecc) s = to_ (((t.raiseAcc n F_PE_BANK_OWN addr kind.size false).putLoad n kind rd 0).endStall n)) ∧
          (s.bankLoad n e.ownerCode (off / 0x20000) (off % 0x20000) kind.size false ecc = (.poisoned, t) →
            exec (.farLoadReturn n ecc) s = to_ ((t.putLoad n kind rd 0).endStall n)))) ∧
      exec (.farTimeout n) s = to_ (((s.raiseAcc n F_PE_FAR_TIMEOUT addr kind.size false).putLoad n kind rd 0).endStall n)) ∧
    (∀ (st : FarStore) (rest : List FarStore), e.wbuf = st :: rest →
      (∀ t, s.farStore n st ecc = (true, t) → exec (.farStoreAccepted n ecc) s = to_ (t.wbufPop n)) ∧
      (∀ t, s.farStore n st ecc = (false, t) → exec (.farStoreAccepted n ecc) s = .next t) ∧
      (∀ (off : Nat) (t : State), st.to_ = .bus → regionOf st.addr = .bank off →
        (∀ bs, s.bankStore n e.ownerCode (off / 0x20000) (off % 0x20000) st.data false ecc = (.data bs, t) →
          exec (.farStoreAccepted n ecc) s = to_ (t.wbufPop n)) ∧
        (s.bankStore n e.ownerCode (off / 0x20000) (off % 0x20000) st.data false ecc = (.denied, t) →
          exec (.farStoreAccepted n ecc) s = to_ ((t.raiseAcc n F_PE_BANK_OWN st.addr st.data.length true).wbufPop n))) ∧
      exec (.farTimeout n) s = to_ ((s.raiseAcc n F_PE_FAR_TIMEOUT st.addr st.data.length true).wbufPop n))
end

