-- ==== Sys2Proof/Laws/Map.lean ====
section
/-! SUPPORT. What reading and writing a sparse map does, and that a write keeps the canonical form. -/

namespace Sys2Proof.Machine

variable {β : Type} [DecidableEq β] (d : Nat → β)

/-- A canonical map above a bound is canonical above every smaller one. -/
theorem SMap.wfFrom_mono {m : SMap β} {lo lo' : Nat} (h : lo' ≤ lo) (w : SMap.wfFrom d lo m = true) :
    SMap.wfFrom d lo' m = true := by
  cases m with
  | nil => rfl
  | cons e m =>
    obtain ⟨k, v⟩ := e
    simp only [SMap.wfFrom, Bool.and_eq_true, decide_eq_true_eq] at w ⊢
    exact ⟨⟨by omega, w.1.2⟩, w.2⟩

/-- Below its bound a canonical map reads as unlisted. -/
theorem SMap.get_below {m : SMap β} {lo k : Nat} (w : SMap.wfFrom d lo m = true) (h : k < lo) :
    SMap.get d m k = d k := by
  cases m with
  | nil => rfl
  | cons e m =>
    obtain ⟨k', v⟩ := e
    simp only [SMap.wfFrom, Bool.and_eq_true, decide_eq_true_eq] at w
    have h1 : k ≠ k' := by omega
    have h2 : k < k' := by omega
    simp [SMap.get, h1, h2]

/-- A write reads back, above any bound. -/
theorem SMap.get_set_self_from {m : SMap β} {lo : Nat} (w : SMap.wfFrom d lo m = true) (k : Nat) (v : β) :
    SMap.get d (SMap.set d m k v) k = v := by
  induction m generalizing lo with
  | nil =>
    by_cases h : v = d k
    · simp [SMap.set, SMap.get, h]
    · simp [SMap.set, SMap.get, h]
  | cons e m ih =>
    obtain ⟨k', v'⟩ := e
    simp only [SMap.wfFrom, Bool.and_eq_true, decide_eq_true_eq] at w
    by_cases h1 : k < k'
    · have h3 : k ≠ k' := by omega
      by_cases h : v = d k
      · simp [SMap.set, h1, h, SMap.get, h3]
      · simp [SMap.set, h1, h, SMap.get]
    · by_cases h2 : k = k'
      · subst h2
        by_cases h : v = d k
        · simpa [SMap.set, h] using SMap.get_below d w.2 (Nat.lt_succ_self k)
        · simp [SMap.set, h, SMap.get]
      · simpa [SMap.set, SMap.get, h1, h2] using ih w.2

/-- A write leaves every other key alone, above any bound. -/
theorem SMap.get_set_other_from {m : SMap β} {lo : Nat} (w : SMap.wfFrom d lo m = true) {k j : Nat} (n : j ≠ k)
    (v : β) : SMap.get d (SMap.set d m k v) j = SMap.get d m j := by
  induction m generalizing lo with
  | nil =>
    by_cases h : v = d k
    · simp [SMap.set, h]
    · simp [SMap.set, SMap.get, h, n]
  | cons e m ih =>
    obtain ⟨k', v'⟩ := e
    simp only [SMap.wfFrom, Bool.and_eq_true, decide_eq_true_eq] at w
    by_cases h1 : k < k'
    · by_cases h : v = d k
      · simp [SMap.set, h1, h]
      · simp only [SMap.set, h1, h, if_true, if_false, SMap.get, n]
        by_cases h4 : j < k
        · have : j ≠ k' := by omega
          have : j < k' := by omega
          simp [*]
        · simp [h4]
    · by_cases h2 : k = k'
      · subst h2
        by_cases h : v = d k
        · simp only [SMap.set, h, if_true, Nat.lt_irrefl, if_false, SMap.get, n]
          by_cases h4 : j < k
          · simpa [h4] using SMap.get_below d w.2 (by omega)
          · simp [h4]
        · simp [SMap.set, h, SMap.get, n]
      · simp only [SMap.set, h1, h2, if_false, SMap.get]
        by_cases h5 : j = k'
        · simp [h5]
        · by_cases h6 : j < k'
          · simp [h5, h6]
          · simpa [h5, h6] using ih w.2

/-- A write keeps the canonical form, above any bound that is at most the key. -/
theorem SMap.wfFrom_set {m : SMap β} {lo : Nat} (w : SMap.wfFrom d lo m = true) {k : Nat} (hk : lo ≤ k) (v : β) :
    SMap.wfFrom d lo (SMap.set d m k v) = true := by
  induction m generalizing lo with
  | nil =>
    by_cases h : v = d k
    · simp [SMap.set, h, SMap.wfFrom]
    · simp [SMap.set, SMap.wfFrom, h, hk]
  | cons e m ih =>
    obtain ⟨k', v'⟩ := e
    have w' := w
    simp only [SMap.wfFrom, Bool.and_eq_true, decide_eq_true_eq] at w
    by_cases h1 : k < k'
    · by_cases h : v = d k
      · simpa [SMap.set, h1, h] using w'
      · simp only [SMap.set, h1, h, if_true, if_false, SMap.wfFrom, Bool.and_eq_true, decide_eq_true_eq]
        exact ⟨⟨hk, by simp [h]⟩, ⟨⟨by omega, w.1.2⟩, w.2⟩⟩
    · by_cases h2 : k = k'
      · subst h2
        by_cases h : v = d k
        · simpa [SMap.set, h] using SMap.wfFrom_mono d (by omega) w.2
        · simp only [SMap.set, h, if_false, Nat.lt_irrefl, if_true, SMap.wfFrom, Bool.and_eq_true,
            decide_eq_true_eq]
          exact ⟨⟨hk, by simp [h]⟩, w.2⟩
      · simp only [SMap.set, h1, h2, if_false, SMap.wfFrom, Bool.and_eq_true, decide_eq_true_eq]
        exact ⟨w.1, ih w.2 (by omega)⟩

/-- Read after write. -/
theorem SMap.get_set_self {m : SMap β} (w : SMap.wf d m = true) (k : Nat) (v : β) :
    SMap.get d (SMap.set d m k v) k = v := SMap.get_set_self_from d w k v

/-- A write leaves every other key alone. -/
theorem SMap.get_set_other {m : SMap β} (w : SMap.wf d m = true) {k j : Nat} (n : j ≠ k) (v : β) :
    SMap.get d (SMap.set d m k v) j = SMap.get d m j := SMap.get_set_other_from d w n v

/-- A write keeps the canonical form. -/
theorem SMap.wf_set {m : SMap β} (w : SMap.wf d m = true) (k : Nat) (v : β) :
    SMap.wf d (SMap.set d m k v) = true := SMap.wfFrom_set d w (Nat.zero_le k) v

/-- Entries mapped to their own keys or dropped, and never to what an unlisted key reads as, keep the canonical form. -/
theorem SMap.wfFrom_filterMap {m : SMap β} {lo : Nat} (w : SMap.wfFrom d lo m = true) (f : Nat × β → Option (Nat × β))
    (hf : ∀ e e', e.2 ≠ d e.1 → f e = some e' → e'.1 = e.1 ∧ e'.2 ≠ d e'.1) :
    SMap.wfFrom d lo (m.filterMap f) = true := by
  induction m generalizing lo with
  | nil => rfl
  | cons e m ih =>
    obtain ⟨k, v⟩ := e
    simp only [SMap.wfFrom, Bool.and_eq_true, decide_eq_true_eq] at w
    have rest := ih w.2
    cases h : f (k, v) with
    | none => simpa [List.filterMap_cons, h] using SMap.wfFrom_mono d (by omega) rest
    | some e' =>
      obtain ⟨k', v'⟩ := e'
      have hk := hf (k, v) (k', v') w.1.2 h
      simp only at hk
      obtain ⟨rfl, hv⟩ := hk
      simp [h, SMap.wfFrom, w.1.1, hv, rest]

/-- Dropping entries keeps the canonical form. -/
theorem SMap.wf_filter {m : SMap β} (w : SMap.wf d m = true) (p : Nat × β → Bool) :
    SMap.wf d (m.filter p) = true := by
  rw [← List.filterMap_eq_filter]
  refine SMap.wfFrom_filterMap d w _ ?_
  intro e e' he h
  simp only [Option.guard] at h
  split at h
  · cases h; exact ⟨rfl, he⟩
  · cases h

/-- Changing the values that are there keeps the canonical form of a map whose unlisted keys hold none. -/
theorem SMap.wf_mapSome {γ : Type} [DecidableEq γ] {m : SMap (Option γ)} {lo : Nat} (f : γ → γ)
    (w : SMap.wfFrom (fun _ => none) lo m = true) :
    SMap.wfFrom (fun _ => none) lo (m.map fun e => (e.1, e.2.map f)) = true := by
  induction m generalizing lo with
  | nil => rfl
  | cons e m ih =>
    obtain ⟨k, v⟩ := e
    simp only [SMap.wfFrom, List.map_cons, Bool.and_eq_true, decide_eq_true_eq] at w ⊢
    refine ⟨⟨w.1.1, ?_⟩, ih w.2⟩
    cases v with
    | none => exact absurd rfl w.1.2
    | some x => simp

end Sys2Proof.Machine
end

