-- ==== Sys2Proof/Laws/Quiet.lean ====
section
/-! SUPPORT. In a quiet state a command's effect is complete as it stands: nothing that is due, and nothing that goes on by
itself, follows it. -/

namespace Sys2Proof.Machine

/-- What a sparse map holds at a key is what an unlisted key reads as, or the value of an entry. -/
theorem SMap.get_cases {β : Type} (d : Nat → β) (m : SMap β) (k : Nat) :
    SMap.get d m k = d k ∨ ∃ e ∈ m, SMap.get d m k = e.2 := by
  induction m with
  | nil => exact Or.inl rfl
  | cons e m ih =>
    obtain ⟨k', v⟩ := e
    simp only [SMap.get]
    split
    · exact Or.inr ⟨_, List.mem_cons_self, rfl⟩
    · split
      · exact Or.inl rfl
      · rcases ih with h | ⟨e, he, h⟩
        · exact Or.inl h
        · exact Or.inr ⟨e, List.mem_cons_of_mem _ he, h⟩

/-- With nothing due, nothing is treated. -/
theorem drain_none (n : Nat) {s : State} (h : s.faults.due = []) : drain n s = s := by
  cases n with
  | zero => rfl
  | succ n => simp [drain, h, topDue]

/-- The parts of `State.quiet`. -/
theorem State.quiet_parts {s : State} (q : s.quiet = true) :
    s.faults.due = [] ∧ s.pers.mig = none ∧ s.pers.toConfig = none ∧
      (∀ l, (s.slot l).unbind = none ∧ (s.slot l).grace = false) ∧
      (∀ c, (s.chan c).upD = false ∧ (s.chan c).upU = false) := by
  simp only [State.quiet, Bool.and_eq_true, List.isEmpty_iff, Option.isNone_iff_eq_none, List.all_eq_true,
    Bool.not_eq_true'] at q
  obtain ⟨⟨⟨⟨h1, h2⟩, h3⟩, h4⟩, h5⟩ := q
  refine ⟨h1, h2, h3, fun l => ?_, fun c => ?_⟩
  · rcases SMap.get_cases (fun _ => SlotSt.free) s.slots l with h | ⟨e, he, h⟩
    · simp only [State.slot, h]; exact ⟨rfl, rfl⟩
    · simp only [State.slot, h]; exact h4 e he
  · rcases SMap.get_cases (fun _ => CvnChan.reset) s.cvn.chans c with h | ⟨e, he, h⟩
    · simp only [State.chan, h]; exact ⟨rfl, rfl⟩
    · simp only [State.chan, h]; exact h5 e he

theorem State.migWatch_quiet {s : State} (h : s.pers.mig = none) : s.migWatch = s := by
  simp [State.migWatch, h]

theorem State.unbindSettle_quiet {s : State} (h : ∀ l, (s.slot l).unbind = none) : s.unbindSettle = s := by
  unfold State.unbindSettle
  generalize List.range 16 = xs
  induction xs with
  | nil => rfl
  | cons x xs ih => simpa [List.foldl_cons, h x] using ih

theorem State.graceSettle_quiet {s : State} (h : ∀ l, (s.slot l).grace = false) : s.graceSettle = s := by
  unfold State.graceSettle
  generalize s.slots.map Prod.fst = xs
  induction xs with
  | nil => rfl
  | cons x xs ih => simpa [List.foldl_cons, h x] using ih

theorem State.cvnWatch_quiet {s : State} (h : ∀ c, (s.chan c).upD = false ∧ (s.chan c).upU = false) : s.cvnWatch = s := by
  have one : ∀ p, s.cvnWatch1 p = s := by
    intro p
    have hc := h (p / 2)
    simp only [State.cvnWatch1, hc.1, hc.2, ite_self, Bool.false_and]
    rfl
  unfold State.cvnWatch
  generalize [0, 1, 2, 3] = xs
  induction xs with
  | nil => rfl
  | cons x xs ih => rw [List.foldl_cons, one x]; exact ih

/-- Nothing follows in a quiet state. -/
theorem settle_quiet {s : State} (q : s.quiet = true) : settle s = s := by
  obtain ⟨h1, h2, h3, h4, h5⟩ := State.quiet_parts q
  have w0 : ((s.migWatch.unbindSettle).graceSettle).cvnWatch = s := by
    rw [State.migWatch_quiet h2, State.unbindSettle_quiet fun l => (h4 l).1, State.graceSettle_quiet fun l => (h4 l).2,
      State.cvnWatch_quiet h5]
  have w : s.watch = s := by
    unfold State.watch
    rw [w0]
    dsimp only
    rw [h3]
  unfold settle
  rw [drain_none _ h1, w, drain_none _ h1]

/-- A command whose effect leaves a quiet state ends in just that state. -/
theorem done_quiet {s : State} (q : s.quiet = true) : done s = .next s := by
  rw [done, settle_quiet q]

/-- Whether a state is quiet depends on these parts of it alone. -/
theorem State.quiet_congr {s t : State} (h1 : t.faults.due = s.faults.due) (h2 : t.pers.mig = s.pers.mig)
    (h3 : t.pers.toConfig = s.pers.toConfig) (h4 : t.slots = s.slots) (h5 : t.cvn.chans = s.cvn.chans) :
    t.quiet = s.quiet := by
  simp only [State.quiet, h1, h2, h3, h4, h5]

/-- A state with its work of the present command removed is the state itself when there is none. -/
theorem State.dueNil {s : State} (h : s.faults.due = []) (d : List Due) :
    { { s with faults := { s.faults with due := d } } with
      faults := { { s with faults := { s.faults with due := d } }.faults with due := [] } } = s := by
  obtain ⟨_, _, _, _, _, _, _, _, _, _, f, _, _, _, _, _, _, _, _, _, _, _, _, _, _, _, _, _, _, _, _, _, _, _, _, _, _⟩ := s
  obtain ⟨_, _, _, due, _, _, _, _, _, _, _⟩ := f
  simp only at h
  subst h
  rfl

/-- One occurrence is due and nothing else: it is treated, and what it leaves due after it. -/
theorem drain_raise {s : State} (h : s.faults.due = []) (n : Nat) (b : BlkId) (src : Nat) (caps : List Nat) (slot : Nat) :
    drain (n + 1) (s.raiseFor b src caps slot) = drain n (s.occur b src caps slot false) := by
  have e := State.dueNil h [.occur b src caps slot false]
  simp only [drain, State.raiseFor, h, List.nil_append, List.find?_cons, Due.rank, Option.isNone_none,
    List.erase_cons_head, State.treat]
  rw [e]

/-- A masked occurrence sets its FSTAT bit and does nothing else (R945, R946). -/
theorem done_raiseFor_masked {s : State} (q : s.quiet = true) {b : BlkId} {src : Nat} (m : s.masked b src = true)
    (caps : List Nat) (slot : Nat) : done (s.raiseFor b src caps slot) = .next (s.setFstat b src) := by
  obtain ⟨h1, h2, h3, h4, h5⟩ := State.quiet_parts q
  have ho : s.occur b src caps slot false = s.setFstat b src := by
    simp only [State.occur, m, if_true]
  have q' : (s.setFstat b src).quiet = true := q
  have h' : (s.setFstat b src).faults.due = [] := h1
  have hs := settle_quiet q'
  unfold settle at hs
  rw [drain_none _ h'] at hs
  unfold done settle
  rw [drain_raise h1, ho, drain_none _ h', hs]

theorem done_raise_masked {s : State} (q : s.quiet = true) {b : BlkId} {src : Nat} (m : s.masked b src = true)
    (caps : List Nat) : done (s.raise b src caps) = .next (s.setFstat b src) :=
  done_raiseFor_masked q m caps 255

end Sys2Proof.Machine
end

