-- ==== Sys2Proof/Laws/State.lean ====
section
/-! SUPPORT. What each elementary update of the state changes, field by field, and what it leaves alone. -/

namespace Sys2Proof.Machine

/-! ## setReg -/

@[simp] theorem State.setReg_pending (s : State) (off : Nat) (w : Word) : (s.setReg off w).pending = s.pending := rfl
@[simp] theorem State.setReg_out (s : State) (off : Nat) (w : Word) : (s.setReg off w).out = s.out := rfl
@[simp] theorem State.setReg_rdata (s : State) (off : Nat) (w : Word) : (s.setReg off w).rdata = s.rdata := rfl
@[simp] theorem State.setReg_draws (s : State) (off : Nat) (w : Word) : (s.setReg off w).draws = s.draws := rfl
@[simp] theorem State.setReg_m10 (s : State) (off : Nat) (w : Word) : (s.setReg off w).m10 = s.m10 := rfl
@[simp] theorem State.setReg_bonded (s : State) (off : Nat) (w : Word) : (s.setReg off w).bonded = s.bonded := rfl
@[simp] theorem State.setReg_bondPin (s : State) (off : Nat) (w : Word) : (s.setReg off w).bondPin = s.bondPin := rfl
@[simp] theorem State.setReg_mode (s : State) (off : Nat) (w : Word) : (s.setReg off w).mode = s.mode := rfl
@[simp] theorem State.setReg_regs (s : State) (off : Nat) (w : Word) : (s.setReg off w).regs = SMap.set resetWord s.regs off w := rfl
@[simp] theorem State.setReg_holding (s : State) (off : Nat) (w : Word) : (s.setReg off w).holding = s.holding := rfl
@[simp] theorem State.setReg_faults (s : State) (off : Nat) (w : Word) : (s.setReg off w).faults = s.faults := rfl
@[simp] theorem State.setReg_boot (s : State) (off : Nat) (w : Word) : (s.setReg off w).boot = s.boot := rfl
@[simp] theorem State.setReg_quiesce (s : State) (off : Nat) (w : Word) : (s.setReg off w).quiesce = s.quiesce := rfl
@[simp] theorem State.setReg_flashA (s : State) (off : Nat) (w : Word) : (s.setReg off w).flashA = s.flashA := rfl
@[simp] theorem State.setReg_flashB (s : State) (off : Nat) (w : Word) : (s.setReg off w).flashB = s.flashB := rfl
@[simp] theorem State.setReg_upd (s : State) (off : Nat) (w : Word) : (s.setReg off w).upd = s.upd := rfl
@[simp] theorem State.setReg_nvm (s : State) (off : Nat) (w : Word) : (s.setReg off w).nvm = s.nvm := rfl
@[simp] theorem State.setReg_rings (s : State) (off : Nat) (w : Word) : (s.setReg off w).rings = s.rings := rfl
@[simp] theorem State.setReg_portA (s : State) (off : Nat) (w : Word) : (s.setReg off w).portA = s.portA := rfl
@[simp] theorem State.setReg_portB (s : State) (off : Nat) (w : Word) : (s.setReg off w).portB = s.portB := rfl
@[simp] theorem State.setReg_tb (s : State) (off : Nat) (w : Word) : (s.setReg off w).tb = s.tb := rfl
@[simp] theorem State.setReg_pes (s : State) (off : Nat) (w : Word) : (s.setReg off w).pes = s.pes := rfl
@[simp] theorem State.setReg_mem (s : State) (off : Nat) (w : Word) : (s.setReg off w).mem = s.mem := rfl
@[simp] theorem State.setReg_lastPe (s : State) (off : Nat) (w : Word) : (s.setReg off w).lastPe = s.lastPe := rfl
@[simp] theorem State.setReg_mbx (s : State) (off : Nat) (w : Word) : (s.setReg off w).mbx = s.mbx := rfl
@[simp] theorem State.setReg_swc (s : State) (off : Nat) (w : Word) : (s.setReg off w).swc = s.swc := rfl
@[simp] theorem State.setReg_slots (s : State) (off : Nat) (w : Word) : (s.setReg off w).slots = s.slots := rfl
@[simp] theorem State.setReg_pers (s : State) (off : Nat) (w : Word) : (s.setReg off w).pers = s.pers := rfl
@[simp] theorem State.setReg_wadi (s : State) (off : Nat) (w : Word) : (s.setReg off w).wadi = s.wadi := rfl
@[simp] theorem State.setReg_tio (s : State) (off : Nat) (w : Word) : (s.setReg off w).tio = s.tio := rfl
@[simp] theorem State.setReg_cvn (s : State) (off : Nat) (w : Word) : (s.setReg off w).cvn = s.cvn := rfl
@[simp] theorem State.setReg_buses (s : State) (off : Nat) (w : Word) : (s.setReg off w).buses = s.buses := rfl
@[simp] theorem State.setReg_ctrlBad (s : State) (off : Nat) (w : Word) : (s.setReg off w).ctrlBad = s.ctrlBad := rfl
@[simp] theorem State.setReg_ctrlWorn (s : State) (off : Nat) (w : Word) : (s.setReg off w).ctrlWorn = s.ctrlWorn := rfl
@[simp] theorem State.setReg_psq (s : State) (off : Nat) (w : Word) : (s.setReg off w).psq = s.psq := rfl
@[simp] theorem State.setReg_pwr (s : State) (off : Nat) (w : Word) : (s.setReg off w).pwr = s.pwr := rfl
@[simp] theorem State.setReg_sio (s : State) (off : Nat) (w : Word) : (s.setReg off w).sio = s.sio := rfl
@[simp] theorem State.setReg_ring (s : State) (off : Nat) (w : Word) (q0 : Nat) : (s.setReg off w).ring q0 = s.ring q0 := rfl
@[simp] theorem State.setReg_slot (s : State) (off : Nat) (w : Word) (k0 : Nat) : (s.setReg off w).slot k0 = s.slot k0 := rfl
@[simp] theorem State.setReg_bus (s : State) (off : Nat) (w : Word) (k0 : Nat) : (s.setReg off w).bus k0 = s.bus k0 := rfl
@[simp] theorem State.setReg_chan (s : State) (off : Nat) (w : Word) (k0 : Nat) : (s.setReg off w).chan k0 = s.chan k0 := rfl
@[simp] theorem State.setReg_seqSt (s : State) (off : Nat) (w : Word) (k0 : Nat) : (s.setReg off w).seqSt k0 = s.seqSt k0 := rfl
@[simp] theorem State.setReg_dq (s : State) (off : Nat) (w : Word) (k0 : Nat) : (s.setReg off w).dq k0 = s.dq k0 := rfl
@[simp] theorem State.setReg_mac (s : State) (off : Nat) (w : Word) (k0 : Nat) : (s.setReg off w).mac k0 = s.mac k0 := rfl
@[simp] theorem State.setReg_pe (s : State) (off : Nat) (w : Word) (k0 : Fin 18) : (s.setReg off w).pe k0 = s.pe k0 := rfl
@[simp] theorem State.setReg_inbox (s : State) (off : Nat) (w : Word) (a0 k0 : Nat) : (s.setReg off w).inbox a0 k0 = s.inbox a0 k0 := rfl
@[simp] theorem State.setReg_port (s : State) (off : Nat) (w : Word) (p0 : Nat) : (s.setReg off w).port p0 = s.port p0 := rfl
@[simp] theorem State.setReg_quiet (s : State) (off : Nat) (w : Word) : (s.setReg off w).quiet = s.quiet := rfl

/-! ## emit -/

@[simp] theorem State.emit_pending (s : State) (o : Out) : (s.emit o).pending = s.pending := rfl
@[simp] theorem State.emit_out (s : State) (o : Out) : (s.emit o).out = s.out ++ [o] := rfl
@[simp] theorem State.emit_rdata (s : State) (o : Out) : (s.emit o).rdata = s.rdata := rfl
@[simp] theorem State.emit_draws (s : State) (o : Out) : (s.emit o).draws = s.draws := rfl
@[simp] theorem State.emit_m10 (s : State) (o : Out) : (s.emit o).m10 = s.m10 := rfl
@[simp] theorem State.emit_bonded (s : State) (o : Out) : (s.emit o).bonded = s.bonded := rfl
@[simp] theorem State.emit_bondPin (s : State) (o : Out) : (s.emit o).bondPin = s.bondPin := rfl
@[simp] theorem State.emit_mode (s : State) (o : Out) : (s.emit o).mode = s.mode := rfl
@[simp] theorem State.emit_regs (s : State) (o : Out) : (s.emit o).regs = s.regs := rfl
@[simp] theorem State.emit_holding (s : State) (o : Out) : (s.emit o).holding = s.holding := rfl
@[simp] theorem State.emit_faults (s : State) (o : Out) : (s.emit o).faults = s.faults := rfl
@[simp] theorem State.emit_boot (s : State) (o : Out) : (s.emit o).boot = s.boot := rfl
@[simp] theorem State.emit_quiesce (s : State) (o : Out) : (s.emit o).quiesce = s.quiesce := rfl
@[simp] theorem State.emit_flashA (s : State) (o : Out) : (s.emit o).flashA = s.flashA := rfl
@[simp] theorem State.emit_flashB (s : State) (o : Out) : (s.emit o).flashB = s.flashB := rfl
@[simp] theorem State.emit_upd (s : State) (o : Out) : (s.emit o).upd = s.upd := rfl
@[simp] theorem State.emit_nvm (s : State) (o : Out) : (s.emit o).nvm = s.nvm := rfl
@[simp] theorem State.emit_rings (s : State) (o : Out) : (s.emit o).rings = s.rings := rfl
@[simp] theorem State.emit_portA (s : State) (o : Out) : (s.emit o).portA = s.portA := rfl
@[simp] theorem State.emit_portB (s : State) (o : Out) : (s.emit o).portB = s.portB := rfl
@[simp] theorem State.emit_tb (s : State) (o : Out) : (s.emit o).tb = s.tb := rfl
@[simp] theorem State.emit_pes (s : State) (o : Out) : (s.emit o).pes = s.pes := rfl
@[simp] theorem State.emit_mem (s : State) (o : Out) : (s.emit o).mem = s.mem := rfl
@[simp] theorem State.emit_lastPe (s : State) (o : Out) : (s.emit o).lastPe = s.lastPe := rfl
@[simp] theorem State.emit_mbx (s : State) (o : Out) : (s.emit o).mbx = s.mbx := rfl
@[simp] theorem State.emit_swc (s : State) (o : Out) : (s.emit o).swc = s.swc := rfl
@[simp] theorem State.emit_slots (s : State) (o : Out) : (s.emit o).slots = s.slots := rfl
@[simp] theorem State.emit_pers (s : State) (o : Out) : (s.emit o).pers = s.pers := rfl
@[simp] theorem State.emit_wadi (s : State) (o : Out) : (s.emit o).wadi = s.wadi := rfl
@[simp] theorem State.emit_tio (s : State) (o : Out) : (s.emit o).tio = s.tio := rfl
@[simp] theorem State.emit_cvn (s : State) (o : Out) : (s.emit o).cvn = s.cvn := rfl
@[simp] theorem State.emit_buses (s : State) (o : Out) : (s.emit o).buses = s.buses := rfl
@[simp] theorem State.emit_ctrlBad (s : State) (o : Out) : (s.emit o).ctrlBad = s.ctrlBad := rfl
@[simp] theorem State.emit_ctrlWorn (s : State) (o : Out) : (s.emit o).ctrlWorn = s.ctrlWorn := rfl
@[simp] theorem State.emit_psq (s : State) (o : Out) : (s.emit o).psq = s.psq := rfl
@[simp] theorem State.emit_pwr (s : State) (o : Out) : (s.emit o).pwr = s.pwr := rfl
@[simp] theorem State.emit_sio (s : State) (o : Out) : (s.emit o).sio = s.sio := rfl
@[simp] theorem State.emit_reg (s : State) (o : Out) (o0 : Nat) : (s.emit o).reg o0 = s.reg o0 := rfl
@[simp] theorem State.emit_ring (s : State) (o : Out) (q0 : Nat) : (s.emit o).ring q0 = s.ring q0 := rfl
@[simp] theorem State.emit_slot (s : State) (o : Out) (k0 : Nat) : (s.emit o).slot k0 = s.slot k0 := rfl
@[simp] theorem State.emit_bus (s : State) (o : Out) (k0 : Nat) : (s.emit o).bus k0 = s.bus k0 := rfl
@[simp] theorem State.emit_chan (s : State) (o : Out) (k0 : Nat) : (s.emit o).chan k0 = s.chan k0 := rfl
@[simp] theorem State.emit_seqSt (s : State) (o : Out) (k0 : Nat) : (s.emit o).seqSt k0 = s.seqSt k0 := rfl
@[simp] theorem State.emit_dq (s : State) (o : Out) (k0 : Nat) : (s.emit o).dq k0 = s.dq k0 := rfl
@[simp] theorem State.emit_mac (s : State) (o : Out) (k0 : Nat) : (s.emit o).mac k0 = s.mac k0 := rfl
@[simp] theorem State.emit_pe (s : State) (o : Out) (k0 : Fin 18) : (s.emit o).pe k0 = s.pe k0 := rfl
@[simp] theorem State.emit_inbox (s : State) (o : Out) (a0 k0 : Nat) : (s.emit o).inbox a0 k0 = s.inbox a0 k0 := rfl
@[simp] theorem State.emit_port (s : State) (o : Out) (p0 : Nat) : (s.emit o).port p0 = s.port p0 := rfl
@[simp] theorem State.emit_quiet (s : State) (o : Out) : (s.emit o).quiet = s.quiet := rfl
@[simp] theorem State.emit_regsWf (s : State) (o : Out) : (s.emit o).regsWf = s.regsWf := rfl

/-! ## setRing -/

@[simp] theorem State.setRing_pending (s : State) (r : Nat) (x : Ring) : (s.setRing r x).pending = s.pending := rfl
@[simp] theorem State.setRing_out (s : State) (r : Nat) (x : Ring) : (s.setRing r x).out = s.out := rfl
@[simp] theorem State.setRing_rdata (s : State) (r : Nat) (x : Ring) : (s.setRing r x).rdata = s.rdata := rfl
@[simp] theorem State.setRing_draws (s : State) (r : Nat) (x : Ring) : (s.setRing r x).draws = s.draws := rfl
@[simp] theorem State.setRing_m10 (s : State) (r : Nat) (x : Ring) : (s.setRing r x).m10 = s.m10 := rfl
@[simp] theorem State.setRing_bonded (s : State) (r : Nat) (x : Ring) : (s.setRing r x).bonded = s.bonded := rfl
@[simp] theorem State.setRing_bondPin (s : State) (r : Nat) (x : Ring) : (s.setRing r x).bondPin = s.bondPin := rfl
@[simp] theorem State.setRing_mode (s : State) (r : Nat) (x : Ring) : (s.setRing r x).mode = s.mode := rfl
@[simp] theorem State.setRing_regs (s : State) (r : Nat) (x : Ring) : (s.setRing r x).regs = s.regs := rfl
@[simp] theorem State.setRing_holding (s : State) (r : Nat) (x : Ring) : (s.setRing r x).holding = s.holding := rfl
@[simp] theorem State.setRing_faults (s : State) (r : Nat) (x : Ring) : (s.setRing r x).faults = s.faults := rfl
@[simp] theorem State.setRing_boot (s : State) (r : Nat) (x : Ring) : (s.setRing r x).boot = s.boot := rfl
@[simp] theorem State.setRing_quiesce (s : State) (r : Nat) (x : Ring) : (s.setRing r x).quiesce = s.quiesce := rfl
@[simp] theorem State.setRing_flashA (s : State) (r : Nat) (x : Ring) : (s.setRing r x).flashA = s.flashA := rfl
@[simp] theorem State.setRing_flashB (s : State) (r : Nat) (x : Ring) : (s.setRing r x).flashB = s.flashB := rfl
@[simp] theorem State.setRing_upd (s : State) (r : Nat) (x : Ring) : (s.setRing r x).upd = s.upd := rfl
@[simp] theorem State.setRing_nvm (s : State) (r : Nat) (x : Ring) : (s.setRing r x).nvm = s.nvm := rfl
@[simp] theorem State.setRing_rings (s : State) (r : Nat) (x : Ring) : (s.setRing r x).rings = SMap.set (fun _ => Ring.reset) s.rings r x := rfl
@[simp] theorem State.setRing_portA (s : State) (r : Nat) (x : Ring) : (s.setRing r x).portA = s.portA := rfl
@[simp] theorem State.setRing_portB (s : State) (r : Nat) (x : Ring) : (s.setRing r x).portB = s.portB := rfl
@[simp] theorem State.setRing_tb (s : State) (r : Nat) (x : Ring) : (s.setRing r x).tb = s.tb := rfl
@[simp] theorem State.setRing_pes (s : State) (r : Nat) (x : Ring) : (s.setRing r x).pes = s.pes := rfl
@[simp] theorem State.setRing_mem (s : State) (r : Nat) (x : Ring) : (s.setRing r x).mem = s.mem := rfl
@[simp] theorem State.setRing_lastPe (s : State) (r : Nat) (x : Ring) : (s.setRing r x).lastPe = s.lastPe := rfl
@[simp] theorem State.setRing_mbx (s : State) (r : Nat) (x : Ring) : (s.setRing r x).mbx = s.mbx := rfl
@[simp] theorem State.setRing_swc (s : State) (r : Nat) (x : Ring) : (s.setRing r x).swc = s.swc := rfl
@[simp] theorem State.setRing_slots (s : State) (r : Nat) (x : Ring) : (s.setRing r x).slots = s.slots := rfl
@[simp] theorem State.setRing_pers (s : State) (r : Nat) (x : Ring) : (s.setRing r x).pers = s.pers := rfl
@[simp] theorem State.setRing_wadi (s : State) (r : Nat) (x : Ring) : (s.setRing r x).wadi = s.wadi := rfl
@[simp] theorem State.setRing_tio (s : State) (r : Nat) (x : Ring) : (s.setRing r x).tio = s.tio := rfl
@[simp] theorem State.setRing_cvn (s : State) (r : Nat) (x : Ring) : (s.setRing r x).cvn = s.cvn := rfl
@[simp] theorem State.setRing_buses (s : State) (r : Nat) (x : Ring) : (s.setRing r x).buses = s.buses := rfl
@[simp] theorem State.setRing_ctrlBad (s : State) (r : Nat) (x : Ring) : (s.setRing r x).ctrlBad = s.ctrlBad := rfl
@[simp] theorem State.setRing_ctrlWorn (s : State) (r : Nat) (x : Ring) : (s.setRing r x).ctrlWorn = s.ctrlWorn := rfl
@[simp] theorem State.setRing_psq (s : State) (r : Nat) (x : Ring) : (s.setRing r x).psq = s.psq := rfl
@[simp] theorem State.setRing_pwr (s : State) (r : Nat) (x : Ring) : (s.setRing r x).pwr = s.pwr := rfl
@[simp] theorem State.setRing_sio (s : State) (r : Nat) (x : Ring) : (s.setRing r x).sio = s.sio := rfl
@[simp] theorem State.setRing_reg (s : State) (r : Nat) (x : Ring) (o0 : Nat) : (s.setRing r x).reg o0 = s.reg o0 := rfl
@[simp] theorem State.setRing_slot (s : State) (r : Nat) (x : Ring) (k0 : Nat) : (s.setRing r x).slot k0 = s.slot k0 := rfl
@[simp] theorem State.setRing_bus (s : State) (r : Nat) (x : Ring) (k0 : Nat) : (s.setRing r x).bus k0 = s.bus k0 := rfl
@[simp] theorem State.setRing_chan (s : State) (r : Nat) (x : Ring) (k0 : Nat) : (s.setRing r x).chan k0 = s.chan k0 := rfl
@[simp] theorem State.setRing_seqSt (s : State) (r : Nat) (x : Ring) (k0 : Nat) : (s.setRing r x).seqSt k0 = s.seqSt k0 := rfl
@[simp] theorem State.setRing_dq (s : State) (r : Nat) (x : Ring) (k0 : Nat) : (s.setRing r x).dq k0 = s.dq k0 := rfl
@[simp] theorem State.setRing_mac (s : State) (r : Nat) (x : Ring) (k0 : Nat) : (s.setRing r x).mac k0 = s.mac k0 := rfl
@[simp] theorem State.setRing_pe (s : State) (r : Nat) (x : Ring) (k0 : Fin 18) : (s.setRing r x).pe k0 = s.pe k0 := rfl
@[simp] theorem State.setRing_inbox (s : State) (r : Nat) (x : Ring) (a0 k0 : Nat) : (s.setRing r x).inbox a0 k0 = s.inbox a0 k0 := rfl
@[simp] theorem State.setRing_port (s : State) (r : Nat) (x : Ring) (p0 : Nat) : (s.setRing r x).port p0 = s.port p0 := rfl
@[simp] theorem State.setRing_quiet (s : State) (r : Nat) (x : Ring) : (s.setRing r x).quiet = s.quiet := rfl
@[simp] theorem State.setRing_regsWf (s : State) (r : Nat) (x : Ring) : (s.setRing r x).regsWf = s.regsWf := rfl

/-! ## setPe -/

@[simp] theorem State.setPe_pending (s : State) (n : Fin 18) (e : Engine) : (s.setPe n e).pending = s.pending := rfl
@[simp] theorem State.setPe_out (s : State) (n : Fin 18) (e : Engine) : (s.setPe n e).out = s.out := rfl
@[simp] theorem State.setPe_rdata (s : State) (n : Fin 18) (e : Engine) : (s.setPe n e).rdata = s.rdata := rfl
@[simp] theorem State.setPe_draws (s : State) (n : Fin 18) (e : Engine) : (s.setPe n e).draws = s.draws := rfl
@[simp] theorem State.setPe_m10 (s : State) (n : Fin 18) (e : Engine) : (s.setPe n e).m10 = s.m10 := rfl
@[simp] theorem State.setPe_bonded (s : State) (n : Fin 18) (e : Engine) : (s.setPe n e).bonded = s.bonded := rfl
@[simp] theorem State.setPe_bondPin (s : State) (n : Fin 18) (e : Engine) : (s.setPe n e).bondPin = s.bondPin := rfl
@[simp] theorem State.setPe_mode (s : State) (n : Fin 18) (e : Engine) : (s.setPe n e).mode = s.mode := rfl
@[simp] theorem State.setPe_regs (s : State) (n : Fin 18) (e : Engine) : (s.setPe n e).regs = s.regs := rfl
@[simp] theorem State.setPe_holding (s : State) (n : Fin 18) (e : Engine) : (s.setPe n e).holding = s.holding := rfl
@[simp] theorem State.setPe_faults (s : State) (n : Fin 18) (e : Engine) : (s.setPe n e).faults = s.faults := rfl
@[simp] theorem State.setPe_boot (s : State) (n : Fin 18) (e : Engine) : (s.setPe n e).boot = s.boot := rfl
@[simp] theorem State.setPe_quiesce (s : State) (n : Fin 18) (e : Engine) : (s.setPe n e).quiesce = s.quiesce := rfl
@[simp] theorem State.setPe_flashA (s : State) (n : Fin 18) (e : Engine) : (s.setPe n e).flashA = s.flashA := rfl
@[simp] theorem State.setPe_flashB (s : State) (n : Fin 18) (e : Engine) : (s.setPe n e).flashB = s.flashB := rfl
@[simp] theorem State.setPe_upd (s : State) (n : Fin 18) (e : Engine) : (s.setPe n e).upd = s.upd := rfl
@[simp] theorem State.setPe_nvm (s : State) (n : Fin 18) (e : Engine) : (s.setPe n e).nvm = s.nvm := rfl
@[simp] theorem State.setPe_rings (s : State) (n : Fin 18) (e : Engine) : (s.setPe n e).rings = s.rings := rfl
@[simp] theorem State.setPe_portA (s : State) (n : Fin 18) (e : Engine) : (s.setPe n e).portA = s.portA := rfl
@[simp] theorem State.setPe_portB (s : State) (n : Fin 18) (e : Engine) : (s.setPe n e).portB = s.portB := rfl
@[simp] theorem State.setPe_tb (s : State) (n : Fin 18) (e : Engine) : (s.setPe n e).tb = s.tb := rfl
@[simp] theorem State.setPe_pes (s : State) (n : Fin 18) (e : Engine) : (s.setPe n e).pes = s.pes.set n e := rfl
@[simp] theorem State.setPe_mem (s : State) (n : Fin 18) (e : Engine) : (s.setPe n e).mem = s.mem := rfl
@[simp] theorem State.setPe_lastPe (s : State) (n : Fin 18) (e : Engine) : (s.setPe n e).lastPe = s.lastPe := rfl
@[simp] theorem State.setPe_mbx (s : State) (n : Fin 18) (e : Engine) : (s.setPe n e).mbx = s.mbx := rfl
@[simp] theorem State.setPe_swc (s : State) (n : Fin 18) (e : Engine) : (s.setPe n e).swc = s.swc := rfl
@[simp] theorem State.setPe_slots (s : State) (n : Fin 18) (e : Engine) : (s.setPe n e).slots = s.slots := rfl
@[simp] theorem State.setPe_pers (s : State) (n : Fin 18) (e : Engine) : (s.setPe n e).pers = s.pers := rfl
@[simp] theorem State.setPe_wadi (s : State) (n : Fin 18) (e : Engine) : (s.setPe n e).wadi = s.wadi := rfl
@[simp] theorem State.setPe_tio (s : State) (n : Fin 18) (e : Engine) : (s.setPe n e).tio = s.tio := rfl
@[simp] theorem State.setPe_cvn (s : State) (n : Fin 18) (e : Engine) : (s.setPe n e).cvn = s.cvn := rfl
@[simp] theorem State.setPe_buses (s : State) (n : Fin 18) (e : Engine) : (s.setPe n e).buses = s.buses := rfl
@[simp] theorem State.setPe_ctrlBad (s : State) (n : Fin 18) (e : Engine) : (s.setPe n e).ctrlBad = s.ctrlBad := rfl
@[simp] theorem State.setPe_ctrlWorn (s : State) (n : Fin 18) (e : Engine) : (s.setPe n e).ctrlWorn = s.ctrlWorn := rfl
@[simp] theorem State.setPe_psq (s : State) (n : Fin 18) (e : Engine) : (s.setPe n e).psq = s.psq := rfl
@[simp] theorem State.setPe_pwr (s : State) (n : Fin 18) (e : Engine) : (s.setPe n e).pwr = s.pwr := rfl
@[simp] theorem State.setPe_sio (s : State) (n : Fin 18) (e : Engine) : (s.setPe n e).sio = s.sio := rfl
@[simp] theorem State.setPe_reg (s : State) (n : Fin 18) (e : Engine) (o0 : Nat) : (s.setPe n e).reg o0 = s.reg o0 := rfl
@[simp] theorem State.setPe_ring (s : State) (n : Fin 18) (e : Engine) (q0 : Nat) : (s.setPe n e).ring q0 = s.ring q0 := rfl
@[simp] theorem State.setPe_slot (s : State) (n : Fin 18) (e : Engine) (k0 : Nat) : (s.setPe n e).slot k0 = s.slot k0 := rfl
@[simp] theorem State.setPe_bus (s : State) (n : Fin 18) (e : Engine) (k0 : Nat) : (s.setPe n e).bus k0 = s.bus k0 := rfl
@[simp] theorem State.setPe_chan (s : State) (n : Fin 18) (e : Engine) (k0 : Nat) : (s.setPe n e).chan k0 = s.chan k0 := rfl
@[simp] theorem State.setPe_seqSt (s : State) (n : Fin 18) (e : Engine) (k0 : Nat) : (s.setPe n e).seqSt k0 = s.seqSt k0 := rfl
@[simp] theorem State.setPe_dq (s : State) (n : Fin 18) (e : Engine) (k0 : Nat) : (s.setPe n e).dq k0 = s.dq k0 := rfl
@[simp] theorem State.setPe_mac (s : State) (n : Fin 18) (e : Engine) (k0 : Nat) : (s.setPe n e).mac k0 = s.mac k0 := rfl
@[simp] theorem State.setPe_inbox (s : State) (n : Fin 18) (e : Engine) (a0 k0 : Nat) : (s.setPe n e).inbox a0 k0 = s.inbox a0 k0 := rfl
@[simp] theorem State.setPe_port (s : State) (n : Fin 18) (e : Engine) (p0 : Nat) : (s.setPe n e).port p0 = s.port p0 := rfl
@[simp] theorem State.setPe_quiet (s : State) (n : Fin 18) (e : Engine) : (s.setPe n e).quiet = s.quiet := rfl
@[simp] theorem State.setPe_regsWf (s : State) (n : Fin 18) (e : Engine) : (s.setPe n e).regsWf = s.regsWf := rfl

/-! ## later -/

@[simp] theorem State.later_pending (s : State) (d : Due) : (s.later d).pending = s.pending := rfl
@[simp] theorem State.later_out (s : State) (d : Due) : (s.later d).out = s.out := rfl
@[simp] theorem State.later_rdata (s : State) (d : Due) : (s.later d).rdata = s.rdata := rfl
@[simp] theorem State.later_draws (s : State) (d : Due) : (s.later d).draws = s.draws := rfl
@[simp] theorem State.later_m10 (s : State) (d : Due) : (s.later d).m10 = s.m10 := rfl
@[simp] theorem State.later_bonded (s : State) (d : Due) : (s.later d).bonded = s.bonded := rfl
@[simp] theorem State.later_bondPin (s : State) (d : Due) : (s.later d).bondPin = s.bondPin := rfl
@[simp] theorem State.later_mode (s : State) (d : Due) : (s.later d).mode = s.mode := rfl
@[simp] theorem State.later_regs (s : State) (d : Due) : (s.later d).regs = s.regs := rfl
@[simp] theorem State.later_holding (s : State) (d : Due) : (s.later d).holding = s.holding := rfl
@[simp] theorem State.later_faults (s : State) (d : Due) : (s.later d).faults = { s.faults with due := s.faults.due ++ [d] } := rfl
@[simp] theorem State.later_boot (s : State) (d : Due) : (s.later d).boot = s.boot := rfl
@[simp] theorem State.later_quiesce (s : State) (d : Due) : (s.later d).quiesce = s.quiesce := rfl
@[simp] theorem State.later_flashA (s : State) (d : Due) : (s.later d).flashA = s.flashA := rfl
@[simp] theorem State.later_flashB (s : State) (d : Due) : (s.later d).flashB = s.flashB := rfl
@[simp] theorem State.later_upd (s : State) (d : Due) : (s.later d).upd = s.upd := rfl
@[simp] theorem State.later_nvm (s : State) (d : Due) : (s.later d).nvm = s.nvm := rfl
@[simp] theorem State.later_rings (s : State) (d : Due) : (s.later d).rings = s.rings := rfl
@[simp] theorem State.later_portA (s : State) (d : Due) : (s.later d).portA = s.portA := rfl
@[simp] theorem State.later_portB (s : State) (d : Due) : (s.later d).portB = s.portB := rfl
@[simp] theorem State.later_tb (s : State) (d : Due) : (s.later d).tb = s.tb := rfl
@[simp] theorem State.later_pes (s : State) (d : Due) : (s.later d).pes = s.pes := rfl
@[simp] theorem State.later_mem (s : State) (d : Due) : (s.later d).mem = s.mem := rfl
@[simp] theorem State.later_lastPe (s : State) (d : Due) : (s.later d).lastPe = s.lastPe := rfl
@[simp] theorem State.later_mbx (s : State) (d : Due) : (s.later d).mbx = s.mbx := rfl
@[simp] theorem State.later_swc (s : State) (d : Due) : (s.later d).swc = s.swc := rfl
@[simp] theorem State.later_slots (s : State) (d : Due) : (s.later d).slots = s.slots := rfl
@[simp] theorem State.later_pers (s : State) (d : Due) : (s.later d).pers = s.pers := rfl
@[simp] theorem State.later_wadi (s : State) (d : Due) : (s.later d).wadi = s.wadi := rfl
@[simp] theorem State.later_tio (s : State) (d : Due) : (s.later d).tio = s.tio := rfl
@[simp] theorem State.later_cvn (s : State) (d : Due) : (s.later d).cvn = s.cvn := rfl
@[simp] theorem State.later_buses (s : State) (d : Due) : (s.later d).buses = s.buses := rfl
@[simp] theorem State.later_ctrlBad (s : State) (d : Due) : (s.later d).ctrlBad = s.ctrlBad := rfl
@[simp] theorem State.later_ctrlWorn (s : State) (d : Due) : (s.later d).ctrlWorn = s.ctrlWorn := rfl
@[simp] theorem State.later_psq (s : State) (d : Due) : (s.later d).psq = s.psq := rfl
@[simp] theorem State.later_pwr (s : State) (d : Due) : (s.later d).pwr = s.pwr := rfl
@[simp] theorem State.later_sio (s : State) (d : Due) : (s.later d).sio = s.sio := rfl
@[simp] theorem State.later_reg (s : State) (d : Due) (o0 : Nat) : (s.later d).reg o0 = s.reg o0 := rfl
@[simp] theorem State.later_ring (s : State) (d : Due) (q0 : Nat) : (s.later d).ring q0 = s.ring q0 := rfl
@[simp] theorem State.later_slot (s : State) (d : Due) (k0 : Nat) : (s.later d).slot k0 = s.slot k0 := rfl
@[simp] theorem State.later_bus (s : State) (d : Due) (k0 : Nat) : (s.later d).bus k0 = s.bus k0 := rfl
@[simp] theorem State.later_chan (s : State) (d : Due) (k0 : Nat) : (s.later d).chan k0 = s.chan k0 := rfl
@[simp] theorem State.later_seqSt (s : State) (d : Due) (k0 : Nat) : (s.later d).seqSt k0 = s.seqSt k0 := rfl
@[simp] theorem State.later_dq (s : State) (d : Due) (k0 : Nat) : (s.later d).dq k0 = s.dq k0 := rfl
@[simp] theorem State.later_mac (s : State) (d : Due) (k0 : Nat) : (s.later d).mac k0 = s.mac k0 := rfl
@[simp] theorem State.later_pe (s : State) (d : Due) (k0 : Fin 18) : (s.later d).pe k0 = s.pe k0 := rfl
@[simp] theorem State.later_inbox (s : State) (d : Due) (a0 k0 : Nat) : (s.later d).inbox a0 k0 = s.inbox a0 k0 := rfl
@[simp] theorem State.later_port (s : State) (d : Due) (p0 : Nat) : (s.later d).port p0 = s.port p0 := rfl
@[simp] theorem State.later_regsWf (s : State) (d : Due) : (s.later d).regsWf = s.regsWf := rfl

/-! ## setSlot -/

@[simp] theorem State.setSlot_pending (s : State) (l : Nat) (x : SlotSt) : (s.setSlot l x).pending = s.pending := rfl
@[simp] theorem State.setSlot_out (s : State) (l : Nat) (x : SlotSt) : (s.setSlot l x).out = s.out := rfl
@[simp] theorem State.setSlot_rdata (s : State) (l : Nat) (x : SlotSt) : (s.setSlot l x).rdata = s.rdata := rfl
@[simp] theorem State.setSlot_draws (s : State) (l : Nat) (x : SlotSt) : (s.setSlot l x).draws = s.draws := rfl
@[simp] theorem State.setSlot_m10 (s : State) (l : Nat) (x : SlotSt) : (s.setSlot l x).m10 = s.m10 := rfl
@[simp] theorem State.setSlot_bonded (s : State) (l : Nat) (x : SlotSt) : (s.setSlot l x).bonded = s.bonded := rfl
@[simp] theorem State.setSlot_bondPin (s : State) (l : Nat) (x : SlotSt) : (s.setSlot l x).bondPin = s.bondPin := rfl
@[simp] theorem State.setSlot_mode (s : State) (l : Nat) (x : SlotSt) : (s.setSlot l x).mode = s.mode := rfl
@[simp] theorem State.setSlot_regs (s : State) (l : Nat) (x : SlotSt) : (s.setSlot l x).regs = s.regs := rfl
@[simp] theorem State.setSlot_holding (s : State) (l : Nat) (x : SlotSt) : (s.setSlot l x).holding = s.holding := rfl
@[simp] theorem State.setSlot_faults (s : State) (l : Nat) (x : SlotSt) : (s.setSlot l x).faults = s.faults := rfl
@[simp] theorem State.setSlot_boot (s : State) (l : Nat) (x : SlotSt) : (s.setSlot l x).boot = s.boot := rfl
@[simp] theorem State.setSlot_quiesce (s : State) (l : Nat) (x : SlotSt) : (s.setSlot l x).quiesce = s.quiesce := rfl
@[simp] theorem State.setSlot_flashA (s : State) (l : Nat) (x : SlotSt) : (s.setSlot l x).flashA = s.flashA := rfl
@[simp] theorem State.setSlot_flashB (s : State) (l : Nat) (x : SlotSt) : (s.setSlot l x).flashB = s.flashB := rfl
@[simp] theorem State.setSlot_upd (s : State) (l : Nat) (x : SlotSt) : (s.setSlot l x).upd = s.upd := rfl
@[simp] theorem State.setSlot_nvm (s : State) (l : Nat) (x : SlotSt) : (s.setSlot l x).nvm = s.nvm := rfl
@[simp] theorem State.setSlot_rings (s : State) (l : Nat) (x : SlotSt) : (s.setSlot l x).rings = s.rings := rfl
@[simp] theorem State.setSlot_portA (s : State) (l : Nat) (x : SlotSt) : (s.setSlot l x).portA = s.portA := rfl
@[simp] theorem State.setSlot_portB (s : State) (l : Nat) (x : SlotSt) : (s.setSlot l x).portB = s.portB := rfl
@[simp] theorem State.setSlot_tb (s : State) (l : Nat) (x : SlotSt) : (s.setSlot l x).tb = s.tb := rfl
@[simp] theorem State.setSlot_pes (s : State) (l : Nat) (x : SlotSt) : (s.setSlot l x).pes = s.pes := rfl
@[simp] theorem State.setSlot_mem (s : State) (l : Nat) (x : SlotSt) : (s.setSlot l x).mem = s.mem := rfl
@[simp] theorem State.setSlot_lastPe (s : State) (l : Nat) (x : SlotSt) : (s.setSlot l x).lastPe = s.lastPe := rfl
@[simp] theorem State.setSlot_mbx (s : State) (l : Nat) (x : SlotSt) : (s.setSlot l x).mbx = s.mbx := rfl
@[simp] theorem State.setSlot_swc (s : State) (l : Nat) (x : SlotSt) : (s.setSlot l x).swc = s.swc := rfl
@[simp] theorem State.setSlot_slots (s : State) (l : Nat) (x : SlotSt) : (s.setSlot l x).slots = SMap.set (fun _ => SlotSt.free) s.slots l x := rfl
@[simp] theorem State.setSlot_pers (s : State) (l : Nat) (x : SlotSt) : (s.setSlot l x).pers = s.pers := rfl
@[simp] theorem State.setSlot_wadi (s : State) (l : Nat) (x : SlotSt) : (s.setSlot l x).wadi = s.wadi := rfl
@[simp] theorem State.setSlot_tio (s : State) (l : Nat) (x : SlotSt) : (s.setSlot l x).tio = s.tio := rfl
@[simp] theorem State.setSlot_cvn (s : State) (l : Nat) (x : SlotSt) : (s.setSlot l x).cvn = s.cvn := rfl
@[simp] theorem State.setSlot_buses (s : State) (l : Nat) (x : SlotSt) : (s.setSlot l x).buses = s.buses := rfl
@[simp] theorem State.setSlot_ctrlBad (s : State) (l : Nat) (x : SlotSt) : (s.setSlot l x).ctrlBad = s.ctrlBad := rfl
@[simp] theorem State.setSlot_ctrlWorn (s : State) (l : Nat) (x : SlotSt) : (s.setSlot l x).ctrlWorn = s.ctrlWorn := rfl
@[simp] theorem State.setSlot_psq (s : State) (l : Nat) (x : SlotSt) : (s.setSlot l x).psq = s.psq := rfl
@[simp] theorem State.setSlot_pwr (s : State) (l : Nat) (x : SlotSt) : (s.setSlot l x).pwr = s.pwr := rfl
@[simp] theorem State.setSlot_sio (s : State) (l : Nat) (x : SlotSt) : (s.setSlot l x).sio = s.sio := rfl
@[simp] theorem State.setSlot_reg (s : State) (l : Nat) (x : SlotSt) (o0 : Nat) : (s.setSlot l x).reg o0 = s.reg o0 := rfl
@[simp] theorem State.setSlot_ring (s : State) (l : Nat) (x : SlotSt) (q0 : Nat) : (s.setSlot l x).ring q0 = s.ring q0 := rfl
@[simp] theorem State.setSlot_bus (s : State) (l : Nat) (x : SlotSt) (k0 : Nat) : (s.setSlot l x).bus k0 = s.bus k0 := rfl
@[simp] theorem State.setSlot_chan (s : State) (l : Nat) (x : SlotSt) (k0 : Nat) : (s.setSlot l x).chan k0 = s.chan k0 := rfl
@[simp] theorem State.setSlot_seqSt (s : State) (l : Nat) (x : SlotSt) (k0 : Nat) : (s.setSlot l x).seqSt k0 = s.seqSt k0 := rfl
@[simp] theorem State.setSlot_dq (s : State) (l : Nat) (x : SlotSt) (k0 : Nat) : (s.setSlot l x).dq k0 = s.dq k0 := rfl
@[simp] theorem State.setSlot_mac (s : State) (l : Nat) (x : SlotSt) (k0 : Nat) : (s.setSlot l x).mac k0 = s.mac k0 := rfl
@[simp] theorem State.setSlot_pe (s : State) (l : Nat) (x : SlotSt) (k0 : Fin 18) : (s.setSlot l x).pe k0 = s.pe k0 := rfl
@[simp] theorem State.setSlot_inbox (s : State) (l : Nat) (x : SlotSt) (a0 k0 : Nat) : (s.setSlot l x).inbox a0 k0 = s.inbox a0 k0 := rfl
@[simp] theorem State.setSlot_port (s : State) (l : Nat) (x : SlotSt) (p0 : Nat) : (s.setSlot l x).port p0 = s.port p0 := rfl
@[simp] theorem State.setSlot_regsWf (s : State) (l : Nat) (x : SlotSt) : (s.setSlot l x).regsWf = s.regsWf := rfl

/-! ## setBus -/

@[simp] theorem State.setBus_pending (s : State) (n : Nat) (b : BusSt) : (s.setBus n b).pending = s.pending := rfl
@[simp] theorem State.setBus_out (s : State) (n : Nat) (b : BusSt) : (s.setBus n b).out = s.out := rfl
@[simp] theorem State.setBus_rdata (s : State) (n : Nat) (b : BusSt) : (s.setBus n b).rdata = s.rdata := rfl
@[simp] theorem State.setBus_draws (s : State) (n : Nat) (b : BusSt) : (s.setBus n b).draws = s.draws := rfl
@[simp] theorem State.setBus_m10 (s : State) (n : Nat) (b : BusSt) : (s.setBus n b).m10 = s.m10 := rfl
@[simp] theorem State.setBus_bonded (s : State) (n : Nat) (b : BusSt) : (s.setBus n b).bonded = s.bonded := rfl
@[simp] theorem State.setBus_bondPin (s : State) (n : Nat) (b : BusSt) : (s.setBus n b).bondPin = s.bondPin := rfl
@[simp] theorem State.setBus_mode (s : State) (n : Nat) (b : BusSt) : (s.setBus n b).mode = s.mode := rfl
@[simp] theorem State.setBus_regs (s : State) (n : Nat) (b : BusSt) : (s.setBus n b).regs = s.regs := rfl
@[simp] theorem State.setBus_holding (s : State) (n : Nat) (b : BusSt) : (s.setBus n b).holding = s.holding := rfl
@[simp] theorem State.setBus_faults (s : State) (n : Nat) (b : BusSt) : (s.setBus n b).faults = s.faults := rfl
@[simp] theorem State.setBus_boot (s : State) (n : Nat) (b : BusSt) : (s.setBus n b).boot = s.boot := rfl
@[simp] theorem State.setBus_quiesce (s : State) (n : Nat) (b : BusSt) : (s.setBus n b).quiesce = s.quiesce := rfl
@[simp] theorem State.setBus_flashA (s : State) (n : Nat) (b : BusSt) : (s.setBus n b).flashA = s.flashA := rfl
@[simp] theorem State.setBus_flashB (s : State) (n : Nat) (b : BusSt) : (s.setBus n b).flashB = s.flashB := rfl
@[simp] theorem State.setBus_upd (s : State) (n : Nat) (b : BusSt) : (s.setBus n b).upd = s.upd := rfl
@[simp] theorem State.setBus_nvm (s : State) (n : Nat) (b : BusSt) : (s.setBus n b).nvm = s.nvm := rfl
@[simp] theorem State.setBus_rings (s : State) (n : Nat) (b : BusSt) : (s.setBus n b).rings = s.rings := rfl
@[simp] theorem State.setBus_portA (s : State) (n : Nat) (b : BusSt) : (s.setBus n b).portA = s.portA := rfl
@[simp] theorem State.setBus_portB (s : State) (n : Nat) (b : BusSt) : (s.setBus n b).portB = s.portB := rfl
@[simp] theorem State.setBus_tb (s : State) (n : Nat) (b : BusSt) : (s.setBus n b).tb = s.tb := rfl
@[simp] theorem State.setBus_pes (s : State) (n : Nat) (b : BusSt) : (s.setBus n b).pes = s.pes := rfl
@[simp] theorem State.setBus_mem (s : State) (n : Nat) (b : BusSt) : (s.setBus n b).mem = s.mem := rfl
@[simp] theorem State.setBus_lastPe (s : State) (n : Nat) (b : BusSt) : (s.setBus n b).lastPe = s.lastPe := rfl
@[simp] theorem State.setBus_mbx (s : State) (n : Nat) (b : BusSt) : (s.setBus n b).mbx = s.mbx := rfl
@[simp] theorem State.setBus_swc (s : State) (n : Nat) (b : BusSt) : (s.setBus n b).swc = s.swc := rfl
@[simp] theorem State.setBus_slots (s : State) (n : Nat) (b : BusSt) : (s.setBus n b).slots = s.slots := rfl
@[simp] theorem State.setBus_pers (s : State) (n : Nat) (b : BusSt) : (s.setBus n b).pers = s.pers := rfl
@[simp] theorem State.setBus_wadi (s : State) (n : Nat) (b : BusSt) : (s.setBus n b).wadi = s.wadi := rfl
@[simp] theorem State.setBus_tio (s : State) (n : Nat) (b : BusSt) : (s.setBus n b).tio = s.tio := rfl
@[simp] theorem State.setBus_cvn (s : State) (n : Nat) (b : BusSt) : (s.setBus n b).cvn = s.cvn := rfl
@[simp] theorem State.setBus_buses (s : State) (n : Nat) (b : BusSt) : (s.setBus n b).buses = SMap.set (fun _ => BusSt.reset) s.buses n b := rfl
@[simp] theorem State.setBus_ctrlBad (s : State) (n : Nat) (b : BusSt) : (s.setBus n b).ctrlBad = s.ctrlBad := rfl
@[simp] theorem State.setBus_ctrlWorn (s : State) (n : Nat) (b : BusSt) : (s.setBus n b).ctrlWorn = s.ctrlWorn := rfl
@[simp] theorem State.setBus_psq (s : State) (n : Nat) (b : BusSt) : (s.setBus n b).psq = s.psq := rfl
@[simp] theorem State.setBus_pwr (s : State) (n : Nat) (b : BusSt) : (s.setBus n b).pwr = s.pwr := rfl
@[simp] theorem State.setBus_sio (s : State) (n : Nat) (b : BusSt) : (s.setBus n b).sio = s.sio := rfl
@[simp] theorem State.setBus_reg (s : State) (n : Nat) (b : BusSt) (o0 : Nat) : (s.setBus n b).reg o0 = s.reg o0 := rfl
@[simp] theorem State.setBus_ring (s : State) (n : Nat) (b : BusSt) (q0 : Nat) : (s.setBus n b).ring q0 = s.ring q0 := rfl
@[simp] theorem State.setBus_slot (s : State) (n : Nat) (b : BusSt) (k0 : Nat) : (s.setBus n b).slot k0 = s.slot k0 := rfl
@[simp] theorem State.setBus_chan (s : State) (n : Nat) (b : BusSt) (k0 : Nat) : (s.setBus n b).chan k0 = s.chan k0 := rfl
@[simp] theorem State.setBus_seqSt (s : State) (n : Nat) (b : BusSt) (k0 : Nat) : (s.setBus n b).seqSt k0 = s.seqSt k0 := rfl
@[simp] theorem State.setBus_dq (s : State) (n : Nat) (b : BusSt) (k0 : Nat) : (s.setBus n b).dq k0 = s.dq k0 := rfl
@[simp] theorem State.setBus_mac (s : State) (n : Nat) (b : BusSt) (k0 : Nat) : (s.setBus n b).mac k0 = s.mac k0 := rfl
@[simp] theorem State.setBus_pe (s : State) (n : Nat) (b : BusSt) (k0 : Fin 18) : (s.setBus n b).pe k0 = s.pe k0 := rfl
@[simp] theorem State.setBus_inbox (s : State) (n : Nat) (b : BusSt) (a0 k0 : Nat) : (s.setBus n b).inbox a0 k0 = s.inbox a0 k0 := rfl
@[simp] theorem State.setBus_port (s : State) (n : Nat) (b : BusSt) (p0 : Nat) : (s.setBus n b).port p0 = s.port p0 := rfl
@[simp] theorem State.setBus_quiet (s : State) (n : Nat) (b : BusSt) : (s.setBus n b).quiet = s.quiet := rfl
@[simp] theorem State.setBus_regsWf (s : State) (n : Nat) (b : BusSt) : (s.setBus n b).regsWf = s.regsWf := rfl

/-! ## setChan -/

@[simp] theorem State.setChan_pending (s : State) (c : Nat) (x : CvnChan) : (s.setChan c x).pending = s.pending := rfl
@[simp] theorem State.setChan_out (s : State) (c : Nat) (x : CvnChan) : (s.setChan c x).out = s.out := rfl
@[simp] theorem State.setChan_rdata (s : State) (c : Nat) (x : CvnChan) : (s.setChan c x).rdata = s.rdata := rfl
@[simp] theorem State.setChan_draws (s : State) (c : Nat) (x : CvnChan) : (s.setChan c x).draws = s.draws := rfl
@[simp] theorem State.setChan_m10 (s : State) (c : Nat) (x : CvnChan) : (s.setChan c x).m10 = s.m10 := rfl
@[simp] theorem State.setChan_bonded (s : State) (c : Nat) (x : CvnChan) : (s.setChan c x).bonded = s.bonded := rfl
@[simp] theorem State.setChan_bondPin (s : State) (c : Nat) (x : CvnChan) : (s.setChan c x).bondPin = s.bondPin := rfl
@[simp] theorem State.setChan_mode (s : State) (c : Nat) (x : CvnChan) : (s.setChan c x).mode = s.mode := rfl
@[simp] theorem State.setChan_regs (s : State) (c : Nat) (x : CvnChan) : (s.setChan c x).regs = s.regs := rfl
@[simp] theorem State.setChan_holding (s : State) (c : Nat) (x : CvnChan) : (s.setChan c x).holding = s.holding := rfl
@[simp] theorem State.setChan_faults (s : State) (c : Nat) (x : CvnChan) : (s.setChan c x).faults = s.faults := rfl
@[simp] theorem State.setChan_boot (s : State) (c : Nat) (x : CvnChan) : (s.setChan c x).boot = s.boot := rfl
@[simp] theorem State.setChan_quiesce (s : State) (c : Nat) (x : CvnChan) : (s.setChan c x).quiesce = s.quiesce := rfl
@[simp] theorem State.setChan_flashA (s : State) (c : Nat) (x : CvnChan) : (s.setChan c x).flashA = s.flashA := rfl
@[simp] theorem State.setChan_flashB (s : State) (c : Nat) (x : CvnChan) : (s.setChan c x).flashB = s.flashB := rfl
@[simp] theorem State.setChan_upd (s : State) (c : Nat) (x : CvnChan) : (s.setChan c x).upd = s.upd := rfl
@[simp] theorem State.setChan_nvm (s : State) (c : Nat) (x : CvnChan) : (s.setChan c x).nvm = s.nvm := rfl
@[simp] theorem State.setChan_rings (s : State) (c : Nat) (x : CvnChan) : (s.setChan c x).rings = s.rings := rfl
@[simp] theorem State.setChan_portA (s : State) (c : Nat) (x : CvnChan) : (s.setChan c x).portA = s.portA := rfl
@[simp] theorem State.setChan_portB (s : State) (c : Nat) (x : CvnChan) : (s.setChan c x).portB = s.portB := rfl
@[simp] theorem State.setChan_tb (s : State) (c : Nat) (x : CvnChan) : (s.setChan c x).tb = s.tb := rfl
@[simp] theorem State.setChan_pes (s : State) (c : Nat) (x : CvnChan) : (s.setChan c x).pes = s.pes := rfl
@[simp] theorem State.setChan_mem (s : State) (c : Nat) (x : CvnChan) : (s.setChan c x).mem = s.mem := rfl
@[simp] theorem State.setChan_lastPe (s : State) (c : Nat) (x : CvnChan) : (s.setChan c x).lastPe = s.lastPe := rfl
@[simp] theorem State.setChan_mbx (s : State) (c : Nat) (x : CvnChan) : (s.setChan c x).mbx = s.mbx := rfl
@[simp] theorem State.setChan_swc (s : State) (c : Nat) (x : CvnChan) : (s.setChan c x).swc = s.swc := rfl
@[simp] theorem State.setChan_slots (s : State) (c : Nat) (x : CvnChan) : (s.setChan c x).slots = s.slots := rfl
@[simp] theorem State.setChan_pers (s : State) (c : Nat) (x : CvnChan) : (s.setChan c x).pers = s.pers := rfl
@[simp] theorem State.setChan_wadi (s : State) (c : Nat) (x : CvnChan) : (s.setChan c x).wadi = s.wadi := rfl
@[simp] theorem State.setChan_tio (s : State) (c : Nat) (x : CvnChan) : (s.setChan c x).tio = s.tio := rfl
@[simp] theorem State.setChan_cvn (s : State) (c : Nat) (x : CvnChan) : (s.setChan c x).cvn = { s.cvn with chans := SMap.set (fun _ => CvnChan.reset) s.cvn.chans c x } := rfl
@[simp] theorem State.setChan_buses (s : State) (c : Nat) (x : CvnChan) : (s.setChan c x).buses = s.buses := rfl
@[simp] theorem State.setChan_ctrlBad (s : State) (c : Nat) (x : CvnChan) : (s.setChan c x).ctrlBad = s.ctrlBad := rfl
@[simp] theorem State.setChan_ctrlWorn (s : State) (c : Nat) (x : CvnChan) : (s.setChan c x).ctrlWorn = s.ctrlWorn := rfl
@[simp] theorem State.setChan_psq (s : State) (c : Nat) (x : CvnChan) : (s.setChan c x).psq = s.psq := rfl
@[simp] theorem State.setChan_pwr (s : State) (c : Nat) (x : CvnChan) : (s.setChan c x).pwr = s.pwr := rfl
@[simp] theorem State.setChan_sio (s : State) (c : Nat) (x : CvnChan) : (s.setChan c x).sio = s.sio := rfl
@[simp] theorem State.setChan_reg (s : State) (c : Nat) (x : CvnChan) (o0 : Nat) : (s.setChan c x).reg o0 = s.reg o0 := rfl
@[simp] theorem State.setChan_ring (s : State) (c : Nat) (x : CvnChan) (q0 : Nat) : (s.setChan c x).ring q0 = s.ring q0 := rfl
@[simp] theorem State.setChan_slot (s : State) (c : Nat) (x : CvnChan) (k0 : Nat) : (s.setChan c x).slot k0 = s.slot k0 := rfl
@[simp] theorem State.setChan_bus (s : State) (c : Nat) (x : CvnChan) (k0 : Nat) : (s.setChan c x).bus k0 = s.bus k0 := rfl
@[simp] theorem State.setChan_seqSt (s : State) (c : Nat) (x : CvnChan) (k0 : Nat) : (s.setChan c x).seqSt k0 = s.seqSt k0 := rfl
@[simp] theorem State.setChan_dq (s : State) (c : Nat) (x : CvnChan) (k0 : Nat) : (s.setChan c x).dq k0 = s.dq k0 := rfl
@[simp] theorem State.setChan_mac (s : State) (c : Nat) (x : CvnChan) (k0 : Nat) : (s.setChan c x).mac k0 = s.mac k0 := rfl
@[simp] theorem State.setChan_pe (s : State) (c : Nat) (x : CvnChan) (k0 : Fin 18) : (s.setChan c x).pe k0 = s.pe k0 := rfl
@[simp] theorem State.setChan_inbox (s : State) (c : Nat) (x : CvnChan) (a0 k0 : Nat) : (s.setChan c x).inbox a0 k0 = s.inbox a0 k0 := rfl
@[simp] theorem State.setChan_port (s : State) (c : Nat) (x : CvnChan) (p0 : Nat) : (s.setChan c x).port p0 = s.port p0 := rfl
@[simp] theorem State.setChan_regsWf (s : State) (c : Nat) (x : CvnChan) : (s.setChan c x).regsWf = s.regsWf := rfl

/-! ## setSeq -/

@[simp] theorem State.setSeq_pending (s : State) (n : Nat) (x : SeqSt) : (s.setSeq n x).pending = s.pending := rfl
@[simp] theorem State.setSeq_out (s : State) (n : Nat) (x : SeqSt) : (s.setSeq n x).out = s.out := rfl
@[simp] theorem State.setSeq_rdata (s : State) (n : Nat) (x : SeqSt) : (s.setSeq n x).rdata = s.rdata := rfl
@[simp] theorem State.setSeq_draws (s : State) (n : Nat) (x : SeqSt) : (s.setSeq n x).draws = s.draws := rfl
@[simp] theorem State.setSeq_m10 (s : State) (n : Nat) (x : SeqSt) : (s.setSeq n x).m10 = s.m10 := rfl
@[simp] theorem State.setSeq_bonded (s : State) (n : Nat) (x : SeqSt) : (s.setSeq n x).bonded = s.bonded := rfl
@[simp] theorem State.setSeq_bondPin (s : State) (n : Nat) (x : SeqSt) : (s.setSeq n x).bondPin = s.bondPin := rfl
@[simp] theorem State.setSeq_mode (s : State) (n : Nat) (x : SeqSt) : (s.setSeq n x).mode = s.mode := rfl
@[simp] theorem State.setSeq_regs (s : State) (n : Nat) (x : SeqSt) : (s.setSeq n x).regs = s.regs := rfl
@[simp] theorem State.setSeq_holding (s : State) (n : Nat) (x : SeqSt) : (s.setSeq n x).holding = s.holding := rfl
@[simp] theorem State.setSeq_faults (s : State) (n : Nat) (x : SeqSt) : (s.setSeq n x).faults = s.faults := rfl
@[simp] theorem State.setSeq_boot (s : State) (n : Nat) (x : SeqSt) : (s.setSeq n x).boot = s.boot := rfl
@[simp] theorem State.setSeq_quiesce (s : State) (n : Nat) (x : SeqSt) : (s.setSeq n x).quiesce = s.quiesce := rfl
@[simp] theorem State.setSeq_flashA (s : State) (n : Nat) (x : SeqSt) : (s.setSeq n x).flashA = s.flashA := rfl
@[simp] theorem State.setSeq_flashB (s : State) (n : Nat) (x : SeqSt) : (s.setSeq n x).flashB = s.flashB := rfl
@[simp] theorem State.setSeq_upd (s : State) (n : Nat) (x : SeqSt) : (s.setSeq n x).upd = s.upd := rfl
@[simp] theorem State.setSeq_nvm (s : State) (n : Nat) (x : SeqSt) : (s.setSeq n x).nvm = s.nvm := rfl
@[simp] theorem State.setSeq_rings (s : State) (n : Nat) (x : SeqSt) : (s.setSeq n x).rings = s.rings := rfl
@[simp] theorem State.setSeq_portA (s : State) (n : Nat) (x : SeqSt) : (s.setSeq n x).portA = s.portA := rfl
@[simp] theorem State.setSeq_portB (s : State) (n : Nat) (x : SeqSt) : (s.setSeq n x).portB = s.portB := rfl
@[simp] theorem State.setSeq_tb (s : State) (n : Nat) (x : SeqSt) : (s.setSeq n x).tb = s.tb := rfl
@[simp] theorem State.setSeq_pes (s : State) (n : Nat) (x : SeqSt) : (s.setSeq n x).pes = s.pes := rfl
@[simp] theorem State.setSeq_mem (s : State) (n : Nat) (x : SeqSt) : (s.setSeq n x).mem = s.mem := rfl
@[simp] theorem State.setSeq_lastPe (s : State) (n : Nat) (x : SeqSt) : (s.setSeq n x).lastPe = s.lastPe := rfl
@[simp] theorem State.setSeq_mbx (s : State) (n : Nat) (x : SeqSt) : (s.setSeq n x).mbx = s.mbx := rfl
@[simp] theorem State.setSeq_swc (s : State) (n : Nat) (x : SeqSt) : (s.setSeq n x).swc = s.swc := rfl
@[simp] theorem State.setSeq_slots (s : State) (n : Nat) (x : SeqSt) : (s.setSeq n x).slots = s.slots := rfl
@[simp] theorem State.setSeq_pers (s : State) (n : Nat) (x : SeqSt) : (s.setSeq n x).pers = s.pers := rfl
@[simp] theorem State.setSeq_wadi (s : State) (n : Nat) (x : SeqSt) : (s.setSeq n x).wadi = s.wadi := rfl
@[simp] theorem State.setSeq_tio (s : State) (n : Nat) (x : SeqSt) : (s.setSeq n x).tio = s.tio := rfl
@[simp] theorem State.setSeq_cvn (s : State) (n : Nat) (x : SeqSt) : (s.setSeq n x).cvn = s.cvn := rfl
@[simp] theorem State.setSeq_buses (s : State) (n : Nat) (x : SeqSt) : (s.setSeq n x).buses = s.buses := rfl
@[simp] theorem State.setSeq_ctrlBad (s : State) (n : Nat) (x : SeqSt) : (s.setSeq n x).ctrlBad = s.ctrlBad := rfl
@[simp] theorem State.setSeq_ctrlWorn (s : State) (n : Nat) (x : SeqSt) : (s.setSeq n x).ctrlWorn = s.ctrlWorn := rfl
@[simp] theorem State.setSeq_psq (s : State) (n : Nat) (x : SeqSt) : (s.setSeq n x).psq = { s.psq with seqs := SMap.set (fun _ => SeqSt.reset) s.psq.seqs n x } := rfl
@[simp] theorem State.setSeq_pwr (s : State) (n : Nat) (x : SeqSt) : (s.setSeq n x).pwr = s.pwr := rfl
@[simp] theorem State.setSeq_sio (s : State) (n : Nat) (x : SeqSt) : (s.setSeq n x).sio = s.sio := rfl
@[simp] theorem State.setSeq_reg (s : State) (n : Nat) (x : SeqSt) (o0 : Nat) : (s.setSeq n x).reg o0 = s.reg o0 := rfl
@[simp] theorem State.setSeq_ring (s : State) (n : Nat) (x : SeqSt) (q0 : Nat) : (s.setSeq n x).ring q0 = s.ring q0 := rfl
@[simp] theorem State.setSeq_slot (s : State) (n : Nat) (x : SeqSt) (k0 : Nat) : (s.setSeq n x).slot k0 = s.slot k0 := rfl
@[simp] theorem State.setSeq_bus (s : State) (n : Nat) (x : SeqSt) (k0 : Nat) : (s.setSeq n x).bus k0 = s.bus k0 := rfl
@[simp] theorem State.setSeq_chan (s : State) (n : Nat) (x : SeqSt) (k0 : Nat) : (s.setSeq n x).chan k0 = s.chan k0 := rfl
@[simp] theorem State.setSeq_dq (s : State) (n : Nat) (x : SeqSt) (k0 : Nat) : (s.setSeq n x).dq k0 = s.dq k0 := rfl
@[simp] theorem State.setSeq_mac (s : State) (n : Nat) (x : SeqSt) (k0 : Nat) : (s.setSeq n x).mac k0 = s.mac k0 := rfl
@[simp] theorem State.setSeq_pe (s : State) (n : Nat) (x : SeqSt) (k0 : Fin 18) : (s.setSeq n x).pe k0 = s.pe k0 := rfl
@[simp] theorem State.setSeq_inbox (s : State) (n : Nat) (x : SeqSt) (a0 k0 : Nat) : (s.setSeq n x).inbox a0 k0 = s.inbox a0 k0 := rfl
@[simp] theorem State.setSeq_port (s : State) (n : Nat) (x : SeqSt) (p0 : Nat) : (s.setSeq n x).port p0 = s.port p0 := rfl
@[simp] theorem State.setSeq_quiet (s : State) (n : Nat) (x : SeqSt) : (s.setSeq n x).quiet = s.quiet := rfl
@[simp] theorem State.setSeq_regsWf (s : State) (n : Nat) (x : SeqSt) : (s.setSeq n x).regsWf = s.regsWf := rfl

/-! ## setDq -/

@[simp] theorem State.setDq_pending (s : State) (m : Nat) (x : SioDq) : (s.setDq m x).pending = s.pending := rfl
@[simp] theorem State.setDq_out (s : State) (m : Nat) (x : SioDq) : (s.setDq m x).out = s.out := rfl
@[simp] theorem State.setDq_rdata (s : State) (m : Nat) (x : SioDq) : (s.setDq m x).rdata = s.rdata := rfl
@[simp] theorem State.setDq_draws (s : State) (m : Nat) (x : SioDq) : (s.setDq m x).draws = s.draws := rfl
@[simp] theorem State.setDq_m10 (s : State) (m : Nat) (x : SioDq) : (s.setDq m x).m10 = s.m10 := rfl
@[simp] theorem State.setDq_bonded (s : State) (m : Nat) (x : SioDq) : (s.setDq m x).bonded = s.bonded := rfl
@[simp] theorem State.setDq_bondPin (s : State) (m : Nat) (x : SioDq) : (s.setDq m x).bondPin = s.bondPin := rfl
@[simp] theorem State.setDq_mode (s : State) (m : Nat) (x : SioDq) : (s.setDq m x).mode = s.mode := rfl
@[simp] theorem State.setDq_regs (s : State) (m : Nat) (x : SioDq) : (s.setDq m x).regs = s.regs := rfl
@[simp] theorem State.setDq_holding (s : State) (m : Nat) (x : SioDq) : (s.setDq m x).holding = s.holding := rfl
@[simp] theorem State.setDq_faults (s : State) (m : Nat) (x : SioDq) : (s.setDq m x).faults = s.faults := rfl
@[simp] theorem State.setDq_boot (s : State) (m : Nat) (x : SioDq) : (s.setDq m x).boot = s.boot := rfl
@[simp] theorem State.setDq_quiesce (s : State) (m : Nat) (x : SioDq) : (s.setDq m x).quiesce = s.quiesce := rfl
@[simp] theorem State.setDq_flashA (s : State) (m : Nat) (x : SioDq) : (s.setDq m x).flashA = s.flashA := rfl
@[simp] theorem State.setDq_flashB (s : State) (m : Nat) (x : SioDq) : (s.setDq m x).flashB = s.flashB := rfl
@[simp] theorem State.setDq_upd (s : State) (m : Nat) (x : SioDq) : (s.setDq m x).upd = s.upd := rfl
@[simp] theorem State.setDq_nvm (s : State) (m : Nat) (x : SioDq) : (s.setDq m x).nvm = s.nvm := rfl
@[simp] theorem State.setDq_rings (s : State) (m : Nat) (x : SioDq) : (s.setDq m x).rings = s.rings := rfl
@[simp] theorem State.setDq_portA (s : State) (m : Nat) (x : SioDq) : (s.setDq m x).portA = s.portA := rfl
@[simp] theorem State.setDq_portB (s : State) (m : Nat) (x : SioDq) : (s.setDq m x).portB = s.portB := rfl
@[simp] theorem State.setDq_tb (s : State) (m : Nat) (x : SioDq) : (s.setDq m x).tb = s.tb := rfl
@[simp] theorem State.setDq_pes (s : State) (m : Nat) (x : SioDq) : (s.setDq m x).pes = s.pes := rfl
@[simp] theorem State.setDq_mem (s : State) (m : Nat) (x : SioDq) : (s.setDq m x).mem = s.mem := rfl
@[simp] theorem State.setDq_lastPe (s : State) (m : Nat) (x : SioDq) : (s.setDq m x).lastPe = s.lastPe := rfl
@[simp] theorem State.setDq_mbx (s : State) (m : Nat) (x : SioDq) : (s.setDq m x).mbx = s.mbx := rfl
@[simp] theorem State.setDq_swc (s : State) (m : Nat) (x : SioDq) : (s.setDq m x).swc = s.swc := rfl
@[simp] theorem State.setDq_slots (s : State) (m : Nat) (x : SioDq) : (s.setDq m x).slots = s.slots := rfl
@[simp] theorem State.setDq_pers (s : State) (m : Nat) (x : SioDq) : (s.setDq m x).pers = s.pers := rfl
@[simp] theorem State.setDq_wadi (s : State) (m : Nat) (x : SioDq) : (s.setDq m x).wadi = s.wadi := rfl
@[simp] theorem State.setDq_tio (s : State) (m : Nat) (x : SioDq) : (s.setDq m x).tio = s.tio := rfl
@[simp] theorem State.setDq_cvn (s : State) (m : Nat) (x : SioDq) : (s.setDq m x).cvn = s.cvn := rfl
@[simp] theorem State.setDq_buses (s : State) (m : Nat) (x : SioDq) : (s.setDq m x).buses = s.buses := rfl
@[simp] theorem State.setDq_ctrlBad (s : State) (m : Nat) (x : SioDq) : (s.setDq m x).ctrlBad = s.ctrlBad := rfl
@[simp] theorem State.setDq_ctrlWorn (s : State) (m : Nat) (x : SioDq) : (s.setDq m x).ctrlWorn = s.ctrlWorn := rfl
@[simp] theorem State.setDq_psq (s : State) (m : Nat) (x : SioDq) : (s.setDq m x).psq = s.psq := rfl
@[simp] theorem State.setDq_pwr (s : State) (m : Nat) (x : SioDq) : (s.setDq m x).pwr = s.pwr := rfl
@[simp] theorem State.setDq_sio (s : State) (m : Nat) (x : SioDq) : (s.setDq m x).sio = { s.sio with dqs := SMap.set (fun _ => SioDq.reset) s.sio.dqs m x } := rfl
@[simp] theorem State.setDq_reg (s : State) (m : Nat) (x : SioDq) (o0 : Nat) : (s.setDq m x).reg o0 = s.reg o0 := rfl
@[simp] theorem State.setDq_ring (s : State) (m : Nat) (x : SioDq) (q0 : Nat) : (s.setDq m x).ring q0 = s.ring q0 := rfl
@[simp] theorem State.setDq_slot (s : State) (m : Nat) (x : SioDq) (k0 : Nat) : (s.setDq m x).slot k0 = s.slot k0 := rfl
@[simp] theorem State.setDq_bus (s : State) (m : Nat) (x : SioDq) (k0 : Nat) : (s.setDq m x).bus k0 = s.bus k0 := rfl
@[simp] theorem State.setDq_chan (s : State) (m : Nat) (x : SioDq) (k0 : Nat) : (s.setDq m x).chan k0 = s.chan k0 := rfl
@[simp] theorem State.setDq_seqSt (s : State) (m : Nat) (x : SioDq) (k0 : Nat) : (s.setDq m x).seqSt k0 = s.seqSt k0 := rfl
@[simp] theorem State.setDq_mac (s : State) (m : Nat) (x : SioDq) (k0 : Nat) : (s.setDq m x).mac k0 = s.mac k0 := rfl
@[simp] theorem State.setDq_pe (s : State) (m : Nat) (x : SioDq) (k0 : Fin 18) : (s.setDq m x).pe k0 = s.pe k0 := rfl
@[simp] theorem State.setDq_inbox (s : State) (m : Nat) (x : SioDq) (a0 k0 : Nat) : (s.setDq m x).inbox a0 k0 = s.inbox a0 k0 := rfl
@[simp] theorem State.setDq_port (s : State) (m : Nat) (x : SioDq) (p0 : Nat) : (s.setDq m x).port p0 = s.port p0 := rfl
@[simp] theorem State.setDq_quiet (s : State) (m : Nat) (x : SioDq) : (s.setDq m x).quiet = s.quiet := rfl
@[simp] theorem State.setDq_regsWf (s : State) (m : Nat) (x : SioDq) : (s.setDq m x).regsWf = s.regsWf := rfl

/-! ## setMac -/

@[simp] theorem State.setMac_pending (s : State) (n : Nat) (m : MacSt) : (s.setMac n m).pending = s.pending := rfl
@[simp] theorem State.setMac_out (s : State) (n : Nat) (m : MacSt) : (s.setMac n m).out = s.out := rfl
@[simp] theorem State.setMac_rdata (s : State) (n : Nat) (m : MacSt) : (s.setMac n m).rdata = s.rdata := rfl
@[simp] theorem State.setMac_draws (s : State) (n : Nat) (m : MacSt) : (s.setMac n m).draws = s.draws := rfl
@[simp] theorem State.setMac_m10 (s : State) (n : Nat) (m : MacSt) : (s.setMac n m).m10 = s.m10 := rfl
@[simp] theorem State.setMac_bonded (s : State) (n : Nat) (m : MacSt) : (s.setMac n m).bonded = s.bonded := rfl
@[simp] theorem State.setMac_bondPin (s : State) (n : Nat) (m : MacSt) : (s.setMac n m).bondPin = s.bondPin := rfl
@[simp] theorem State.setMac_mode (s : State) (n : Nat) (m : MacSt) : (s.setMac n m).mode = s.mode := rfl
@[simp] theorem State.setMac_regs (s : State) (n : Nat) (m : MacSt) : (s.setMac n m).regs = s.regs := rfl
@[simp] theorem State.setMac_holding (s : State) (n : Nat) (m : MacSt) : (s.setMac n m).holding = s.holding := rfl
@[simp] theorem State.setMac_faults (s : State) (n : Nat) (m : MacSt) : (s.setMac n m).faults = s.faults := rfl
@[simp] theorem State.setMac_boot (s : State) (n : Nat) (m : MacSt) : (s.setMac n m).boot = s.boot := rfl
@[simp] theorem State.setMac_quiesce (s : State) (n : Nat) (m : MacSt) : (s.setMac n m).quiesce = s.quiesce := rfl
@[simp] theorem State.setMac_flashA (s : State) (n : Nat) (m : MacSt) : (s.setMac n m).flashA = s.flashA := rfl
@[simp] theorem State.setMac_flashB (s : State) (n : Nat) (m : MacSt) : (s.setMac n m).flashB = s.flashB := rfl
@[simp] theorem State.setMac_upd (s : State) (n : Nat) (m : MacSt) : (s.setMac n m).upd = s.upd := rfl
@[simp] theorem State.setMac_nvm (s : State) (n : Nat) (m : MacSt) : (s.setMac n m).nvm = s.nvm := rfl
@[simp] theorem State.setMac_rings (s : State) (n : Nat) (m : MacSt) : (s.setMac n m).rings = s.rings := rfl
@[simp] theorem State.setMac_portA (s : State) (n : Nat) (m : MacSt) : (s.setMac n m).portA = s.portA := rfl
@[simp] theorem State.setMac_portB (s : State) (n : Nat) (m : MacSt) : (s.setMac n m).portB = s.portB := rfl
@[simp] theorem State.setMac_tb (s : State) (n : Nat) (m : MacSt) : (s.setMac n m).tb = s.tb := rfl
@[simp] theorem State.setMac_pes (s : State) (n : Nat) (m : MacSt) : (s.setMac n m).pes = s.pes := rfl
@[simp] theorem State.setMac_mem (s : State) (n : Nat) (m : MacSt) : (s.setMac n m).mem = s.mem := rfl
@[simp] theorem State.setMac_lastPe (s : State) (n : Nat) (m : MacSt) : (s.setMac n m).lastPe = s.lastPe := rfl
@[simp] theorem State.setMac_mbx (s : State) (n : Nat) (m : MacSt) : (s.setMac n m).mbx = s.mbx := rfl
@[simp] theorem State.setMac_swc (s : State) (n : Nat) (m : MacSt) : (s.setMac n m).swc = { s.swc with macs := SMap.set (fun _ => MacSt.reset) s.swc.macs n m } := rfl
@[simp] theorem State.setMac_slots (s : State) (n : Nat) (m : MacSt) : (s.setMac n m).slots = s.slots := rfl
@[simp] theorem State.setMac_pers (s : State) (n : Nat) (m : MacSt) : (s.setMac n m).pers = s.pers := rfl
@[simp] theorem State.setMac_wadi (s : State) (n : Nat) (m : MacSt) : (s.setMac n m).wadi = s.wadi := rfl
@[simp] theorem State.setMac_tio (s : State) (n : Nat) (m : MacSt) : (s.setMac n m).tio = s.tio := rfl
@[simp] theorem State.setMac_cvn (s : State) (n : Nat) (m : MacSt) : (s.setMac n m).cvn = s.cvn := rfl
@[simp] theorem State.setMac_buses (s : State) (n : Nat) (m : MacSt) : (s.setMac n m).buses = s.buses := rfl
@[simp] theorem State.setMac_ctrlBad (s : State) (n : Nat) (m : MacSt) : (s.setMac n m).ctrlBad = s.ctrlBad := rfl
@[simp] theorem State.setMac_ctrlWorn (s : State) (n : Nat) (m : MacSt) : (s.setMac n m).ctrlWorn = s.ctrlWorn := rfl
@[simp] theorem State.setMac_psq (s : State) (n : Nat) (m : MacSt) : (s.setMac n m).psq = s.psq := rfl
@[simp] theorem State.setMac_pwr (s : State) (n : Nat) (m : MacSt) : (s.setMac n m).pwr = s.pwr := rfl
@[simp] theorem State.setMac_sio (s : State) (n : Nat) (m : MacSt) : (s.setMac n m).sio = s.sio := rfl
@[simp] theorem State.setMac_reg (s : State) (n : Nat) (m : MacSt) (o0 : Nat) : (s.setMac n m).reg o0 = s.reg o0 := rfl
@[simp] theorem State.setMac_ring (s : State) (n : Nat) (m : MacSt) (q0 : Nat) : (s.setMac n m).ring q0 = s.ring q0 := rfl
@[simp] theorem State.setMac_slot (s : State) (n : Nat) (m : MacSt) (k0 : Nat) : (s.setMac n m).slot k0 = s.slot k0 := rfl
@[simp] theorem State.setMac_bus (s : State) (n : Nat) (m : MacSt) (k0 : Nat) : (s.setMac n m).bus k0 = s.bus k0 := rfl
@[simp] theorem State.setMac_chan (s : State) (n : Nat) (m : MacSt) (k0 : Nat) : (s.setMac n m).chan k0 = s.chan k0 := rfl
@[simp] theorem State.setMac_seqSt (s : State) (n : Nat) (m : MacSt) (k0 : Nat) : (s.setMac n m).seqSt k0 = s.seqSt k0 := rfl
@[simp] theorem State.setMac_dq (s : State) (n : Nat) (m : MacSt) (k0 : Nat) : (s.setMac n m).dq k0 = s.dq k0 := rfl
@[simp] theorem State.setMac_pe (s : State) (n : Nat) (m : MacSt) (k0 : Fin 18) : (s.setMac n m).pe k0 = s.pe k0 := rfl
@[simp] theorem State.setMac_inbox (s : State) (n : Nat) (m : MacSt) (a0 k0 : Nat) : (s.setMac n m).inbox a0 k0 = s.inbox a0 k0 := rfl
@[simp] theorem State.setMac_port (s : State) (n : Nat) (m : MacSt) (p0 : Nat) : (s.setMac n m).port p0 = s.port p0 := rfl
@[simp] theorem State.setMac_quiet (s : State) (n : Nat) (m : MacSt) : (s.setMac n m).quiet = s.quiet := rfl
@[simp] theorem State.setMac_regsWf (s : State) (n : Nat) (m : MacSt) : (s.setMac n m).regsWf = s.regsWf := rfl

/-! ## setInbox -/

@[simp] theorem State.setInbox_pending (s : State) (ep k : Nat) (b : Inbox) : (s.setInbox ep k b).pending = s.pending := rfl
@[simp] theorem State.setInbox_out (s : State) (ep k : Nat) (b : Inbox) : (s.setInbox ep k b).out = s.out := rfl
@[simp] theorem State.setInbox_rdata (s : State) (ep k : Nat) (b : Inbox) : (s.setInbox ep k b).rdata = s.rdata := rfl
@[simp] theorem State.setInbox_draws (s : State) (ep k : Nat) (b : Inbox) : (s.setInbox ep k b).draws = s.draws := rfl
@[simp] theorem State.setInbox_m10 (s : State) (ep k : Nat) (b : Inbox) : (s.setInbox ep k b).m10 = s.m10 := rfl
@[simp] theorem State.setInbox_bonded (s : State) (ep k : Nat) (b : Inbox) : (s.setInbox ep k b).bonded = s.bonded := rfl
@[simp] theorem State.setInbox_bondPin (s : State) (ep k : Nat) (b : Inbox) : (s.setInbox ep k b).bondPin = s.bondPin := rfl
@[simp] theorem State.setInbox_mode (s : State) (ep k : Nat) (b : Inbox) : (s.setInbox ep k b).mode = s.mode := rfl
@[simp] theorem State.setInbox_regs (s : State) (ep k : Nat) (b : Inbox) : (s.setInbox ep k b).regs = s.regs := rfl
@[simp] theorem State.setInbox_holding (s : State) (ep k : Nat) (b : Inbox) : (s.setInbox ep k b).holding = s.holding := rfl
@[simp] theorem State.setInbox_faults (s : State) (ep k : Nat) (b : Inbox) : (s.setInbox ep k b).faults = s.faults := rfl
@[simp] theorem State.setInbox_boot (s : State) (ep k : Nat) (b : Inbox) : (s.setInbox ep k b).boot = s.boot := rfl
@[simp] theorem State.setInbox_quiesce (s : State) (ep k : Nat) (b : Inbox) : (s.setInbox ep k b).quiesce = s.quiesce := rfl
@[simp] theorem State.setInbox_flashA (s : State) (ep k : Nat) (b : Inbox) : (s.setInbox ep k b).flashA = s.flashA := rfl
@[simp] theorem State.setInbox_flashB (s : State) (ep k : Nat) (b : Inbox) : (s.setInbox ep k b).flashB = s.flashB := rfl
@[simp] theorem State.setInbox_upd (s : State) (ep k : Nat) (b : Inbox) : (s.setInbox ep k b).upd = s.upd := rfl
@[simp] theorem State.setInbox_nvm (s : State) (ep k : Nat) (b : Inbox) : (s.setInbox ep k b).nvm = s.nvm := rfl
@[simp] theorem State.setInbox_rings (s : State) (ep k : Nat) (b : Inbox) : (s.setInbox ep k b).rings = s.rings := rfl
@[simp] theorem State.setInbox_portA (s : State) (ep k : Nat) (b : Inbox) : (s.setInbox ep k b).portA = s.portA := rfl
@[simp] theorem State.setInbox_portB (s : State) (ep k : Nat) (b : Inbox) : (s.setInbox ep k b).portB = s.portB := rfl
@[simp] theorem State.setInbox_tb (s : State) (ep k : Nat) (b : Inbox) : (s.setInbox ep k b).tb = s.tb := rfl
@[simp] theorem State.setInbox_pes (s : State) (ep k : Nat) (b : Inbox) : (s.setInbox ep k b).pes = s.pes := rfl
@[simp] theorem State.setInbox_mem (s : State) (ep k : Nat) (b : Inbox) : (s.setInbox ep k b).mem = s.mem := rfl
@[simp] theorem State.setInbox_lastPe (s : State) (ep k : Nat) (b : Inbox) : (s.setInbox ep k b).lastPe = s.lastPe := rfl
@[simp] theorem State.setInbox_mbx (s : State) (ep k : Nat) (b : Inbox) : (s.setInbox ep k b).mbx = { s.mbx with inbox := SMap.set (fun _ => Inbox.empty) s.mbx.inbox (4 * ep + k) b } := rfl
@[simp] theorem State.setInbox_swc (s : State) (ep k : Nat) (b : Inbox) : (s.setInbox ep k b).swc = s.swc := rfl
@[simp] theorem State.setInbox_slots (s : State) (ep k : Nat) (b : Inbox) : (s.setInbox ep k b).slots = s.slots := rfl
@[simp] theorem State.setInbox_pers (s : State) (ep k : Nat) (b : Inbox) : (s.setInbox ep k b).pers = s.pers := rfl
@[simp] theorem State.setInbox_wadi (s : State) (ep k : Nat) (b : Inbox) : (s.setInbox ep k b).wadi = s.wadi := rfl
@[simp] theorem State.setInbox_tio (s : State) (ep k : Nat) (b : Inbox) : (s.setInbox ep k b).tio = s.tio := rfl
@[simp] theorem State.setInbox_cvn (s : State) (ep k : Nat) (b : Inbox) : (s.setInbox ep k b).cvn = s.cvn := rfl
@[simp] theorem State.setInbox_buses (s : State) (ep k : Nat) (b : Inbox) : (s.setInbox ep k b).buses = s.buses := rfl
@[simp] theorem State.setInbox_ctrlBad (s : State) (ep k : Nat) (b : Inbox) : (s.setInbox ep k b).ctrlBad = s.ctrlBad := rfl
@[simp] theorem State.setInbox_ctrlWorn (s : State) (ep k : Nat) (b : Inbox) : (s.setInbox ep k b).ctrlWorn = s.ctrlWorn := rfl
@[simp] theorem State.setInbox_psq (s : State) (ep k : Nat) (b : Inbox) : (s.setInbox ep k b).psq = s.psq := rfl
@[simp] theorem State.setInbox_pwr (s : State) (ep k : Nat) (b : Inbox) : (s.setInbox ep k b).pwr = s.pwr := rfl
@[simp] theorem State.setInbox_sio (s : State) (ep k : Nat) (b : Inbox) : (s.setInbox ep k b).sio = s.sio := rfl
@[simp] theorem State.setInbox_reg (s : State) (ep k : Nat) (b : Inbox) (o0 : Nat) : (s.setInbox ep k b).reg o0 = s.reg o0 := rfl
@[simp] theorem State.setInbox_ring (s : State) (ep k : Nat) (b : Inbox) (q0 : Nat) : (s.setInbox ep k b).ring q0 = s.ring q0 := rfl
@[simp] theorem State.setInbox_slot (s : State) (ep k : Nat) (b : Inbox) (k0 : Nat) : (s.setInbox ep k b).slot k0 = s.slot k0 := rfl
@[simp] theorem State.setInbox_bus (s : State) (ep k : Nat) (b : Inbox) (k0 : Nat) : (s.setInbox ep k b).bus k0 = s.bus k0 := rfl
@[simp] theorem State.setInbox_chan (s : State) (ep k : Nat) (b : Inbox) (k0 : Nat) : (s.setInbox ep k b).chan k0 = s.chan k0 := rfl
@[simp] theorem State.setInbox_seqSt (s : State) (ep k : Nat) (b : Inbox) (k0 : Nat) : (s.setInbox ep k b).seqSt k0 = s.seqSt k0 := rfl
@[simp] theorem State.setInbox_dq (s : State) (ep k : Nat) (b : Inbox) (k0 : Nat) : (s.setInbox ep k b).dq k0 = s.dq k0 := rfl
@[simp] theorem State.setInbox_mac (s : State) (ep k : Nat) (b : Inbox) (k0 : Nat) : (s.setInbox ep k b).mac k0 = s.mac k0 := rfl
@[simp] theorem State.setInbox_pe (s : State) (ep k : Nat) (b : Inbox) (k0 : Fin 18) : (s.setInbox ep k b).pe k0 = s.pe k0 := rfl
@[simp] theorem State.setInbox_port (s : State) (ep k : Nat) (b : Inbox) (p0 : Nat) : (s.setInbox ep k b).port p0 = s.port p0 := rfl
@[simp] theorem State.setInbox_quiet (s : State) (ep k : Nat) (b : Inbox) : (s.setInbox ep k b).quiet = s.quiet := rfl
@[simp] theorem State.setInbox_regsWf (s : State) (ep k : Nat) (b : Inbox) : (s.setInbox ep k b).regsWf = s.regsWf := rfl

/-! ## setTio -/

@[simp] theorem State.setTio_pending (s : State) (n : Nat) (x : TioSt) : (s.setTio n x).pending = s.pending := rfl
@[simp] theorem State.setTio_out (s : State) (n : Nat) (x : TioSt) : (s.setTio n x).out = s.out := rfl
@[simp] theorem State.setTio_rdata (s : State) (n : Nat) (x : TioSt) : (s.setTio n x).rdata = s.rdata := rfl
@[simp] theorem State.setTio_draws (s : State) (n : Nat) (x : TioSt) : (s.setTio n x).draws = s.draws := rfl
@[simp] theorem State.setTio_m10 (s : State) (n : Nat) (x : TioSt) : (s.setTio n x).m10 = s.m10 := rfl
@[simp] theorem State.setTio_bonded (s : State) (n : Nat) (x : TioSt) : (s.setTio n x).bonded = s.bonded := rfl
@[simp] theorem State.setTio_bondPin (s : State) (n : Nat) (x : TioSt) : (s.setTio n x).bondPin = s.bondPin := rfl
@[simp] theorem State.setTio_mode (s : State) (n : Nat) (x : TioSt) : (s.setTio n x).mode = s.mode := rfl
@[simp] theorem State.setTio_regs (s : State) (n : Nat) (x : TioSt) : (s.setTio n x).regs = s.regs := rfl
@[simp] theorem State.setTio_holding (s : State) (n : Nat) (x : TioSt) : (s.setTio n x).holding = s.holding := rfl
@[simp] theorem State.setTio_faults (s : State) (n : Nat) (x : TioSt) : (s.setTio n x).faults = s.faults := rfl
@[simp] theorem State.setTio_boot (s : State) (n : Nat) (x : TioSt) : (s.setTio n x).boot = s.boot := rfl
@[simp] theorem State.setTio_quiesce (s : State) (n : Nat) (x : TioSt) : (s.setTio n x).quiesce = s.quiesce := rfl
@[simp] theorem State.setTio_flashA (s : State) (n : Nat) (x : TioSt) : (s.setTio n x).flashA = s.flashA := rfl
@[simp] theorem State.setTio_flashB (s : State) (n : Nat) (x : TioSt) : (s.setTio n x).flashB = s.flashB := rfl
@[simp] theorem State.setTio_upd (s : State) (n : Nat) (x : TioSt) : (s.setTio n x).upd = s.upd := rfl
@[simp] theorem State.setTio_nvm (s : State) (n : Nat) (x : TioSt) : (s.setTio n x).nvm = s.nvm := rfl
@[simp] theorem State.setTio_rings (s : State) (n : Nat) (x : TioSt) : (s.setTio n x).rings = s.rings := rfl
@[simp] theorem State.setTio_portA (s : State) (n : Nat) (x : TioSt) : (s.setTio n x).portA = s.portA := rfl
@[simp] theorem State.setTio_portB (s : State) (n : Nat) (x : TioSt) : (s.setTio n x).portB = s.portB := rfl
@[simp] theorem State.setTio_tb (s : State) (n : Nat) (x : TioSt) : (s.setTio n x).tb = s.tb := rfl
@[simp] theorem State.setTio_pes (s : State) (n : Nat) (x : TioSt) : (s.setTio n x).pes = s.pes := rfl
@[simp] theorem State.setTio_mem (s : State) (n : Nat) (x : TioSt) : (s.setTio n x).mem = s.mem := rfl
@[simp] theorem State.setTio_lastPe (s : State) (n : Nat) (x : TioSt) : (s.setTio n x).lastPe = s.lastPe := rfl
@[simp] theorem State.setTio_mbx (s : State) (n : Nat) (x : TioSt) : (s.setTio n x).mbx = s.mbx := rfl
@[simp] theorem State.setTio_swc (s : State) (n : Nat) (x : TioSt) : (s.setTio n x).swc = s.swc := rfl
@[simp] theorem State.setTio_slots (s : State) (n : Nat) (x : TioSt) : (s.setTio n x).slots = s.slots := rfl
@[simp] theorem State.setTio_pers (s : State) (n : Nat) (x : TioSt) : (s.setTio n x).pers = s.pers := rfl
@[simp] theorem State.setTio_wadi (s : State) (n : Nat) (x : TioSt) : (s.setTio n x).wadi = s.wadi := rfl
@[simp] theorem State.setTio_tio (s : State) (n : Nat) (x : TioSt) : (s.setTio n x).tio = SMap.set (fun _ => TioSt.reset) s.tio n x := rfl
@[simp] theorem State.setTio_cvn (s : State) (n : Nat) (x : TioSt) : (s.setTio n x).cvn = s.cvn := rfl
@[simp] theorem State.setTio_buses (s : State) (n : Nat) (x : TioSt) : (s.setTio n x).buses = s.buses := rfl
@[simp] theorem State.setTio_ctrlBad (s : State) (n : Nat) (x : TioSt) : (s.setTio n x).ctrlBad = s.ctrlBad := rfl
@[simp] theorem State.setTio_ctrlWorn (s : State) (n : Nat) (x : TioSt) : (s.setTio n x).ctrlWorn = s.ctrlWorn := rfl
@[simp] theorem State.setTio_psq (s : State) (n : Nat) (x : TioSt) : (s.setTio n x).psq = s.psq := rfl
@[simp] theorem State.setTio_pwr (s : State) (n : Nat) (x : TioSt) : (s.setTio n x).pwr = s.pwr := rfl
@[simp] theorem State.setTio_sio (s : State) (n : Nat) (x : TioSt) : (s.setTio n x).sio = s.sio := rfl
@[simp] theorem State.setTio_reg (s : State) (n : Nat) (x : TioSt) (o0 : Nat) : (s.setTio n x).reg o0 = s.reg o0 := rfl
@[simp] theorem State.setTio_ring (s : State) (n : Nat) (x : TioSt) (q0 : Nat) : (s.setTio n x).ring q0 = s.ring q0 := rfl
@[simp] theorem State.setTio_slot (s : State) (n : Nat) (x : TioSt) (k0 : Nat) : (s.setTio n x).slot k0 = s.slot k0 := rfl
@[simp] theorem State.setTio_bus (s : State) (n : Nat) (x : TioSt) (k0 : Nat) : (s.setTio n x).bus k0 = s.bus k0 := rfl
@[simp] theorem State.setTio_chan (s : State) (n : Nat) (x : TioSt) (k0 : Nat) : (s.setTio n x).chan k0 = s.chan k0 := rfl
@[simp] theorem State.setTio_seqSt (s : State) (n : Nat) (x : TioSt) (k0 : Nat) : (s.setTio n x).seqSt k0 = s.seqSt k0 := rfl
@[simp] theorem State.setTio_dq (s : State) (n : Nat) (x : TioSt) (k0 : Nat) : (s.setTio n x).dq k0 = s.dq k0 := rfl
@[simp] theorem State.setTio_mac (s : State) (n : Nat) (x : TioSt) (k0 : Nat) : (s.setTio n x).mac k0 = s.mac k0 := rfl
@[simp] theorem State.setTio_pe (s : State) (n : Nat) (x : TioSt) (k0 : Fin 18) : (s.setTio n x).pe k0 = s.pe k0 := rfl
@[simp] theorem State.setTio_inbox (s : State) (n : Nat) (x : TioSt) (a0 k0 : Nat) : (s.setTio n x).inbox a0 k0 = s.inbox a0 k0 := rfl
@[simp] theorem State.setTio_port (s : State) (n : Nat) (x : TioSt) (p0 : Nat) : (s.setTio n x).port p0 = s.port p0 := rfl
@[simp] theorem State.setTio_quiet (s : State) (n : Nat) (x : TioSt) : (s.setTio n x).quiet = s.quiet := rfl
@[simp] theorem State.setTio_regsWf (s : State) (n : Nat) (x : TioSt) : (s.setTio n x).regsWf = s.regsWf := rfl

/-! ## Read after write -/

theorem State.regsWf_setReg {s : State} (w : s.regsWf = true) (off : Nat) (v : Word) : (s.setReg off v).regsWf = true :=
  SMap.wf_set resetWord w off v

theorem State.reg_setReg_self {s : State} (w : s.regsWf = true) (off : Nat) (v : Word) : (s.setReg off v).reg off = v :=
  SMap.get_set_self resetWord w off v

theorem State.reg_setReg_other {s : State} (w : s.regsWf = true) {off o : Nat} (h : o ≠ off) (v : Word) :
    (s.setReg off v).reg o = s.reg o :=
  SMap.get_set_other resetWord w h v

@[simp] theorem State.pe_setPe_self (s : State) (n : Fin 18) (e : Engine) : (s.setPe n e).pe n = e := by
  simp [State.pe, State.setPe]

theorem State.pe_setPe_other (s : State) {n k : Fin 18} (h : k ≠ n) (e : Engine) : (s.setPe n e).pe k = s.pe k := by
  have h' : n.val ≠ k.val := fun e => h (Fin.ext e.symm)
  simp [State.pe, State.setPe, h']

/-- The parts of the canonical form. -/
theorem State.canon_regs {s : State} (c : s.canon = true) : s.regsWf = true := by
  simp only [State.canon, Bool.and_eq_true] at c; simp only [c]

theorem State.canon_rings {s : State} (c : s.canon = true) : SMap.wf (fun _ => Ring.reset) s.rings = true := by
  simp only [State.canon, Bool.and_eq_true] at c; simp only [c]

theorem State.canon_slots {s : State} (c : s.canon = true) : SMap.wf (fun _ => SlotSt.free) s.slots = true := by
  simp only [State.canon, Bool.and_eq_true] at c; simp only [c]

theorem State.canon_buses {s : State} (c : s.canon = true) : SMap.wf (fun _ => BusSt.reset) s.buses = true := by
  simp only [State.canon, Bool.and_eq_true] at c; simp only [c]

theorem State.canon_tio {s : State} (c : s.canon = true) : SMap.wf (fun _ => TioSt.reset) s.tio = true := by
  simp only [State.canon, Bool.and_eq_true] at c; simp only [c]

theorem State.canon_chans {s : State} (c : s.canon = true) : SMap.wf (fun _ => CvnChan.reset) s.cvn.chans = true := by
  simp only [State.canon, Bool.and_eq_true] at c; simp only [c]

theorem State.canon_seqs {s : State} (c : s.canon = true) : SMap.wf (fun _ => SeqSt.reset) s.psq.seqs = true := by
  simp only [State.canon, Bool.and_eq_true] at c; simp only [c]

theorem State.canon_pairs {s : State} (c : s.canon = true) : SMap.wf (fun _ => SioPair.reset) s.sio.pairs = true := by
  simp only [State.canon, Bool.and_eq_true] at c; simp only [c]

theorem State.canon_dis {s : State} (c : s.canon = true) : SMap.wf (fun _ => SioDi.reset) s.sio.dis = true := by
  simp only [State.canon, Bool.and_eq_true] at c; simp only [c]

theorem State.canon_dqs {s : State} (c : s.canon = true) : SMap.wf (fun _ => SioDq.reset) s.sio.dqs = true := by
  simp only [State.canon, Bool.and_eq_true] at c; simp only [c]

theorem State.canon_inbox {s : State} (c : s.canon = true) : SMap.wf (fun _ => Inbox.empty) s.mbx.inbox = true := by
  simp only [State.canon, Bool.and_eq_true] at c; simp only [c]

theorem State.canon_macs {s : State} (c : s.canon = true) : SMap.wf (fun _ => MacSt.reset) s.swc.macs = true := by
  simp only [State.canon, Bool.and_eq_true] at c; simp only [c]

theorem State.canon_frames {s : State} (c : s.canon = true) : SMap.wf (fun _ => none) s.swc.frames = true := by
  simp only [State.canon, Bool.and_eq_true] at c; simp only [c]

theorem State.ring_setRing_self {s : State} (w : s.canon = true) (r : Nat) (x : Ring) : (s.setRing r x).ring r = x :=
  SMap.get_set_self _ (State.canon_rings w) r x

theorem State.ring_setRing_other {s : State} (w : s.canon = true) {r q : Nat} (h : q ≠ r) (x : Ring) :
    (s.setRing r x).ring q = s.ring q :=
  SMap.get_set_other _ (State.canon_rings w) h x

theorem State.slot_setSlot_self {s : State} (w : s.canon = true) (l : Nat) (x : SlotSt) : (s.setSlot l x).slot l = x :=
  SMap.get_set_self _ (State.canon_slots w) l x

theorem State.slot_setSlot_other {s : State} (w : s.canon = true) {l k : Nat} (h : k ≠ l) (x : SlotSt) :
    (s.setSlot l x).slot k = s.slot k :=
  SMap.get_set_other _ (State.canon_slots w) h x

theorem State.bus_setBus_self {s : State} (w : s.canon = true) (n : Nat) (x : BusSt) : (s.setBus n x).bus n = x :=
  SMap.get_set_self _ (State.canon_buses w) n x

theorem State.bus_setBus_other {s : State} (w : s.canon = true) {n k : Nat} (h : k ≠ n) (x : BusSt) :
    (s.setBus n x).bus k = s.bus k :=
  SMap.get_set_other _ (State.canon_buses w) h x

theorem State.chan_setChan_self {s : State} (w : s.canon = true) (c : Nat) (x : CvnChan) : (s.setChan c x).chan c = x :=
  SMap.get_set_self _ (State.canon_chans w) c x

theorem State.chan_setChan_other {s : State} (w : s.canon = true) {c k : Nat} (h : k ≠ c) (x : CvnChan) :
    (s.setChan c x).chan k = s.chan k :=
  SMap.get_set_other _ (State.canon_chans w) h x

theorem State.seqSt_setSeq_self {s : State} (w : s.canon = true) (n : Nat) (x : SeqSt) : (s.setSeq n x).seqSt n = x :=
  SMap.get_set_self _ (State.canon_seqs w) n x

theorem State.seqSt_setSeq_other {s : State} (w : s.canon = true) {n k : Nat} (h : k ≠ n) (x : SeqSt) :
    (s.setSeq n x).seqSt k = s.seqSt k :=
  SMap.get_set_other _ (State.canon_seqs w) h x

theorem State.dq_setDq_self {s : State} (w : s.canon = true) (m : Nat) (x : SioDq) : (s.setDq m x).dq m = x :=
  SMap.get_set_self _ (State.canon_dqs w) m x

theorem State.dq_setDq_other {s : State} (w : s.canon = true) {m k : Nat} (h : k ≠ m) (x : SioDq) :
    (s.setDq m x).dq k = s.dq k :=
  SMap.get_set_other _ (State.canon_dqs w) h x

theorem State.mac_setMac_self {s : State} (w : s.canon = true) (n : Nat) (x : MacSt) : (s.setMac n x).mac n = x :=
  SMap.get_set_self _ (State.canon_macs w) n x

theorem State.mac_setMac_other {s : State} (w : s.canon = true) {n k : Nat} (h : k ≠ n) (x : MacSt) :
    (s.setMac n x).mac k = s.mac k :=
  SMap.get_set_other _ (State.canon_macs w) h x

end Sys2Proof.Machine
end

