-- ==== Sys2Proof/Laws/Effects.lean ====
section
/-! SUPPORT. What the shared operations on events can change: the rings, what has gone out, the pending bits of the host ports
and what is due. -/

namespace Sys2Proof.Machine

theorem Told.rfl {s : State} : Told s s := ⟨_, _, _, _, _, Eq.refl _⟩

theorem Told.trans {a b c : State} (h : Told a b) (k : Told b c) : Told a c := by
  obtain ⟨_, _, _, _, _, rfl⟩ := h
  obtain ⟨_, _, _, _, _, rfl⟩ := k
  exact ⟨_, _, _, _, _, Eq.refl _⟩

theorem Told.ite {a b c : State} {p : Prop} [Decidable p] (h : Told a b) (k : Told a c) : Told a (if p then b else c) := by
  split <;> assumption

theorem Told.foldl {α : Type} (f : State → α → State) (hf : ∀ t x, Told t (f t x)) (xs : List α) (s : State) :
    Told s (xs.foldl f s) := by
  induction xs generalizing s with
  | nil => exact Told.rfl
  | cons x xs ih => exact (hf s x).trans (ih _)

theorem State.emit_told (s : State) (o : Out) : Told s (s.emit o) := ⟨_, _, _, _, _, Eq.refl _⟩

theorem State.setRing_told (s : State) (r : Nat) (x : Ring) : Told s (s.setRing r x) := ⟨_, _, _, _, _, Eq.refl _⟩

theorem State.setPort_told (s : State) (p : Nat) (h : HostPort) : Told s (s.setPort p h) := by
  unfold State.setPort
  split
  · exact ⟨s.out, s.rings, h, s.portB, s.faults.due, Eq.refl _⟩
  · exact ⟨s.out, s.rings, s.portA, h, s.faults.due, Eq.refl _⟩

theorem State.raiseFor_told (s : State) (b : BlkId) (src : Nat) (caps : List Nat) (slot : Nat) :
    Told s (s.raiseFor b src caps slot) := ⟨_, _, _, _, _, Eq.refl _⟩

theorem State.later_told (s : State) (d : Due) : Told s (s.later d) := ⟨_, _, _, _, _, Eq.refl _⟩

theorem State.raiseVec_told (s : State) (p vec : Nat) : Told s (s.raiseVec p vec) := by
  unfold State.raiseVec
  dsimp only
  exact .ite (s.setPort_told _ _) (.ite (s.emit_told _) .rfl)

theorem State.notifyRing_told (s : State) (r : Nat) : Told s (s.notifyRing r) := by
  unfold State.notifyRing
  dsimp only
  exact .ite .rfl (.ite (s.setRing_told _ _) (.ite (s.raiseVec_told _ _)
    ((s.setRing_told _ _).trans (State.raiseVec_told _ _ _))))

theorem State.writeEvt_told (s : State) (r : Nat) (e : Evt) : Told s (s.writeEvt r e) :=
  ((s.emit_told _).trans (State.setRing_told _ _ _)).trans (State.notifyRing_told _ _)

theorem State.dropEvt_told (s : State) (r : Nat) : Told s (s.dropEvt r) := by
  unfold State.dropEvt
  dsimp only
  exact .ite ((s.setRing_told _ _).trans (State.raiseFor_told _ _ _ _ _)) (s.setRing_told _ _)

theorem State.offerEvt_told (s : State) (r : Nat) (e : Evt) : Told s (s.offerEvt r e) := by
  unfold State.offerEvt
  dsimp only
  exact .ite (.ite (s.writeEvt_told _ _) (s.setRing_told _ _)) (s.dropEvt_told _)

/-- An event changes the EVT rings that take it, and nothing of the module besides. -/
theorem State.post_told (s : State) (e : Evt) : Told s (s.post e) := by
  unfold State.post
  exact .foldl _ (fun t r => .ite (t.offerEvt_told r e) .rfl) _ _

theorem State.event_told (s : State) (b : BlkId) (kind group q2 q3 : Nat) : Told s (s.event b kind group q2 q3) :=
  s.post_told _

theorem State.faultEvent_told (s : State) (b : BlkId) (src eff conf react : Nat) (held : Option Hold) (esc forced captured : Bool)
    (c : Nat × Nat × Nat) : Told s (s.faultEvent b src eff conf react held esc forced captured c) := by
  unfold State.faultEvent
  exact s.post_told _

/-- `t` is `s` but for registers. -/
def RegsOnly (s t : State) : Prop := ∃ r, t = { s with regs := r }

theorem RegsOnly.rfl {s : State} : RegsOnly s s := ⟨_, Eq.refl _⟩

theorem RegsOnly.trans {a b c : State} (h : RegsOnly a b) (k : RegsOnly b c) : RegsOnly a c := by
  obtain ⟨_, rfl⟩ := h
  obtain ⟨_, rfl⟩ := k
  exact ⟨_, Eq.refl _⟩

theorem State.setReg_only (s : State) (off : Nat) (w : Word) : RegsOnly s (s.setReg off w) := ⟨_, Eq.refl _⟩

theorem RegsOnly.setReg {s t : State} (h : RegsOnly s t) (off : Nat) (w : Word) : RegsOnly s (t.setReg off w) :=
  h.trans (t.setReg_only off w)

/-- A capture changes registers alone. -/
theorem State.capture_only (s : State) (b : BlkId) (src : Nat) (c : Nat × Nat × Nat) : RegsOnly s (s.capture b src c).2 := by
  unfold State.capture
  split
  · exact RegsOnly.rfl.setReg _ _
  · exact (((((RegsOnly.rfl.setReg _ _).setReg _ _).setReg _ _).setReg _ _).setReg _ _).setReg _ _

theorem Told.reg {s t : State} (h : Told s t) (o : Nat) : t.reg o = s.reg o := by
  obtain ⟨_, _, _, _, _, rfl⟩ := h; exact Eq.refl _

theorem Told.regsWf {s t : State} (h : Told s t) : t.regsWf = s.regsWf := by
  obtain ⟨_, _, _, _, _, rfl⟩ := h; exact Eq.refl _

/-! ## Fields of registers -/

theorem mask_getLsbD (f : Fld) (_ : f.hi < 32) (i : Nat) (hi : i < 32) :
    f.mask.getLsbD i = (decide (f.lo ≤ i) && decide (i ≤ f.hi)) := by
  unfold Fld.mask Fld.size
  rw [BitVec.getLsbD_ofNat, ← Nat.shiftLeft_eq, Nat.testBit_shiftLeft]
  have : 2 ^ (f.hi + 1 - f.lo) - 1 = 2 ^ (f.hi + 1 - f.lo) - 1 := rfl
  rw [Nat.testBit_two_pow_sub_one]
  by_cases h1 : f.lo ≤ i <;> by_cases h2 : i ≤ f.hi <;> simp [h1, h2, hi] <;> omega

theorem wr_reg_other {s : State} (w : s.regsWf = true) {off o : Nat} (h : o ≠ off) (f : Fld) (v : Nat) :
    (s.wr off f v).reg o = s.reg o := State.reg_setReg_other w h _
theorem wr_wf {s : State} (w : s.regsWf = true) (off : Nat) (f : Fld) (v : Nat) : (s.wr off f v).regsWf = true :=
  State.regsWf_setReg w _ _

theorem get_put (f : Fld) (w : Word) (v : Nat) (h : f.hi < 32) (hl : f.lo ≤ f.hi) : f.get (f.put w v) = v % f.size := by
  apply Nat.eq_of_testBit_eq
  intro i
  unfold Fld.get Fld.put Fld.size
  rw [Nat.testBit_mod_two_pow, Nat.testBit_div_two_pow, Nat.testBit_mod_two_pow]
  by_cases hi : i < f.hi + 1 - f.lo
  · simp only [hi, decide_true, Bool.true_and]
    rw [BitVec.testBit_toNat, BitVec.getLsbD_or, BitVec.getLsbD_and, BitVec.getLsbD_not, mask_getLsbD f h _ (by omega),
      BitVec.getLsbD_ofNat, ← Nat.shiftLeft_eq, Nat.testBit_shiftLeft, Nat.testBit_mod_two_pow]
    have a : f.lo ≤ f.lo + i := by omega
    have b : f.lo + i ≤ f.hi := by omega
    have c : f.lo + i < 32 := by omega
    have b' : i + f.lo ≤ f.hi := by omega
    have c' : i + f.lo < 32 := by omega
    simp [b', c', hi]
  · simp [hi]

theorem rd_wr_self {s : State} (w : s.regsWf = true) (off : Nat) (f : Fld) (v : Nat) (h : f.hi < 32) (hl : f.lo ≤ f.hi) :
    (s.wr off f v).rd off f = v % f.size := by
  unfold State.rd State.wr
  rw [State.reg_setReg_self w, get_put f _ _ h hl]

theorem get_put_other (f g : Fld) (w : Word) (v : Nat) (hf : f.hi < 32) (hg : g.hi < 32) (h : f.hi < g.lo ∨ g.hi < f.lo) :
    f.get (g.put w v) = f.get w := by
  apply Nat.eq_of_testBit_eq
  intro i
  unfold Fld.get Fld.put Fld.size
  rw [Nat.testBit_mod_two_pow, Nat.testBit_div_two_pow, Nat.testBit_mod_two_pow, Nat.testBit_div_two_pow]
  by_cases hi : i < f.hi + 1 - f.lo
  · simp only [hi, decide_true, Bool.true_and]
    rw [BitVec.testBit_toNat, BitVec.testBit_toNat, BitVec.getLsbD_or, BitVec.getLsbD_and, BitVec.getLsbD_not,
      mask_getLsbD g hg _ (by omega), BitVec.getLsbD_ofNat, ← Nat.shiftLeft_eq, Nat.testBit_shiftLeft,
      Nat.testBit_mod_two_pow]
    have c : i + f.lo < 32 := by omega
    rcases h with h | h
    · have a : ¬ (g.lo ≤ i + f.lo) := by omega
      simp [a, c]
    · have a : ¬ (i + f.lo ≤ g.hi) := by omega
      have b : g.lo ≤ i + f.lo → ¬ (i + f.lo - g.lo < g.hi + 1 - g.lo) := by omega
      by_cases e : g.lo ≤ i + f.lo
      · simp [a, c, b e]
      · simp [a, c, e]
  · simp [hi]

theorem rd_wr_other {s : State} (w : s.regsWf = true) (off : Nat) (f g : Fld) (v : Nat) (hf : f.hi < 32) (hg : g.hi < 32)
    (h : f.hi < g.lo ∨ g.hi < f.lo) : (s.wr off g v).rd off f = s.rd off f := by
  unfold State.rd State.wr
  rw [State.reg_setReg_self w, get_put_other f g _ _ hf hg h]

/-! ## Accesses of a host port -/

theorem hears_parts {s : State} {p : Nat} {b : BlkId} (h : s.hears p b = true) : s.noPort p = false ∧ s.serves b = true := by
  simpa [State.hears] using h

theorem place_reg {p off : Nat} {b : BlkId} (h : mw0Place p off = .reg b) : blkAt off = some b := by
  unfold mw0Place at h
  split at h
  · cases h
  · split at h
    · cases h
    · split at h
      · cases h
      · split at h
        · split at h
          · injection h with h; rw [← h]; assumption
          · cases h
        · cases h

theorem served_reg {s : State} {p off : Nat} {b : BlkId} (h : mw0Place p off = .reg b) (k : s.serves b = true) :
    s.mw0Served off = true := by
  simp only [State.mw0Served, mw0Blk, place_reg h, k]

theorem setPort_quiet (s : State) (p : Nat) (h : HostPort) : (s.setPort p h).quiet = s.quiet := by
  unfold State.setPort; split <;> rfl

/-- A host write that its block answers is what the block does with it. -/
theorem onMw0_hears {s : State} {p : Nat} {b : BlkId} (h : s.hears p b = true) (off : Nat) (r : Res) :
    onMw0 s p b off r = r := by
  obtain ⟨h1, h2⟩ := hears_parts h
  unfold onMw0
  rw [h1, h2, if_neg (by decide), if_pos rfl]

/-- A command that is taken runs its body. -/
theorem command_takes {s : State} {ring code : Nat} {modes : Mode → Bool} (h : s.takes ring modes = true)
    {body : State → State} : s.command ring code modes body = body (s.take ring) := by
  simp only [State.takes, Bool.and_eq_true, Bool.not_eq_true'] at h
  unfold State.command
  rw [h.1.1, h.1.2, h.2]
  rfl

/-- A command that is taken answers what its body leaves, settled. -/
theorem command_done {s : State} {ring code : Nat} {modes : Mode → Bool} (h : s.takes ring modes = true) (body : State → State) :
    done (s.command ring code modes body) = .next (settle (body (s.take ring))) := by
  rw [command_takes h]; rfl

end Sys2Proof.Machine
end

