-- ==== Sys2Proof/Laws/EngineEffects.lean ====
section
/-! SUPPORT. What issuing a bundle does: engines one by one, operand reads with nothing in flight, the end of a bundle. -/

namespace Sys2Proof.Machine

theorem setPe_setPe (s : State) (n : Fin 18) (x y : Engine) : (s.setPe n x).setPe n y = s.setPe n y := by
  unfold State.setPe; simp only [Vector.set_set]

theorem onPe_onPe (s : State) (n : Fin 18) (f g : Engine → Engine) : (s.onPe n f).onPe n g = s.onPe n fun e => g (f e) := by
  unfold State.onPe; rw [State.pe_setPe_self, setPe_setPe]

theorem pe_onPe (s : State) (n : Fin 18) (f : Engine → Engine) : (s.onPe n f).pe n = f (s.pe n) := by simp [State.onPe]

theorem issue0_go {s : State} {n : Fin 18} (h : s.issues n = true) (body : State → State) (last : Bool) :
    s.issue0 n last body =
      let s1 := body (s.onPe n fun e => { e with lastPc := e.pc })
      if last then s1.onPe n Engine.finishBundle else s1.onPe n fun e => { e with half := true } := by
  simp only [State.issues, Bool.and_eq_true, Bool.not_eq_true'] at h
  obtain ⟨⟨⟨h1, h2⟩, h3⟩, h4⟩ := h
  unfold State.issue0
  rw [h1, h2, h3, h4]
  rfl

theorem calm_parts {e : Engine} (h : e.calm = true) : e.pend = [] ∧ e.xfer = none ∧ e.haltPend = none := by
  simpa [Engine.calm, and_assoc] using h

theorem issues_run {s : State} {n : Fin 18} (h : s.issues n = true) : (s.pe n).state = .run := by
  simp only [State.issues, Engine.canIssue, Bool.and_eq_true, beq_iff_eq] at h
  exact h.1.1.1.1.1

theorem readW_calm {s : State} {n : Fin 18} (h : (s.pe n).pend = []) (r : Fin 32) : s.readW n r = ((s.pe n).w[r], s) := by
  unfold State.readW
  dsimp only
  rw [h]; rfl

theorem readAcc_calm {s : State} {n : Fin 18} (h : (s.pe n).pend = []) (a : Fin 4) (m : Bool) :
    s.readAcc n a m = ((s.pe n).acc[a], s) := by
  unfold State.readAcc
  dsimp only
  rw [h]; rfl

theorem readFlags_calm {s : State} {n : Fin 18} (h : (s.pe n).pend = []) : s.readFlags n = ((s.pe n).flags, s) := by
  unfold State.readFlags
  dsimp only
  rw [h]; rfl

/-- The end of a bundle whose one result is visible to the next. -/
theorem finish_result {e : Engine} (c : e.calm = true) (r : e.state = .run) (rd : Fin 32) (o : AluOut) :
    ((let e1 := ({ e with lastPc := e.pc } : Engine).result (.reg rd) (o.val.setWidth 40) 1 false
      if o.set = 0 then e1 else e1.result .setFlags (o.set.setWidth 40) 1 false) : Engine).finishBundle =
      { e.ran with w := e.w.set rd o.val, flags := e.flags ||| o.set } := by
  obtain ⟨c1, c2, c3⟩ := calm_parts c
  have sw : BitVec.setWidth 32 (BitVec.setWidth 40 o.val) = o.val := by
    rw [BitVec.setWidth_setWidth_of_le _ (by decide), BitVec.setWidth_eq]
  have sw2 : BitVec.setWidth 10 (BitVec.setWidth 40 o.set) = o.set := by
    rw [BitVec.setWidth_setWidth_of_le _ (by decide), BitVec.setWidth_eq]
  obtain ⟨w, acc, flags, pc, lastPc, xfer, pend, half, sl, state, hc, sp, df, slot, stall, wbuf, imem, dmem, fau, tm, cy, lb, snp, snr, sn, sf, sc, rest⟩ := e
  simp only at c1 c2 c3 r
  subst c1 c2
  dsimp only
  by_cases hz : o.set = 0
  · rw [if_pos hz]
    simp [Engine.finishBundle, Engine.endBundle, Engine.result, Engine.applyAll, Engine.apply, nextPc, Engine.ran, hz, sw, c3, r]
  · rw [if_neg hz]
    simp [Engine.finishBundle, Engine.endBundle, Engine.result, Engine.applyAll, Engine.apply, nextPc, Engine.ran, sw, sw2, c3, r]

theorem put_last {s : State} {n : Fin 18} (q : s.quiet = true) (h : s.issues n = true) (c : (s.pe n).calm = true) (rd : Fin 32)
    (o : AluOut) (body : State → State)
    (hb : body (s.onPe n fun e => { e with lastPc := e.pc }) = (s.onPe n fun e => { e with lastPc := e.pc }).put n rd o 1) :
    done (s.issue0 n true body) =
      .next (s.setPe n { (s.pe n).ran with w := (s.pe n).w.set rd o.val, flags := (s.pe n).flags ||| o.set }) := by
  rw [issue0_go h]
  dsimp only
  rw [if_pos rfl, hb]
  have e : ((s.onPe n fun e => { e with lastPc := e.pc }).put n rd o 1).onPe n Engine.finishBundle =
      s.setPe n { (s.pe n).ran with w := (s.pe n).w.set rd o.val, flags := (s.pe n).flags ||| o.set } := by
    unfold State.put
    rw [onPe_onPe, onPe_onPe]
    rw [← finish_result c (issues_run h) rd o]
    rfl
  rw [e]
  exact done_quiet q

theorem lastPc_calm {s : State} {n : Fin 18} (c : (s.pe n).calm = true) :
    ((s.onPe n fun e => { e with lastPc := e.pc }).pe n).pend = [] ∧
    ((s.onPe n fun e => { e with lastPc := e.pc }).pe n).w = (s.pe n).w ∧
    ((s.onPe n fun e => { e with lastPc := e.pc }).pe n).acc = (s.pe n).acc ∧
    ((s.onPe n fun e => { e with lastPc := e.pc }).pe n).flags = (s.pe n).flags := by
  rw [pe_onPe]; exact ⟨(calm_parts c).1, rfl, rfl, rfl⟩

theorem alu2_last {s : State} {n : Fin 18} (q : s.quiet = true) (h : s.issues n = true) (c : (s.pe n).calm = true)
    (rd ra rb : Fin 32) (f : Word → Word → AluOut) :
    done (s.alu2 n true rd ra rb 1 f) = .next (s.setPe n { (s.pe n).ran with
      w := (s.pe n).w.set rd (f (s.pe n).w[ra] (s.pe n).w[rb]).val
      flags := (s.pe n).flags ||| (f (s.pe n).w[ra] (s.pe n).w[rb]).set }) := by
  obtain ⟨l1, l2, _⟩ := lastPc_calm c
  exact put_last q h c rd _ _ (by dsimp only; rw [readW_calm l1, readW_calm l1, l2])

theorem alu1_last {s : State} {n : Fin 18} (q : s.quiet = true) (h : s.issues n = true) (c : (s.pe n).calm = true)
    (rd ra : Fin 32) (f : Word → AluOut) :
    done (s.alu1 n true rd ra f) = .next (s.setPe n { (s.pe n).ran with
      w := (s.pe n).w.set rd (f (s.pe n).w[ra]).val, flags := (s.pe n).flags ||| (f (s.pe n).w[ra]).set }) := by
  obtain ⟨l1, l2, _⟩ := lastPc_calm c
  exact put_last q h c rd _ _ (by dsimp only; rw [readW_calm l1, l2])

/-- A result with no flag. -/
theorem plain_flags (e : Engine) (rd : Fin 32) (v : Word) :
    ({ e.ran with w := e.w.set rd (plain v).val, flags := e.flags ||| (plain v).set } : Engine) = { e.ran with w := e.w.set rd v } := by
  simp [plain, Engine.ran]

theorem issue1_go {s : State} {n : Fin 18} (h : s.closes n = true) (body : State → State × Bool) :
    s.issue1 n body =
      let p := body (s.onPe n fun e => { e with lastPc := e.pc, half := true })
      if p.2 then p.1.onPe n Engine.finishBundle else p.1 := by
  simp only [State.closes, Bool.and_eq_true, Bool.or_eq_true, Bool.not_eq_true'] at h
  obtain ⟨⟨⟨h1, h2⟩, h3⟩, h4⟩ := h
  unfold State.issue1
  have e : (!(s.pe n).half && s.atBreakpoint n) = false := by rcases h2 with h | h <;> simp [h]
  rw [h1, e, h3]
  rfl

theorem find_sound {α : Type} (xs : List α) (p q : α → Bool) (h : (xs.all fun x => !q x) = true) :
    xs.reverse.find? (fun x => p x && q x) = none := by
  rw [List.find?_eq_none]
  intro x hx
  have := List.all_eq_true.mp h x (List.mem_reverse.mp hx)
  simp at this
  simp [this]

/-- With nothing disturbed a register reads its old value (R217). -/
theorem readW_sound {s : State} {n : Fin 18} (h : (s.pe n).pend.all (fun p => !p.disturbed) = true) (r : Fin 32) :
    s.readW n r = ((s.pe n).w[r], s) := by
  unfold State.readW
  dsimp only
  rw [find_sound _ (fun p : Pend => p.dst == .reg r) (fun p : Pend => p.disturbed) h]

theorem closes_sound {s : State} {n : Fin 18} (h : s.closes n = true) : (s.pe n).pend.all (fun p => !p.disturbed) = true := by
  simp only [State.closes, Bool.and_eq_true] at h
  exact h.2

theorem atBp_onPe (s : State) (n : Fin 18) (f : Engine → Engine) (hf : (f (s.pe n)).pc = (s.pe n).pc) :
    (s.onPe n f).atBreakpoint n = s.atBreakpoint n := by
  unfold State.atBreakpoint
  rw [pe_onPe, hf]; rfl

theorem sound_lastPc {s : State} {n : Fin 18} (h : s.closes n = true) :
    ((s.onPe n fun e => { e with lastPc := e.pc, half := true }).pe n).pend.all (fun p => !p.disturbed) = true := by
  rw [pe_onPe]; exact closes_sound h

theorem effAddr_sound {s : State} {n : Fin 18} (h : s.closes n = true) (ra : Fin 32) (imm : BitVec 16) :
    (s.onPe n fun e => { e with lastPc := e.pc, half := true }).effAddr n ra imm =
      (((s.pe n).w[ra] + sext16 imm).toNat, s.onPe n fun e => { e with lastPc := e.pc, half := true }) := by
  unfold State.effAddr
  rw [readW_sound (sound_lastPc h), pe_onPe]

theorem addr_eq (w : Word) (imm : BitVec 16) : w + sext16 imm = BitVec.ofInt 32 (w.toInt + imm.toInt) := by
  apply BitVec.eq_of_toInt_eq
  unfold sext16
  rw [BitVec.toInt_add, BitVec.toInt_ofInt, BitVec.toInt_signExtend_of_le (by decide)]

theorem region_dmem {a : Nat} (h1 : 0x10000000 ≤ a) (h2 : a < 0x10020000) : regionOf a = .dmem (a - 0x10000000) := by
  unfold regionOf; rw [if_pos ⟨h1, h2⟩]

/-- The end of a bundle whose results are due later. -/
theorem finish_late {e : Engine} (c : e.calm = true) (r : e.state = .run) (ps : List Pend) (hp : ∀ p ∈ ps, 2 ≤ p.left) :
    ({ e with lastPc := e.pc, pend := ps } : Engine).finishBundle =
      { e.ran with pend := ps.map fun p => { p with left := p.left - 1, fresh := false } } := by
  obtain ⟨c1, c2, c3⟩ := calm_parts c
  have f0 : (ps.map fun p => ({ p with left := p.left - 1, fresh := false } : Pend)).filter (·.left == 0) = [] := by
    rw [List.filter_eq_nil_iff]
    intro x hx
    rw [List.mem_map] at hx
    obtain ⟨p, hm, rfl⟩ := hx
    have := hp p hm
    simp; omega
  have f1 : (ps.map fun p => ({ p with left := p.left - 1, fresh := false } : Pend)).filter (·.left != 0) =
      ps.map fun p => ({ p with left := p.left - 1, fresh := false } : Pend) := by
    rw [List.filter_eq_self]
    intro x hx
    rw [List.mem_map] at hx
    obtain ⟨p, hm, rfl⟩ := hx
    have := hp p hm
    simp; omega
  unfold Engine.finishBundle Engine.endBundle
  dsimp only
  rw [f0, f1]
  obtain ⟨w, acc, flags, pc, lastPc, xfer, pend, half, sl, state, hc, sp, df, slot, stall, wbuf, imem, dmem, fau, tm, cy, lb, snp, snr, sn, sf, sc, rest⟩ := e
  simp only at c1 c2 c3 r
  subst c1 c2
  simp [Engine.applyAll, nextPc, Engine.ran, c3, r]

theorem late_last {s : State} {n : Fin 18} (q : s.quiet = true) (h : s.issues n = true) (c : (s.pe n).calm = true)
    (ps : List Pend) (hp : ∀ p ∈ ps, 2 ≤ p.left) (body : State → State)
    (hb : body (s.onPe n fun e => { e with lastPc := e.pc }) = s.onPe n fun e => { e with lastPc := e.pc, pend := ps }) :
    done (s.issue0 n true body) = .next (s.setPe n { (s.pe n).ran with
      pend := ps.map fun p => { p with left := p.left - 1, fresh := false } }) := by
  rw [issue0_go h]
  dsimp only
  rw [if_pos rfl, hb]
  have e : (s.onPe n fun e => { e with lastPc := e.pc, pend := ps }).onPe n Engine.finishBundle =
      s.setPe n { (s.pe n).ran with pend := ps.map fun p => { p with left := p.left - 1, fresh := false } } := by
    rw [onPe_onPe, ← finish_late c (issues_run h) ps hp]; rfl
  rw [e]
  exact done_quiet q

theorem now_last {s : State} {n : Fin 18} (q : s.quiet = true) (h : s.issues n = true) (c : (s.pe n).calm = true)
    (p : Pend) (h1 : p.left = 1) (h2 : p.dst ≠ .clearFlags) (body : State → State)
    (hb : body (s.onPe n fun e => { e with lastPc := e.pc }) = s.onPe n fun e => { e with lastPc := e.pc, pend := [p] }) :
    done (s.issue0 n true body) = .next (s.setPe n ((s.pe n).ran.apply p)) := by
  rw [issue0_go h]
  dsimp only
  rw [if_pos rfl, hb]
  have e : (s.onPe n fun e => { e with lastPc := e.pc, pend := [p] }).onPe n Engine.finishBundle =
      s.setPe n ((s.pe n).ran.apply p) := by
    rw [onPe_onPe]
    have : ({ s.pe n with lastPc := (s.pe n).pc, pend := [p] } : Engine).finishBundle = (s.pe n).ran.apply p := by
      obtain ⟨c1, c2, c3⟩ := calm_parts c
      have r := issues_run h
      generalize s.pe n = e at c1 c2 c3 r
      obtain ⟨w, acc, flags, pc, lastPc, xfer, pend, half, sl, state, hc, sp, df, slot, stall, wbuf, imem, dmem, fau, tm, cy, lb, snp, snr, sn, sf, sc, rest⟩ := e
      simp only at c1 c2 c3 r
      subst c1 c2
      obtain ⟨d, v, l, f, m, di⟩ := p
      simp only at h1 h2
      subst h1
      cases d <;> simp [Engine.finishBundle, Engine.endBundle, Engine.applyAll, nextPc, Engine.ran, Engine.apply, c3, r] at h2 ⊢
    rw [← this]; rfl
  rw [e]
  exact done_quiet q

/-- What a far load of a bank answers, from what the bank answers (R177). -/
theorem farLoad_bank {s t : State} {n : Fin 18} {addr size off : Nat} {ecc : Ecc} {r : BankAns} (h1 : regionOf addr = .bank off)
    (h2 : s.bankLoad n (s.pe n).ownerCode (off / 0x20000) (off % 0x20000) size false ecc = (r, t)) :
    s.farLoad n addr size ecc = (match r with
      | .wait => (none, t) | .denied => (some 0, t.bankOwn n addr size false) | .poisoned => (some 0, t)
      | .data bs => (some (ofLe bs), t)) := by
  unfold State.farLoad
  simp only [h1, h2]
  cases r <;> rfl

/-- What a posted store to a bank does, from what the bank answers (R143, R177). -/
theorem farStore_bank {s t : State} {n : Fin 18} {st : FarStore} {off : Nat} {ecc : Ecc} {r : BankAns} (h0 : st.to_ = .bus)
    (h1 : regionOf st.addr = .bank off)
    (h2 : s.bankStore n (s.pe n).ownerCode (off / 0x20000) (off % 0x20000) st.data false ecc = (r, t)) :
    s.farStore n st ecc = (match r with
      | .wait => (false, t) | .denied => (true, t.bankOwn n st.addr st.data.length true) | _ => (true, t)) := by
  unfold State.farStore
  simp only [h0, h1, h2]
  cases r <;> rfl

end Sys2Proof.Machine
end

