-- ==== Sys2Proof/Laws/Kept.lean ====
section
/-! SUPPORT. What every operation of the machine keeps: the queue of waiting commands, the variant, and the canonical form of
every sparse map. One lemma for each operation says so, in these terms; they stand in the files KeptA, KeptB and so on. -/

namespace Sys2Proof.Machine

/-- `t` comes from `z` by operations that leave the queue and the variant alone and keep the canonical form. -/
def Kept (z t : State) : Prop :=
  t.pending = z.pending ∧ t.m10 = z.m10 ∧ (z.canon = true → t.canon = true)

/-- A command goes on, and keeps what every operation keeps. -/
def KeptR (z : State) (r : Res) : Prop := ∃ t, r = .next t ∧ Kept z t

theorem Kept.rfl {z : State} : Kept z z := ⟨Eq.refl _, Eq.refl _, id⟩

theorem Kept.trans {a b c : State} (h : Kept a b) (k : Kept b c) : Kept a c :=
  ⟨k.1.trans h.1, k.2.1.trans h.2.1, fun w => k.2.2 (h.2.2 w)⟩

theorem Kept.next {z t : State} (h : Kept z t) : KeptR z (.next t) := ⟨t, Eq.refl _, h⟩

/-- An update of fields that hold no sparse map, and of blocks whose sparse maps it leaves alone. -/
theorem Kept.upd {z a : State} {pending out rdata draws m10 bonded bondPin mode regs holding faults boot quiesce flashA flashB upd
    nvm rings portA portB tb pes mem lastPe mbx swc slots pers wadi tio cvn buses ctrlBad ctrlWorn psq pwr sio} (h : Kept z a)
    (e0 : pending = a.pending) (e00 : m10 = a.m10) (e01 : regs = a.regs) (e02 : holding = a.holding) (e03 : rings = a.rings)
    (e04 : lastPe = a.lastPe) (e05 : slots = a.slots) (e06 : tio = a.tio) (e07 : buses = a.buses)
    (e1 : cvn.chans = a.cvn.chans) (e2 : psq.seqs = a.psq.seqs) (e3 : sio.pairs = a.sio.pairs) (e4 : sio.dis = a.sio.dis)
    (e5 : sio.dqs = a.sio.dqs) (e6 : mbx = a.mbx) (e7 : swc.frames = a.swc.frames) (e8 : swc.tq = a.swc.tq)
    (e9 : swc.eq = a.swc.eq) (e10 : swc.frx = a.swc.frx) (e11 : swc.fct = a.swc.fct) (e12 : swc.tern = a.swc.tern)
    (e13 : swc.shadow = a.swc.shadow) (e14 : swc.gates = a.swc.gates) (e15 : swc.macs = a.swc.macs)
    (e16 : swc.txts = a.swc.txts) :
    Kept z ⟨pending, out, rdata, draws, m10, bonded, bondPin, mode, regs, holding, faults, boot, quiesce, flashA,
      flashB, upd, nvm, rings, portA, portB, tb, pes, mem, lastPe, mbx, swc, slots, pers, wadi, tio, cvn,
      buses, ctrlBad, ctrlWorn, psq, pwr, sio⟩ := by
  subst e0 e00 e01 e02 e03 e04 e05 e06 e07 e6
  obtain ⟨h1, h2, h3⟩ := h
  refine ⟨h1, h2, fun w => ?_⟩
  have h4 := h3 w
  simp only [State.canon, State.regsWf] at h4 ⊢
  simpa only [e1, e2, e3, e4, e5, e7, e8, e9, e10, e11, e12, e13, e14, e15, e16] using h4

/-- An update that keeps the canonical form of what it comes from. -/
theorem Kept.gen {z a : State} {pending out rdata draws m10 bonded bondPin mode regs holding faults boot quiesce flashA flashB upd
    nvm rings portA portB tb pes mem lastPe mbx swc slots pers wadi tio cvn buses ctrlBad ctrlWorn psq pwr sio} (h : Kept z a)
    (e0 : pending = a.pending) (e1 : m10 = a.m10)
    (w : a.canon = true → (State.mk pending out rdata draws m10 bonded bondPin mode regs holding faults boot quiesce flashA
      flashB upd nvm rings portA portB tb pes mem lastPe mbx swc slots pers wadi tio cvn
      buses ctrlBad ctrlWorn psq pwr sio).canon = true) :
    Kept z ⟨pending, out, rdata, draws, m10, bonded, bondPin, mode, regs, holding, faults, boot, quiesce, flashA,
      flashB, upd, nvm, rings, portA, portB, tb, pes, mem, lastPe, mbx, swc, slots, pers, wadi, tio, cvn,
      buses, ctrlBad, ctrlWorn, psq, pwr, sio⟩ :=
  ⟨e0.trans h.1, e1.trans h.2.1, fun c => w (h.2.2 c)⟩

/-- The empty map is canonical. -/
theorem SMap.wf_nil {β : Type} [DecidableEq β] (d : Nat → β) : SMap.wf d [] = true := Eq.refl _

theorem Kept.ite {z a b : State} {c : Prop} [Decidable c] (ha : Kept z a) (hb : Kept z b) : Kept z (if c then a else b) := by
  split <;> assumption

/-- A meaning that a word may spell goes on and keeps what every operation keeps. -/
def KeptO (z : State) (o : Option (State → Res)) : Prop := ∀ f, o = some f → ∀ t, Kept z t → KeptR z (f t)

theorem KeptO.none {z : State} : KeptO z Option.none := fun _ h => nomatch h

theorem KeptO.some {z : State} {f : State → Res} (h : ∀ t, Kept z t → KeptR z (f t)) : KeptO z (Option.some f) :=
  fun g e t k => by injection e with e; subst e; exact h t k

theorem KeptO.defined {z : State} {c : Bool} {f : State → Res} (h : ∀ t, Kept z t → KeptR z (f t)) :
    KeptO z (defined c f) := by
  unfold Machine.defined
  split
  · exact KeptO.some h
  · exact KeptO.none

theorem Kept.dite {z : State} {c : Prop} [Decidable c] {a : c → State} {b : ¬c → State} (ha : ∀ h, Kept z (a h))
    (hb : ∀ h, Kept z (b h)) : Kept z (if h : c then a h else b h) := by
  split
  · exact ha _
  · exact hb _

theorem KeptR.ite {z : State} {a b : Res} {c : Prop} [Decidable c] (ha : KeptR z a) (hb : KeptR z b) :
    KeptR z (if c then a else b) := by
  split <;> assumption

theorem Kept.ite2 {z : State} {α : Type} {a b : α × State} {c : Prop} [Decidable c] (ha : Kept z a.2) (hb : Kept z b.2) :
    Kept z (if c then a else b).2 := by
  split <;> assumption

theorem Kept.ite1 {z : State} {α : Type} {a b : State × α} {c : Prop} [Decidable c] (ha : Kept z a.1) (hb : Kept z b.1) :
    Kept z (if c then a else b).1 := by
  split <;> assumption

theorem Kept.cut {z a b : State} (ha : Kept z a) (hb : Kept z a → Kept z b) : Kept z b := hb ha

theorem KeptR.cut {z a : State} {b : Res} (ha : Kept z a) (hb : Kept z a → KeptR z b) : KeptR z b := hb ha

theorem Kept.ofPair {z t : State} {α : Type} {a : α} {p : α × State} (e : p = (a, t)) (h : Kept z p.2) : Kept z t := by
  subst e; exact h

theorem Kept.ofTriple {z t : State} {α β : Type} {a : α} {b : β} {p : α × β × State} (e : p = (a, b, t))
    (h : Kept z p.2.2) : Kept z t := by
  subst e; exact h

theorem Kept.ofQuad {z t : State} {α β γ : Type} {a : α} {b : β} {c : γ} {p : α × β × γ × State} (e : p = (a, b, c, t))
    (h : Kept z p.2.2.2) : Kept z t := by
  subst e; exact h

theorem Kept.getD {z d : State} {o : Option State} (h : ∀ t, o = some t → Kept z t) (hd : Kept z d) : Kept z (o.getD d) := by
  cases o with
  | none => exact hd
  | some t => exact h t (Eq.refl _)

theorem Kept.ofPairL {z t : State} {α : Type} {a : α} {p : State × α} (e : p = (t, a)) (h : Kept z p.1) : Kept z t := by
  subst e; exact h

theorem Kept.foldl {z s : State} {α : Type} {f : State → α → State} {xs : List α} (h : Kept z s)
    (hf : ∀ t x, Kept z t → Kept z (f t x)) : Kept z (xs.foldl f s) := by
  induction xs generalizing s with
  | nil => exact h
  | cons x xs ih => exact ih (hf s x h)

theorem Kept.foldl2 {z : State} {α β : Type} {f : β × State → α → β × State} {xs : List α} {p : β × State}
    (h : Kept z p.2) (hf : ∀ p x, Kept z p.2 → Kept z (f p x).2) : Kept z (xs.foldl f p).2 := by
  induction xs generalizing p with
  | nil => exact h
  | cons x xs ih => exact ih (hf p x h)

theorem Kept.foldl1 {z : State} {α β : Type} {f : State × β → α → State × β} {xs : List α} {p : State × β}
    (h : Kept z p.1) (hf : ∀ p x, Kept z p.1 → Kept z (f p x).1) : Kept z (xs.foldl f p).1 := by
  induction xs generalizing p with
  | nil => exact h
  | cons x xs ih => exact ih (hf p x h)

end Sys2Proof.Machine
end

