-- ==== Sys2Proof/Laws/KeptOps.lean ====
section
/-! SUPPORT. What the operations of Machine/Ops.lean keep. -/

namespace Sys2Proof.Machine

theorem State.setReg_kept {z : State} (s : State) (off : Nat) (w : Word) (h_s : Kept z s) : Kept z (State.setReg s off w) := by
  obtain ⟨h1, h2, h3⟩ := h_s
  refine ⟨h1, h2, fun c => ?_⟩
  have h4 := h3 c
  simp only [State.canon, State.regsWf, State.setReg, Bool.and_eq_true] at h4 ⊢
  simp only [h4, SMap.wf_set, and_self]

theorem State.wr_kept {z : State} (s : State) (off : Nat) (f : Fld) (v : Nat) (h_s : Kept z s) : Kept z (State.wr s off f v) := by
  unfold State.wr
  repeat' (first
    | with_reducible assumption
    | with_reducible apply State.setReg_kept)

theorem State.bump_kept {z : State} (s : State) (off : Nat) (f : Fld) (n : Nat) (h_s : Kept z s) : Kept z (State.bump s off f n) := by
  unfold State.bump
  repeat' (first
    | with_reducible assumption
    | with_reducible apply State.wr_kept)

theorem State.regWrite_kept {z : State} (s : State) (off : Nat) (v : Word) (h_s : Kept z s) : Kept z (State.regWrite s off v) := by
  unfold State.regWrite
  repeat' (first
    | with_reducible assumption
    | with_reducible apply State.setReg_kept)

theorem State.resetRegs_kept {z : State} (s : State) (p : Nat → Bool) (h_s : Kept z s) : Kept z (s.resetRegs p) := by
  obtain ⟨h1, h2, h3⟩ := h_s
  refine ⟨h1, h2, fun c => ?_⟩
  have h4 := h3 c
  simp only [State.canon, State.regsWf, State.resetRegs, Bool.and_eq_true] at h4 ⊢
  have h5 : SMap.wf resetWord (s.regs.filterMap fun e => if p e.1 = true then
      (if keepWord e.1 e.2 = resetWord e.1 then none else some (e.1, keepWord e.1 e.2)) else some e) = true := by
    refine SMap.wfFrom_filterMap resetWord h4.1.1.1.1.1.1.1.1.1.1.1.1.1.1.1.1.1.1.1.1.1.1.1.1.1.1 _ ?_
    intro e e' he h
    split at h
    · split at h
      · cases h
      · cases h; exact ⟨Eq.refl _, by assumption⟩
    · cases h; exact ⟨Eq.refl _, he⟩
  simp only [h4, h5, SMap.wf_filter, and_self]

theorem State.setReg64_kept {z : State} (s : State) (off v : Nat) (h_s : Kept z s) : Kept z (State.setReg64 s off v) := by
  unfold State.setReg64
  repeat' (first
    | with_reducible assumption
    | lift_lets -underBinder
    | with_reducible apply State.setReg_kept)

theorem State.draw_kept {z : State} (s : State) (w : Nat) (h_s : Kept z s) : Kept z (State.draw s w).2 := by
  unfold State.draw
  repeat' (first
    | with_reducible assumption
    | fail_if_no_progress (with_reducible refine Kept.upd ?_ rfl rfl rfl rfl rfl rfl rfl rfl rfl rfl rfl rfl rfl rfl rfl rfl rfl rfl rfl rfl rfl rfl rfl rfl rfl))

theorem State.emit_kept {z : State} (s : State) (o : Out) (h_s : Kept z s) : Kept z (State.emit s o) := by
  unfold State.emit
  repeat' (first
    | with_reducible assumption
    | fail_if_no_progress (with_reducible refine Kept.upd ?_ rfl rfl rfl rfl rfl rfl rfl rfl rfl rfl rfl rfl rfl rfl rfl rfl rfl rfl rfl rfl rfl rfl rfl rfl rfl))

theorem State.setPin_kept {z : State} (s : State) (name : String) (level : Bool) (h_s : Kept z s) : Kept z (State.setPin s name level) := by
  unfold State.setPin
  repeat' (first
    | with_reducible assumption
    | with_reducible apply State.emit_kept)

theorem State.setPort_kept {z : State} (s : State) (p : Nat) (h : HostPort) (h_s : Kept z s) : Kept z (State.setPort s p h) := by
  unfold State.setPort
  repeat' (first
    | with_reducible assumption
    | with_reducible apply Kept.ite
    | lift_lets -underBinder
    | fail_if_no_progress (with_reducible refine Kept.upd ?_ rfl rfl rfl rfl rfl rfl rfl rfl rfl rfl rfl rfl rfl rfl rfl rfl rfl rfl rfl rfl rfl rfl rfl rfl rfl))

theorem State.setRing_kept {z : State} (s : State) (r : Nat) (x : Ring) (h_s : Kept z s) : Kept z (State.setRing s r x) := by
  obtain ⟨h1, h2, h3⟩ := h_s
  refine ⟨h1, h2, fun c => ?_⟩
  have h4 := h3 c
  simp only [State.canon, State.regsWf, State.setRing, Bool.and_eq_true] at h4 ⊢
  simp only [h4, SMap.wf_set, and_self]

theorem State.raiseVec_kept {z : State} (s : State) (p vec : Nat) (h_s : Kept z s) : Kept z (State.raiseVec s p vec) := by
  unfold State.raiseVec
  repeat' (first
    | with_reducible assumption
    | with_reducible apply Kept.ite
    | lift_lets -underBinder
    | with_reducible apply State.setPort_kept
    | with_reducible apply State.emit_kept)

theorem State.notifyRing_kept {z : State} (s : State) (r : Nat) (h_s : Kept z s) : Kept z (State.notifyRing s r) := by
  unfold State.notifyRing
  repeat' (first
    | with_reducible assumption
    | with_reducible apply Kept.ite
    | lift_lets -underBinder
    | with_reducible apply State.setRing_kept
    | with_reducible apply State.raiseVec_kept)

theorem State.writeEvt_kept {z : State} (s : State) (r : Nat) (e : Evt) (h_s : Kept z s) : Kept z (State.writeEvt s r e) := by
  unfold State.writeEvt
  repeat' (first
    | with_reducible assumption
    | (intro x; subst x)
    | lift_lets -underBinder
    | with_reducible apply State.emit_kept
    | with_reducible apply State.setRing_kept
    | with_reducible apply State.notifyRing_kept)

theorem State.raiseFor_kept {z : State} (s : State) (b : BlkId) (src : Nat) (caps : List Nat) (slot : Nat) (h_s : Kept z s) : Kept z (State.raiseFor s b src caps slot) := by
  unfold State.raiseFor
  repeat' (first
    | with_reducible assumption
    | (intro x; subst x)
    | lift_lets -underBinder
    | fail_if_no_progress (with_reducible refine Kept.upd ?_ rfl rfl rfl rfl rfl rfl rfl rfl rfl rfl rfl rfl rfl rfl rfl rfl rfl rfl rfl rfl rfl rfl rfl rfl rfl))

theorem State.raise_kept {z : State} (s : State) (b : BlkId) (src : Nat) (caps : List Nat) (h_s : Kept z s) : Kept z (State.raise s b src caps) := by
  unfold State.raise
  repeat' (first
    | with_reducible assumption
    | with_reducible apply State.raiseFor_kept)

theorem State.later_kept {z : State} (s : State) (d : Due) (h_s : Kept z s) : Kept z (State.later s d) := by
  unfold State.later
  repeat' (first
    | with_reducible assumption
    | (intro x; subst x)
    | lift_lets -underBinder
    | fail_if_no_progress (with_reducible refine Kept.upd ?_ rfl rfl rfl rfl rfl rfl rfl rfl rfl rfl rfl rfl rfl rfl rfl rfl rfl rfl rfl rfl rfl rfl rfl rfl rfl))

theorem State.degrade_kept {z : State} (s : State) (h_s : Kept z s) : Kept z (State.degrade s) := by
  unfold State.degrade
  repeat' (first
    | with_reducible assumption
    | with_reducible apply State.later_kept)

theorem State.dropEvt_kept {z : State} (s : State) (r : Nat) (h_s : Kept z s) : Kept z (State.dropEvt s r) := by
  unfold State.dropEvt
  repeat' (first
    | with_reducible assumption
    | with_reducible apply Kept.ite
    | lift_lets -underBinder
    | with_reducible apply State.setRing_kept
    | with_reducible apply State.raise_kept)

theorem State.offerEvt_kept {z : State} (s : State) (r : Nat) (e : Evt) (h_s : Kept z s) : Kept z (State.offerEvt s r e) := by
  unfold State.offerEvt
  repeat' (first
    | with_reducible assumption
    | with_reducible apply Kept.ite
    | lift_lets -underBinder
    | with_reducible apply State.writeEvt_kept
    | with_reducible apply State.setRing_kept
    | with_reducible apply State.dropEvt_kept)

theorem State.endRun_kept {z : State} (s : State) (r : Nat) (h_s : Kept z s) : Kept z (State.endRun s r) := by
  unfold State.endRun
  repeat' (first
    | with_reducible assumption
    | (intro x; subst x)
    | with_reducible apply Kept.ite
    | lift_lets -underBinder
    | with_reducible apply State.setRing_kept
    | with_reducible apply State.writeEvt_kept
    | split)

theorem State.flushEvt_kept {z : State} (s : State) (r : Nat) (h_s : Kept z s) : Kept z (State.flushEvt s r) := by
  unfold State.flushEvt
  repeat' (first
    | with_reducible assumption
    | with_reducible apply Kept.ite
    | lift_lets -underBinder
    | with_reducible apply State.emit_kept
    | with_reducible apply State.setRing_kept
    | with_reducible apply State.notifyRing_kept
    | with_reducible refine Kept.foldl ?_ (fun t x ht => ?_))

theorem State.post_kept {z : State} (s : State) (e : Evt) (h_s : Kept z s) : Kept z (State.post s e) := by
  unfold State.post
  repeat' (first
    | with_reducible assumption
    | with_reducible apply Kept.ite
    | lift_lets -underBinder
    | with_reducible apply State.offerEvt_kept
    | with_reducible refine Kept.foldl ?_ (fun t x ht => ?_))

theorem State.event_kept {z : State} (s : State) (b : BlkId) (kind group q2 q3 : Nat) (h_s : Kept z s) : Kept z (State.event s b kind group q2 q3) := by
  unfold State.event
  repeat' (first
    | with_reducible assumption
    | with_reducible apply State.post_kept)

theorem State.writeRsp_kept {z : State} (s : State) (rsp : Nat) (c : Compl) (h_s : Kept z s) : Kept z (State.writeRsp s rsp c) := by
  unfold State.writeRsp
  repeat' (first
    | with_reducible assumption
    | (intro x; refine Kept.cut (a := x) ?_ (fun _ => ?_) <;> [subst x; clear_value x])
    | (intro x; subst x)
    | lift_lets -underBinder
    | with_reducible apply State.emit_kept
    | with_reducible apply State.setRing_kept
    | with_reducible apply State.notifyRing_kept)

theorem State.flushRsp_kept {z : State} (fuel : Nat) (s : State) (rsp : Nat) (h_s : Kept z s) : Kept z (State.flushRsp fuel s rsp) := by
  induction fuel generalizing s rsp with
  | zero =>
    simp only [State.flushRsp]
    first | assumption | repeat' (first | assumption | split)
  | succ n ih =>
    unfold State.flushRsp
    repeat' (first
      | with_reducible assumption
      | apply ih
      | (intro x; subst x)
      | with_reducible apply Kept.ite
      | lift_lets -underBinder
      | with_reducible apply State.setRing_kept
      | with_reducible apply State.writeRsp_kept
      | split)

theorem State.complete_kept {z : State} (s : State) (ring code status value : Nat) (h_s : Kept z s) : Kept z (State.complete s ring code status value) := by
  unfold State.complete
  repeat' (first
    | with_reducible assumption
    | (intro x; refine Kept.cut (a := x) ?_ (fun _ => ?_) <;> [subst x; clear_value x])
    | with_reducible apply Kept.ite
    | lift_lets -underBinder
    | with_reducible apply State.setRing_kept
    | with_reducible apply State.flushRsp_kept)

end Sys2Proof.Machine
end

