-- ==== Sys2Proof/Laws/KeptWear.lean ====
section
/-! SUPPORT. What the operations of Machine/Wear.lean keep. -/

namespace Sys2Proof.Machine

theorem State.setWear_kept {z : State} (s : State) (k u : Nat) (w : UnitWear) (h_s : Kept z s) : Kept z (State.setWear s k u w) := by
  unfold State.setWear
  repeat' (first
    | with_reducible assumption
    | (intro x; subst x)
    | lift_lets -underBinder
    | fail_if_no_progress (with_reducible refine Kept.upd ?_ rfl rfl rfl rfl rfl rfl rfl rfl rfl rfl rfl rfl rfl rfl rfl rfl rfl rfl rfl rfl rfl rfl rfl rfl rfl))

theorem State.wearEvent_kept {z : State} (s : State) (k u : Nat) (worn retire failed : Bool) (h_s : Kept z s) : Kept z (State.wearEvent s k u worn retire failed) := by
  unfold State.wearEvent
  repeat' (first
    | with_reducible assumption
    | with_reducible apply State.event_kept)

theorem State.unitFailed_kept {z : State} (s : State) (k u : Nat) (h_s : Kept z s) : Kept z (State.unitFailed s k u) := by
  unfold State.unitFailed
  repeat' (first
    | with_reducible assumption
    | with_reducible apply Kept.ite
    | lift_lets -underBinder
    | with_reducible apply State.setWear_kept
    | with_reducible apply State.wearEvent_kept)

theorem State.outageFrom_kept {z : State} (s : State) (k : Nat) (h_s : Kept z s) : Kept z (State.outageFrom s k) := by
  unfold State.outageFrom
  repeat' (first
    | with_reducible assumption
    | (intro x; subst x)
    | with_reducible apply Kept.ite
    | lift_lets -underBinder
    | fail_if_no_progress (with_reducible refine Kept.upd ?_ rfl rfl rfl rfl rfl rfl rfl rfl rfl rfl rfl rfl rfl rfl rfl rfl rfl rfl rfl rfl rfl rfl rfl rfl rfl))

theorem State.outageEnd_kept {z : State} (s : State) (k : Nat) (h_s : Kept z s) : Kept z (State.outageEnd s k) := by
  unfold State.outageEnd
  repeat' (first
    | with_reducible assumption
    | (intro x; subst x)
    | lift_lets -underBinder
    | with_reducible apply State.bump_kept
    | fail_if_no_progress (with_reducible refine Kept.upd ?_ rfl rfl rfl rfl rfl rfl rfl rfl rfl rfl rfl rfl rfl rfl rfl rfl rfl rfl rfl rfl rfl rfl rfl rfl rfl)
    | split)

theorem State.availFrom_kept {z : State} (s : State) (h_s : Kept z s) : Kept z (State.availFrom s) := by
  unfold State.availFrom
  repeat' (first
    | with_reducible assumption
    | (intro x; subst x)
    | with_reducible apply Kept.ite
    | lift_lets -underBinder
    | fail_if_no_progress (with_reducible refine Kept.upd ?_ rfl rfl rfl rfl rfl rfl rfl rfl rfl rfl rfl rfl rfl rfl rfl rfl rfl rfl rfl rfl rfl rfl rfl rfl rfl))

theorem State.availEnd_kept {z : State} (s : State) (h_s : Kept z s) : Kept z (State.availEnd s) := by
  unfold State.availEnd
  repeat' (first
    | with_reducible assumption
    | (intro x; subst x)
    | lift_lets -underBinder
    | with_reducible apply State.bump_kept
    | fail_if_no_progress (with_reducible refine Kept.upd ?_ rfl rfl rfl rfl rfl rfl rfl rfl rfl rfl rfl rfl rfl rfl rfl rfl rfl rfl rfl rfl rfl rfl rfl rfl rfl)
    | split)

theorem State.lossOf_kept {z : State} (s : State) (c u : Nat) (h_s : Kept z s) : Kept z (State.lossOf s c u) := by
  unfold State.lossOf
  repeat' (first
    | with_reducible assumption
    | (intro x; subst x)
    | lift_lets -underBinder
    | with_reducible apply State.degrade_kept
    | fail_if_no_progress (with_reducible refine Kept.upd ?_ rfl rfl rfl rfl rfl rfl rfl rfl rfl rfl rfl rfl rfl rfl rfl rfl rfl rfl rfl rfl rfl rfl rfl rfl rfl))

end Sys2Proof.Machine
end

