-- ==== Sys2Proof/Laws/KeptFaults.lean ====
section
/-! SUPPORT. What the operations of Machine/Faults.lean keep. -/

namespace Sys2Proof.Machine

theorem State.fltSettle_kept {z : State} (s : State) (h_s : Kept z s) : Kept z (State.fltSettle s) := by
  unfold State.fltSettle
  repeat' (first
    | with_reducible assumption
    | (intro x; subst x)
    | with_reducible apply Kept.ite
    | lift_lets -underBinder
    | with_reducible apply State.setPin_kept
    | fail_if_no_progress (with_reducible refine Kept.upd ?_ rfl rfl rfl rfl rfl rfl rfl rfl rfl rfl rfl rfl rfl rfl rfl rfl rfl rfl rfl rfl rfl rfl rfl rfl rfl))

theorem State.fltQualify_kept {z : State} (s : State) (h_s : Kept z s) : Kept z (State.fltQualify s) := by
  unfold State.fltQualify
  repeat' (first
    | with_reducible assumption
    | (intro x; subst x)
    | with_reducible apply Kept.ite
    | lift_lets -underBinder
    | with_reducible apply State.bump_kept
    | with_reducible apply State.setPin_kept
    | fail_if_no_progress (with_reducible refine Kept.upd ?_ rfl rfl rfl rfl rfl rfl rfl rfl rfl rfl rfl rfl rfl rfl rfl rfl rfl rfl rfl rfl rfl rfl rfl rfl rfl))

theorem State.setFstat_kept {z : State} (s : State) (b : BlkId) (src : Nat) (h_s : Kept z s) : Kept z (State.setFstat s b src) := by
  unfold State.setFstat
  repeat' (first
    | with_reducible assumption
    | with_reducible apply State.setReg_kept)

theorem State.capWords_kept {z : State} (s : State) (caps : List Nat) (h_s : Kept z s) : Kept z (s.capWords caps).2 := by
  unfold State.capWords
  dsimp only
  split
  all_goals first | exact h_s | exact State.draw_kept _ _ (State.draw_kept _ _ (State.draw_kept _ _ h_s))

theorem State.capture_kept {z : State} (s : State) (b : BlkId) (src : Nat) (c : Nat × Nat × Nat) (h_s : Kept z s) : Kept z (State.capture s b src c).2 := by
  unfold State.capture
  repeat' (first
    | with_reducible assumption
    | (intro x; subst x)
    | with_reducible apply Kept.ite2
    | lift_lets -underBinder
    | with_reducible apply State.setReg_kept
    | with_reducible apply State.setReg64_kept)

theorem State.faultEvent_kept {z : State} (s : State) (b : BlkId) (src eff conf react : Nat) (held : Option Hold) (esc forced captured : Bool) (c : Nat × Nat × Nat) (h_s : Kept z s) : Kept z (State.faultEvent s b src eff conf react held esc forced captured c) := by
  unfold State.faultEvent
  repeat' (first
    | with_reducible assumption
    | (intro x; subst x)
    | lift_lets -underBinder
    | with_reducible apply State.post_kept)

theorem State.logFault_kept {z : State} (s : State) (b : BlkId) (src eff react : Nat) (esc forced : Bool) (c : Nat × Nat × Nat) (h_s : Kept z s) : Kept z (State.logFault s b src eff react esc forced c) := by
  unfold State.logFault
  repeat' (first
    | with_reducible assumption
    | (intro x; subst x)
    | with_reducible apply Kept.ite
    | lift_lets -underBinder
    | fail_if_no_progress (with_reducible refine Kept.upd ?_ rfl rfl rfl rfl rfl rfl rfl rfl rfl rfl rfl rfl rfl rfl rfl rfl rfl rfl rfl rfl rfl rfl rfl rfl rfl))

theorem State.noteSource_kept {z : State} (s : State) (b : BlkId) (src conf eff : Nat) (forced : Bool) (h_s : Kept z s) : Kept z (State.noteSource s b src conf eff forced) := by
  unfold State.noteSource
  repeat' (first
    | with_reducible assumption
    | (intro x; subst x)
    | lift_lets -underBinder
    | fail_if_no_progress (with_reducible refine Kept.upd ?_ rfl rfl rfl rfl rfl rfl rfl rfl rfl rfl rfl rfl rfl rfl rfl rfl rfl rfl rfl rfl rfl rfl rfl rfl rfl))

theorem State.occur_kept {z : State} (s : State) (b : BlkId) (src : Nat) (caps : List Nat) (slot : Nat) (forced : Bool) (h_s : Kept z s) : Kept z (State.occur s b src caps slot forced) := by
  unfold State.occur
  repeat' (first
    | with_reducible assumption
    | (intro x; subst x)
    | with_reducible apply Kept.ite
    | lift_lets -underBinder
    | with_reducible apply State.setFstat_kept
    | with_reducible apply State.capWords_kept
    | with_reducible apply State.faultEvent_kept
    | with_reducible apply State.capture_kept
    | with_reducible apply State.noteSource_kept
    | with_reducible apply State.logFault_kept
    | with_reducible apply State.fltQualify_kept
    | fail_if_no_progress (with_reducible refine Kept.upd ?_ rfl rfl rfl rfl rfl rfl rfl rfl rfl rfl rfl rfl rfl rfl rfl rfl rfl rfl rfl rfl rfl rfl rfl rfl rfl)
    | (with_reducible refine Kept.ofPair (by assumption) ?_)
    | split)

end Sys2Proof.Machine
end

