-- ==== Sys2Proof/Laws/KeptOperands.lean ====
section
/-! SUPPORT. What the operations of Machine/Operands.lean keep. -/

namespace Sys2Proof.Machine

theorem State.setPe_kept {z : State} (s : State) (n : Fin 18) (e : Engine) (h_s : Kept z s) : Kept z (State.setPe s n e) := by
  unfold State.setPe
  repeat' (first
    | with_reducible assumption
    | fail_if_no_progress (with_reducible refine Kept.upd ?_ rfl rfl rfl rfl rfl rfl rfl rfl rfl rfl rfl rfl rfl rfl rfl rfl rfl rfl rfl rfl rfl rfl rfl rfl rfl))

theorem State.onPe_kept {z : State} (s : State) (n : Fin 18) (f : Engine → Engine) (h_s : Kept z s) : Kept z (State.onPe s n f) := by
  unfold State.onPe
  repeat' (first
    | with_reducible assumption
    | with_reducible apply State.setPe_kept)

theorem State.either_kept {z : State} {α : Type} (s : State) (old new : α) (h_s : Kept z s) : Kept z (State.either s old new).2 := by
  unfold State.either
  repeat' (first
    | with_reducible assumption
    | with_reducible apply State.draw_kept)

theorem State.readW_kept {z : State} (s : State) (n : Fin 18) (r : Fin 32) (h_s : Kept z s) : Kept z (State.readW s n r).2 := by
  unfold State.readW
  repeat' (first
    | with_reducible assumption
    | (intro x; subst x)
    | lift_lets -underBinder
    | with_reducible apply State.either_kept
    | split)

theorem State.readAcc_kept {z : State} (s : State) (n : Fin 18) (a : Fin 4) (macClass : Bool) (h_s : Kept z s) : Kept z (State.readAcc s n a macClass).2 := by
  unfold State.readAcc
  repeat' (first
    | with_reducible assumption
    | (intro x; subst x)
    | lift_lets -underBinder
    | with_reducible apply State.either_kept
    | split)

theorem State.readFlags_kept {z : State} (s : State) (n : Fin 18) (h_s : Kept z s) : Kept z (State.readFlags s n).2 := by
  unfold State.readFlags
  repeat' (first
    | with_reducible assumption
    | with_reducible apply Kept.ite2
    | lift_lets -underBinder
    | with_reducible apply State.either_kept)

theorem State.notExecuted_kept {z : State} (s : State) (n : Fin 18) (src : Nat) (whole : Bool) (h_s : Kept z s) : Kept z (State.notExecuted s n src whole) := by
  unfold State.notExecuted
  repeat' (first
    | with_reducible assumption
    | with_reducible apply Kept.ite
    | lift_lets -underBinder
    | with_reducible apply State.onPe_kept
    | with_reducible apply State.raiseFor_kept)

theorem State.issue0_kept {z : State} (s : State) (n : Fin 18) (last : Bool) (body : State → State) (h_s : Kept z s) (h_body : ∀ t, Kept z t → Kept z (body t)) : Kept z (State.issue0 s n last body) := by
  unfold State.issue0
  repeat' (first
    | with_reducible assumption
    | with_reducible apply Kept.ite
    | lift_lets -underBinder
    | with_reducible apply State.onPe_kept
    | with_reducible apply State.notExecuted_kept
    | apply h_body)

theorem State.issue1_kept {z : State} (s : State) (n : Fin 18) (body : State → State × Bool) (h_s : Kept z s) (h_body : ∀ x0, Kept z x0 → Kept z (body x0).1) : Kept z (State.issue1 s n body) := by
  unfold State.issue1
  repeat' (first
    | with_reducible assumption
    | with_reducible apply Kept.ite
    | lift_lets -underBinder
    | with_reducible apply State.onPe_kept
    | with_reducible apply State.notExecuted_kept
    | apply h_body)

theorem State.illegal_kept {z : State} (s : State) (n : Fin 18) (h_s : Kept z s) : Kept z (State.illegal s n) := by
  unfold State.illegal
  repeat' (first
    | with_reducible assumption
    | with_reducible apply Kept.ite
    | lift_lets -underBinder
    | with_reducible apply State.onPe_kept
    | with_reducible apply State.notExecuted_kept)

theorem State.put_kept {z : State} (s : State) (n : Fin 18) (rd : Fin 32) (o : AluOut) (d : Nat) (h_s : Kept z s) : Kept z (State.put s n rd o d) := by
  unfold State.put
  repeat' (first
    | with_reducible assumption
    | with_reducible apply State.onPe_kept)

theorem State.alu2_kept {z : State} (s : State) (n : Fin 18) (last : Bool) (rd ra rb : Fin 32) (d : Nat) (f : Word → Word → AluOut) (h_s : Kept z s) : Kept z (State.alu2 s n last rd ra rb d f) := by
  unfold State.alu2
  repeat' (first
    | with_reducible assumption
    | with_reducible refine fun t => ?_
    | lift_lets -underBinder
    | with_reducible apply State.issue0_kept
    | with_reducible apply State.readW_kept
    | with_reducible apply State.put_kept)

theorem State.alu1_kept {z : State} (s : State) (n : Fin 18) (last : Bool) (rd ra : Fin 32) (f : Word → AluOut) (h_s : Kept z s) : Kept z (State.alu1 s n last rd ra f) := by
  unfold State.alu1
  repeat' (first
    | with_reducible assumption
    | with_reducible refine fun t => ?_
    | lift_lets -underBinder
    | with_reducible apply State.issue0_kept
    | with_reducible apply State.readW_kept
    | with_reducible apply State.put_kept)

theorem State.alu0_kept {z : State} (s : State) (n : Fin 18) (last : Bool) (rd : Fin 32) (v : Word) (h_s : Kept z s) : Kept z (State.alu0 s n last rd v) := by
  unfold State.alu0
  repeat' (first
    | with_reducible assumption
    | with_reducible refine fun t => ?_
    | with_reducible apply State.issue0_kept
    | with_reducible apply State.put_kept)

theorem State.putAcc_kept {z : State} (s : State) (n : Fin 18) (a : Fin 4) (v : BitVec 40 × BitVec 10) (d : Nat) (mac : Bool) (h_s : Kept z s) : Kept z (State.putAcc s n a v d mac) := by
  unfold State.putAcc
  repeat' (first
    | with_reducible assumption
    | with_reducible apply State.onPe_kept)

theorem State.macClass_kept {z : State} (s : State) (n : Fin 18) (last : Bool) (a : Fin 4) (ra rb : Fin 32) (sat : Bool) (rnd : Nat) (f : Int → Int → Int) (h_s : Kept z s) : Kept z (State.macClass s n last a ra rb sat rnd f) := by
  unfold State.macClass
  repeat' (first
    | with_reducible assumption
    | with_reducible refine fun t => ?_
    | with_reducible apply Kept.ite
    | lift_lets -underBinder
    | with_reducible apply State.illegal_kept
    | with_reducible apply State.issue0_kept
    | with_reducible apply State.readW_kept
    | with_reducible apply State.readAcc_kept
    | with_reducible apply State.putAcc_kept)

end Sys2Proof.Machine
end

