-- ==== Sys2Proof/Laws/KeptMemOps.lean ====
section
/-! SUPPORT. What the operations of Machine/MemOps.lean keep. -/

namespace Sys2Proof.Machine

theorem State.setBank_kept {z : State} (s : State) (buffer : Bool) (p : Nat) (b : Bank) (h_s : Kept z s) : Kept z (State.setBank s buffer p b) := by
  unfold State.setBank
  repeat' (first
    | with_reducible assumption
    | (intro x; subst x)
    | with_reducible apply Kept.ite
    | lift_lets -underBinder
    | fail_if_no_progress (with_reducible refine Kept.upd ?_ rfl rfl rfl rfl rfl rfl rfl rfl rfl rfl rfl rfl rfl rfl rfl rfl rfl rfl rfl rfl rfl rfl rfl rfl rfl))

theorem State.setPhys_kept {z : State} (s : State) (buffer : Bool) (l p : Nat) (h_s : Kept z s) : Kept z (State.setPhys s buffer l p) := by
  unfold State.setPhys
  repeat' (first
    | with_reducible assumption
    | (intro x; subst x)
    | with_reducible apply Kept.ite
    | lift_lets -underBinder
    | fail_if_no_progress (with_reducible refine Kept.upd ?_ rfl rfl rfl rfl rfl rfl rfl rfl rfl rfl rfl rfl rfl rfl rfl rfl rfl rfl rfl rfl rfl rfl rfl rfl rfl))

theorem State.setOwner_kept {z : State} (s : State) (b o : Nat) (h_s : Kept z s) : Kept z (State.setOwner s b o) := by
  unfold State.setOwner
  repeat' (first
    | with_reducible assumption
    | (intro x; subst x)
    | lift_lets -underBinder
    | fail_if_no_progress (with_reducible refine Kept.upd ?_ rfl rfl rfl rfl rfl rfl rfl rfl rfl rfl rfl rfl rfl rfl rfl rfl rfl rfl rfl rfl rfl rfl rfl rfl rfl))

theorem State.mapBanks_kept {z : State} (s : State) (buffer : Bool) (failed : List Nat) (h_s : Kept z s) : Kept z (State.mapBanks s buffer failed) := by
  unfold State.mapBanks
  repeat' (first
    | with_reducible assumption
    | (intro x; refine Kept.cut (a := x) ?_ (fun _ => ?_) <;> [subst x; clear_value x])
    | (intro x; subst x)
    | lift_lets -underBinder
    | with_reducible apply State.setBank_kept
    | with_reducible apply State.setPhys_kept
    | with_reducible refine Kept.foldl ?_ (fun t x ht => ?_)
    | split)

theorem State.mapAllBanks_kept {z : State} (s : State) (failedS failedB : List Nat) (h_s : Kept z s) : Kept z (State.mapAllBanks s failedS failedB) := by
  unfold State.mapAllBanks
  repeat' (first
    | with_reducible assumption
    | (intro x; refine Kept.cut (a := x) ?_ (fun _ => ?_) <;> [subst x; clear_value x])
    | lift_lets -underBinder
    | with_reducible apply State.mapBanks_kept
    | fail_if_no_progress (with_reducible refine Kept.upd ?_ rfl rfl rfl rfl rfl rfl rfl rfl rfl rfl rfl rfl rfl rfl rfl rfl rfl rfl rfl rfl rfl rfl rfl rfl rfl))

theorem State.bankCe_kept {z : State} (s : State) (buffer : Bool) (p w master : Nat) (store : Bool) (size : Nat) (h_s : Kept z s) : Kept z (State.bankCe s buffer p w master store size) := by
  unfold State.bankCe
  repeat' (first
    | with_reducible assumption
    | (intro x; subst x)
    | lift_lets -underBinder
    | with_reducible apply State.setBank_kept
    | with_reducible apply State.raise_kept)

theorem State.bankUe_kept {z : State} (s : State) (buffer : Bool) (p w master : Nat) (store : Bool) (size : Nat) (h_s : Kept z s) : Kept z (State.bankUe s buffer p w master store size) := by
  unfold State.bankUe
  repeat' (first
    | with_reducible assumption
    | (intro x; subst x)
    | lift_lets -underBinder
    | with_reducible apply State.setBank_kept
    | with_reducible apply State.unitFailed_kept
    | with_reducible apply State.raise_kept)

theorem State.countWait_kept {z : State} (s : State) (m : Nat) (h_s : Kept z s) : Kept z (State.countWait s m) := by
  unfold State.countWait
  repeat' (first
    | with_reducible assumption
    | (intro x; subst x)
    | lift_lets -underBinder
    | fail_if_no_progress (with_reducible refine Kept.upd ?_ rfl rfl rfl rfl rfl rfl rfl rfl rfl rfl rfl rfl rfl rfl rfl rfl rfl rfl rfl rfl rfl rfl rfl rfl rfl))

theorem State.nonOwner_kept {z : State} (s : State) (m b w : Nat) (store : Bool) (size : Nat) (h_s : Kept z s) : Kept z (State.nonOwner s m b w store size) := by
  unfold State.nonOwner
  repeat' (first
    | with_reducible assumption
    | (intro x; subst x)
    | with_reducible apply Kept.ite
    | lift_lets -underBinder
    | with_reducible apply State.raise_kept
    | fail_if_no_progress (with_reducible refine Kept.upd ?_ rfl rfl rfl rfl rfl rfl rfl rfl rfl rfl rfl rfl rfl rfl rfl rfl rfl rfl rfl rfl rfl rfl rfl rfl rfl))

theorem State.served_kept {z : State} (s : State) (p m : Nat) (h_s : Kept z s) : Kept z (State.served s p m) := by
  unfold State.served
  repeat' (first
    | with_reducible assumption
    | (intro x; subst x)
    | lift_lets -underBinder
    | with_reducible apply State.setBank_kept)

theorem State.bankLoad_kept {z : State} (s : State) (m o b off size : Nat) (free : Bool) (ecc : Ecc) (h_s : Kept z s) : Kept z (State.bankLoad s m o b off size free ecc).2 := by
  unfold State.bankLoad
  repeat' (first
    | with_reducible assumption
    | with_reducible apply Kept.ite
    | with_reducible apply Kept.ite2
    | lift_lets -underBinder
    | with_reducible apply State.countWait_kept
    | with_reducible apply State.nonOwner_kept
    | with_reducible apply State.served_kept
    | with_reducible apply State.bankUe_kept
    | with_reducible apply State.bankCe_kept
    | split)

theorem State.bankStore_kept {z : State} (s : State) (m o b off : Nat) (bs : List Byte) (free : Bool) (ecc : Ecc) (h_s : Kept z s) : Kept z (State.bankStore s m o b off bs free ecc).2 := by
  unfold State.bankStore
  repeat' (first
    | with_reducible assumption
    | (intro x; refine Kept.cut (a := x) ?_ (fun _ => ?_) <;> [subst x; clear_value x])
    | with_reducible apply Kept.ite
    | with_reducible apply Kept.ite2
    | lift_lets -underBinder
    | with_reducible apply State.countWait_kept
    | with_reducible apply State.nonOwner_kept
    | with_reducible apply State.served_kept
    | with_reducible apply State.bankUe_kept
    | with_reducible apply State.bankCe_kept
    | with_reducible apply State.setBank_kept
    | split)

theorem State.hostRead_kept {z : State} (s : State) (m o b : Nat) (ecc : Ecc) (xs : List (Nat × Nat)) (h_s : Kept z s) : Kept z (State.hostRead s m o b ecc xs).2 := by
  induction xs generalizing s m o b ecc with
  | nil =>
    unfold State.hostRead
    assumption
  | cons e es ih =>
    unfold State.hostRead
    repeat' (first
      | with_reducible assumption
      | apply ih
      | lift_lets -underBinder
      | with_reducible apply State.bankLoad_kept)

theorem State.hostStore_kept {z : State} (s : State) (m o b : Nat) (ecc : Ecc) (data : List Byte) (xs : List (Nat × Nat)) (h_s : Kept z s) : Kept z (State.hostStore s m o b ecc data xs) := by
  induction xs generalizing s m o b ecc data with
  | nil =>
    unfold State.hostStore
    assumption
  | cons e es ih =>
    unfold State.hostStore
    repeat' (first
      | with_reducible assumption
      | apply ih
      | lift_lets -underBinder
      | with_reducible apply State.bankStore_kept)

theorem State.hostServe_kept {z : State} (s : State) (x : HostWait) (h_s : Kept z s) : Kept z (State.hostServe s x) := by
  unfold State.hostServe
  repeat' (first
    | with_reducible assumption
    | (intro x; refine Kept.cut (a := x) ?_ (fun _ => ?_) <;> [subst x; clear_value x])
    | (intro x; subst x)
    | lift_lets -underBinder
    | with_reducible apply State.hostStore_kept
    | with_reducible apply State.hostRead_kept
    | fail_if_no_progress (with_reducible refine Kept.upd ?_ rfl rfl rfl rfl rfl rfl rfl rfl rfl rfl rfl rfl rfl rfl rfl rfl rfl rfl rfl rfl rfl rfl rfl rfl rfl)
    | split)

theorem State.hostBank_kept {z : State} (s : State) (x : HostWait) (h_s : Kept z s) : Kept z (State.hostBank s x) := by
  unfold State.hostBank
  repeat' (first
    | with_reducible assumption
    | (intro x; refine Kept.cut (a := x) ?_ (fun _ => ?_) <;> [subst x; clear_value x])
    | (intro x; subst x)
    | with_reducible apply Kept.ite
    | lift_lets -underBinder
    | with_reducible apply State.countWait_kept
    | with_reducible apply State.nonOwner_kept
    | with_reducible apply State.hostServe_kept
    | fail_if_no_progress (with_reducible refine Kept.upd ?_ rfl rfl rfl rfl rfl rfl rfl rfl rfl rfl rfl rfl rfl rfl rfl rfl rfl rfl rfl rfl rfl rfl rfl rfl rfl)
    | split)

theorem State.serveWaiting_kept {z : State} (s : State) (b : Nat) (h_s : Kept z s) : Kept z (State.serveWaiting s b) := by
  unfold State.serveWaiting
  repeat' (first
    | with_reducible assumption
    | (intro x; subst x)
    | lift_lets -underBinder
    | with_reducible apply State.hostServe_kept
    | with_reducible refine Kept.foldl ?_ (fun t x ht => ?_)
    | fail_if_no_progress (with_reducible refine Kept.upd ?_ rfl rfl rfl rfl rfl rfl rfl rfl rfl rfl rfl rfl rfl rfl rfl rfl rfl rfl rfl rfl rfl rfl rfl rfl rfl))

theorem State.ownResult_kept {z : State} (s : State) (busy : Bool) (r : Nat) (h_s : Kept z s) : Kept z (State.ownResult s busy r) := by
  unfold State.ownResult
  repeat' (first
    | with_reducible assumption
    | lift_lets -underBinder
    | with_reducible apply State.wr_kept)

theorem State.startHandover_kept {z : State} (s : State) (b new : Nat) (h_s : Kept z s) : Kept z (State.startHandover s b new) := by
  unfold State.startHandover
  repeat' (first
    | with_reducible assumption
    | (intro x; subst x)
    | with_reducible apply Kept.ite
    | lift_lets -underBinder
    | with_reducible apply State.wr_kept
    | with_reducible apply State.setOwner_kept
    | with_reducible apply State.ownResult_kept
    | fail_if_no_progress (with_reducible refine Kept.upd ?_ rfl rfl rfl rfl rfl rfl rfl rfl rfl rfl rfl rfl rfl rfl rfl rfl rfl rfl rfl rfl rfl rfl rfl rfl rfl))

theorem State.nextHandover_kept {z : State} (fuel : Nat) (s : State) (h_s : Kept z s) : Kept z (State.nextHandover fuel s) := by
  induction fuel generalizing s with
  | zero =>
    simp only [State.nextHandover]
    first | assumption | repeat' (first | assumption | split)
  | succ n ih =>
    unfold State.nextHandover
    repeat' (first
      | with_reducible assumption
      | apply ih
      | (intro x; subst x)
      | lift_lets -underBinder
      | with_reducible apply State.startHandover_kept
      | fail_if_no_progress (with_reducible refine Kept.upd ?_ rfl rfl rfl rfl rfl rfl rfl rfl rfl rfl rfl rfl rfl rfl rfl rfl rfl rfl rfl rfl rfl rfl rfl rfl rfl)
      | split)

theorem State.supHandover_kept {z : State} (s : State) (b new : Nat) (h_s : Kept z s) : Kept z (State.supHandover s b new) := by
  unfold State.supHandover
  repeat' (first
    | with_reducible assumption
    | (intro x; subst x)
    | lift_lets -underBinder
    | with_reducible apply State.nextHandover_kept
    | fail_if_no_progress (with_reducible refine Kept.upd ?_ rfl rfl rfl rfl rfl rfl rfl rfl rfl rfl rfl rfl rfl rfl rfl rfl rfl rfl rfl rfl rfl rfl rfl rfl rfl))

theorem State.endHandover_kept {z : State} (s : State) (h : Handover) (result : Nat) (h_s : Kept z s) : Kept z (State.endHandover s h result) := by
  unfold State.endHandover
  repeat' (first
    | with_reducible assumption
    | (intro x; subst x)
    | lift_lets -underBinder
    | with_reducible apply State.nextHandover_kept
    | with_reducible apply State.setOwner_kept
    | with_reducible apply State.ownResult_kept
    | with_reducible apply State.serveWaiting_kept
    | fail_if_no_progress (with_reducible refine Kept.upd ?_ rfl rfl rfl rfl rfl rfl rfl rfl rfl rfl rfl rfl rfl rfl rfl rfl rfl rfl rfl rfl rfl rfl rfl rfl rfl))

theorem State.markerMoves_kept {z : State} (s : State) (n : Nat) (k : Nat) (h_s : Kept z s) : Kept z (State.markerMoves s n k) := by
  unfold State.markerMoves
  repeat' (first
    | with_reducible assumption
    | (intro x; subst x)
    | with_reducible apply Kept.ite
    | lift_lets -underBinder
    | fail_if_no_progress (with_reducible refine Kept.upd ?_ rfl rfl rfl rfl rfl rfl rfl rfl rfl rfl rfl rfl rfl rfl rfl rfl rfl rfl rfl rfl rfl rfl rfl rfl rfl)
    | split)

theorem State.repairStat_kept {z : State} (s : State) (active : Bool) (step : Nat) (h_s : Kept z s) : Kept z (State.repairStat s active step) := by
  unfold State.repairStat
  repeat' (first
    | with_reducible assumption
    | lift_lets -underBinder
    | with_reducible apply State.wr_kept)

theorem State.startRepair_kept {z : State} (s : State) (buffer : Bool) (l : Nat) (h_s : Kept z s) : Kept z (State.startRepair s buffer l) := by
  unfold State.startRepair
  repeat' (first
    | with_reducible assumption
    | (intro x; refine Kept.cut (a := x) ?_ (fun _ => ?_) <;> [subst x; clear_value x])
    | (intro x; subst x)
    | lift_lets -underBinder
    | with_reducible apply State.setBank_kept
    | with_reducible apply State.repairStat_kept
    | with_reducible apply State.wr_kept
    | fail_if_no_progress (with_reducible refine Kept.upd ?_ rfl rfl rfl rfl rfl rfl rfl rfl rfl rfl rfl rfl rfl rfl rfl rfl rfl rfl rfl rfl rfl rfl rfl rfl rfl)
    | split)

theorem State.abandonRepair_kept {z : State} (s : State) (r : Repair) (cause role : Nat) (h_s : Kept z s) : Kept z (State.abandonRepair s r cause role) := by
  unfold State.abandonRepair
  repeat' (first
    | with_reducible assumption
    | (intro x; refine Kept.cut (a := x) ?_ (fun _ => ?_) <;> [subst x; clear_value x])
    | (intro x; subst x)
    | with_reducible apply Kept.ite
    | lift_lets -underBinder
    | with_reducible apply State.setBank_kept
    | with_reducible apply State.unitFailed_kept
    | with_reducible apply State.repairStat_kept
    | with_reducible apply State.wr_kept
    | with_reducible apply State.bump_kept
    | with_reducible apply State.raise_kept
    | fail_if_no_progress (with_reducible refine Kept.upd ?_ rfl rfl rfl rfl rfl rfl rfl rfl rfl rfl rfl rfl rfl rfl rfl rfl rfl rfl rfl rfl rfl rfl rfl rfl rfl))

theorem State.dropRepair_kept {z : State} (s : State) (cause : Nat) (h_s : Kept z s) : Kept z (State.dropRepair s cause) := by
  unfold State.dropRepair
  repeat' (first
    | with_reducible assumption
    | with_reducible apply State.abandonRepair_kept
    | split)

theorem State.abortMarch_kept {z : State} (s : State) (h_s : Kept z s) : Kept z (State.abortMarch s) := by
  unfold State.abortMarch
  repeat' (first
    | with_reducible assumption
    | (intro x; subst x)
    | lift_lets -underBinder
    | with_reducible apply State.wr_kept
    | fail_if_no_progress (with_reducible refine Kept.upd ?_ rfl rfl rfl rfl rfl rfl rfl rfl rfl rfl rfl rfl rfl rfl rfl rfl rfl rfl rfl rfl rfl rfl rfl rfl rfl)
    | split)

theorem State.remapLost_kept {z : State} (s : State) (buffer : Bool) (l : Nat) (h_s : Kept z s) : Kept z (State.remapLost s buffer l) := by
  unfold State.remapLost
  repeat' (first
    | with_reducible assumption
    | (intro x; refine Kept.cut (a := x) ?_ (fun _ => ?_) <;> [subst x; clear_value x])
    | (intro x; subst x)
    | lift_lets -underBinder
    | with_reducible apply State.setBank_kept
    | with_reducible apply State.unitFailed_kept
    | with_reducible apply State.setPhys_kept
    | split)

theorem State.memPeriod_kept {z : State} (s : State) (h_s : Kept z s) : Kept z (State.memPeriod s) := by
  unfold State.memPeriod
  repeat' (first
    | with_reducible assumption
    | (intro x; refine Kept.cut (a := x) ?_ (fun _ => ?_) <;> [subst x; clear_value x])
    | (intro x; subst x)
    | with_reducible apply Kept.ite
    | lift_lets -underBinder
    | with_reducible apply State.wr_kept
    | with_reducible refine Kept.foldl ?_ (fun t x ht => ?_)
    | fail_if_no_progress (with_reducible refine Kept.upd ?_ rfl rfl rfl rfl rfl rfl rfl rfl rfl rfl rfl rfl rfl rfl rfl rfl rfl rfl rfl rfl rfl rfl rfl rfl rfl))

end Sys2Proof.Machine
end

