-- ==== Sys2Proof/Laws/KeptMbxOps.lean ====
section
/-! SUPPORT. What the operations of Machine/MbxOps.lean keep. -/

set_option linter.unusedSimpArgs false

namespace Sys2Proof.Machine

theorem State.setInbox_kept {z : State} (s : State) (ep k : Nat) (b : Inbox) (h_s : Kept z s) : Kept z (State.setInbox s ep k b) := by
  obtain ⟨h1, h2, h3⟩ := h_s
  refine ⟨h1, h2, fun c => ?_⟩
  have h4 := h3 c
  simp only [State.canon, State.regsWf, State.setInbox, Bool.and_eq_true] at h4 ⊢
  simp only [h4, SMap.wf_set, and_self]

theorem State.setOstat_kept {z : State} (s : State) (ep c bit : Nat) (h_s : Kept z s) : Kept z (State.setOstat s ep c bit) := by
  obtain ⟨h1, h2, h3⟩ := h_s
  refine ⟨h1, h2, fun c => ?_⟩
  have h4 := h3 c
  simp only [State.canon, State.regsWf, State.setOstat, Bool.and_eq_true] at h4 ⊢
  simp only [h4, SMap.wf_set, and_self]

theorem State.changeDb_kept {z : State} (s : State) (ep : Nat) (db mask : Word) (h_s : Kept z s) : Kept z (State.changeDb s ep db mask) := by
  unfold State.changeDb
  repeat' (first
    | with_reducible assumption
    | (intro x; subst x)
    | with_reducible apply Kept.ite
    | lift_lets -underBinder
    | with_reducible apply State.raiseVec_kept
    | fail_if_no_progress (with_reducible refine Kept.gen ?_ rfl rfl (fun c => ?_) <;> [skip; (simp +zetaDelta only [State.canon, State.regsWf, Bool.and_eq_true] at c ⊢; simp +zetaDelta only [c, SMap.wf_set, SMap.wf_nil, SMap.wf_filter, SioSt.reset, SwcSt.reset, CvnSt.reset, PsqSt.reset, MbxSt.reset, and_self]; done)]))

theorem State.ringDb_kept {z : State} (s : State) (ep : Nat) (bits : Word) (h_s : Kept z s) : Kept z (State.ringDb s ep bits) := by
  unfold State.ringDb
  repeat' (first
    | with_reducible assumption
    | with_reducible apply State.changeDb_kept)

theorem State.clearDb_kept {z : State} (s : State) (ep : Nat) (bits : Word) (h_s : Kept z s) : Kept z (State.clearDb s ep bits) := by
  unfold State.clearDb
  repeat' (first
    | with_reducible assumption
    | with_reducible apply State.changeDb_kept)

theorem State.raiseMbx_kept {z : State} (s : State) (src ep mb word master from_ : Nat) (h_s : Kept z s) : Kept z (State.raiseMbx s src ep mb word master from_) := by
  unfold State.raiseMbx
  repeat' (first
    | with_reducible assumption
    | with_reducible apply State.raiseFor_kept)

theorem State.mbxReject_kept {z : State} (s : State) (src ep c mb word master : Nat) (h_s : Kept z s) : Kept z (State.mbxReject s src ep c mb word master) := by
  unfold State.mbxReject
  repeat' (first
    | with_reducible assumption
    | lift_lets -underBinder
    | with_reducible apply State.setOstat_kept
    | with_reducible apply State.raiseMbx_kept)

theorem State.mbxFull_kept {z : State} (s : State) (ep c word master : Nat) (apply : Inbox → Inbox) (h_s : Kept z s) : Kept z (State.mbxFull s ep c word master apply) := by
  unfold State.mbxFull
  repeat' (first
    | with_reducible assumption
    | (intro x; subst x)
    | with_reducible apply Kept.ite
    | lift_lets -underBinder
    | with_reducible apply State.setInbox_kept
    | with_reducible apply State.setOstat_kept
    | with_reducible apply State.ringDb_kept
    | with_reducible apply State.raiseMbx_kept
    | with_reducible apply State.mbxReject_kept
    | with_reducible apply State.bump_kept)

theorem State.mbxSend_kept {z : State} (s : State) (ep c master : Nat) (value : Word) (h_s : Kept z s) : Kept z (State.mbxSend s ep c master value) := by
  unfold State.mbxSend
  repeat' (first
    | with_reducible assumption
    | (intro x; subst x)
    | with_reducible apply Kept.ite
    | lift_lets -underBinder
    | with_reducible apply State.mbxReject_kept
    | with_reducible apply State.mbxFull_kept
    | with_reducible apply State.ringDb_kept
    | with_reducible apply State.setInbox_kept)

theorem State.mbxData_kept {z : State} (s : State) (ep c w master : Nat) (value : Word) (h_s : Kept z s) : Kept z (State.mbxData s ep c w master value) := by
  unfold State.mbxData
  repeat' (first
    | with_reducible assumption
    | with_reducible apply Kept.ite
    | lift_lets -underBinder
    | with_reducible apply State.mbxReject_kept
    | with_reducible apply State.mbxFull_kept
    | with_reducible apply State.setInbox_kept)

theorem State.mbxRead_kept {z : State} (s : State) (ep k w : Nat) (h_s : Kept z s) : Kept z (State.mbxRead s ep k w).2 := by
  unfold State.mbxRead
  repeat' (first
    | with_reducible assumption
    | with_reducible apply Kept.ite
    | with_reducible apply Kept.ite2
    | lift_lets -underBinder
    | with_reducible apply State.setInbox_kept)

theorem State.winRead_kept {z : State} (s : State) (ep off : Nat) (h_s : Kept z s) : Kept z (State.winRead s ep off).2 := by
  unfold State.winRead
  repeat' (first
    | with_reducible assumption
    | with_reducible apply Kept.ite2
    | lift_lets -underBinder
    | with_reducible apply State.mbxRead_kept)

theorem State.winWrite_kept {z : State} (s : State) (ep master off : Nat) (v : Word) (h_s : Kept z s) : Kept z (State.winWrite s ep master off v) := by
  unfold State.winWrite
  repeat' (first
    | with_reducible assumption
    | (intro x; subst x)
    | with_reducible apply Kept.ite
    | lift_lets -underBinder
    | with_reducible apply State.setInbox_kept
    | with_reducible apply State.mbxData_kept
    | with_reducible apply State.mbxSend_kept
    | with_reducible apply State.clearDb_kept
    | with_reducible apply State.changeDb_kept
    | with_reducible apply State.raiseMbx_kept
    | with_reducible apply State.ringDb_kept
    | fail_if_no_progress (with_reducible refine Kept.gen ?_ rfl rfl (fun c => ?_) <;> [skip; (simp +zetaDelta only [State.canon, State.regsWf, Bool.and_eq_true] at c ⊢; simp +zetaDelta only [c, SMap.wf_set, SMap.wf_nil, SMap.wf_filter, SioSt.reset, SwcSt.reset, CvnSt.reset, PsqSt.reset, MbxSt.reset, and_self]; done)]))

theorem State.winBadSize_kept {z : State} (s : State) (ep master off : Nat) (h_s : Kept z s) : Kept z (State.winBadSize s ep master off) := by
  unfold State.winBadSize
  repeat' (first
    | with_reducible assumption
    | with_reducible apply State.raiseMbx_kept)

theorem State.epResetRx_kept {z : State} (s : State) (ep : Nat) (h_s : Kept z s) : Kept z (State.epResetRx s ep) := by
  unfold State.epResetRx
  repeat' (first
    | with_reducible assumption
    | (intro x; refine Kept.cut (a := x) ?_ (fun _ => ?_) <;> [subst x; clear_value x])
    | with_reducible apply Kept.ite
    | lift_lets -underBinder
    | with_reducible apply State.setOstat_kept
    | with_reducible apply State.ringDb_kept
    | with_reducible apply State.setInbox_kept
    | with_reducible apply State.raiseMbx_kept
    | with_reducible apply State.clearDb_kept
    | with_reducible refine Kept.foldl ?_ (fun t x ht => ?_))

theorem State.epResetTx_kept {z : State} (s : State) (ep : Nat) (h_s : Kept z s) : Kept z (State.epResetTx s ep) := by
  unfold State.epResetTx
  repeat' (first
    | with_reducible assumption
    | with_reducible apply Kept.ite
    | lift_lets -underBinder
    | with_reducible apply State.ringDb_kept
    | with_reducible refine Kept.foldl ?_ (fun t x ht => ?_))

theorem State.epReset_kept {z : State} (s : State) (ep : Nat) (h_s : Kept z s) : Kept z (State.epReset s ep) := by
  unfold State.epReset
  repeat' (first
    | with_reducible assumption
    | (intro x; refine Kept.cut (a := x) ?_ (fun _ => ?_) <;> [subst x; clear_value x])
    | (intro x; subst x)
    | lift_lets -underBinder
    | with_reducible apply State.epResetRx_kept
    | with_reducible apply State.epResetTx_kept
    | fail_if_no_progress (with_reducible refine Kept.gen ?_ rfl rfl (fun c => ?_) <;> [skip; (simp +zetaDelta only [State.canon, State.regsWf, Bool.and_eq_true] at c ⊢; simp +zetaDelta only [c, SMap.wf_set, SMap.wf_nil, SMap.wf_filter, SioSt.reset, SwcSt.reset, CvnSt.reset, PsqSt.reset, MbxSt.reset, and_self]; done)]))

theorem State.mbxBlockReset_kept {z : State} (s : State) (h_s : Kept z s) : Kept z (State.mbxBlockReset s) := by
  unfold State.mbxBlockReset
  repeat' (first
    | with_reducible assumption
    | (intro x; refine Kept.cut (a := x) ?_ (fun _ => ?_) <;> [subst x; clear_value x])
    | (intro x; subst x)
    | with_reducible apply Kept.ite
    | lift_lets -underBinder
    | with_reducible apply State.raiseMbx_kept
    | with_reducible apply State.changeDb_kept
    | with_reducible refine Kept.foldl ?_ (fun t x ht => ?_)
    | fail_if_no_progress (with_reducible refine Kept.gen ?_ rfl rfl (fun c => ?_) <;> [skip; (simp +zetaDelta only [State.canon, State.regsWf, Bool.and_eq_true] at c ⊢; simp +zetaDelta only [c, SMap.wf_set, SMap.wf_nil, SMap.wf_filter, SioSt.reset, SwcSt.reset, CvnSt.reset, PsqSt.reset, MbxSt.reset, and_self]; done)]))

end Sys2Proof.Machine
end

