-- ==== Sys2Proof/Laws/KeptCmdOps.lean ====
section
/-! SUPPORT. What the operations of Machine/CmdOps.lean keep. -/

namespace Sys2Proof.Machine

theorem State.flushRing_kept {z : State} (fuel : Nat) (s : State) (r : Nat) (h_s : Kept z s) : Kept z (State.flushRing fuel s r) := by
  induction fuel generalizing s r with
  | zero =>
    simp only [State.flushRing]
    first | assumption | repeat' (first | assumption | split)
  | succ n ih =>
    unfold State.flushRing
    repeat' (first
      | with_reducible assumption
      | apply ih
      | with_reducible apply Kept.ite
      | lift_lets -underBinder
      | with_reducible apply State.emit_kept
      | with_reducible apply State.setRing_kept
      | with_reducible apply State.notifyRing_kept
      | split)

theorem State.ringComplete_kept {z : State} (s : State) (r idx status info value : Nat) (h_s : Kept z s) : Kept z (State.ringComplete s r idx status info value) := by
  unfold State.ringComplete
  repeat' (first
    | with_reducible assumption
    | (intro x; subst x)
    | lift_lets -underBinder
    | with_reducible apply State.setRing_kept
    | with_reducible apply State.flushRing_kept)

theorem State.stopRing_kept {z : State} (s : State) (r err : Nat) (h_s : Kept z s) : Kept z (State.stopRing s r err) := by
  unfold State.stopRing
  repeat' (first
    | with_reducible assumption
    | (intro x; subst x)
    | lift_lets -underBinder
    | with_reducible apply State.setRing_kept
    | with_reducible apply State.bump_kept
    | with_reducible apply State.raise_kept
    | with_reducible apply State.event_kept)

theorem State.dmaError_kept {z : State} (s : State) (port addr size : Nat) (h_s : Kept z s) : Kept z (State.dmaError s port addr size) := by
  unfold State.dmaError
  repeat' (first
    | with_reducible assumption
    | lift_lets -underBinder
    | with_reducible apply State.bump_kept
    | with_reducible apply State.raise_kept)

theorem State.finish_kept {z : State} (s : State) (ring code : Nat) (st : Status) (value : Nat) (h_s : Kept z s) : Kept z (State.finish s ring code st value) := by
  unfold State.finish
  repeat' (first
    | with_reducible assumption
    | with_reducible apply State.complete_kept)

theorem State.take_kept {z : State} (s : State) (ring : Nat) (h_s : Kept z s) : Kept z (State.take s ring) := by
  unfold State.take
  repeat' (first
    | with_reducible assumption
    | (intro x; subst x)
    | lift_lets -underBinder
    | with_reducible apply State.setRing_kept)

theorem State.command_kept {z : State} (s : State) (ring code : Nat) (modes : Mode → Bool) (body : State → State) (h_s : Kept z s) (h_body : ∀ t, Kept z t → Kept z (body t)) : Kept z (State.command s ring code modes body) := by
  unfold State.command
  repeat' (first
    | with_reducible assumption
    | with_reducible apply Kept.ite
    | lift_lets -underBinder
    | with_reducible apply State.take_kept
    | with_reducible apply State.finish_kept
    | apply h_body)

theorem State.withDma_kept {z : State} (s : State) (ring code addr : Nat) (dma : Option (List Byte)) (body : State → List Byte → State) (h_s : Kept z s) (h_body : ∀ x0 x1, Kept z x0 → Kept z (body x0 x1)) : Kept z (State.withDma s ring code addr dma body) := by
  unfold State.withDma
  repeat' (first
    | with_reducible assumption
    | lift_lets -underBinder
    | with_reducible apply State.dmaError_kept
    | with_reducible apply State.finish_kept
    | apply h_body
    | split)

theorem State.writeHost_kept {z : State} (s : State) (ring code addr : Nat) (bs : List Byte) (value : Nat) (h_s : Kept z s) : Kept z (State.writeHost s ring code addr bs value) := by
  unfold State.writeHost
  repeat' (first
    | with_reducible assumption
    | with_reducible apply Kept.ite
    | lift_lets -underBinder
    | with_reducible apply State.emit_kept
    | with_reducible apply State.finish_kept)

end Sys2Proof.Machine
end

