-- ==== Sys2Proof/Laws/KeptSwcOps.lean ====
section
/-! SUPPORT. What the operations of Machine/SwcOps.lean keep. -/

namespace Sys2Proof.Machine

theorem State.setFrame_kept {z : State} (s : State) (fid : Nat) (f : Option Frame) (h_s : Kept z s) : Kept z (State.setFrame s fid f) := by
  obtain ⟨h1, h2, h3⟩ := h_s
  refine ⟨h1, h2, fun c => ?_⟩
  have h4 := h3 c
  simp only [State.canon, State.regsWf, State.setFrame, Bool.and_eq_true] at h4 ⊢
  simp only [h4, SMap.wf_set, and_self]

theorem State.store_kept {z : State} (s : State) (f : Frame) (h_s : Kept z s) : Kept z (State.store s f).2 := by
  unfold State.store
  repeat' (first
    | with_reducible assumption
    | (intro x; subst x)
    | lift_lets -underBinder
    | with_reducible apply State.setFrame_kept
    | fail_if_no_progress (with_reducible refine Kept.upd ?_ rfl rfl rfl rfl rfl rfl rfl rfl rfl rfl rfl rfl rfl rfl rfl rfl rfl rfl rfl rfl rfl rfl rfl rfl rfl))

theorem State.setTq_kept {z : State} (s : State) (n q : Nat) (l : List TxEnt) (h_s : Kept z s) : Kept z (State.setTq s n q l) := by
  obtain ⟨h1, h2, h3⟩ := h_s
  refine ⟨h1, h2, fun c => ?_⟩
  have h4 := h3 c
  simp only [State.canon, State.regsWf, State.setTq, Bool.and_eq_true] at h4 ⊢
  simp only [h4, SMap.wf_set, and_self]

theorem State.setEq_kept {z : State} (s : State) (l q : Nat) (xs : List Nat) (h_s : Kept z s) : Kept z (State.setEq s l q xs) := by
  obtain ⟨h1, h2, h3⟩ := h_s
  refine ⟨h1, h2, fun c => ?_⟩
  have h4 := h3 c
  simp only [State.canon, State.regsWf, State.setEq, Bool.and_eq_true] at h4 ⊢
  simp only [h4, SMap.wf_set, and_self]

theorem State.setFrxQ_kept {z : State} (s : State) (r : Nat) (xs : List Nat) (h_s : Kept z s) : Kept z (State.setFrxQ s r xs) := by
  obtain ⟨h1, h2, h3⟩ := h_s
  refine ⟨h1, h2, fun c => ?_⟩
  have h4 := h3 c
  simp only [State.canon, State.regsWf, State.setFrxQ, Bool.and_eq_true] at h4 ⊢
  simp only [h4, SMap.wf_set, and_self]

theorem State.setMac_kept {z : State} (s : State) (n : Nat) (m : MacSt) (h_s : Kept z s) : Kept z (State.setMac s n m) := by
  obtain ⟨h1, h2, h3⟩ := h_s
  refine ⟨h1, h2, fun c => ?_⟩
  have h4 := h3 c
  simp only [State.canon, State.regsWf, State.setMac, Bool.and_eq_true] at h4 ⊢
  simp only [h4, SMap.wf_set, and_self]

theorem State.setGate_kept {z : State} (s : State) (n : Nat) (g : GateSt) (h_s : Kept z s) : Kept z (State.setGate s n g) := by
  obtain ⟨h1, h2, h3⟩ := h_s
  refine ⟨h1, h2, fun c => ?_⟩
  have h4 := h3 c
  simp only [State.canon, State.regsWf, State.setGate, Bool.and_eq_true] at h4 ⊢
  simp only [h4, SMap.wf_set, and_self]

theorem State.setSlot_kept {z : State} (s : State) (l : Nat) (x : SlotSt) (h_s : Kept z s) : Kept z (State.setSlot s l x) := by
  obtain ⟨h1, h2, h3⟩ := h_s
  refine ⟨h1, h2, fun c => ?_⟩
  have h4 := h3 c
  simp only [State.canon, State.regsWf, State.setSlot, Bool.and_eq_true] at h4 ⊢
  simp only [h4, SMap.wf_set, and_self]

theorem State.collect_kept {z : State} (s : State) (fid : Nat) (h_s : Kept z s) : Kept z (State.collect s fid) := by
  unfold State.collect
  repeat' (first
    | with_reducible assumption
    | (intro x; refine Kept.cut (a := x) ?_ (fun _ => ?_) <;> [subst x; clear_value x])
    | with_reducible apply Kept.ite
    | lift_lets -underBinder
    | with_reducible apply State.setFrame_kept
    | with_reducible apply State.ringComplete_kept
    | split)

theorem State.noteSlot_kept {z : State} (s : State) (l : Nat) (drop : Bool) (h_s : Kept z s) : Kept z (State.noteSlot s l drop) := by
  unfold State.noteSlot
  repeat' (first
    | with_reducible assumption
    | with_reducible apply Kept.ite
    | lift_lets -underBinder
    | with_reducible apply State.setSlot_kept)

theorem State.bump32_kept {z : State} (s : State) (off n : Nat) (h_s : Kept z s) : Kept z (State.bump32 s off n) := by
  unfold State.bump32
  repeat' (first
    | with_reducible assumption
    | with_reducible apply State.bump_kept)

theorem State.ringDrop_kept {z : State} (s : State) (r : Nat) (h_s : Kept z s) : Kept z (State.ringDrop s r) := by
  unfold State.ringDrop
  repeat' (first
    | with_reducible assumption
    | (intro x; subst x)
    | lift_lets -underBinder
    | with_reducible apply State.setRing_kept)

theorem State.enqueuePort_kept {z : State} (s : State) (fid n q : Nat) (h_s : Kept z s) : Kept z (State.enqueuePort s fid n q) := by
  unfold State.enqueuePort
  repeat' (first
    | with_reducible assumption
    | with_reducible apply Kept.ite
    | lift_lets -underBinder
    | with_reducible apply State.setTq_kept
    | with_reducible apply State.bump32_kept
    | split)

theorem State.enqueueSlot_kept {z : State} (s : State) (fid l q : Nat) (h_s : Kept z s) : Kept z (State.enqueueSlot s fid l q) := by
  unfold State.enqueueSlot
  repeat' (first
    | with_reducible assumption
    | with_reducible apply Kept.ite
    | lift_lets -underBinder
    | with_reducible apply State.setEq_kept
    | with_reducible apply State.noteSlot_kept
    | with_reducible apply State.bump32_kept)

theorem State.enqueueRing_kept {z : State} (s : State) (fid r : Nat) (h_s : Kept z s) : Kept z (State.enqueueRing s fid r) := by
  unfold State.enqueueRing
  repeat' (first
    | with_reducible assumption
    | with_reducible apply Kept.ite
    | lift_lets -underBinder
    | with_reducible apply State.setFrxQ_kept
    | with_reducible apply State.ringDrop_kept)

theorem State.deliver_kept {z : State} (s : State) (fid : Nat) (d : Dest) (h_s : Kept z s) : Kept z (State.deliver s fid d) := by
  unfold State.deliver
  repeat' (first
    | with_reducible assumption
    | (intro x; refine Kept.cut (a := x) ?_ (fun _ => ?_) <;> [subst x; clear_value x])
    | lift_lets -underBinder
    | with_reducible apply State.enqueuePort_kept
    | with_reducible apply State.enqueueSlot_kept
    | with_reducible apply State.enqueueRing_kept
    | with_reducible apply State.collect_kept
    | with_reducible refine Kept.foldl ?_ (fun t x ht => ?_)
    | split)

theorem State.setFct_kept {z : State} (s : State) (i : Nat) (e : BitVec 256) (h_s : Kept z s) : Kept z (State.setFct s i e) := by
  obtain ⟨h1, h2, h3⟩ := h_s
  refine ⟨h1, h2, fun c => ?_⟩
  have h4 := h3 c
  simp only [State.canon, State.regsWf, State.setFct, Bool.and_eq_true] at h4 ⊢
  simp only [h4, SMap.wf_set, and_self]

theorem State.setTern_kept {z : State} (s : State) (i : Nat) (e : BitVec 256 × BitVec 128) (h_s : Kept z s) : Kept z (State.setTern s i e) := by
  obtain ⟨h1, h2, h3⟩ := h_s
  refine ⟨h1, h2, fun c => ?_⟩
  have h4 := h3 c
  simp only [State.canon, State.regsWf, State.setTern, Bool.and_eq_true] at h4 ⊢
  simp only [h4, SMap.wf_set, and_self]

theorem State.setShadow_kept {z : State} (s : State) (i : Nat) (e : BitVec 256) (h_s : Kept z s) : Kept z (State.setShadow s i e) := by
  obtain ⟨h1, h2, h3⟩ := h_s
  refine ⟨h1, h2, fun c => ?_⟩
  have h4 := h3 c
  simp only [State.canon, State.regsWf, State.setShadow, Bool.and_eq_true] at h4 ⊢
  simp only [h4, SMap.wf_set, and_self]

theorem State.fctEcc_kept {z : State} (s : State) (i : Nat) (ecc : Ecc) (h_s : Kept z s) : Kept z (State.fctEcc s i ecc) := by
  unfold State.fctEcc
  repeat' (first
    | with_reducible assumption
    | lift_lets -underBinder
    | with_reducible apply State.raise_kept
    | with_reducible apply State.setFct_kept
    | with_reducible apply State.unitFailed_kept
    | split)

theorem State.fctRewrite_kept {z : State} (s : State) (i : Nat) (ecc : Ecc) (h_s : Kept z s) : Kept z (State.fctRewrite s i ecc) := by
  unfold State.fctRewrite
  repeat' (first
    | with_reducible assumption
    | with_reducible apply Kept.ite
    | lift_lets -underBinder
    | with_reducible apply State.setFct_kept)

theorem State.queueLearn_kept {z : State} (s : State) (a : Learn) (h_s : Kept z s) : Kept z (State.queueLearn s a) := by
  unfold State.queueLearn
  repeat' (first
    | with_reducible assumption
    | (intro x; subst x)
    | with_reducible apply Kept.ite
    | lift_lets -underBinder
    | with_reducible apply State.bump_kept
    | with_reducible apply State.raise_kept
    | fail_if_no_progress (with_reducible refine Kept.upd ?_ rfl rfl rfl rfl rfl rfl rfl rfl rfl rfl rfl rfl rfl rfl rfl rfl rfl rfl rfl rfl rfl rfl rfl rfl rfl))

theorem State.learnKey_kept {z : State} (s : State) (k : Key) (a : Learn) (h_s : Kept z s) : Kept z (State.learnKey s k a) := by
  unfold State.learnKey
  repeat' (first
    | with_reducible assumption
    | with_reducible apply Kept.ite
    | lift_lets -underBinder
    | with_reducible apply State.setFct_kept
    | with_reducible apply State.queueLearn_kept
    | split)

theorem State.learn_kept {z : State} (s : State) (vid addr port : Nat) (h_s : Kept z s) : Kept z (State.learn s vid addr port) := by
  unfold State.learn
  repeat' (first
    | with_reducible assumption
    | with_reducible apply State.learnKey_kept)

theorem State.applyLearn_kept {z : State} (s : State) (a : Learn) (h_s : Kept z s) : Kept z (State.applyLearn s a) := by
  unfold State.applyLearn
  repeat' (first
    | with_reducible assumption
    | (intro x; subst x)
    | with_reducible apply Kept.ite
    | lift_lets -underBinder
    | with_reducible apply State.event_kept
    | with_reducible apply State.setFct_kept
    | with_reducible apply State.bump_kept
    | split)

theorem State.relocate_kept {z : State} (s : State) (xs : List Nat) (h_s : Kept z s) : Kept z (s.relocate xs) := by
  induction xs generalizing s with
  | nil => exact h_s
  | cons j es ih =>
    cases es with
    | nil => exact h_s
    | cons i rest =>
      unfold State.relocate
      apply ih
      repeat' (first | with_reducible assumption | with_reducible apply State.setShadow_kept | with_reducible apply State.setFct_kept)

theorem State.place_kept {z : State} (s : State) (e : BitVec 256) (h_s : Kept z s) : Kept z (State.place s e).2 := by
  unfold State.place
  repeat' (first
    | with_reducible assumption
    | (intro x; subst x)
    | lift_lets -underBinder
    | with_reducible apply State.setFct_kept
    | with_reducible apply State.setShadow_kept
    | with_reducible apply State.relocate_kept
    | split)

theorem State.startFence_kept {z : State} (s : State) (cmd : Option Nat) (h_s : Kept z s) : Kept z (State.startFence s cmd).2 := by
  unfold State.startFence
  repeat' (first
    | with_reducible assumption
    | (intro x; subst x)
    | with_reducible apply Kept.ite2
    | lift_lets -underBinder
    | with_reducible apply State.wr_kept
    | fail_if_no_progress (with_reducible refine Kept.upd ?_ rfl rfl rfl rfl rfl rfl rfl rfl rfl rfl rfl rfl rfl rfl rfl rfl rfl rfl rfl rfl rfl rfl rfl rfl rfl))

theorem State.endFence_kept {z : State} (s : State) (result : Nat) (h_s : Kept z s) : Kept z (State.endFence s result) := by
  unfold State.endFence
  repeat' (first
    | with_reducible assumption
    | (intro x; refine Kept.cut (a := x) ?_ (fun _ => ?_) <;> [subst x; clear_value x])
    | lift_lets -underBinder
    | with_reducible apply State.wr_kept
    | with_reducible apply State.finish_kept
    | fail_if_no_progress (with_reducible refine Kept.upd ?_ rfl rfl rfl rfl rfl rfl rfl rfl rfl rfl rfl rfl rfl rfl rfl rfl rfl rfl rfl rfl rfl rfl rfl rfl rfl)
    | split)

theorem State.dropPort_kept {z : State} (s : State) (n : Nat) (h_s : Kept z s) : Kept z (State.dropPort s n).2 := by
  unfold State.dropPort
  repeat' (first
    | with_reducible assumption
    | (intro x; refine Kept.cut (a := x) ?_ (fun _ => ?_) <;> [subst x; clear_value x])
    | (intro x; subst x)
    | lift_lets -underBinder
    | with_reducible apply State.setTq_kept
    | with_reducible apply State.collect_kept
    | with_reducible apply State.bump32_kept
    | with_reducible refine Kept.foldl ?_ (fun t x ht => ?_))

theorem State.dropSlot_kept {z : State} (s : State) (l : Nat) (h_s : Kept z s) : Kept z (State.dropSlot s l) := by
  unfold State.dropSlot
  repeat' (first
    | with_reducible assumption
    | (intro x; refine Kept.cut (a := x) ?_ (fun _ => ?_) <;> [subst x; clear_value x])
    | (intro x; subst x)
    | lift_lets -underBinder
    | with_reducible apply State.setEq_kept
    | with_reducible apply State.collect_kept
    | with_reducible apply State.bump32_kept
    | with_reducible refine Kept.foldl ?_ (fun t x ht => ?_))

theorem State.dropRing_kept {z : State} (s : State) (r : Nat) (h_s : Kept z s) : Kept z (State.dropRing s r) := by
  unfold State.dropRing
  repeat' (first
    | with_reducible assumption
    | (intro x; subst x)
    | lift_lets -underBinder
    | with_reducible apply State.ringDrop_kept
    | with_reducible apply State.collect_kept
    | with_reducible apply State.setFrxQ_kept
    | with_reducible refine Kept.foldl ?_ (fun t x ht => ?_))

theorem State.drained_kept {z : State} (s : State) (n dropped : Nat) (h_s : Kept z s) : Kept z (State.drained s n dropped) := by
  unfold State.drained
  repeat' (first
    | with_reducible assumption
    | lift_lets -underBinder
    | with_reducible apply State.wr_kept
    | with_reducible apply State.event_kept)

theorem State.gateNow_kept {z : State} (s : State) (n : Nat) (h_s : Kept z s) : Kept z (State.gateNow s n) := by
  unfold State.gateNow
  repeat' (first
    | with_reducible assumption
    | (intro x; subst x)
    | with_reducible apply Kept.ite
    | lift_lets -underBinder
    | with_reducible apply State.setGate_kept)

end Sys2Proof.Machine
end

