-- ==== Sys2Proof/Laws/KeptTimeOps.lean ====
section
/-! SUPPORT. What the operations of Machine/TimeOps.lean keep. -/

namespace Sys2Proof.Machine

theorem State.rateWritten_kept {z : State} (s : State) (master : Nat) (h_s : Kept z s) : Kept z (State.rateWritten s master) := by
  unfold State.rateWritten
  repeat' (first
    | with_reducible assumption
    | with_reducible apply Kept.ite
    | lift_lets -underBinder
    | with_reducible apply State.wr_kept
    | with_reducible apply State.raise_kept)

theorem State.slewShow_kept {z : State} (s : State) (h_s : Kept z s) : Kept z (State.slewShow s) := by
  unfold State.slewShow
  repeat' (first
    | with_reducible assumption
    | lift_lets -underBinder
    | with_reducible apply State.wr_kept
    | with_reducible apply State.setReg_kept)

theorem State.tbValid_kept {z : State} (s : State) (h_s : Kept z s) : Kept z (State.tbValid s) := by
  unfold State.tbValid
  repeat' (first
    | with_reducible assumption
    | with_reducible apply State.wr_kept)

theorem State.setTio_kept {z : State} (s : State) (n : Nat) (x : TioSt) (h_s : Kept z s) : Kept z (State.setTio s n x) := by
  obtain ⟨h1, h2, h3⟩ := h_s
  refine ⟨h1, h2, fun c => ?_⟩
  have h4 := h3 c
  simp only [State.canon, State.regsWf, State.setTio, Bool.and_eq_true] at h4 ⊢
  simp only [h4, SMap.wf_set, and_self]

theorem State.drive_kept {z : State} (s : State) (n : Nat) (level : Bool) (h_s : Kept z s) : Kept z (State.drive s n level) := by
  unfold State.drive
  repeat' (first
    | with_reducible assumption
    | (intro x; subst x)
    | lift_lets -underBinder
    | with_reducible apply State.setTio_kept
    | with_reducible apply State.emit_kept)

theorem State.tioLate_kept {z : State} (s : State) (n : Nat) (h_s : Kept z s) : Kept z (State.tioLate s n) := by
  unfold State.tioLate
  repeat' (first
    | with_reducible assumption
    | lift_lets -underBinder
    | with_reducible apply State.wr_kept
    | with_reducible apply State.event_kept
    | with_reducible apply State.raise_kept)

theorem State.singleEdge_kept {z : State} (s : State) (n : Nat) (h_s : Kept z s) : Kept z (State.singleEdge s n) := by
  unfold State.singleEdge
  repeat' (first
    | with_reducible assumption
    | (intro x; subst x)
    | lift_lets -underBinder
    | with_reducible apply State.setTio_kept
    | with_reducible apply State.drive_kept)

theorem State.tioStepped_kept {z : State} (s : State) (n : Nat) (h_s : Kept z s) : Kept z (State.tioStepped s n) := by
  unfold State.tioStepped
  repeat' (first
    | with_reducible assumption
    | (intro x; subst x)
    | with_reducible apply Kept.ite
    | lift_lets -underBinder
    | with_reducible apply State.singleEdge_kept
    | with_reducible apply State.tioLate_kept
    | with_reducible apply State.setTio_kept)

theorem State.afterStep_kept {z : State} (s : State) (before : Nat) (h_s : Kept z s) : Kept z (State.afterStep s before) := by
  unfold State.afterStep
  repeat' (first
    | with_reducible assumption
    | with_reducible apply Kept.ite
    | lift_lets -underBinder
    | with_reducible apply State.gateNow_kept
    | with_reducible apply State.tioStepped_kept
    | with_reducible apply State.later_kept
    | with_reducible refine Kept.foldl ?_ (fun t x ht => ?_)
    | fail_if_no_progress (with_reducible refine Kept.upd ?_ rfl rfl rfl rfl rfl rfl rfl rfl rfl rfl rfl rfl rfl rfl rfl rfl rfl rfl rfl rfl rfl rfl rfl rfl rfl))

theorem State.stepBy_kept {z : State} (s : State) (d : Int) (scaled : Int) (src : Nat) (h_s : Kept z s) : Kept z (State.stepBy s d scaled src) := by
  unfold State.stepBy
  repeat' (first
    | with_reducible assumption
    | (intro x; refine Kept.cut (a := x) ?_ (fun _ => ?_) <;> [subst x; clear_value x])
    | (intro x; subst x)
    | lift_lets -underBinder
    | with_reducible apply State.slewShow_kept
    | with_reducible apply State.bump_kept
    | with_reducible apply State.tbValid_kept
    | with_reducible apply State.wr_kept
    | with_reducible apply State.event_kept
    | with_reducible apply State.afterStep_kept
    | fail_if_no_progress (with_reducible refine Kept.upd ?_ rfl rfl rfl rfl rfl rfl rfl rfl rfl rfl rfl rfl rfl rfl rfl rfl rfl rfl rfl rfl rfl rfl rfl rfl rfl))

theorem State.stepTime_kept {z : State} (s : State) (scaled : Int) (src : Nat) (h_s : Kept z s) : Kept z (State.stepTime s scaled src) := by
  unfold State.stepTime
  repeat' (first
    | with_reducible assumption
    | with_reducible apply State.stepBy_kept)

theorem State.setTime_kept {z : State} (s : State) (sec ns src : Nat) (h_s : Kept z s) : Kept z (State.setTime s sec ns src) := by
  unfold State.setTime
  repeat' (first
    | with_reducible assumption
    | (intro x; subst x)
    | lift_lets -underBinder
    | with_reducible apply State.stepBy_kept)

theorem State.startSlew_kept {z : State} (s : State) (ns : Int) (master : Nat) (h_s : Kept z s) : Kept z (State.startSlew s ns master) := by
  unfold State.startSlew
  repeat' (first
    | with_reducible assumption
    | (intro x; subst x)
    | lift_lets -underBinder
    | with_reducible apply State.slewShow_kept
    | with_reducible apply State.tbValid_kept
    | with_reducible apply State.rateWritten_kept
    | fail_if_no_progress (with_reducible refine Kept.upd ?_ rfl rfl rfl rfl rfl rfl rfl rfl rfl rfl rfl rfl rfl rfl rfl rfl rfl rfl rfl rfl rfl rfl rfl rfl rfl))

theorem State.setFreq_kept {z : State} (s : State) (w : Word) (master : Nat) (h_s : Kept z s) : Kept z (State.setFreq s w master) := by
  unfold State.setFreq
  repeat' (first
    | with_reducible assumption
    | lift_lets -underBinder
    | with_reducible apply State.setReg_kept
    | with_reducible apply State.tbValid_kept
    | with_reducible apply State.rateWritten_kept)

theorem State.slewDone_kept {z : State} (s : State) (h_s : Kept z s) : Kept z (State.slewDone s) := by
  unfold State.slewDone
  repeat' (first
    | with_reducible assumption
    | (intro x; refine Kept.cut (a := x) ?_ (fun _ => ?_) <;> [subst x; clear_value x])
    | (intro x; subst x)
    | lift_lets -underBinder
    | with_reducible apply State.slewShow_kept
    | with_reducible apply State.wr_kept
    | fail_if_no_progress (with_reducible refine Kept.upd ?_ rfl rfl rfl rfl rfl rfl rfl rfl rfl rfl rfl rfl rfl rfl rfl rfl rfl rfl rfl rfl rfl rfl rfl rfl rfl))

theorem State.steerRej_kept {z : State} (s : State) (w : Steerer) (h_s : Kept z s) : Kept z (State.steerRej s w) := by
  unfold State.steerRej
  repeat' (first
    | with_reducible assumption
    | lift_lets -underBinder
    | with_reducible apply State.bump_kept
    | with_reducible apply State.raiseFor_kept)

theorem State.steer_kept {z : State} (s : State) (w : Steerer) (apply : State → State) (h_s : Kept z s) (h_apply : ∀ t, Kept z t → Kept z (apply t)) : Kept z (State.steer s w apply) := by
  unfold State.steer
  repeat' (first
    | with_reducible assumption
    | with_reducible apply Kept.ite
    | lift_lets -underBinder
    | with_reducible apply State.steerRej_kept
    | apply h_apply)

theorem State.takeMsg_kept {z : State} (s : State) (k : Nat) (h_s : Kept z s) : Kept z (State.takeMsg s k).2.2 := by
  unfold State.takeMsg
  repeat' (first
    | with_reducible assumption
    | (intro x; subst x)
    | lift_lets -underBinder
    | with_reducible apply State.setInbox_kept
    | with_reducible apply State.clearDb_kept)

theorem State.takeSteer_kept {z : State} (s : State) (k : Nat) (apply : State → List Word → State) (h_s : Kept z s) (h_apply : ∀ x0 x1, Kept z x0 → Kept z (apply x0 x1)) : Kept z (State.takeSteer s k apply) := by
  unfold State.takeSteer
  repeat' (first
    | with_reducible assumption
    | with_reducible apply Kept.ite
    | lift_lets -underBinder
    | with_reducible apply State.takeMsg_kept
    | with_reducible apply State.ringDb_kept
    | with_reducible apply State.steerRej_kept
    | apply h_apply)

end Sys2Proof.Machine
end

