-- ==== Sys2Proof/Laws/KeptCvnRegs.lean ====
section
/-! SUPPORT. What the operations of Machine/CvnRegs.lean keep. -/

namespace Sys2Proof.Machine

theorem State.setChan_kept {z : State} (s : State) (c : Nat) (x : CvnChan) (h_s : Kept z s) : Kept z (State.setChan s c x) := by
  obtain ⟨h1, h2, h3⟩ := h_s
  refine ⟨h1, h2, fun c => ?_⟩
  have h4 := h3 c
  simp only [State.canon, State.regsWf, State.setChan, Bool.and_eq_true] at h4 ⊢
  simp only [h4, SMap.wf_set, and_self]

theorem State.onChan_kept {z : State} (s : State) (c : Nat) (f : CvnChan → CvnChan) (h_s : Kept z s) : Kept z (State.onChan s c f) := by
  unfold State.onChan
  repeat' (first
    | with_reducible assumption
    | with_reducible apply State.setChan_kept)

end Sys2Proof.Machine
end

