-- ==== Sys2Proof/Laws/KeptMacOps.lean ====
section
/-! SUPPORT. What the operations of Machine/MacOps.lean keep. -/

set_option linter.unusedSimpArgs false

namespace Sys2Proof.Machine

theorem State.macCount_kept {z : State} (s : State) (n i k : Nat) (h_s : Kept z s) : Kept z (State.macCount s n i k) := by
  unfold State.macCount
  repeat' (first
    | with_reducible assumption
    | with_reducible apply Kept.ite
    | lift_lets -underBinder
    | with_reducible apply State.setReg64_kept
    | with_reducible apply State.setReg_kept
    | with_reducible apply State.event_kept)

theorem State.macErr_kept {z : State} (s : State) (n j : Nat) (h_s : Kept z s) : Kept z (State.macErr s n j) := by
  unfold State.macErr
  repeat' (first
    | with_reducible assumption
    | with_reducible apply State.bump32_kept)

theorem State.countFrame_kept {z : State} (s : State) (n base : Nat) (bs : List Byte) (h_s : Kept z s) : Kept z (State.countFrame s n base bs) := by
  unfold State.countFrame
  repeat' (first
    | with_reducible assumption
    | with_reducible apply Kept.ite
    | lift_lets -underBinder
    | with_reducible apply State.macCount_kept)

theorem State.tryMode_kept {z : State} (s : State) (n m : Nat) (h_s : Kept z s) : Kept z (State.tryMode s n m) := by
  unfold State.tryMode
  repeat' (first
    | with_reducible assumption
    | (intro x; subst x)
    | lift_lets -underBinder
    | with_reducible apply State.setMac_kept
    | with_reducible apply State.wr_kept)

theorem State.noLink_kept {z : State} (s : State) (n result : Nat) (h_s : Kept z s) : Kept z (State.noLink s n result) := by
  unfold State.noLink
  repeat' (first
    | with_reducible assumption
    | lift_lets -underBinder
    | with_reducible apply State.wr_kept)

theorem State.startSearch_kept {z : State} (s : State) (n : Nat) (h_s : Kept z s) : Kept z (State.startSearch s n) := by
  unfold State.startSearch
  repeat' (first
    | with_reducible assumption
    | with_reducible apply Kept.ite
    | lift_lets -underBinder
    | with_reducible apply State.noLink_kept
    | with_reducible apply State.tryMode_kept)

theorem State.linkEvent_kept {z : State} (s : State) (n : Nat) (up : Bool) (h_s : Kept z s) : Kept z (State.linkEvent s n up) := by
  unfold State.linkEvent
  repeat' (first
    | with_reducible assumption
    | with_reducible apply State.event_kept)

theorem State.endSending_kept {z : State} (s : State) (n : Nat) (stomp : Bool) (h_s : Kept z s) : Kept z (State.endSending s n stomp) := by
  unfold State.endSending
  repeat' (first
    | with_reducible assumption
    | (intro x; subst x)
    | with_reducible apply Kept.ite
    | lift_lets -underBinder
    | with_reducible apply State.setMac_kept
    | with_reducible apply State.collect_kept
    | with_reducible apply State.emit_kept
    | with_reducible apply State.macErr_kept
    | split)

theorem State.linkLost_kept {z : State} (s : State) (n : Nat) (h_s : Kept z s) : Kept z (State.linkLost s n) := by
  unfold State.linkLost
  repeat' (first
    | with_reducible assumption
    | (intro x; subst x)
    | with_reducible apply Kept.ite
    | lift_lets -underBinder
    | with_reducible apply State.linkEvent_kept
    | with_reducible apply State.endSending_kept
    | with_reducible apply State.wr_kept
    | with_reducible apply State.dropPort_kept
    | with_reducible apply State.setMac_kept
    | with_reducible apply State.drained_kept)

theorem State.portReset_kept {z : State} (s : State) (n : Nat) (h_s : Kept z s) : Kept z (State.portReset s n) := by
  unfold State.portReset
  repeat' (first
    | with_reducible assumption
    | (intro x; refine Kept.cut (a := x) ?_ (fun _ => ?_) <;> [subst x; clear_value x])
    | lift_lets -underBinder
    | with_reducible apply State.endSending_kept
    | with_reducible apply State.setMac_kept
    | with_reducible apply State.wr_kept
    | with_reducible apply State.startSearch_kept)

theorem State.takePortDown_kept {z : State} (s : State) (n : Nat) (h_s : Kept z s) : Kept z (State.takePortDown s n) := by
  unfold State.takePortDown
  repeat' (first
    | with_reducible assumption
    | (intro x; refine Kept.cut (a := x) ?_ (fun _ => ?_) <;> [subst x; clear_value x])
    | lift_lets -underBinder
    | with_reducible apply State.linkLost_kept
    | with_reducible apply State.endSending_kept
    | with_reducible apply State.wr_kept
    | with_reducible apply State.noLink_kept)

theorem State.linkCame_kept {z : State} (s : State) (n m rate : Nat) (fec : Bool) (word : Nat) (h_s : Kept z s) : Kept z (State.linkCame s n m rate fec word) := by
  unfold State.linkCame
  repeat' (first
    | with_reducible assumption
    | (intro x; refine Kept.cut (a := x) ?_ (fun _ => ?_) <;> [subst x; clear_value x])
    | lift_lets -underBinder
    | with_reducible apply State.wr_kept
    | with_reducible apply State.tryMode_kept
    | with_reducible apply State.setMac_kept
    | with_reducible apply State.linkEvent_kept)

theorem State.duplicate_kept {z : State} (s : State) (n : Nat) (tpid : Nat) (bs : List Byte) (h_s : Kept z s) : Kept z (State.duplicate s n tpid bs).2 := by
  unfold State.duplicate
  repeat' (first
    | with_reducible assumption
    | (intro x; subst x)
    | with_reducible apply Kept.ite2
    | lift_lets -underBinder
    | with_reducible apply State.bump_kept
    | fail_if_no_progress (with_reducible refine Kept.upd ?_ rfl rfl rfl rfl rfl rfl rfl rfl rfl rfl rfl rfl rfl rfl rfl rfl rfl rfl rfl rfl rfl rfl rfl rfl rfl)
    | split)

theorem State.stompCopies_kept {z : State} (s : State) (n : Nat) (bs : List Byte) (d : Dest) (h_s : Kept z s) : Kept z (State.stompCopies s n bs d) := by
  unfold State.stompCopies
  repeat' (first
    | with_reducible assumption
    | with_reducible apply Kept.ite
    | lift_lets -underBinder
    | with_reducible apply State.emit_kept
    | with_reducible apply State.macErr_kept
    | with_reducible refine Kept.foldl ?_ (fun t x ht => ?_))

theorem State.classify_kept {z : State} (s : State) (n : Nat) (bs : List Byte) (vid pcp : Nat) (ecc : Option (Nat × Ecc)) (h_s : Kept z s) : Kept z (State.classify s n bs vid pcp ecc).2 := by
  unfold State.classify
  repeat' (first
    | with_reducible assumption
    | (intro x; refine Kept.cut (a := x) ?_ (fun _ => ?_) <;> [subst x; clear_value x])
    | (intro x; subst x)
    | lift_lets -underBinder
    | with_reducible apply State.fctEcc_kept
    | with_reducible apply State.fctRewrite_kept
    | split)

theorem State.admitRx_kept {z : State} (s : State) (n : Nat) (bs : List Byte) (err : Bool) (ecc : Option (Nat × Ecc)) (h_s : Kept z s) : Kept z (State.admitRx s n bs err ecc) := by
  unfold State.admitRx
  repeat' (first
    | with_reducible assumption
    | (intro x; subst x)
    | with_reducible apply Kept.ite
    | lift_lets -underBinder
    | with_reducible apply State.learn_kept
    | with_reducible apply State.classify_kept
    | with_reducible apply State.stompCopies_kept
    | with_reducible apply State.bump32_kept
    | with_reducible apply State.store_kept
    | with_reducible apply State.deliver_kept)

theorem State.rxFrame_kept {z : State} (s : State) (n : Nat) (bs : List Byte) (aborted code : Bool) (ecc : Option (Nat × Ecc)) (h_s : Kept z s) : Kept z (State.rxFrame s n bs aborted code ecc) := by
  unfold State.rxFrame
  repeat' (first
    | with_reducible assumption
    | (intro x; refine Kept.cut (a := x) ?_ (fun _ => ?_) <;> [subst x; clear_value x])
    | (intro x; subst x)
    | with_reducible apply Kept.ite
    | lift_lets -underBinder
    | with_reducible apply State.macErr_kept
    | with_reducible apply State.admitRx_kept
    | with_reducible apply State.stompCopies_kept
    | with_reducible apply State.countFrame_kept
    | with_reducible apply State.setMac_kept
    | with_reducible apply State.duplicate_kept
    | split)

theorem State.redNumber_kept {z : State} (s : State) (fid : Nat) (f : Frame) (pair : Nat) (h_s : Kept z s) : Kept z (State.redNumber s fid f pair).2 := by
  unfold State.redNumber
  repeat' (first
    | with_reducible assumption
    | (intro x; subst x)
    | with_reducible apply Kept.ite2
    | lift_lets -underBinder
    | with_reducible apply State.wr_kept
    | with_reducible apply State.setFrame_kept
    | split)

theorem State.redEdit_kept {z : State} (s : State) (n fid : Nat) (f : Frame) (tpid : Nat) (b : List Byte) (h_s : Kept z s) : Kept z (State.redEdit s n fid f tpid b).2 := by
  unfold State.redEdit
  repeat' (first
    | with_reducible assumption
    | (intro x; subst x)
    | with_reducible apply Kept.ite2
    | lift_lets -underBinder
    | with_reducible apply State.redNumber_kept
    | split)

theorem State.timeEdit_kept {z : State} (s : State) (n : Nat) (f : Frame) (tpid : Nat) (b : List Byte) (t : Nat × Nat × Nat) (h_s : Kept z s) : Kept z (State.timeEdit s n f tpid b t).2.2.2 := by
  unfold State.timeEdit
  repeat' (first
    | with_reducible assumption
    | (intro x; subst x)
    | lift_lets -underBinder
    | with_reducible apply State.bump_kept
    | with_reducible apply State.raise_kept
    | split)

theorem State.startFrame_kept {z : State} (s : State) (n q : Nat) (drift : Int) (h_s : Kept z s) : Kept z (State.startFrame s n q drift) := by
  unfold State.startFrame
  repeat' (first
    | with_reducible assumption
    | (intro x; refine Kept.cut (a := x) ?_ (fun _ => ?_) <;> [subst x; clear_value x])
    | (intro x; subst x)
    | with_reducible apply Kept.ite
    | lift_lets -underBinder
    | with_reducible apply State.setTq_kept
    | with_reducible apply State.redEdit_kept
    | with_reducible apply State.timeEdit_kept
    | with_reducible apply State.macErr_kept
    | with_reducible apply State.collect_kept
    | with_reducible apply State.setMac_kept
    | with_reducible apply State.raise_kept
    | split)

theorem State.pushTxts_kept {z : State} (s : State) (l : Nat) (x : TxTs) (h_s : Kept z s) : Kept z (State.pushTxts s l x) := by
  unfold State.pushTxts
  repeat' (first
    | with_reducible assumption
    | fail_if_no_progress (with_reducible refine Kept.gen ?_ rfl rfl (fun c => ?_) <;> [skip; (simp +zetaDelta only [State.canon, State.regsWf, Bool.and_eq_true] at c ⊢; simp +zetaDelta only [c, SMap.wf_set, SMap.wf_nil, SMap.wf_filter, SioSt.reset, SwcSt.reset, CvnSt.reset, PsqSt.reset, MbxSt.reset, and_self]; done)]))

theorem State.endFrame_kept {z : State} (s : State) (n : Nat) (bufUe : Bool) (h_s : Kept z s) : Kept z (State.endFrame s n bufUe) := by
  unfold State.endFrame
  repeat' (first
    | with_reducible assumption
    | (intro x; refine Kept.cut (a := x) ?_ (fun _ => ?_) <;> [subst x; clear_value x])
    | with_reducible apply Kept.ite
    | lift_lets -underBinder
    | with_reducible apply State.setFrame_kept
    | with_reducible apply State.endSending_kept
    | with_reducible apply State.raise_kept
    | with_reducible apply State.emit_kept
    | with_reducible apply State.countFrame_kept
    | with_reducible apply State.setMac_kept
    | with_reducible apply State.ringComplete_kept
    | with_reducible apply State.pushTxts_kept
    | with_reducible apply State.collect_kept
    | split)

end Sys2Proof.Machine
end

