-- ==== Sys2Proof/Laws/KeptMdbOps.lean ====
section
/-! SUPPORT. What the operations of Machine/MdbOps.lean keep. -/

namespace Sys2Proof.Machine

theorem State.setBus_kept {z : State} (s : State) (n : Nat) (b : BusSt) (h_s : Kept z s) : Kept z (State.setBus s n b) := by
  obtain ⟨h1, h2, h3⟩ := h_s
  refine ⟨h1, h2, fun c => ?_⟩
  have h4 := h3 c
  simp only [State.canon, State.regsWf, State.setBus, Bool.and_eq_true] at h4 ⊢
  simp only [h4, SMap.wf_set, and_self]

theorem State.busChanged_kept {z : State} (s : State) (n : Nat) (h_s : Kept z s) : Kept z (State.busChanged s n) := by
  unfold State.busChanged
  repeat' (first
    | with_reducible assumption
    | (intro x; subst x)
    | lift_lets -underBinder
    | with_reducible apply State.setBus_kept)

theorem State.mdbState_kept {z : State} (s : State) (n : Nat) (h_s : Kept z s) : Kept z (State.mdbState s n) := by
  unfold State.mdbState
  repeat' (first
    | with_reducible assumption
    | (intro x; subst x)
    | lift_lets -underBinder
    | with_reducible apply State.busChanged_kept
    | with_reducible apply State.event_kept)

theorem State.setErrs_kept {z : State} (s : State) (n tec rec : Nat) (h_s : Kept z s) : Kept z (State.setErrs s n tec rec) := by
  unfold State.setErrs
  repeat' (first
    | with_reducible assumption
    | with_reducible apply Kept.ite
    | lift_lets -underBinder
    | with_reducible apply State.wr_kept
    | with_reducible apply State.mdbState_kept
    | with_reducible apply State.raiseFor_kept)

theorem State.bufDone_kept {z : State} (s : State) (n i status time : Nat) (h_s : Kept z s) : Kept z (State.bufDone s n i status time) := by
  unfold State.bufDone
  repeat' (first
    | with_reducible assumption
    | (intro x; subst x)
    | with_reducible apply Kept.ite
    | lift_lets -underBinder
    | with_reducible apply State.finish_kept
    | with_reducible apply State.setBus_kept
    | with_reducible apply State.wr_kept
    | with_reducible refine Kept.foldl ?_ (fun t x ht => ?_))

theorem State.modeSettle_kept {z : State} (s : State) (n : Nat) (h_s : Kept z s) : Kept z (State.modeSettle s n) := by
  unfold State.modeSettle
  repeat' (first
    | with_reducible assumption
    | with_reducible apply Kept.ite
    | lift_lets -underBinder
    | with_reducible apply State.wr_kept)

theorem State.sendEnds_kept {z : State} (s : State) (n : Nat) (h_s : Kept z s) : Kept z (State.sendEnds s n) := by
  unfold State.sendEnds
  repeat' (first
    | with_reducible assumption
    | (intro x; refine Kept.cut (a := x) ?_ (fun _ => ?_) <;> [subst x; clear_value x])
    | (intro x; subst x)
    | with_reducible apply Kept.ite
    | lift_lets -underBinder
    | with_reducible apply State.setBus_kept
    | with_reducible apply State.bufDone_kept
    | with_reducible apply State.modeSettle_kept
    | split)

theorem State.sendBuf_kept {z : State} (s : State) (n i : Nat) (excl : Bool) (ecc : Ecc) (h_s : Kept z s) : Kept z (State.sendBuf s n i excl ecc) := by
  unfold State.sendBuf
  repeat' (first
    | with_reducible assumption
    | (intro x; refine Kept.cut (a := x) ?_ (fun _ => ?_) <;> [subst x; clear_value x])
    | (intro x; subst x)
    | lift_lets -underBinder
    | with_reducible apply State.setBus_kept
    | with_reducible apply State.raiseFor_kept
    | with_reducible apply State.bufDone_kept
    | split)

theorem State.txRequest_kept {z : State} (s : State) (n i : Nat) (h_s : Kept z s) : Kept z (State.txRequest s n i) := by
  unfold State.txRequest
  repeat' (first
    | with_reducible assumption
    | with_reducible apply Kept.ite
    | lift_lets -underBinder
    | with_reducible apply State.bufDone_kept
    | with_reducible apply State.setBus_kept)

theorem State.txAbort_kept {z : State} (s : State) (n i : Nat) (h_s : Kept z s) : Kept z (State.txAbort s n i) := by
  unfold State.txAbort
  repeat' (first
    | with_reducible assumption
    | with_reducible apply Kept.ite
    | lift_lets -underBinder
    | with_reducible apply State.setBus_kept
    | with_reducible apply State.bufDone_kept)

theorem State.storeRx_kept {z : State} (s : State) (n : Nat) (h : List Word) (data : List Byte) (h_s : Kept z s) : Kept z (State.storeRx s n h data) := by
  unfold State.storeRx
  repeat' (first
    | with_reducible assumption
    | with_reducible apply Kept.ite
    | lift_lets -underBinder
    | with_reducible apply State.setBus_kept
    | with_reducible apply State.bump_kept)

theorem State.detectGood_kept {z : State} (s : State) (n : Nat) (h_s : Kept z s) : Kept z (State.detectGood s n) := by
  unfold State.detectGood
  repeat' (first
    | with_reducible assumption
    | (intro x; refine Kept.cut (a := x) ?_ (fun _ => ?_) <;> [subst x; clear_value x])
    | (intro x; subst x)
    | with_reducible apply Kept.ite
    | lift_lets -underBinder
    | with_reducible apply State.setBus_kept
    | with_reducible apply State.setReg_kept
    | with_reducible apply State.wr_kept
    | with_reducible apply State.modeSettle_kept
    | with_reducible apply State.event_kept
    | split)

theorem State.detectBad_kept {z : State} (s : State) (n : Nat) (h_s : Kept z s) : Kept z (State.detectBad s n) := by
  unfold State.detectBad
  repeat' (first
    | with_reducible assumption
    | with_reducible apply Kept.ite
    | lift_lets -underBinder
    | with_reducible apply State.setBus_kept
    | with_reducible apply State.bump_kept)

theorem State.clashEvent_kept {z : State} (s : State) (n : Nat) (h0 : Word) (h_s : Kept z s) : Kept z (State.clashEvent s n h0) := by
  unfold State.clashEvent
  repeat' (first
    | with_reducible assumption
    | (intro x; refine Kept.cut (a := x) ?_ (fun _ => ?_) <;> [subst x; clear_value x])
    | (intro x; subst x)
    | with_reducible apply Kept.ite
    | lift_lets -underBinder
    | with_reducible apply State.setBus_kept
    | with_reducible apply State.setReg_kept
    | with_reducible apply State.bump_kept
    | with_reducible apply State.event_kept
    | with_reducible apply State.raiseFor_kept)

theorem State.ttStop_kept {z : State} (s : State) (n : Nat) (h_s : Kept z s) : Kept z (State.ttStop s n) := by
  unfold State.ttStop
  repeat' (first
    | with_reducible assumption
    | (intro x; subst x)
    | lift_lets -underBinder
    | with_reducible apply State.wr_kept
    | with_reducible apply State.setBus_kept)

theorem State.busCtrl_kept {z : State} (s : State) (n : Nat) (w : Word) (h_s : Kept z s) : Kept z (State.busCtrl s n w) := by
  unfold State.busCtrl
  repeat' (first
    | with_reducible assumption
    | (intro x; refine Kept.cut (a := x) ?_ (fun _ => ?_) <;> [subst x; clear_value x])
    | (intro x; subst x)
    | with_reducible apply Kept.ite
    | lift_lets -underBinder
    | with_reducible apply State.setReg_kept
    | with_reducible apply State.wr_kept
    | with_reducible apply State.ttStop_kept
    | with_reducible apply State.setBus_kept
    | with_reducible apply State.modeSettle_kept)

theorem State.ramCfg_kept {z : State} (s : State) (n : Nat) (w : Word) (master : Nat) (h_s : Kept z s) : Kept z (State.ramCfg s n w master) := by
  unfold State.ramCfg
  repeat' (first
    | with_reducible assumption
    | (intro x; subst x)
    | with_reducible apply Kept.ite
    | lift_lets -underBinder
    | with_reducible apply State.wr_kept
    | with_reducible apply State.setBus_kept
    | with_reducible apply State.raiseFor_kept)

theorem State.setCtrl_kept {z : State} (s : State) (n c : Nat) (h_s : Kept z s) : Kept z (State.setCtrl s n c) := by
  unfold State.setCtrl
  repeat' (first
    | with_reducible assumption
    | with_reducible apply State.setReg_kept)

theorem State.remapEvent_kept {z : State} (s : State) (n new old : Nat) (failed : Bool) (h_s : Kept z s) : Kept z (State.remapEvent s n new old failed) := by
  unfold State.remapEvent
  repeat' (first
    | with_reducible assumption
    | with_reducible apply State.event_kept)

theorem State.startRemap_kept {z : State} (s : State) (n to_ : Nat) (h_s : Kept z s) : Kept z (State.startRemap s n to_) := by
  unfold State.startRemap
  repeat' (first
    | with_reducible assumption
    | lift_lets -underBinder
    | with_reducible apply State.wr_kept)

theorem State.dropRemap_kept {z : State} (s : State) (h_s : Kept z s) : Kept z (State.dropRemap s) := by
  unfold State.dropRemap
  repeat' (first
    | with_reducible assumption
    | with_reducible apply Kept.ite
    | lift_lets -underBinder
    | with_reducible apply State.wr_kept)

theorem State.moveBus_kept {z : State} (s : State) (n c : Nat) (h_s : Kept z s) : Kept z (State.moveBus s n c) := by
  unfold State.moveBus
  repeat' (first
    | with_reducible assumption
    | (intro x; refine Kept.cut (a := x) ?_ (fun _ => ?_) <;> [subst x; clear_value x])
    | (intro x; subst x)
    | lift_lets -underBinder
    | with_reducible apply State.setCtrl_kept
    | with_reducible apply State.setBus_kept
    | with_reducible apply State.wr_kept
    | with_reducible apply State.setErrs_kept
    | with_reducible apply State.modeSettle_kept)

theorem State.shedBus_kept {z : State} (s : State) (n : Nat) (h_s : Kept z s) : Kept z (State.shedBus s n) := by
  unfold State.shedBus
  repeat' (first
    | with_reducible assumption
    | (intro x; subst x)
    | lift_lets -underBinder
    | with_reducible apply State.setCtrl_kept
    | with_reducible apply State.setBus_kept)

theorem State.winErr_kept {z : State} (s : State) (n l what : Nat) (h_s : Kept z s) : Kept z (State.winErr s n l what) := by
  unfold State.winErr
  repeat' (first
    | with_reducible assumption
    | with_reducible apply State.raiseFor_kept)

theorem State.rxPop_kept {z : State} (s : State) (n : Nat) (ecc : Ecc) (h_s : Kept z s) : Kept z (State.rxPop s n ecc).2 := by
  unfold State.rxPop
  repeat' (first
    | with_reducible assumption
    | (intro x; refine Kept.cut (a := x) ?_ (fun _ => ?_) <;> [subst x; clear_value x])
    | (intro x; subst x)
    | lift_lets -underBinder
    | with_reducible apply State.setBus_kept
    | with_reducible apply State.raiseFor_kept
    | split)

theorem State.txDonePop_kept {z : State} (s : State) (n : Nat) (h_s : Kept z s) : Kept z (State.txDonePop s n).2 := by
  unfold State.txDonePop
  repeat' (first
    | with_reducible assumption
    | (intro x; subst x)
    | lift_lets -underBinder
    | with_reducible apply State.setBus_kept
    | split)

theorem State.busRead_kept {z : State} (s : State) (n off : Nat) (ecc : Ecc) (h_s : Kept z s) : Kept z (State.busRead s n off ecc).2 := by
  unfold State.busRead
  repeat' (first
    | with_reducible assumption
    | with_reducible apply Kept.ite2
    | lift_lets -underBinder
    | with_reducible apply State.txDonePop_kept
    | with_reducible apply State.rxPop_kept
    | with_reducible apply State.setBus_kept)

theorem State.busWrite_kept {z : State} (s : State) (n l off : Nat) (v : Word) (h_s : Kept z s) : Kept z (State.busWrite s n l off v) := by
  unfold State.busWrite
  repeat' (first
    | with_reducible assumption
    | (intro x; subst x)
    | with_reducible apply Kept.ite
    | lift_lets -underBinder
    | with_reducible apply State.setBus_kept
    | with_reducible apply State.winErr_kept
    | with_reducible apply State.txAbort_kept
    | with_reducible apply State.txRequest_kept)

end Sys2Proof.Machine
end

