-- ==== Sys2Proof/Laws/KeptWakeOps.lean ====
section
/-! SUPPORT. What the operations of Machine/WakeOps.lean keep. -/

namespace Sys2Proof.Machine

theorem State.setSleep_kept {z : State} (s : State) (n st : Nat) (h_s : Kept z s) : Kept z (State.setSleep s n st) := by
  unfold State.setSleep
  repeat' (first
    | with_reducible assumption
    | lift_lets -underBinder
    | with_reducible apply State.wr_kept
    | with_reducible apply State.busChanged_kept)

theorem State.sleepEvent_kept {z : State} (s : State) (n what : Nat) (h_s : Kept z s) : Kept z (State.sleepEvent s n what) := by
  unfold State.sleepEvent
  repeat' (first
    | with_reducible assumption
    | with_reducible apply State.event_kept)

theorem State.wakeBus_kept {z : State} (s : State) (n src id : Nat) (ide : Bool) (h_s : Kept z s) : Kept z (State.wakeBus s n src id ide) := by
  unfold State.wakeBus
  repeat' (first
    | with_reducible assumption
    | (intro x; refine Kept.cut (a := x) ?_ (fun _ => ?_) <;> [subst x; clear_value x])
    | lift_lets -underBinder
    | with_reducible apply State.wr_kept
    | with_reducible apply State.setSleep_kept
    | with_reducible apply State.setBus_kept
    | with_reducible apply State.modeSettle_kept
    | with_reducible apply State.event_kept)

theorem State.afterSleep_kept {z : State} (s : State) (h_s : Kept z s) : Kept z (State.afterSleep s) := by
  unfold State.afterSleep
  repeat' (first
    | with_reducible assumption
    | with_reducible apply Kept.ite
    | lift_lets -underBinder
    | with_reducible apply State.later_kept)

theorem State.fallAsleep_kept {z : State} (s : State) (n st : Nat) (h_s : Kept z s) : Kept z (State.fallAsleep s n st) := by
  unfold State.fallAsleep
  repeat' (first
    | with_reducible assumption
    | (intro x; refine Kept.cut (a := x) ?_ (fun _ => ?_) <;> [subst x; clear_value x])
    | lift_lets -underBinder
    | with_reducible apply State.setSleep_kept
    | with_reducible apply State.setBus_kept
    | with_reducible apply State.modeSettle_kept
    | with_reducible apply State.sleepEvent_kept
    | with_reducible apply State.afterSleep_kept)

theorem State.sleepRequest_kept {z : State} (s : State) (n : Nat) (h_s : Kept z s) : Kept z (State.sleepRequest s n) := by
  unfold State.sleepRequest
  repeat' (first
    | with_reducible assumption
    | (intro x; refine Kept.cut (a := x) ?_ (fun _ => ?_) <;> [subst x; clear_value x])
    | with_reducible apply Kept.ite
    | lift_lets -underBinder
    | with_reducible apply State.raiseFor_kept
    | with_reducible apply State.wr_kept
    | with_reducible apply State.setSleep_kept
    | with_reducible apply State.setBus_kept)

theorem State.sleepCancel_kept {z : State} (s : State) (n : Nat) (h_s : Kept z s) : Kept z (State.sleepCancel s n) := by
  unfold State.sleepCancel
  repeat' (first
    | with_reducible assumption
    | with_reducible apply State.setSleep_kept
    | with_reducible apply State.wakeBus_kept
    | split)

theorem State.sleepCtrl_kept {z : State} (s : State) (n : Nat) (v : Word) (h_s : Kept z s) : Kept z (State.sleepCtrl s n v) := by
  unfold State.sleepCtrl
  repeat' (first
    | with_reducible assumption
    | with_reducible apply Kept.ite
    | lift_lets -underBinder
    | with_reducible apply State.sleepCancel_kept
    | with_reducible apply State.sleepRequest_kept)

theorem State.moduleWake_kept {z : State} (s : State) (src bus id : Nat) (ide : Bool) (h_s : Kept z s) : Kept z (State.moduleWake s src bus id ide) := by
  unfold State.moduleWake
  repeat' (first
    | with_reducible assumption
    | (intro x; subst x)
    | with_reducible apply Kept.ite
    | lift_lets -underBinder
    | with_reducible apply State.later_kept
    | fail_if_no_progress (with_reducible refine Kept.upd ?_ rfl rfl rfl rfl rfl rfl rfl rfl rfl rfl rfl rfl rfl rfl rfl rfl rfl rfl rfl rfl rfl rfl rfl rfl rfl))

theorem State.busWakeEvent_kept {z : State} (s : State) (n src id : Nat) (ide afterIdle : Bool) (h_s : Kept z s) : Kept z (State.busWakeEvent s n src id ide afterIdle) := by
  unfold State.busWakeEvent
  repeat' (first
    | with_reducible assumption
    | with_reducible apply Kept.ite
    | lift_lets -underBinder
    | with_reducible apply State.wr_kept
    | with_reducible apply State.raiseFor_kept
    | with_reducible apply State.moduleWake_kept
    | with_reducible apply State.setSleep_kept
    | with_reducible apply State.bump_kept
    | with_reducible apply State.sleepEvent_kept
    | with_reducible apply State.wakeBus_kept
    | split)

theorem State.wakeAllBuses_kept {z : State} (s : State) (h_s : Kept z s) : Kept z (State.wakeAllBuses s) := by
  unfold State.wakeAllBuses
  repeat' (first
    | with_reducible assumption
    | lift_lets -underBinder
    | with_reducible apply State.setSleep_kept
    | with_reducible apply State.wakeBus_kept
    | with_reducible refine Kept.foldl ?_ (fun t x ht => ?_)
    | split)

end Sys2Proof.Machine
end

