-- ==== Sys2Proof/Laws/KeptPsqOps.lean ====
section
/-! SUPPORT. What the operations of Machine/PsqOps.lean keep. -/

namespace Sys2Proof.Machine

theorem State.setSeq_kept {z : State} (s : State) (n : Nat) (x : SeqSt) (h_s : Kept z s) : Kept z (State.setSeq s n x) := by
  obtain ⟨h1, h2, h3⟩ := h_s
  refine ⟨h1, h2, fun c => ?_⟩
  have h4 := h3 c
  simp only [State.canon, State.regsWf, State.setSeq, Bool.and_eq_true] at h4 ⊢
  simp only [h4, SMap.wf_set, and_self]

theorem State.setSeqMap_kept {z : State} (s : State) (n m : Nat) (h_s : Kept z s) : Kept z (State.setSeqMap s n m) := by
  unfold State.setSeqMap
  repeat' (first
    | with_reducible assumption
    | with_reducible apply State.wr_kept)

theorem State.raisePsq_kept {z : State} (s : State) (src n pin slot : Nat) (h_s : Kept z s) : Kept z (State.raisePsq s src n pin slot) := by
  unfold State.raisePsq
  repeat' (first
    | with_reducible assumption
    | with_reducible apply State.raiseFor_kept)

theorem State.pioShow_kept {z : State} (s : State) (before : State) (h_s : Kept z s) (h_before : Kept z before) : Kept z (State.pioShow s before) := by
  unfold State.pioShow
  repeat' (first
    | with_reducible assumption
    | with_reducible apply Kept.ite
    | lift_lets -underBinder
    | with_reducible apply State.emit_kept
    | with_reducible refine Kept.foldl ?_ (fun t x ht => ?_))

theorem State.setPioLvl_kept {z : State} (s : State) (p : Nat) (b : Bool) (h_s : Kept z s) : Kept z (State.setPioLvl s p b) := by
  unfold State.setPioLvl
  repeat' (first
    | with_reducible assumption
    | (intro x; subst x)
    | lift_lets -underBinder
    | fail_if_no_progress (with_reducible refine Kept.upd ?_ rfl rfl rfl rfl rfl rfl rfl rfl rfl rfl rfl rfl rfl rfl rfl rfl rfl rfl rfl rfl rfl rfl rfl rfl rfl))

theorem State.setPioDir_kept {z : State} (s : State) (p : Nat) (b : Bool) (h_s : Kept z s) : Kept z (State.setPioDir s p b) := by
  unfold State.setPioDir
  repeat' (first
    | with_reducible assumption
    | (intro x; subst x)
    | lift_lets -underBinder
    | fail_if_no_progress (with_reducible refine Kept.upd ?_ rfl rfl rfl rfl rfl rfl rfl rfl rfl rfl rfl rfl rfl rfl rfl rfl rfl rfl rfl rfl rfl rfl rfl rfl rfl))

theorem State.driveAs_kept {z : State} (s : State) (n p : Nat) (f : State → Nat → State) (h_s : Kept z s) (h_f : ∀ x0 x1, Kept z x0 → Kept z (f x0 x1)) : Kept z (State.driveAs s n p f) := by
  unfold State.driveAs
  repeat' (first
    | with_reducible assumption
    | with_reducible apply Kept.ite
    | lift_lets -underBinder
    | apply h_f)

theorem State.pinsIdle_kept {z : State} (s : State) (n : Nat) (h_s : Kept z s) : Kept z (State.pinsIdle s n) := by
  unfold State.pinsIdle
  repeat' (first
    | with_reducible assumption
    | with_reducible refine fun t => ?_
    | lift_lets -underBinder
    | with_reducible apply State.driveAs_kept
    | with_reducible apply State.setPioDir_kept
    | with_reducible apply State.setPioLvl_kept
    | with_reducible refine Kept.foldl ?_ (fun t x ht => ?_)
    | split)

theorem State.psqStale_kept {z : State} (s : State) (n : Nat) (f : Fld) (h_s : Kept z s) : Kept z (State.psqStale s n f) := by
  unfold State.psqStale
  repeat' (first
    | with_reducible assumption
    | with_reducible apply Kept.ite
    | lift_lets -underBinder
    | with_reducible apply State.bump_kept
    | with_reducible apply State.raisePsq_kept)

theorem State.txfPush_kept {z : State} (s : State) (n slot : Nat) (v : Word) (h_s : Kept z s) : Kept z (State.txfPush s n slot v) := by
  unfold State.txfPush
  repeat' (first
    | with_reducible assumption
    | with_reducible apply Kept.ite
    | lift_lets -underBinder
    | with_reducible apply State.raisePsq_kept
    | with_reducible apply State.setSeq_kept)

theorem State.rxfPop_kept {z : State} (s : State) (n : Nat) (h_s : Kept z s) : Kept z (State.rxfPop s n).2.2 := by
  unfold State.rxfPop
  repeat' (first
    | with_reducible assumption
    | (intro x; subst x)
    | lift_lets -underBinder
    | with_reducible apply State.setSeq_kept
    | split)

theorem State.seqHalt_kept {z : State} (s : State) (n cause : Nat) (h_s : Kept z s) : Kept z (State.seqHalt s n cause) := by
  unfold State.seqHalt
  repeat' (first
    | with_reducible assumption
    | (intro x; refine Kept.cut (a := x) ?_ (fun _ => ?_) <;> [subst x; clear_value x])
    | with_reducible apply Kept.ite
    | lift_lets -underBinder
    | with_reducible apply State.setSeq_kept
    | with_reducible apply State.pinsIdle_kept
    | with_reducible apply State.pioShow_kept
    | with_reducible apply State.event_kept)

theorem State.seqRestart_kept {z : State} (s : State) (n cause : Nat) (h_s : Kept z s) : Kept z (State.seqRestart s n cause) := by
  unfold State.seqRestart
  repeat' (first
    | with_reducible assumption
    | (intro x; refine Kept.cut (a := x) ?_ (fun _ => ?_) <;> [subst x; clear_value x])
    | lift_lets -underBinder
    | with_reducible apply State.seqHalt_kept
    | with_reducible apply State.setSeq_kept)

theorem State.seqStart_kept {z : State} (s : State) (n : Nat) (sync : Bool) (h_s : Kept z s) : Kept z (State.seqStart s n sync) := by
  unfold State.seqStart
  repeat' (first
    | with_reducible assumption
    | with_reducible refine fun t => ?_
    | (intro x; refine Kept.cut (a := x) ?_ (fun _ => ?_) <;> [subst x; clear_value x])
    | (intro x; subst x)
    | with_reducible apply Kept.ite
    | lift_lets -underBinder
    | with_reducible apply State.setSeq_kept
    | with_reducible apply State.driveAs_kept
    | with_reducible apply State.setPioDir_kept
    | with_reducible apply State.setPioLvl_kept
    | with_reducible apply State.pioShow_kept
    | with_reducible apply State.raisePsq_kept
    | with_reducible refine Kept.foldl ?_ (fun t x ht => ?_)
    | split)

theorem State.seqMask_kept {z : State} (s : State) (mask : Nat) (f : State → Nat → State) (h_s : Kept z s) (h_f : ∀ x0 x1, Kept z x0 → Kept z (f x0 x1)) : Kept z (State.seqMask s mask f) := by
  unfold State.seqMask
  repeat' (first
    | with_reducible assumption
    | lift_lets -underBinder
    | with_reducible refine Kept.foldl ?_ (fun t x ht => ?_)
    | apply h_f)

theorem State.seqCtrl_kept {z : State} (s : State) (n cause : Nat) (v : Nat) (h_s : Kept z s) : Kept z (State.seqCtrl s n cause v) := by
  unfold State.seqCtrl
  repeat' (first
    | with_reducible assumption
    | with_reducible apply Kept.ite
    | lift_lets -underBinder
    | with_reducible apply State.seqRestart_kept
    | with_reducible apply State.seqHalt_kept
    | with_reducible apply State.seqStart_kept)

theorem State.timedStart_kept {z : State} (s : State) (late : Bool) (h_s : Kept z s) : Kept z (State.timedStart s late) := by
  unfold State.timedStart
  repeat' (first
    | with_reducible assumption
    | with_reducible refine fun t => ?_
    | (intro x; refine Kept.cut (a := x) ?_ (fun _ => ?_) <;> [subst x; clear_value x])
    | with_reducible apply Kept.ite
    | lift_lets -underBinder
    | with_reducible apply State.wr_kept
    | with_reducible apply State.seqMask_kept
    | with_reducible apply State.seqStart_kept)

theorem State.armStart_kept {z : State} (s : State) (time : Nat) (h_s : Kept z s) : Kept z (State.armStart s time) := by
  unfold State.armStart
  repeat' (first
    | with_reducible assumption
    | (intro x; subst x)
    | with_reducible apply Kept.ite
    | lift_lets -underBinder
    | with_reducible apply State.setReg64_kept
    | with_reducible apply State.wr_kept
    | with_reducible apply State.timedStart_kept
    | fail_if_no_progress (with_reducible refine Kept.upd ?_ rfl rfl rfl rfl rfl rfl rfl rfl rfl rfl rfl rfl rfl rfl rfl rfl rfl rfl rfl rfl rfl rfl rfl rfl rfl))

theorem State.seqData_kept {z : State} (s : State) (n dop : Nat) (h_s : Kept z s) : Kept z (State.seqData s n dop) := by
  unfold State.seqData
  repeat' (first
    | with_reducible assumption
    | (intro x; subst x)
    | lift_lets -underBinder
    | with_reducible apply State.setSeq_kept
    | with_reducible apply State.psqStale_kept
    | with_reducible apply State.event_kept
    | split)

theorem State.seqEmit_kept {z : State} (s : State) (n : Nat) (h_s : Kept z s) : Kept z (State.seqEmit s n) := by
  unfold State.seqEmit
  repeat' (first
    | with_reducible assumption
    | with_reducible refine fun t => ?_
    | (intro x; refine Kept.cut (a := x) ?_ (fun _ => ?_) <;> [subst x; clear_value x])
    | (intro x; subst x)
    | lift_lets -underBinder
    | with_reducible apply State.driveAs_kept
    | with_reducible apply State.setPioLvl_kept
    | with_reducible apply State.setSeq_kept
    | with_reducible refine Kept.foldl ?_ (fun t x ht => ?_))

theorem State.seqCapture_kept {z : State} (s : State) (n : Nat) (h_s : Kept z s) : Kept z (State.seqCapture s n) := by
  unfold State.seqCapture
  repeat' (first
    | with_reducible assumption
    | (intro x; subst x)
    | lift_lets -underBinder
    | with_reducible apply State.setSeq_kept)

theorem State.seqPins_kept {z : State} (s : State) (n pop arg : Nat) (h_s : Kept z s) : Kept z (State.seqPins s n pop arg) := by
  unfold State.seqPins
  repeat' (first
    | with_reducible assumption
    | with_reducible refine fun t => ?_
    | (intro x; subst x)
    | with_reducible apply Kept.ite
    | lift_lets -underBinder
    | with_reducible apply State.seqEmit_kept
    | with_reducible apply State.driveAs_kept
    | with_reducible apply State.setPioLvl_kept
    | with_reducible apply State.seqCapture_kept
    | with_reducible apply State.setPioDir_kept
    | with_reducible refine Kept.foldl ?_ (fun t x ht => ?_)
    | split)

theorem State.seqStore_kept {z : State} (s : State) (n dop : Nat) (h_s : Kept z s) : Kept z (State.seqStore s n dop) := by
  unfold State.seqStore
  repeat' (first
    | with_reducible assumption
    | with_reducible apply Kept.ite
    | lift_lets -underBinder
    | with_reducible apply State.setSeq_kept
    | with_reducible apply State.psqStale_kept)

theorem State.seqFlow_kept {z : State} (s : State) (n : Nat) (w : Word) (cond : Bool) (base : BitVec 7) (h_s : Kept z s) : Kept z (State.seqFlow s n w cond base).2 := by
  unfold State.seqFlow
  repeat' (first
    | with_reducible assumption
    | (intro x; subst x)
    | with_reducible apply Kept.ite2
    | lift_lets -underBinder
    | with_reducible apply State.setSeq_kept
    | split)

theorem State.seqAct_kept {z : State} (s : State) (n : Nat) (w : Word) (base : BitVec 7) (h_s : Kept z s) : Kept z (State.seqAct s n w base).2 := by
  unfold State.seqAct
  repeat' (first
    | with_reducible assumption
    | (intro x; refine Kept.cut (a := x) ?_ (fun _ => ?_) <;> [subst x; clear_value x])
    | (intro x; subst x)
    | lift_lets -underBinder
    | with_reducible apply State.seqData_kept
    | with_reducible apply State.seqPins_kept
    | with_reducible apply State.seqStore_kept
    | with_reducible apply State.pioShow_kept
    | with_reducible apply State.seqFlow_kept)

theorem State.seqGo_kept {z : State} (s : State) (n : Nat) (xs : SeqNext) (h_s : Kept z s) : Kept z (State.seqGo s n xs) := by
  unfold State.seqGo
  repeat' (first
    | with_reducible assumption
    | (intro x; subst x)
    | lift_lets -underBinder
    | with_reducible apply State.setSeq_kept
    | with_reducible apply State.seqHalt_kept
    | split)

theorem State.seqIllegal_kept {z : State} (s : State) (n : Nat) (h_s : Kept z s) : Kept z (State.seqIllegal s n) := by
  unfold State.seqIllegal
  repeat' (first
    | with_reducible assumption
    | (intro x; subst x)
    | lift_lets -underBinder
    | with_reducible apply State.setSeq_kept
    | with_reducible apply State.seqHalt_kept
    | with_reducible apply State.raisePsq_kept)

theorem State.seqImemUe_kept {z : State} (s : State) (n : Nat) (h_s : Kept z s) : Kept z (State.seqImemUe s n) := by
  unfold State.seqImemUe
  repeat' (first
    | with_reducible assumption
    | lift_lets -underBinder
    | with_reducible apply State.seqHalt_kept
    | with_reducible apply State.raisePsq_kept)

theorem State.seqPhase_kept {z : State} (s : State) (n k : Nat) (h_s : Kept z s) : Kept z (State.seqPhase s n k) := by
  unfold State.seqPhase
  repeat' (first
    | with_reducible assumption
    | (intro x; subst x)
    | with_reducible apply Kept.ite
    | lift_lets -underBinder
    | with_reducible apply State.setSeq_kept)

theorem State.seqTick_kept {z : State} (s : State) (n : Nat) (pins : BitVec 48) (bad : Bool) (h_s : Kept z s) : Kept z (State.seqTick s n pins bad) := by
  unfold State.seqTick
  repeat' (first
    | with_reducible assumption
    | (intro x; refine Kept.cut (a := x) ?_ (fun _ => ?_) <;> [subst x; clear_value x])
    | (intro x; subst x)
    | with_reducible apply Kept.ite
    | lift_lets -underBinder
    | with_reducible apply State.seqImemUe_kept
    | with_reducible apply State.seqIllegal_kept
    | with_reducible apply State.seqPhase_kept
    | with_reducible apply State.setSeq_kept
    | with_reducible apply State.seqAct_kept
    | with_reducible apply State.seqGo_kept
    | fail_if_no_progress (with_reducible refine Kept.upd ?_ rfl rfl rfl rfl rfl rfl rfl rfl rfl rfl rfl rfl rfl rfl rfl rfl rfl rfl rfl rfl rfl rfl rfl rfl rfl))

theorem State.seqDwellEnd_kept {z : State} (s : State) (n : Nat) (pins : BitVec 48) (bad : Bool) (h_s : Kept z s) : Kept z (State.seqDwellEnd s n pins bad) := by
  unfold State.seqDwellEnd
  repeat' (first
    | with_reducible assumption
    | (intro x; subst x)
    | with_reducible apply Kept.ite
    | lift_lets -underBinder
    | with_reducible apply State.seqPhase_kept
    | with_reducible apply State.setSeq_kept
    | with_reducible apply State.seqGo_kept
    | with_reducible apply State.seqImemUe_kept
    | fail_if_no_progress (with_reducible refine Kept.upd ?_ rfl rfl rfl rfl rfl rfl rfl rfl rfl rfl rfl rfl rfl rfl rfl rfl rfl rfl rfl rfl rfl rfl rfl rfl rfl)
    | split)

theorem State.seqInject_kept {z : State} (s : State) (n : Nat) (w : Word) (h_s : Kept z s) : Kept z (State.seqInject s n w) := by
  unfold State.seqInject
  repeat' (first
    | with_reducible assumption
    | (intro x; subst x)
    | with_reducible apply Kept.ite
    | lift_lets -underBinder
    | with_reducible apply State.setSeq_kept
    | with_reducible apply State.seqIllegal_kept
    | with_reducible apply State.seqAct_kept
    | (with_reducible refine Kept.ofPair (by assumption) ?_)
    | split)

theorem State.seqStopAll_kept {z : State} (s : State) (cause : Nat) (h_s : Kept z s) : Kept z (State.seqStopAll s cause) := by
  unfold State.seqStopAll
  repeat' (first
    | with_reducible assumption
    | with_reducible refine fun t => ?_
    | with_reducible apply State.seqMask_kept
    | with_reducible apply State.seqHalt_kept)

theorem State.psqBlockReset_kept {z : State} (s : State) (h_s : Kept z s) : Kept z (State.psqBlockReset s) := by
  unfold State.psqBlockReset
  repeat' (first
    | with_reducible assumption
    | with_reducible refine fun t => ?_
    | (intro x; subst x)
    | lift_lets -underBinder
    | with_reducible apply State.seqStopAll_kept
    | with_reducible apply State.seqMask_kept
    | with_reducible apply State.setSeq_kept)

theorem State.seqRelease_kept {z : State} (s : State) (mask : Nat) (h_s : Kept z s) : Kept z (State.seqRelease s mask) := by
  unfold State.seqRelease
  repeat' (first
    | with_reducible assumption
    | with_reducible refine fun t => ?_
    | (intro x; refine Kept.cut (a := x) ?_ (fun _ => ?_) <;> [subst x; clear_value x])
    | lift_lets -underBinder
    | with_reducible apply State.seqMask_kept
    | with_reducible apply State.seqHalt_kept
    | with_reducible apply State.setSeq_kept)

theorem State.seqSafe_kept {z : State} (s : State) (h_s : Kept z s) : Kept z (State.seqSafe s) := by
  unfold State.seqSafe
  repeat' (first
    | with_reducible assumption
    | with_reducible refine fun t => ?_
    | with_reducible apply Kept.ite
    | lift_lets -underBinder
    | with_reducible apply State.seqMask_kept
    | with_reducible apply State.seqHalt_kept)

theorem State.startSeqRemap_kept {z : State} (s : State) (n to_ : Nat) (h_s : Kept z s) : Kept z (State.startSeqRemap s n to_) := by
  unfold State.startSeqRemap
  repeat' (first
    | with_reducible assumption
    | lift_lets -underBinder
    | with_reducible apply State.wr_kept)

theorem State.dropSeqRemap_kept {z : State} (s : State) (h_s : Kept z s) : Kept z (State.dropSeqRemap s) := by
  unfold State.dropSeqRemap
  repeat' (first
    | with_reducible assumption
    | with_reducible apply Kept.ite
    | lift_lets -underBinder
    | with_reducible apply State.wr_kept)

theorem State.seqRemapEvent_kept {z : State} (s : State) (n new old : Nat) (failed : Bool) (h_s : Kept z s) : Kept z (State.seqRemapEvent s n new old failed) := by
  unfold State.seqRemapEvent
  repeat' (first
    | with_reducible assumption
    | with_reducible apply State.event_kept)

theorem State.shedSeq_kept {z : State} (s : State) (n : Nat) (h_s : Kept z s) : Kept z (State.shedSeq s n) := by
  unfold State.shedSeq
  repeat' (first
    | with_reducible assumption
    | lift_lets -underBinder
    | with_reducible apply State.seqHalt_kept
    | with_reducible apply State.setSeqMap_kept)

theorem State.restoreSeq_kept {z : State} (s : State) (n m : Nat) (h_s : Kept z s) : Kept z (State.restoreSeq s n m) := by
  unfold State.restoreSeq
  repeat' (first
    | with_reducible assumption
    | lift_lets -underBinder
    | with_reducible apply State.setSeqMap_kept
    | with_reducible apply State.seqRestart_kept
    | with_reducible apply State.seqStart_kept)

theorem State.seqRead_kept {z : State} (s : State) (n l off size : Nat) (h_s : Kept z s) : Kept z (State.seqRead s n l off size).2 := by
  unfold State.seqRead
  repeat' (first
    | with_reducible assumption
    | with_reducible apply Kept.ite2
    | lift_lets -underBinder
    | with_reducible apply State.raisePsq_kept
    | with_reducible apply State.rxfPop_kept)

theorem State.seqWrite_kept {z : State} (s : State) (n l off : Nat) (v : Word) (h_s : Kept z s) : Kept z (State.seqWrite s n l off v) := by
  unfold State.seqWrite
  repeat' (first
    | with_reducible assumption
    | with_reducible apply Kept.ite
    | lift_lets -underBinder
    | with_reducible apply State.raisePsq_kept
    | with_reducible apply State.txfPush_kept
    | with_reducible apply State.setSeq_kept
    | with_reducible apply State.seqInject_kept
    | with_reducible apply State.seqCtrl_kept)

end Sys2Proof.Machine
end

