-- ==== Sys2Proof/Laws/KeptEngOps.lean ====
section
/-! SUPPORT. What the operations of Machine/EngOps.lean keep. -/

set_option linter.unusedSimpArgs false

namespace Sys2Proof.Machine

theorem State.raiseAcc_kept {z : State} (s : State) (n : Fin 18) (src addr size : Nat) (store : Bool) (h_s : Kept z s) : Kept z (State.raiseAcc s n src addr size store) := by
  unfold State.raiseAcc
  repeat' (first
    | with_reducible assumption
    | with_reducible apply State.raiseFor_kept)

theorem State.raisePe_kept {z : State} (s : State) (n : Fin 18) (src : Nat) (h_s : Kept z s) : Kept z (State.raisePe s n src) := by
  unfold State.raisePe
  repeat' (first
    | with_reducible assumption
    | with_reducible apply State.raiseFor_kept)

theorem State.putLoad_kept {z : State} (s : State) (n : Fin 18) (kind : LoadKind) (rd : Fin 32) (v : Nat) (h_s : Kept z s) : Kept z (State.putLoad s n kind rd v) := by
  unfold State.putLoad
  repeat' (first
    | with_reducible assumption
    | with_reducible apply State.onPe_kept)

theorem State.dmemLoad_kept {z : State} (s : State) (n : Fin 18) (off size : Nat) (ecc : Ecc) (h_s : Kept z s) : Kept z (State.dmemLoad s n off size ecc).2 := by
  unfold State.dmemLoad
  repeat' (first
    | with_reducible assumption
    | with_reducible apply Kept.ite
    | with_reducible apply Kept.ite2
    | lift_lets -underBinder
    | with_reducible apply State.onPe_kept
    | with_reducible apply State.raisePe_kept
    | with_reducible apply State.bump_kept)

theorem State.markDirty_kept {z : State} (s : State) (n : Fin 18) (off : Nat) (h_s : Kept z s) : Kept z (State.markDirty s n off) := by
  unfold State.markDirty
  repeat' (first
    | with_reducible assumption
    | (intro x; subst x)
    | with_reducible apply Kept.ite
    | lift_lets -underBinder
    | fail_if_no_progress (with_reducible refine Kept.upd ?_ rfl rfl rfl rfl rfl rfl rfl rfl rfl rfl rfl rfl rfl rfl rfl rfl rfl rfl rfl rfl rfl rfl rfl rfl rfl)
    | split)

theorem State.dmemStore_kept {z : State} (s : State) (n : Fin 18) (off : Nat) (bs : List Byte) (h_s : Kept z s) : Kept z (State.dmemStore s n off bs) := by
  unfold State.dmemStore
  repeat' (first
    | with_reducible assumption
    | lift_lets -underBinder
    | with_reducible apply State.markDirty_kept
    | with_reducible apply State.onPe_kept)

theorem State.onFau_kept {z : State} (s : State) (n : Fin 18) (f : Fau → Fau) (h_s : Kept z s) : Kept z (State.onFau s n f) := by
  unfold State.onFau
  repeat' (first
    | with_reducible assumption
    | with_reducible apply State.onPe_kept)

theorem State.fauPop_kept {z : State} (s : State) (n : Fin 18) (h_s : Kept z s) : Kept z (State.fauPop s n).2 := by
  unfold State.fauPop
  repeat' (first
    | with_reducible assumption
    | (intro x; refine Kept.cut (a := x) ?_ (fun _ => ?_) <;> [subst x; clear_value x])
    | (intro x; subst x)
    | lift_lets -underBinder
    | with_reducible apply State.raisePe_kept
    | with_reducible apply State.setEq_kept
    | with_reducible apply State.onFau_kept
    | split)

theorem State.applyStore_kept {z : State} (s : State) (n : Fin 18) (st : FarStore) (h_s : Kept z s) : Kept z (State.applyStore s n st) := by
  unfold State.applyStore
  repeat' (first
    | with_reducible assumption
    | with_reducible apply State.setFrame_kept
    | with_reducible apply State.onFau_kept
    | split)

theorem State.flushWindow_kept {z : State} (s : State) (n : Fin 18) (rx : Bool) (h_s : Kept z s) : Kept z (State.flushWindow s n rx) := by
  unfold State.flushWindow
  repeat' (first
    | with_reducible assumption
    | (intro x; refine Kept.cut (a := x) ?_ (fun _ => ?_) <;> [subst x; clear_value x])
    | (intro x; subst x)
    | lift_lets -underBinder
    | with_reducible apply State.applyStore_kept
    | with_reducible apply State.onPe_kept
    | with_reducible refine Kept.foldl ?_ (fun t x ht => ?_))

theorem State.fauRxDone_kept {z : State} (s : State) (n : Fin 18) (v : Nat) (h_s : Kept z s) : Kept z (State.fauRxDone s n v) := by
  unfold State.fauRxDone
  repeat' (first
    | with_reducible assumption
    | (intro x; refine Kept.cut (a := x) ?_ (fun _ => ?_) <;> [subst x; clear_value x])
    | (intro x; subst x)
    | with_reducible apply Kept.ite
    | lift_lets -underBinder
    | with_reducible apply State.raisePe_kept
    | with_reducible apply State.flushWindow_kept
    | with_reducible apply State.onFau_kept
    | with_reducible apply State.setFrame_kept
    | with_reducible apply State.deliver_kept
    | with_reducible apply State.collect_kept
    | split)

theorem State.fauAlloc_kept {z : State} (s : State) (n : Fin 18) (len : Nat) (h_s : Kept z s) : Kept z (State.fauAlloc s n len) := by
  unfold State.fauAlloc
  repeat' (first
    | with_reducible assumption
    | (intro x; refine Kept.cut (a := x) ?_ (fun _ => ?_) <;> [subst x; clear_value x])
    | (intro x; subst x)
    | with_reducible apply Kept.ite
    | lift_lets -underBinder
    | with_reducible apply State.raisePe_kept
    | with_reducible apply State.onFau_kept
    | with_reducible apply State.noteSlot_kept
    | split)

theorem State.fauTxBase_kept {z : State} (s : State) (n : Fin 18) (v : Nat) (h_s : Kept z s) : Kept z (State.fauTxBase s n v) := by
  unfold State.fauTxBase
  repeat' (first
    | with_reducible assumption
    | (intro x; subst x)
    | lift_lets -underBinder
    | with_reducible apply State.onFau_kept)

theorem State.fauSend_kept {z : State} (s : State) (n : Fin 18) (v : Nat) (h_s : Kept z s) : Kept z (State.fauSend s n v) := by
  unfold State.fauSend
  repeat' (first
    | with_reducible assumption
    | (intro x; refine Kept.cut (a := x) ?_ (fun _ => ?_) <;> [subst x; clear_value x])
    | (intro x; subst x)
    | with_reducible apply Kept.ite
    | lift_lets -underBinder
    | with_reducible apply State.flushWindow_kept
    | with_reducible apply State.onFau_kept
    | with_reducible apply State.raisePe_kept
    | with_reducible apply State.store_kept
    | with_reducible apply State.deliver_kept
    | split)

theorem State.snapReq_kept {z : State} (s : State) (n : Fin 18) (h_s : Kept z s) : Kept z (State.snapReq s n) := by
  unfold State.snapReq
  repeat' (first
    | with_reducible assumption
    | with_reducible apply State.onPe_kept)

theorem State.timerCtrl_kept {z : State} (s : State) (n : Fin 18) (i : Fin 4) (v : Nat) (h_s : Kept z s) : Kept z (State.timerCtrl s n i v) := by
  unfold State.timerCtrl
  repeat' (first
    | with_reducible assumption
    | with_reducible apply State.onPe_kept)

theorem State.txtsPop_kept {z : State} (s : State) (n : Fin 18) (h_s : Kept z s) : Kept z (State.txtsPop s n).2 := by
  unfold State.txtsPop
  repeat' (first
    | with_reducible assumption
    | (intro x; subst x)
    | lift_lets -underBinder
    | fail_if_no_progress (with_reducible refine Kept.gen ?_ rfl rfl (fun c => ?_) <;> [skip; (simp +zetaDelta only [State.canon, State.regsWf, Bool.and_eq_true] at c ⊢; simp +zetaDelta only [c, SMap.wf_set, SMap.wf_nil, SMap.wf_filter, SioSt.reset, SwcSt.reset, CvnSt.reset, PsqSt.reset, MbxSt.reset, and_self]; done)])
    | split)

theorem State.boundary_kept {z : State} (s : State) (n : Fin 18) (h_s : Kept z s) : Kept z (State.boundary s n) := by
  unfold State.boundary
  repeat' (first
    | with_reducible assumption
    | (intro x; refine Kept.cut (a := x) ?_ (fun _ => ?_) <;> [subst x; clear_value x])
    | (intro x; subst x)
    | with_reducible apply Kept.ite
    | lift_lets -underBinder
    | with_reducible apply State.setReg_kept
    | with_reducible apply State.onPe_kept)

theorem State.nearRead_kept {z : State} (s : State) (n : Fin 18) (xs : Region) (h_s : Kept z s) : Kept z (State.nearRead s n xs).2 := by
  unfold State.nearRead
  repeat' (first
    | with_reducible assumption
    | (intro x; subst x)
    | lift_lets -underBinder
    | with_reducible apply State.fauPop_kept
    | with_reducible apply State.txtsPop_kept
    | split)

theorem State.nearWrite_kept {z : State} (s : State) (n : Fin 18) (r : Region) (at_ : Nat) (bs : List Byte) (h_s : Kept z s) : Kept z (State.nearWrite s n r at_ bs) := by
  unfold State.nearWrite
  repeat' (first
    | with_reducible assumption
    | (intro x; subst x)
    | with_reducible apply Kept.ite
    | lift_lets -underBinder
    | with_reducible apply State.onFau_kept
    | with_reducible apply State.fauRxDone_kept
    | with_reducible apply State.fauAlloc_kept
    | with_reducible apply State.fauTxBase_kept
    | with_reducible apply State.fauSend_kept
    | with_reducible apply State.timerCtrl_kept
    | with_reducible apply State.onPe_kept
    | with_reducible apply State.snapReq_kept
    | with_reducible apply State.boundary_kept
    | split)

theorem State.stallOn_kept {z : State} (s : State) (n : Fin 18) (st : Stall) (h_s : Kept z s) : Kept z (State.stallOn s n st).1 := by
  unfold State.stallOn
  repeat' (first
    | with_reducible assumption
    | with_reducible apply State.onPe_kept)

theorem State.loadAt_kept {z : State} (s : State) (n : Fin 18) (addr : Nat) (kind : LoadKind) (rd : Fin 32) (ecc : Ecc) (h_s : Kept z s) : Kept z (State.loadAt s n addr kind rd ecc).1 := by
  unfold State.loadAt
  repeat' (first
    | with_reducible assumption
    | with_reducible apply Kept.ite1
    | lift_lets -underBinder
    | with_reducible apply State.stallOn_kept
    | with_reducible apply State.nearRead_kept
    | with_reducible apply State.putLoad_kept
    | with_reducible apply State.raiseAcc_kept
    | with_reducible apply State.dmemLoad_kept
    | split)

theorem State.postStore_kept {z : State} (s : State) (n : Fin 18) (st : FarStore) (h_s : Kept z s) : Kept z (State.postStore s n st).1 := by
  unfold State.postStore
  repeat' (first
    | with_reducible assumption
    | with_reducible apply Kept.ite1
    | lift_lets -underBinder
    | with_reducible apply State.stallOn_kept
    | with_reducible apply State.onPe_kept)

theorem State.storeAt_kept {z : State} (s : State) (n : Fin 18) (addr : Nat) (bs : List Byte) (h_s : Kept z s) : Kept z (State.storeAt s n addr bs).1 := by
  unfold State.storeAt
  repeat' (first
    | with_reducible assumption
    | (intro x; refine Kept.cut (a := x) ?_ (fun _ => ?_) <;> [subst x; clear_value x])
    | (intro x; subst x)
    | with_reducible apply Kept.ite
    | with_reducible apply Kept.ite1
    | lift_lets -underBinder
    | with_reducible apply State.nearWrite_kept
    | with_reducible apply State.raiseAcc_kept
    | with_reducible apply State.dmemStore_kept
    | with_reducible apply State.raisePe_kept
    | with_reducible apply State.postStore_kept
    | with_reducible apply State.onFau_kept
    | split)

theorem State.bankOwn_kept {z : State} (s : State) (n : Fin 18) (addr size : Nat) (store : Bool) (h_s : Kept z s) : Kept z (State.bankOwn s n addr size store) := by
  unfold State.bankOwn
  repeat' (first
    | with_reducible assumption
    | with_reducible apply State.raiseAcc_kept)

theorem read64_eq (s : State) (f : State → Nat → Nat × State) (off : Nat) :
    read64 s f off = ((f s off).1 + (f (f s off).2 (off + 4)).1 * 2 ^ 32, (f (f s off).2 (off + 4)).2) := rfl

theorem read64_kept {z : State} (s : State) (f : State → Nat → Nat × State) (off : Nat) (h_s : Kept z s)
    (h_f : ∀ x0 x1, Kept z x0 → Kept z (f x0 x1).2) : Kept z (read64 s f off).2 := by
  rw [read64_eq]
  exact h_f _ (off + 4) (h_f _ off h_s)

theorem readWindow_kept {z : State} (s : State) (f : State → Nat → Nat × State) (off size : Nat) (h_s : Kept z s) (h_f : ∀ x0 x1, Kept z x0 → Kept z (f x0 x1).2) : Kept z (readWindow s f off size).2 := by
  unfold readWindow
  repeat' (first
    | with_reducible assumption
    | with_reducible apply Kept.ite2
    | lift_lets -underBinder
    | with_reducible apply read64_kept
    | apply h_f)

theorem State.farLoad_kept {z : State} (s : State) (n : Fin 18) (addr size : Nat) (ecc : Ecc) (h_s : Kept z s) : Kept z (State.farLoad s n addr size ecc).2 := by
  unfold State.farLoad
  repeat' (first
    | with_reducible assumption
    | with_reducible refine fun t => ?_
    | (intro x; refine Kept.cut (a := x) ?_ (fun _ => ?_) <;> [subst x; clear_value x])
    | (intro x; subst x)
    | with_reducible apply Kept.ite2
    | lift_lets -underBinder
    | with_reducible apply State.setFrame_kept
    | with_reducible apply State.raise_kept
    | with_reducible apply State.winBadSize_kept
    | with_reducible apply readWindow_kept
    | with_reducible apply State.winRead_kept
    | with_reducible apply State.winErr_kept
    | with_reducible apply State.busRead_kept
    | with_reducible apply read64_kept
    | with_reducible apply State.seqRead_kept
    | with_reducible apply State.bankLoad_kept
    | with_reducible apply State.bankOwn_kept
    | (with_reducible refine Kept.ofPair (by assumption) ?_)
    | split)

theorem State.busBytes_kept {z : State} (s : State) (b l off : Nat) (bs : List Byte) (h_s : Kept z s) : Kept z (State.busBytes s b l off bs) := by
  unfold State.busBytes
  repeat' (first
    | with_reducible assumption
    | (intro x; subst x)
    | with_reducible apply Kept.ite
    | lift_lets -underBinder
    | with_reducible apply State.winErr_kept
    | with_reducible apply State.setBus_kept)

theorem State.busStore_kept {z : State} (s : State) (b l off : Nat) (bs : List Byte) (h_s : Kept z s) : Kept z (State.busStore s b l off bs) := by
  unfold State.busStore
  repeat' (first
    | with_reducible assumption
    | with_reducible apply Kept.ite
    | lift_lets -underBinder
    | with_reducible apply State.busBytes_kept
    | with_reducible apply State.sleepCtrl_kept
    | with_reducible apply State.busWrite_kept)

theorem State.farStore_kept {z : State} (s : State) (n : Fin 18) (st : FarStore) (ecc : Ecc) (h_s : Kept z s) : Kept z (State.farStore s n st ecc).2 := by
  unfold State.farStore
  repeat' (first
    | with_reducible assumption
    | (intro x; subst x)
    | with_reducible apply Kept.ite
    | with_reducible apply Kept.ite2
    | lift_lets -underBinder
    | with_reducible apply State.winBadSize_kept
    | with_reducible apply State.winWrite_kept
    | with_reducible apply State.winErr_kept
    | with_reducible apply State.busStore_kept
    | with_reducible apply State.seqWrite_kept
    | with_reducible apply State.bankStore_kept
    | with_reducible apply State.bankOwn_kept
    | with_reducible apply State.applyStore_kept
    | (with_reducible refine Kept.ofPair (by assumption) ?_)
    | split)

theorem State.endStall_kept {z : State} (s : State) (n : Fin 18) (h_s : Kept z s) : Kept z (State.endStall s n) := by
  unfold State.endStall
  repeat' (first
    | with_reducible assumption
    | with_reducible apply State.onPe_kept)

theorem State.wbufPop_kept {z : State} (s : State) (n : Fin 18) (h_s : Kept z s) : Kept z (State.wbufPop s n) := by
  unfold State.wbufPop
  repeat' (first
    | with_reducible assumption
    | (intro x; refine Kept.cut (a := x) ?_ (fun _ => ?_) <;> [subst x; clear_value x])
    | with_reducible apply Kept.ite
    | lift_lets -underBinder
    | with_reducible apply State.onPe_kept
    | with_reducible apply State.markerMoves_kept
    | with_reducible apply State.endStall_kept
    | split)

theorem State.peStart_kept {z : State} (s : State) (n : Fin 18) (h_s : Kept z s) : Kept z (State.peStart s n) := by
  unfold State.peStart
  repeat' (first
    | with_reducible assumption
    | with_reducible apply Kept.ite
    | lift_lets -underBinder
    | with_reducible apply State.setReg_kept
    | with_reducible apply State.onPe_kept
    | split)

theorem State.peStop_kept {z : State} (s : State) (n : Fin 18) (h_s : Kept z s) : Kept z (State.peStop s n) := by
  unfold State.peStop
  repeat' (first
    | with_reducible assumption
    | with_reducible apply Kept.ite
    | lift_lets -underBinder
    | with_reducible apply State.onPe_kept)

theorem State.peHalt_kept {z : State} (s : State) (n : Fin 18) (cause : Nat) (h_s : Kept z s) : Kept z (State.peHalt s n cause) := by
  unfold State.peHalt
  repeat' (first
    | with_reducible assumption
    | with_reducible apply Kept.ite
    | lift_lets -underBinder
    | with_reducible apply State.onPe_kept)

theorem State.peReset_kept {z : State} (s : State) (n : Fin 18) (after : Bool) (h_s : Kept z s) : Kept z (State.peReset s n after) := by
  unfold State.peReset
  repeat' (first
    | with_reducible assumption
    | with_reducible apply Kept.ite
    | lift_lets -underBinder
    | with_reducible apply State.onPe_kept)

theorem State.fauReset_kept {z : State} (s : State) (n : Fin 18) (h_s : Kept z s) : Kept z (State.fauReset s n) := by
  unfold State.fauReset
  repeat' (first
    | with_reducible assumption
    | (intro x; refine Kept.cut (a := x) ?_ (fun _ => ?_) <;> [subst x; clear_value x])
    | (intro x; subst x)
    | with_reducible apply Kept.ite
    | lift_lets -underBinder
    | with_reducible apply State.flushWindow_kept
    | with_reducible apply State.onPe_kept
    | with_reducible apply State.collect_kept
    | with_reducible apply State.bump32_kept
    | with_reducible apply State.raisePe_kept
    | with_reducible apply State.setFrame_kept
    | with_reducible apply State.setEq_kept
    | split)

theorem State.peClear_kept {z : State} (s : State) (n : Fin 18) (h_s : Kept z s) : Kept z (State.peClear s n) := by
  unfold State.peClear
  repeat' (first
    | with_reducible assumption
    | (intro x; subst x)
    | lift_lets -underBinder
    | with_reducible apply State.onPe_kept)

theorem State.txtsClear_kept {z : State} (s : State) (l : Nat) (h_s : Kept z s) : Kept z (State.txtsClear s l) := by
  unfold State.txtsClear
  repeat' (first
    | with_reducible assumption
    | (intro x; subst x)
    | lift_lets -underBinder
    | fail_if_no_progress (with_reducible refine Kept.gen ?_ rfl rfl (fun c => ?_) <;> [skip; (simp +zetaDelta only [State.canon, State.regsWf, Bool.and_eq_true] at c ⊢; simp +zetaDelta only [c, SMap.wf_set, SMap.wf_nil, SMap.wf_filter, SioSt.reset, SwcSt.reset, CvnSt.reset, PsqSt.reset, MbxSt.reset, and_self]; done)]))

theorem State.peResetDone_kept {z : State} (s : State) (n : Fin 18) (h_s : Kept z s) : Kept z (State.peResetDone s n) := by
  unfold State.peResetDone
  repeat' (first
    | with_reducible assumption
    | with_reducible apply Kept.ite
    | lift_lets -underBinder
    | with_reducible apply State.fauReset_kept
    | with_reducible apply State.markerMoves_kept
    | with_reducible apply State.peClear_kept
    | with_reducible apply State.epReset_kept
    | with_reducible apply State.txtsClear_kept
    | with_reducible apply State.peStart_kept
    | split)

end Sys2Proof.Machine
end

