-- ==== Sys2Proof/Laws/KeptHlthOps.lean ====
section
/-! SUPPORT. What the operations of Machine/HlthOps.lean keep. -/

namespace Sys2Proof.Machine

theorem State.crossings_kept {z : State} (s : State) (k u : Nat) (h_s : Kept z s) : Kept z (State.crossings s k u) := by
  unfold State.crossings
  repeat' (first
    | with_reducible assumption
    | with_reducible apply Kept.ite
    | lift_lets -underBinder
    | with_reducible apply State.setWear_kept
    | with_reducible apply State.wearEvent_kept
    | with_reducible apply State.raise_kept)

theorem State.measure_kept {z : State} (s : State) (k u : Nat) (raw : Option Nat) (h_s : Kept z s) : Kept z (State.measure s k u raw) := by
  unfold State.measure
  repeat' (first
    | with_reducible assumption
    | (intro x; subst x)
    | with_reducible apply Kept.ite
    | lift_lets -underBinder
    | with_reducible apply State.setWear_kept
    | with_reducible apply State.raise_kept
    | with_reducible apply State.crossings_kept
    | split)

end Sys2Proof.Machine
end

