-- ==== Sys2Proof/Laws/KeptPersOps.lean ====
section
/-! SUPPORT. What the operations of Machine/PersOps.lean keep. -/

set_option linter.unusedSimpArgs false

namespace Sys2Proof.Machine

theorem State.report_kept {z : State} (s : State) (kind : Nat) (content : List Nat) (h_s : Kept z s) : Kept z (State.report s kind content) := by
  unfold State.report
  repeat' (first
    | with_reducible assumption
    | lift_lets -underBinder
    | with_reducible apply State.draw_kept
    | with_reducible apply State.event_kept
    | with_reducible apply State.emit_kept)

theorem State.breakPin_kept {z : State} (s : State) (l : Nat) (n cause : Nat) (h_s : Kept z s) : Kept z (State.breakPin s l n cause) := by
  unfold State.breakPin
  repeat' (first
    | with_reducible assumption
    | with_reducible apply Kept.ite
    | lift_lets -underBinder
    | with_reducible apply State.wr_kept
    | with_reducible apply State.report_kept)

theorem State.peRegs_kept {z : State} (s : State) (n : Fin 18) (i : Image) (h_s : Kept z s) : Kept z (State.peRegs s n i) := by
  unfold State.peRegs
  repeat' (first
    | with_reducible assumption
    | lift_lets -underBinder
    | with_reducible apply State.setReg_kept
    | with_reducible apply State.wr_kept)

theorem State.loadPe_kept {z : State} (s : State) (n : Fin 18) (l : Fin 16) (i : Image) (params : List Nat) (h_s : Kept z s) : Kept z (State.loadPe s n l i params) := by
  unfold State.loadPe
  repeat' (first
    | with_reducible assumption
    | (intro x; refine Kept.cut (a := x) ?_ (fun _ => ?_) <;> [subst x; clear_value x])
    | lift_lets -underBinder
    | with_reducible apply State.onPe_kept
    | with_reducible apply State.setReg_kept
    | with_reducible apply State.peClear_kept
    | fail_if_no_progress (with_reducible refine Kept.gen ?_ rfl rfl (fun c => ?_) <;> [skip; (simp +zetaDelta only [State.canon, State.regsWf, Bool.and_eq_true] at c ⊢; simp +zetaDelta only [c, SMap.wf_set, SMap.wf_nil, SMap.wf_filter, SioSt.reset, SwcSt.reset, CvnSt.reset, PsqSt.reset, MbxSt.reset, and_self]; done)]))

theorem State.startBinding_kept {z : State} (s : State) (l : Nat) (n : Fin 18) (h_s : Kept z s) : Kept z (State.startBinding s l n) := by
  unfold State.startBinding
  repeat' (first
    | with_reducible assumption
    | (intro x; subst x)
    | with_reducible apply Kept.ite
    | lift_lets -underBinder
    | with_reducible apply State.setSlot_kept
    | with_reducible apply State.peStart_kept)

theorem State.grantBanks_kept {z : State} (s : State) (o : Nat) (bs : List Nat) (h_s : Kept z s) : Kept z (State.grantBanks s o bs) := by
  unfold State.grantBanks
  repeat' (first
    | with_reducible assumption
    | (intro x; subst x)
    | lift_lets -underBinder
    | with_reducible apply State.setBank_kept
    | with_reducible apply State.supHandover_kept
    | with_reducible refine Kept.foldl ?_ (fun t x ht => ?_))

theorem State.releaseBanks_kept {z : State} (s : State) (o : Nat) (h_s : Kept z s) : Kept z (State.releaseBanks s o) := by
  unfold State.releaseBanks
  repeat' (first
    | with_reducible assumption
    | with_reducible apply Kept.ite
    | lift_lets -underBinder
    | with_reducible apply State.supHandover_kept
    | with_reducible refine Kept.foldl ?_ (fun t x ht => ?_))

theorem State.storeBanks_kept {z : State} (s : State) (bs : List Byte) (xs : List Nat) (h_s : Kept z s) : Kept z (State.storeBanks s bs xs) := by
  induction xs generalizing s bs with
  | nil =>
    unfold State.storeBanks
    assumption
  | cons e es ih =>
    unfold State.storeBanks
    repeat' (first
      | with_reducible assumption
      | apply ih
      | (intro x; subst x)
      | lift_lets -underBinder
      | with_reducible apply State.setBank_kept)

theorem State.setQuota_kept {z : State} (s : State) (l q : Nat) (h_s : Kept z s) : Kept z (State.setQuota s l q) := by
  unfold State.setQuota
  repeat' (first
    | with_reducible assumption
    | with_reducible apply Kept.ite
    | lift_lets -underBinder
    | with_reducible apply State.wr_kept
    | with_reducible apply State.raise_kept)

theorem State.unbindNow_kept {z : State} (s : State) (l : Nat) (ring : Nat) (forced : Bool) (h_s : Kept z s) : Kept z (State.unbindNow s l ring forced) := by
  unfold State.unbindNow
  repeat' (first
    | with_reducible assumption
    | (intro x; refine Kept.cut (a := x) ?_ (fun _ => ?_) <;> [subst x; clear_value x])
    | (intro x; subst x)
    | lift_lets -underBinder
    | with_reducible apply State.setReg_kept
    | with_reducible apply State.peReset_kept
    | with_reducible apply State.peResetDone_kept
    | with_reducible apply State.onPe_kept
    | with_reducible apply State.dropSlot_kept
    | with_reducible apply State.releaseBanks_kept
    | with_reducible apply State.seqRelease_kept
    | with_reducible apply State.wr_kept
    | with_reducible apply State.setSlot_kept
    | with_reducible apply State.outageEnd_kept
    | with_reducible apply State.finish_kept
    | split)

theorem State.unbindSettle_kept {z : State} (s : State) (h_s : Kept z s) : Kept z (State.unbindSettle s) := by
  unfold State.unbindSettle
  repeat' (first
    | with_reducible assumption
    | with_reducible apply Kept.ite
    | lift_lets -underBinder
    | with_reducible apply State.unbindNow_kept
    | with_reducible refine Kept.foldl ?_ (fun t x ht => ?_)
    | split)

theorem State.setMig_kept {z : State} (s : State) (m : Option Mig) (h_s : Kept z s) : Kept z (State.setMig s m) := by
  unfold State.setMig
  repeat' (first
    | with_reducible assumption
    | (intro x; subst x)
    | lift_lets -underBinder
    | fail_if_no_progress (with_reducible refine Kept.upd ?_ rfl rfl rfl rfl rfl rfl rfl rfl rfl rfl rfl rfl rfl rfl rfl rfl rfl rfl rfl rfl rfl rfl rfl rfl rfl))

theorem State.migStat_kept {z : State} (s : State) (active : Bool) (phase : Nat) (h_s : Kept z s) : Kept z (State.migStat s active phase) := by
  unfold State.migStat
  repeat' (first
    | with_reducible assumption
    | lift_lets -underBinder
    | with_reducible apply State.wr_kept)

theorem State.migBegin_kept {z : State} (s : State) (l : Fin 16) (src tgt : Fin 18) (act prop : Nat) (retire : Bool) (cmds : List Nat) (h_s : Kept z s) : Kept z (State.migBegin s l src tgt act prop retire cmds) := by
  unfold State.migBegin
  repeat' (first
    | with_reducible assumption
    | (intro x; refine Kept.cut (a := x) ?_ (fun _ => ?_) <;> [subst x; clear_value x])
    | lift_lets -underBinder
    | with_reducible apply State.onPe_kept
    | with_reducible apply State.setMig_kept
    | with_reducible apply State.setReg_kept
    | with_reducible apply State.migStat_kept
    | with_reducible apply State.wr_kept
    | with_reducible refine Kept.foldl ?_ (fun t x ht => ?_))

theorem State.peCtrl_kept {z : State} (s : State) (n : Fin 18) (v : Nat) (h_s : Kept z s) : Kept z (State.peCtrl s n v) := by
  unfold State.peCtrl
  repeat' (first
    | with_reducible assumption
    | with_reducible apply Kept.ite
    | lift_lets -underBinder
    | with_reducible apply State.peReset_kept
    | with_reducible apply State.peHalt_kept
    | with_reducible apply State.peStop_kept
    | with_reducible apply State.peStart_kept)

theorem State.peCtrlWrite_kept {z : State} (s : State) (n : Fin 18) (v : Nat) (h_s : Kept z s) : Kept z (State.peCtrlWrite s n v) := by
  unfold State.peCtrlWrite
  repeat' (first
    | with_reducible assumption
    | with_reducible apply Kept.ite
    | lift_lets -underBinder
    | with_reducible apply State.setMig_kept
    | with_reducible apply State.peCtrl_kept
    | split)

theorem State.migAfter_kept {z : State} (s : State) (m : Mig) (h_s : Kept z s) : Kept z (State.migAfter s m) := by
  unfold State.migAfter
  repeat' (first
    | with_reducible assumption
    | (intro x; refine Kept.cut (a := x) ?_ (fun _ => ?_) <;> [subst x; clear_value x])
    | lift_lets -underBinder
    | with_reducible apply State.peCtrl_kept
    | with_reducible apply State.peStop_kept
    | with_reducible refine Kept.foldl ?_ (fun t x ht => ?_)
    | split)

theorem State.migFinish_kept {z : State} (s : State) (m : Mig) (st : Status) (v : Nat) (h_s : Kept z s) : Kept z (State.migFinish s m st v) := by
  unfold State.migFinish
  repeat' (first
    | with_reducible assumption
    | lift_lets -underBinder
    | with_reducible apply State.finish_kept
    | with_reducible refine Kept.foldl ?_ (fun t x ht => ?_))

theorem State.migAbandon_kept {z : State} (s : State) (cause : Nat) (h_s : Kept z s) : Kept z (State.migAbandon s cause) := by
  unfold State.migAbandon
  repeat' (first
    | with_reducible assumption
    | (intro x; refine Kept.cut (a := x) ?_ (fun _ => ?_) <;> [subst x; clear_value x])
    | with_reducible apply Kept.ite
    | lift_lets -underBinder
    | with_reducible apply State.setMig_kept
    | with_reducible apply State.onPe_kept
    | with_reducible apply State.peStart_kept
    | with_reducible apply State.migStat_kept
    | with_reducible apply State.wr_kept
    | with_reducible apply State.bump_kept
    | with_reducible apply State.raiseFor_kept
    | with_reducible apply State.report_kept
    | with_reducible apply State.migFinish_kept
    | with_reducible apply State.migAfter_kept
    | split)

theorem State.poison_kept {z : State} (s : State) (n : Nat) (h_s : Kept z s) : Kept z (State.poison s n) := by
  unfold State.poison
  repeat' (first
    | with_reducible assumption
    | with_reducible apply State.bump_kept)

theorem State.migCopy_kept {z : State} (s : State) (m : Mig) (h_s : Kept z s) : Kept z (State.migCopy s m) := by
  unfold State.migCopy
  repeat' (first
    | with_reducible assumption
    | (intro x; refine Kept.cut (a := x) ?_ (fun _ => ?_) <;> [subst x; clear_value x])
    | (intro x; subst x)
    | lift_lets -underBinder
    | with_reducible apply State.onPe_kept
    | with_reducible apply State.poison_kept
    | with_reducible apply State.setMig_kept)

theorem State.migCopyAll_kept {z : State} (s : State) (m : Mig) (h_s : Kept z s) : Kept z (State.migCopyAll s m) := by
  unfold State.migCopyAll
  repeat' (first
    | with_reducible assumption
    | (intro x; refine Kept.cut (a := x) ?_ (fun _ => ?_) <;> [subst x; clear_value x])
    | (intro x; subst x)
    | lift_lets -underBinder
    | with_reducible apply State.onPe_kept
    | with_reducible apply State.poison_kept
    | with_reducible apply State.setMig_kept)

theorem State.migDrain_kept {z : State} (fuel : Nat) (s : State) (n : Fin 18) (h_s : Kept z s) : Kept z (State.migDrain fuel s n).2 := by
  induction fuel generalizing s n with
  | zero =>
    simp only [State.migDrain]
    first | assumption | repeat' (first | assumption | split)
  | succ n ih =>
    unfold State.migDrain
    repeat' (first
      | with_reducible assumption
      | apply ih
      | with_reducible apply Kept.ite2
      | lift_lets -underBinder
      | with_reducible apply State.farStore_kept
      | with_reducible apply State.wbufPop_kept
      | split)

theorem State.migSource_kept {z : State} (s : State) (m : Mig) (h_s : Kept z s) : Kept z (State.migSource s m) := by
  unfold State.migSource
  repeat' (first
    | with_reducible assumption
    | with_reducible apply Kept.ite
    | lift_lets -underBinder
    | with_reducible apply State.setReg_kept
    | with_reducible apply State.onPe_kept
    | with_reducible apply State.peReset_kept
    | with_reducible apply State.peResetDone_kept)

theorem State.blackout_kept {z : State} (s : State) (ns : Nat) (h_s : Kept z s) : Kept z (State.blackout s ns) := by
  unfold State.blackout
  repeat' (first
    | with_reducible assumption
    | with_reducible apply Kept.ite
    | lift_lets -underBinder
    | with_reducible apply State.wr_kept)

theorem State.migCommit_kept {z : State} (s : State) (m : Mig) (ns : Nat) (h_s : Kept z s) : Kept z (State.migCommit s m ns) := by
  unfold State.migCommit
  repeat' (first
    | with_reducible assumption
    | (intro x; refine Kept.cut (a := x) ?_ (fun _ => ?_) <;> [subst x; clear_value x])
    | with_reducible apply Kept.ite
    | lift_lets -underBinder
    | with_reducible apply State.migDrain_kept
    | with_reducible apply State.migAbandon_kept
    | with_reducible apply State.migCopy_kept
    | with_reducible apply State.setPe_kept
    | with_reducible apply State.setReg_kept
    | with_reducible apply State.setMig_kept
    | with_reducible apply State.setSlot_kept
    | with_reducible apply State.migSource_kept
    | with_reducible apply State.migStat_kept
    | with_reducible apply State.bump_kept
    | with_reducible apply State.wr_kept
    | with_reducible apply State.blackout_kept
    | with_reducible apply State.report_kept
    | with_reducible apply State.migFinish_kept
    | with_reducible apply State.migAfter_kept
    | fail_if_no_progress (with_reducible refine Kept.upd ?_ rfl rfl rfl rfl rfl rfl rfl rfl rfl rfl rfl rfl rfl rfl rfl rfl rfl rfl rfl rfl rfl rfl rfl rfl rfl)
    | fail_if_no_progress (with_reducible refine Kept.gen ?_ rfl rfl (fun c => ?_) <;> [skip; (simp +zetaDelta only [State.canon, State.regsWf, Bool.and_eq_true] at c ⊢; simp +zetaDelta only [c, SMap.wf_set, SMap.wf_nil, SMap.wf_filter, SioSt.reset, SwcSt.reset, CvnSt.reset, PsqSt.reset, MbxSt.reset, and_self]; done)]))

theorem State.migRetry_kept {z : State} (s : State) (m : Mig) (ns : Nat) (h_s : Kept z s) : Kept z (State.migRetry s m ns) := by
  unfold State.migRetry
  repeat' (first
    | with_reducible assumption
    | (intro x; refine Kept.cut (a := x) ?_ (fun _ => ?_) <;> [subst x; clear_value x])
    | with_reducible apply Kept.ite
    | lift_lets -underBinder
    | with_reducible apply State.blackout_kept
    | with_reducible apply State.migAbandon_kept
    | with_reducible apply State.peStart_kept
    | with_reducible apply State.wr_kept
    | with_reducible apply State.migStat_kept
    | with_reducible apply State.migCopy_kept)

theorem State.migWatch_kept {z : State} (s : State) (h_s : Kept z s) : Kept z (State.migWatch s) := by
  unfold State.migWatch
  repeat' (first
    | with_reducible assumption
    | with_reducible apply Kept.ite
    | lift_lets -underBinder
    | with_reducible apply State.migAbandon_kept
    | split)

theorem State.graceSettle_kept {z : State} (s : State) (h_s : Kept z s) : Kept z (State.graceSettle s) := by
  unfold State.graceSettle
  repeat' (first
    | with_reducible assumption
    | (intro x; subst x)
    | with_reducible apply Kept.ite
    | lift_lets -underBinder
    | with_reducible apply State.setSlot_kept
    | with_reducible refine Kept.foldl ?_ (fun t x ht => ?_))

theorem State.startSlots_kept {z : State} (s : State) (h_s : Kept z s) : Kept z (State.startSlots s) := by
  unfold State.startSlots
  repeat' (first
    | with_reducible assumption
    | (intro x; refine Kept.cut (a := x) ?_ (fun _ => ?_) <;> [subst x; clear_value x])
    | with_reducible apply Kept.ite
    | lift_lets -underBinder
    | with_reducible apply State.setSlot_kept
    | with_reducible apply State.peStart_kept
    | with_reducible apply State.onPe_kept
    | with_reducible refine Kept.foldl ?_ (fun t x ht => ?_)
    | split)

theorem State.stopSlots_kept {z : State} (s : State) (h_s : Kept z s) : Kept z (State.stopSlots s) := by
  unfold State.stopSlots
  repeat' (first
    | with_reducible assumption
    | (intro x; subst x)
    | with_reducible apply Kept.ite
    | lift_lets -underBinder
    | with_reducible apply State.setSlot_kept
    | with_reducible apply State.peStop_kept
    | with_reducible refine Kept.foldl ?_ (fun t x ht => ?_)
    | split)

end Sys2Proof.Machine
end

