-- ==== Sys2Proof/Laws/KeptWadiOps.lean ====
section
/-! SUPPORT. What the operations of Machine/WadiOps.lean keep. -/

namespace Sys2Proof.Machine

theorem State.writeHook_kept {z : State} (s : State) (k : Nat) (host : Bool) (h_s : Kept z s) : Kept z (State.writeHook s k host) := by
  unfold State.writeHook
  repeat' (first
    | with_reducible assumption
    | (intro x; subst x)
    | lift_lets -underBinder
    | with_reducible apply State.dmemStore_kept
    | split)

theorem State.funcSet_kept {z : State} (s : State) (k : Nat) (host : Bool) (by_ : Nat) (h_s : Kept z s) : Kept z (State.funcSet s k host by_) := by
  unfold State.funcSet
  repeat' (first
    | with_reducible assumption
    | (intro x; refine Kept.cut (a := x) ?_ (fun _ => ?_) <;> [subst x; clear_value x])
    | with_reducible apply Kept.ite
    | lift_lets -underBinder
    | with_reducible apply State.wr_kept
    | with_reducible apply State.writeHook_kept
    | with_reducible apply State.report_kept)

theorem State.funcRefuse_kept {z : State} (s : State) (k cause : Nat) (h_s : Kept z s) : Kept z (State.funcRefuse s k cause) := by
  unfold State.funcRefuse
  repeat' (first
    | with_reducible assumption
    | (intro x; subst x)
    | lift_lets -underBinder
    | with_reducible apply State.wr_kept
    | with_reducible apply State.report_kept)

theorem State.funcAsk_kept {z : State} (s : State) (k : Nat) (host : Bool) (by_ : Nat) (h_s : Kept z s) : Kept z (State.funcAsk s k host by_) := by
  unfold State.funcAsk
  repeat' (first
    | with_reducible assumption
    | with_reducible apply Kept.ite
    | lift_lets -underBinder
    | with_reducible apply State.funcRefuse_kept
    | with_reducible apply State.funcSet_kept
    | with_reducible apply State.wr_kept)

theorem State.shedFunctions_kept {z : State} (s : State) (h_s : Kept z s) : Kept z (State.shedFunctions s) := by
  unfold State.shedFunctions
  repeat' (first
    | with_reducible assumption
    | (intro x; refine Kept.cut (a := x) ?_ (fun _ => ?_) <;> [subst x; clear_value x])
    | (intro x; subst x)
    | with_reducible apply Kept.ite
    | lift_lets -underBinder
    | with_reducible apply State.funcAsk_kept
    | with_reducible refine Kept.foldl ?_ (fun t x ht => ?_)
    | fail_if_no_progress (with_reducible refine Kept.upd ?_ rfl rfl rfl rfl rfl rfl rfl rfl rfl rfl rfl rfl rfl rfl rfl rfl rfl rfl rfl rfl rfl rfl rfl rfl rfl))

theorem State.shedSlot_kept {z : State} (s : State) (l : Nat) (cls : Nat) (lostBank : Option Nat) (h_s : Kept z s) : Kept z (State.shedSlot s l cls lostBank) := by
  unfold State.shedSlot
  repeat' (first
    | with_reducible assumption
    | (intro x; refine Kept.cut (a := x) ?_ (fun _ => ?_) <;> [subst x; clear_value x])
    | with_reducible apply Kept.ite
    | lift_lets -underBinder
    | with_reducible apply State.migAbandon_kept
    | with_reducible apply State.setReg_kept
    | with_reducible apply State.onPe_kept
    | with_reducible apply State.peReset_kept
    | with_reducible apply State.peResetDone_kept
    | with_reducible apply State.dropSlot_kept
    | with_reducible apply State.setSlot_kept
    | with_reducible apply State.outageFrom_kept
    | with_reducible apply State.report_kept
    | split)

theorem State.restartSlot_kept {z : State} (s : State) (l : Fin 16) (n : Fin 18) (cause : Nat) (readOk : Bool) (h_s : Kept z s) : Kept z (State.restartSlot s l n cause readOk) := by
  unfold State.restartSlot
  repeat' (first
    | with_reducible assumption
    | (intro x; refine Kept.cut (a := x) ?_ (fun _ => ?_) <;> [subst x; clear_value x])
    | with_reducible apply Kept.ite
    | lift_lets -underBinder
    | with_reducible apply State.setReg_kept
    | with_reducible apply State.peReset_kept
    | with_reducible apply State.peResetDone_kept
    | with_reducible apply State.onPe_kept
    | with_reducible apply State.epReset_kept
    | with_reducible apply State.txtsClear_kept
    | with_reducible apply State.raiseFor_kept
    | with_reducible apply State.setSlot_kept
    | with_reducible apply State.peRegs_kept
    | with_reducible apply State.loadPe_kept
    | with_reducible apply State.startBinding_kept
    | with_reducible apply State.outageEnd_kept
    | with_reducible apply State.report_kept
    | split)

theorem State.retireEngine_kept {z : State} (s : State) (n : Fin 18) (h_s : Kept z s) : Kept z (State.retireEngine s n) := by
  unfold State.retireEngine
  repeat' (first
    | with_reducible assumption
    | (intro x; refine Kept.cut (a := x) ?_ (fun _ => ?_) <;> [subst x; clear_value x])
    | lift_lets -underBinder
    | with_reducible apply State.onPe_kept
    | with_reducible apply State.finish_kept
    | with_reducible refine Kept.foldl ?_ (fun t x ht => ?_)
    | fail_if_no_progress (with_reducible refine Kept.upd ?_ rfl rfl rfl rfl rfl rfl rfl rfl rfl rfl rfl rfl rfl rfl rfl rfl rfl rfl rfl rfl rfl rfl rfl rfl rfl))

theorem State.shortEngine_kept {z : State} (s : State) (l : Fin 16) (n : Fin 18) (wear : Bool) (readOk : Bool) (h_s : Kept z s) : Kept z (State.shortEngine s l n wear readOk) := by
  unfold State.shortEngine
  repeat' (first
    | with_reducible assumption
    | (intro x; refine Kept.cut (a := x) ?_ (fun _ => ?_) <;> [subst x; clear_value x])
    | with_reducible apply Kept.ite
    | lift_lets -underBinder
    | with_reducible apply State.lossOf_kept
    | with_reducible apply State.shedSlot_kept
    | with_reducible apply State.retireEngine_kept
    | with_reducible apply State.migBegin_kept
    | with_reducible apply State.restartSlot_kept
    | split)

theorem State.shedOther_kept {z : State} (s : State) (c u : Nat) (h_s : Kept z s) : Kept z (State.shedOther s c u) := by
  unfold State.shedOther
  repeat' (first
    | with_reducible assumption
    | (intro x; subst x)
    | with_reducible apply Kept.ite
    | lift_lets -underBinder
    | with_reducible apply State.report_kept
    | with_reducible apply State.shedBus_kept
    | with_reducible apply State.outageFrom_kept
    | with_reducible apply State.moveBus_kept
    | with_reducible apply State.outageEnd_kept
    | with_reducible apply State.shedSeq_kept
    | with_reducible apply State.restoreSeq_kept
    | split)

theorem State.treatLosses_kept {z : State} (s : State) (h_s : Kept z s) : Kept z (State.treatLosses s) := by
  unfold State.treatLosses
  repeat' (first
    | with_reducible assumption
    | (intro x; subst x)
    | lift_lets -underBinder
    | with_reducible apply State.shedOther_kept
    | with_reducible refine Kept.foldl ?_ (fun t x ht => ?_)
    | fail_if_no_progress (with_reducible refine Kept.upd ?_ rfl rfl rfl rfl rfl rfl rfl rfl rfl rfl rfl rfl rfl rfl rfl rfl rfl rfl rfl rfl rfl rfl rfl rfl rfl))

theorem State.giveBank_kept {z : State} (s : State) (l v b p : Nat) (wear : Bool) (readOk : Nat → Bool) (h_s : Kept z s) : Kept z (State.giveBank s l v b p wear readOk) := by
  unfold State.giveBank
  repeat' (first
    | with_reducible assumption
    | (intro x; subst x)
    | with_reducible apply Kept.ite
    | with_reducible refine Kept.dite (fun h => ?_) (fun h => ?_)
    | lift_lets -underBinder
    | with_reducible apply State.shedSlot_kept
    | with_reducible apply State.setBank_kept
    | with_reducible apply State.setPhys_kept
    | with_reducible apply State.startRepair_kept
    | with_reducible apply State.remapLost_kept
    | with_reducible apply State.restartSlot_kept
    | split)

theorem State.shortBank_kept {z : State} (s : State) (b : Nat) (wear : Bool) (readOk : Nat → Bool) (h_s : Kept z s) : Kept z (State.shortBank s b wear readOk) := by
  unfold State.shortBank
  repeat' (first
    | with_reducible assumption
    | lift_lets -underBinder
    | with_reducible apply State.lossOf_kept
    | with_reducible apply State.giveBank_kept
    | split)

theorem State.shedForCells_kept {z : State} (fuel : Nat) (s : State) (h_s : Kept z s) : Kept z (State.shedForCells fuel s) := by
  induction fuel generalizing s with
  | zero =>
    simp only [State.shedForCells]
    first | assumption | repeat' (first | assumption | split)
  | succ n ih =>
    unfold State.shedForCells
    repeat' (first
      | with_reducible assumption
      | apply ih
      | with_reducible apply Kept.ite
      | lift_lets -underBinder
      | with_reducible apply State.shedSlot_kept
      | split)

theorem State.shortBuffer_kept {z : State} (s : State) (b : Nat) (h_s : Kept z s) : Kept z (State.shortBuffer s b) := by
  unfold State.shortBuffer
  repeat' (first
    | with_reducible assumption
    | (intro x; refine Kept.cut (a := x) ?_ (fun _ => ?_) <;> [subst x; clear_value x])
    | (intro x; subst x)
    | with_reducible apply Kept.ite
    | lift_lets -underBinder
    | with_reducible apply State.lossOf_kept
    | with_reducible apply State.setBank_kept
    | with_reducible apply State.setPhys_kept
    | with_reducible apply State.wr_kept
    | with_reducible apply State.shedForCells_kept
    | with_reducible refine Kept.foldl ?_ (fun t x ht => ?_)
    | split)

theorem State.spareBanksOf_kept {z : State} (s : State) (buffer : Bool) (readOk : Nat → Bool) (h_s : Kept z s) : Kept z (State.spareBanksOf s buffer readOk) := by
  unfold State.spareBanksOf
  repeat' (first
    | with_reducible assumption
    | (intro x; subst x)
    | with_reducible apply Kept.ite
    | lift_lets -underBinder
    | with_reducible apply State.startRepair_kept
    | with_reducible apply State.shortBuffer_kept
    | with_reducible apply State.shortBank_kept
    | fail_if_no_progress (with_reducible refine Kept.upd ?_ rfl rfl rfl rfl rfl rfl rfl rfl rfl rfl rfl rfl rfl rfl rfl rfl rfl rfl rfl rfl rfl rfl rfl rfl rfl)
    | split)

theorem State.spareFct_kept {z : State} (s : State) (h_s : Kept z s) : Kept z (State.spareFct s) := by
  unfold State.spareFct
  repeat' (first
    | with_reducible assumption
    | (intro x; subst x)
    | with_reducible apply Kept.ite
    | lift_lets -underBinder
    | fail_if_no_progress (with_reducible refine Kept.upd ?_ rfl rfl rfl rfl rfl rfl rfl rfl rfl rfl rfl rfl rfl rfl rfl rfl rfl rfl rfl rfl rfl rfl rfl rfl rfl)
    | split)

theorem State.spareMdb_kept {z : State} (s : State) (h_s : Kept z s) : Kept z (State.spareMdb s) := by
  unfold State.spareMdb
  repeat' (first
    | with_reducible assumption
    | (intro x; subst x)
    | with_reducible apply Kept.ite
    | lift_lets -underBinder
    | with_reducible apply State.startRemap_kept
    | with_reducible apply State.shedBus_kept
    | with_reducible apply State.outageFrom_kept
    | with_reducible apply State.lossOf_kept
    | fail_if_no_progress (with_reducible refine Kept.upd ?_ rfl rfl rfl rfl rfl rfl rfl rfl rfl rfl rfl rfl rfl rfl rfl rfl rfl rfl rfl rfl rfl rfl rfl rfl rfl)
    | split)

theorem State.sparePsq_kept {z : State} (s : State) (h_s : Kept z s) : Kept z (State.sparePsq s) := by
  unfold State.sparePsq
  repeat' (first
    | with_reducible assumption
    | (intro x; subst x)
    | with_reducible apply Kept.ite
    | lift_lets -underBinder
    | with_reducible apply State.startSeqRemap_kept
    | with_reducible apply State.shedSeq_kept
    | with_reducible apply State.outageFrom_kept
    | with_reducible apply State.lossOf_kept
    | fail_if_no_progress (with_reducible refine Kept.upd ?_ rfl rfl rfl rfl rfl rfl rfl rfl rfl rfl rfl rfl rfl rfl rfl rfl rfl rfl rfl rfl rfl rfl rfl rfl rfl)
    | split)

theorem State.bankBack_kept {z : State} (s : State) (l : Nat) (h_s : Kept z s) : ∀ t, State.bankBack s l = some t → Kept z t := by
  intro t ht
  unfold State.bankBack at ht
  repeat' (first
    | (cases ht; done)
    | (injection ht with ht; subst ht)
    | split at ht
    | with_reducible assumption
    | (intro x; subst x)
    | lift_lets -underBinder
    | with_reducible apply State.setPhys_kept
    | with_reducible apply State.setBank_kept)

theorem State.restoreSlot_kept {z : State} (s : State) (readOk : Nat → Bool) (h_s : Kept z s) : Kept z (State.restoreSlot s readOk) := by
  unfold State.restoreSlot
  repeat' (first
    | with_reducible assumption
    | (intro x; subst x)
    | with_reducible refine Kept.dite (fun h => ?_) (fun h => ?_)
    | lift_lets -underBinder
    | with_reducible refine State.bankBack_kept _ _ ?_ _ (by assumption)
    | with_reducible apply State.restartSlot_kept
    | with_reducible apply State.report_kept
    | split)

theorem State.restoreOthers_kept {z : State} (s : State) (h_s : Kept z s) : Kept z (State.restoreOthers s) := by
  unfold State.restoreOthers
  repeat' (first
    | with_reducible assumption
    | (intro x; refine Kept.cut (a := x) ?_ (fun _ => ?_) <;> [subst x; clear_value x])
    | lift_lets -underBinder
    | with_reducible apply State.moveBus_kept
    | with_reducible apply State.outageEnd_kept
    | with_reducible apply State.report_kept
    | with_reducible apply State.restoreSeq_kept
    | split)

theorem State.restoreAll_kept {z : State} (fuel : Nat) (s : State) (readOk : Nat → Bool) (h_s : Kept z s) : Kept z (State.restoreAll fuel s readOk) := by
  induction fuel generalizing s readOk with
  | zero =>
    simp only [State.restoreAll]
    first | assumption | repeat' (first | assumption | split)
  | succ n ih =>
    unfold State.restoreAll
    repeat' (first
      | with_reducible assumption
      | apply ih
      | with_reducible apply Kept.ite
      | lift_lets -underBinder
      | with_reducible apply State.restoreSlot_kept
      | with_reducible apply State.restoreOthers_kept)

theorem State.functionsBack_kept {z : State} (s : State) (h_s : Kept z s) : Kept z (State.functionsBack s) := by
  unfold State.functionsBack
  repeat' (first
    | with_reducible assumption
    | (intro x; refine Kept.cut (a := x) ?_ (fun _ => ?_) <;> [subst x; clear_value x])
    | with_reducible apply Kept.ite
    | lift_lets -underBinder
    | with_reducible apply State.funcAsk_kept
    | with_reducible refine Kept.foldl ?_ (fun t x ht => ?_)
    | fail_if_no_progress (with_reducible refine Kept.upd ?_ rfl rfl rfl rfl rfl rfl rfl rfl rfl rfl rfl rfl rfl rfl rfl rfl rfl rfl rfl rfl rfl rfl rfl rfl rfl))

theorem State.noteHalt_kept {z : State} (s : State) (n src : Nat) (h_s : Kept z s) : Kept z (State.noteHalt s n src) := by
  unfold State.noteHalt
  repeat' (first
    | with_reducible assumption
    | (intro x; subst x)
    | lift_lets -underBinder
    | fail_if_no_progress (with_reducible refine Kept.upd ?_ rfl rfl rfl rfl rfl rfl rfl rfl rfl rfl rfl rfl rfl rfl rfl rfl rfl rfl rfl rfl rfl rfl rfl rfl rfl))

theorem State.noteRecov_kept {z : State} (s : State) (n : Nat) (imem : Bool) (h_s : Kept z s) : Kept z (State.noteRecov s n imem) := by
  unfold State.noteRecov
  repeat' (first
    | with_reducible assumption
    | (intro x; subst x)
    | lift_lets -underBinder
    | fail_if_no_progress (with_reducible refine Kept.upd ?_ rfl rfl rfl rfl rfl rfl rfl rfl rfl rfl rfl rfl rfl rfl rfl rfl rfl rfl rfl rfl rfl rfl rfl rfl rfl))

theorem State.restartMove_kept {z : State} (s : State) (l : Fin 16) (n : Fin 18) (cause : Nat) (wear readOk : Bool) (h_s : Kept z s) : Kept z (State.restartMove s l n cause wear readOk) := by
  unfold State.restartMove
  repeat' (first
    | with_reducible assumption
    | (intro x; refine Kept.cut (a := x) ?_ (fun _ => ?_) <;> [subst x; clear_value x])
    | lift_lets -underBinder
    | with_reducible apply State.breakPin_kept
    | with_reducible apply State.restartSlot_kept
    | with_reducible apply State.retireEngine_kept
    | with_reducible apply State.shortEngine_kept
    | split)

theorem State.recover_kept {z : State} (s : State) (l : Fin 16) (n : Fin 18) (readOk : Bool) (h_s : Kept z s) : Kept z (State.recover s l n readOk) := by
  unfold State.recover
  repeat' (first
    | with_reducible assumption
    | (intro x; refine Kept.cut (a := x) ?_ (fun _ => ?_) <;> [subst x; clear_value x])
    | with_reducible apply Kept.ite
    | lift_lets -underBinder
    | with_reducible apply State.noteRecov_kept
    | with_reducible apply State.restartMove_kept
    | with_reducible apply State.onPe_kept
    | with_reducible apply State.peStart_kept
    | with_reducible apply State.outageEnd_kept
    | with_reducible apply State.report_kept
    | with_reducible apply State.raiseFor_kept
    | with_reducible apply State.restartSlot_kept
    | split)

theorem State.startAction_kept {z : State} (s : State) (act : Nat) (l : Fin 16) (src tgt : Fin 18) (prop : Nat) (readOk : Nat → Bool) (h_s : Kept z s) : Kept z (State.startAction s act l src tgt prop readOk) := by
  unfold State.startAction
  repeat' (first
    | with_reducible assumption
    | (intro x; refine Kept.cut (a := x) ?_ (fun _ => ?_) <;> [subst x; clear_value x])
    | (intro x; subst x)
    | with_reducible apply Kept.ite
    | lift_lets -underBinder
    | with_reducible apply State.breakPin_kept
    | with_reducible apply State.migBegin_kept
    | with_reducible apply State.restartSlot_kept
    | with_reducible apply State.retireEngine_kept
    | with_reducible apply State.report_kept
    | fail_if_no_progress (with_reducible refine Kept.upd ?_ rfl rfl rfl rfl rfl rfl rfl rfl rfl rfl rfl rfl rfl rfl rfl rfl rfl rfl rfl rfl rfl rfl rfl rfl rfl)
    | split)

theorem State.withdraw_kept {z : State} (s : State) (id cause : Nat) (h_s : Kept z s) : Kept z (State.withdraw s id cause) := by
  unfold State.withdraw
  repeat' (first
    | with_reducible assumption
    | (intro x; subst x)
    | lift_lets -underBinder
    | with_reducible apply State.report_kept
    | fail_if_no_progress (with_reducible refine Kept.upd ?_ rfl rfl rfl rfl rfl rfl rfl rfl rfl rfl rfl rfl rfl rfl rfl rfl rfl rfl rfl rfl rfl rfl rfl rfl rfl))

theorem State.propose_kept {z : State} (s : State) (c : Cand) (tgt : Fin 18) (h_s : Kept z s) : Kept z (State.propose s c tgt) := by
  unfold State.propose
  repeat' (first
    | with_reducible assumption
    | (intro x; refine Kept.cut (a := x) ?_ (fun _ => ?_) <;> [subst x; clear_value x])
    | (intro x; subst x)
    | with_reducible apply Kept.ite
    | lift_lets -underBinder
    | with_reducible apply State.withdraw_kept
    | with_reducible apply State.report_kept
    | fail_if_no_progress (with_reducible refine Kept.upd ?_ rfl rfl rfl rfl rfl rfl rfl rfl rfl rfl rfl rfl rfl rfl rfl rfl rfl rfl rfl rfl rfl rfl rfl rfl rfl)
    | split)

theorem State.startProposal_kept {z : State} (s : State) (p : Proposal) (readOk : Nat → Bool) (h_s : Kept z s) : Kept z (State.startProposal s p readOk) := by
  unfold State.startProposal
  repeat' (first
    | with_reducible assumption
    | (intro x; subst x)
    | with_reducible apply Kept.ite
    | lift_lets -underBinder
    | with_reducible apply State.withdraw_kept
    | with_reducible apply State.recover_kept
    | with_reducible apply State.startAction_kept
    | fail_if_no_progress (with_reducible refine Kept.upd ?_ rfl rfl rfl rfl rfl rfl rfl rfl rfl rfl rfl rfl rfl rfl rfl rfl rfl rfl rfl rfl rfl rfl rfl rfl rfl))

theorem State.runProposals_kept {z : State} (s : State) (readOk : Nat → Bool) (h_s : Kept z s) : Kept z (State.runProposals s readOk).2 := by
  unfold State.runProposals
  repeat' (first
    | with_reducible assumption
    | with_reducible apply Kept.ite2
    | lift_lets -underBinder
    | with_reducible apply State.withdraw_kept
    | with_reducible apply State.startProposal_kept
    | with_reducible refine Kept.foldl2 ?_ (fun t x ht => ?_))

theorem State.runRestarts_kept {z : State} (s : State) (readOk : Nat → Bool) (h_s : Kept z s) : Kept z (State.runRestarts s readOk) := by
  unfold State.runRestarts
  repeat' (first
    | with_reducible assumption
    | with_reducible apply Kept.ite
    | lift_lets -underBinder
    | with_reducible apply State.propose_kept
    | with_reducible apply State.recover_kept
    | with_reducible refine Kept.foldl ?_ (fun t x ht => ?_)
    | split)

theorem State.runCandidate_kept {z : State} (s : State) (started : Bool) (readOk : Nat → Bool) (h_s : Kept z s) : Kept z (State.runCandidate s started readOk) := by
  unfold State.runCandidate
  repeat' (first
    | with_reducible assumption
    | (intro x; subst x)
    | with_reducible apply Kept.ite
    | lift_lets -underBinder
    | with_reducible apply State.breakPin_kept
    | with_reducible apply State.shortEngine_kept
    | with_reducible apply State.startAction_kept
    | with_reducible apply State.propose_kept
    | split)

theorem State.retireIdle_kept {z : State} (s : State) (h_s : Kept z s) : Kept z (State.retireIdle s) := by
  unfold State.retireIdle
  repeat' (first
    | with_reducible assumption
    | with_reducible apply Kept.ite
    | lift_lets -underBinder
    | with_reducible apply State.retireEngine_kept
    | with_reducible refine Kept.foldl ?_ (fun t x ht => ?_))

theorem State.adjustQuota_kept {z : State} (s : State) (l : Nat) (h_s : Kept z s) : Kept z (State.adjustQuota s l) := by
  unfold State.adjustQuota
  repeat' (first
    | with_reducible assumption
    | (intro x; subst x)
    | with_reducible apply Kept.ite
    | lift_lets -underBinder
    | with_reducible apply State.setSlot_kept
    | with_reducible apply State.setQuota_kept
    | split)

theorem State.proposeFunc_kept {z : State} (s : State) (l : Nat) (h_s : Kept z s) : Kept z (State.proposeFunc s l) := by
  unfold State.proposeFunc
  repeat' (first
    | with_reducible assumption
    | (intro x; refine Kept.cut (a := x) ?_ (fun _ => ?_) <;> [subst x; clear_value x])
    | (intro x; subst x)
    | with_reducible apply Kept.ite
    | lift_lets -underBinder
    | with_reducible apply State.setSlot_kept
    | with_reducible apply State.report_kept
    | split)

theorem State.checkDecl_kept {z : State} (s : State) (l : Nat) (h_s : Kept z s) : Kept z (State.checkDecl s l) := by
  unfold State.checkDecl
  repeat' (first
    | with_reducible assumption
    | with_reducible apply Kept.ite
    | lift_lets -underBinder
    | with_reducible apply State.onPe_kept
    | with_reducible apply State.report_kept
    | split)

theorem State.conflictReports_kept {z : State} (s : State) (h_s : Kept z s) : Kept z (State.conflictReports s) := by
  unfold State.conflictReports
  repeat' (first
    | with_reducible assumption
    | with_reducible apply Kept.ite
    | lift_lets -underBinder
    | with_reducible apply State.report_kept
    | with_reducible refine Kept.foldl ?_ (fun t x ht => ?_))

theorem State.placementReport_kept {z : State} (s : State) (h_s : Kept z s) : Kept z (State.placementReport s) := by
  unfold State.placementReport
  repeat' (first
    | with_reducible assumption
    | with_reducible apply Kept.ite
    | lift_lets -underBinder
    | with_reducible apply State.report_kept)

theorem State.decide__kept {z : State} (s : State) (readOk : Nat → Bool) (h_s : Kept z s) : Kept z (State.decide_ s readOk) := by
  unfold State.decide_
  repeat' (first
    | with_reducible assumption
    | (intro x; refine Kept.cut (a := x) ?_ (fun _ => ?_) <;> [subst x; clear_value x])
    | with_reducible apply Kept.ite
    | lift_lets -underBinder
    | with_reducible apply State.treatLosses_kept
    | with_reducible apply State.runRestarts_kept
    | with_reducible apply State.runProposals_kept
    | with_reducible apply State.runCandidate_kept
    | with_reducible apply State.retireIdle_kept
    | with_reducible apply State.spareBanksOf_kept
    | with_reducible apply State.spareFct_kept
    | with_reducible apply State.spareMdb_kept
    | with_reducible apply State.sparePsq_kept
    | with_reducible apply State.restoreAll_kept
    | with_reducible apply State.wr_kept
    | with_reducible apply State.functionsBack_kept
    | with_reducible apply State.adjustQuota_kept
    | with_reducible apply State.proposeFunc_kept
    | with_reducible apply State.checkDecl_kept
    | with_reducible apply State.conflictReports_kept
    | with_reducible apply State.placementReport_kept
    | with_reducible refine Kept.foldl ?_ (fun t x ht => ?_))

end Sys2Proof.Machine
end

