-- ==== Sys2Proof/Laws/KeptHifOps.lean ====
section
/-! SUPPORT. What the operations of Machine/HifOps.lean keep. -/

set_option linter.unusedSimpArgs false

namespace Sys2Proof.Machine

theorem State.bootDone_kept {z : State} (s : State) (r : Nat) (h_s : Kept z s) : Kept z (State.bootDone s r) := by
  unfold State.bootDone
  repeat' (first
    | with_reducible assumption
    | with_reducible apply Kept.ite
    | lift_lets -underBinder
    | with_reducible apply State.offerEvt_kept)

theorem State.bindRing_kept {z : State} (s : State) (p r : Nat) (h_s : Kept z s) : Kept z (State.bindRing s p r) := by
  unfold State.bindRing
  repeat' (first
    | with_reducible assumption
    | (intro x; refine Kept.cut (a := x) ?_ (fun _ => ?_) <;> [subst x; clear_value x])
    | (intro x; subst x)
    | with_reducible apply Kept.ite
    | lift_lets -underBinder
    | with_reducible apply State.wr_kept
    | with_reducible apply State.setRing_kept
    | with_reducible apply State.bootDone_kept
    | with_reducible apply State.flushRsp_kept)

theorem State.dropFrx_kept {z : State} (s : State) (r : Nat) (h_s : Kept z s) : Kept z (State.dropFrx s r) := by
  unfold State.dropFrx
  repeat' (first
    | with_reducible assumption
    | (intro x; subst x)
    | lift_lets -underBinder
    | with_reducible apply State.ringDrop_kept
    | with_reducible apply State.collect_kept
    | with_reducible apply State.setFrxQ_kept
    | with_reducible refine Kept.foldl ?_ (fun t x ht => ?_))

theorem State.ringStart_kept {z : State} (s : State) (r k : Nat) (h_s : Kept z s) : Kept z (State.ringStart s r k) := by
  unfold State.ringStart
  repeat' (first
    | with_reducible assumption
    | (intro x; subst x)
    | lift_lets -underBinder
    | with_reducible apply State.setRing_kept)

theorem State.flushPosted_kept {z : State} (s : State) (r : Nat) (st : Status) (h_s : Kept z s) : Kept z (State.flushPosted s r st) := by
  unfold State.flushPosted
  repeat' (first
    | with_reducible assumption
    | with_reducible apply Kept.ite
    | lift_lets -underBinder
    | with_reducible apply State.ringStart_kept
    | with_reducible apply State.complete_kept
    | with_reducible apply State.ringComplete_kept
    | with_reducible refine Kept.foldl ?_ (fun t x ht => ?_))

theorem State.forgetReports_kept {z : State} (s : State) (r : Nat) (h_s : Kept z s) : Kept z (s.forgetReports r) := by
  refine Kept.gen h_s rfl rfl (fun c => ?_)
  simp only [State.canon, State.regsWf, Bool.and_eq_true] at c ⊢
  simp only [c, and_self, and_true, true_and]
  exact SMap.wf_mapSome _ (by simp only [SMap.wf] at c; exact c.1.1.1.1.1.1.1.1.1.2)

theorem State.forgetRing_kept {z : State} (s : State) (r : Nat) (h_s : Kept z s) : Kept z (State.forgetRing s r) := by
  unfold State.forgetRing
  repeat' (first
    | with_reducible assumption
    | with_reducible apply Kept.ite
    | lift_lets -underBinder
    | with_reducible apply State.setRing_kept
    | with_reducible apply State.forgetReports_kept
    | with_reducible refine Kept.foldl ?_ (fun t x ht => ?_))

theorem State.disableRing_kept {z : State} (s : State) (r : Nat) (h_s : Kept z s) : Kept z (State.disableRing s r) := by
  unfold State.disableRing
  repeat' (first
    | with_reducible assumption
    | (intro x; refine Kept.cut (a := x) ?_ (fun _ => ?_) <;> [subst x; clear_value x])
    | lift_lets -underBinder
    | with_reducible apply State.dropFrx_kept
    | with_reducible apply State.wr_kept
    | with_reducible apply State.setRing_kept)

theorem State.endDrain_kept {z : State} (s : State) (r : Nat) (h_s : Kept z s) : Kept z (State.endDrain s r) := by
  unfold State.endDrain
  repeat' (first
    | with_reducible assumption
    | (intro x; subst x)
    | with_reducible apply Kept.ite
    | lift_lets -underBinder
    | with_reducible apply State.disableRing_kept
    | with_reducible apply State.setRing_kept
    | with_reducible apply State.finish_kept
    | split)

theorem State.ctxWrite_kept {z : State} (s : State) (p off t : Nat) (h_s : Kept z s) : Kept z (State.ctxWrite s p off t) := by
  unfold State.ctxWrite
  repeat' (first
    | with_reducible assumption
    | with_reducible apply State.raise_kept)

theorem State.unbindRing_kept {z : State} (s : State) (p r : Nat) (h_s : Kept z s) : Kept z (State.unbindRing s p r) := by
  unfold State.unbindRing
  repeat' (first
    | with_reducible assumption
    | (intro x; refine Kept.cut (a := x) ?_ (fun _ => ?_) <;> [subst x; clear_value x])
    | (intro x; subst x)
    | with_reducible apply Kept.ite
    | lift_lets -underBinder
    | with_reducible apply State.setRing_kept
    | with_reducible apply State.dropFrx_kept
    | with_reducible apply State.flushPosted_kept
    | with_reducible apply State.ctxWrite_kept
    | with_reducible apply State.forgetRing_kept
    | with_reducible apply State.disableRing_kept
    | split)

theorem State.slotUpdate_kept {z : State} (s : State) (r : Nat) (v : Word) (h_s : Kept z s) : Kept z (State.slotUpdate s r v) := by
  unfold State.slotUpdate
  repeat' (first
    | with_reducible assumption
    | with_reducible apply Kept.ite
    | lift_lets -underBinder
    | with_reducible apply State.setRing_kept
    | with_reducible apply State.endRun_kept
    | with_reducible apply State.flushRsp_kept
    | with_reducible apply State.stopRing_kept)

theorem State.resumePort_kept {z : State} (s : State) (p : Nat) (h_s : Kept z s) : Kept z (State.resumePort s p) := by
  unfold State.resumePort
  repeat' (first
    | with_reducible assumption
    | with_reducible apply Kept.ite
    | lift_lets -underBinder
    | with_reducible apply State.flushRing_kept
    | with_reducible apply State.flushEvt_kept
    | with_reducible apply State.endRun_kept
    | with_reducible apply State.flushRsp_kept
    | with_reducible refine Kept.foldl ?_ (fun t x ht => ?_))

theorem State.orphanRing_kept {z : State} (s : State) (r : Nat) (h_s : Kept z s) : Kept z (State.orphanRing s r) := by
  unfold State.orphanRing
  repeat' (first
    | with_reducible assumption
    | (intro x; refine Kept.cut (a := x) ?_ (fun _ => ?_) <;> [subst x; clear_value x])
    | (intro x; subst x)
    | with_reducible apply Kept.ite
    | lift_lets -underBinder
    | with_reducible apply State.setRing_kept
    | with_reducible apply State.finish_kept
    | split)

theorem State.ringRuns_kept {z : State} (s : State) (kind p : Nat) (rs : List Nat) (h_s : Kept z s) : Kept z (State.ringRuns s kind p rs) := by
  unfold State.ringRuns
  repeat' (first
    | with_reducible assumption
    | lift_lets -underBinder
    | with_reducible apply State.event_kept
    | with_reducible refine Kept.foldl ?_ (fun t x ht => ?_))

theorem State.linkState_kept {z : State} (s : State) (p : Nat) (h_s : Kept z s) : Kept z (State.linkState s p) := by
  unfold State.linkState
  repeat' (first
    | with_reducible assumption
    | (intro x; subst x)
    | lift_lets -underBinder
    | with_reducible apply State.event_kept)

theorem State.hostPortLost_kept {z : State} (s : State) (p : Nat) (h_s : Kept z s) : Kept z (State.hostPortLost s p) := by
  unfold State.hostPortLost
  repeat' (first
    | with_reducible assumption
    | (intro x; refine Kept.cut (a := x) ?_ (fun _ => ?_) <;> [subst x; clear_value x])
    | (intro x; subst x)
    | with_reducible apply Kept.ite
    | lift_lets -underBinder
    | with_reducible apply State.setPort_kept
    | with_reducible apply State.orphanRing_kept
    | with_reducible apply State.epReset_kept
    | with_reducible apply State.raise_kept
    | with_reducible apply State.linkState_kept
    | with_reducible apply State.ringRuns_kept
    | with_reducible apply State.lossOf_kept
    | with_reducible refine Kept.foldl ?_ (fun t x ht => ?_))

theorem State.portBack_kept {z : State} (s : State) (p : Nat) (h_s : Kept z s) : Kept z (State.portBack s p) := by
  unfold State.portBack
  repeat' (first
    | with_reducible assumption
    | with_reducible apply Kept.ite
    | lift_lets -underBinder
    | with_reducible apply State.setPort_kept
    | with_reducible apply State.linkState_kept
    | with_reducible apply State.resumePort_kept)

theorem State.linkDropped_kept {z : State} (s : State) (p : Nat) (h_s : Kept z s) : Kept z (State.linkDropped s p) := by
  unfold State.linkDropped
  repeat' (first
    | with_reducible assumption
    | (intro x; subst x)
    | lift_lets -underBinder
    | with_reducible apply State.setPort_kept)

theorem State.adoptRing_kept {z : State} (s : State) (p r base cbase : Nat) (slot : Nat) (h_s : Kept z s) : Kept z (State.adoptRing s p r base cbase slot) := by
  unfold State.adoptRing
  repeat' (first
    | with_reducible assumption
    | (intro x; refine Kept.cut (a := x) ?_ (fun _ => ?_) <;> [subst x; clear_value x])
    | with_reducible apply Kept.ite
    | lift_lets -underBinder
    | with_reducible apply State.setReg64_kept
    | with_reducible apply State.setRing_kept)

theorem State.adoptBanks_kept {z : State} (s : State) (p : Nat) (old : List Nat) (h_s : Kept z s) : Kept z (State.adoptBanks s p old) := by
  unfold State.adoptBanks
  repeat' (first
    | with_reducible assumption
    | with_reducible apply Kept.ite
    | lift_lets -underBinder
    | with_reducible apply State.supHandover_kept
    | with_reducible refine Kept.foldl ?_ (fun t x ht => ?_))

theorem State.adoptAll_kept {z : State} (s : State) (p : Nat) (tab : List (Nat × Nat × Nat × Nat)) (banks : Bool) (h_s : Kept z s) : Kept z (State.adoptAll s p tab banks) := by
  unfold State.adoptAll
  repeat' (first
    | with_reducible assumption
    | (intro x; refine Kept.cut (a := x) ?_ (fun _ => ?_) <;> [subst x; clear_value x])
    | (intro x; subst x)
    | with_reducible apply Kept.ite
    | lift_lets -underBinder
    | with_reducible apply State.adoptRing_kept
    | with_reducible apply State.flushRing_kept
    | with_reducible apply State.flushEvt_kept
    | with_reducible apply State.flushRsp_kept
    | with_reducible apply State.adoptBanks_kept
    | with_reducible apply State.endRun_kept
    | with_reducible apply State.ringRuns_kept
    | with_reducible refine Kept.foldl ?_ (fun t x ht => ?_))

theorem State.unbindAll_kept {z : State} (s : State) (h_s : Kept z s) : Kept z (State.unbindAll s) := by
  unfold State.unbindAll
  repeat' (first
    | with_reducible assumption
    | fail_if_no_progress (with_reducible refine Kept.gen ?_ rfl rfl (fun c => ?_) <;> [skip; (simp +zetaDelta only [State.canon, State.regsWf, Bool.and_eq_true] at c ⊢; simp +zetaDelta only [c, SMap.wf_set, SMap.wf_nil, SMap.wf_filter, SioSt.reset, SwcSt.reset, CvnSt.reset, PsqSt.reset, MbxSt.reset, and_self]; done)]))

end Sys2Proof.Machine
end

