-- ==== Sys2Proof/Laws/KeptCvnOps.lean ====
section
/-! SUPPORT. What the operations of Machine/CvnOps.lean keep. -/

namespace Sys2Proof.Machine

theorem State.cvnOut_kept {z : State} (s : State) (c : Nat) (f : CvnFrame) (stomp : Bool) (h_s : Kept z s) : Kept z (State.cvnOut s c f stomp) := by
  unfold State.cvnOut
  repeat' (first
    | with_reducible assumption
    | with_reducible apply Kept.ite
    | lift_lets -underBinder
    | with_reducible apply State.emit_kept)

theorem State.cvnCfgErr_kept {z : State} (s : State) (h_s : Kept z s) : Kept z (State.cvnCfgErr s) := by
  unfold State.cvnCfgErr
  repeat' (first
    | with_reducible assumption
    | with_reducible apply State.raise_kept)

theorem State.cvnRoot_kept {z : State} (s : State) (h_s : Kept z s) : Kept z (State.cvnRoot s) := by
  unfold State.cvnRoot
  repeat' (first
    | with_reducible assumption
    | with_reducible apply State.wr_kept)

theorem State.cvnTo_kept {z : State} (s : State) (c st : Nat) (h_s : Kept z s) : Kept z (State.cvnTo s c st) := by
  unfold State.cvnTo
  repeat' (first
    | with_reducible assumption
    | (intro x; refine Kept.cut (a := x) ?_ (fun _ => ?_) <;> [subst x; clear_value x])
    | lift_lets -underBinder
    | with_reducible apply State.wr_kept
    | with_reducible apply State.cvnRoot_kept
    | with_reducible apply State.event_kept)

theorem State.cvnChangeEnd_kept {z : State} (s : State) (c : Nat) (ch : CvnChange) (cause : Nat) (h_s : Kept z s) : Kept z (State.cvnChangeEnd s c ch cause) := by
  unfold State.cvnChangeEnd
  repeat' (first
    | with_reducible assumption
    | (intro x; refine Kept.cut (a := x) ?_ (fun _ => ?_) <;> [subst x; clear_value x])
    | lift_lets -underBinder
    | with_reducible apply State.onChan_kept
    | with_reducible apply State.wr_kept
    | with_reducible apply State.event_kept
    | with_reducible apply State.finish_kept)

theorem State.cvnAbandon_kept {z : State} (s : State) (c : Nat) (h_s : Kept z s) : Kept z (State.cvnAbandon s c) := by
  unfold State.cvnAbandon
  repeat' (first
    | with_reducible assumption
    | with_reducible apply State.cvnChangeEnd_kept
    | split)

theorem State.cvnUnfirst_kept {z : State} (s : State) (c : Nat) (h_s : Kept z s) : Kept z (State.cvnUnfirst s c) := by
  unfold State.cvnUnfirst
  repeat' (first
    | with_reducible assumption
    | lift_lets -underBinder
    | with_reducible apply State.cvnAbandon_kept
    | with_reducible apply State.wr_kept
    | with_reducible apply State.cvnRoot_kept)

theorem State.cvnListen_kept {z : State} (s : State) (c : Nat) (h_s : Kept z s) : Kept z (State.cvnListen s c) := by
  unfold State.cvnListen
  repeat' (first
    | with_reducible assumption
    | with_reducible apply Kept.ite
    | lift_lets -underBinder
    | with_reducible apply State.cvnUnfirst_kept
    | with_reducible apply State.wr_kept
    | with_reducible apply State.onChan_kept
    | with_reducible apply State.cvnTo_kept
    | with_reducible apply State.raiseFor_kept)

theorem State.cvnIntegrate_kept {z : State} (s : State) (c : Nat) (h_s : Kept z s) : Kept z (State.cvnIntegrate s c) := by
  unfold State.cvnIntegrate
  repeat' (first
    | with_reducible assumption
    | lift_lets -underBinder
    | with_reducible apply State.cvnUnfirst_kept
    | with_reducible apply State.onChan_kept
    | with_reducible apply State.cvnTo_kept)

theorem State.cvnBecomeFirst_kept {z : State} (s : State) (c : Nat) (h_s : Kept z s) : Kept z (State.cvnBecomeFirst s c) := by
  unfold State.cvnBecomeFirst
  repeat' (first
    | with_reducible assumption
    | (intro x; refine Kept.cut (a := x) ?_ (fun _ => ?_) <;> [subst x; clear_value x])
    | with_reducible apply Kept.ite
    | lift_lets -underBinder
    | with_reducible apply State.wr_kept
    | with_reducible apply State.onChan_kept
    | with_reducible apply State.cvnTo_kept)

theorem State.cvnValid_kept {z : State} (s : State) (c b : Nat) (v : Bool) (h_s : Kept z s) : Kept z (State.cvnValid s c b v) := by
  unfold State.cvnValid
  repeat' (first
    | with_reducible assumption
    | with_reducible apply State.wr_kept)

theorem State.cvnCheck_kept {z : State} (s : State) (c b : Nat) (h_s : Kept z s) : Kept z (State.cvnCheck s c b) := by
  unfold State.cvnCheck
  repeat' (first
    | with_reducible assumption
    | with_reducible apply Kept.ite
    | lift_lets -underBinder
    | with_reducible apply State.cvnValid_kept
    | with_reducible apply State.cvnCfgErr_kept)

theorem State.cvnRecheck_kept {z : State} (s : State) (c b : Nat) (h_s : Kept z s) : Kept z (State.cvnRecheck s c b) := by
  unfold State.cvnRecheck
  repeat' (first
    | with_reducible assumption
    | with_reducible apply Kept.ite
    | lift_lets -underBinder
    | with_reducible apply State.cvnCheck_kept
    | with_reducible apply State.cvnIntegrate_kept)

theorem State.cvnSetRate_kept {z : State} (s : State) (c : Nat) (slow : Bool) (h_s : Kept z s) : Kept z (State.cvnSetRate s c slow) := by
  unfold State.cvnSetRate
  repeat' (first
    | with_reducible assumption
    | with_reducible apply Kept.ite
    | lift_lets -underBinder
    | with_reducible apply State.wr_kept
    | with_reducible apply State.cvnRecheck_kept)

theorem State.cvnSwitch_kept {z : State} (s : State) (c mode : Nat) (h_s : Kept z s) : Kept z (State.cvnSwitch s c mode) := by
  unfold State.cvnSwitch
  repeat' (first
    | with_reducible assumption
    | lift_lets -underBinder
    | with_reducible apply State.wr_kept
    | with_reducible apply State.onChan_kept)

theorem State.cvnWrap_kept {z : State} (s : State) (c : Nat) (h_s : Kept z s) : Kept z (State.cvnWrap s c) := by
  unfold State.cvnWrap
  repeat' (first
    | with_reducible assumption
    | with_reducible apply Kept.ite
    | lift_lets -underBinder
    | with_reducible apply State.wr_kept
    | with_reducible apply State.event_kept
    | with_reducible apply State.raiseFor_kept)

theorem State.cvnDown_kept {z : State} (s : State) (c : Nat) (d : Bool) (h_s : Kept z s) : Kept z (State.cvnDown s c d) := by
  unfold State.cvnDown
  repeat' (first
    | with_reducible assumption
    | with_reducible apply Kept.ite
    | lift_lets -underBinder
    | with_reducible apply State.onChan_kept
    | with_reducible apply State.cvnWrap_kept
    | with_reducible apply State.cvnListen_kept)

theorem State.cvnWatch1_kept {z : State} (s : State) (p : Nat) (h_s : Kept z s) : Kept z (State.cvnWatch1 s p) := by
  unfold State.cvnWatch1
  repeat' (first
    | with_reducible assumption
    | with_reducible apply Kept.ite
    | lift_lets -underBinder
    | with_reducible apply State.cvnDown_kept)

theorem State.cvnWatch_kept {z : State} (s : State) (h_s : Kept z s) : Kept z (State.cvnWatch s) := by
  unfold State.cvnWatch
  repeat' (first
    | with_reducible assumption
    | lift_lets -underBinder
    | with_reducible apply State.cvnWatch1_kept
    | with_reducible refine Kept.foldl ?_ (fun t x ht => ?_))

theorem State.cvnTrained_kept {z : State} (s : State) (c : Nat) (h_s : Kept z s) : Kept z (State.cvnTrained s c) := by
  unfold State.cvnTrained
  repeat' (first
    | with_reducible assumption
    | with_reducible apply Kept.ite
    | lift_lets -underBinder
    | with_reducible apply State.cvnListen_kept)

theorem State.cvnRetrain_kept {z : State} (s : State) (p : Nat) (slow : Bool) (h_s : Kept z s) : Kept z (State.cvnRetrain s p slow) := by
  unfold State.cvnRetrain
  repeat' (first
    | with_reducible assumption
    | (intro x; refine Kept.cut (a := x) ?_ (fun _ => ?_) <;> [subst x; clear_value x])
    | lift_lets -underBinder
    | with_reducible apply State.linkLost_kept
    | with_reducible apply State.startSearch_kept
    | with_reducible apply State.onChan_kept
    | with_reducible apply State.cvnWatch1_kept)

theorem State.cvnAnnounced_kept {z : State} (s : State) (c : Nat) (slow : Bool) (h_s : Kept z s) : Kept z (State.cvnAnnounced s c slow) := by
  unfold State.cvnAnnounced
  repeat' (first
    | with_reducible assumption
    | (intro x; subst x)
    | with_reducible apply Kept.ite
    | lift_lets -underBinder
    | with_reducible apply State.cvnRetrain_kept
    | with_reducible apply State.cvnSetRate_kept)

theorem State.cvnSilence_kept {z : State} (s : State) (c cycle : Nat) (h_s : Kept z s) : Kept z (State.cvnSilence s c cycle) := by
  unfold State.cvnSilence
  repeat' (first
    | with_reducible assumption
    | (intro x; refine Kept.cut (a := x) ?_ (fun _ => ?_) <;> [subst x; clear_value x])
    | (intro x; subst x)
    | with_reducible apply Kept.ite
    | lift_lets -underBinder
    | with_reducible apply State.cvnUnfirst_kept
    | with_reducible apply State.onChan_kept
    | with_reducible apply State.cvnTo_kept
    | with_reducible apply State.raise_kept
    | with_reducible apply State.event_kept
    | fail_if_no_progress (with_reducible refine Kept.upd ?_ rfl rfl rfl rfl rfl rfl rfl rfl rfl rfl rfl rfl rfl rfl rfl rfl rfl rfl rfl rfl rfl rfl rfl rfl rfl))

theorem State.cvnViolate_kept {z : State} (s : State) (c cycle : Nat) (h_s : Kept z s) : Kept z (State.cvnViolate s c cycle) := by
  unfold State.cvnViolate
  repeat' (first
    | with_reducible assumption
    | (intro x; subst x)
    | with_reducible apply Kept.ite
    | lift_lets -underBinder
    | with_reducible apply State.cvnSilence_kept
    | fail_if_no_progress (with_reducible refine Kept.upd ?_ rfl rfl rfl rfl rfl rfl rfl rfl rfl rfl rfl rfl rfl rfl rfl rfl rfl rfl rfl rfl rfl rfl rfl rfl rfl)
    | split)

theorem State.cvnFreq_kept {z : State} (s : State) (x : Int) (h_s : Kept z s) : Kept z (State.cvnFreq s x) := by
  unfold State.cvnFreq
  repeat' (first
    | with_reducible assumption
    | (intro x; subst x)
    | with_reducible apply Kept.ite
    | lift_lets -underBinder
    | with_reducible apply State.setReg_kept
    | with_reducible apply State.tbValid_kept
    | with_reducible apply State.wr_kept
    | with_reducible apply State.raise_kept
    | with_reducible apply State.setFreq_kept)

theorem State.cvnSteer_kept {z : State} (s : State) (c : Nat) (theta : Int) (h_s : Kept z s) : Kept z (State.cvnSteer s c theta).2 := by
  unfold State.cvnSteer
  repeat' (first
    | with_reducible assumption
    | (intro x; refine Kept.cut (a := x) ?_ (fun _ => ?_) <;> [subst x; clear_value x])
    | (intro x; subst x)
    | with_reducible apply Kept.ite2
    | lift_lets -underBinder
    | with_reducible apply State.stepTime_kept
    | with_reducible apply State.bump_kept
    | with_reducible apply State.onChan_kept
    | with_reducible apply State.cvnFreq_kept)

theorem State.cvnModeSeen_kept {z : State} (s : State) (c mode : Nat) (first : Bool) (h_s : Kept z s) : Kept z (State.cvnModeSeen s c mode first) := by
  unfold State.cvnModeSeen
  repeat' (first
    | with_reducible assumption
    | with_reducible apply Kept.ite
    | lift_lets -underBinder
    | with_reducible apply State.wr_kept
    | with_reducible apply State.cvnIntegrate_kept
    | with_reducible apply State.cvnSwitch_kept
    | with_reducible apply State.cvnCfgErr_kept)

theorem State.cvnCount_kept {z : State} (s : State) (c : Nat) (near : Bool) (mode : Nat) (h_s : Kept z s) : Kept z (State.cvnCount s c near mode) := by
  unfold State.cvnCount
  repeat' (first
    | with_reducible assumption
    | with_reducible apply Kept.ite
    | lift_lets -underBinder
    | with_reducible apply State.onChan_kept
    | with_reducible apply State.cvnTo_kept)

theorem State.cvnFollow_kept {z : State} (s : State) (c : Nat) (f : CvnFrame) (path t : Nat) (h_s : Kept z s) : Kept z (State.cvnFollow s c f path t) := by
  unfold State.cvnFollow
  repeat' (first
    | with_reducible assumption
    | with_reducible apply Kept.ite
    | with_reducible apply Kept.ite2
    | lift_lets -underBinder
    | with_reducible apply State.wr_kept
    | with_reducible apply State.onChan_kept
    | with_reducible apply State.setReg_kept
    | with_reducible apply State.cvnSteer_kept
    | with_reducible apply State.cvnViolate_kept
    | with_reducible apply State.cvnModeSeen_kept
    | with_reducible apply State.cvnAnnounced_kept
    | with_reducible apply State.cvnCount_kept)

theorem State.cvnCs_kept {z : State} (s : State) (c : Nat) (f : CvnFrame) (path t : Nat) (h_s : Kept z s) : Kept z (State.cvnCs s c f path t) := by
  unfold State.cvnCs
  repeat' (first
    | with_reducible assumption
    | with_reducible apply Kept.ite
    | lift_lets -underBinder
    | with_reducible apply State.cvnCfgErr_kept
    | with_reducible apply State.cvnIntegrate_kept
    | with_reducible apply State.cvnFollow_kept
    | with_reducible apply State.onChan_kept
    | with_reducible apply State.event_kept
    | with_reducible apply State.cvnListen_kept)

theorem State.areaLoad_kept {z : State} (s : State) (e : CvnEnt) (off size : Nat) (ecc : Ecc) (h_s : Kept z s) : Kept z (State.areaLoad s e off size ecc).2 := by
  unfold State.areaLoad
  repeat' (first
    | with_reducible assumption
    | lift_lets -underBinder
    | with_reducible apply State.bankLoad_kept
    | (with_reducible refine Kept.ofPair (by assumption) ?_)
    | split)

theorem State.areaStore_kept {z : State} (s : State) (e : CvnEnt) (off : Nat) (bs : List Byte) (h_s : Kept z s) : Kept z (State.areaStore s e off bs) := by
  unfold State.areaStore
  repeat' (first
    | with_reducible assumption
    | with_reducible apply State.bankStore_kept)

theorem State.areaFill_kept {z : State} (fuel : Nat) (s : State) (e : CvnEnt) (off : Nat) (bs : List Byte) (h_s : Kept z s) : Kept z (State.areaFill fuel s e off bs) := by
  induction fuel generalizing s e off bs with
  | zero =>
    simp only [State.areaFill]
    first | assumption | repeat' (first | assumption | split)
  | succ n ih =>
    unfold State.areaFill
    repeat' (first
      | with_reducible assumption
      | apply ih
      | with_reducible apply Kept.ite
      | lift_lets -underBinder
      | with_reducible apply State.areaStore_kept)

theorem State.areaRead_kept {z : State} (fuel : Nat) (s : State) (e : CvnEnt) (off len : Nat) (ecc : Ecc) (h_s : Kept z s) : Kept z (State.areaRead fuel s e off len ecc).2 := by
  induction fuel generalizing s e off len ecc with
  | zero =>
    simp only [State.areaRead]
    first | assumption | repeat' (first | assumption | split)
  | succ n ih =>
    unfold State.areaRead
    repeat' (first
      | with_reducible assumption
      | apply ih
      | with_reducible apply Kept.ite2
      | lift_lets -underBinder
      | with_reducible apply State.areaLoad_kept
      | (with_reducible refine Kept.ofPair (by assumption) ?_)
      | split)

theorem State.areaCtl_kept {z : State} (s : State) (e : CvnEnt) (h_s : Kept z s) : Kept z (State.areaCtl s e).2 := by
  unfold State.areaCtl
  repeat' (first
    | with_reducible assumption
    | with_reducible apply State.areaLoad_kept)

theorem State.ctlSet_kept {z : State} (s : State) (e : CvnEnt) (bit : Nat) (h_s : Kept z s) : Kept z (State.ctlSet s e bit) := by
  unfold State.ctlSet
  repeat' (first
    | with_reducible assumption
    | lift_lets -underBinder
    | with_reducible apply State.areaCtl_kept
    | with_reducible apply State.areaStore_kept
    | (with_reducible refine Kept.ofPair (by assumption) ?_)
    | split)

theorem State.publish_kept {z : State} (s : State) (e : CvnEnt) (f : CvnFrame) (cycle : Nat) (edge : Bool) (h_s : Kept z s) : Kept z (State.publish s e f cycle edge) := by
  unfold State.publish
  repeat' (first
    | with_reducible assumption
    | (intro x; refine Kept.cut (a := x) ?_ (fun _ => ?_) <;> [subst x; clear_value x])
    | (intro x; subst x)
    | lift_lets -underBinder
    | with_reducible apply State.areaCtl_kept
    | with_reducible apply State.areaLoad_kept
    | with_reducible apply State.areaStore_kept
    | with_reducible apply State.areaFill_kept
    | (with_reducible refine Kept.ofPair (by assumption) ?_)
    | split)

theorem State.cvnSlotFrame_kept {z : State} (s : State) (c : Nat) (f : CvnFrame) (path t : Nat) (act : State → CvnEnt → Bool → State) (h_s : Kept z s) (h_act : ∀ x0 x1 x2, Kept z x0 → Kept z (act x0 x1 x2)) : Kept z (State.cvnSlotFrame s c f path t act).2 := by
  unfold State.cvnSlotFrame
  repeat' (first
    | with_reducible assumption
    | (intro x; refine Kept.cut (a := x) ?_ (fun _ => ?_) <;> [subst x; clear_value x])
    | (intro x; subst x)
    | with_reducible apply Kept.ite
    | with_reducible apply Kept.ite2
    | lift_lets -underBinder
    | with_reducible apply State.bump_kept
    | with_reducible apply State.raiseFor_kept
    | with_reducible refine Kept.foldl2 ?_ (fun t x ht => ?_)
    | apply h_act)

theorem State.cvnMove_kept {z : State} (s : State) (c e : Nat) (ent : CvnEnt) (complete : Bool) (ecc : Ecc) (h_s : Kept z s) : Kept z (State.cvnMove s c e ent complete ecc) := by
  unfold State.cvnMove
  repeat' (first
    | with_reducible assumption
    | (intro x; subst x)
    | with_reducible apply Kept.ite
    | lift_lets -underBinder
    | with_reducible apply State.onChan_kept
    | with_reducible apply State.areaCtl_kept
    | with_reducible apply State.areaStore_kept
    | with_reducible apply State.areaRead_kept
    | (with_reducible refine Kept.ofPair (by assumption) ?_)
    | split)

theorem State.cvnBlocked_kept {z : State} (s : State) (c : Nat) (h_s : Kept z s) : Kept z (State.cvnBlocked s c) := by
  unfold State.cvnBlocked
  repeat' (first
    | with_reducible assumption
    | with_reducible apply State.bump_kept)

theorem State.cvnGuard_kept {z : State} (s : State) (c : Nat) (allowed : Bool) (f : CvnFrame) (h_s : Kept z s) : Kept z (State.cvnGuard s c allowed f) := by
  unfold State.cvnGuard
  repeat' (first
    | with_reducible assumption
    | with_reducible apply Kept.ite
    | lift_lets -underBinder
    | with_reducible apply State.cvnOut_kept
    | with_reducible apply State.cvnBlocked_kept
    | with_reducible apply State.raise_kept)

theorem State.cvnBeginLeave_kept {z : State} (s : State) (c : Nat) (h_s : Kept z s) : Kept z (State.cvnBeginLeave s c) := by
  unfold State.cvnBeginLeave
  repeat' (first
    | with_reducible assumption
    | (intro x; subst x)
    | with_reducible apply Kept.ite
    | lift_lets -underBinder
    | with_reducible apply State.cvnAbandon_kept
    | with_reducible apply State.onChan_kept)

theorem State.cvnLeaveAll_kept {z : State} (s : State) (h_s : Kept z s) : Kept z (State.cvnLeaveAll s) := by
  unfold State.cvnLeaveAll
  repeat' (first
    | with_reducible assumption
    | lift_lets -underBinder
    | with_reducible apply State.cvnBeginLeave_kept)

theorem State.cvnRejoin_kept {z : State} (s : State) (h_s : Kept z s) : Kept z (State.cvnRejoin s) := by
  unfold State.cvnRejoin
  repeat' (first
    | with_reducible assumption
    | lift_lets -underBinder
    | with_reducible apply State.onChan_kept
    | with_reducible refine Kept.foldl ?_ (fun t x ht => ?_))

theorem State.cvnTell_kept {z : State} (s : State) (c cycle e : Nat) (h_s : Kept z s) : Kept z (State.cvnTell s c cycle e) := by
  unfold State.cvnTell
  repeat' (first
    | with_reducible assumption
    | (intro x; subst x)
    | with_reducible apply Kept.ite
    | lift_lets -underBinder
    | with_reducible apply State.onChan_kept
    | with_reducible apply State.cvnOut_kept)

theorem State.cvnTellCycle_kept {z : State} (s : State) (c cycle : Nat) (h_s : Kept z s) : Kept z (State.cvnTellCycle s c cycle) := by
  unfold State.cvnTellCycle
  repeat' (first
    | with_reducible assumption
    | (intro x; subst x)
    | lift_lets -underBinder
    | with_reducible apply State.cvnTell_kept
    | with_reducible refine Kept.foldl ?_ (fun t x ht => ?_))

theorem State.cvnSetEn_kept {z : State} (s : State) (c : Nat) (en : Bool) (h_s : Kept z s) : Kept z (State.cvnSetEn s c en) := by
  unfold State.cvnSetEn
  repeat' (first
    | with_reducible assumption
    | (intro x; refine Kept.cut (a := x) ?_ (fun _ => ?_) <;> [subst x; clear_value x])
    | with_reducible apply Kept.ite
    | lift_lets -underBinder
    | with_reducible apply State.wr_kept
    | with_reducible apply State.onChan_kept
    | with_reducible apply State.cvnTo_kept
    | with_reducible apply State.cvnTrained_kept
    | with_reducible apply State.cvnUnfirst_kept)

theorem State.cvnCfgWrite_kept {z : State} (s : State) (c : Nat) (v : Word) (h_s : Kept z s) : Kept z (State.cvnCfgWrite s c v) := by
  unfold State.cvnCfgWrite
  repeat' (first
    | with_reducible assumption
    | (intro x; subst x)
    | with_reducible apply Kept.ite
    | lift_lets -underBinder
    | with_reducible apply State.cvnCfgErr_kept
    | with_reducible apply State.regWrite_kept
    | with_reducible apply State.wr_kept
    | with_reducible apply State.cvnSetEn_kept)

theorem State.cvnTableWrite_kept {z : State} (s : State) (c b e k : Nat) (v : Word) (h_s : Kept z s) : Kept z (State.cvnTableWrite s c b e k v) := by
  unfold State.cvnTableWrite
  repeat' (first
    | with_reducible assumption
    | with_reducible apply Kept.ite
    | lift_lets -underBinder
    | with_reducible apply State.cvnCfgErr_kept
    | with_reducible apply State.regWrite_kept
    | with_reducible apply State.cvnValid_kept
    | with_reducible apply State.cvnCheck_kept)

theorem State.cvnLoad_kept {z : State} (s : State) (c : Nat) (img : List Byte) (h_s : Kept z s) : Kept z (State.cvnLoad s c img).2 := by
  unfold State.cvnLoad
  repeat' (first
    | with_reducible assumption
    | (intro x; refine Kept.cut (a := x) ?_ (fun _ => ?_) <;> [subst x; clear_value x])
    | (intro x; subst x)
    | lift_lets -underBinder
    | with_reducible apply State.regWrite_kept
    | with_reducible apply State.cvnValid_kept
    | with_reducible apply State.cvnCheck_kept
    | with_reducible refine Kept.foldl ?_ (fun t x ht => ?_))

theorem State.dlyReq_kept {z : State} (s : State) (p : Nat) (h_s : Kept z s) : Kept z (State.dlyReq s p) := by
  unfold State.dlyReq
  repeat' (first
    | with_reducible assumption
    | (intro x; subst x)
    | with_reducible apply Kept.ite
    | lift_lets -underBinder
    | with_reducible apply State.setChan_kept
    | with_reducible apply State.emit_kept)

theorem State.dlyValue_kept {z : State} (s : State) (p v : Nat) (h_s : Kept z s) : Kept z (State.dlyValue s p v) := by
  unfold State.dlyValue
  repeat' (first
    | with_reducible assumption
    | (intro x; subst x)
    | with_reducible apply Kept.ite
    | lift_lets -underBinder
    | with_reducible apply State.onChan_kept
    | with_reducible apply State.setReg_kept)

end Sys2Proof.Machine
end

