-- ==== Sys2Proof/Laws/KeptSioOps.lean ====
section
/-! SUPPORT. What the operations of Machine/SioOps.lean keep. -/

set_option linter.unusedSimpArgs false

namespace Sys2Proof.Machine

theorem State.setPair_kept {z : State} (s : State) (k : Nat) (x : SioPair) (h_s : Kept z s) : Kept z (State.setPair s k x) := by
  obtain ⟨h1, h2, h3⟩ := h_s
  refine ⟨h1, h2, fun c => ?_⟩
  have h4 := h3 c
  simp only [State.canon, State.regsWf, State.setPair, Bool.and_eq_true] at h4 ⊢
  simp only [h4, SMap.wf_set, and_self]

theorem State.setDi_kept {z : State} (s : State) (ch : Nat) (x : SioDi) (h_s : Kept z s) : Kept z (State.setDi s ch x) := by
  obtain ⟨h1, h2, h3⟩ := h_s
  refine ⟨h1, h2, fun c => ?_⟩
  have h4 := h3 c
  simp only [State.canon, State.regsWf, State.setDi, Bool.and_eq_true] at h4 ⊢
  simp only [h4, SMap.wf_set, and_self]

theorem State.setDq_kept {z : State} (s : State) (m : Nat) (x : SioDq) (h_s : Kept z s) : Kept z (State.setDq s m x) := by
  obtain ⟨h1, h2, h3⟩ := h_s
  refine ⟨h1, h2, fun c => ?_⟩
  have h4 := h3 c
  simp only [State.canon, State.regsWf, State.setDq, Bool.and_eq_true] at h4 ⊢
  simp only [h4, SMap.wf_set, and_self]

theorem State.onDq_kept {z : State} (s : State) (m : Nat) (f : SioDq → SioDq) (h_s : Kept z s) : Kept z (State.onDq s m f) := by
  unfold State.onDq
  repeat' (first
    | with_reducible assumption
    | with_reducible apply State.setDq_kept)

theorem State.raiseSio_kept {z : State} (s : State) (src x : Nat) (h_s : Kept z s) : Kept z (State.raiseSio s src x) := by
  unfold State.raiseSio
  repeat' (first
    | with_reducible assumption
    | with_reducible apply State.raise_kept)

theorem State.dqOff_kept {z : State} (s : State) (m : Nat) (h_s : Kept z s) : Kept z (State.dqOff s m) := by
  unfold State.dqOff
  repeat' (first
    | with_reducible assumption
    | with_reducible apply State.onDq_kept)

theorem State.dqHold_kept {z : State} (s : State) (m : Nat) (h_s : Kept z s) : Kept z (State.dqHold s m) := by
  unfold State.dqHold
  repeat' (first
    | with_reducible assumption
    | with_reducible apply State.onDq_kept)

theorem State.allDq_kept {z : State} (s : State) (f : State → Nat → State) (h_s : Kept z s) (h_f : ∀ x0 x1, Kept z x0 → Kept z (f x0 x1)) : Kept z (State.allDq s f) := by
  unfold State.allDq
  repeat' (first
    | with_reducible assumption
    | lift_lets -underBinder
    | with_reducible refine Kept.foldl ?_ (fun t x ht => ?_)
    | apply h_f)

theorem State.dqCommand_kept {z : State} (s : State) (m : Nat) (bit : Bool) (h_s : Kept z s) : Kept z (State.dqCommand s m bit) := by
  unfold State.dqCommand
  repeat' (first
    | with_reducible assumption
    | (intro x; subst x)
    | with_reducible apply Kept.ite
    | lift_lets -underBinder
    | with_reducible apply State.setDq_kept)

theorem State.dqShow_kept {z : State} (s : State) (m : Nat) (h_s : Kept z s) : Kept z (State.dqShow s m) := by
  unfold State.dqShow
  repeat' (first
    | with_reducible assumption
    | with_reducible apply Kept.ite
    | lift_lets -underBinder
    | with_reducible apply State.wr_kept
    | with_reducible apply State.event_kept)

theorem State.pairShow_kept {z : State} (s : State) (k : Nat) (h_s : Kept z s) : Kept z (State.pairShow s k) := by
  unfold State.pairShow
  repeat' (first
    | with_reducible assumption
    | with_reducible refine fun t => ?_
    | with_reducible apply Kept.ite
    | lift_lets -underBinder
    | with_reducible apply State.wr_kept
    | with_reducible apply State.allDq_kept
    | with_reducible apply State.dqHold_kept
    | with_reducible apply State.onDq_kept)

theorem State.pairEvent_kept {z : State} (s : State) (k what : Nat) (h_s : Kept z s) : Kept z (State.pairEvent s k what) := by
  unfold State.pairEvent
  repeat' (first
    | with_reducible assumption
    | with_reducible apply State.event_kept)

theorem State.pairTrack_kept {z : State} (s : State) (k : Nat) (h_s : Kept z s) : Kept z (State.pairTrack s k) := by
  unfold State.pairTrack
  repeat' (first
    | with_reducible assumption
    | (intro x; refine Kept.cut (a := x) ?_ (fun _ => ?_) <;> [subst x; clear_value x])
    | with_reducible apply Kept.ite
    | lift_lets -underBinder
    | with_reducible apply State.setPair_kept
    | with_reducible apply State.wr_kept
    | with_reducible apply State.bump_kept
    | with_reducible apply State.pairEvent_kept)

theorem State.diFail_kept {z : State} (s : State) (ch src : Nat) (h_s : Kept z s) : Kept z (State.diFail s ch src) := by
  unfold State.diFail
  repeat' (first
    | with_reducible assumption
    | with_reducible apply Kept.ite
    | lift_lets -underBinder
    | with_reducible apply State.raiseSio_kept
    | with_reducible apply State.setDi_kept
    | with_reducible apply State.pairEvent_kept)

theorem State.joinWindow_kept {z : State} (s : State) (j kind : Nat) (h_s : Kept z s) : Kept z (State.joinWindow s j kind) := by
  unfold State.joinWindow
  repeat' (first
    | with_reducible assumption
    | (intro x; subst x)
    | with_reducible apply Kept.ite
    | lift_lets -underBinder
    | with_reducible apply State.raiseSio_kept
    | fail_if_no_progress (with_reducible refine Kept.upd ?_ rfl rfl rfl rfl rfl rfl rfl rfl rfl rfl rfl rfl rfl rfl rfl rfl rfl rfl rfl rfl rfl rfl rfl rfl rfl))

theorem State.joinSync_kept {z : State} (s : State) (h_s : Kept z s) : Kept z (State.joinSync s) := by
  unfold State.joinSync
  repeat' (first
    | with_reducible assumption
    | (intro x; subst x)
    | lift_lets -underBinder
    | fail_if_no_progress (with_reducible refine Kept.upd ?_ rfl rfl rfl rfl rfl rfl rfl rfl rfl rfl rfl rfl rfl rfl rfl rfl rfl rfl rfl rfl rfl rfl rfl rfl rfl))

theorem State.soteShow_kept {z : State} (s : State) (h_s : Kept z s) : Kept z (State.soteShow s) := by
  unfold State.soteShow
  repeat' (first
    | with_reducible assumption
    | with_reducible apply Kept.ite
    | lift_lets -underBinder
    | with_reducible apply State.wr_kept
    | with_reducible apply State.setPin_kept)

theorem State.sioSync_kept {z : State} (s : State) (h_s : Kept z s) : Kept z (State.sioSync s) := by
  unfold State.sioSync
  repeat' (first
    | with_reducible assumption
    | with_reducible refine fun t => ?_
    | (intro x; refine Kept.cut (a := x) ?_ (fun _ => ?_) <;> [subst x; clear_value x])
    | lift_lets -underBinder
    | with_reducible apply State.pairShow_kept
    | with_reducible apply State.joinSync_kept
    | with_reducible apply State.allDq_kept
    | with_reducible apply State.dqShow_kept
    | with_reducible apply State.soteShow_kept
    | with_reducible refine Kept.foldl ?_ (fun t x ht => ?_))

theorem State.sioTo_kept {z : State} (s : State) (st cause : Nat) (h_s : Kept z s) : Kept z (State.sioTo s st cause) := by
  unfold State.sioTo
  repeat' (first
    | with_reducible assumption
    | with_reducible refine fun t => ?_
    | (intro x; refine Kept.cut (a := x) ?_ (fun _ => ?_) <;> [subst x; clear_value x])
    | with_reducible apply Kept.ite
    | lift_lets -underBinder
    | with_reducible apply State.allDq_kept
    | with_reducible apply State.dqOff_kept
    | with_reducible apply State.onDq_kept
    | with_reducible apply State.wr_kept
    | with_reducible apply State.event_kept)

theorem State.sioFollow_kept {z : State} (s : State) (h_s : Kept z s) : Kept z (State.sioFollow s) := by
  unfold State.sioFollow
  repeat' (first
    | with_reducible assumption
    | (intro x; subst x)
    | with_reducible apply Kept.ite
    | lift_lets -underBinder
    | with_reducible apply State.sioSync_kept
    | with_reducible apply State.sioTo_kept
    | fail_if_no_progress (with_reducible refine Kept.upd ?_ rfl rfl rfl rfl rfl rfl rfl rfl rfl rfl rfl rfl rfl rfl rfl rfl rfl rfl rfl rfl rfl rfl rfl rfl rfl))

theorem State.sioDemand_kept {z : State} (s : State) (cause : Nat) (h_s : Kept z s) : Kept z (State.sioDemand s cause) := by
  unfold State.sioDemand
  repeat' (first
    | with_reducible assumption
    | (intro x; refine Kept.cut (a := x) ?_ (fun _ => ?_) <;> [subst x; clear_value x])
    | (intro x; subst x)
    | with_reducible apply Kept.ite
    | lift_lets -underBinder
    | with_reducible apply State.wr_kept
    | with_reducible apply State.sioTo_kept
    | with_reducible apply State.later_kept
    | fail_if_no_progress (with_reducible refine Kept.upd ?_ rfl rfl rfl rfl rfl rfl rfl rfl rfl rfl rfl rfl rfl rfl rfl rfl rfl rfl rfl rfl rfl rfl rfl rfl rfl))

theorem State.dqFail_kept {z : State} (s : State) (m code src : Nat) (h_s : Kept z s) : Kept z (State.dqFail s m code src) := by
  unfold State.dqFail
  repeat' (first
    | with_reducible assumption
    | with_reducible apply Kept.ite
    | lift_lets -underBinder
    | with_reducible apply State.onDq_kept
    | with_reducible apply State.raiseSio_kept
    | with_reducible apply State.sioDemand_kept)

theorem State.halfOut_kept {z : State} (s : State) (m : Nat) (a worn : Bool) (h_s : Kept z s) : Kept z (State.halfOut s m a worn) := by
  unfold State.halfOut
  repeat' (first
    | with_reducible assumption
    | with_reducible apply Kept.ite
    | lift_lets -underBinder
    | with_reducible apply State.setDq_kept
    | with_reducible apply State.raiseSio_kept)

theorem State.sioPend_kept {z : State} (s : State) (h_s : Kept z s) : Kept z (State.sioPend s) := by
  unfold State.sioPend
  repeat' (first
    | with_reducible assumption
    | with_reducible apply State.setReg_kept)

theorem State.sioPut_kept {z : State} (s : State) (ws : List Word) (h_s : Kept z s) : Kept z (State.sioPut s ws) := by
  unfold State.sioPut
  repeat' (first
    | with_reducible assumption
    | lift_lets -underBinder
    | with_reducible apply State.setReg_kept
    | with_reducible apply State.sioPend_kept
    | with_reducible refine Kept.foldl ?_ (fun t x ht => ?_))

theorem State.sioReload_kept {z : State} (s : State) (h_s : Kept z s) : Kept z (State.sioReload s) := by
  unfold State.sioReload
  repeat' (first
    | with_reducible assumption
    | with_reducible apply Kept.ite
    | lift_lets -underBinder
    | with_reducible apply State.sioPut_kept
    | with_reducible apply State.setReg_kept
    | with_reducible apply State.sioPend_kept
    | split)

theorem State.sioRelock_kept {z : State} (s : State) (h_s : Kept z s) : Kept z (State.sioRelock s) := by
  unfold State.sioRelock
  repeat' (first
    | with_reducible assumption
    | with_reducible apply Kept.ite
    | lift_lets -underBinder
    | with_reducible apply State.wr_kept
    | with_reducible apply State.sioReload_kept
    | with_reducible apply State.sioSync_kept)

theorem State.sioLogShow_kept {z : State} (s : State) (h_s : Kept z s) : Kept z (State.sioLogShow s) := by
  unfold State.sioLogShow
  repeat' (first
    | with_reducible assumption
    | lift_lets -underBinder
    | with_reducible apply State.wr_kept)

theorem State.sioLog_kept {z : State} (s : State) (kind port crc old new : Nat) (h_s : Kept z s) : Kept z (State.sioLog s kind port crc old new) := by
  unfold State.sioLog
  repeat' (first
    | with_reducible assumption
    | (intro x; refine Kept.cut (a := x) ?_ (fun _ => ?_) <;> [subst x; clear_value x])
    | (intro x; subst x)
    | lift_lets -underBinder
    | with_reducible apply State.sioLogShow_kept
    | with_reducible apply State.event_kept
    | fail_if_no_progress (with_reducible refine Kept.upd ?_ rfl rfl rfl rfl rfl rfl rfl rfl rfl rfl rfl rfl rfl rfl rfl rfl rfl rfl rfl rfl rfl rfl rfl rfl rfl))

theorem State.sioReset_kept {z : State} (s : State) (cause : Nat) (h_s : Kept z s) : Kept z (State.sioReset s cause) := by
  unfold State.sioReset
  repeat' (first
    | with_reducible assumption
    | with_reducible refine fun t => ?_
    | (intro x; refine Kept.cut (a := x) ?_ (fun _ => ?_) <;> [subst x; clear_value x])
    | lift_lets -underBinder
    | with_reducible apply State.allDq_kept
    | with_reducible apply State.dqOff_kept
    | with_reducible apply State.resetRegs_kept
    | with_reducible apply State.wr_kept
    | with_reducible apply State.event_kept
    | with_reducible apply State.sioSync_kept
    | fail_if_no_progress (with_reducible refine Kept.gen ?_ rfl rfl (fun c => ?_) <;> [skip; (simp +zetaDelta only [State.canon, State.regsWf, Bool.and_eq_true] at c ⊢; simp +zetaDelta only [c, SMap.wf_set, SMap.wf_nil, SMap.wf_filter, SioSt.reset, SwcSt.reset, CvnSt.reset, PsqSt.reset, MbxSt.reset, and_self]; done)]))

theorem State.thermalCycles_kept {z : State} (s : State) (u k : Nat) (h_s : Kept z s) : Kept z (State.thermalCycles s u k) := by
  unfold State.thermalCycles
  repeat' (first
    | with_reducible assumption
    | with_reducible apply State.bump_kept)

end Sys2Proof.Machine
end

