-- ==== Sys2Proof/Laws/KeptModeOps.lean ====
section
/-! SUPPORT. What the operations of Machine/ModeOps.lean keep. -/

set_option linter.unusedSimpArgs false

namespace Sys2Proof.Machine

theorem State.flushFaultLog_kept {z : State} (s : State) (h_s : Kept z s) : Kept z (State.flushFaultLog s) := by
  unfold State.flushFaultLog
  repeat' (first
    | with_reducible assumption
    | (intro x; subst x)
    | lift_lets -underBinder
    | fail_if_no_progress (with_reducible refine Kept.upd ?_ rfl rfl rfl rfl rfl rfl rfl rfl rfl rfl rfl rfl rfl rfl rfl rfl rfl rfl rfl rfl rfl rfl rfl rfl rfl))

theorem State.flushWear_kept {z : State} (s : State) (h_s : Kept z s) : Kept z (State.flushWear s) := by
  unfold State.flushWear
  repeat' (first
    | with_reducible assumption
    | (intro x; subst x)
    | lift_lets -underBinder
    | fail_if_no_progress (with_reducible refine Kept.upd ?_ rfl rfl rfl rfl rfl rfl rfl rfl rfl rfl rfl rfl rfl rfl rfl rfl rfl rfl rfl rfl rfl rfl rfl rfl rfl))

theorem State.updMirror_kept {z : State} (s : State) (h_s : Kept z s) : Kept z (State.updMirror s) := by
  unfold State.updMirror
  repeat' (first
    | with_reducible assumption
    | with_reducible apply State.setReg_kept
    | split)

theorem State.updTell_kept {z : State} (s : State) (h_s : Kept z s) : Kept z (State.updTell s) := by
  unfold State.updTell
  repeat' (first
    | with_reducible assumption
    | with_reducible apply State.event_kept)

theorem State.updAppend_kept {z : State} (s : State) (k : UpdKind) (slotB : Bool) (version progress : Nat) (h_s : Kept z s) : Kept z (State.updAppend s k slotB version progress) := by
  unfold State.updAppend
  repeat' (first
    | with_reducible assumption
    | (intro x; subst x)
    | lift_lets -underBinder
    | with_reducible apply State.updMirror_kept
    | with_reducible apply State.updTell_kept
    | fail_if_no_progress (with_reducible refine Kept.upd ?_ rfl rfl rfl rfl rfl rfl rfl rfl rfl rfl rfl rfl rfl rfl rfl rfl rfl rfl rfl rfl rfl rfl rfl rfl rfl))

theorem State.setFlash_kept {z : State} (s : State) (b : Bool) (x : FlashSlot) (h_s : Kept z s) : Kept z (State.setFlash s b x) := by
  unfold State.setFlash
  repeat' (first
    | with_reducible assumption
    | with_reducible apply Kept.ite
    | lift_lets -underBinder
    | fail_if_no_progress (with_reducible refine Kept.upd ?_ rfl rfl rfl rfl rfl rfl rfl rfl rfl rfl rfl rfl rfl rfl rfl rfl rfl rfl rfl rfl rfl rfl rfl rfl rfl))

theorem State.modeEvent_kept {z : State} (s : State) (prev new : Nat) (h_s : Kept z s) : Kept z (State.modeEvent s prev new) := by
  unfold State.modeEvent
  repeat' (first
    | with_reducible assumption
    | with_reducible apply State.event_kept)

theorem State.setMode_kept {z : State} (s : State) (m : Mode) (h_s : Kept z s) : Kept z (State.setMode s m) := by
  unfold State.setMode
  repeat' (first
    | with_reducible assumption
    | (intro x; refine Kept.cut (a := x) ?_ (fun _ => ?_) <;> [subst x; clear_value x])
    | with_reducible apply Kept.ite
    | lift_lets -underBinder
    | with_reducible apply State.wr_kept
    | with_reducible apply State.sioRelock_kept
    | with_reducible apply State.sioFollow_kept
    | with_reducible apply State.availEnd_kept
    | fail_if_no_progress (with_reducible refine Kept.upd ?_ rfl rfl rfl rfl rfl rfl rfl rfl rfl rfl rfl rfl rfl rfl rfl rfl rfl rfl rfl rfl rfl rfl rfl rfl rfl))

theorem State.toMode_kept {z : State} (s : State) (m : Mode) (h_s : Kept z s) : Kept z (State.toMode s m) := by
  unfold State.toMode
  repeat' (first
    | with_reducible assumption
    | lift_lets -underBinder
    | with_reducible apply State.setMode_kept
    | with_reducible apply State.modeEvent_kept)

theorem State.intoSafe_kept {z : State} (s : State) (cause : Nat) (h_s : Kept z s) : Kept z (State.intoSafe s cause) := by
  unfold State.intoSafe
  repeat' (first
    | with_reducible assumption
    | (intro x; refine Kept.cut (a := x) ?_ (fun _ => ?_) <;> [subst x; clear_value x])
    | (intro x; subst x)
    | with_reducible apply Kept.ite
    | lift_lets -underBinder
    | with_reducible apply State.wr_kept
    | with_reducible apply State.setMode_kept
    | with_reducible apply State.seqSafe_kept
    | fail_if_no_progress (with_reducible refine Kept.upd ?_ rfl rfl rfl rfl rfl rfl rfl rfl rfl rfl rfl rfl rfl rfl rfl rfl rfl rfl rfl rfl rfl rfl rfl rfl rfl))

theorem State.enterSafe_kept {z : State} (s : State) (cause : Nat) (h_s : Kept z s) : Kept z (State.enterSafe s cause) := by
  unfold State.enterSafe
  repeat' (first
    | with_reducible assumption
    | with_reducible apply Kept.ite
    | lift_lets -underBinder
    | with_reducible apply State.intoSafe_kept
    | with_reducible apply State.modeEvent_kept)

theorem State.quiesceSafe_kept {z : State} (s : State) (cause : Nat) (tell : Bool) (h_s : Kept z s) : Kept z (State.quiesceSafe s cause tell) := by
  unfold State.quiesceSafe
  repeat' (first
    | with_reducible assumption
    | with_reducible apply Kept.ite
    | lift_lets -underBinder
    | with_reducible apply State.wr_kept
    | with_reducible apply State.enterSafe_kept
    | with_reducible apply State.intoSafe_kept)

theorem State.degradedEffects_kept {z : State} (s : State) (h_s : Kept z s) : Kept z (State.degradedEffects s) := by
  unfold State.degradedEffects
  repeat' (first
    | with_reducible assumption
    | lift_lets -underBinder
    | with_reducible apply State.raise_kept
    | with_reducible apply State.wr_kept
    | with_reducible apply State.shedFunctions_kept)

theorem State.enterDegraded_kept {z : State} (s : State) (h_s : Kept z s) : Kept z (State.enterDegraded s) := by
  unfold State.enterDegraded
  repeat' (first
    | with_reducible assumption
    | with_reducible apply Kept.ite
    | lift_lets -underBinder
    | with_reducible apply State.toMode_kept
    | with_reducible apply State.degradedEffects_kept)

theorem State.leaveDegraded_kept {z : State} (s : State) (h_s : Kept z s) : Kept z (State.leaveDegraded s) := by
  unfold State.leaveDegraded
  repeat' (first
    | with_reducible assumption
    | (intro x; refine Kept.cut (a := x) ?_ (fun _ => ?_) <;> [subst x; clear_value x])
    | with_reducible apply Kept.ite
    | lift_lets -underBinder
    | with_reducible apply State.toMode_kept
    | fail_if_no_progress (with_reducible refine Kept.upd ?_ rfl rfl rfl rfl rfl rfl rfl rfl rfl rfl rfl rfl rfl rfl rfl rfl rfl rfl rfl rfl rfl rfl rfl rfl rfl))

theorem State.enterService_kept {z : State} (s : State) (h_s : Kept z s) : Kept z (State.enterService s) := by
  unfold State.enterService
  repeat' (first
    | with_reducible assumption
    | (intro x; subst x)
    | with_reducible apply Kept.ite
    | lift_lets -underBinder
    | with_reducible apply State.toMode_kept
    | with_reducible apply State.startSlots_kept
    | with_reducible apply State.cvnRejoin_kept
    | with_reducible apply State.degradedEffects_kept
    | fail_if_no_progress (with_reducible refine Kept.upd ?_ rfl rfl rfl rfl rfl rfl rfl rfl rfl rfl rfl rfl rfl rfl rfl rfl rfl rfl rfl rfl rfl rfl rfl rfl rfl))

theorem State.enterConfig_kept {z : State} (s : State) (h_s : Kept z s) : Kept z (State.enterConfig s) := by
  unfold State.enterConfig
  repeat' (first
    | with_reducible assumption
    | lift_lets -underBinder
    | with_reducible apply State.migAbandon_kept
    | with_reducible apply State.toMode_kept
    | with_reducible apply State.stopSlots_kept
    | with_reducible apply State.cvnLeaveAll_kept)

theorem State.abandonWork_kept {z : State} (s : State) (eject : Bool) (h_s : Kept z s) : Kept z (State.abandonWork s eject) := by
  unfold State.abandonWork
  repeat' (first
    | with_reducible assumption
    | (intro x; refine Kept.cut (a := x) ?_ (fun _ => ?_) <;> [subst x; clear_value x])
    | with_reducible apply Kept.ite
    | lift_lets -underBinder
    | with_reducible apply State.migAbandon_kept
    | with_reducible apply State.dropRepair_kept
    | with_reducible apply State.abortMarch_kept
    | fail_if_no_progress (with_reducible refine Kept.upd ?_ rfl rfl rfl rfl rfl rfl rfl rfl rfl rfl rfl rfl rfl rfl rfl rfl rfl rfl rfl rfl rfl rfl rfl rfl rfl))

theorem State.quiesceStart_kept {z : State} (s : State) (k : QuiesceKind) (h_s : Kept z s) : Kept z (State.quiesceStart s k) := by
  unfold State.quiesceStart
  repeat' (first
    | with_reducible assumption
    | lift_lets -underBinder
    | with_reducible apply State.abandonWork_kept
    | with_reducible apply State.cvnLeaveAll_kept
    | fail_if_no_progress (with_reducible refine Kept.upd ?_ rfl rfl rfl rfl rfl rfl rfl rfl rfl rfl rfl rfl rfl rfl rfl rfl rfl rfl rfl rfl rfl rfl rfl rfl rfl))

theorem State.ejectEvent_kept {z : State} (s : State) (h_s : Kept z s) : Kept z (State.ejectEvent s) := by
  unfold State.ejectEvent
  repeat' (first
    | with_reducible assumption
    | with_reducible apply State.event_kept)

theorem State.quiesceEject_kept {z : State} (s : State) (k : QuiesceKind) (h_s : Kept z s) : Kept z (State.quiesceEject s k) := by
  unfold State.quiesceEject
  repeat' (first
    | with_reducible assumption
    | (intro x; refine Kept.cut (a := x) ?_ (fun _ => ?_) <;> [subst x; clear_value x])
    | (intro x; subst x)
    | with_reducible apply Kept.ite
    | lift_lets -underBinder
    | with_reducible apply State.quiesceSafe_kept
    | with_reducible apply State.quiesceStart_kept
    | with_reducible apply State.ejectEvent_kept
    | fail_if_no_progress (with_reducible refine Kept.upd ?_ rfl rfl rfl rfl rfl rfl rfl rfl rfl rfl rfl rfl rfl rfl rfl rfl rfl rfl rfl rfl rfl rfl rfl rfl rfl)
    | split)

theorem State.quiesceWarm_kept {z : State} (s : State) (h_s : Kept z s) : Kept z (State.quiesceWarm s) := by
  unfold State.quiesceWarm
  repeat' (first
    | with_reducible assumption
    | with_reducible apply Kept.ite
    | lift_lets -underBinder
    | with_reducible apply State.quiesceSafe_kept
    | with_reducible apply State.quiesceStart_kept
    | fail_if_no_progress (with_reducible refine Kept.upd ?_ rfl rfl rfl rfl rfl rfl rfl rfl rfl rfl rfl rfl rfl rfl rfl rfl rfl rfl rfl rfl rfl rfl rfl rfl rfl)
    | split)

theorem State.quiesceStandby_kept {z : State} (s : State) (h_s : Kept z s) : Kept z (State.quiesceStandby s).2 := by
  unfold State.quiesceStandby
  repeat' (first
    | with_reducible assumption
    | with_reducible apply Kept.ite2
    | lift_lets -underBinder
    | with_reducible apply State.quiesceStart_kept
    | fail_if_no_progress (with_reducible refine Kept.upd ?_ rfl rfl rfl rfl rfl rfl rfl rfl rfl rfl rfl rfl rfl rfl rfl rfl rfl rfl rfl rfl rfl rfl rfl rfl rfl)
    | split)

theorem State.quiesceAbort_kept {z : State} (s : State) (h_s : Kept z s) : Kept z (State.quiesceAbort s) := by
  unfold State.quiesceAbort
  repeat' (first
    | with_reducible assumption
    | (intro x; refine Kept.cut (a := x) ?_ (fun _ => ?_) <;> [subst x; clear_value x])
    | (intro x; subst x)
    | with_reducible apply Kept.ite
    | lift_lets -underBinder
    | with_reducible apply State.wr_kept
    | with_reducible apply State.cvnRejoin_kept
    | with_reducible apply State.resumePort_kept
    | with_reducible apply State.event_kept
    | fail_if_no_progress (with_reducible refine Kept.upd ?_ rfl rfl rfl rfl rfl rfl rfl rfl rfl rfl rfl rfl rfl rfl rfl rfl rfl rfl rfl rfl rfl rfl rfl rfl rfl)
    | split)

theorem State.refuseMode_kept {z : State} (s : State) (cause target : Nat) (h_s : Kept z s) : Kept z (State.refuseMode s cause target) := by
  unfold State.refuseMode
  repeat' (first
    | with_reducible assumption
    | lift_lets -underBinder
    | with_reducible apply State.wr_kept
    | with_reducible apply State.event_kept)

theorem State.askConfig_kept {z : State} (s : State) (ring : Option Nat) (h_s : Kept z s) : Kept z (State.askConfig s ring) := by
  unfold State.askConfig
  repeat' (first
    | with_reducible assumption
    | (intro x; subst x)
    | with_reducible apply Kept.ite
    | lift_lets -underBinder
    | with_reducible apply State.enterConfig_kept
    | fail_if_no_progress (with_reducible refine Kept.upd ?_ rfl rfl rfl rfl rfl rfl rfl rfl rfl rfl rfl rfl rfl rfl rfl rfl rfl rfl rfl rfl rfl rfl rfl rfl rfl))

theorem State.modeRequest_kept {z : State} (s : State) (target : Nat) (sack : Bool) (ring : Option Nat) (h_s : Kept z s) : Kept z (State.modeRequest s target sack ring).2 := by
  unfold State.modeRequest
  repeat' (first
    | with_reducible assumption
    | with_reducible apply Kept.ite
    | with_reducible apply Kept.ite2
    | lift_lets -underBinder
    | with_reducible apply State.refuseMode_kept
    | with_reducible apply State.enterSafe_kept
    | with_reducible apply State.quiesceStandby_kept
    | with_reducible apply State.wr_kept
    | with_reducible apply State.askConfig_kept
    | with_reducible apply State.enterService_kept)

theorem State.swcReset_kept {z : State} (s : State) (h_s : Kept z s) : Kept z (State.swcReset s) := by
  unfold State.swcReset
  repeat' (first
    | with_reducible assumption
    | (intro x; refine Kept.cut (a := x) ?_ (fun _ => ?_) <;> [subst x; clear_value x])
    | lift_lets -underBinder
    | with_reducible apply State.resetRegs_kept
    | with_reducible apply State.dropPort_kept
    | with_reducible apply State.bump32_kept
    | with_reducible apply State.dropFrx_kept
    | with_reducible apply State.collect_kept
    | with_reducible refine Kept.foldl ?_ (fun t x ht => ?_)
    | fail_if_no_progress (with_reducible refine Kept.gen ?_ rfl rfl (fun c => ?_) <;> [skip; (simp +zetaDelta only [State.canon, State.regsWf, Bool.and_eq_true] at c ⊢; simp +zetaDelta only [c, SMap.wf_set, SMap.wf_nil, SMap.wf_filter, SioSt.reset, SwcSt.reset, CvnSt.reset, PsqSt.reset, MbxSt.reset, and_self]; done)]))

theorem State.mdbReset_kept {z : State} (s : State) (n : Nat) (h_s : Kept z s) : Kept z (State.mdbReset s n) := by
  unfold State.mdbReset
  repeat' (first
    | with_reducible assumption
    | (intro x; subst x)
    | with_reducible apply Kept.ite
    | lift_lets -underBinder
    | with_reducible apply State.dropRemap_kept
    | with_reducible apply State.resetRegs_kept
    | with_reducible apply State.setBus_kept)

theorem State.nextEpochs_wf (s : State) (w : SMap.wf (fun _ => 0) s.mbx.epoch = true) :
    SMap.wf (fun _ => 0) s.nextEpochs = true := by
  unfold State.nextEpochs
  generalize List.range 19 = xs
  generalize s.mbx.epoch = m at w ⊢
  induction xs generalizing m with
  | nil => exact w
  | cons x xs ih => exact ih _ (SMap.wf_set _ w _ _)

theorem State.forgetTime_kept {z : State} (s : State) (h_s : Kept z s) : Kept z (s.forgetTime ) := by
  refine Kept.gen h_s rfl rfl (fun c => ?_)
  simp only [State.canon, State.regsWf, Bool.and_eq_true] at c ⊢
  simp only [c, SMap.wf_nil, SioSt.reset, SwcSt.reset, CvnSt.reset, PsqSt.reset, MbxSt.reset, State.reset, and_self]

theorem State.forgetCvn_kept {z : State} (s : State) (h_s : Kept z s) : Kept z (s.forgetCvn ) := by
  refine Kept.gen h_s rfl rfl (fun c => ?_)
  simp only [State.canon, State.regsWf, Bool.and_eq_true] at c ⊢
  simp only [c, SMap.wf_nil, SioSt.reset, SwcSt.reset, CvnSt.reset, PsqSt.reset, MbxSt.reset, State.reset, and_self]

theorem State.blockResetBody_kept {z : State} (s : State) (code : Nat) (h_s : Kept z s) : Kept z (State.blockResetBody s code) := by
  unfold State.blockResetBody
  repeat' (first
    | with_reducible assumption
    | with_reducible apply Kept.ite
    | lift_lets -underBinder
    | with_reducible apply State.linkDropped_kept
    | with_reducible apply State.hostPortLost_kept
    | with_reducible apply State.resetRegs_kept
    | with_reducible apply State.mbxBlockReset_kept
    | with_reducible apply State.swcReset_kept
    | with_reducible apply State.forgetTime_kept
    | with_reducible apply State.cvnAbandon_kept
    | with_reducible apply State.forgetCvn_kept
    | with_reducible apply State.wakeAllBuses_kept
    | with_reducible apply State.psqBlockReset_kept
    | with_reducible apply State.dropSeqRemap_kept
    | with_reducible apply State.fltSettle_kept
    | with_reducible apply State.mdbReset_kept
    | split)

theorem State.blockReset_kept {z : State} (s : State) (code : Nat) (h_s : Kept z s) : Kept z (State.blockReset s code) := by
  unfold State.blockReset
  repeat' (first
    | with_reducible assumption
    | (intro x; subst x)
    | with_reducible apply Kept.ite
    | lift_lets -underBinder
    | with_reducible apply State.blockResetBody_kept
    | fail_if_no_progress (with_reducible refine Kept.upd ?_ rfl rfl rfl rfl rfl rfl rfl rfl rfl rfl rfl rfl rfl rfl rfl rfl rfl rfl rfl rfl rfl rfl rfl rfl rfl))

theorem State.driveFlt_kept {z : State} (s : State) (h_s : Kept z s) : Kept z (State.driveFlt s) := by
  unfold State.driveFlt
  repeat' (first
    | with_reducible assumption
    | (intro x; subst x)
    | with_reducible apply Kept.ite
    | lift_lets -underBinder
    | with_reducible apply State.setPin_kept
    | fail_if_no_progress (with_reducible refine Kept.upd ?_ rfl rfl rfl rfl rfl rfl rfl rfl rfl rfl rfl rfl rfl rfl rfl rfl rfl rfl rfl rfl rfl rfl rfl rfl rfl))

theorem State.pwrShow_kept {z : State} (s : State) (h_s : Kept z s) : Kept z (State.pwrShow s) := by
  unfold State.pwrShow
  repeat' (first
    | with_reducible assumption
    | (intro x; subst x)
    | lift_lets -underBinder
    | with_reducible apply State.setReg_kept)

theorem State.warmBase_kept {z : State} (s : State) (kind : Nat) (tb : TimeBase) (h_s : Kept z s) : Kept z (s.warmBase kind tb) := by
  refine Kept.gen h_s rfl rfl (fun c => ?_)
  have hw := State.nextEpochs_wf s (by simp only [State.canon, Bool.and_eq_true] at c; exact c.1.1.1.1.1.1.1.1.1.1.2)
  simp only [State.canon, State.regsWf, Bool.and_eq_true] at c ⊢
  simp only [c, hw, SMap.wf_nil, SioSt.reset, SwcSt.reset, CvnSt.reset, PsqSt.reset, MbxSt.reset, State.reset, and_self]

theorem State.warmReset_kept {z : State} (s : State) (kind : Nat) (h_s : Kept z s) : Kept z (State.warmReset s kind) := by
  unfold State.warmReset
  repeat' (first
    | with_reducible assumption
    | (intro x; refine Kept.cut (a := x) ?_ (fun _ => ?_) <;> [subst x; clear_value x])
    | with_reducible apply Kept.ite
    | lift_lets -underBinder
    | with_reducible apply State.outageEnd_kept
    | with_reducible apply State.availEnd_kept
    | with_reducible apply State.dropRepair_kept
    | with_reducible apply State.resetRegs_kept
    | with_reducible apply State.warmBase_kept
    | with_reducible apply State.bump_kept
    | with_reducible apply State.wr_kept
    | with_reducible apply State.driveFlt_kept
    | with_reducible apply State.sioFollow_kept
    | with_reducible apply State.pwrShow_kept
    | with_reducible refine Kept.foldl ?_ (fun t x ht => ?_))

theorem State.loadNvm_kept {z : State} (s : State) (h_s : Kept z s) : Kept z (State.loadNvm s) := by
  unfold State.loadNvm
  repeat' (first
    | with_reducible assumption
    | with_reducible apply Kept.ite
    | lift_lets -underBinder
    | with_reducible apply State.setReg_kept
    | with_reducible apply State.updMirror_kept
    | with_reducible apply State.wr_kept
    | with_reducible refine Kept.foldl ?_ (fun t x ht => ?_))

theorem State.porstBase_kept {z : State} (s : State) (h_s : Kept z s) : Kept z (s.porstBase ) := by
  refine Kept.gen h_s rfl rfl (fun c => ?_)
  have hw := State.nextEpochs_wf s (by simp only [State.canon, Bool.and_eq_true] at c; exact c.1.1.1.1.1.1.1.1.1.1.2)
  simp only [State.canon, State.regsWf, Bool.and_eq_true] at c ⊢
  simp only [c, hw, SMap.wf_nil, SioSt.reset, SwcSt.reset, CvnSt.reset, PsqSt.reset, MbxSt.reset, State.reset, and_self]

theorem State.porst_kept {z : State} (s : State) (pin brownout : Bool) (h_s : Kept z s) : Kept z (State.porst s pin brownout) := by
  unfold State.porst
  repeat' (first
    | with_reducible assumption
    | lift_lets -underBinder
    | with_reducible apply State.porstBase_kept
    | with_reducible apply State.loadNvm_kept
    | with_reducible apply State.wr_kept
    | with_reducible apply State.driveFlt_kept)

theorem State.release_kept {z : State} (s : State) (h_s : Kept z s) : Kept z (State.release s) := by
  unfold State.release
  repeat' (first
    | with_reducible assumption
    | (intro x; refine Kept.cut (a := x) ?_ (fun _ => ?_) <;> [subst x; clear_value x])
    | with_reducible apply Kept.ite
    | lift_lets -underBinder
    | with_reducible apply State.bump_kept
    | with_reducible apply State.pwrShow_kept
    | fail_if_no_progress (with_reducible refine Kept.upd ?_ rfl rfl rfl rfl rfl rfl rfl rfl rfl rfl rfl rfl rfl rfl rfl rfl rfl rfl rfl rfl rfl rfl rfl rfl rfl))

theorem State.powerOff_kept {z : State} (s : State) (h_s : Kept z s) : Kept z (State.powerOff s) := by
  unfold State.powerOff
  repeat' (first
    | with_reducible assumption
    | (intro x; refine Kept.cut (a := x) ?_ (fun _ => ?_) <;> [subst x; clear_value x])
    | (intro x; subst x)
    | lift_lets -underBinder
    | with_reducible apply State.porst_kept
    | with_reducible apply State.setPin_kept
    | fail_if_no_progress (with_reducible refine Kept.upd ?_ rfl rfl rfl rfl rfl rfl rfl rfl rfl rfl rfl rfl rfl rfl rfl rfl rfl rfl rfl rfl rfl rfl rfl rfl rfl))

theorem State.standbyBase_kept {z : State} (s : State) (h_s : Kept z s) : Kept z (s.standbyBase ) := by
  refine Kept.gen h_s rfl rfl (fun c => ?_)
  simp only [State.canon, State.regsWf, Bool.and_eq_true] at c ⊢
  simp only [c, SMap.wf_nil, SioSt.reset, SwcSt.reset, CvnSt.reset, PsqSt.reset, MbxSt.reset, State.reset, and_self]

theorem State.reachStandby_kept {z : State} (s : State) (h_s : Kept z s) : Kept z (State.reachStandby s) := by
  unfold State.reachStandby
  repeat' (first
    | with_reducible assumption
    | (intro x; refine Kept.cut (a := x) ?_ (fun _ => ?_) <;> [subst x; clear_value x])
    | lift_lets -underBinder
    | with_reducible apply State.seqStopAll_kept
    | with_reducible apply State.setMode_kept
    | with_reducible apply State.standbyBase_kept
    | with_reducible apply State.later_kept
    | split)

theorem State.wakeUp_kept {z : State} (s : State) (src bus id : Nat) (ide : Bool) (h_s : Kept z s) : Kept z (State.wakeUp s src bus id ide) := by
  unfold State.wakeUp
  repeat' (first
    | with_reducible assumption
    | (intro x; refine Kept.cut (a := x) ?_ (fun _ => ?_) <;> [subst x; clear_value x])
    | with_reducible apply Kept.ite
    | lift_lets -underBinder
    | with_reducible apply State.wr_kept
    | with_reducible apply State.setReg_kept
    | with_reducible apply State.warmReset_kept)

theorem State.scFailed_kept {z : State} (s : State) (u : Nat) (h_s : Kept z s) : Kept z (State.scFailed s u) := by
  unfold State.scFailed
  repeat' (first
    | with_reducible assumption
    | (intro x; subst x)
    | lift_lets -underBinder
    | with_reducible apply State.unitFailed_kept
    | fail_if_no_progress (with_reducible refine Kept.upd ?_ rfl rfl rfl rfl rfl rfl rfl rfl rfl rfl rfl rfl rfl rfl rfl rfl rfl rfl rfl rfl rfl rfl rfl rfl rfl))

theorem State.scDouble_kept {z : State} (s : State) (h_s : Kept z s) : Kept z (State.scDouble s) := by
  unfold State.scDouble
  repeat' (first
    | with_reducible assumption
    | lift_lets -underBinder
    | with_reducible apply State.availFrom_kept
    | with_reducible apply State.warmReset_kept)

theorem State.takeover_kept {z : State} (s : State) (h_s : Kept z s) : Kept z (State.takeover s) := by
  unfold State.takeover
  repeat' (first
    | with_reducible assumption
    | (intro x; refine Kept.cut (a := x) ?_ (fun _ => ?_) <;> [subst x; clear_value x])
    | with_reducible apply Kept.ite
    | lift_lets -underBinder
    | with_reducible apply State.migAbandon_kept
    | with_reducible apply State.dropRepair_kept
    | with_reducible apply State.raise_kept
    | fail_if_no_progress (with_reducible refine Kept.upd ?_ rfl rfl rfl rfl rfl rfl rfl rfl rfl rfl rfl rfl rfl rfl rfl rfl rfl rfl rfl rfl rfl rfl rfl rfl rfl))

theorem State.scLost_kept {z : State} (s : State) (h_s : Kept z s) : Kept z (State.scLost s) := by
  unfold State.scLost
  repeat' (first
    | with_reducible assumption
    | with_reducible apply Kept.ite
    | lift_lets -underBinder
    | with_reducible apply State.scFailed_kept
    | with_reducible apply State.takeover_kept
    | with_reducible apply State.scDouble_kept)

end Sys2Proof.Machine
end

