-- ==== Sys2Proof/Laws/KeptReact.lean ====
section
/-! SUPPORT. What the operations of Machine/React.lean keep. -/

namespace Sys2Proof.Machine

theorem State.openHold_kept {z : State} (s : State) (b : BlkId) (src react slot : Nat) (h_s : Kept z s) : Kept z (State.openHold s b src react slot) := by
  unfold State.openHold
  repeat' (first
    | with_reducible assumption
    | (intro x; subst x)
    | lift_lets -underBinder
    | fail_if_no_progress (with_reducible refine Kept.upd ?_ rfl rfl rfl rfl rfl rfl rfl rfl rfl rfl rfl rfl rfl rfl rfl rfl rfl rfl rfl rfl rfl rfl rfl rfl rfl))

theorem State.countReact_kept {z : State} (s : State) (b : BlkId) (h_s : Kept z s) : Kept z (State.countReact s b) := by
  unfold State.countReact
  repeat' (first
    | with_reducible assumption
    | (intro x; subst x)
    | lift_lets -underBinder
    | fail_if_no_progress (with_reducible refine Kept.upd ?_ rfl rfl rfl rfl rfl rfl rfl rfl rfl rfl rfl rfl rfl rfl rfl rfl rfl rfl rfl rfl rfl rfl rfl rfl rfl))

theorem State.reactHalt_kept {z : State} (s : State) (n : Fin 18) (src : Nat) (h_s : Kept z s) : Kept z (State.reactHalt s n src) := by
  unfold State.reactHalt
  repeat' (first
    | with_reducible assumption
    | (intro x; refine Kept.cut (a := x) ?_ (fun _ => ?_) <;> [subst x; clear_value x])
    | (intro x; subst x)
    | with_reducible apply Kept.ite
    | lift_lets -underBinder
    | with_reducible apply State.noteHalt_kept
    | with_reducible apply State.peHalt_kept
    | with_reducible apply State.migAbandon_kept
    | with_reducible apply State.outageFrom_kept
    | split)

theorem State.reactReset_kept {z : State} (s : State) (b : BlkId) (src slot : Nat) (h_s : Kept z s) : Kept z (State.reactReset s b src slot) := by
  unfold State.reactReset
  repeat' (first
    | with_reducible assumption
    | with_reducible apply Kept.ite
    | with_reducible refine Kept.dite (fun h => ?_) (fun h => ?_)
    | lift_lets -underBinder
    | with_reducible apply State.countReact_kept
    | with_reducible apply State.openHold_kept
    | with_reducible apply State.peReset_kept
    | with_reducible apply State.portReset_kept
    | with_reducible apply State.blockReset_kept
    | split)

theorem State.reactPortDown_kept {z : State} (s : State) (n src : Nat) (h_s : Kept z s) : Kept z (State.reactPortDown s n src) := by
  unfold State.reactPortDown
  repeat' (first
    | with_reducible assumption
    | with_reducible apply Kept.ite
    | lift_lets -underBinder
    | with_reducible apply State.countReact_kept
    | with_reducible apply State.openHold_kept
    | with_reducible apply State.takePortDown_kept
    | with_reducible apply State.outageFrom_kept
    | with_reducible apply State.lossOf_kept)

theorem State.reactSafe_kept {z : State} (s : State) (b : BlkId) (src : Nat) (forced : Bool) (h_s : Kept z s) : Kept z (State.reactSafe s b src forced) := by
  unfold State.reactSafe
  repeat' (first
    | with_reducible assumption
    | (intro x; refine Kept.cut (a := x) ?_ (fun _ => ?_) <;> [subst x; clear_value x])
    | (intro x; subst x)
    | with_reducible apply Kept.ite
    | lift_lets -underBinder
    | with_reducible apply State.later_kept
    | with_reducible apply State.availFrom_kept
    | fail_if_no_progress (with_reducible refine Kept.upd ?_ rfl rfl rfl rfl rfl rfl rfl rfl rfl rfl rfl rfl rfl rfl rfl rfl rfl rfl rfl rfl rfl rfl rfl rfl rfl))

theorem State.react_kept {z : State} (s : State) (b : BlkId) (src code slot : Nat) (forced : Bool) (h_s : Kept z s) : Kept z (State.react s b src code slot forced) := by
  unfold State.react
  repeat' (first
    | with_reducible assumption
    | with_reducible refine Kept.dite (fun h => ?_) (fun h => ?_)
    | lift_lets -underBinder
    | with_reducible apply State.countReact_kept
    | with_reducible apply State.reactHalt_kept
    | with_reducible apply State.reactReset_kept
    | with_reducible apply State.reactPortDown_kept
    | with_reducible apply State.reactSafe_kept
    | with_reducible apply State.sioReset_kept
    | with_reducible apply State.later_kept
    | split)

theorem State.treat_kept {z : State} (s : State) (d : Due) (h_s : Kept z s) : Kept z (State.treat s d) := by
  unfold State.treat
  repeat' (first
    | with_reducible assumption
    | with_reducible apply Kept.ite
    | lift_lets -underBinder
    | with_reducible apply State.occur_kept
    | with_reducible apply State.react_kept
    | with_reducible apply State.enterDegraded_kept
    | with_reducible apply State.enterSafe_kept
    | with_reducible apply State.timedStart_kept
    | with_reducible apply State.quiesceStandby_kept
    | with_reducible apply State.wakeUp_kept
    | split)

theorem drain_kept {z : State} (fuel : Nat) (s : State) (h_s : Kept z s) : Kept z (drain fuel s) := by
  induction fuel generalizing s with
  | zero =>
    simp only [drain]
    first | assumption | repeat' (first | assumption | split)
  | succ n ih =>
    unfold drain
    repeat' (first
      | with_reducible assumption
      | apply ih
      | (intro x; subst x)
      | lift_lets -underBinder
      | with_reducible apply State.treat_kept
      | fail_if_no_progress (with_reducible refine Kept.upd ?_ rfl rfl rfl rfl rfl rfl rfl rfl rfl rfl rfl rfl rfl rfl rfl rfl rfl rfl rfl rfl rfl rfl rfl rfl rfl)
      | split)

theorem State.watch_kept {z : State} (s : State) (h_s : Kept z s) : Kept z (State.watch s) := by
  unfold State.watch
  repeat' (first
    | with_reducible assumption
    | (intro x; refine Kept.cut (a := x) ?_ (fun _ => ?_) <;> [subst x; clear_value x])
    | (intro x; subst x)
    | with_reducible apply Kept.ite
    | lift_lets -underBinder
    | with_reducible apply State.migWatch_kept
    | with_reducible apply State.unbindSettle_kept
    | with_reducible apply State.graceSettle_kept
    | with_reducible apply State.cvnWatch_kept
    | with_reducible apply State.enterConfig_kept
    | with_reducible apply State.finish_kept
    | fail_if_no_progress (with_reducible refine Kept.upd ?_ rfl rfl rfl rfl rfl rfl rfl rfl rfl rfl rfl rfl rfl rfl rfl rfl rfl rfl rfl rfl rfl rfl rfl rfl rfl)
    | split)

theorem settle_kept {z : State} (s : State) (h_s : Kept z s) : Kept z (settle s) := by
  unfold settle
  repeat' (first
    | with_reducible assumption
    | lift_lets -underBinder
    | with_reducible apply drain_kept
    | with_reducible apply State.watch_kept)

theorem done_kept {z : State} (s : State) (h_s : Kept z s) : KeptR z (done s) := by
  unfold done
  repeat' (first
    | with_reducible assumption
    | with_reducible apply Kept.next
    | lift_lets -underBinder
    | with_reducible apply settle_kept)

theorem State.mw0Timeout_kept {z : State} (s : State) (port off : Nat) (store : Bool) (h_s : Kept z s) : Kept z (State.mw0Timeout s port off store) := by
  unfold State.mw0Timeout
  repeat' (first
    | with_reducible assumption
    | with_reducible apply Kept.ite
    | lift_lets -underBinder
    | with_reducible apply State.raise_kept)

theorem onMw0_kept {z : State} (s : State) (port : Nat) (b : BlkId) (off : Nat) (body : Res) (h_s : Kept z s) (h_body : KeptR z body) : KeptR z (onMw0 s port b off body) := by
  unfold onMw0
  repeat' (first
    | with_reducible assumption
    | with_reducible apply KeptR.ite
    | with_reducible apply Kept.next
    | lift_lets -underBinder
    | with_reducible apply done_kept
    | with_reducible apply State.mw0Timeout_kept)

end Sys2Proof.Machine
end

