-- ==== Sys2Proof/Laws/KeptBoot.lean ====
section
/-! SUPPORT. What the operations of Machine/Boot.lean keep. -/

namespace Sys2Proof.Machine

theorem execPorstNAssert_kept {z : State} (s : State) (h_s : Kept z s) : KeptR z (execPorstNAssert s) := by
  unfold execPorstNAssert
  repeat' (first
    | with_reducible assumption
    | (intro x; subst x)
    | with_reducible apply Kept.ite
    | with_reducible apply Kept.next
    | lift_lets -underBinder
    | with_reducible apply State.porst_kept
    | with_reducible apply State.pwrShow_kept
    | fail_if_no_progress (with_reducible refine Kept.upd ?_ rfl rfl rfl rfl rfl rfl rfl rfl rfl rfl rfl rfl rfl rfl rfl rfl rfl rfl rfl rfl rfl rfl rfl rfl rfl))

theorem execPorstNDeassert_kept {z : State} (s : State) (h_s : Kept z s) : KeptR z (execPorstNDeassert s) := by
  unfold execPorstNDeassert
  repeat' (first
    | with_reducible assumption
    | (intro x; subst x)
    | with_reducible apply Kept.next
    | lift_lets -underBinder
    | with_reducible apply State.release_kept
    | fail_if_no_progress (with_reducible refine Kept.upd ?_ rfl rfl rfl rfl rfl rfl rfl rfl rfl rfl rfl rfl rfl rfl rfl rfl rfl rfl rfl rfl rfl rfl rfl rfl rfl))

theorem execPowerOnRelease_kept {z : State} (s : State) (h_s : Kept z s) : KeptR z (execPowerOnRelease s) := by
  unfold execPowerOnRelease
  repeat' (first
    | with_reducible assumption
    | (intro x; subst x)
    | with_reducible apply Kept.ite
    | with_reducible apply Kept.next
    | lift_lets -underBinder
    | with_reducible apply State.release_kept
    | fail_if_no_progress (with_reducible refine Kept.upd ?_ rfl rfl rfl rfl rfl rfl rfl rfl rfl rfl rfl rfl rfl rfl rfl rfl rfl rfl rfl rfl rfl rfl rfl rfl rfl))

theorem execHifBootServiceStart_kept {z : State} (s : State) (h_s : Kept z s) : KeptR z (execHifBootServiceStart s) := by
  unfold execHifBootServiceStart
  repeat' (first
    | with_reducible assumption
    | (intro x; subst x)
    | with_reducible apply KeptR.ite
    | with_reducible apply Kept.next
    | lift_lets -underBinder
    | fail_if_no_progress (with_reducible refine Kept.upd ?_ rfl rfl rfl rfl rfl rfl rfl rfl rfl rfl rfl rfl rfl rfl rfl rfl rfl rfl rfl rfl rfl rfl rfl rfl rfl))

theorem State.setStage_kept {z : State} (s : State) (n : Nat) (h_s : Kept z s) : Kept z (State.setStage s n) := by
  unfold State.setStage
  repeat' (first
    | with_reducible assumption
    | with_reducible apply State.wr_kept)

theorem State.bootErr_kept {z : State} (s : State) (n : Nat) (h_s : Kept z s) : Kept z (State.bootErr s n) := by
  unfold State.bootErr
  repeat' (first
    | with_reducible assumption
    | with_reducible apply State.wr_kept)

theorem execPllLockAcquired_kept {z : State} (pll : Fin 10) (s : State) (h_s : Kept z s) : KeptR z (execPllLockAcquired pll s) := by
  unfold execPllLockAcquired
  repeat' (first
    | with_reducible assumption
    | (intro x; subst x)
    | with_reducible apply Kept.ite
    | with_reducible apply Kept.next
    | lift_lets -underBinder
    | with_reducible apply State.wr_kept
    | with_reducible apply State.setStage_kept
    | fail_if_no_progress (with_reducible refine Kept.upd ?_ rfl rfl rfl rfl rfl rfl rfl rfl rfl rfl rfl rfl rfl rfl rfl rfl rfl rfl rfl rfl rfl rfl rfl rfl rfl))

theorem State.tested_kept {z : State} (s : State) (k u : Nat) (bad : Bool) (h_s : Kept z s) : Kept z (State.tested s k u bad) := by
  unfold State.tested
  repeat' (first
    | with_reducible assumption
    | (intro x; subst x)
    | lift_lets -underBinder
    | with_reducible apply State.setWear_kept)

theorem execBootSelfTestDone_kept {z : State} (ok0 ok1 : Bool) (s : State) (h_s : Kept z s) : KeptR z (execBootSelfTestDone ok0 ok1 s) := by
  unfold execBootSelfTestDone
  repeat' (first
    | with_reducible assumption
    | (intro x; refine Kept.cut (a := x) ?_ (fun _ => ?_) <;> [subst x; clear_value x])
    | (intro x; subst x)
    | with_reducible apply KeptR.ite
    | with_reducible apply Kept.next
    | lift_lets -underBinder
    | with_reducible apply State.tested_kept
    | with_reducible apply State.wr_kept
    | with_reducible apply State.setStage_kept
    | with_reducible apply State.bootErr_kept
    | with_reducible apply State.fltSettle_kept
    | fail_if_no_progress (with_reducible refine Kept.upd ?_ rfl rfl rfl rfl rfl rfl rfl rfl rfl rfl rfl rfl rfl rfl rfl rfl rfl rfl rfl rfl rfl rfl rfl rfl rfl))

theorem State.marchPes_kept {z : State} (s : State) (bad : Nat → Bool) (h_s : Kept z s) : Kept z (State.marchPes s bad) := by
  unfold State.marchPes
  repeat' (first
    | with_reducible assumption
    | (intro x; subst x)
    | lift_lets -underBinder
    | fail_if_no_progress (with_reducible refine Kept.upd ?_ rfl rfl rfl rfl rfl rfl rfl rfl rfl rfl rfl rfl rfl rfl rfl rfl rfl rfl rfl rfl rfl rfl rfl rfl rfl))

theorem State.marchFct_kept {z : State} (s : State) (bad : Nat → Bool) (h_s : Kept z s) : Kept z (State.marchFct s bad) := by
  unfold State.marchFct
  repeat' (first
    | with_reducible assumption
    | (intro x; refine Kept.cut (a := x) ?_ (fun _ => ?_) <;> [subst x; clear_value x])
    | (intro x; subst x)
    | with_reducible apply Kept.ite
    | lift_lets -underBinder
    | with_reducible apply State.wr_kept
    | with_reducible apply State.lossOf_kept
    | with_reducible apply State.raise_kept
    | with_reducible refine Kept.foldl ?_ (fun t x ht => ?_)
    | fail_if_no_progress (with_reducible refine Kept.upd ?_ rfl rfl rfl rfl rfl rfl rfl rfl rfl rfl rfl rfl rfl rfl rfl rfl rfl rfl rfl rfl rfl rfl rfl rfl rfl)
    | split)

theorem State.marchPsq_kept {z : State} (s : State) (bad : Nat → Bool) (h_s : Kept z s) : Kept z (State.marchPsq s bad) := by
  unfold State.marchPsq
  repeat' (first
    | with_reducible assumption
    | (intro x; refine Kept.cut (a := x) ?_ (fun _ => ?_) <;> [subst x; clear_value x])
    | (intro x; subst x)
    | with_reducible apply Kept.ite
    | lift_lets -underBinder
    | with_reducible apply State.setSeqMap_kept
    | with_reducible apply State.shedSeq_kept
    | with_reducible apply State.outageFrom_kept
    | with_reducible apply State.lossOf_kept
    | with_reducible refine Kept.foldl ?_ (fun t x ht => ?_)
    | fail_if_no_progress (with_reducible refine Kept.upd ?_ rfl rfl rfl rfl rfl rfl rfl rfl rfl rfl rfl rfl rfl rfl rfl rfl rfl rfl rfl rfl rfl rfl rfl rfl rfl)
    | split)

theorem State.marchMdb_kept {z : State} (s : State) (bad : Nat → Bool) (h_s : Kept z s) : Kept z (State.marchMdb s bad) := by
  unfold State.marchMdb
  repeat' (first
    | with_reducible assumption
    | (intro x; refine Kept.cut (a := x) ?_ (fun _ => ?_) <;> [subst x; clear_value x])
    | with_reducible apply Kept.ite
    | lift_lets -underBinder
    | with_reducible apply State.setCtrl_kept
    | with_reducible apply State.shedBus_kept
    | with_reducible apply State.outageFrom_kept
    | with_reducible apply State.lossOf_kept
    | with_reducible refine Kept.foldl ?_ (fun t x ht => ?_)
    | fail_if_no_progress (with_reducible refine Kept.upd ?_ rfl rfl rfl rfl rfl rfl rfl rfl rfl rfl rfl rfl rfl rfl rfl rfl rfl rfl rfl rfl rfl rfl rfl rfl rfl)
    | split)

theorem State.marchMac_kept {z : State} (s : State) (bad : Nat → Bool) (h_s : Kept z s) : Kept z (State.marchMac s bad) := by
  unfold State.marchMac
  repeat' (first
    | with_reducible assumption
    | with_reducible apply Kept.ite
    | lift_lets -underBinder
    | with_reducible apply State.takePortDown_kept
    | with_reducible apply State.lossOf_kept
    | with_reducible refine Kept.foldl ?_ (fun t x ht => ?_))

theorem State.nvmCheck_kept {z : State} (s : State) (ok0 ok1 : Bool) (h_s : Kept z s) : Kept z (State.nvmCheck s ok0 ok1) := by
  unfold State.nvmCheck
  repeat' (first
    | with_reducible assumption
    | (intro x; subst x)
    | with_reducible apply Kept.ite
    | lift_lets -underBinder
    | with_reducible apply State.tested_kept
    | with_reducible apply State.bootErr_kept
    | with_reducible apply State.raise_kept
    | fail_if_no_progress (with_reducible refine Kept.upd ?_ rfl rfl rfl rfl rfl rfl rfl rfl rfl rfl rfl rfl rfl rfl rfl rfl rfl rfl rfl rfl rfl rfl rfl rfl rfl))

theorem execBootMarchDone_kept {z : State} (fails : List (Fin 9 × Fin 128)) (nvmOk0 nvmOk1 : Bool) (s : State) (h_s : Kept z s) : KeptR z (execBootMarchDone fails nvmOk0 nvmOk1 s) := by
  unfold execBootMarchDone
  repeat' (first
    | with_reducible assumption
    | (intro x; refine KeptR.cut (a := x) ?_ (fun _ => ?_) <;> [subst x; clear_value x])
    | (intro x; subst x)
    | with_reducible apply KeptR.ite
    | with_reducible apply Kept.next
    | lift_lets -underBinder
    | with_reducible apply State.tested_kept
    | with_reducible apply State.mapAllBanks_kept
    | with_reducible apply State.marchPes_kept
    | with_reducible apply State.marchFct_kept
    | with_reducible apply State.marchPsq_kept
    | with_reducible apply State.marchMdb_kept
    | with_reducible apply State.marchMac_kept
    | with_reducible apply State.wr_kept
    | with_reducible apply done_kept
    | with_reducible apply State.nvmCheck_kept
    | with_reducible apply State.setStage_kept
    | with_reducible refine Kept.foldl ?_ (fun t x ht => ?_))

theorem State.setRejected_kept {z : State} (s : State) (b v : Bool) (h_s : Kept z s) : Kept z (State.setRejected s b v) := by
  unfold State.setRejected
  repeat' (first
    | with_reducible assumption
    | (intro x; subst x)
    | lift_lets -underBinder
    | fail_if_no_progress (with_reducible refine Kept.upd ?_ rfl rfl rfl rfl rfl rfl rfl rfl rfl rfl rfl rfl rfl rfl rfl rfl rfl rfl rfl rfl rfl rfl rfl rfl rfl))

theorem State.showVersion_kept {z : State} (s : State) (b : Bool) (h_s : Kept z s) : Kept z (State.showVersion s b) := by
  unfold State.showVersion
  repeat' (first
    | with_reducible assumption
    | with_reducible apply State.setReg_kept)

theorem State.settleTrial_kept {z : State} (s : State) (h_s : Kept z s) : Kept z (State.settleTrial s) := by
  unfold State.settleTrial
  repeat' (first
    | with_reducible assumption
    | (intro x; refine Kept.cut (a := x) ?_ (fun _ => ?_) <;> [subst x; clear_value x])
    | with_reducible apply Kept.ite
    | lift_lets -underBinder
    | with_reducible apply State.setRejected_kept
    | with_reducible apply State.updAppend_kept
    | fail_if_no_progress (with_reducible refine Kept.upd ?_ rfl rfl rfl rfl rfl rfl rfl rfl rfl rfl rfl rfl rfl rfl rfl rfl rfl rfl rfl rfl rfl rfl rfl rfl rfl)
    | split)

theorem State.updFail_kept {z : State} (s : State) (h_s : Kept z s) : Kept z (State.updFail s) := by
  unfold State.updFail
  repeat' (first
    | with_reducible assumption
    | with_reducible apply State.raise_kept)

theorem State.settleUpdate_kept {z : State} (s : State) (h_s : Kept z s) : Kept z (State.settleUpdate s) := by
  unfold State.settleUpdate
  repeat' (first
    | with_reducible assumption
    | (intro x; subst x)
    | with_reducible apply Kept.ite
    | lift_lets -underBinder
    | with_reducible apply State.updAppend_kept
    | with_reducible apply State.updMirror_kept
    | with_reducible apply State.updTell_kept
    | with_reducible apply State.updFail_kept
    | fail_if_no_progress (with_reducible refine Kept.upd ?_ rfl rfl rfl rfl rfl rfl rfl rfl rfl rfl rfl rfl rfl rfl rfl rfl rfl rfl rfl rfl rfl rfl rfl rfl rfl)
    | split)

theorem State.waitHost_kept {z : State} (s : State) (h_s : Kept z s) : Kept z (State.waitHost s) := by
  unfold State.waitHost
  repeat' (first
    | with_reducible assumption
    | with_reducible apply State.wr_kept)

theorem State.fallback_kept {z : State} (s : State) (h_s : Kept z s) : Kept z (State.fallback s) := by
  unfold State.fallback
  repeat' (first
    | with_reducible assumption
    | with_reducible apply State.raise_kept)

theorem execFlashHeadersRead_kept {z : State} (s : State) (h_s : Kept z s) : KeptR z (execFlashHeadersRead s) := by
  unfold execFlashHeadersRead
  repeat' (first
    | with_reducible assumption
    | (intro x; refine KeptR.cut (a := x) ?_ (fun _ => ?_) <;> [subst x; clear_value x])
    | (intro x; subst x)
    | with_reducible apply Kept.ite
    | with_reducible apply KeptR.ite
    | with_reducible apply Kept.next
    | lift_lets -underBinder
    | with_reducible apply State.settleTrial_kept
    | with_reducible apply State.settleUpdate_kept
    | with_reducible apply State.showVersion_kept
    | with_reducible apply State.setStage_kept
    | with_reducible apply done_kept
    | with_reducible apply State.waitHost_kept
    | with_reducible apply State.fallback_kept
    | with_reducible apply State.bootErr_kept
    | fail_if_no_progress (with_reducible refine Kept.upd ?_ rfl rfl rfl rfl rfl rfl rfl rfl rfl rfl rfl rfl rfl rfl rfl rfl rfl rfl rfl rfl rfl rfl rfl rfl rfl)
    | split)

theorem execImageHashDone_kept {z : State} (s : State) (h_s : Kept z s) : KeptR z (execImageHashDone s) := by
  unfold execImageHashDone
  repeat' (first
    | with_reducible assumption
    | with_reducible apply KeptR.ite
    | with_reducible apply Kept.next
    | lift_lets -underBinder
    | with_reducible apply State.setStage_kept)

theorem State.startFirmware_kept {z : State} (s : State) (slot : Option Bool) (version : Nat) (h_s : Kept z s) : Kept z (State.startFirmware s slot version) := by
  unfold State.startFirmware
  repeat' (first
    | with_reducible assumption
    | (intro x; refine Kept.cut (a := x) ?_ (fun _ => ?_) <;> [subst x; clear_value x])
    | (intro x; subst x)
    | lift_lets -underBinder
    | with_reducible apply State.setStage_kept
    | with_reducible apply State.wr_kept
    | with_reducible apply State.availEnd_kept
    | with_reducible apply State.toMode_kept
    | fail_if_no_progress (with_reducible refine Kept.upd ?_ rfl rfl rfl rfl rfl rfl rfl rfl rfl rfl rfl rfl rfl rfl rfl rfl rfl rfl rfl rfl rfl rfl rfl rfl rfl))

theorem execSignatureCheckDone_kept {z : State} (s : State) (h_s : Kept z s) : KeptR z (execSignatureCheckDone s) := by
  unfold execSignatureCheckDone
  repeat' (first
    | with_reducible assumption
    | (intro x; subst x)
    | with_reducible apply KeptR.ite
    | with_reducible apply Kept.next
    | lift_lets -underBinder
    | with_reducible apply done_kept
    | with_reducible apply State.startFirmware_kept
    | with_reducible apply State.bootErr_kept
    | with_reducible apply State.setReg_kept
    | with_reducible apply State.setStage_kept
    | with_reducible apply State.fallback_kept
    | with_reducible apply State.waitHost_kept
    | fail_if_no_progress (with_reducible refine Kept.upd ?_ rfl rfl rfl rfl rfl rfl rfl rfl rfl rfl rfl rfl rfl rfl rfl rfl rfl rfl rfl rfl rfl rfl rfl rfl rfl))

theorem execGenHostimgGo_kept {z : State} (port : Fin 2) (value : Word) (s : State) (h_s : Kept z s) : KeptR z (execGenHostimgGo port value s) := by
  unfold execGenHostimgGo
  repeat' (first
    | with_reducible assumption
    | (intro x; subst x)
    | with_reducible apply KeptR.ite
    | with_reducible apply Kept.next
    | lift_lets -underBinder
    | with_reducible apply onMw0_kept
    | with_reducible apply State.wr_kept
    | fail_if_no_progress (with_reducible refine Kept.upd ?_ rfl rfl rfl rfl rfl rfl rfl rfl rfl rfl rfl rfl rfl rfl rfl rfl rfl rfl rfl rfl rfl rfl rfl rfl rfl))

theorem execHostimgCheckDone_kept {z : State} (version : Word) (dma : Option (List Byte)) (s : State) (h_s : Kept z s) : KeptR z (execHostimgCheckDone version dma s) := by
  unfold execHostimgCheckDone
  repeat' (first
    | with_reducible assumption
    | (intro x; subst x)
    | with_reducible apply KeptR.ite
    | with_reducible apply Kept.next
    | lift_lets -underBinder
    | with_reducible apply done_kept
    | with_reducible apply State.bootErr_kept
    | with_reducible apply State.waitHost_kept
    | with_reducible apply State.dmaError_kept
    | with_reducible apply State.startFirmware_kept
    | fail_if_no_progress (with_reducible refine Kept.upd ?_ rfl rfl rfl rfl rfl rfl rfl rfl rfl rfl rfl rfl rfl rfl rfl rfl rfl rfl rfl rfl rfl rfl rfl rfl rfl)
    | split)

theorem cmdImgUpdStart_kept {z : State} (ring : Nat) (p0 p1 : BitVec 64) (s : State) (h_s : Kept z s) : Kept z (cmdImgUpdStart ring p0 p1 s) := by
  unfold cmdImgUpdStart
  repeat' (first
    | with_reducible assumption
    | (intro x; refine Kept.cut (a := x) ?_ (fun _ => ?_) <;> [subst x; clear_value x])
    | (intro x; subst x)
    | with_reducible apply Kept.ite
    | lift_lets -underBinder
    | with_reducible apply State.finish_kept
    | with_reducible apply State.updAppend_kept
    | with_reducible apply State.setFlash_kept
    | with_reducible apply State.setRejected_kept
    | with_reducible apply State.setReg_kept
    | fail_if_no_progress (with_reducible refine Kept.upd ?_ rfl rfl rfl rfl rfl rfl rfl rfl rfl rfl rfl rfl rfl rfl rfl rfl rfl rfl rfl rfl rfl rfl rfl rfl rfl))

theorem execImgUpdStart_kept {z : State} (ring : Fin 512) (p0 p1 : BitVec 64) (s : State) (h_s : Kept z s) : KeptR z (execImgUpdStart ring p0 p1 s) := by
  unfold execImgUpdStart
  repeat' (first
    | with_reducible assumption
    | with_reducible refine fun t => ?_
    | lift_lets -underBinder
    | with_reducible apply done_kept
    | with_reducible apply State.command_kept
    | with_reducible apply cmdImgUpdStart_kept)

theorem State.updProgress_kept {z : State} (s : State) (n : Nat) (h_s : Kept z s) : Kept z (State.updProgress s n) := by
  unfold State.updProgress
  repeat' (first
    | with_reducible assumption
    | (intro x; subst x)
    | lift_lets -underBinder
    | with_reducible apply State.updMirror_kept
    | fail_if_no_progress (with_reducible refine Kept.upd ?_ rfl rfl rfl rfl rfl rfl rfl rfl rfl rfl rfl rfl rfl rfl rfl rfl rfl rfl rfl rfl rfl rfl rfl rfl rfl)
    | split)

theorem cmdImgUpdData_kept {z : State} (ring : Nat) (p0 p1 p2 : BitVec 64) (dma : Option (List Byte)) (s : State) (h_s : Kept z s) : Kept z (cmdImgUpdData ring p0 p1 p2 dma s) := by
  unfold cmdImgUpdData
  repeat' (first
    | with_reducible assumption
    | with_reducible refine fun t => ?_
    | (intro x; refine Kept.cut (a := x) ?_ (fun _ => ?_) <;> [subst x; clear_value x])
    | (intro x; subst x)
    | with_reducible apply Kept.ite
    | lift_lets -underBinder
    | with_reducible apply State.finish_kept
    | with_reducible apply State.withDma_kept
    | with_reducible apply State.setFlash_kept
    | with_reducible apply State.updProgress_kept
    | fail_if_no_progress (with_reducible refine Kept.upd ?_ rfl rfl rfl rfl rfl rfl rfl rfl rfl rfl rfl rfl rfl rfl rfl rfl rfl rfl rfl rfl rfl rfl rfl rfl rfl)
    | split)

theorem execImgUpdData_kept {z : State} (ring : Fin 512) (p0 p1 p2 : BitVec 64) (dma : Option (List Byte)) (s : State) (h_s : Kept z s) : KeptR z (execImgUpdData ring p0 p1 p2 dma s) := by
  unfold execImgUpdData
  repeat' (first
    | with_reducible assumption
    | with_reducible refine fun t => ?_
    | lift_lets -underBinder
    | with_reducible apply done_kept
    | with_reducible apply State.command_kept
    | with_reducible apply cmdImgUpdData_kept)

theorem State.updStop_kept {z : State} (s : State) (u : UpdRun) (h_s : Kept z s) : Kept z (State.updStop s u) := by
  unfold State.updStop
  repeat' (first
    | with_reducible assumption
    | lift_lets -underBinder
    | with_reducible apply State.updAppend_kept
    | with_reducible apply State.updFail_kept
    | fail_if_no_progress (with_reducible refine Kept.upd ?_ rfl rfl rfl rfl rfl rfl rfl rfl rfl rfl rfl rfl rfl rfl rfl rfl rfl rfl rfl rfl rfl rfl rfl rfl rfl))

theorem cmdImgUpdFinish_kept {z : State} (ring : Nat) (s : State) (h_s : Kept z s) : Kept z (cmdImgUpdFinish ring s) := by
  unfold cmdImgUpdFinish
  repeat' (first
    | with_reducible assumption
    | (intro x; refine Kept.cut (a := x) ?_ (fun _ => ?_) <;> [subst x; clear_value x])
    | with_reducible apply Kept.ite
    | lift_lets -underBinder
    | with_reducible apply State.finish_kept
    | with_reducible apply State.updStop_kept
    | with_reducible apply State.setFlash_kept
    | with_reducible apply State.updAppend_kept
    | with_reducible apply State.setReg_kept
    | fail_if_no_progress (with_reducible refine Kept.upd ?_ rfl rfl rfl rfl rfl rfl rfl rfl rfl rfl rfl rfl rfl rfl rfl rfl rfl rfl rfl rfl rfl rfl rfl rfl rfl)
    | split)

theorem execImgUpdFinish_kept {z : State} (ring : Fin 512) (s : State) (h_s : Kept z s) : KeptR z (execImgUpdFinish ring s) := by
  unfold execImgUpdFinish
  repeat' (first
    | with_reducible assumption
    | with_reducible refine fun t => ?_
    | lift_lets -underBinder
    | with_reducible apply done_kept
    | with_reducible apply State.command_kept
    | with_reducible apply cmdImgUpdFinish_kept)

theorem cmdImgUpdCancel_kept {z : State} (ring : Nat) (s : State) (h_s : Kept z s) : Kept z (cmdImgUpdCancel ring s) := by
  unfold cmdImgUpdCancel
  repeat' (first
    | with_reducible assumption
    | lift_lets -underBinder
    | with_reducible apply State.finish_kept
    | with_reducible apply State.updStop_kept
    | split)

theorem execImgUpdCancel_kept {z : State} (ring : Fin 512) (s : State) (h_s : Kept z s) : KeptR z (execImgUpdCancel ring s) := by
  unfold execImgUpdCancel
  repeat' (first
    | with_reducible assumption
    | with_reducible refine fun t => ?_
    | lift_lets -underBinder
    | with_reducible apply done_kept
    | with_reducible apply State.command_kept
    | with_reducible apply cmdImgUpdCancel_kept)

theorem cmdImgConfirm_kept {z : State} (ring : Nat) (s : State) (h_s : Kept z s) : Kept z (cmdImgConfirm ring s) := by
  unfold cmdImgConfirm
  repeat' (first
    | with_reducible assumption
    | (intro x; refine Kept.cut (a := x) ?_ (fun _ => ?_) <;> [subst x; clear_value x])
    | (intro x; subst x)
    | with_reducible apply Kept.ite
    | lift_lets -underBinder
    | with_reducible apply State.finish_kept
    | with_reducible apply State.wr_kept
    | with_reducible apply State.updAppend_kept
    | fail_if_no_progress (with_reducible refine Kept.upd ?_ rfl rfl rfl rfl rfl rfl rfl rfl rfl rfl rfl rfl rfl rfl rfl rfl rfl rfl rfl rfl rfl rfl rfl rfl rfl))

theorem execImgConfirm_kept {z : State} (ring : Fin 512) (s : State) (h_s : Kept z s) : KeptR z (execImgConfirm ring s) := by
  unfold execImgConfirm
  repeat' (first
    | with_reducible assumption
    | with_reducible refine fun t => ?_
    | lift_lets -underBinder
    | with_reducible apply done_kept
    | with_reducible apply State.command_kept
    | with_reducible apply cmdImgConfirm_kept)

theorem cmdImgMinVersion_kept {z : State} (ring : Nat) (p0 : BitVec 64) (s : State) (h_s : Kept z s) : Kept z (cmdImgMinVersion ring p0 s) := by
  unfold cmdImgMinVersion
  repeat' (first
    | with_reducible assumption
    | (intro x; subst x)
    | with_reducible apply Kept.ite
    | lift_lets -underBinder
    | with_reducible apply State.finish_kept
    | fail_if_no_progress (with_reducible refine Kept.upd ?_ rfl rfl rfl rfl rfl rfl rfl rfl rfl rfl rfl rfl rfl rfl rfl rfl rfl rfl rfl rfl rfl rfl rfl rfl rfl))

theorem execImgMinVersion_kept {z : State} (ring : Fin 512) (p0 _p1 : BitVec 64) (s : State) (h_s : Kept z s) : KeptR z (execImgMinVersion ring p0 _p1 s) := by
  unfold execImgMinVersion
  repeat' (first
    | with_reducible assumption
    | with_reducible refine fun t => ?_
    | lift_lets -underBinder
    | with_reducible apply done_kept
    | with_reducible apply State.command_kept
    | with_reducible apply cmdImgMinVersion_kept)

end Sys2Proof.Machine
end

