-- ==== Sys2Proof/Laws/KeptClk.lean ====
section
/-! SUPPORT. What the operations of Machine/Clk.lean keep. -/

namespace Sys2Proof.Machine

theorem execRefclkLoss_kept {z : State} (s : State) (h_s : Kept z s) : KeptR z (execRefclkLoss s) := by
  unfold execRefclkLoss
  repeat' (first
    | with_reducible assumption
    | with_reducible apply KeptR.ite
    | with_reducible apply Kept.next
    | lift_lets -underBinder
    | with_reducible apply done_kept
    | with_reducible apply State.wr_kept
    | with_reducible apply State.bump_kept
    | with_reducible apply State.raise_kept)

theorem execRefRevert_kept {z : State} (s : State) (h_s : Kept z s) : KeptR z (execRefRevert s) := by
  unfold execRefRevert
  repeat' (first
    | with_reducible assumption
    | with_reducible apply KeptR.ite
    | with_reducible apply Kept.next
    | lift_lets -underBinder
    | with_reducible apply State.wr_kept)

theorem State.refSel_kept {z : State} (s : State) (value : Word) (h_s : Kept z s) : Kept z (State.refSel s value) := by
  unfold State.refSel
  repeat' (first
    | with_reducible assumption
    | with_reducible apply Kept.ite
    | lift_lets -underBinder
    | with_reducible apply State.regWrite_kept
    | with_reducible apply State.wr_kept)

theorem execRefSelWrite_kept {z : State} (port : Fin 2) (value : Word) (s : State) (h_s : Kept z s) : KeptR z (execRefSelWrite port value s) := by
  unfold execRefSelWrite
  repeat' (first
    | with_reducible assumption
    | with_reducible apply Kept.next
    | lift_lets -underBinder
    | with_reducible apply onMw0_kept
    | with_reducible apply State.refSel_kept)

theorem State.switchRefused_kept {z : State} (s : State) (d : Nat) (h_s : Kept z s) : Kept z (State.switchRefused s d) := by
  unfold State.switchRefused
  repeat' (first
    | with_reducible assumption
    | with_reducible apply State.raise_kept)

theorem State.switchPll_kept {z : State} (s : State) (d : Nat) (h_s : Kept z s) : Kept z (State.switchPll s d) := by
  unfold State.switchPll
  repeat' (first
    | with_reducible assumption
    | lift_lets -underBinder
    | with_reducible apply State.wr_kept
    | with_reducible apply State.bump_kept
    | with_reducible apply State.raise_kept)

theorem State.askSwitch_kept {z : State} (s : State) (d : Nat) (h_s : Kept z s) : Kept z (State.askSwitch s d) := by
  unfold State.askSwitch
  repeat' (first
    | with_reducible assumption
    | with_reducible apply Kept.ite
    | lift_lets -underBinder
    | with_reducible apply State.switchPll_kept
    | with_reducible apply State.switchRefused_kept)

theorem State.activeFails_kept {z : State} (s : State) (d : Nat) (h_s : Kept z s) : Kept z (State.activeFails s d) := by
  unfold State.activeFails
  repeat' (first
    | with_reducible assumption
    | with_reducible apply Kept.ite
    | lift_lets -underBinder
    | with_reducible apply State.raise_kept
    | with_reducible apply State.askSwitch_kept)

theorem State.pllWorn_kept {z : State} (s : State) (pll : Nat) (h_s : Kept z s) : Kept z (State.pllWorn s pll) := by
  unfold State.pllWorn
  repeat' (first
    | with_reducible assumption
    | with_reducible apply Kept.ite
    | lift_lets -underBinder
    | with_reducible apply State.askSwitch_kept)

theorem execPllLockLoss_kept {z : State} (pll : Fin 6) (s : State) (h_s : Kept z s) : KeptR z (execPllLockLoss pll s) := by
  unfold execPllLockLoss
  repeat' (first
    | with_reducible assumption
    | (intro x; refine KeptR.cut (a := x) ?_ (fun _ => ?_) <;> [subst x; clear_value x])
    | with_reducible apply Kept.ite
    | with_reducible apply KeptR.ite
    | with_reducible apply Kept.next
    | lift_lets -underBinder
    | with_reducible apply State.wr_kept
    | with_reducible apply done_kept
    | with_reducible apply State.activeFails_kept)

theorem State.pllCtrl_kept {z : State} (s : State) (value : Word) (h_s : Kept z s) : Kept z (State.pllCtrl s value) := by
  unfold State.pllCtrl
  repeat' (first
    | with_reducible assumption
    | with_reducible apply Kept.ite
    | lift_lets -underBinder
    | with_reducible apply State.askSwitch_kept
    | with_reducible apply State.regWrite_kept
    | with_reducible refine Kept.foldl ?_ (fun t x ht => ?_))

theorem execPllSwitch_kept {z : State} (port : Fin 2) (value : Word) (s : State) (h_s : Kept z s) : KeptR z (execPllSwitch port value s) := by
  unfold execPllSwitch
  repeat' (first
    | with_reducible assumption
    | lift_lets -underBinder
    | with_reducible apply onMw0_kept
    | with_reducible apply done_kept
    | with_reducible apply State.pllCtrl_kept)

theorem State.clkFallback_kept {z : State} (s : State) (psq : Bool) (h_s : Kept z s) : Kept z (State.clkFallback s psq) := by
  unfold State.clkFallback
  repeat' (first
    | with_reducible assumption
    | with_reducible apply Kept.ite
    | lift_lets -underBinder
    | with_reducible apply State.wr_kept
    | with_reducible apply State.raise_kept)

theorem execClkFallback_kept {z : State} (psq : Bool) (s : State) (h_s : Kept z s) : KeptR z (execClkFallback psq s) := by
  unfold execClkFallback
  repeat' (first
    | with_reducible assumption
    | with_reducible apply KeptR.ite
    | with_reducible apply Kept.next
    | lift_lets -underBinder
    | with_reducible apply done_kept
    | with_reducible apply State.wr_kept
    | with_reducible apply State.clkFallback_kept)

theorem State.hifClockLost_kept {z : State} (s : State) (p : Nat) (h_s : Kept z s) : Kept z (State.hifClockLost s p) := by
  unfold State.hifClockLost
  repeat' (first
    | with_reducible assumption
    | (intro x; subst x)
    | with_reducible apply Kept.ite
    | lift_lets -underBinder
    | with_reducible apply State.wr_kept
    | with_reducible apply State.setPort_kept
    | with_reducible apply State.linkDropped_kept
    | with_reducible apply State.hostPortLost_kept)

theorem execHifClockFail_kept {z : State} (port : Fin 2) (s : State) (h_s : Kept z s) : KeptR z (execHifClockFail port s) := by
  unfold execHifClockFail
  repeat' (first
    | with_reducible assumption
    | with_reducible apply KeptR.ite
    | with_reducible apply Kept.next
    | lift_lets -underBinder
    | with_reducible apply done_kept
    | with_reducible apply State.hifClockLost_kept)

theorem State.monFail_kept {z : State} (s : State) (k : Nat) (h_s : Kept z s) : Kept z (State.monFail s k) := by
  unfold State.monFail
  repeat' (first
    | with_reducible assumption
    | with_reducible apply Kept.ite
    | lift_lets -underBinder
    | with_reducible apply State.activeFails_kept
    | with_reducible apply State.hifClockLost_kept
    | with_reducible apply State.clkFallback_kept)

theorem execFreqMonWindowEnd_kept {z : State} (counts : List (BitVec 24)) (s : State) (h_s : Kept z s) : KeptR z (execFreqMonWindowEnd counts s) := by
  unfold execFreqMonWindowEnd
  repeat' (first
    | with_reducible assumption
    | with_reducible apply Kept.ite
    | with_reducible apply KeptR.ite
    | with_reducible apply Kept.next
    | lift_lets -underBinder
    | with_reducible apply State.wr_kept
    | with_reducible apply State.setReg_kept
    | with_reducible apply done_kept
    | with_reducible apply State.raise_kept
    | with_reducible apply State.monFail_kept
    | with_reducible refine Kept.foldl ?_ (fun t x ht => ?_))

end Sys2Proof.Machine
end

