-- ==== Sys2Proof/Laws/KeptCvn.lean ====
section
/-! SUPPORT. What the operations of Machine/Cvn.lean keep. -/

namespace Sys2Proof.Machine

theorem execCvnChannelEnable_kept {z : State} (port c : Fin 2) (value : Word) (s : State) (h_s : Kept z s) : KeptR z (execCvnChannelEnable port c value s) := by
  unfold execCvnChannelEnable
  repeat' (first
    | with_reducible assumption
    | with_reducible apply KeptR.ite
    | with_reducible apply Kept.next
    | lift_lets -underBinder
    | with_reducible apply onMw0_kept
    | with_reducible apply done_kept
    | with_reducible apply State.cvnCfgWrite_kept)

theorem execCvnTrainDone_kept {z : State} (port : Fin 4) (slow : Bool) (nbr : Fin 4096) (ring : Fin 256) (nbrIsD : Bool) (s : State) (h_s : Kept z s) : KeptR z (execCvnTrainDone port slow nbr ring nbrIsD s) := by
  unfold execCvnTrainDone
  repeat' (first
    | with_reducible assumption
    | (intro x; refine KeptR.cut (a := x) ?_ (fun _ => ?_) <;> [subst x; clear_value x])
    | with_reducible apply Kept.ite
    | with_reducible apply KeptR.ite
    | with_reducible apply Kept.next
    | lift_lets -underBinder
    | with_reducible apply State.linkCame_kept
    | with_reducible apply State.wr_kept
    | with_reducible apply done_kept
    | with_reducible apply State.cvnDown_kept
    | with_reducible apply State.cvnCfgErr_kept
    | with_reducible apply State.onChan_kept
    | with_reducible apply State.cvnSetRate_kept
    | with_reducible apply State.cvnWrap_kept
    | with_reducible apply State.cvnTrained_kept)

theorem execCvnTrainTimeout_kept {z : State} (port : Fin 4) (s : State) (h_s : Kept z s) : KeptR z (execCvnTrainTimeout port s) := by
  unfold execCvnTrainTimeout
  repeat' (first
    | with_reducible assumption
    | (intro x; refine KeptR.cut (a := x) ?_ (fun _ => ?_) <;> [subst x; clear_value x])
    | with_reducible apply Kept.ite
    | with_reducible apply KeptR.ite
    | with_reducible apply Kept.next
    | lift_lets -underBinder
    | with_reducible apply State.onChan_kept
    | with_reducible apply done_kept
    | with_reducible apply State.cvnDown_kept
    | with_reducible apply State.cvnTrained_kept)

theorem State.cycleStart_kept {z : State} (s : State) (c : Nat) (h_s : Kept z s) : Kept z (State.cycleStart s c) := by
  unfold State.cycleStart
  repeat' (first
    | with_reducible assumption
    | (intro x; refine Kept.cut (a := x) ?_ (fun _ => ?_) <;> [subst x; clear_value x])
    | (intro x; subst x)
    | with_reducible apply Kept.ite
    | lift_lets -underBinder
    | with_reducible apply State.onChan_kept
    | with_reducible apply State.cvnSwitch_kept
    | with_reducible apply State.cvnTo_kept
    | split)

theorem execCvnCycleStart_kept {z : State} (s : State) (h_s : Kept z s) : KeptR z (execCvnCycleStart s) := by
  unfold execCvnCycleStart
  repeat' (first
    | with_reducible assumption
    | (intro x; subst x)
    | with_reducible apply Kept.ite
    | lift_lets -underBinder
    | with_reducible apply State.cycleStart_kept
    | with_reducible apply done_kept)

theorem execCvnOpenWindowStart_kept {z : State} (c : Fin 2) (s : State) (h_s : Kept z s) : KeptR z (execCvnOpenWindowStart c s) := by
  unfold execCvnOpenWindowStart
  repeat' (first
    | with_reducible assumption
    | with_reducible apply KeptR.ite
    | with_reducible apply Kept.next
    | lift_lets -underBinder
    | with_reducible apply State.onChan_kept)

theorem execCvnOpenWindowEnd_kept {z : State} (c : Fin 2) (s : State) (h_s : Kept z s) : KeptR z (execCvnOpenWindowEnd c s) := by
  unfold execCvnOpenWindowEnd
  repeat' (first
    | with_reducible assumption
    | with_reducible apply Kept.next
    | lift_lets -underBinder
    | with_reducible apply State.onChan_kept)

theorem State.csRequest_kept {z : State} (s : State) (c : Nat) (h_s : Kept z s) : Kept z (State.csRequest s c).2.2 := by
  unfold State.csRequest
  repeat' (first
    | with_reducible assumption
    | with_reducible apply State.onChan_kept
    | split)

theorem State.csSent_kept {z : State} (s : State) (c : Nat) (cold : Bool) (target flags : Nat) (h_s : Kept z s) : Kept z (State.csSent s c cold target flags) := by
  unfold State.csSent
  repeat' (first
    | with_reducible assumption
    | (intro x; refine Kept.cut (a := x) ?_ (fun _ => ?_) <;> [subst x; clear_value x])
    | (intro x; subst x)
    | with_reducible apply Kept.ite
    | lift_lets -underBinder
    | with_reducible apply State.onChan_kept
    | with_reducible apply State.cvnGuard_kept)

theorem execCvnCsSend_kept {z : State} (c : Fin 2) (late : Bool) (s : State) (h_s : Kept z s) : KeptR z (execCvnCsSend c late s) := by
  unfold execCvnCsSend
  repeat' (first
    | with_reducible assumption
    | (intro x; refine KeptR.cut (a := x) ?_ (fun _ => ?_) <;> [subst x; clear_value x])
    | with_reducible apply Kept.ite
    | with_reducible apply KeptR.ite
    | with_reducible apply Kept.next
    | lift_lets -underBinder
    | with_reducible apply State.cvnBlocked_kept
    | with_reducible apply State.cvnBecomeFirst_kept
    | with_reducible apply State.csRequest_kept
    | with_reducible apply State.csSent_kept
    | with_reducible apply done_kept
    | with_reducible apply State.cvnTell_kept
    | split)

theorem execCvnMoverStart_kept {z : State} (c : Fin 2) (e : Fin 256) (complete : Bool) (ecc : Ecc) (s : State) (h_s : Kept z s) : KeptR z (execCvnMoverStart c e complete ecc s) := by
  unfold execCvnMoverStart
  repeat' (first
    | with_reducible assumption
    | with_reducible apply Kept.next
    | lift_lets -underBinder
    | with_reducible apply done_kept
    | with_reducible apply State.cvnMove_kept
    | split)

theorem execCvnSlotSend_kept {z : State} (c : Fin 2) (e : Fin 256) (late : Bool) (s : State) (h_s : Kept z s) : KeptR z (execCvnSlotSend c e late s) := by
  unfold execCvnSlotSend
  repeat' (first
    | with_reducible assumption
    | (intro x; refine KeptR.cut (a := x) ?_ (fun _ => ?_) <;> [subst x; clear_value x])
    | with_reducible apply KeptR.ite
    | with_reducible apply Kept.next
    | lift_lets -underBinder
    | with_reducible apply State.onChan_kept
    | with_reducible apply State.cvnBlocked_kept
    | with_reducible apply done_kept
    | with_reducible apply State.cvnTell_kept
    | with_reducible apply State.bump_kept
    | with_reducible apply State.cvnGuard_kept
    | split)

theorem execCvnCommitSend_kept {z : State} (c : Fin 2) (late : Bool) (s : State) (h_s : Kept z s) : KeptR z (execCvnCommitSend c late s) := by
  unfold execCvnCommitSend
  repeat' (first
    | with_reducible assumption
    | (intro x; refine KeptR.cut (a := x) ?_ (fun _ => ?_) <;> [subst x; clear_value x])
    | (intro x; subst x)
    | with_reducible apply Kept.ite
    | with_reducible apply KeptR.ite
    | with_reducible apply Kept.next
    | lift_lets -underBinder
    | with_reducible apply done_kept
    | with_reducible apply State.cvnBlocked_kept
    | with_reducible apply State.cvnChangeEnd_kept
    | with_reducible apply State.cvnGuard_kept
    | with_reducible apply State.onChan_kept
    | split)

theorem execDlyReqSend_kept {z : State} (c : Fin 2) (s : State) (h_s : Kept z s) : KeptR z (execDlyReqSend c s) := by
  unfold execDlyReqSend
  repeat' (first
    | with_reducible assumption
    | with_reducible apply KeptR.ite
    | with_reducible apply Kept.next
    | lift_lets -underBinder
    | with_reducible apply done_kept
    | with_reducible apply State.dlyReq_kept)

theorem State.cvnPass_kept {z : State} (s : State) (p : Nat) (f : CvnFrame) (bytes : List Byte) (resid : Nat) (marks : List Byte → List Byte) (proc : State → Nat → Nat → Bool × State) (h_s : Kept z s) (h_proc : ∀ x0 x1 x2, Kept z x0 → Kept z (proc x0 x1 x2).2) : Kept z (State.cvnPass s p f bytes resid marks proc) := by
  unfold State.cvnPass
  repeat' (first
    | with_reducible assumption
    | (intro x; refine Kept.cut (a := x) ?_ (fun _ => ?_) <;> [subst x; clear_value x])
    | (intro x; subst x)
    | with_reducible apply Kept.ite
    | with_reducible apply Kept.ite2
    | lift_lets -underBinder
    | with_reducible apply State.bump_kept
    | with_reducible apply State.emit_kept
    | (with_reducible refine Kept.ofPair (by assumption) ?_)
    | apply h_proc
    | split)

theorem cvnArrive_kept {z : State} (s : State) (p : Nat) (bytes : List Byte) (resid typ : Nat) (marks : CvnFrame → List Byte → List Byte) (proc : CvnFrame → State → Nat → Nat → Bool × State) (h_s : Kept z s) (h_proc : ∀ x0 x1 x2 x3, Kept z x1 → Kept z (proc x0 x1 x2 x3).2) : KeptR z (cvnArrive s p bytes resid typ marks proc) := by
  unfold cvnArrive
  repeat' (first
    | with_reducible assumption
    | with_reducible refine fun t => ?_
    | with_reducible apply KeptR.ite
    | with_reducible apply Kept.next
    | lift_lets -underBinder
    | with_reducible apply State.bump_kept
    | with_reducible apply done_kept
    | with_reducible apply State.cvnPass_kept
    | apply h_proc
    | split)

theorem execCsFrameRx_kept {z : State} (port : Fin 4) (bytes : List Byte) (resid : Nat) (s : State) (h_s : Kept z s) : KeptR z (execCsFrameRx port bytes resid s) := by
  unfold execCsFrameRx
  repeat' (first
    | with_reducible assumption
    | with_reducible refine fun t => ?_
    | (intro x; subst x)
    | lift_lets -underBinder
    | with_reducible apply cvnArrive_kept
    | with_reducible apply State.cvnCs_kept)

theorem execDataFrameRx_kept {z : State} (port : Fin 4) (bytes : List Byte) (resid : Nat) (s : State) (h_s : Kept z s) : KeptR z (execDataFrameRx port bytes resid s) := by
  unfold execDataFrameRx
  repeat' (first
    | with_reducible assumption
    | with_reducible refine fun t => ?_
    | (intro x; subst x)
    | lift_lets -underBinder
    | with_reducible apply cvnArrive_kept
    | with_reducible apply State.cvnSlotFrame_kept
    | with_reducible apply State.publish_kept)

theorem execNullFrameRx_kept {z : State} (port : Fin 4) (bytes : List Byte) (resid : Nat) (s : State) (h_s : Kept z s) : KeptR z (execNullFrameRx port bytes resid s) := by
  unfold execNullFrameRx
  repeat' (first
    | with_reducible assumption
    | with_reducible refine fun t => ?_
    | (intro x; subst x)
    | lift_lets -underBinder
    | with_reducible apply cvnArrive_kept
    | with_reducible apply State.cvnSlotFrame_kept
    | with_reducible apply State.ctlSet_kept)

theorem State.leaveEvent_kept {z : State} (s : State) (c src : Nat) (h_s : Kept z s) : Kept z (State.leaveEvent s c src) := by
  unfold State.leaveEvent
  repeat' (first
    | with_reducible assumption
    | with_reducible apply State.event_kept)

theorem execLeaveFrameRx_kept {z : State} (port : Fin 4) (bytes : List Byte) (resid : Nat) (s : State) (h_s : Kept z s) : KeptR z (execLeaveFrameRx port bytes resid s) := by
  unfold execLeaveFrameRx
  repeat' (first
    | with_reducible assumption
    | with_reducible refine fun t => ?_
    | (intro x; subst x)
    | with_reducible apply Kept.ite
    | with_reducible apply Kept.ite2
    | lift_lets -underBinder
    | with_reducible apply cvnArrive_kept
    | with_reducible apply State.onChan_kept
    | with_reducible apply State.leaveEvent_kept
    | with_reducible apply State.cvnSlotFrame_kept
    | with_reducible apply State.areaCtl_kept
    | with_reducible apply State.ctlSet_kept
    | (with_reducible refine Kept.ofPair (by assumption) ?_)
    | split)

theorem execCommitFrameRx_kept {z : State} (port : Fin 4) (bytes : List Byte) (resid : Nat) (s : State) (h_s : Kept z s) : KeptR z (execCommitFrameRx port bytes resid s) := by
  unfold execCommitFrameRx
  repeat' (first
    | with_reducible assumption
    | with_reducible refine fun t => ?_
    | (intro x; refine Kept.cut (a := x) ?_ (fun _ => ?_) <;> [subst x; clear_value x])
    | (intro x; subst x)
    | with_reducible apply Kept.ite
    | with_reducible apply Kept.ite2
    | lift_lets -underBinder
    | with_reducible apply cvnArrive_kept
    | with_reducible apply State.wr_kept
    | with_reducible apply State.onChan_kept
    | with_reducible apply State.event_kept)

theorem execCvnOwnFrameReturn_kept {z : State} (port : Fin 4) (bytes : List Byte) (s : State) (h_s : Kept z s) : KeptR z (execCvnOwnFrameReturn port bytes s) := by
  unfold execCvnOwnFrameReturn
  repeat' (first
    | with_reducible assumption
    | (intro x; refine KeptR.cut (a := x) ?_ (fun _ => ?_) <;> [subst x; clear_value x])
    | with_reducible apply Kept.ite
    | with_reducible apply KeptR.ite
    | with_reducible apply Kept.next
    | lift_lets -underBinder
    | with_reducible apply State.bump_kept
    | with_reducible apply State.cvnViolate_kept
    | with_reducible apply done_kept
    | with_reducible apply State.wr_kept
    | with_reducible apply State.onChan_kept
    | split)

theorem execDlyReqRx_kept {z : State} (port : Fin 4) (bytes : List Byte) (turn : Nat) (s : State) (h_s : Kept z s) : KeptR z (execDlyReqRx port bytes turn s) := by
  unfold execDlyReqRx
  repeat' (first
    | with_reducible assumption
    | (intro x; subst x)
    | with_reducible apply Kept.ite
    | with_reducible apply KeptR.ite
    | with_reducible apply Kept.next
    | lift_lets -underBinder
    | with_reducible apply State.bump_kept
    | with_reducible apply State.onChan_kept
    | with_reducible apply done_kept
    | with_reducible apply State.emit_kept
    | split)

theorem execDlyRspRx_kept {z : State} (port : Fin 4) (bytes : List Byte) (s : State) (h_s : Kept z s) : KeptR z (execDlyRspRx port bytes s) := by
  unfold execDlyRspRx
  repeat' (first
    | with_reducible assumption
    | with_reducible apply KeptR.ite
    | with_reducible apply Kept.next
    | lift_lets -underBinder
    | with_reducible apply State.bump_kept
    | with_reducible apply State.dlyValue_kept
    | split)

theorem execCvnSlotMissed_kept {z : State} (c : Fin 2) (e : Fin 256) (s : State) (h_s : Kept z s) : KeptR z (execCvnSlotMissed c e s) := by
  unfold execCvnSlotMissed
  repeat' (first
    | with_reducible assumption
    | with_reducible apply KeptR.ite
    | with_reducible apply Kept.next
    | lift_lets -underBinder
    | with_reducible apply done_kept
    | with_reducible apply State.bump_kept
    | with_reducible apply State.ctlSet_kept)

theorem execCvnCsMissing_kept {z : State} (c : Fin 2) (s : State) (h_s : Kept z s) : KeptR z (execCvnCsMissing c s) := by
  unfold execCvnCsMissing
  repeat' (first
    | with_reducible assumption
    | with_reducible apply KeptR.ite
    | with_reducible apply Kept.next
    | lift_lets -underBinder
    | with_reducible apply done_kept
    | with_reducible apply State.cvnListen_kept)

theorem execCvnListenTimeout_kept {z : State} (c : Fin 2) (s : State) (h_s : Kept z s) : KeptR z (execCvnListenTimeout c s) := by
  unfold execCvnListenTimeout
  repeat' (first
    | with_reducible assumption
    | with_reducible apply KeptR.ite
    | with_reducible apply Kept.next
    | lift_lets -underBinder
    | with_reducible apply done_kept
    | with_reducible apply State.onChan_kept
    | with_reducible apply State.cvnTo_kept)

theorem execCvnLoopbackEnd_kept {z : State} (c : Fin 2) (s : State) (h_s : Kept z s) : KeptR z (execCvnLoopbackEnd c s) := by
  unfold execCvnLoopbackEnd
  repeat' (first
    | with_reducible assumption
    | with_reducible apply KeptR.ite
    | with_reducible apply Kept.next
    | lift_lets -underBinder
    | with_reducible apply done_kept
    | with_reducible apply State.onChan_kept
    | with_reducible apply State.cvnWrap_kept)

theorem execCvnLeave_kept {z : State} (c : Fin 2) (s : State) (h_s : Kept z s) : KeptR z (execCvnLeave c s) := by
  unfold execCvnLeave
  repeat' (first
    | with_reducible assumption
    | (intro x; refine KeptR.cut (a := x) ?_ (fun _ => ?_) <;> [subst x; clear_value x])
    | with_reducible apply Kept.ite
    | with_reducible apply Kept.next
    | lift_lets -underBinder
    | with_reducible apply State.cvnTellCycle_kept
    | with_reducible apply State.cvnUnfirst_kept
    | with_reducible apply State.wr_kept
    | with_reducible apply done_kept
    | with_reducible apply State.onChan_kept
    | split)

theorem execCvnBankValidate_kept {z : State} (port c bank : Fin 2) (value : Word) (s : State) (h_s : Kept z s) : KeptR z (execCvnBankValidate port c bank value s) := by
  unfold execCvnBankValidate
  repeat' (first
    | with_reducible assumption
    | with_reducible apply KeptR.ite
    | with_reducible apply Kept.next
    | lift_lets -underBinder
    | with_reducible apply onMw0_kept
    | with_reducible apply done_kept
    | with_reducible apply State.cvnTableWrite_kept)

theorem execCvnTableMessage_kept {z : State} (k : Fin 4) (ecc : Ecc) (s : State) (h_s : Kept z s) : KeptR z (execCvnTableMessage k ecc s) := by
  unfold execCvnTableMessage
  repeat' (first
    | with_reducible assumption
    | (intro x; refine KeptR.cut (a := x) ?_ (fun _ => ?_) <;> [subst x; clear_value x])
    | with_reducible apply Kept.ite
    | with_reducible apply KeptR.ite
    | with_reducible apply Kept.next
    | lift_lets -underBinder
    | with_reducible apply State.takeMsg_kept
    | with_reducible apply done_kept
    | with_reducible apply State.steerRej_kept
    | with_reducible apply State.bankUe_kept
    | with_reducible apply State.bankCe_kept
    | with_reducible apply State.cvnLoad_kept
    | with_reducible apply State.ringDb_kept)

theorem State.cmdCvnMode_kept {z : State} (s : State) (ring : Nat) (p0 : Nat) (h_s : Kept z s) : Kept z (State.cmdCvnMode s ring p0) := by
  unfold State.cmdCvnMode
  repeat' (first
    | with_reducible assumption
    | (intro x; refine Kept.cut (a := x) ?_ (fun _ => ?_) <;> [subst x; clear_value x])
    | with_reducible apply Kept.ite
    | lift_lets -underBinder
    | with_reducible apply State.finish_kept
    | with_reducible apply State.wr_kept
    | with_reducible apply State.event_kept
    | with_reducible apply State.raise_kept
    | with_reducible apply State.onChan_kept)

theorem execCvnMode_kept {z : State} (ring : Fin 512) (p0 : BitVec 64) (s : State) (h_s : Kept z s) : KeptR z (execCvnMode ring p0 s) := by
  unfold execCvnMode
  repeat' (first
    | with_reducible assumption
    | with_reducible refine fun t => ?_
    | lift_lets -underBinder
    | with_reducible apply done_kept
    | with_reducible apply State.command_kept
    | with_reducible apply State.cmdCvnMode_kept)

theorem State.cmdCvnTable_kept {z : State} (s : State) (ring : Nat) (p0 p1 : Nat) (dma : Option (List Byte)) (h_s : Kept z s) : Kept z (State.cmdCvnTable s ring p0 p1 dma) := by
  unfold State.cmdCvnTable
  repeat' (first
    | with_reducible assumption
    | with_reducible refine fun t => ?_
    | with_reducible apply Kept.ite
    | lift_lets -underBinder
    | with_reducible apply State.finish_kept
    | with_reducible apply State.withDma_kept
    | with_reducible apply State.cvnLoad_kept)

theorem execCvnTable_kept {z : State} (ring : Fin 512) (p0 p1 : BitVec 64) (dma : Option (List Byte)) (s : State) (h_s : Kept z s) : KeptR z (execCvnTable ring p0 p1 dma s) := by
  unfold execCvnTable
  repeat' (first
    | with_reducible assumption
    | with_reducible refine fun t => ?_
    | lift_lets -underBinder
    | with_reducible apply done_kept
    | with_reducible apply State.command_kept
    | with_reducible apply State.cmdCvnTable_kept)

end Sys2Proof.Machine
end

