-- ==== Sys2Proof/Laws/KeptGen.lean ====
section
/-! SUPPORT. What the operations of Machine/Gen.lean keep. -/

namespace Sys2Proof.Machine

theorem execGenModeReq_kept {z : State} (port : Fin 2) (value : Word) (s : State) (h_s : Kept z s) : KeptR z (execGenModeReq port value s) := by
  unfold execGenModeReq
  repeat' (first
    | with_reducible assumption
    | lift_lets -underBinder
    | with_reducible apply onMw0_kept
    | with_reducible apply done_kept
    | with_reducible apply State.modeRequest_kept)

theorem cmdMode_kept {z : State} (ring : Nat) (p0 : BitVec 64) (s : State) (h_s : Kept z s) : Kept z (cmdMode ring p0 s) := by
  unfold cmdMode
  repeat' (first
    | with_reducible assumption
    | with_reducible apply Kept.ite
    | lift_lets -underBinder
    | with_reducible apply State.modeRequest_kept
    | with_reducible apply State.finish_kept)

theorem execMode_kept {z : State} (ring : Fin 512) (p0 : BitVec 64) (s : State) (h_s : Kept z s) : KeptR z (execMode ring p0 s) := by
  unfold execMode
  repeat' (first
    | with_reducible assumption
    | with_reducible refine fun t => ?_
    | lift_lets -underBinder
    | with_reducible apply done_kept
    | with_reducible apply State.command_kept
    | with_reducible apply cmdMode_kept)

theorem State.resetKey_kept {z : State} (s : State) (h_s : Kept z s) : Kept z (State.resetKey s) := by
  unfold State.resetKey
  repeat' (first
    | with_reducible assumption
    | with_reducible apply State.raise_kept)

theorem execWarmResetRequest_kept {z : State} (port : Fin 2) (key : BitVec 8) (s : State) (h_s : Kept z s) : KeptR z (execWarmResetRequest port key s) := by
  unfold execWarmResetRequest
  repeat' (first
    | with_reducible assumption
    | with_reducible apply Kept.ite
    | lift_lets -underBinder
    | with_reducible apply onMw0_kept
    | with_reducible apply done_kept
    | with_reducible apply State.quiesceWarm_kept
    | with_reducible apply State.resetKey_kept)

theorem execBlockReset_kept {z : State} (port : Fin 2) (key : BitVec 8) (blk : BitVec 5) (s : State) (h_s : Kept z s) : KeptR z (execBlockReset port key blk s) := by
  unfold execBlockReset
  repeat' (first
    | with_reducible assumption
    | with_reducible apply Kept.ite
    | lift_lets -underBinder
    | with_reducible apply onMw0_kept
    | with_reducible apply done_kept
    | with_reducible apply State.resetKey_kept
    | with_reducible apply State.blockReset_kept)

theorem execBlockResetDone_kept {z : State} (blk : BitVec 5) (s : State) (h_s : Kept z s) : KeptR z (execBlockResetDone blk s) := by
  unfold execBlockResetDone
  repeat' (first
    | with_reducible assumption
    | (intro x; subst x)
    | with_reducible apply Kept.next
    | lift_lets -underBinder
    | fail_if_no_progress (with_reducible refine Kept.upd ?_ rfl rfl rfl rfl rfl rfl rfl rfl rfl rfl rfl rfl rfl rfl rfl rfl rfl rfl rfl rfl rfl rfl rfl rfl rfl))

theorem execScLockstepFail_kept {z : State} (s : State) (h_s : Kept z s) : KeptR z (execScLockstepFail s) := by
  unfold execScLockstepFail
  repeat' (first
    | with_reducible assumption
    | with_reducible apply KeptR.ite
    | with_reducible apply Kept.next
    | lift_lets -underBinder
    | with_reducible apply done_kept
    | with_reducible apply State.scLost_kept)

theorem execScWatchdogExpiry_kept {z : State} (s : State) (h_s : Kept z s) : KeptR z (execScWatchdogExpiry s) := by
  unfold execScWatchdogExpiry
  repeat' (first
    | with_reducible assumption
    | with_reducible apply KeptR.ite
    | with_reducible apply Kept.next
    | lift_lets -underBinder
    | with_reducible apply done_kept
    | with_reducible apply State.scLost_kept)

theorem execSupervisorDoubleFail_kept {z : State} (s : State) (h_s : Kept z s) : KeptR z (execSupervisorDoubleFail s) := by
  unfold execSupervisorDoubleFail
  repeat' (first
    | with_reducible assumption
    | with_reducible apply KeptR.ite
    | with_reducible apply Kept.next
    | lift_lets -underBinder
    | with_reducible apply done_kept
    | with_reducible apply State.scFailed_kept
    | with_reducible apply State.scDouble_kept)

theorem execEjectNAssert_kept {z : State} (s : State) (h_s : Kept z s) : KeptR z (execEjectNAssert s) := by
  unfold execEjectNAssert
  repeat' (first
    | with_reducible assumption
    | (intro x; subst x)
    | with_reducible apply KeptR.ite
    | with_reducible apply Kept.next
    | lift_lets -underBinder
    | with_reducible apply State.pwrShow_kept
    | with_reducible apply done_kept
    | with_reducible apply State.quiesceEject_kept
    | fail_if_no_progress (with_reducible refine Kept.upd ?_ rfl rfl rfl rfl rfl rfl rfl rfl rfl rfl rfl rfl rfl rfl rfl rfl rfl rfl rfl rfl rfl rfl rfl rfl rfl))

theorem execEjectNDeassert_kept {z : State} (s : State) (h_s : Kept z s) : KeptR z (execEjectNDeassert s) := by
  unfold execEjectNDeassert
  repeat' (first
    | with_reducible assumption
    | (intro x; subst x)
    | with_reducible apply KeptR.ite
    | with_reducible apply Kept.next
    | lift_lets -underBinder
    | with_reducible apply State.pwrShow_kept
    | with_reducible apply done_kept
    | with_reducible apply State.quiesceAbort_kept
    | fail_if_no_progress (with_reducible refine Kept.upd ?_ rfl rfl rfl rfl rfl rfl rfl rfl rfl rfl rfl rfl rfl rfl rfl rfl rfl rfl rfl rfl rfl rfl rfl rfl rfl))

theorem execPresentNHigh_kept {z : State} (s : State) (h_s : Kept z s) : KeptR z (execPresentNHigh s) := by
  unfold execPresentNHigh
  repeat' (first
    | with_reducible assumption
    | (intro x; subst x)
    | with_reducible apply KeptR.ite
    | with_reducible apply Kept.next
    | lift_lets -underBinder
    | with_reducible apply State.pwrShow_kept
    | with_reducible apply State.powerOff_kept
    | with_reducible apply done_kept
    | with_reducible apply State.raise_kept
    | with_reducible apply State.bump_kept
    | with_reducible apply State.quiesceEject_kept
    | fail_if_no_progress (with_reducible refine Kept.upd ?_ rfl rfl rfl rfl rfl rfl rfl rfl rfl rfl rfl rfl rfl rfl rfl rfl rfl rfl rfl rfl rfl rfl rfl rfl rfl))

theorem execPresentNLow_kept {z : State} (s : State) (h_s : Kept z s) : KeptR z (execPresentNLow s) := by
  unfold execPresentNLow
  repeat' (first
    | with_reducible assumption
    | (intro x; subst x)
    | with_reducible apply KeptR.ite
    | with_reducible apply Kept.next
    | lift_lets -underBinder
    | with_reducible apply State.pwrShow_kept
    | with_reducible apply done_kept
    | with_reducible apply State.quiesceAbort_kept
    | fail_if_no_progress (with_reducible refine Kept.upd ?_ rfl rfl rfl rfl rfl rfl rfl rfl rfl rfl rfl rfl rfl rfl rfl rfl rfl rfl rfl rfl rfl rfl rfl rfl rfl))

theorem State.drainRings_kept {z : State} (s : State) (h_s : Kept z s) : Kept z (State.drainRings s) := by
  unfold State.drainRings
  repeat' (first
    | with_reducible assumption
    | (intro x; subst x)
    | with_reducible apply Kept.ite
    | lift_lets -underBinder
    | with_reducible apply State.flushPosted_kept
    | with_reducible refine Kept.foldl ?_ (fun t x ht => ?_))

theorem State.quiesceTell_kept {z : State} (s : State) (q : Quiesce) (h_s : Kept z s) : Kept z (State.quiesceTell s q) := by
  unfold State.quiesceTell
  repeat' (first
    | with_reducible assumption
    | with_reducible apply Kept.ite
    | lift_lets -underBinder
    | with_reducible apply State.ejectEvent_kept
    | with_reducible apply State.modeEvent_kept
    | split)

theorem execQuiesceDrainDone_kept {z : State} (s : State) (h_s : Kept z s) : KeptR z (execQuiesceDrainDone s) := by
  unfold execQuiesceDrainDone
  repeat' (first
    | with_reducible assumption
    | (intro x; refine KeptR.cut (a := x) ?_ (fun _ => ?_) <;> [subst x; clear_value x])
    | with_reducible apply KeptR.ite
    | with_reducible apply Kept.next
    | lift_lets -underBinder
    | with_reducible apply done_kept
    | with_reducible apply State.drainRings_kept
    | with_reducible apply State.quiesceTell_kept
    | fail_if_no_progress (with_reducible refine Kept.upd ?_ rfl rfl rfl rfl rfl rfl rfl rfl rfl rfl rfl rfl rfl rfl rfl rfl rfl rfl rfl rfl rfl rfl rfl rfl rfl)
    | split)

theorem execNvmFlushDone_kept {z : State} (s : State) (h_s : Kept z s) : KeptR z (execNvmFlushDone s) := by
  unfold execNvmFlushDone
  repeat' (first
    | with_reducible assumption
    | (intro x; refine KeptR.cut (a := x) ?_ (fun _ => ?_) <;> [subst x; clear_value x])
    | with_reducible apply KeptR.ite
    | with_reducible apply Kept.next
    | lift_lets -underBinder
    | with_reducible apply State.flushFaultLog_kept
    | with_reducible apply State.flushWear_kept
    | with_reducible apply done_kept
    | with_reducible apply State.warmReset_kept
    | fail_if_no_progress (with_reducible refine Kept.upd ?_ rfl rfl rfl rfl rfl rfl rfl rfl rfl rfl rfl rfl rfl rfl rfl rfl rfl rfl rfl rfl rfl rfl rfl rfl rfl)
    | split)

theorem execQuiesceComplete_kept {z : State} (s : State) (h_s : Kept z s) : KeptR z (execQuiesceComplete s) := by
  unfold execQuiesceComplete
  repeat' (first
    | with_reducible assumption
    | with_reducible apply KeptR.ite
    | with_reducible apply Kept.next
    | lift_lets -underBinder
    | with_reducible apply State.wr_kept
    | with_reducible apply done_kept
    | with_reducible apply State.warmReset_kept
    | with_reducible apply State.powerOff_kept
    | split)

theorem execStandbyReached_kept {z : State} (s : State) (h_s : Kept z s) : KeptR z (execStandbyReached s) := by
  unfold execStandbyReached
  repeat' (first
    | with_reducible assumption
    | with_reducible apply KeptR.ite
    | with_reducible apply Kept.next
    | lift_lets -underBinder
    | with_reducible apply done_kept
    | with_reducible apply State.reachStandby_kept
    | split)

theorem execStandbyWake_kept {z : State} (src : Fin 8) (bus : Fin 8) (ide : Bool) (id : BitVec 29) (s : State) (h_s : Kept z s) : KeptR z (execStandbyWake src bus ide id s) := by
  unfold execStandbyWake
  repeat' (first
    | with_reducible assumption
    | with_reducible apply Kept.ite
    | with_reducible apply KeptR.ite
    | with_reducible apply Kept.next
    | lift_lets -underBinder
    | with_reducible apply done_kept
    | with_reducible apply State.wakeUp_kept)

end Sys2Proof.Machine
end

