-- ==== Sys2Proof/Laws/KeptHif.lean ====
section
/-! SUPPORT. What the operations of Machine/Hif.lean keep. -/

namespace Sys2Proof.Machine

theorem execRingBind_kept {z : State} (port : Fin 2) (ring : Fin 512) (value : Word) (s : State) (h_s : Kept z s) : KeptR z (execRingBind port ring value s) := by
  unfold execRingBind
  repeat' (first
    | with_reducible assumption
    | with_reducible apply KeptR.ite
    | with_reducible apply Kept.next
    | lift_lets -underBinder
    | with_reducible apply onMw0_kept
    | with_reducible apply done_kept
    | with_reducible apply State.ctxWrite_kept
    | with_reducible apply State.regWrite_kept
    | with_reducible apply State.bindRing_kept)

theorem execRingUnbind_kept {z : State} (port : Fin 2) (ring : Fin 512) (s : State) (h_s : Kept z s) : KeptR z (execRingUnbind port ring s) := by
  unfold execRingUnbind
  repeat' (first
    | with_reducible assumption
    | lift_lets -underBinder
    | with_reducible apply onMw0_kept
    | with_reducible apply done_kept
    | with_reducible apply State.unbindRing_kept)

theorem execRingDrainDone_kept {z : State} (ring : Fin 512) (s : State) (h_s : Kept z s) : KeptR z (execRingDrainDone ring s) := by
  unfold execRingDrainDone
  repeat' (first
    | with_reducible assumption
    | with_reducible apply Kept.ite
    | with_reducible apply KeptR.ite
    | with_reducible apply Kept.next
    | lift_lets -underBinder
    | with_reducible apply State.flushPosted_kept
    | with_reducible apply done_kept
    | with_reducible apply State.endDrain_kept)

theorem execDbBaseWrite_kept {z : State} (port page : Fin 2) (value : BitVec 64) (s : State) (h_s : Kept z s) : KeptR z (execDbBaseWrite port page value s) := by
  unfold execDbBaseWrite
  repeat' (first
    | with_reducible assumption
    | with_reducible apply KeptR.ite
    | with_reducible apply Kept.next
    | lift_lets -underBinder
    | with_reducible apply onMw0_kept
    | with_reducible apply done_kept
    | with_reducible apply State.raise_kept
    | with_reducible apply State.setReg64_kept)

theorem execDoorbellPoll_kept {z : State} (port : Fin 2) (slots : List (Fin 512 × Word)) (s : State) (h_s : Kept z s) : KeptR z (execDoorbellPoll port slots s) := by
  unfold execDoorbellPoll
  repeat' (first
    | with_reducible assumption
    | with_reducible apply Kept.ite
    | with_reducible apply KeptR.ite
    | with_reducible apply Kept.next
    | lift_lets -underBinder
    | with_reducible apply done_kept
    | with_reducible apply State.slotUpdate_kept
    | with_reducible refine Kept.foldl ?_ (fun t x ht => ?_))

theorem State.chainDone_kept {z : State} (s : State) (r : Nat) (idx : List Nat) (st : Status) (h_s : Kept z s) : Kept z (State.chainDone s r idx st) := by
  unfold State.chainDone
  repeat' (first
    | with_reducible assumption
    | lift_lets -underBinder
    | with_reducible apply State.ringComplete_kept
    | with_reducible refine Kept.foldl ?_ (fun t x ht => ?_))

theorem State.ftxDest_kept {z : State} (s : State) (p q : Nat) (bs : List Byte) (ecc : Option (Nat × Ecc)) (h_s : Kept z s) : Kept z (State.ftxDest s p q bs ecc).2 := by
  unfold State.ftxDest
  repeat' (first
    | with_reducible assumption
    | (intro x; refine Kept.cut (a := x) ?_ (fun _ => ?_) <;> [subst x; clear_value x])
    | (intro x; subst x)
    | with_reducible apply Kept.ite2
    | lift_lets -underBinder
    | with_reducible apply State.fctEcc_kept
    | with_reducible apply State.fctRewrite_kept
    | split)

theorem State.ftxSend_kept {z : State} (s : State) (r : Nat) (idx : List Nat) (q : Nat) (bs : List Byte) (ecc : Option (Nat × Ecc)) (h_s : Kept z s) : Kept z (State.ftxSend s r idx q bs ecc) := by
  unfold State.ftxSend
  repeat' (first
    | with_reducible assumption
    | (intro x; refine Kept.cut (a := x) ?_ (fun _ => ?_) <;> [subst x; clear_value x])
    | (intro x; subst x)
    | with_reducible apply Kept.ite
    | lift_lets -underBinder
    | with_reducible apply State.ftxDest_kept
    | with_reducible apply State.ringDrop_kept
    | with_reducible apply State.chainDone_kept
    | with_reducible apply State.store_kept
    | with_reducible apply State.deliver_kept
    | (with_reducible refine Kept.ofPair (by assumption) ?_)
    | split)

theorem execFtxFrame_kept {z : State} (ring : Fin 512) (descs : List (BitVec 64 × BitVec 64)) (data : List Byte) (ecc : Option (Fin 33024 × Ecc)) (s : State) (h_s : Kept z s) : KeptR z (execFtxFrame ring descs data ecc s) := by
  unfold execFtxFrame
  repeat' (first
    | with_reducible assumption
    | with_reducible apply KeptR.ite
    | with_reducible apply Kept.next
    | lift_lets -underBinder
    | with_reducible apply done_kept
    | with_reducible apply State.ringStart_kept
    | with_reducible apply State.chainDone_kept
    | with_reducible apply State.ftxSend_kept)

theorem State.frxWrite_kept {z : State} (s : State) (r : Nat) (f : Frame) (xs : List (Nat × Nat × Nat)) (bs : List Byte)
    (h_s : Kept z s) : Kept z (s.frxWrite r f xs bs) := by
  induction xs generalizing s bs with
  | nil => exact h_s
  | cons e es ih =>
    obtain ⟨i, addr, n⟩ := e
    unfold State.frxWrite
    with_reducible apply ih
    with_reducible apply State.ringComplete_kept
    with_reducible apply State.emit_kept
    exact h_s

theorem execFrxFrameDeliver_kept {z : State} (ring : Fin 512) (bufs : List (BitVec 64 × BitVec 64)) (s : State) (h_s : Kept z s) : KeptR z (execFrxFrameDeliver ring bufs s) := by
  unfold execFrxFrameDeliver
  repeat' (first
    | with_reducible assumption
    | (intro x; refine KeptR.cut (a := x) ?_ (fun _ => ?_) <;> [subst x; clear_value x])
    | (intro x; subst x)
    | with_reducible apply KeptR.ite
    | with_reducible apply Kept.next
    | lift_lets -underBinder
    | with_reducible apply done_kept
    | with_reducible apply State.setFrxQ_kept
    | with_reducible apply State.collect_kept
    | with_reducible apply State.ringStart_kept
    | with_reducible apply State.chainDone_kept
    | with_reducible apply State.frxWrite_kept
    | split)

theorem State.pdxIn_kept {z : State} (s : State) (m o b off : Nat) (xs : List (List Byte)) (h_s : Kept z s) : Kept z (State.pdxIn s m o b off xs) := by
  induction xs generalizing s m o b off with
  | nil =>
    unfold State.pdxIn
    assumption
  | cons e es ih =>
    unfold State.pdxIn
    repeat' (first
      | with_reducible assumption
      | apply ih
      | lift_lets -underBinder
      | with_reducible apply State.bankStore_kept)

theorem State.pdxOut_kept {z : State} (s : State) (m o b off : Nat) (ecc : Option (Nat × Ecc)) (xs : Nat) (h_s : Kept z s) : Kept z (State.pdxOut s m o b off ecc xs).2 := by
  induction xs generalizing s m o b off ecc with
  | zero =>
    unfold State.pdxOut
    assumption
  | succ n ih =>
    unfold State.pdxOut
    repeat' (first
      | with_reducible assumption
      | apply ih
      | (intro x; subst x)
      | lift_lets -underBinder
      | with_reducible apply State.bankLoad_kept
      | (with_reducible refine Kept.ofPair (by assumption) ?_)
      | split)

theorem execPdxTransfer_kept {z : State} (ring : Fin 512) (q0 q1 q2 q3 : BitVec 64) (data : List Byte) (ecc : Option (Fin 16384 × Ecc)) (s : State) (h_s : Kept z s) : KeptR z (execPdxTransfer ring q0 q1 q2 q3 data ecc s) := by
  unfold execPdxTransfer
  repeat' (first
    | with_reducible assumption
    | (intro x; refine KeptR.cut (a := x) ?_ (fun _ => ?_) <;> [subst x; clear_value x])
    | (intro x; subst x)
    | with_reducible apply KeptR.ite
    | with_reducible apply Kept.next
    | lift_lets -underBinder
    | with_reducible apply State.ringStart_kept
    | with_reducible apply done_kept
    | with_reducible apply State.ringComplete_kept
    | with_reducible apply State.countWait_kept
    | with_reducible apply State.nonOwner_kept
    | with_reducible apply State.pdxOut_kept
    | with_reducible apply State.emit_kept
    | with_reducible apply State.pdxIn_kept
    | split)

theorem execDmaReadError_kept {z : State} (port : Fin 2) (ring : Option (Fin 512)) (fetched : Bool) (addr : BitVec 64) (size : Fin 4097) (s : State) (h_s : Kept z s) : KeptR z (execDmaReadError port ring fetched addr size s) := by
  unfold execDmaReadError
  repeat' (first
    | with_reducible assumption
    | with_reducible apply KeptR.ite
    | with_reducible apply Kept.next
    | lift_lets -underBinder
    | with_reducible apply done_kept
    | with_reducible apply State.dmaError_kept
    | with_reducible apply State.ringStart_kept
    | with_reducible apply State.ringComplete_kept
    | with_reducible apply State.stopRing_kept
    | split)

theorem execMsixModerationExpiry_kept {z : State} (ring : Fin 512) (s : State) (h_s : Kept z s) : KeptR z (execMsixModerationExpiry ring s) := by
  unfold execMsixModerationExpiry
  repeat' (first
    | with_reducible assumption
    | with_reducible apply KeptR.ite
    | with_reducible apply Kept.next
    | lift_lets -underBinder
    | with_reducible apply done_kept
    | with_reducible apply State.setRing_kept
    | with_reducible apply State.raiseVec_kept)

theorem execHostLinkDown_kept {z : State} (port : Fin 2) (s : State) (h_s : Kept z s) : KeptR z (execHostLinkDown port s) := by
  unfold execHostLinkDown
  repeat' (first
    | with_reducible assumption
    | with_reducible apply KeptR.ite
    | with_reducible apply Kept.next
    | lift_lets -underBinder
    | with_reducible apply done_kept
    | with_reducible apply State.linkDropped_kept)

theorem execHostLinkUp_kept {z : State} (port : Fin 2) (width speed : Fin 5) (s : State) (h_s : Kept z s) : KeptR z (execHostLinkUp port width speed s) := by
  unfold execHostLinkUp
  repeat' (first
    | with_reducible assumption
    | with_reducible apply KeptR.ite
    | with_reducible apply Kept.next
    | lift_lets -underBinder
    | with_reducible apply done_kept
    | with_reducible apply State.setPort_kept
    | with_reducible apply State.portBack_kept)

theorem execHostBmeChange_kept {z : State} (port : Fin 2) (on : Bool) (s : State) (h_s : Kept z s) : KeptR z (execHostBmeChange port on s) := by
  unfold execHostBmeChange
  repeat' (first
    | with_reducible assumption
    | with_reducible apply KeptR.ite
    | with_reducible apply Kept.next
    | lift_lets -underBinder
    | with_reducible apply done_kept
    | with_reducible apply State.setPort_kept
    | with_reducible apply State.portBack_kept)

theorem execHostD3hotEntry_kept {z : State} (port : Fin 2) (s : State) (h_s : Kept z s) : KeptR z (execHostD3hotEntry port s) := by
  unfold execHostD3hotEntry
  repeat' (first
    | with_reducible assumption
    | with_reducible apply KeptR.ite
    | with_reducible apply Kept.next
    | lift_lets -underBinder
    | with_reducible apply done_kept
    | with_reducible apply State.setPort_kept
    | with_reducible apply State.hostPortLost_kept)

theorem execHifPerst_kept {z : State} (port : Fin 2) (low : Bool) (s : State) (h_s : Kept z s) : KeptR z (execHifPerst port low s) := by
  unfold execHifPerst
  repeat' (first
    | with_reducible assumption
    | with_reducible apply KeptR.ite
    | with_reducible apply Kept.next
    | lift_lets -underBinder
    | with_reducible apply done_kept
    | with_reducible apply State.setPort_kept)

theorem execHostPortLost_kept {z : State} (port : Fin 2) (s : State) (h_s : Kept z s) : KeptR z (execHostPortLost port s) := by
  unfold execHostPortLost
  repeat' (first
    | with_reducible assumption
    | with_reducible apply KeptR.ite
    | with_reducible apply Kept.next
    | lift_lets -underBinder
    | with_reducible apply done_kept
    | with_reducible apply State.hostPortLost_kept)

theorem cmdRingAdopt_kept {z : State} (ring : Nat) (p0 p1 p2 : BitVec 64) (dma : Option (List Byte)) (s : State) (h_s : Kept z s) : Kept z (cmdRingAdopt ring p0 p1 p2 dma s) := by
  unfold cmdRingAdopt
  repeat' (first
    | with_reducible assumption
    | with_reducible refine fun t => ?_
    | with_reducible apply Kept.ite
    | lift_lets -underBinder
    | with_reducible apply State.finish_kept
    | with_reducible apply State.withDma_kept
    | with_reducible apply State.adoptAll_kept)

theorem execRingAdopt_kept {z : State} (ring : Fin 512) (p0 p1 p2 : BitVec 64) (dma : Option (List Byte)) (s : State) (h_s : Kept z s) : KeptR z (execRingAdopt ring p0 p1 p2 dma s) := by
  unfold execRingAdopt
  repeat' (first
    | with_reducible assumption
    | with_reducible refine fun t => ?_
    | lift_lets -underBinder
    | with_reducible apply done_kept
    | with_reducible apply State.command_kept
    | with_reducible apply cmdRingAdopt_kept)

theorem cmdRingRelease_kept {z : State} (ring : Nat) (p0 p1 p2 : BitVec 64) (s : State) (h_s : Kept z s) : Kept z (cmdRingRelease ring p0 p1 p2 s) := by
  unfold cmdRingRelease
  repeat' (first
    | with_reducible assumption
    | with_reducible apply Kept.ite
    | lift_lets -underBinder
    | with_reducible apply State.finish_kept
    | with_reducible apply State.setRing_kept)

theorem execRingRelease_kept {z : State} (ring : Fin 512) (p0 p1 p2 : BitVec 64) (s : State) (h_s : Kept z s) : KeptR z (execRingRelease ring p0 p1 p2 s) := by
  unfold execRingRelease
  repeat' (first
    | with_reducible assumption
    | with_reducible refine fun t => ?_
    | lift_lets -underBinder
    | with_reducible apply done_kept
    | with_reducible apply State.command_kept
    | with_reducible apply cmdRingRelease_kept)

end Sys2Proof.Machine
end

