-- ==== Sys2Proof/Laws/KeptMac.lean ====
section
/-! SUPPORT. What the operations of Machine/Mac.lean keep. -/

namespace Sys2Proof.Machine

theorem State.macSetEn_kept {z : State} (s : State) (n : Nat) (en : Bool) (h_s : Kept z s) : Kept z (State.macSetEn s n en) := by
  unfold State.macSetEn
  repeat' (first
    | with_reducible assumption
    | with_reducible apply Kept.ite
    | lift_lets -underBinder
    | with_reducible apply State.wr_kept
    | with_reducible apply State.startSearch_kept
    | with_reducible apply State.linkLost_kept
    | with_reducible apply State.endSending_kept)

theorem execMacEnable_kept {z : State} (port : Fin 2) (n : Fin 16) (en : Bool) (s : State) (h_s : Kept z s) : KeptR z (execMacEnable port n en s) := by
  unfold execMacEnable
  repeat' (first
    | with_reducible assumption
    | lift_lets -underBinder
    | with_reducible apply onMw0_kept
    | with_reducible apply done_kept
    | with_reducible apply State.macSetEn_kept)

theorem State.macReneg_kept {z : State} (s : State) (n : Nat) (h_s : Kept z s) : Kept z (State.macReneg s n) := by
  unfold State.macReneg
  repeat' (first
    | with_reducible assumption
    | with_reducible apply Kept.ite
    | lift_lets -underBinder
    | with_reducible apply State.linkLost_kept
    | with_reducible apply State.startSearch_kept)

theorem execMacReneg_kept {z : State} (port : Fin 2) (n : Fin 16) (s : State) (h_s : Kept z s) : KeptR z (execMacReneg port n s) := by
  unfold execMacReneg
  repeat' (first
    | with_reducible assumption
    | lift_lets -underBinder
    | with_reducible apply onMw0_kept
    | with_reducible apply done_kept
    | with_reducible apply State.macReneg_kept)

theorem execMacPortReset_kept {z : State} (port : Fin 2) (n : Fin 16) (s : State) (h_s : Kept z s) : KeptR z (execMacPortReset port n s) := by
  unfold execMacPortReset
  repeat' (first
    | with_reducible assumption
    | lift_lets -underBinder
    | with_reducible apply onMw0_kept
    | with_reducible apply done_kept
    | with_reducible apply State.portReset_kept)

theorem execNegDwellExpiry_kept {z : State} (n : Fin 16) (noCommon : Bool) (s : State) (h_s : Kept z s) : KeptR z (execNegDwellExpiry n noCommon s) := by
  unfold execNegDwellExpiry
  repeat' (first
    | with_reducible assumption
    | (intro x; subst x)
    | with_reducible apply Kept.ite
    | with_reducible apply KeptR.ite
    | with_reducible apply Kept.next
    | lift_lets -underBinder
    | with_reducible apply State.tryMode_kept
    | with_reducible apply State.wr_kept
    | with_reducible apply done_kept
    | with_reducible apply State.setMac_kept
    | with_reducible apply State.raise_kept)

theorem execNegModeSwitch_kept {z : State} (n : Fin 16) (s : State) (h_s : Kept z s) : KeptR z (execNegModeSwitch n s) := by
  unfold execNegModeSwitch
  repeat' (first
    | with_reducible assumption
    | with_reducible apply KeptR.ite
    | with_reducible apply Kept.next
    | lift_lets -underBinder
    | with_reducible apply done_kept
    | with_reducible apply State.tryMode_kept)

theorem execLinkUp_kept {z : State} (n : Fin 16) (mode rate : Fin 8) (fec : Bool) (word : BitVec 16) (s : State) (h_s : Kept z s) : KeptR z (execLinkUp n mode rate fec word s) := by
  unfold execLinkUp
  repeat' (first
    | with_reducible assumption
    | with_reducible apply KeptR.ite
    | with_reducible apply Kept.next
    | lift_lets -underBinder
    | with_reducible apply done_kept
    | with_reducible apply State.linkCame_kept)

theorem execLinkDown_kept {z : State} (n : Fin 16) (s : State) (h_s : Kept z s) : KeptR z (execLinkDown n s) := by
  unfold execLinkDown
  repeat' (first
    | with_reducible assumption
    | (intro x; refine KeptR.cut (a := x) ?_ (fun _ => ?_) <;> [subst x; clear_value x])
    | with_reducible apply KeptR.ite
    | with_reducible apply Kept.next
    | lift_lets -underBinder
    | with_reducible apply State.linkLost_kept
    | with_reducible apply State.bump_kept
    | with_reducible apply done_kept
    | with_reducible apply State.startSearch_kept
    | with_reducible apply State.raise_kept)

theorem State.macFail_kept {z : State} (s : State) (n : Nat) (h_s : Kept z s) : Kept z (State.macFail s n) := by
  unfold State.macFail
  repeat' (first
    | with_reducible assumption
    | lift_lets -underBinder
    | with_reducible apply State.unitFailed_kept
    | with_reducible apply State.takePortDown_kept
    | with_reducible apply State.outageFrom_kept
    | with_reducible apply State.lossOf_kept
    | with_reducible apply State.raiseFor_kept)

theorem execMacFail_kept {z : State} (n : Fin 16) (s : State) (h_s : Kept z s) : KeptR z (execMacFail n s) := by
  unfold execMacFail
  repeat' (first
    | with_reducible assumption
    | with_reducible apply KeptR.ite
    | with_reducible apply Kept.next
    | lift_lets -underBinder
    | with_reducible apply done_kept
    | with_reducible apply State.macFail_kept)

theorem execMacParityFail_kept {z : State} (n : Fin 16) (s : State) (h_s : Kept z s) : KeptR z (execMacParityFail n s) := by
  unfold execMacParityFail
  repeat' (first
    | with_reducible assumption
    | (intro x; subst x)
    | with_reducible apply KeptR.ite
    | with_reducible apply Kept.next
    | lift_lets -underBinder
    | with_reducible apply State.setMac_kept
    | with_reducible apply done_kept
    | with_reducible apply State.macFail_kept
    | with_reducible apply State.portReset_kept)

theorem execRxFrame_kept {z : State} (n : Fin 16) (bytes : List Byte) (aborted code : Bool) (ecc : Option (Nat × Ecc)) (s : State) (h_s : Kept z s) : KeptR z (execRxFrame n bytes aborted code ecc s) := by
  unfold execRxFrame
  repeat' (first
    | with_reducible assumption
    | with_reducible apply KeptR.ite
    | with_reducible apply Kept.next
    | lift_lets -underBinder
    | with_reducible apply done_kept
    | with_reducible apply State.rxFrame_kept)

theorem execPauseExpiry_kept {z : State} (n : Fin 16) (s : State) (h_s : Kept z s) : KeptR z (execPauseExpiry n s) := by
  unfold execPauseExpiry
  repeat' (first
    | with_reducible assumption
    | (intro x; subst x)
    | lift_lets -underBinder
    | with_reducible apply done_kept
    | with_reducible apply State.setMac_kept)

theorem execTxFrameStart_kept {z : State} (n : Fin 16) (drift : Int) (s : State) (h_s : Kept z s) : KeptR z (execTxFrameStart n drift s) := by
  unfold execTxFrameStart
  repeat' (first
    | with_reducible assumption
    | with_reducible apply KeptR.ite
    | with_reducible apply Kept.next
    | lift_lets -underBinder
    | with_reducible apply done_kept
    | with_reducible apply State.startFrame_kept
    | split)

theorem execTxFrameEnd_kept {z : State} (n : Fin 16) (bufUe : Bool) (s : State) (h_s : Kept z s) : KeptR z (execTxFrameEnd n bufUe s) := by
  unfold execTxFrameEnd
  repeat' (first
    | with_reducible assumption
    | lift_lets -underBinder
    | with_reducible apply done_kept
    | with_reducible apply State.endFrame_kept)

theorem State.accumulate_kept {z : State} (s : State) (n : Nat) (h_s : Kept z s) : Kept z (State.accumulate s n) := by
  unfold State.accumulate
  repeat' (first
    | with_reducible assumption
    | (intro x; subst x)
    | lift_lets -underBinder
    | with_reducible apply State.setMac_kept)

theorem execCounterAccumulate_kept {z : State} (s : State) (h_s : Kept z s) : KeptR z (execCounterAccumulate s) := by
  unfold execCounterAccumulate
  repeat' (first
    | with_reducible assumption
    | with_reducible apply KeptR.ite
    | with_reducible apply Kept.next
    | lift_lets -underBinder
    | with_reducible apply done_kept
    | with_reducible apply State.accumulate_kept
    | with_reducible refine Kept.foldl ?_ (fun t x ht => ?_))

theorem cmdMacCntRead_kept {z : State} (ring : Nat) (p0 p1 : BitVec 64) (s : State) (h_s : Kept z s) : Kept z (cmdMacCntRead ring p0 p1 s) := by
  unfold cmdMacCntRead
  repeat' (first
    | with_reducible assumption
    | (intro x; refine Kept.cut (a := x) ?_ (fun _ => ?_) <;> [subst x; clear_value x])
    | with_reducible apply Kept.ite
    | lift_lets -underBinder
    | with_reducible apply State.finish_kept
    | with_reducible apply State.accumulate_kept
    | with_reducible apply State.writeHost_kept)

theorem execMacCntRead_kept {z : State} (ring : Fin 512) (p0 p1 : BitVec 64) (s : State) (h_s : Kept z s) : KeptR z (execMacCntRead ring p0 p1 s) := by
  unfold execMacCntRead
  repeat' (first
    | with_reducible assumption
    | with_reducible refine fun t => ?_
    | lift_lets -underBinder
    | with_reducible apply done_kept
    | with_reducible apply State.command_kept
    | with_reducible apply cmdMacCntRead_kept)

end Sys2Proof.Machine
end

