-- ==== Sys2Proof/Laws/KeptWadi.lean ====
section
/-! SUPPORT. What the operations of Machine/Wadi.lean keep. -/

namespace Sys2Proof.Machine

theorem execWadiDecision_kept {z : State} (readBad : List (Fin 16)) (s : State) (h_s : Kept z s) : KeptR z (execWadiDecision readBad s) := by
  unfold execWadiDecision
  repeat' (first
    | with_reducible assumption
    | (intro x; subst x)
    | with_reducible apply KeptR.ite
    | with_reducible apply Kept.next
    | lift_lets -underBinder
    | with_reducible apply done_kept
    | with_reducible apply State.decide__kept
    | with_reducible apply State.leaveDegraded_kept
    | fail_if_no_progress (with_reducible refine Kept.upd ?_ rfl rfl rfl rfl rfl rfl rfl rfl rfl rfl rfl rfl rfl rfl rfl rfl rfl rfl rfl rfl rfl rfl rfl rfl rfl))

theorem cmdWadiAccept_kept {z : State} (ring : Nat) (p0 : BitVec 64) (s : State) (h_s : Kept z s) : Kept z (cmdWadiAccept ring p0 s) := by
  unfold cmdWadiAccept
  repeat' (first
    | with_reducible assumption
    | (intro x; subst x)
    | with_reducible apply Kept.ite
    | lift_lets -underBinder
    | with_reducible apply State.finish_kept
    | fail_if_no_progress (with_reducible refine Kept.upd ?_ rfl rfl rfl rfl rfl rfl rfl rfl rfl rfl rfl rfl rfl rfl rfl rfl rfl rfl rfl rfl rfl rfl rfl rfl rfl))

theorem execWadiAccept_kept {z : State} (ring : Fin 512) (p0 : BitVec 64) (s : State) (h_s : Kept z s) : KeptR z (execWadiAccept ring p0 s) := by
  unfold execWadiAccept
  repeat' (first
    | with_reducible assumption
    | with_reducible refine fun t => ?_
    | lift_lets -underBinder
    | with_reducible apply done_kept
    | with_reducible apply State.command_kept
    | with_reducible apply cmdWadiAccept_kept)

theorem cmdWadiVeto_kept {z : State} (ring : Nat) (p0 : BitVec 64) (s : State) (h_s : Kept z s) : Kept z (cmdWadiVeto ring p0 s) := by
  unfold cmdWadiVeto
  repeat' (first
    | with_reducible assumption
    | with_reducible apply Kept.ite
    | lift_lets -underBinder
    | with_reducible apply State.withdraw_kept
    | with_reducible apply State.finish_kept)

theorem execWadiVeto_kept {z : State} (ring : Fin 512) (p0 : BitVec 64) (s : State) (h_s : Kept z s) : KeptR z (execWadiVeto ring p0 s) := by
  unfold execWadiVeto
  repeat' (first
    | with_reducible assumption
    | with_reducible refine fun t => ?_
    | lift_lets -underBinder
    | with_reducible apply done_kept
    | with_reducible apply State.command_kept
    | with_reducible apply cmdWadiVeto_kept)

theorem State.funcWrite_kept {z : State} (s : State) (k : Nat) (value : Word) (h_s : Kept z s) : Kept z (State.funcWrite s k value) := by
  unfold State.funcWrite
  repeat' (first
    | with_reducible assumption
    | (intro x; subst x)
    | with_reducible apply Kept.ite
    | lift_lets -underBinder
    | with_reducible apply State.wr_kept
    | with_reducible apply State.funcAsk_kept
    | fail_if_no_progress (with_reducible refine Kept.upd ?_ rfl rfl rfl rfl rfl rfl rfl rfl rfl rfl rfl rfl rfl rfl rfl rfl rfl rfl rfl rfl rfl rfl rfl rfl rfl))

theorem execFuncModeWrite_kept {z : State} (port : Fin 2) (func : Fin 8) (value : Word) (s : State) (h_s : Kept z s) : KeptR z (execFuncModeWrite port func value s) := by
  unfold execFuncModeWrite
  repeat' (first
    | with_reducible assumption
    | lift_lets -underBinder
    | with_reducible apply onMw0_kept
    | with_reducible apply done_kept
    | with_reducible apply State.funcWrite_kept)

theorem execFuncSwitchPoint_kept {z : State} (func : Fin 8) (s : State) (h_s : Kept z s) : KeptR z (execFuncSwitchPoint func s) := by
  unfold execFuncSwitchPoint
  repeat' (first
    | with_reducible assumption
    | with_reducible apply KeptR.ite
    | with_reducible apply Kept.next
    | lift_lets -underBinder
    | with_reducible apply done_kept
    | with_reducible apply State.funcRefuse_kept
    | with_reducible apply State.funcSet_kept)

theorem execFuncSwitchTimeout_kept {z : State} (func : Fin 8) (s : State) (h_s : Kept z s) : KeptR z (execFuncSwitchTimeout func s) := by
  unfold execFuncSwitchTimeout
  repeat' (first
    | with_reducible assumption
    | with_reducible apply KeptR.ite
    | with_reducible apply Kept.next
    | lift_lets -underBinder
    | with_reducible apply done_kept
    | with_reducible apply State.funcRefuse_kept)

theorem execFuncRingOrphanTimeout_kept {z : State} (func : Fin 8) (s : State) (h_s : Kept z s) : KeptR z (execFuncRingOrphanTimeout func s) := by
  unfold execFuncRingOrphanTimeout
  repeat' (first
    | with_reducible assumption
    | with_reducible apply KeptR.ite
    | with_reducible apply Kept.next
    | lift_lets -underBinder
    | with_reducible apply done_kept
    | with_reducible apply State.raise_kept
    | with_reducible apply State.funcAsk_kept)

end Sys2Proof.Machine
end

