-- ==== Sys2Proof/Laws/KeptHlth.lean ====
section
/-! SUPPORT. What the operations of Machine/Hlth.lean keep. -/

namespace Sys2Proof.Machine

theorem State.mw0Unmapped_kept {z : State} (s : State) (port off : Nat) (store : Bool) (h_s : Kept z s) : Kept z (State.mw0Unmapped s port off store) := by
  unfold State.mw0Unmapped
  repeat' (first
    | with_reducible assumption
    | with_reducible apply State.raise_kept)

theorem State.forceFaults_kept {z : State} (s : State) (b : BlkId) (value : Word) (h_s : Kept z s) : Kept z (State.forceFaults s b value) := by
  unfold State.forceFaults
  repeat' (first
    | with_reducible assumption
    | with_reducible apply Kept.ite
    | lift_lets -underBinder
    | with_reducible apply State.later_kept
    | with_reducible refine Kept.foldl ?_ (fun t x ht => ?_))

theorem execFaultForce_kept {z : State} (port : Fin 2) (blk : BitVec 12) (value : Word) (s : State) (h_s : Kept z s) : KeptR z (execFaultForce port blk value s) := by
  unfold execFaultForce
  repeat' (first
    | with_reducible assumption
    | lift_lets -underBinder
    | with_reducible apply onMw0_kept
    | with_reducible apply done_kept
    | with_reducible apply State.forceFaults_kept
    | with_reducible apply State.mw0Unmapped_kept
    | split)

theorem State.ackFaults_kept {z : State} (s : State) (b : BlkId) (value : Word) (h_s : Kept z s) : Kept z (State.ackFaults s b value) := by
  unfold State.ackFaults
  repeat' (first
    | with_reducible assumption
    | (intro x; refine Kept.cut (a := x) ?_ (fun _ => ?_) <;> [subst x; clear_value x])
    | (intro x; subst x)
    | with_reducible apply Kept.ite
    | lift_lets -underBinder
    | with_reducible apply State.regWrite_kept
    | with_reducible apply State.availEnd_kept
    | with_reducible apply State.fltSettle_kept
    | fail_if_no_progress (with_reducible refine Kept.upd ?_ rfl rfl rfl rfl rfl rfl rfl rfl rfl rfl rfl rfl rfl rfl rfl rfl rfl rfl rfl rfl rfl rfl rfl rfl rfl))

theorem execFstatWrite_kept {z : State} (port : Fin 2) (blk : BitVec 12) (value : Word) (s : State) (h_s : Kept z s) : KeptR z (execFstatWrite port blk value s) := by
  unfold execFstatWrite
  repeat' (first
    | with_reducible assumption
    | with_reducible apply Kept.next
    | lift_lets -underBinder
    | with_reducible apply onMw0_kept
    | with_reducible apply State.ackFaults_kept
    | with_reducible apply done_kept
    | with_reducible apply State.mw0Unmapped_kept
    | split)

theorem execHoldWindowEnd_kept {z : State} (k : Fin 64) (s : State) (h_s : Kept z s) : KeptR z (execHoldWindowEnd k s) := by
  unfold execHoldWindowEnd
  repeat' (first
    | with_reducible assumption
    | (intro x; subst x)
    | with_reducible apply Kept.next
    | lift_lets -underBinder
    | fail_if_no_progress (with_reducible refine Kept.upd ?_ rfl rfl rfl rfl rfl rfl rfl rfl rfl rfl rfl rfl rfl rfl rfl rfl rfl rfl rfl rfl rfl rfl rfl rfl rfl))

theorem execFltPulseEnd_kept {z : State} (s : State) (h_s : Kept z s) : KeptR z (execFltPulseEnd s) := by
  unfold execFltPulseEnd
  repeat' (first
    | with_reducible assumption
    | (intro x; subst x)
    | with_reducible apply Kept.next
    | lift_lets -underBinder
    | with_reducible apply State.fltSettle_kept
    | fail_if_no_progress (with_reducible refine Kept.upd ?_ rfl rfl rfl rfl rfl rfl rfl rfl rfl rfl rfl rfl rfl rfl rfl rfl rfl rfl rfl rfl rfl rfl rfl rfl rfl))

theorem State.wornClear_kept {z : State} (s : State) (value : Word) (h_s : Kept z s) : Kept z (State.wornClear s value) := by
  unfold State.wornClear
  repeat' (first
    | with_reducible assumption
    | (intro x; subst x)
    | with_reducible apply Kept.ite
    | lift_lets -underBinder
    | with_reducible apply State.setWear_kept)

theorem execHlthWornClear_kept {z : State} (port : Fin 2) (value : Word) (s : State) (h_s : Kept z s) : KeptR z (execHlthWornClear port value s) := by
  unfold execHlthWornClear
  repeat' (first
    | with_reducible assumption
    | with_reducible apply Kept.next
    | lift_lets -underBinder
    | with_reducible apply onMw0_kept
    | with_reducible apply State.wornClear_kept)

theorem cmdHlthLogRead_kept {z : State} (ring : Nat) (p0 p1 p2 : BitVec 64) (s : State) (h_s : Kept z s) : Kept z (cmdHlthLogRead ring p0 p1 p2 s) := by
  unfold cmdHlthLogRead
  repeat' (first
    | with_reducible assumption
    | (intro x; subst x)
    | with_reducible apply Kept.ite
    | lift_lets -underBinder
    | with_reducible apply State.finish_kept
    | with_reducible apply State.writeHost_kept)

theorem execHlthLogRead_kept {z : State} (ring : Fin 512) (p0 p1 p2 : BitVec 64) (s : State) (h_s : Kept z s) : KeptR z (execHlthLogRead ring p0 p1 p2 s) := by
  unfold execHlthLogRead
  repeat' (first
    | with_reducible assumption
    | with_reducible refine fun t => ?_
    | lift_lets -underBinder
    | with_reducible apply done_kept
    | with_reducible apply State.command_kept
    | with_reducible apply cmdHlthLogRead_kept)

theorem execFaultLogFlush_kept {z : State} (s : State) (h_s : Kept z s) : KeptR z (execFaultLogFlush s) := by
  unfold execFaultLogFlush
  repeat' (first
    | with_reducible assumption
    | with_reducible apply KeptR.ite
    | with_reducible apply Kept.next
    | lift_lets -underBinder
    | with_reducible apply State.flushFaultLog_kept)

theorem execWearRecordFlush_kept {z : State} (s : State) (h_s : Kept z s) : KeptR z (execWearRecordFlush s) := by
  unfold execWearRecordFlush
  repeat' (first
    | with_reducible assumption
    | with_reducible apply KeptR.ite
    | with_reducible apply Kept.next
    | lift_lets -underBinder
    | with_reducible apply State.bump_kept
    | with_reducible apply State.flushWear_kept)

theorem State.enginePeriod_kept {z : State} (s : State) (h_s : Kept z s) : Kept z (State.enginePeriod s) := by
  unfold State.enginePeriod
  repeat' (first
    | with_reducible assumption
    | (intro x; refine Kept.cut (a := x) ?_ (fun _ => ?_) <;> [subst x; clear_value x])
    | (intro x; subst x)
    | lift_lets -underBinder
    | with_reducible apply State.wr_kept
    | with_reducible apply State.setSlot_kept
    | with_reducible refine Kept.foldl ?_ (fun t x ht => ?_)
    | fail_if_no_progress (with_reducible refine Kept.upd ?_ rfl rfl rfl rfl rfl rfl rfl rfl rfl rfl rfl rfl rfl rfl rfl rfl rfl rfl rfl rfl rfl rfl rfl rfl rfl)
    | split)

theorem State.showMeasure_kept {z : State} (s : State) (k u : Nat) (raw : Option Nat) (h_s : Kept z s) : Kept z (State.showMeasure s k u raw) := by
  unfold State.showMeasure
  repeat' (first
    | with_reducible assumption
    | with_reducible apply Kept.ite
    | lift_lets -underBinder
    | with_reducible apply State.wr_kept
    | split)

theorem State.scWorn_kept {z : State} (s : State) (u : Nat) (h_s : Kept z s) : Kept z (State.scWorn s u) := by
  unfold State.scWorn
  repeat' (first
    | with_reducible assumption
    | with_reducible apply Kept.ite
    | lift_lets -underBinder
    | with_reducible apply State.takeover_kept)

theorem State.crossed_kept {z : State} (s : State) (k u : Nat) (h_s : Kept z s) : Kept z (State.crossed s k u) := by
  unfold State.crossed
  repeat' (first
    | with_reducible assumption
    | with_reducible apply Kept.ite
    | lift_lets -underBinder
    | with_reducible apply State.scWorn_kept
    | with_reducible apply State.pllWorn_kept
    | with_reducible apply State.raiseFor_kept)

theorem State.measureUnit_kept {z : State} (s : State) (k u : Nat) (raw : Option Nat) (h_s : Kept z s) : Kept z (State.measureUnit s k u raw) := by
  unfold State.measureUnit
  repeat' (first
    | with_reducible assumption
    | with_reducible apply Kept.ite
    | lift_lets -underBinder
    | with_reducible apply State.showMeasure_kept
    | with_reducible apply State.measure_kept
    | with_reducible apply State.crossed_kept)

theorem execDecisionPeriodEnd_kept {z : State} (measures : List (Fin 13 × Fin 128 × Option Nat)) (cycles : List (Fin 16 × Nat)) (s : State) (h_s : Kept z s) : KeptR z (execDecisionPeriodEnd measures cycles s) := by
  unfold execDecisionPeriodEnd
  repeat' (first
    | with_reducible assumption
    | (intro x; refine KeptR.cut (a := x) ?_ (fun _ => ?_) <;> [subst x; clear_value x])
    | with_reducible apply Kept.ite
    | with_reducible apply KeptR.ite
    | with_reducible apply Kept.next
    | lift_lets -underBinder
    | with_reducible apply State.setReg_kept
    | with_reducible apply State.memPeriod_kept
    | with_reducible apply State.enginePeriod_kept
    | with_reducible apply State.thermalCycles_kept
    | with_reducible apply State.measureUnit_kept
    | with_reducible apply State.accumulate_kept
    | with_reducible apply done_kept
    | with_reducible apply State.sioSync_kept
    | with_reducible refine Kept.foldl ?_ (fun t x ht => ?_))

end Sys2Proof.Machine
end

