-- ==== Sys2Proof/Laws/KeptMdb.lean ====
section
/-! SUPPORT. What the operations of Machine/Mdb.lean keep. -/

namespace Sys2Proof.Machine

theorem onBusWin_kept {z : State} (s : State) (l n what : Nat) (body : Res) (h_s : Kept z s) (h_body : KeptR z body) : KeptR z (onBusWin s l n what body) := by
  unfold onBusWin
  repeat' (first
    | with_reducible assumption
    | with_reducible apply KeptR.ite
    | with_reducible apply Kept.next
    | lift_lets -underBinder
    | with_reducible apply done_kept
    | with_reducible apply State.winErr_kept
    | fail_if_no_progress (with_reducible refine Kept.upd ?_ rfl rfl rfl rfl rfl rfl rfl rfl rfl rfl rfl rfl rfl rfl rfl rfl rfl rfl rfl rfl rfl rfl rfl rfl rfl))

theorem busWinRead_kept {z : State} (s : State) (l n off : Nat) (ecc : Ecc) (h_s : Kept z s) : KeptR z (busWinRead s l n off ecc) := by
  unfold busWinRead
  repeat' (first
    | with_reducible assumption
    | lift_lets -underBinder
    | with_reducible apply onBusWin_kept
    | with_reducible apply State.busRead_kept
    | with_reducible apply done_kept
    | fail_if_no_progress (with_reducible refine Kept.upd ?_ rfl rfl rfl rfl rfl rfl rfl rfl rfl rfl rfl rfl rfl rfl rfl rfl rfl rfl rfl rfl rfl rfl rfl rfl rfl))

theorem execMdbTxRequest_kept {z : State} (l : Fin 16) (bus : Fin 8) (buf : Fin 32) (s : State) (h_s : Kept z s) : KeptR z (execMdbTxRequest l bus buf s) := by
  unfold execMdbTxRequest
  repeat' (first
    | with_reducible assumption
    | lift_lets -underBinder
    | with_reducible apply onBusWin_kept
    | with_reducible apply done_kept
    | with_reducible apply State.busWrite_kept)

theorem execMdbTxAbort_kept {z : State} (l : Fin 16) (bus : Fin 8) (buf : Fin 32) (s : State) (h_s : Kept z s) : KeptR z (execMdbTxAbort l bus buf s) := by
  unfold execMdbTxAbort
  repeat' (first
    | with_reducible assumption
    | lift_lets -underBinder
    | with_reducible apply onBusWin_kept
    | with_reducible apply done_kept
    | with_reducible apply State.busWrite_kept)

theorem execMdbTxDonePop_kept {z : State} (l : Fin 16) (bus : Fin 8) (s : State) (h_s : Kept z s) : KeptR z (execMdbTxDonePop l bus s) := by
  unfold execMdbTxDonePop
  repeat' (first
    | with_reducible assumption
    | with_reducible apply busWinRead_kept)

theorem execMdbRxPop_kept {z : State} (l : Fin 16) (bus : Fin 8) (ecc : Ecc) (s : State) (h_s : Kept z s) : KeptR z (execMdbRxPop l bus ecc s) := by
  unfold execMdbRxPop
  repeat' (first
    | with_reducible assumption
    | with_reducible apply busWinRead_kept)

theorem execMdbMwEventRead_kept {z : State} (l : Fin 16) (bus : Fin 8) (s : State) (h_s : Kept z s) : KeptR z (execMdbMwEventRead l bus s) := by
  unfold execMdbMwEventRead
  repeat' (first
    | with_reducible assumption
    | with_reducible apply busWinRead_kept)

theorem execMdbTxStart_kept {z : State} (bus : Fin 8) (ecc : Ecc) (s : State) (h_s : Kept z s) : KeptR z (execMdbTxStart bus ecc s) := by
  unfold execMdbTxStart
  repeat' (first
    | with_reducible assumption
    | with_reducible apply KeptR.ite
    | with_reducible apply Kept.next
    | lift_lets -underBinder
    | with_reducible apply done_kept
    | with_reducible apply State.sendBuf_kept
    | split)

theorem execMdbFrameSent_kept {z : State} (bus : Fin 8) (s : State) (h_s : Kept z s) : KeptR z (execMdbFrameSent bus s) := by
  unfold execMdbFrameSent
  repeat' (first
    | with_reducible assumption
    | (intro x; refine KeptR.cut (a := x) ?_ (fun _ => ?_) <;> [subst x; clear_value x])
    | (intro x; subst x)
    | with_reducible apply Kept.next
    | lift_lets -underBinder
    | with_reducible apply State.setBus_kept
    | with_reducible apply State.emit_kept
    | with_reducible apply State.bufDone_kept
    | with_reducible apply State.setErrs_kept
    | with_reducible apply done_kept
    | with_reducible apply State.modeSettle_kept
    | split)

theorem execMdbArbitrationLost_kept {z : State} (bus : Fin 8) (s : State) (h_s : Kept z s) : KeptR z (execMdbArbitrationLost bus s) := by
  unfold execMdbArbitrationLost
  repeat' (first
    | with_reducible assumption
    | lift_lets -underBinder
    | with_reducible apply done_kept
    | with_reducible apply State.sendEnds_kept)

theorem State.recDown_kept {z : State} (s : State) (n : Nat) (h_s : Kept z s) : Kept z (State.recDown s n) := by
  unfold State.recDown
  repeat' (first
    | with_reducible assumption
    | with_reducible apply Kept.ite
    | lift_lets -underBinder
    | with_reducible apply State.draw_kept
    | with_reducible apply State.setErrs_kept)

theorem execMdbFrameReceived_kept {z : State} (bus : Fin 8) (hdr0 hdr1 hdr2 hdr3 : Word) (data : List Byte) (s : State) (h_s : Kept z s) : KeptR z (execMdbFrameReceived bus hdr0 hdr1 hdr2 hdr3 data s) := by
  unfold execMdbFrameReceived
  repeat' (first
    | with_reducible assumption
    | (intro x; refine KeptR.cut (a := x) ?_ (fun _ => ?_) <;> [subst x; clear_value x])
    | with_reducible apply Kept.ite
    | with_reducible apply KeptR.ite
    | with_reducible apply Kept.next
    | lift_lets -underBinder
    | with_reducible apply State.recDown_kept
    | with_reducible apply State.storeRx_kept
    | with_reducible apply done_kept
    | with_reducible apply State.detectGood_kept)

theorem State.errEvent_kept {z : State} (s : State) (n kind : Nat) (transmitting : Bool) (h_s : Kept z s) : Kept z (State.errEvent s n kind transmitting) := by
  unfold State.errEvent
  repeat' (first
    | with_reducible assumption
    | with_reducible apply Kept.ite
    | lift_lets -underBinder
    | with_reducible apply State.bump_kept
    | with_reducible apply State.setBus_kept
    | with_reducible apply State.event_kept)

theorem State.errCount_kept {z : State} (s : State) (n kind : Nat) (transmitting afterArb dominant : Bool) (h_s : Kept z s) : Kept z (State.errCount s n kind transmitting afterArb dominant) := by
  unfold State.errCount
  repeat' (first
    | with_reducible assumption
    | with_reducible apply Kept.ite
    | lift_lets -underBinder
    | with_reducible apply State.setErrs_kept)

theorem State.startRecovery_kept {z : State} (s : State) (n : Nat) (h_s : Kept z s) : Kept z (State.startRecovery s n) := by
  unfold State.startRecovery
  repeat' (first
    | with_reducible assumption
    | lift_lets -underBinder
    | with_reducible apply State.wr_kept
    | with_reducible apply State.mdbState_kept)

theorem State.enterBusOff_kept {z : State} (s : State) (n : Nat) (h_s : Kept z s) : Kept z (State.enterBusOff s n) := by
  unfold State.enterBusOff
  repeat' (first
    | with_reducible assumption
    | (intro x; refine Kept.cut (a := x) ?_ (fun _ => ?_) <;> [subst x; clear_value x])
    | (intro x; subst x)
    | with_reducible apply Kept.ite
    | lift_lets -underBinder
    | with_reducible apply State.setBus_kept
    | with_reducible apply State.bufDone_kept
    | with_reducible apply State.wr_kept
    | with_reducible apply State.startRecovery_kept
    | with_reducible apply State.modeSettle_kept
    | split)

theorem execMdbErrorDetected_kept {z : State} (bus : Fin 8) (kind : Fin 5) (transmitting afterArb dataPhase dominant : Bool) (s : State) (h_s : Kept z s) : KeptR z (execMdbErrorDetected bus kind transmitting afterArb dataPhase dominant s) := by
  unfold execMdbErrorDetected
  repeat' (first
    | with_reducible assumption
    | with_reducible apply Kept.ite
    | with_reducible apply KeptR.ite
    | with_reducible apply Kept.next
    | lift_lets -underBinder
    | with_reducible apply State.errCount_kept
    | with_reducible apply State.clashEvent_kept
    | with_reducible apply State.errEvent_kept
    | with_reducible apply State.detectBad_kept
    | with_reducible apply done_kept
    | with_reducible apply State.enterBusOff_kept
    | with_reducible apply State.sendEnds_kept
    | split)

theorem execMdbRecoveryDone_kept {z : State} (bus : Fin 8) (s : State) (h_s : Kept z s) : KeptR z (execMdbRecoveryDone bus s) := by
  unfold execMdbRecoveryDone
  repeat' (first
    | with_reducible assumption
    | (intro x; subst x)
    | with_reducible apply KeptR.ite
    | with_reducible apply Kept.next
    | lift_lets -underBinder
    | with_reducible apply done_kept
    | with_reducible apply State.wr_kept
    | with_reducible apply State.mdbState_kept)

theorem cmdMdbRecover_kept {z : State} (ring : Fin 512) (p0 : BitVec 64) (s : State) (h_s : Kept z s) : Kept z (cmdMdbRecover ring p0 s) := by
  unfold cmdMdbRecover
  repeat' (first
    | with_reducible assumption
    | with_reducible apply Kept.ite
    | lift_lets -underBinder
    | with_reducible apply State.finish_kept
    | with_reducible apply State.startRecovery_kept)

theorem execMdbRecover_kept {z : State} (ring : Fin 512) (p0 : BitVec 64) (s : State) (h_s : Kept z s) : KeptR z (execMdbRecover ring p0 s) := by
  unfold execMdbRecover
  repeat' (first
    | with_reducible assumption
    | with_reducible refine fun t => ?_
    | lift_lets -underBinder
    | with_reducible apply done_kept
    | with_reducible apply State.command_kept
    | with_reducible apply cmdMdbRecover_kept)

theorem cmdMdbAbort_kept {z : State} (ring : Fin 512) (p0 : BitVec 64) (s : State) (h_s : Kept z s) : Kept z (cmdMdbAbort ring p0 s) := by
  unfold cmdMdbAbort
  repeat' (first
    | with_reducible assumption
    | with_reducible apply Kept.ite
    | lift_lets -underBinder
    | with_reducible apply State.finish_kept
    | with_reducible apply State.draw_kept
    | with_reducible apply State.setBus_kept
    | with_reducible apply State.bufDone_kept)

theorem execMdbAbort_kept {z : State} (ring : Fin 512) (p0 : BitVec 64) (s : State) (h_s : Kept z s) : KeptR z (execMdbAbort ring p0 s) := by
  unfold execMdbAbort
  repeat' (first
    | with_reducible assumption
    | with_reducible refine fun t => ?_
    | lift_lets -underBinder
    | with_reducible apply done_kept
    | with_reducible apply State.command_kept
    | with_reducible apply cmdMdbAbort_kept)

theorem cmdMdbTtNext_kept {z : State} (ring : Fin 512) (p0 p1 : BitVec 64) (s : State) (h_s : Kept z s) : Kept z (cmdMdbTtNext ring p0 p1 s) := by
  unfold cmdMdbTtNext
  repeat' (first
    | with_reducible assumption
    | (intro x; subst x)
    | with_reducible apply Kept.ite
    | lift_lets -underBinder
    | with_reducible apply State.finish_kept
    | with_reducible apply State.setBus_kept)

theorem execMdbTtNext_kept {z : State} (ring : Fin 512) (p0 p1 : BitVec 64) (s : State) (h_s : Kept z s) : KeptR z (execMdbTtNext ring p0 p1 s) := by
  unfold execMdbTtNext
  repeat' (first
    | with_reducible assumption
    | with_reducible refine fun t => ?_
    | lift_lets -underBinder
    | with_reducible apply done_kept
    | with_reducible apply State.command_kept
    | with_reducible apply cmdMdbTtNext_kept)

theorem State.ttEnable_kept {z : State} (s : State) (n master : Nat) (h_s : Kept z s) : Kept z (State.ttEnable s n master) := by
  unfold State.ttEnable
  repeat' (first
    | with_reducible assumption
    | with_reducible apply Kept.ite
    | lift_lets -underBinder
    | with_reducible apply State.wr_kept
    | with_reducible apply State.ttStop_kept
    | with_reducible apply State.raiseFor_kept)

theorem execMdbModeWrite_kept {z : State} (port : Fin 2) (bus : Fin 8) (value : Word) (s : State) (h_s : Kept z s) : KeptR z (execMdbModeWrite port bus value s) := by
  unfold execMdbModeWrite
  repeat' (first
    | with_reducible assumption
    | (intro x; refine KeptR.cut (a := x) ?_ (fun _ => ?_) <;> [subst x; clear_value x])
    | with_reducible apply Kept.ite
    | lift_lets -underBinder
    | with_reducible apply onMw0_kept
    | with_reducible apply State.busCtrl_kept
    | with_reducible apply done_kept
    | with_reducible apply State.ttEnable_kept)

theorem execMdbTtEnable_kept {z : State} (port : Fin 2) (bus : Fin 8) (s : State) (h_s : Kept z s) : KeptR z (execMdbTtEnable port bus s) := by
  unfold execMdbTtEnable
  repeat' (first
    | with_reducible assumption
    | lift_lets -underBinder
    | with_reducible apply onMw0_kept
    | with_reducible apply done_kept
    | with_reducible apply State.ttEnable_kept)

theorem execMdbRamCfgWrite_kept {z : State} (port : Fin 2) (bus : Fin 8) (value : Word) (s : State) (h_s : Kept z s) : KeptR z (execMdbRamCfgWrite port bus value s) := by
  unfold execMdbRamCfgWrite
  repeat' (first
    | with_reducible assumption
    | with_reducible apply KeptR.ite
    | lift_lets -underBinder
    | with_reducible apply onMw0_kept
    | with_reducible apply done_kept
    | with_reducible apply State.ramCfg_kept
    | with_reducible apply State.raiseFor_kept)

theorem State.ttEvent_kept {z : State} (s : State) (n cause : Nat) (q3 : Nat) (h_s : Kept z s) : Kept z (State.ttEvent s n cause q3) := by
  unfold State.ttEvent
  repeat' (first
    | with_reducible assumption
    | (intro x; subst x)
    | lift_lets -underBinder
    | with_reducible apply State.setBus_kept
    | with_reducible apply State.event_kept)

theorem State.ttCycleStart_kept {z : State} (s : State) (n count prio : Nat) (h_s : Kept z s) : Kept z (State.ttCycleStart s n count prio) := by
  unfold State.ttCycleStart
  repeat' (first
    | with_reducible assumption
    | (intro x; refine Kept.cut (a := x) ?_ (fun _ => ?_) <;> [subst x; clear_value x])
    | (intro x; subst x)
    | lift_lets -underBinder
    | with_reducible apply State.wr_kept
    | with_reducible apply State.setBus_kept)

theorem State.sendRef_kept {z : State} (s : State) (n : Nat) (h_s : Kept z s) : Kept z (State.sendRef s n) := by
  unfold State.sendRef
  repeat' (first
    | with_reducible assumption
    | (intro x; subst x)
    | with_reducible apply Kept.ite
    | lift_lets -underBinder
    | with_reducible apply State.ttCycleStart_kept
    | with_reducible apply State.wr_kept
    | with_reducible apply State.setBus_kept
    | with_reducible apply State.emit_kept
    | with_reducible apply State.ttEvent_kept)

theorem execMdbRefDue_kept {z : State} (bus : Fin 8) (s : State) (h_s : Kept z s) : KeptR z (execMdbRefDue bus s) := by
  unfold execMdbRefDue
  repeat' (first
    | with_reducible assumption
    | with_reducible apply KeptR.ite
    | with_reducible apply Kept.next
    | lift_lets -underBinder
    | with_reducible apply done_kept
    | with_reducible apply State.sendRef_kept)

theorem execMdbTrigger_kept {z : State} (bus : Fin 8) (i : Fin 64) (s : State) (h_s : Kept z s) : KeptR z (execMdbTrigger bus i s) := by
  unfold execMdbTrigger
  repeat' (first
    | with_reducible assumption
    | (intro x; refine KeptR.cut (a := x) ?_ (fun _ => ?_) <;> [subst x; clear_value x])
    | (intro x; subst x)
    | with_reducible apply Kept.ite
    | with_reducible apply KeptR.ite
    | with_reducible apply Kept.next
    | lift_lets -underBinder
    | with_reducible apply done_kept
    | with_reducible apply State.sendBuf_kept
    | with_reducible apply State.bump_kept
    | with_reducible apply State.setBus_kept
    | with_reducible apply State.sendRef_kept
    | with_reducible apply State.ttEvent_kept
    | with_reducible apply State.raiseFor_kept
    | with_reducible apply State.ttStop_kept)

theorem execMdbRefReceived_kept {z : State} (bus prio : Fin 8) (cycle : Fin 64) (globalTime : Nat) (s : State) (h_s : Kept z s) : KeptR z (execMdbRefReceived bus prio cycle globalTime s) := by
  unfold execMdbRefReceived
  repeat' (first
    | with_reducible assumption
    | with_reducible apply Kept.ite
    | with_reducible apply KeptR.ite
    | with_reducible apply Kept.next
    | lift_lets -underBinder
    | with_reducible apply State.ttCycleStart_kept
    | with_reducible apply State.wr_kept
    | with_reducible apply State.ttEvent_kept
    | with_reducible apply done_kept)

theorem execMdbTtLate_kept {z : State} (bus : Fin 8) (s : State) (h_s : Kept z s) : KeptR z (execMdbTtLate bus s) := by
  unfold execMdbTtLate
  repeat' (first
    | with_reducible assumption
    | with_reducible apply KeptR.ite
    | with_reducible apply Kept.next
    | lift_lets -underBinder
    | with_reducible apply done_kept
    | with_reducible apply State.bump_kept
    | with_reducible apply State.ttEvent_kept)

theorem execMdbRemapFollowDone_kept {z : State} (s : State) (h_s : Kept z s) : KeptR z (execMdbRemapFollowDone s) := by
  unfold execMdbRemapFollowDone
  repeat' (first
    | with_reducible assumption
    | with_reducible apply KeptR.ite
    | with_reducible apply Kept.next
    | lift_lets -underBinder
    | with_reducible apply State.wr_kept)

theorem execMdbRemapSwitch_kept {z : State} (s : State) (h_s : Kept z s) : KeptR z (execMdbRemapSwitch s) := by
  unfold execMdbRemapSwitch
  repeat' (first
    | with_reducible assumption
    | (intro x; refine KeptR.cut (a := x) ?_ (fun _ => ?_) <;> [subst x; clear_value x])
    | with_reducible apply KeptR.ite
    | with_reducible apply Kept.next
    | lift_lets -underBinder
    | with_reducible apply State.setCtrl_kept
    | with_reducible apply State.wr_kept
    | with_reducible apply State.bump_kept
    | with_reducible apply done_kept
    | with_reducible apply State.remapEvent_kept
    | fail_if_no_progress (with_reducible refine Kept.upd ?_ rfl rfl rfl rfl rfl rfl rfl rfl rfl rfl rfl rfl rfl rfl rfl rfl rfl rfl rfl rfl rfl rfl rfl rfl rfl))

theorem execMdbRemapTimeout_kept {z : State} (s : State) (h_s : Kept z s) : KeptR z (execMdbRemapTimeout s) := by
  unfold execMdbRemapTimeout
  repeat' (first
    | with_reducible assumption
    | with_reducible apply KeptR.ite
    | with_reducible apply Kept.next
    | lift_lets -underBinder
    | with_reducible apply State.dropRemap_kept)

theorem execMdbCtrlFail_kept {z : State} (ctrl : Fin 9) (s : State) (h_s : Kept z s) : KeptR z (execMdbCtrlFail ctrl s) := by
  unfold execMdbCtrlFail
  repeat' (first
    | with_reducible assumption
    | (intro x; refine KeptR.cut (a := x) ?_ (fun _ => ?_) <;> [subst x; clear_value x])
    | (intro x; subst x)
    | with_reducible apply Kept.ite
    | with_reducible apply KeptR.ite
    | with_reducible apply Kept.next
    | lift_lets -underBinder
    | with_reducible apply State.dropRemap_kept
    | with_reducible apply State.unitFailed_kept
    | with_reducible apply done_kept
    | with_reducible apply State.raiseFor_kept
    | with_reducible apply State.moveBus_kept
    | with_reducible apply State.remapEvent_kept
    | with_reducible apply State.shedBus_kept
    | with_reducible apply State.outageFrom_kept
    | with_reducible apply State.lossOf_kept
    | fail_if_no_progress (with_reducible refine Kept.upd ?_ rfl rfl rfl rfl rfl rfl rfl rfl rfl rfl rfl rfl rfl rfl rfl rfl rfl rfl rfl rfl rfl rfl rfl rfl rfl)
    | split)

end Sys2Proof.Machine
end

