-- ==== Sys2Proof/Laws/KeptPers.lean ====
section
/-! SUPPORT. What the operations of Machine/Pers.lean keep. -/

namespace Sys2Proof.Machine

theorem cmdPersKeyAdd_kept {z : State} (ring : Nat) (p0 : BitVec 64) (dma : Option (List Byte)) (s : State) (h_s : Kept z s) : Kept z (cmdPersKeyAdd ring p0 dma s) := by
  unfold cmdPersKeyAdd
  repeat' (first
    | with_reducible assumption
    | with_reducible refine fun t => ?_
    | (intro x; subst x)
    | with_reducible apply Kept.ite
    | lift_lets -underBinder
    | with_reducible apply State.withDma_kept
    | with_reducible apply State.finish_kept
    | fail_if_no_progress (with_reducible refine Kept.upd ?_ rfl rfl rfl rfl rfl rfl rfl rfl rfl rfl rfl rfl rfl rfl rfl rfl rfl rfl rfl rfl rfl rfl rfl rfl rfl))

theorem execPersKeyAdd_kept {z : State} (ring : Fin 512) (p0 : BitVec 64) (dma : Option (List Byte)) (s : State) (h_s : Kept z s) : KeptR z (execPersKeyAdd ring p0 dma s) := by
  unfold execPersKeyAdd
  repeat' (first
    | with_reducible assumption
    | with_reducible refine fun t => ?_
    | lift_lets -underBinder
    | with_reducible apply done_kept
    | with_reducible apply State.command_kept
    | with_reducible apply cmdPersKeyAdd_kept)

theorem cmdPersKeyRevoke_kept {z : State} (ring : Nat) (p0 : BitVec 64) (s : State) (h_s : Kept z s) : Kept z (cmdPersKeyRevoke ring p0 s) := by
  unfold cmdPersKeyRevoke
  repeat' (first
    | with_reducible assumption
    | (intro x; subst x)
    | lift_lets -underBinder
    | with_reducible apply State.finish_kept
    | fail_if_no_progress (with_reducible refine Kept.upd ?_ rfl rfl rfl rfl rfl rfl rfl rfl rfl rfl rfl rfl rfl rfl rfl rfl rfl rfl rfl rfl rfl rfl rfl rfl rfl)
    | split)

theorem execPersKeyRevoke_kept {z : State} (ring : Fin 512) (p0 : BitVec 64) (s : State) (h_s : Kept z s) : KeptR z (execPersKeyRevoke ring p0 s) := by
  unfold execPersKeyRevoke
  repeat' (first
    | with_reducible assumption
    | with_reducible refine fun t => ?_
    | lift_lets -underBinder
    | with_reducible apply done_kept
    | with_reducible apply State.command_kept
    | with_reducible apply cmdPersKeyRevoke_kept)

theorem cmdPersLoad_kept {z : State} (ring : Nat) (p0 p1 : BitVec 64) (dma : Option (List Byte)) (s : State) (h_s : Kept z s) : Kept z (cmdPersLoad ring p0 p1 dma s) := by
  unfold cmdPersLoad
  repeat' (first
    | with_reducible assumption
    | with_reducible refine fun t => ?_
    | (intro x; refine Kept.cut (a := x) ?_ (fun _ => ?_) <;> [subst x; clear_value x])
    | (intro x; subst x)
    | with_reducible apply Kept.ite
    | lift_lets -underBinder
    | with_reducible apply State.withDma_kept
    | with_reducible apply State.finish_kept
    | with_reducible apply State.grantBanks_kept
    | with_reducible apply State.storeBanks_kept
    | fail_if_no_progress (with_reducible refine Kept.upd ?_ rfl rfl rfl rfl rfl rfl rfl rfl rfl rfl rfl rfl rfl rfl rfl rfl rfl rfl rfl rfl rfl rfl rfl rfl rfl))

theorem execPersLoad_kept {z : State} (ring : Fin 512) (p0 p1 : BitVec 64) (dma : Option (List Byte)) (s : State) (h_s : Kept z s) : KeptR z (execPersLoad ring p0 p1 dma s) := by
  unfold execPersLoad
  repeat' (first
    | with_reducible assumption
    | with_reducible refine fun t => ?_
    | lift_lets -underBinder
    | with_reducible apply done_kept
    | with_reducible apply State.command_kept
    | with_reducible apply cmdPersLoad_kept)

theorem cmdPersDrop_kept {z : State} (ring : Nat) (p0 : BitVec 64) (s : State) (h_s : Kept z s) : Kept z (cmdPersDrop ring p0 s) := by
  unfold cmdPersDrop
  repeat' (first
    | with_reducible assumption
    | (intro x; refine Kept.cut (a := x) ?_ (fun _ => ?_) <;> [subst x; clear_value x])
    | with_reducible apply Kept.ite
    | lift_lets -underBinder
    | with_reducible apply State.finish_kept
    | with_reducible apply State.supHandover_kept
    | with_reducible refine Kept.foldl ?_ (fun t x ht => ?_)
    | fail_if_no_progress (with_reducible refine Kept.upd ?_ rfl rfl rfl rfl rfl rfl rfl rfl rfl rfl rfl rfl rfl rfl rfl rfl rfl rfl rfl rfl rfl rfl rfl rfl rfl)
    | split)

theorem execPersDrop_kept {z : State} (ring : Fin 512) (p0 : BitVec 64) (s : State) (h_s : Kept z s) : KeptR z (execPersDrop ring p0 s) := by
  unfold execPersDrop
  repeat' (first
    | with_reducible assumption
    | with_reducible refine fun t => ?_
    | lift_lets -underBinder
    | with_reducible apply done_kept
    | with_reducible apply State.command_kept
    | with_reducible apply cmdPersDrop_kept)

theorem cmdPersCaps_kept {z : State} (ring : Nat) (p0 p1 : BitVec 64) (s : State) (h_s : Kept z s) : Kept z (cmdPersCaps ring p0 p1 s) := by
  unfold cmdPersCaps
  repeat' (first
    | with_reducible assumption
    | with_reducible apply State.finish_kept
    | with_reducible apply State.writeHost_kept
    | split)

theorem execPersCaps_kept {z : State} (ring : Fin 512) (p0 p1 : BitVec 64) (s : State) (h_s : Kept z s) : KeptR z (execPersCaps ring p0 p1 s) := by
  unfold execPersCaps
  repeat' (first
    | with_reducible assumption
    | with_reducible refine fun t => ?_
    | lift_lets -underBinder
    | with_reducible apply done_kept
    | with_reducible apply State.command_kept
    | with_reducible apply cmdPersCaps_kept)

theorem State.bindSlot_kept {z : State} (s : State) (ring : Nat) (l : Fin 16) (n : Fin 18) (i : Image) (host : List CapRec) (h_s : Kept z s) : Kept z (State.bindSlot s ring l n i host) := by
  unfold State.bindSlot
  repeat' (first
    | with_reducible assumption
    | (intro x; refine Kept.cut (a := x) ?_ (fun _ => ?_) <;> [subst x; clear_value x])
    | (intro x; subst x)
    | lift_lets -underBinder
    | with_reducible apply State.setSlot_kept
    | with_reducible apply State.setQuota_kept
    | with_reducible apply State.grantBanks_kept
    | with_reducible apply State.peRegs_kept
    | with_reducible apply State.loadPe_kept
    | with_reducible apply State.startBinding_kept
    | with_reducible apply State.draw_kept
    | with_reducible apply State.emit_kept
    | with_reducible apply State.finish_kept)

theorem cmdPersBind_kept {z : State} (ring : Nat) (p0 _p1 p2 : BitVec 64) (dma : Option (List Byte)) (readOk : Bool) (s : State) (h_s : Kept z s) : Kept z (cmdPersBind ring p0 _p1 p2 dma readOk s) := by
  unfold cmdPersBind
  repeat' (first
    | with_reducible assumption
    | with_reducible refine fun t => ?_
    | (intro x; refine Kept.cut (a := x) ?_ (fun _ => ?_) <;> [subst x; clear_value x])
    | (intro x; subst x)
    | with_reducible apply Kept.ite
    | lift_lets -underBinder
    | with_reducible apply State.withDma_kept
    | with_reducible apply State.finish_kept
    | with_reducible apply State.breakPin_kept
    | with_reducible apply State.bindSlot_kept
    | with_reducible apply State.raiseFor_kept
    | split)

theorem execPersBind_kept {z : State} (ring : Fin 512) (p0 p1 p2 : BitVec 64) (dma : Option (List Byte)) (readOk : Bool) (s : State) (h_s : Kept z s) : KeptR z (execPersBind ring p0 p1 p2 dma readOk s) := by
  unfold execPersBind
  repeat' (first
    | with_reducible assumption
    | with_reducible refine fun t => ?_
    | lift_lets -underBinder
    | with_reducible apply done_kept
    | with_reducible apply State.command_kept
    | with_reducible apply cmdPersBind_kept)

theorem State.hostAction_kept {z : State} (s : State) (slot tgt : Nat) (h_s : Kept z s) : Kept z (State.hostAction s slot tgt) := by
  unfold State.hostAction
  repeat' (first
    | with_reducible assumption
    | (intro x; subst x)
    | lift_lets -underBinder
    | fail_if_no_progress (with_reducible refine Kept.upd ?_ rfl rfl rfl rfl rfl rfl rfl rfl rfl rfl rfl rfl rfl rfl rfl rfl rfl rfl rfl rfl rfl rfl rfl rfl rfl))

theorem cmdPersUnbind_kept {z : State} (ring : Nat) (p0 : BitVec 64) (s : State) (h_s : Kept z s) : Kept z (cmdPersUnbind ring p0 s) := by
  unfold cmdPersUnbind
  repeat' (first
    | with_reducible assumption
    | (intro x; refine Kept.cut (a := x) ?_ (fun _ => ?_) <;> [subst x; clear_value x])
    | with_reducible apply Kept.ite
    | lift_lets -underBinder
    | with_reducible apply State.finish_kept
    | with_reducible apply State.hostAction_kept
    | with_reducible apply State.setSlot_kept
    | with_reducible apply State.peStop_kept
    | split)

theorem execPersUnbind_kept {z : State} (ring : Fin 512) (p0 : BitVec 64) (s : State) (h_s : Kept z s) : KeptR z (execPersUnbind ring p0 s) := by
  unfold execPersUnbind
  repeat' (first
    | with_reducible assumption
    | with_reducible refine fun t => ?_
    | lift_lets -underBinder
    | with_reducible apply done_kept
    | with_reducible apply State.command_kept
    | with_reducible apply cmdPersUnbind_kept)

theorem execPersUnbindTimeout_kept {z : State} (slot : Fin 16) (s : State) (h_s : Kept z s) : KeptR z (execPersUnbindTimeout slot s) := by
  unfold execPersUnbindTimeout
  repeat' (first
    | with_reducible assumption
    | (intro x; subst x)
    | with_reducible apply KeptR.ite
    | with_reducible apply Kept.next
    | lift_lets -underBinder
    | with_reducible apply done_kept
    | with_reducible apply State.unbindNow_kept
    | split)

theorem cmdMigStart_kept {z : State} (ring : Nat) (p0 p1 : BitVec 64) (s : State) (h_s : Kept z s) : Kept z (cmdMigStart ring p0 p1 s) := by
  unfold cmdMigStart
  repeat' (first
    | with_reducible assumption
    | (intro x; subst x)
    | with_reducible apply Kept.ite
    | with_reducible refine Kept.dite (fun h => ?_) (fun h => ?_)
    | lift_lets -underBinder
    | with_reducible apply State.hostAction_kept
    | with_reducible apply State.finish_kept
    | with_reducible apply State.migBegin_kept
    | split)

theorem execMigStart_kept {z : State} (ring : Fin 512) (p0 p1 : BitVec 64) (s : State) (h_s : Kept z s) : KeptR z (execMigStart ring p0 p1 s) := by
  unfold execMigStart
  repeat' (first
    | with_reducible assumption
    | with_reducible refine fun t => ?_
    | lift_lets -underBinder
    | with_reducible apply done_kept
    | with_reducible apply State.command_kept
    | with_reducible apply cmdMigStart_kept)

theorem cmdMigAbort_kept {z : State} (ring : Nat) (s : State) (h_s : Kept z s) : Kept z (cmdMigAbort ring s) := by
  unfold cmdMigAbort
  repeat' (first
    | with_reducible assumption
    | with_reducible apply Kept.ite
    | lift_lets -underBinder
    | with_reducible apply State.finish_kept
    | with_reducible apply State.migAbandon_kept)

theorem execMigAbort_kept {z : State} (ring : Fin 512) (s : State) (h_s : Kept z s) : KeptR z (execMigAbort ring s) := by
  unfold execMigAbort
  repeat' (first
    | with_reducible assumption
    | with_reducible refine fun t => ?_
    | lift_lets -underBinder
    | with_reducible apply done_kept
    | with_reducible apply State.command_kept
    | with_reducible apply cmdMigAbort_kept)

theorem State.retirePe_kept {z : State} (s : State) (n : Fin 18) (h_s : Kept z s) : Kept z (State.retirePe s n) := by
  unfold State.retirePe
  repeat' (first
    | with_reducible assumption
    | with_reducible apply State.onPe_kept)

theorem cmdEngRetire_kept {z : State} (ring : Nat) (p0 : BitVec 64) (s : State) (h_s : Kept z s) : Kept z (cmdEngRetire ring p0 s) := by
  unfold cmdEngRetire
  repeat' (first
    | with_reducible assumption
    | (intro x; refine Kept.cut (a := x) ?_ (fun _ => ?_) <;> [subst x; clear_value x])
    | with_reducible apply Kept.ite
    | with_reducible refine Kept.dite (fun h => ?_) (fun h => ?_)
    | lift_lets -underBinder
    | with_reducible apply State.finish_kept
    | with_reducible apply State.hostAction_kept
    | with_reducible apply State.migAbandon_kept
    | with_reducible apply State.retirePe_kept
    | with_reducible apply State.onPe_kept
    | fail_if_no_progress (with_reducible refine Kept.upd ?_ rfl rfl rfl rfl rfl rfl rfl rfl rfl rfl rfl rfl rfl rfl rfl rfl rfl rfl rfl rfl rfl rfl rfl rfl rfl))

theorem execEngRetire_kept {z : State} (ring : Fin 512) (p0 : BitVec 64) (s : State) (h_s : Kept z s) : KeptR z (execEngRetire ring p0 s) := by
  unfold execEngRetire
  repeat' (first
    | with_reducible assumption
    | with_reducible refine fun t => ?_
    | lift_lets -underBinder
    | with_reducible apply done_kept
    | with_reducible apply State.command_kept
    | with_reducible apply cmdEngRetire_kept)

theorem execMigPrepareDone_kept {z : State} (readOk : Bool) (s : State) (h_s : Kept z s) : KeptR z (execMigPrepareDone readOk s) := by
  unfold execMigPrepareDone
  repeat' (first
    | with_reducible assumption
    | (intro x; refine KeptR.cut (a := x) ?_ (fun _ => ?_) <;> [subst x; clear_value x])
    | with_reducible apply KeptR.ite
    | with_reducible apply Kept.next
    | lift_lets -underBinder
    | with_reducible apply done_kept
    | with_reducible apply State.raiseFor_kept
    | with_reducible apply State.migAbandon_kept
    | with_reducible apply State.onPe_kept
    | with_reducible apply State.migStat_kept
    | with_reducible apply State.wr_kept
    | with_reducible apply State.migCopyAll_kept
    | split)

theorem State.rateReport_kept {z : State} (s : State) (m : Mig) (copied : Nat) (h_s : Kept z s) : Kept z (State.rateReport s m copied) := by
  unfold State.rateReport
  repeat' (first
    | with_reducible assumption
    | with_reducible apply Kept.ite
    | lift_lets -underBinder
    | with_reducible apply State.report_kept
    | split)

theorem execPrecopyPassEnd_kept {z : State} (s : State) (h_s : Kept z s) : KeptR z (execPrecopyPassEnd s) := by
  unfold execPrecopyPassEnd
  repeat' (first
    | with_reducible assumption
    | with_reducible apply Kept.ite
    | with_reducible apply KeptR.ite
    | with_reducible apply Kept.next
    | lift_lets -underBinder
    | with_reducible apply State.migCopy_kept
    | with_reducible apply State.rateReport_kept
    | with_reducible apply done_kept
    | with_reducible apply State.setMig_kept
    | with_reducible apply State.migStat_kept
    | with_reducible apply State.peStop_kept
    | with_reducible apply State.migAbandon_kept
    | with_reducible apply State.wr_kept
    | split)

theorem execMigNoBoundary_kept {z : State} (s : State) (h_s : Kept z s) : KeptR z (execMigNoBoundary s) := by
  unfold execMigNoBoundary
  repeat' (first
    | with_reducible assumption
    | with_reducible apply KeptR.ite
    | with_reducible apply Kept.next
    | lift_lets -underBinder
    | with_reducible apply done_kept
    | with_reducible apply State.migAbandon_kept
    | split)

theorem execMigSourceStopped_kept {z : State} (ns : Fin 5001) (s : State) (h_s : Kept z s) : KeptR z (execMigSourceStopped ns s) := by
  unfold execMigSourceStopped
  repeat' (first
    | with_reducible assumption
    | with_reducible apply Kept.ite
    | with_reducible apply KeptR.ite
    | with_reducible apply Kept.next
    | lift_lets -underBinder
    | with_reducible apply done_kept
    | with_reducible apply State.migRetry_kept
    | with_reducible apply State.migCommit_kept
    | split)

theorem execMigDeadlineExpiry_kept {z : State} (ns : Fin 5001) (s : State) (h_s : Kept z s) : KeptR z (execMigDeadlineExpiry ns s) := by
  unfold execMigDeadlineExpiry
  repeat' (first
    | with_reducible assumption
    | with_reducible apply KeptR.ite
    | with_reducible apply Kept.next
    | lift_lets -underBinder
    | with_reducible apply done_kept
    | with_reducible apply State.blackout_kept
    | with_reducible apply State.migAbandon_kept)

end Sys2Proof.Machine
end

