-- ==== Sys2Proof/Laws/KeptSio.lean ====
section
/-! SUPPORT. What the operations of Machine/Sio.lean keep. -/

namespace Sys2Proof.Machine

theorem State.imgLoad_kept {z : State} (s : State) (off : Nat) (ecc : Ecc) (h_s : Kept z s) : Kept z (State.imgLoad s off ecc).2 := by
  unfold State.imgLoad
  repeat' (first
    | with_reducible assumption
    | (intro x; subst x)
    | lift_lets -underBinder
    | with_reducible apply State.bankLoad_kept
    | (with_reducible refine Kept.ofPair (by assumption) ?_)
    | split)

theorem State.imgStore_kept {z : State} (s : State) (off : Nat) (bs : List Byte) (h_s : Kept z s) : Kept z (State.imgStore s off bs) := by
  unfold State.imgStore
  repeat' (first
    | with_reducible assumption
    | (intro x; subst x)
    | lift_lets -underBinder
    | with_reducible apply State.bankStore_kept)

theorem State.outputBlock_kept {z : State} (s : State) (ecc : Ecc) (h_s : Kept z s) : Kept z (State.outputBlock s ecc).2 := by
  unfold State.outputBlock
  repeat' (first
    | with_reducible assumption
    | lift_lets -underBinder
    | with_reducible apply State.imgLoad_kept
    | with_reducible refine Kept.foldl2 ?_ (fun t x ht => ?_)
    | split)

theorem State.startWindows_kept {z : State} (s t : State) (h_s : Kept z s) (h_t : Kept z t) : Kept z (State.startWindows s t) := by
  unfold State.startWindows
  repeat' (first
    | with_reducible assumption
    | with_reducible apply Kept.ite
    | lift_lets -underBinder
    | with_reducible apply State.joinWindow_kept
    | with_reducible refine Kept.foldl ?_ (fun t x ht => ?_))

theorem State.acceptBlock_kept {z : State} (s : State) (bs : List Byte) (h_s : Kept z s) : Kept z (State.acceptBlock s bs) := by
  unfold State.acceptBlock
  repeat' (first
    | with_reducible assumption
    | with_reducible refine fun t => ?_
    | (intro x; refine Kept.cut (a := x) ?_ (fun _ => ?_) <;> [subst x; clear_value x])
    | (intro x; subst x)
    | lift_lets -underBinder
    | with_reducible apply State.wr_kept
    | with_reducible apply State.allDq_kept
    | with_reducible apply State.dqCommand_kept
    | with_reducible apply State.startWindows_kept
    | with_reducible apply State.sioSync_kept
    | fail_if_no_progress (with_reducible refine Kept.upd ?_ rfl rfl rfl rfl rfl rfl rfl rfl rfl rfl rfl rfl rfl rfl rfl rfl rfl rfl rfl rfl rfl rfl rfl rfl rfl))

theorem execSioImageCycle_kept {z : State} (readback : BitVec 8) (ecc : Ecc) (s : State) (h_s : Kept z s) : KeptR z (execSioImageCycle readback ecc s) := by
  unfold execSioImageCycle
  repeat' (first
    | with_reducible assumption
    | with_reducible refine fun t => ?_
    | (intro x; refine KeptR.cut (a := x) ?_ (fun _ => ?_) <;> [subst x; clear_value x])
    | with_reducible apply KeptR.ite
    | with_reducible apply Kept.next
    | lift_lets -underBinder
    | with_reducible apply State.allDq_kept
    | with_reducible apply State.onDq_kept
    | with_reducible apply State.imgStore_kept
    | with_reducible apply State.outputBlock_kept
    | with_reducible apply done_kept
    | with_reducible apply State.acceptBlock_kept
    | with_reducible apply State.bump_kept
    | with_reducible refine Kept.foldl ?_ (fun t x ht => ?_)
    | fail_if_no_progress (with_reducible refine Kept.upd ?_ rfl rfl rfl rfl rfl rfl rfl rfl rfl rfl rfl rfl rfl rfl rfl rfl rfl rfl rfl rfl rfl rfl rfl rfl rfl)
    | (with_reducible refine Kept.ofPair (by assumption) ?_)
    | split)

theorem State.commLoss_kept {z : State} (s : State) (h_s : Kept z s) : Kept z (State.commLoss s) := by
  unfold State.commLoss
  repeat' (first
    | with_reducible assumption
    | with_reducible refine fun t => ?_
    | (intro x; refine Kept.cut (a := x) ?_ (fun _ => ?_) <;> [subst x; clear_value x])
    | lift_lets -underBinder
    | with_reducible apply State.wr_kept
    | with_reducible apply State.allDq_kept
    | with_reducible apply State.dqOff_kept
    | with_reducible apply State.bump_kept
    | with_reducible apply State.raiseSio_kept
    | with_reducible apply State.sioDemand_kept
    | with_reducible apply State.sioSync_kept)

theorem execSioCommTimeout_kept {z : State} (s : State) (h_s : Kept z s) : KeptR z (execSioCommTimeout s) := by
  unfold execSioCommTimeout
  repeat' (first
    | with_reducible assumption
    | with_reducible apply KeptR.ite
    | with_reducible apply Kept.next
    | lift_lets -underBinder
    | with_reducible apply done_kept
    | with_reducible apply State.commLoss_kept)

theorem execSioLinkFail_kept {z : State} (s : State) (h_s : Kept z s) : KeptR z (execSioLinkFail s) := by
  unfold execSioLinkFail
  repeat' (first
    | with_reducible assumption
    | with_reducible apply KeptR.ite
    | with_reducible apply Kept.next
    | lift_lets -underBinder
    | with_reducible apply done_kept
    | with_reducible apply State.commLoss_kept)

theorem execDiFilterAccept_kept {z : State} (ch : Fin 16) (level : Bool) (s : State) (h_s : Kept z s) : KeptR z (execDiFilterAccept ch level s) := by
  unfold execDiFilterAccept
  repeat' (first
    | with_reducible assumption
    | (intro x; subst x)
    | with_reducible apply KeptR.ite
    | with_reducible apply Kept.next
    | lift_lets -underBinder
    | with_reducible apply done_kept
    | with_reducible apply State.setDi_kept
    | with_reducible apply State.pairTrack_kept
    | with_reducible apply State.sioSync_kept)

theorem execTpPulseStart_kept {z : State} (src : Fin 4) (s : State) (h_s : Kept z s) : KeptR z (execTpPulseStart src s) := by
  unfold execTpPulseStart
  repeat' (first
    | with_reducible assumption
    | (intro x; subst x)
    | with_reducible apply KeptR.ite
    | with_reducible apply Kept.next
    | lift_lets -underBinder
    | with_reducible apply State.setPin_kept
    | fail_if_no_progress (with_reducible refine Kept.upd ?_ rfl rfl rfl rfl rfl rfl rfl rfl rfl rfl rfl rfl rfl rfl rfl rfl rfl rfl rfl rfl rfl rfl rfl rfl rfl))

theorem State.ownPulse_kept {z : State} (s : State) (ch : Nat) (reached : Bool) (h_s : Kept z s) : Kept z (State.ownPulse s ch reached) := by
  unfold State.ownPulse
  repeat' (first
    | with_reducible assumption
    | with_reducible apply Kept.ite
    | lift_lets -underBinder
    | with_reducible apply State.setDi_kept
    | with_reducible apply State.diFail_kept)

theorem State.crossPulse_kept {z : State} (s : State) (ch src : Nat) (low : Bool) (h_s : Kept z s) : Kept z (State.crossPulse s ch src low) := by
  unfold State.crossPulse
  repeat' (first
    | with_reducible assumption
    | with_reducible apply Kept.ite
    | lift_lets -underBinder
    | with_reducible apply State.diFail_kept
    | fail_if_no_progress (with_reducible refine Kept.upd ?_ rfl rfl rfl rfl rfl rfl rfl rfl rfl rfl rfl rfl rfl rfl rfl rfl rfl rfl rfl rfl rfl rfl rfl rfl rfl))

theorem execTpPulseEnd_kept {z : State} (src : Fin 4) (reached lowOutside : BitVec 16) (readbackOk : Bool) (s : State) (h_s : Kept z s) : KeptR z (execTpPulseEnd src reached lowOutside readbackOk s) := by
  unfold execTpPulseEnd
  repeat' (first
    | with_reducible assumption
    | (intro x; refine KeptR.cut (a := x) ?_ (fun _ => ?_) <;> [subst x; clear_value x])
    | (intro x; subst x)
    | with_reducible apply Kept.ite
    | with_reducible apply KeptR.ite
    | with_reducible apply Kept.next
    | lift_lets -underBinder
    | with_reducible apply State.setPin_kept
    | with_reducible apply State.ownPulse_kept
    | with_reducible apply State.crossPulse_kept
    | with_reducible apply State.setDi_kept
    | with_reducible apply State.pairEvent_kept
    | with_reducible apply State.raiseSio_kept
    | with_reducible apply done_kept
    | with_reducible apply State.sioSync_kept
    | with_reducible refine Kept.foldl ?_ (fun t x ht => ?_)
    | fail_if_no_progress (with_reducible refine Kept.upd ?_ rfl rfl rfl rfl rfl rfl rfl rfl rfl rfl rfl rfl rfl rfl rfl rfl rfl rfl rfl rfl rfl rfl rfl rfl rfl)
    | split)

theorem State.pairTick_kept {z : State} (s : State) (k : Nat) (h_s : Kept z s) : Kept z (State.pairTick s k) := by
  unfold State.pairTick
  repeat' (first
    | with_reducible assumption
    | (intro x; refine Kept.cut (a := x) ?_ (fun _ => ?_) <;> [subst x; clear_value x])
    | with_reducible apply Kept.ite
    | lift_lets -underBinder
    | with_reducible apply State.setPair_kept
    | with_reducible apply State.wr_kept
    | with_reducible apply State.raiseSio_kept
    | with_reducible apply State.pairEvent_kept)

theorem execSioTick_kept {z : State} (s : State) (h_s : Kept z s) : KeptR z (execSioTick s) := by
  unfold execSioTick
  repeat' (first
    | with_reducible assumption
    | with_reducible apply KeptR.ite
    | with_reducible apply Kept.next
    | lift_lets -underBinder
    | with_reducible apply done_kept
    | with_reducible apply State.pairTick_kept
    | with_reducible apply State.sioSync_kept
    | with_reducible refine Kept.foldl ?_ (fun t x ht => ?_))

theorem State.dqTest_kept {z : State} (s : State) (m : Nat) (h_s : Kept z s) : Kept z (State.dqTest s m) := by
  unfold State.dqTest
  repeat' (first
    | with_reducible assumption
    | with_reducible apply Kept.ite
    | lift_lets -underBinder
    | with_reducible apply State.onDq_kept
    | with_reducible apply State.halfOut_kept)

theorem execDqTestStart_kept {z : State} (m : Fin 8) (s : State) (h_s : Kept z s) : KeptR z (execDqTestStart m s) := by
  unfold execDqTestStart
  repeat' (first
    | with_reducible assumption
    | with_reducible apply KeptR.ite
    | with_reducible apply Kept.next
    | lift_lets -underBinder
    | with_reducible apply done_kept
    | with_reducible apply State.dqTest_kept
    | with_reducible apply State.sioSync_kept
    | with_reducible refine Kept.foldl ?_ (fun t x ht => ?_))

theorem State.halfCurrents_kept {z : State} (s : State) (m ia ib : Nat) (h_s : Kept z s) : Kept z (State.halfCurrents s m ia ib) := by
  unfold State.halfCurrents
  repeat' (first
    | with_reducible assumption
    | with_reducible apply Kept.ite
    | lift_lets -underBinder
    | with_reducible apply State.setDq_kept
    | with_reducible apply State.halfOut_kept)

theorem State.testEnd_kept {z : State} (s : State) (m : Nat) (fell : Bool) (ia ib : Nat) (h_s : Kept z s) : Kept z (State.testEnd s m fell ia ib) := by
  unfold State.testEnd
  repeat' (first
    | with_reducible assumption
    | with_reducible apply Kept.ite
    | lift_lets -underBinder
    | with_reducible apply State.setDq_kept
    | with_reducible apply State.halfCurrents_kept
    | with_reducible apply State.dqFail_kept)

theorem State.tied_kept {z : State} (s : State) (m a : Nat) (h_s : Kept z s) : Kept z (State.tied s m a) := by
  unfold State.tied
  repeat' (first
    | with_reducible assumption
    | lift_lets -underBinder
    | with_reducible apply State.dqFail_kept)

theorem execDqTestEnd_kept {z : State} (m : Fin 8) (fell low : BitVec 8) (ha hb : List Nat) (s : State) (h_s : Kept z s) : KeptR z (execDqTestEnd m fell low ha hb s) := by
  unfold execDqTestEnd
  repeat' (first
    | with_reducible assumption
    | (intro x; refine KeptR.cut (a := x) ?_ (fun _ => ?_) <;> [subst x; clear_value x])
    | (intro x; subst x)
    | with_reducible apply KeptR.ite
    | with_reducible apply Kept.next
    | lift_lets -underBinder
    | with_reducible apply State.testEnd_kept
    | with_reducible apply done_kept
    | with_reducible apply State.tied_kept
    | with_reducible apply State.sioSync_kept
    | with_reducible refine Kept.foldl ?_ (fun t x ht => ?_))

theorem execDqOffSettleCheck_kept {z : State} (m : Fin 8) (high : Bool) (s : State) (h_s : Kept z s) : KeptR z (execDqOffSettleCheck m high s) := by
  unfold execDqOffSettleCheck
  repeat' (first
    | with_reducible assumption
    | with_reducible apply KeptR.ite
    | with_reducible apply Kept.next
    | lift_lets -underBinder
    | with_reducible apply State.setDq_kept
    | with_reducible apply done_kept
    | with_reducible apply State.dqFail_kept
    | with_reducible apply State.sioSync_kept)

theorem State.trip_kept {z : State} (s : State) (m code src : Nat) (h_s : Kept z s) : Kept z (State.trip s m code src) := by
  unfold State.trip
  repeat' (first
    | with_reducible assumption
    | lift_lets -underBinder
    | with_reducible apply State.onDq_kept
    | with_reducible apply State.raiseSio_kept
    | with_reducible apply State.sioSync_kept)

theorem execDqOverloadTrip_kept {z : State} (m : Fin 8) (s : State) (h_s : Kept z s) : KeptR z (execDqOverloadTrip m s) := by
  unfold execDqOverloadTrip
  repeat' (first
    | with_reducible assumption
    | with_reducible apply KeptR.ite
    | with_reducible apply Kept.next
    | lift_lets -underBinder
    | with_reducible apply done_kept
    | with_reducible apply State.trip_kept)

theorem execDqThermalTrip_kept {z : State} (m : Fin 8) (s : State) (h_s : Kept z s) : KeptR z (execDqThermalTrip m s) := by
  unfold execDqThermalTrip
  repeat' (first
    | with_reducible assumption
    | with_reducible apply KeptR.ite
    | with_reducible apply Kept.next
    | lift_lets -underBinder
    | with_reducible apply done_kept
    | with_reducible apply State.trip_kept)

theorem execDqOverloadRestartTimeout_kept {z : State} (m : Fin 8) (s : State) (h_s : Kept z s) : KeptR z (execDqOverloadRestartTimeout m s) := by
  unfold execDqOverloadRestartTimeout
  repeat' (first
    | with_reducible assumption
    | with_reducible apply Kept.next
    | lift_lets -underBinder
    | with_reducible apply State.onDq_kept)

theorem execDqThermalCooled_kept {z : State} (m : Fin 8) (s : State) (h_s : Kept z s) : KeptR z (execDqThermalCooled m s) := by
  unfold execDqThermalCooled
  repeat' (first
    | with_reducible assumption
    | with_reducible apply Kept.next
    | lift_lets -underBinder
    | with_reducible apply State.onDq_kept)

theorem execL2Sag_kept {z : State} (tenths : Fin 512) (s : State) (h_s : Kept z s) : KeptR z (execL2Sag tenths s) := by
  unfold execL2Sag
  repeat' (first
    | with_reducible assumption
    | with_reducible refine fun t => ?_
    | (intro x; refine KeptR.cut (a := x) ?_ (fun _ => ?_) <;> [subst x; clear_value x])
    | with_reducible apply Kept.ite
    | with_reducible apply KeptR.ite
    | lift_lets -underBinder
    | with_reducible apply State.wr_kept
    | with_reducible apply State.raiseSio_kept
    | with_reducible apply State.allDq_kept
    | with_reducible apply State.dqHold_kept
    | with_reducible apply done_kept
    | with_reducible apply State.event_kept
    | with_reducible apply State.sioSync_kept)

theorem execL2Recovered_kept {z : State} (tenths : Fin 512) (s : State) (h_s : Kept z s) : KeptR z (execL2Recovered tenths s) := by
  unfold execL2Recovered
  repeat' (first
    | with_reducible assumption
    | with_reducible apply KeptR.ite
    | with_reducible apply Kept.next
    | lift_lets -underBinder
    | with_reducible apply done_kept
    | with_reducible apply State.wr_kept
    | with_reducible apply State.sioSync_kept)

theorem execL1Sag_kept {z : State} (tenths : Fin 512) (s : State) (h_s : Kept z s) : KeptR z (execL1Sag tenths s) := by
  unfold execL1Sag
  repeat' (first
    | with_reducible assumption
    | (intro x; refine KeptR.cut (a := x) ?_ (fun _ => ?_) <;> [subst x; clear_value x])
    | with_reducible apply Kept.ite
    | lift_lets -underBinder
    | with_reducible apply State.wr_kept
    | with_reducible apply State.raiseSio_kept
    | with_reducible apply State.setPin_kept
    | with_reducible apply done_kept
    | with_reducible apply State.sioSync_kept
    | fail_if_no_progress (with_reducible refine Kept.upd ?_ rfl rfl rfl rfl rfl rfl rfl rfl rfl rfl rfl rfl rfl rfl rfl rfl rfl rfl rfl rfl rfl rfl rfl rfl rfl))

theorem execL1Recovered_kept {z : State} (tenths : Fin 512) (s : State) (h_s : Kept z s) : KeptR z (execL1Recovered tenths s) := by
  unfold execL1Recovered
  repeat' (first
    | with_reducible assumption
    | (intro x; refine KeptR.cut (a := x) ?_ (fun _ => ?_) <;> [subst x; clear_value x])
    | with_reducible apply Kept.ite
    | with_reducible apply KeptR.ite
    | with_reducible apply Kept.next
    | lift_lets -underBinder
    | with_reducible apply State.wr_kept
    | with_reducible apply State.setPin_kept
    | with_reducible apply done_kept
    | with_reducible apply State.sioSync_kept
    | fail_if_no_progress (with_reducible refine Kept.upd ?_ rfl rfl rfl rfl rfl rfl rfl rfl rfl rfl rfl rfl rfl rfl rfl rfl rfl rfl rfl rfl rfl rfl rfl rfl rfl))

theorem execSafetyDomainReset_kept {z : State} (clock : Bool) (s : State) (h_s : Kept z s) : KeptR z (execSafetyDomainReset clock s) := by
  unfold execSafetyDomainReset
  repeat' (first
    | with_reducible assumption
    | (intro x; subst x)
    | lift_lets -underBinder
    | with_reducible apply done_kept
    | with_reducible apply State.raiseSio_kept
    | with_reducible apply State.sioReset_kept
    | with_reducible apply State.later_kept)

theorem State.sioCopies_kept {z : State} (s : State) (okA okB : Bool) (h_s : Kept z s) : Kept z (State.sioCopies s okA okB) := by
  unfold State.sioCopies
  repeat' (first
    | with_reducible assumption
    | (intro x; subst x)
    | lift_lets -underBinder
    | fail_if_no_progress (with_reducible refine Kept.upd ?_ rfl rfl rfl rfl rfl rfl rfl rfl rfl rfl rfl rfl rfl rfl rfl rfl rfl rfl rfl rfl rfl rfl rfl rfl rfl))

theorem execSioInitDone_kept {z : State} (okA okB : Bool) (badDi : BitVec 16) (badDq : BitVec 8) (s : State) (h_s : Kept z s) : KeptR z (execSioInitDone okA okB badDi badDq s) := by
  unfold execSioInitDone
  repeat' (first
    | with_reducible assumption
    | (intro x; refine KeptR.cut (a := x) ?_ (fun _ => ?_) <;> [subst x; clear_value x])
    | with_reducible apply Kept.ite
    | with_reducible apply KeptR.ite
    | with_reducible apply Kept.next
    | lift_lets -underBinder
    | with_reducible apply State.sioCopies_kept
    | with_reducible apply State.sioReload_kept
    | with_reducible apply State.sioLogShow_kept
    | with_reducible apply State.wr_kept
    | with_reducible apply State.raiseSio_kept
    | with_reducible apply State.diFail_kept
    | with_reducible apply State.dqFail_kept
    | with_reducible apply done_kept
    | with_reducible apply State.sioTo_kept
    | with_reducible apply State.sioFollow_kept
    | with_reducible refine Kept.foldl ?_ (fun t x ht => ?_)
    | fail_if_no_progress (with_reducible refine Kept.upd ?_ rfl rfl rfl rfl rfl rfl rfl rfl rfl rfl rfl rfl rfl rfl rfl rfl rfl rfl rfl rfl rfl rfl rfl rfl rfl))

theorem State.sioCfgWrite_kept {z : State} (s : State) (off : Nat) (v : Word) (h_s : Kept z s) : Kept z (State.sioCfgWrite s off v) := by
  unfold State.sioCfgWrite
  repeat' (first
    | with_reducible assumption
    | with_reducible apply Kept.ite
    | lift_lets -underBinder
    | with_reducible apply State.regWrite_kept
    | with_reducible apply State.sioPend_kept
    | with_reducible apply State.sioSync_kept
    | with_reducible apply State.raiseSio_kept)

theorem execSioCfgWrite_kept {z : State} (port : Fin 2) (reg : Fin 13) (value : Word) (s : State) (h_s : Kept z s) : KeptR z (execSioCfgWrite port reg value s) := by
  unfold execSioCfgWrite
  repeat' (first
    | with_reducible assumption
    | (intro x; subst x)
    | lift_lets -underBinder
    | with_reducible apply onMw0_kept
    | with_reducible apply done_kept
    | with_reducible apply State.sioCfgWrite_kept)

theorem State.safetyCmd_kept {z : State} (s : State) (ring code : Nat) (modes : Mode → Bool) (body : State → State) (h_s : Kept z s) (h_body : ∀ t, Kept z t → Kept z (body t)) : Kept z (State.safetyCmd s ring code modes body) := by
  unfold State.safetyCmd
  repeat' (first
    | with_reducible assumption
    | with_reducible apply Kept.ite
    | lift_lets -underBinder
    | with_reducible apply State.take_kept
    | with_reducible apply State.finish_kept
    | with_reducible apply State.command_kept)

theorem State.wrongPwd_kept {z : State} (s : State) (h_s : Kept z s) : Kept z (State.wrongPwd s) := by
  unfold State.wrongPwd
  repeat' (first
    | with_reducible assumption
    | (intro x; subst x)
    | lift_lets -underBinder
    | with_reducible apply State.raiseSio_kept
    | fail_if_no_progress (with_reducible refine Kept.upd ?_ rfl rfl rfl rfl rfl rfl rfl rfl rfl rfl rfl rfl rfl rfl rfl rfl rfl rfl rfl rfl rfl rfl rfl rfl rfl))

theorem State.rightPwd_kept {z : State} (s : State) (h_s : Kept z s) : Kept z (State.rightPwd s) := by
  unfold State.rightPwd
  repeat' (first
    | with_reducible assumption
    | (intro x; subst x)
    | lift_lets -underBinder
    | fail_if_no_progress (with_reducible refine Kept.upd ?_ rfl rfl rfl rfl rfl rfl rfl rfl rfl rfl rfl rfl rfl rfl rfl rfl rfl rfl rfl rfl rfl rfl rfl rfl rfl))

theorem State.cmdSioUnlock_kept {z : State} (s : State) (ring addr : Nat) (dma : Option (List Byte)) (h_s : Kept z s) : Kept z (State.cmdSioUnlock s ring addr dma) := by
  unfold State.cmdSioUnlock
  repeat' (first
    | with_reducible assumption
    | with_reducible refine fun t => ?_
    | with_reducible apply Kept.ite
    | lift_lets -underBinder
    | with_reducible apply State.finish_kept
    | with_reducible apply State.withDma_kept
    | with_reducible apply State.rightPwd_kept
    | with_reducible apply State.wr_kept
    | with_reducible apply State.wrongPwd_kept
    | split)

theorem execSioUnlock_kept {z : State} (ring : Fin 512) (p0 : BitVec 64) (dma : Option (List Byte)) (s : State) (h_s : Kept z s) : KeptR z (execSioUnlock ring p0 dma s) := by
  unfold execSioUnlock
  repeat' (first
    | with_reducible assumption
    | with_reducible refine fun t => ?_
    | lift_lets -underBinder
    | with_reducible apply done_kept
    | with_reducible apply State.safetyCmd_kept
    | with_reducible apply State.cmdSioUnlock_kept)

theorem State.cmdSioLock_kept {z : State} (s : State) (ring : Nat) (h_s : Kept z s) : Kept z (State.cmdSioLock s ring) := by
  unfold State.cmdSioLock
  repeat' (first
    | with_reducible assumption
    | with_reducible apply Kept.ite
    | lift_lets -underBinder
    | with_reducible apply State.finish_kept
    | with_reducible apply State.sioRelock_kept)

theorem execSioLock_kept {z : State} (ring : Fin 512) (s : State) (h_s : Kept z s) : KeptR z (execSioLock ring s) := by
  unfold execSioLock
  repeat' (first
    | with_reducible assumption
    | with_reducible refine fun t => ?_
    | lift_lets -underBinder
    | with_reducible apply done_kept
    | with_reducible apply State.safetyCmd_kept
    | with_reducible apply State.cmdSioLock_kept)

theorem State.cmdSioCommit_kept {z : State} (s : State) (ring p0 p1 : Nat) (h_s : Kept z s) : Kept z (State.cmdSioCommit s ring p0 p1) := by
  unfold State.cmdSioCommit
  repeat' (first
    | with_reducible assumption
    | (intro x; refine Kept.cut (a := x) ?_ (fun _ => ?_) <;> [subst x; clear_value x])
    | (intro x; subst x)
    | with_reducible apply Kept.ite
    | lift_lets -underBinder
    | with_reducible apply State.finish_kept
    | with_reducible apply State.sioLog_kept
    | with_reducible apply State.setReg_kept
    | with_reducible apply State.wr_kept
    | with_reducible apply State.sioSync_kept
    | fail_if_no_progress (with_reducible refine Kept.upd ?_ rfl rfl rfl rfl rfl rfl rfl rfl rfl rfl rfl rfl rfl rfl rfl rfl rfl rfl rfl rfl rfl rfl rfl rfl rfl))

theorem execSioCommit_kept {z : State} (ring : Fin 512) (p0 p1 : BitVec 64) (s : State) (h_s : Kept z s) : KeptR z (execSioCommit ring p0 p1 s) := by
  unfold execSioCommit
  repeat' (first
    | with_reducible assumption
    | with_reducible refine fun t => ?_
    | lift_lets -underBinder
    | with_reducible apply done_kept
    | with_reducible apply State.safetyCmd_kept
    | with_reducible apply State.cmdSioCommit_kept)

theorem State.salt_kept {z : State} (s : State) (h_s : Kept z s) : Kept z (State.salt s).2 := by
  unfold State.salt
  repeat' (first
    | with_reducible assumption
    | lift_lets -underBinder
    | with_reducible apply State.draw_kept)

theorem State.cmdSioPwdSet_kept {z : State} (s : State) (ring addr : Nat) (dma : Option (List Byte)) (h_s : Kept z s) : Kept z (State.cmdSioPwdSet s ring addr dma) := by
  unfold State.cmdSioPwdSet
  repeat' (first
    | with_reducible assumption
    | with_reducible refine fun t => ?_
    | (intro x; subst x)
    | with_reducible apply Kept.ite
    | lift_lets -underBinder
    | with_reducible apply State.finish_kept
    | with_reducible apply State.withDma_kept
    | with_reducible apply State.salt_kept
    | with_reducible apply State.rightPwd_kept
    | with_reducible apply State.sioLog_kept
    | with_reducible apply State.wr_kept
    | with_reducible apply State.wrongPwd_kept
    | fail_if_no_progress (with_reducible refine Kept.upd ?_ rfl rfl rfl rfl rfl rfl rfl rfl rfl rfl rfl rfl rfl rfl rfl rfl rfl rfl rfl rfl rfl rfl rfl rfl rfl)
    | split)

theorem execSioPwdSet_kept {z : State} (ring : Fin 512) (p0 : BitVec 64) (dma : Option (List Byte)) (s : State) (h_s : Kept z s) : KeptR z (execSioPwdSet ring p0 dma s) := by
  unfold execSioPwdSet
  repeat' (first
    | with_reducible assumption
    | with_reducible refine fun t => ?_
    | lift_lets -underBinder
    | with_reducible apply done_kept
    | with_reducible apply State.safetyCmd_kept
    | with_reducible apply State.cmdSioPwdSet_kept)

theorem State.recoveryWindows_kept {z : State} (s : State) (h_s : Kept z s) : Kept z (State.recoveryWindows s) := by
  unfold State.recoveryWindows
  repeat' (first
    | with_reducible assumption
    | with_reducible apply Kept.ite
    | lift_lets -underBinder
    | with_reducible apply State.joinWindow_kept
    | with_reducible refine Kept.foldl ?_ (fun t x ht => ?_))

theorem State.cmdSioAck_kept {z : State} (s : State) (ring crc : Nat) (high : Nat) (h_s : Kept z s) : Kept z (State.cmdSioAck s ring crc high) := by
  unfold State.cmdSioAck
  repeat' (first
    | with_reducible assumption
    | with_reducible refine fun t => ?_
    | (intro x; refine Kept.cut (a := x) ?_ (fun _ => ?_) <;> [subst x; clear_value x])
    | with_reducible apply Kept.ite
    | lift_lets -underBinder
    | with_reducible apply State.finish_kept
    | with_reducible apply State.setDi_kept
    | with_reducible apply State.allDq_kept
    | with_reducible apply State.onDq_kept
    | with_reducible apply State.wr_kept
    | with_reducible apply State.recoveryWindows_kept
    | with_reducible apply State.sioSync_kept
    | with_reducible refine Kept.foldl ?_ (fun t x ht => ?_))

theorem execSioAck_kept {z : State} (ring : Fin 512) (p0 : BitVec 64) (high : BitVec 8) (s : State) (h_s : Kept z s) : KeptR z (execSioAck ring p0 high s) := by
  unfold execSioAck
  repeat' (first
    | with_reducible assumption
    | with_reducible refine fun t => ?_
    | lift_lets -underBinder
    | with_reducible apply done_kept
    | with_reducible apply State.safetyCmd_kept
    | with_reducible apply State.cmdSioAck_kept)

theorem State.cmdSioOutEnable_kept {z : State} (s : State) (ring : Nat) (h_s : Kept z s) : Kept z (State.cmdSioOutEnable s ring) := by
  unfold State.cmdSioOutEnable
  repeat' (first
    | with_reducible assumption
    | with_reducible refine fun t => ?_
    | (intro x; refine Kept.cut (a := x) ?_ (fun _ => ?_) <;> [subst x; clear_value x])
    | with_reducible apply Kept.ite
    | lift_lets -underBinder
    | with_reducible apply State.finish_kept
    | with_reducible apply State.wr_kept
    | with_reducible apply State.allDq_kept
    | with_reducible apply State.dqHold_kept
    | with_reducible apply State.recoveryWindows_kept
    | with_reducible apply State.sioSync_kept)

theorem execSioOutEnable_kept {z : State} (ring : Fin 512) (s : State) (h_s : Kept z s) : KeptR z (execSioOutEnable ring s) := by
  unfold execSioOutEnable
  repeat' (first
    | with_reducible assumption
    | with_reducible refine fun t => ?_
    | lift_lets -underBinder
    | with_reducible apply done_kept
    | with_reducible apply State.command_kept
    | with_reducible apply State.cmdSioOutEnable_kept)

theorem State.cmdSioLogRead_kept {z : State} (s : State) (ring p0 p1 p2 : Nat) (h_s : Kept z s) : Kept z (State.cmdSioLogRead s ring p0 p1 p2) := by
  unfold State.cmdSioLogRead
  repeat' (first
    | with_reducible assumption
    | with_reducible apply Kept.ite
    | lift_lets -underBinder
    | with_reducible apply State.finish_kept
    | with_reducible apply State.writeHost_kept)

theorem execSioLogRead_kept {z : State} (ring : Fin 512) (p0 p1 p2 : BitVec 64) (s : State) (h_s : Kept z s) : KeptR z (execSioLogRead ring p0 p1 p2 s) := by
  unfold execSioLogRead
  repeat' (first
    | with_reducible assumption
    | with_reducible refine fun t => ?_
    | lift_lets -underBinder
    | with_reducible apply done_kept
    | with_reducible apply State.command_kept
    | with_reducible apply State.cmdSioLogRead_kept)

theorem State.cmdSioTest_kept {z : State} (s : State) (ring p0 : Nat) (h_s : Kept z s) : Kept z (State.cmdSioTest s ring p0) := by
  unfold State.cmdSioTest
  repeat' (first
    | with_reducible assumption
    | (intro x; refine Kept.cut (a := x) ?_ (fun _ => ?_) <;> [subst x; clear_value x])
    | with_reducible apply Kept.ite
    | lift_lets -underBinder
    | with_reducible apply State.finish_kept
    | with_reducible apply State.joinWindow_kept
    | with_reducible apply State.raiseSio_kept
    | with_reducible apply State.dqTest_kept
    | with_reducible apply State.sioSync_kept
    | with_reducible refine Kept.foldl ?_ (fun t x ht => ?_))

theorem execSioTest_kept {z : State} (ring : Fin 512) (p0 : BitVec 64) (s : State) (h_s : Kept z s) : KeptR z (execSioTest ring p0 s) := by
  unfold execSioTest
  repeat' (first
    | with_reducible assumption
    | with_reducible refine fun t => ?_
    | lift_lets -underBinder
    | with_reducible apply done_kept
    | with_reducible apply State.command_kept
    | with_reducible apply State.cmdSioTest_kept)

theorem execSioUnlockTimeout_kept {z : State} (s : State) (h_s : Kept z s) : KeptR z (execSioUnlockTimeout s) := by
  unfold execSioUnlockTimeout
  repeat' (first
    | with_reducible assumption
    | with_reducible apply KeptR.ite
    | with_reducible apply Kept.next
    | lift_lets -underBinder
    | with_reducible apply done_kept
    | with_reducible apply State.sioRelock_kept)

theorem execPwdLockoutEnd_kept {z : State} (s : State) (h_s : Kept z s) : KeptR z (execPwdLockoutEnd s) := by
  unfold execPwdLockoutEnd
  repeat' (first
    | with_reducible assumption
    | (intro x; subst x)
    | with_reducible apply Kept.next
    | lift_lets -underBinder
    | fail_if_no_progress (with_reducible refine Kept.upd ?_ rfl rfl rfl rfl rfl rfl rfl rfl rfl rfl rfl rfl rfl rfl rfl rfl rfl rfl rfl rfl rfl rfl rfl rfl rfl))

theorem execAckOkTimeout_kept {z : State} (s : State) (h_s : Kept z s) : KeptR z (execAckOkTimeout s) := by
  unfold execAckOkTimeout
  repeat' (first
    | with_reducible assumption
    | with_reducible apply Kept.next
    | lift_lets -underBinder
    | with_reducible apply State.wr_kept)

theorem execParStartExpiry_kept {z : State} (pair : Fin 4) (s : State) (h_s : Kept z s) : KeptR z (execParStartExpiry pair s) := by
  unfold execParStartExpiry
  repeat' (first
    | with_reducible assumption
    | (intro x; subst x)
    | lift_lets -underBinder
    | with_reducible apply done_kept
    | with_reducible apply State.sioSync_kept
    | fail_if_no_progress (with_reducible refine Kept.upd ?_ rfl rfl rfl rfl rfl rfl rfl rfl rfl rfl rfl rfl rfl rfl rfl rfl rfl rfl rfl rfl rfl rfl rfl rfl rfl))

end Sys2Proof.Machine
end

