-- ==== Sys2Proof/Laws/KeptSwc.lean ====
section
/-! SUPPORT. What the operations of Machine/Swc.lean keep. -/

set_option linter.unusedSimpArgs false

namespace Sys2Proof.Machine

theorem execLearnActionApply_kept {z : State} (s : State) (h_s : Kept z s) : KeptR z (execLearnActionApply s) := by
  unfold execLearnActionApply
  repeat' (first
    | with_reducible assumption
    | (intro x; subst x)
    | with_reducible apply Kept.next
    | lift_lets -underBinder
    | with_reducible apply done_kept
    | with_reducible apply State.applyLearn_kept
    | fail_if_no_progress (with_reducible refine Kept.upd ?_ rfl rfl rfl rfl rfl rfl rfl rfl rfl rfl rfl rfl rfl rfl rfl rfl rfl rfl rfl rfl rfl rfl rfl rfl rfl)
    | split)

theorem execAgeingScanStep_kept {z : State} (s : State) (h_s : Kept z s) : KeptR z (execAgeingScanStep s) := by
  unfold execAgeingScanStep
  repeat' (first
    | with_reducible assumption
    | (intro x; refine KeptR.cut (a := x) ?_ (fun _ => ?_) <;> [subst x; clear_value x])
    | (intro x; subst x)
    | with_reducible apply KeptR.ite
    | with_reducible apply Kept.next
    | lift_lets -underBinder
    | with_reducible apply State.setFct_kept
    | with_reducible apply done_kept
    | with_reducible refine Kept.foldl ?_ (fun t x ht => ?_)
    | fail_if_no_progress (with_reducible refine Kept.upd ?_ rfl rfl rfl rfl rfl rfl rfl rfl rfl rfl rfl rfl rfl rfl rfl rfl rfl rfl rfl rfl rfl rfl rfl rfl rfl))

theorem cmdFctAdd_kept {z : State} (ring : Nat) (p0 : BitVec 64) (dma : Option (List Byte)) (s : State) (h_s : Kept z s) : Kept z (cmdFctAdd ring p0 dma s) := by
  unfold cmdFctAdd
  repeat' (first
    | with_reducible assumption
    | with_reducible refine fun t => ?_
    | with_reducible apply Kept.ite
    | lift_lets -underBinder
    | with_reducible apply State.finish_kept
    | with_reducible apply State.withDma_kept
    | with_reducible apply State.place_kept
    | (with_reducible refine Kept.ofPair (by assumption) ?_)
    | split)

theorem execFctAdd_kept {z : State} (ring : Fin 512) (p0 : BitVec 64) (dma : Option (List Byte)) (s : State) (h_s : Kept z s) : KeptR z (execFctAdd ring p0 dma s) := by
  unfold execFctAdd
  repeat' (first
    | with_reducible assumption
    | with_reducible refine fun t => ?_
    | lift_lets -underBinder
    | with_reducible apply done_kept
    | with_reducible apply State.command_kept
    | with_reducible apply cmdFctAdd_kept)

theorem cmdFctDel_kept {z : State} (ring : Nat) (p0 : BitVec 64) (dma : Option (List Byte)) (s : State) (h_s : Kept z s) : Kept z (cmdFctDel ring p0 dma s) := by
  unfold cmdFctDel
  repeat' (first
    | with_reducible assumption
    | with_reducible refine fun t => ?_
    | (intro x; subst x)
    | with_reducible apply Kept.ite
    | lift_lets -underBinder
    | with_reducible apply State.finish_kept
    | with_reducible apply State.withDma_kept
    | with_reducible apply State.setFct_kept
    | with_reducible apply State.setShadow_kept
    | split)

theorem execFctDel_kept {z : State} (ring : Fin 512) (p0 : BitVec 64) (dma : Option (List Byte)) (s : State) (h_s : Kept z s) : KeptR z (execFctDel ring p0 dma s) := by
  unfold execFctDel
  repeat' (first
    | with_reducible assumption
    | with_reducible refine fun t => ?_
    | lift_lets -underBinder
    | with_reducible apply done_kept
    | with_reducible apply State.command_kept
    | with_reducible apply cmdFctDel_kept)

theorem cmdFctRead_kept {z : State} (ring : Nat) (p0 p1 p2 : BitVec 64) (s : State) (h_s : Kept z s) : Kept z (cmdFctRead ring p0 p1 p2 s) := by
  unfold cmdFctRead
  repeat' (first
    | with_reducible assumption
    | with_reducible apply Kept.ite
    | lift_lets -underBinder
    | with_reducible apply State.finish_kept
    | with_reducible apply State.writeHost_kept)

theorem execFctRead_kept {z : State} (ring : Fin 512) (p0 p1 p2 : BitVec 64) (s : State) (h_s : Kept z s) : KeptR z (execFctRead ring p0 p1 p2 s) := by
  unfold execFctRead
  repeat' (first
    | with_reducible assumption
    | with_reducible refine fun t => ?_
    | lift_lets -underBinder
    | with_reducible apply done_kept
    | with_reducible apply State.command_kept
    | with_reducible apply cmdFctRead_kept)

theorem cmdFctWrite_kept {z : State} (ring : Nat) (p0 p1 : BitVec 64) (dma : Option (List Byte)) (s : State) (h_s : Kept z s) : Kept z (cmdFctWrite ring p0 p1 dma s) := by
  unfold cmdFctWrite
  repeat' (first
    | with_reducible assumption
    | with_reducible refine fun t => ?_
    | with_reducible apply Kept.ite
    | lift_lets -underBinder
    | with_reducible apply State.finish_kept
    | with_reducible apply State.withDma_kept
    | with_reducible apply State.setFct_kept
    | with_reducible apply State.setTern_kept)

theorem execFctWrite_kept {z : State} (ring : Fin 512) (p0 p1 : BitVec 64) (dma : Option (List Byte)) (s : State) (h_s : Kept z s) : KeptR z (execFctWrite ring p0 p1 dma s) := by
  unfold execFctWrite
  repeat' (first
    | with_reducible assumption
    | with_reducible refine fun t => ?_
    | lift_lets -underBinder
    | with_reducible apply done_kept
    | with_reducible apply State.command_kept
    | with_reducible apply cmdFctWrite_kept)

theorem cmdFctFence_kept {z : State} (ring : Nat) (s : State) (h_s : Kept z s) : Kept z (cmdFctFence ring s) := by
  unfold cmdFctFence
  repeat' (first
    | with_reducible assumption
    | lift_lets -underBinder
    | with_reducible apply State.startFence_kept
    | with_reducible apply State.finish_kept
    | (with_reducible refine Kept.ofPair (by assumption) ?_)
    | split)

theorem execFctFence_kept {z : State} (ring : Fin 512) (s : State) (h_s : Kept z s) : KeptR z (execFctFence ring s) := by
  unfold execFctFence
  repeat' (first
    | with_reducible assumption
    | with_reducible refine fun t => ?_
    | lift_lets -underBinder
    | with_reducible apply done_kept
    | with_reducible apply State.command_kept
    | with_reducible apply cmdFctFence_kept)

theorem execSwcFctFence_kept {z : State} (port : Fin 2) (s : State) (h_s : Kept z s) : KeptR z (execSwcFctFence port s) := by
  unfold execSwcFctFence
  repeat' (first
    | with_reducible assumption
    | lift_lets -underBinder
    | with_reducible apply onMw0_kept
    | with_reducible apply done_kept
    | with_reducible apply State.startFence_kept)

theorem execFenceDone_kept {z : State} (s : State) (h_s : Kept z s) : KeptR z (execFenceDone s) := by
  unfold execFenceDone
  repeat' (first
    | with_reducible assumption
    | with_reducible apply KeptR.ite
    | with_reducible apply Kept.next
    | lift_lets -underBinder
    | with_reducible apply done_kept
    | with_reducible apply State.endFence_kept)

theorem execFenceTimeout_kept {z : State} (s : State) (h_s : Kept z s) : KeptR z (execFenceTimeout s) := by
  unfold execFenceTimeout
  repeat' (first
    | with_reducible assumption
    | with_reducible apply KeptR.ite
    | with_reducible apply Kept.next
    | lift_lets -underBinder
    | with_reducible apply done_kept
    | with_reducible apply State.endFence_kept
    | with_reducible apply State.raise_kept)

theorem execFctSubarrayRemap_kept {z : State} (s : State) (h_s : Kept z s) : KeptR z (execFctSubarrayRemap s) := by
  unfold execFctSubarrayRemap
  repeat' (first
    | with_reducible assumption
    | (intro x; subst x)
    | with_reducible apply Kept.next
    | lift_lets -underBinder
    | with_reducible apply done_kept
    | fail_if_no_progress (with_reducible refine Kept.upd ?_ rfl rfl rfl rfl rfl rfl rfl rfl rfl rfl rfl rfl rfl rfl rfl rfl rfl rfl rfl rfl rfl rfl rfl rfl rfl)
    | split)

theorem execFctSubarrayLost_kept {z : State} (sub : Fin 16) (s : State) (h_s : Kept z s) : KeptR z (execFctSubarrayLost sub s) := by
  unfold execFctSubarrayLost
  repeat' (first
    | with_reducible assumption
    | (intro x; refine KeptR.cut (a := x) ?_ (fun _ => ?_) <;> [subst x; clear_value x])
    | with_reducible apply KeptR.ite
    | with_reducible apply Kept.next
    | with_reducible apply Kept.ite2
    | lift_lets -underBinder
    | with_reducible apply State.unitFailed_kept
    | with_reducible apply State.wr_kept
    | with_reducible apply State.place_kept
    | with_reducible apply done_kept
    | with_reducible apply State.event_kept
    | with_reducible apply State.lossOf_kept
    | with_reducible apply State.raise_kept
    | with_reducible refine Kept.foldl2 ?_ (fun t x ht => ?_)
    | fail_if_no_progress (with_reducible refine Kept.gen ?_ rfl rfl (fun c => ?_) <;> [skip; (simp +zetaDelta only [State.canon, State.regsWf, Bool.and_eq_true] at c ⊢; simp +zetaDelta only [c, SMap.wf_set, SMap.wf_nil, SMap.wf_filter, SioSt.reset, SwcSt.reset, CvnSt.reset, PsqSt.reset, MbxSt.reset, and_self]; done)])
    | (with_reducible refine Kept.ofPair (by assumption) ?_)
    | split)

theorem State.portRemove_kept {z : State} (s : State) (n : Nat) (remove : Bool) (h_s : Kept z s) : Kept z (State.portRemove s n remove) := by
  unfold State.portRemove
  repeat' (first
    | with_reducible assumption
    | with_reducible apply Kept.ite
    | lift_lets -underBinder
    | with_reducible apply State.wr_kept)

theorem execPortRemove_kept {z : State} (port : Fin 2) (n : Fin 16) (remove : Bool) (s : State) (h_s : Kept z s) : KeptR z (execPortRemove port n remove s) := by
  unfold execPortRemove
  repeat' (first
    | with_reducible assumption
    | lift_lets -underBinder
    | with_reducible apply onMw0_kept
    | with_reducible apply done_kept
    | with_reducible apply State.portRemove_kept)

theorem execPortDrainExpiry_kept {z : State} (n : Fin 16) (s : State) (h_s : Kept z s) : KeptR z (execPortDrainExpiry n s) := by
  unfold execPortDrainExpiry
  repeat' (first
    | with_reducible assumption
    | with_reducible apply KeptR.ite
    | with_reducible apply Kept.next
    | lift_lets -underBinder
    | with_reducible apply State.dropPort_kept
    | with_reducible apply done_kept
    | with_reducible apply State.drained_kept)

theorem execGateCycleStart_kept {z : State} (n : Fin 16) (s : State) (h_s : Kept z s) : KeptR z (execGateCycleStart n s) := by
  unfold execGateCycleStart
  repeat' (first
    | with_reducible assumption
    | (intro x; refine KeptR.cut (a := x) ?_ (fun _ => ?_) <;> [subst x; clear_value x])
    | with_reducible apply Kept.ite
    | with_reducible apply KeptR.ite
    | with_reducible apply Kept.next
    | lift_lets -underBinder
    | with_reducible apply State.wr_kept
    | with_reducible apply done_kept
    | with_reducible apply State.setGate_kept)

theorem execGateEntryChange_kept {z : State} (n : Fin 16) (s : State) (h_s : Kept z s) : KeptR z (execGateEntryChange n s) := by
  unfold execGateEntryChange
  repeat' (first
    | with_reducible assumption
    | with_reducible apply KeptR.ite
    | with_reducible apply Kept.next
    | lift_lets -underBinder
    | with_reducible apply done_kept
    | with_reducible apply State.setGate_kept)

theorem execGateBankSwitch_kept {z : State} (port : Fin 2) (n : Fin 16) (s : State) (h_s : Kept z s) : KeptR z (execGateBankSwitch port n s) := by
  unfold execGateBankSwitch
  repeat' (first
    | with_reducible assumption
    | lift_lets -underBinder
    | with_reducible apply onMw0_kept
    | with_reducible apply done_kept
    | with_reducible apply State.wr_kept)

end Sys2Proof.Machine
end

