-- ==== Sys2Proof/Laws/KeptCommand.lean ====
section
/-! SUPPORT. What the operations of Machine/Command.lean keep. -/

namespace Sys2Proof.Machine

theorem cmdHost_kept {z : State} (s : State) (ring : Fin 512) (code : Nat) (p0 p1 p2 : BitVec 64) (dma : Option (List Byte)) (h_s : Kept z s) : ∀ t, cmdHost s ring code p0 p1 p2 dma = some t → Kept z t := by
  intro t ht
  unfold cmdHost at ht
  repeat' (first
    | (cases ht; done)
    | (injection ht with ht; subst ht)
    | split at ht
    | with_reducible assumption
    | with_reducible refine fun t => ?_
    | with_reducible apply State.command_kept
    | with_reducible apply cmdMode_kept
    | with_reducible apply cmdRingAdopt_kept
    | with_reducible apply cmdRingRelease_kept
    | with_reducible apply cmdImgUpdStart_kept
    | with_reducible apply cmdImgUpdData_kept
    | with_reducible apply cmdImgUpdFinish_kept
    | with_reducible apply cmdImgUpdCancel_kept
    | with_reducible apply cmdImgConfirm_kept
    | with_reducible apply cmdImgMinVersion_kept)

theorem cmdSlots_kept {z : State} (s : State) (ring : Fin 512) (code : Nat) (p0 p1 p2 : BitVec 64) (dma : Option (List Byte)) (readOk : Bool) (h_s : Kept z s) : ∀ t, cmdSlots s ring code p0 p1 p2 dma readOk = some t → Kept z t := by
  intro t ht
  unfold cmdSlots at ht
  repeat' (first
    | (cases ht; done)
    | (injection ht with ht; subst ht)
    | split at ht
    | with_reducible assumption
    | with_reducible refine fun t => ?_
    | with_reducible apply State.command_kept
    | with_reducible apply cmdPersKeyAdd_kept
    | with_reducible apply cmdPersKeyRevoke_kept
    | with_reducible apply cmdPersLoad_kept
    | with_reducible apply cmdPersDrop_kept
    | with_reducible apply cmdPersCaps_kept
    | with_reducible apply cmdPersBind_kept
    | with_reducible apply cmdPersUnbind_kept
    | with_reducible apply cmdMigStart_kept
    | with_reducible apply cmdMigAbort_kept
    | with_reducible apply cmdEngRetire_kept
    | with_reducible apply cmdWadiAccept_kept
    | with_reducible apply cmdWadiVeto_kept)

theorem cmdBlocks_kept {z : State} (s : State) (ring : Fin 512) (code : Nat) (p0 p1 p2 : BitVec 64) (dma : Option (List Byte)) (h_s : Kept z s) : ∀ t, cmdBlocks s ring code p0 p1 p2 dma = some t → Kept z t := by
  intro t ht
  unfold cmdBlocks at ht
  repeat' (first
    | (cases ht; done)
    | (injection ht with ht; subst ht)
    | split at ht
    | with_reducible assumption
    | with_reducible refine fun t => ?_
    | with_reducible apply State.command_kept
    | with_reducible apply cmdMacCntRead_kept
    | with_reducible apply cmdFctAdd_kept
    | with_reducible apply cmdFctDel_kept
    | with_reducible apply cmdFctRead_kept
    | with_reducible apply cmdFctWrite_kept
    | with_reducible apply cmdFctFence_kept
    | with_reducible apply State.cmdCvnMode_kept
    | with_reducible apply State.cmdCvnTable_kept
    | with_reducible apply cmdMdbAbort_kept
    | with_reducible apply cmdMdbRecover_kept
    | with_reducible apply cmdMdbTtNext_kept
    | with_reducible apply cmdHlthLogRead_kept)

theorem cmdSafety_kept {z : State} (s : State) (ring : Fin 512) (code : Nat) (p0 p1 p2 : BitVec 64) (dma : Option (List Byte)) (high : BitVec 8) (h_s : Kept z s) : ∀ t, cmdSafety s ring code p0 p1 p2 dma high = some t → Kept z t := by
  intro t ht
  unfold cmdSafety at ht
  repeat' (first
    | (cases ht; done)
    | (injection ht with ht; subst ht)
    | split at ht
    | with_reducible assumption
    | with_reducible refine fun t => ?_
    | with_reducible apply State.safetyCmd_kept
    | with_reducible apply State.cmdSioUnlock_kept
    | with_reducible apply State.cmdSioLock_kept
    | with_reducible apply State.cmdSioCommit_kept
    | with_reducible apply State.cmdSioPwdSet_kept
    | with_reducible apply State.cmdSioAck_kept
    | with_reducible apply State.command_kept
    | with_reducible apply State.cmdSioOutEnable_kept
    | with_reducible apply State.cmdSioLogRead_kept
    | with_reducible apply State.cmdSioTest_kept)

theorem cmdUnknown_kept {z : State} (s : State) (ring : Fin 512) (code : Nat) (h_s : Kept z s) : Kept z (cmdUnknown s ring code) := by
  unfold cmdUnknown
  repeat' (first
    | with_reducible assumption
    | with_reducible refine fun t => ?_
    | with_reducible apply State.command_kept
    | with_reducible apply State.finish_kept)

theorem execCommandTake_kept {z : State} (ring : Fin 512) (code : BitVec 8) (p0 p1 p2 : BitVec 64) (dma : Option (List Byte)) (readOk : Bool) (high : BitVec 8) (s : State) (h_s : Kept z s) : KeptR z (execCommandTake ring code p0 p1 p2 dma readOk high s) := by
  unfold execCommandTake
  repeat' (first
    | with_reducible assumption
    | with_reducible refine fun t => ?_
    | (intro x; subst x)
    | with_reducible apply Kept.getD
    | lift_lets -underBinder
    | with_reducible apply done_kept
    | with_reducible refine cmdHost_kept _ _ _ _ _ _ _ ?_ _ (by assumption)
    | with_reducible refine cmdSlots_kept _ _ _ _ _ _ _ _ ?_ _ (by assumption)
    | with_reducible refine cmdBlocks_kept _ _ _ _ _ _ _ ?_ _ (by assumption)
    | with_reducible refine cmdSafety_kept _ _ _ _ _ _ _ _ ?_ _ (by assumption)
    | with_reducible apply cmdUnknown_kept)

end Sys2Proof.Machine
end

