-- ==== Sys2Proof/Laws/KeptEngineAlu.lean ====
section
/-! SUPPORT. What the operations of Machine/EngineAlu.lean keep. -/

namespace Sys2Proof.Machine

theorem execNop_kept {z : State} (n : Fin 18) (last : Bool) (s : State) (h_s : Kept z s) : KeptR z (execNop n last s) := by
  unfold execNop
  repeat' (first
    | with_reducible assumption
    | with_reducible refine fun t => ?_
    | with_reducible apply Kept.ite
    | lift_lets -underBinder
    | with_reducible apply done_kept
    | with_reducible apply State.issue1_kept
    | with_reducible apply State.issue0_kept
    | (rw [id_eq]; with_reducible assumption))

theorem execAdd_kept {z : State} (n : Fin 18) (rd ra rb : Fin 32) (last : Bool) (s : State) (h_s : Kept z s) : KeptR z (execAdd n rd ra rb last s) := by
  unfold execAdd
  repeat' (first
    | with_reducible assumption
    | lift_lets -underBinder
    | with_reducible apply done_kept
    | with_reducible apply State.alu2_kept)

theorem execSub_kept {z : State} (n : Fin 18) (rd ra rb : Fin 32) (last : Bool) (s : State) (h_s : Kept z s) : KeptR z (execSub n rd ra rb last s) := by
  unfold execSub
  repeat' (first
    | with_reducible assumption
    | lift_lets -underBinder
    | with_reducible apply done_kept
    | with_reducible apply State.alu2_kept)

theorem execAnd_kept {z : State} (n : Fin 18) (rd ra rb : Fin 32) (last : Bool) (s : State) (h_s : Kept z s) : KeptR z (execAnd n rd ra rb last s) := by
  unfold execAnd
  repeat' (first
    | with_reducible assumption
    | lift_lets -underBinder
    | with_reducible apply done_kept
    | with_reducible apply State.alu2_kept)

theorem execOr_kept {z : State} (n : Fin 18) (rd ra rb : Fin 32) (last : Bool) (s : State) (h_s : Kept z s) : KeptR z (execOr n rd ra rb last s) := by
  unfold execOr
  repeat' (first
    | with_reducible assumption
    | lift_lets -underBinder
    | with_reducible apply done_kept
    | with_reducible apply State.alu2_kept)

theorem execXor_kept {z : State} (n : Fin 18) (rd ra rb : Fin 32) (last : Bool) (s : State) (h_s : Kept z s) : KeptR z (execXor n rd ra rb last s) := by
  unfold execXor
  repeat' (first
    | with_reducible assumption
    | lift_lets -underBinder
    | with_reducible apply done_kept
    | with_reducible apply State.alu2_kept)

theorem execShl_kept {z : State} (n : Fin 18) (rd ra rb : Fin 32) (last : Bool) (s : State) (h_s : Kept z s) : KeptR z (execShl n rd ra rb last s) := by
  unfold execShl
  repeat' (first
    | with_reducible assumption
    | lift_lets -underBinder
    | with_reducible apply done_kept
    | with_reducible apply State.alu2_kept)

theorem execShr_kept {z : State} (n : Fin 18) (rd ra rb : Fin 32) (last : Bool) (s : State) (h_s : Kept z s) : KeptR z (execShr n rd ra rb last s) := by
  unfold execShr
  repeat' (first
    | with_reducible assumption
    | lift_lets -underBinder
    | with_reducible apply done_kept
    | with_reducible apply State.alu2_kept)

theorem execSar_kept {z : State} (n : Fin 18) (rd ra rb : Fin 32) (last : Bool) (s : State) (h_s : Kept z s) : KeptR z (execSar n rd ra rb last s) := by
  unfold execSar
  repeat' (first
    | with_reducible assumption
    | lift_lets -underBinder
    | with_reducible apply done_kept
    | with_reducible apply State.alu2_kept)

theorem execSlt_kept {z : State} (n : Fin 18) (rd ra rb : Fin 32) (last : Bool) (s : State) (h_s : Kept z s) : KeptR z (execSlt n rd ra rb last s) := by
  unfold execSlt
  repeat' (first
    | with_reducible assumption
    | lift_lets -underBinder
    | with_reducible apply done_kept
    | with_reducible apply State.alu2_kept)

theorem execSltu_kept {z : State} (n : Fin 18) (rd ra rb : Fin 32) (last : Bool) (s : State) (h_s : Kept z s) : KeptR z (execSltu n rd ra rb last s) := by
  unfold execSltu
  repeat' (first
    | with_reducible assumption
    | lift_lets -underBinder
    | with_reducible apply done_kept
    | with_reducible apply State.alu2_kept)

theorem execMin_kept {z : State} (n : Fin 18) (rd ra rb : Fin 32) (last : Bool) (s : State) (h_s : Kept z s) : KeptR z (execMin n rd ra rb last s) := by
  unfold execMin
  repeat' (first
    | with_reducible assumption
    | lift_lets -underBinder
    | with_reducible apply done_kept
    | with_reducible apply State.alu2_kept)

theorem execMax_kept {z : State} (n : Fin 18) (rd ra rb : Fin 32) (last : Bool) (s : State) (h_s : Kept z s) : KeptR z (execMax n rd ra rb last s) := by
  unfold execMax
  repeat' (first
    | with_reducible assumption
    | lift_lets -underBinder
    | with_reducible apply done_kept
    | with_reducible apply State.alu2_kept)

theorem execAdds_kept {z : State} (n : Fin 18) (rd ra rb : Fin 32) (last : Bool) (s : State) (h_s : Kept z s) : KeptR z (execAdds n rd ra rb last s) := by
  unfold execAdds
  repeat' (first
    | with_reducible assumption
    | lift_lets -underBinder
    | with_reducible apply done_kept
    | with_reducible apply State.alu2_kept)

theorem execSubs_kept {z : State} (n : Fin 18) (rd ra rb : Fin 32) (last : Bool) (s : State) (h_s : Kept z s) : KeptR z (execSubs n rd ra rb last s) := by
  unfold execSubs
  repeat' (first
    | with_reducible assumption
    | lift_lets -underBinder
    | with_reducible apply done_kept
    | with_reducible apply State.alu2_kept)

theorem execAddi_kept {z : State} (n : Fin 18) (rd ra : Fin 32) (imm : BitVec 16) (last : Bool) (s : State) (h_s : Kept z s) : KeptR z (execAddi n rd ra imm last s) := by
  unfold execAddi
  repeat' (first
    | with_reducible assumption
    | lift_lets -underBinder
    | with_reducible apply done_kept
    | with_reducible apply State.alu1_kept)

theorem execAndi_kept {z : State} (n : Fin 18) (rd ra : Fin 32) (imm : BitVec 16) (last : Bool) (s : State) (h_s : Kept z s) : KeptR z (execAndi n rd ra imm last s) := by
  unfold execAndi
  repeat' (first
    | with_reducible assumption
    | lift_lets -underBinder
    | with_reducible apply done_kept
    | with_reducible apply State.alu1_kept)

theorem execOri_kept {z : State} (n : Fin 18) (rd ra : Fin 32) (imm : BitVec 16) (last : Bool) (s : State) (h_s : Kept z s) : KeptR z (execOri n rd ra imm last s) := by
  unfold execOri
  repeat' (first
    | with_reducible assumption
    | lift_lets -underBinder
    | with_reducible apply done_kept
    | with_reducible apply State.alu1_kept)

theorem execXori_kept {z : State} (n : Fin 18) (rd ra : Fin 32) (imm : BitVec 16) (last : Bool) (s : State) (h_s : Kept z s) : KeptR z (execXori n rd ra imm last s) := by
  unfold execXori
  repeat' (first
    | with_reducible assumption
    | lift_lets -underBinder
    | with_reducible apply done_kept
    | with_reducible apply State.alu1_kept)

theorem execShli_kept {z : State} (n : Fin 18) (rd ra : Fin 32) (imm : BitVec 16) (last : Bool) (s : State) (h_s : Kept z s) : KeptR z (execShli n rd ra imm last s) := by
  unfold execShli
  repeat' (first
    | with_reducible assumption
    | with_reducible apply KeptR.ite
    | lift_lets -underBinder
    | with_reducible apply done_kept
    | with_reducible apply State.illegal_kept
    | with_reducible apply State.alu1_kept)

theorem execShri_kept {z : State} (n : Fin 18) (rd ra : Fin 32) (imm : BitVec 16) (last : Bool) (s : State) (h_s : Kept z s) : KeptR z (execShri n rd ra imm last s) := by
  unfold execShri
  repeat' (first
    | with_reducible assumption
    | with_reducible apply KeptR.ite
    | lift_lets -underBinder
    | with_reducible apply done_kept
    | with_reducible apply State.illegal_kept
    | with_reducible apply State.alu1_kept)

theorem execSari_kept {z : State} (n : Fin 18) (rd ra : Fin 32) (imm : BitVec 16) (last : Bool) (s : State) (h_s : Kept z s) : KeptR z (execSari n rd ra imm last s) := by
  unfold execSari
  repeat' (first
    | with_reducible assumption
    | with_reducible apply KeptR.ite
    | lift_lets -underBinder
    | with_reducible apply done_kept
    | with_reducible apply State.illegal_kept
    | with_reducible apply State.alu1_kept)

theorem execSlti_kept {z : State} (n : Fin 18) (rd ra : Fin 32) (imm : BitVec 16) (last : Bool) (s : State) (h_s : Kept z s) : KeptR z (execSlti n rd ra imm last s) := by
  unfold execSlti
  repeat' (first
    | with_reducible assumption
    | lift_lets -underBinder
    | with_reducible apply done_kept
    | with_reducible apply State.alu1_kept)

theorem execMovi_kept {z : State} (n : Fin 18) (rd : Fin 32) (imm : BitVec 16) (last : Bool) (s : State) (h_s : Kept z s) : KeptR z (execMovi n rd imm last s) := by
  unfold execMovi
  repeat' (first
    | with_reducible assumption
    | lift_lets -underBinder
    | with_reducible apply done_kept
    | with_reducible apply State.alu0_kept)

theorem execLui_kept {z : State} (n : Fin 18) (rd : Fin 32) (imm : BitVec 16) (last : Bool) (s : State) (h_s : Kept z s) : KeptR z (execLui n rd imm last s) := by
  unfold execLui
  repeat' (first
    | with_reducible assumption
    | lift_lets -underBinder
    | with_reducible apply done_kept
    | with_reducible apply State.alu0_kept)

theorem execAbs_kept {z : State} (n : Fin 18) (rd ra : Fin 32) (last : Bool) (s : State) (h_s : Kept z s) : KeptR z (execAbs n rd ra last s) := by
  unfold execAbs
  repeat' (first
    | with_reducible assumption
    | lift_lets -underBinder
    | with_reducible apply done_kept
    | with_reducible apply State.alu1_kept)

theorem execClz_kept {z : State} (n : Fin 18) (rd ra : Fin 32) (last : Bool) (s : State) (h_s : Kept z s) : KeptR z (execClz n rd ra last s) := by
  unfold execClz
  repeat' (first
    | with_reducible assumption
    | lift_lets -underBinder
    | with_reducible apply done_kept
    | with_reducible apply State.alu1_kept)

theorem execPopc_kept {z : State} (n : Fin 18) (rd ra : Fin 32) (last : Bool) (s : State) (h_s : Kept z s) : KeptR z (execPopc n rd ra last s) := by
  unfold execPopc
  repeat' (first
    | with_reducible assumption
    | lift_lets -underBinder
    | with_reducible apply done_kept
    | with_reducible apply State.alu1_kept)

theorem execBswap_kept {z : State} (n : Fin 18) (rd ra : Fin 32) (last : Bool) (s : State) (h_s : Kept z s) : KeptR z (execBswap n rd ra last s) := by
  unfold execBswap
  repeat' (first
    | with_reducible assumption
    | lift_lets -underBinder
    | with_reducible apply done_kept
    | with_reducible apply State.alu1_kept)

theorem execBrev_kept {z : State} (n : Fin 18) (rd ra : Fin 32) (last : Bool) (s : State) (h_s : Kept z s) : KeptR z (execBrev n rd ra last s) := by
  unfold execBrev
  repeat' (first
    | with_reducible assumption
    | lift_lets -underBinder
    | with_reducible apply done_kept
    | with_reducible apply State.alu1_kept)

theorem execExtu_kept {z : State} (n : Fin 18) (rd ra pos wm1 : Fin 32) (last : Bool) (s : State) (h_s : Kept z s) : KeptR z (execExtu n rd ra pos wm1 last s) := by
  unfold execExtu
  repeat' (first
    | with_reducible assumption
    | with_reducible apply KeptR.ite
    | lift_lets -underBinder
    | with_reducible apply done_kept
    | with_reducible apply State.illegal_kept
    | with_reducible apply State.alu1_kept)

theorem execExts_kept {z : State} (n : Fin 18) (rd ra pos wm1 : Fin 32) (last : Bool) (s : State) (h_s : Kept z s) : KeptR z (execExts n rd ra pos wm1 last s) := by
  unfold execExts
  repeat' (first
    | with_reducible assumption
    | with_reducible apply KeptR.ite
    | lift_lets -underBinder
    | with_reducible apply done_kept
    | with_reducible apply State.illegal_kept
    | with_reducible apply State.alu1_kept)

theorem execIns_kept {z : State} (n : Fin 18) (rd ra pos wm1 : Fin 32) (last : Bool) (s : State) (h_s : Kept z s) : KeptR z (execIns n rd ra pos wm1 last s) := by
  unfold execIns
  repeat' (first
    | with_reducible assumption
    | with_reducible apply KeptR.ite
    | lift_lets -underBinder
    | with_reducible apply done_kept
    | with_reducible apply State.illegal_kept
    | with_reducible apply State.alu2_kept)

theorem execCrc_kept {z : State} (n : Fin 18) (rd ra rb : Fin 32) (poly : Fin 8) (size uw : Fin 4) (uref : Bool) (last : Bool) (s : State) (h_s : Kept z s) : KeptR z (execCrc n rd ra rb poly size uw uref last s) := by
  unfold execCrc
  repeat' (first
    | with_reducible assumption
    | with_reducible refine fun t => ?_
    | with_reducible apply KeptR.ite
    | with_reducible apply Kept.ite2
    | lift_lets -underBinder
    | with_reducible apply done_kept
    | with_reducible apply State.illegal_kept
    | with_reducible apply State.issue0_kept
    | with_reducible apply State.readW_kept
    | with_reducible apply State.put_kept
    | (with_reducible refine Kept.ofPair (by assumption) ?_)
    | split)

theorem execMpy_kept {z : State} (n : Fin 18) (acc : Fin 4) (ra rb : Fin 32) (sat : Bool) (rnd : Fin 4) (last : Bool) (s : State) (h_s : Kept z s) : KeptR z (execMpy n acc ra rb sat rnd last s) := by
  unfold execMpy
  repeat' (first
    | with_reducible assumption
    | lift_lets -underBinder
    | with_reducible apply done_kept
    | with_reducible apply State.macClass_kept)

theorem execMac_kept {z : State} (n : Fin 18) (acc : Fin 4) (ra rb : Fin 32) (sat : Bool) (rnd : Fin 4) (last : Bool) (s : State) (h_s : Kept z s) : KeptR z (execMac n acc ra rb sat rnd last s) := by
  unfold execMac
  repeat' (first
    | with_reducible assumption
    | lift_lets -underBinder
    | with_reducible apply done_kept
    | with_reducible apply State.macClass_kept)

theorem execMsu_kept {z : State} (n : Fin 18) (acc : Fin 4) (ra rb : Fin 32) (sat : Bool) (rnd : Fin 4) (last : Bool) (s : State) (h_s : Kept z s) : KeptR z (execMsu n acc ra rb sat rnd last s) := by
  unfold execMsu
  repeat' (first
    | with_reducible assumption
    | lift_lets -underBinder
    | with_reducible apply done_kept
    | with_reducible apply State.macClass_kept)

theorem execMul_kept {z : State} (n : Fin 18) (rd ra rb : Fin 32) (last : Bool) (s : State) (h_s : Kept z s) : KeptR z (execMul n rd ra rb last s) := by
  unfold execMul
  repeat' (first
    | with_reducible assumption
    | lift_lets -underBinder
    | with_reducible apply done_kept
    | with_reducible apply State.alu2_kept)

theorem execExt_kept {z : State} (n : Fin 18) (rd : Fin 32) (acc : Fin 4) (sh : Fin 16) (sat : Bool) (rnd : Fin 4) (last : Bool) (s : State) (h_s : Kept z s) : KeptR z (execExt n rd acc sh sat rnd last s) := by
  unfold execExt
  repeat' (first
    | with_reducible assumption
    | with_reducible refine fun t => ?_
    | with_reducible apply KeptR.ite
    | lift_lets -underBinder
    | with_reducible apply done_kept
    | with_reducible apply State.illegal_kept
    | with_reducible apply State.issue0_kept
    | with_reducible apply State.readAcc_kept
    | with_reducible apply State.put_kept)

theorem execSetacc_kept {z : State} (n : Fin 18) (acc : Fin 4) (ra : Fin 32) (last : Bool) (s : State) (h_s : Kept z s) : KeptR z (execSetacc n acc ra last s) := by
  unfold execSetacc
  repeat' (first
    | with_reducible assumption
    | with_reducible refine fun t => ?_
    | lift_lets -underBinder
    | with_reducible apply done_kept
    | with_reducible apply State.issue0_kept
    | with_reducible apply State.readW_kept
    | with_reducible apply State.putAcc_kept)

theorem execSetg_kept {z : State} (n : Fin 18) (acc : Fin 4) (ra : Fin 32) (last : Bool) (s : State) (h_s : Kept z s) : KeptR z (execSetg n acc ra last s) := by
  unfold execSetg
  repeat' (first
    | with_reducible assumption
    | with_reducible refine fun t => ?_
    | lift_lets -underBinder
    | with_reducible apply done_kept
    | with_reducible apply State.issue0_kept
    | with_reducible apply State.readW_kept
    | with_reducible apply State.readAcc_kept
    | with_reducible apply State.putAcc_kept)

theorem execExtg_kept {z : State} (n : Fin 18) (rd : Fin 32) (acc : Fin 4) (last : Bool) (s : State) (h_s : Kept z s) : KeptR z (execExtg n rd acc last s) := by
  unfold execExtg
  repeat' (first
    | with_reducible assumption
    | with_reducible refine fun t => ?_
    | lift_lets -underBinder
    | with_reducible apply done_kept
    | with_reducible apply State.issue0_kept
    | with_reducible apply State.readAcc_kept
    | with_reducible apply State.put_kept)

theorem execGetf_kept {z : State} (n : Fin 18) (rd : Fin 32) (last : Bool) (s : State) (h_s : Kept z s) : KeptR z (execGetf n rd last s) := by
  unfold execGetf
  repeat' (first
    | with_reducible assumption
    | with_reducible refine fun t => ?_
    | lift_lets -underBinder
    | with_reducible apply done_kept
    | with_reducible apply State.issue0_kept
    | with_reducible apply State.readFlags_kept
    | with_reducible apply State.put_kept)

theorem execClrf_kept {z : State} (n : Fin 18) (imm : BitVec 16) (last : Bool) (s : State) (h_s : Kept z s) : KeptR z (execClrf n imm last s) := by
  unfold execClrf
  repeat' (first
    | with_reducible assumption
    | with_reducible refine fun t => ?_
    | with_reducible apply KeptR.ite
    | lift_lets -underBinder
    | with_reducible apply done_kept
    | with_reducible apply State.illegal_kept
    | with_reducible apply State.issue0_kept
    | with_reducible apply State.onPe_kept)

end Sys2Proof.Machine
end

