-- ==== Sys2Proof/Laws/KeptEngineMem.lean ====
section
/-! SUPPORT. What the operations of Machine/EngineMem.lean keep. -/

namespace Sys2Proof.Machine

theorem State.effAddr_kept {z : State} (s : State) (n : Fin 18) (ra : Fin 32) (imm : BitVec 16) (h_s : Kept z s) : Kept z (State.effAddr s n ra imm).2 := by
  unfold State.effAddr
  repeat' (first
    | with_reducible assumption
    | with_reducible apply State.readW_kept)

theorem State.loadInstr_kept {z : State} (s : State) (n : Fin 18) (kind : LoadKind) (rd ra : Fin 32) (imm : BitVec 16) (ecc : Ecc) (h_s : Kept z s) : Kept z (State.loadInstr s n kind rd ra imm ecc) := by
  unfold State.loadInstr
  repeat' (first
    | with_reducible assumption
    | with_reducible refine fun t => ?_
    | lift_lets -underBinder
    | with_reducible apply State.issue1_kept
    | with_reducible apply State.effAddr_kept
    | with_reducible apply State.loadAt_kept)

theorem State.storeInstr_kept {z : State} (s : State) (n : Fin 18) (size : Nat) (rs ra : Fin 32) (imm : BitVec 16) (h_s : Kept z s) : Kept z (State.storeInstr s n size rs ra imm) := by
  unfold State.storeInstr
  repeat' (first
    | with_reducible assumption
    | with_reducible refine fun t => ?_
    | lift_lets -underBinder
    | with_reducible apply State.issue1_kept
    | with_reducible apply State.effAddr_kept
    | with_reducible apply State.readW_kept
    | with_reducible apply State.storeAt_kept)

theorem execLb_kept {z : State} (n : Fin 18) (rd ra : Fin 32) (imm : BitVec 16) (ecc : Ecc) (s : State) (h_s : Kept z s) : KeptR z (execLb n rd ra imm ecc s) := by
  unfold execLb
  repeat' (first
    | with_reducible assumption
    | lift_lets -underBinder
    | with_reducible apply done_kept
    | with_reducible apply State.loadInstr_kept)

theorem execLbu_kept {z : State} (n : Fin 18) (rd ra : Fin 32) (imm : BitVec 16) (ecc : Ecc) (s : State) (h_s : Kept z s) : KeptR z (execLbu n rd ra imm ecc s) := by
  unfold execLbu
  repeat' (first
    | with_reducible assumption
    | lift_lets -underBinder
    | with_reducible apply done_kept
    | with_reducible apply State.loadInstr_kept)

theorem execLh_kept {z : State} (n : Fin 18) (rd ra : Fin 32) (imm : BitVec 16) (ecc : Ecc) (s : State) (h_s : Kept z s) : KeptR z (execLh n rd ra imm ecc s) := by
  unfold execLh
  repeat' (first
    | with_reducible assumption
    | lift_lets -underBinder
    | with_reducible apply done_kept
    | with_reducible apply State.loadInstr_kept)

theorem execLhu_kept {z : State} (n : Fin 18) (rd ra : Fin 32) (imm : BitVec 16) (ecc : Ecc) (s : State) (h_s : Kept z s) : KeptR z (execLhu n rd ra imm ecc s) := by
  unfold execLhu
  repeat' (first
    | with_reducible assumption
    | lift_lets -underBinder
    | with_reducible apply done_kept
    | with_reducible apply State.loadInstr_kept)

theorem execLw_kept {z : State} (n : Fin 18) (rd ra : Fin 32) (imm : BitVec 16) (ecc : Ecc) (s : State) (h_s : Kept z s) : KeptR z (execLw n rd ra imm ecc s) := by
  unfold execLw
  repeat' (first
    | with_reducible assumption
    | lift_lets -underBinder
    | with_reducible apply done_kept
    | with_reducible apply State.loadInstr_kept)

theorem execLd_kept {z : State} (n : Fin 18) (rd ra : Fin 32) (imm : BitVec 16) (ecc : Ecc) (s : State) (h_s : Kept z s) : KeptR z (execLd n rd ra imm ecc s) := by
  unfold execLd
  repeat' (first
    | with_reducible assumption
    | with_reducible apply Kept.ite
    | lift_lets -underBinder
    | with_reducible apply done_kept
    | with_reducible apply State.illegal_kept
    | with_reducible apply State.loadInstr_kept)

theorem execSb_kept {z : State} (n : Fin 18) (rs ra : Fin 32) (imm : BitVec 16) (s : State) (h_s : Kept z s) : KeptR z (execSb n rs ra imm s) := by
  unfold execSb
  repeat' (first
    | with_reducible assumption
    | lift_lets -underBinder
    | with_reducible apply done_kept
    | with_reducible apply State.storeInstr_kept)

theorem execSh_kept {z : State} (n : Fin 18) (rs ra : Fin 32) (imm : BitVec 16) (s : State) (h_s : Kept z s) : KeptR z (execSh n rs ra imm s) := by
  unfold execSh
  repeat' (first
    | with_reducible assumption
    | lift_lets -underBinder
    | with_reducible apply done_kept
    | with_reducible apply State.storeInstr_kept)

theorem execSw_kept {z : State} (n : Fin 18) (rs ra : Fin 32) (imm : BitVec 16) (s : State) (h_s : Kept z s) : KeptR z (execSw n rs ra imm s) := by
  unfold execSw
  repeat' (first
    | with_reducible assumption
    | lift_lets -underBinder
    | with_reducible apply done_kept
    | with_reducible apply State.storeInstr_kept)

theorem execSd_kept {z : State} (n : Fin 18) (rs ra : Fin 32) (imm : BitVec 16) (s : State) (h_s : Kept z s) : KeptR z (execSd n rs ra imm s) := by
  unfold execSd
  repeat' (first
    | with_reducible assumption
    | with_reducible refine fun t => ?_
    | with_reducible apply Kept.ite
    | lift_lets -underBinder
    | with_reducible apply done_kept
    | with_reducible apply State.illegal_kept
    | with_reducible apply State.issue1_kept
    | with_reducible apply State.effAddr_kept
    | with_reducible apply State.readW_kept
    | with_reducible apply State.storeAt_kept)

theorem execFarLoadReturn_kept {z : State} (n : Fin 18) (ecc : Ecc) (s : State) (h_s : Kept z s) : KeptR z (execFarLoadReturn n ecc s) := by
  unfold execFarLoadReturn
  repeat' (first
    | with_reducible assumption
    | with_reducible apply KeptR.ite
    | with_reducible apply Kept.next
    | lift_lets -underBinder
    | with_reducible apply State.farLoad_kept
    | with_reducible apply done_kept
    | with_reducible apply State.putLoad_kept
    | with_reducible apply State.endStall_kept
    | (with_reducible refine Kept.ofPair (by assumption) ?_)
    | split)

theorem execFarStoreAccepted_kept {z : State} (n : Fin 18) (ecc : Ecc) (s : State) (h_s : Kept z s) : KeptR z (execFarStoreAccepted n ecc s) := by
  unfold execFarStoreAccepted
  repeat' (first
    | with_reducible assumption
    | with_reducible apply Kept.next
    | lift_lets -underBinder
    | with_reducible apply State.farStore_kept
    | with_reducible apply done_kept
    | with_reducible apply State.wbufPop_kept
    | (with_reducible refine Kept.ofPair (by assumption) ?_)
    | split)

theorem execFarTimeout_kept {z : State} (n : Fin 18) (s : State) (h_s : Kept z s) : KeptR z (execFarTimeout n s) := by
  unfold execFarTimeout
  repeat' (first
    | with_reducible assumption
    | with_reducible apply Kept.next
    | lift_lets -underBinder
    | with_reducible apply done_kept
    | with_reducible apply State.raiseAcc_kept
    | with_reducible apply State.wbufPop_kept
    | with_reducible apply State.putLoad_kept
    | with_reducible apply State.endStall_kept
    | split)

end Sys2Proof.Machine
end

