-- ==== Sys2Proof/Laws/KeptEngineCtl.lean ====
section
/-! SUPPORT. What the operations of Machine/EngineCtl.lean keep. -/

namespace Sys2Proof.Machine

theorem State.branch_kept {z : State} (s : State) (n : Fin 18) (ra rb : Fin 32) (imm : BitVec 16) (cond : Word → Word → Bool) (h_s : Kept z s) : Kept z (State.branch s n ra rb imm cond) := by
  unfold State.branch
  repeat' (first
    | with_reducible assumption
    | with_reducible refine fun t => ?_
    | lift_lets -underBinder
    | with_reducible apply State.issue1_kept
    | with_reducible apply State.readW_kept
    | with_reducible apply State.onPe_kept)

theorem execBeq_kept {z : State} (n : Fin 18) (ra rb : Fin 32) (imm : BitVec 16) (s : State) (h_s : Kept z s) : KeptR z (execBeq n ra rb imm s) := by
  unfold execBeq
  repeat' (first
    | with_reducible assumption
    | lift_lets -underBinder
    | with_reducible apply done_kept
    | with_reducible apply State.branch_kept)

theorem execBne_kept {z : State} (n : Fin 18) (ra rb : Fin 32) (imm : BitVec 16) (s : State) (h_s : Kept z s) : KeptR z (execBne n ra rb imm s) := by
  unfold execBne
  repeat' (first
    | with_reducible assumption
    | lift_lets -underBinder
    | with_reducible apply done_kept
    | with_reducible apply State.branch_kept)

theorem execBlt_kept {z : State} (n : Fin 18) (ra rb : Fin 32) (imm : BitVec 16) (s : State) (h_s : Kept z s) : KeptR z (execBlt n ra rb imm s) := by
  unfold execBlt
  repeat' (first
    | with_reducible assumption
    | lift_lets -underBinder
    | with_reducible apply done_kept
    | with_reducible apply State.branch_kept)

theorem execBge_kept {z : State} (n : Fin 18) (ra rb : Fin 32) (imm : BitVec 16) (s : State) (h_s : Kept z s) : KeptR z (execBge n ra rb imm s) := by
  unfold execBge
  repeat' (first
    | with_reducible assumption
    | lift_lets -underBinder
    | with_reducible apply done_kept
    | with_reducible apply State.branch_kept)

theorem execBltu_kept {z : State} (n : Fin 18) (ra rb : Fin 32) (imm : BitVec 16) (s : State) (h_s : Kept z s) : KeptR z (execBltu n ra rb imm s) := by
  unfold execBltu
  repeat' (first
    | with_reducible assumption
    | lift_lets -underBinder
    | with_reducible apply done_kept
    | with_reducible apply State.branch_kept)

theorem execBgeu_kept {z : State} (n : Fin 18) (ra rb : Fin 32) (imm : BitVec 16) (s : State) (h_s : Kept z s) : KeptR z (execBgeu n ra rb imm s) := by
  unfold execBgeu
  repeat' (first
    | with_reducible assumption
    | lift_lets -underBinder
    | with_reducible apply done_kept
    | with_reducible apply State.branch_kept)

theorem execJ_kept {z : State} (n : Fin 18) (idx : BitVec 14) (s : State) (h_s : Kept z s) : KeptR z (execJ n idx s) := by
  unfold execJ
  repeat' (first
    | with_reducible assumption
    | with_reducible refine fun t => ?_
    | lift_lets -underBinder
    | with_reducible apply done_kept
    | with_reducible apply State.issue1_kept
    | with_reducible apply State.onPe_kept)

theorem execJr_kept {z : State} (n : Fin 18) (ra : Fin 32) (s : State) (h_s : Kept z s) : KeptR z (execJr n ra s) := by
  unfold execJr
  repeat' (first
    | with_reducible assumption
    | with_reducible refine fun t => ?_
    | lift_lets -underBinder
    | with_reducible apply done_kept
    | with_reducible apply State.issue1_kept
    | with_reducible apply State.readW_kept
    | with_reducible apply State.onPe_kept)

theorem State.stackStore_kept {z : State} (s : State) (n : Fin 18) (a : Nat) (bs : List Byte) (h_s : Kept z s) : Kept z (State.stackStore s n a bs) := by
  unfold State.stackStore
  repeat' (first
    | with_reducible assumption
    | with_reducible apply Kept.ite
    | lift_lets -underBinder
    | with_reducible apply State.raiseAcc_kept
    | with_reducible apply State.dmemStore_kept
    | split)

theorem State.stackLoad_kept {z : State} (s : State) (n : Fin 18) (a : Nat) (ecc : Ecc) (h_s : Kept z s) : Kept z (State.stackLoad s n a ecc).2 := by
  unfold State.stackLoad
  repeat' (first
    | with_reducible assumption
    | with_reducible apply Kept.ite2
    | lift_lets -underBinder
    | with_reducible apply State.raiseAcc_kept
    | with_reducible apply State.dmemLoad_kept
    | split)

theorem State.setSp_kept {z : State} (s : State) (n : Fin 18) (v : Word) (h_s : Kept z s) : Kept z (State.setSp s n v) := by
  unfold State.setSp
  repeat' (first
    | with_reducible assumption
    | with_reducible apply State.onPe_kept)

theorem State.push_kept {z : State} (s : State) (n : Fin 18) (bs : List Byte) (h_s : Kept z s) : Kept z (State.push s n bs).2 := by
  unfold State.push
  repeat' (first
    | with_reducible assumption
    | with_reducible apply Kept.ite2
    | lift_lets -underBinder
    | with_reducible apply State.readW_kept
    | with_reducible apply State.raisePe_kept
    | with_reducible apply State.stackStore_kept
    | with_reducible apply State.setSp_kept)

theorem State.pop_kept {z : State} (s : State) (n : Fin 18) (h_s : Kept z s) : Kept z (State.pop s n).2 := by
  unfold State.pop
  repeat' (first
    | with_reducible assumption
    | with_reducible apply Kept.ite2
    | lift_lets -underBinder
    | with_reducible apply State.readW_kept
    | with_reducible apply State.raisePe_kept
    | with_reducible apply State.stackLoad_kept
    | with_reducible apply State.setSp_kept)

theorem State.call_kept {z : State} (s : State) (n : Fin 18) (target : State → BitVec 14 × State) (h_s : Kept z s) (h_target : ∀ x0, Kept z x0 → Kept z (target x0).2) : Kept z (State.call s n target).1 := by
  unfold State.call
  repeat' (first
    | with_reducible assumption
    | (intro x; subst x)
    | with_reducible apply Kept.ite1
    | lift_lets -underBinder
    | with_reducible apply State.push_kept
    | with_reducible apply State.onPe_kept
    | (with_reducible refine Kept.ofPair (by assumption) ?_)
    | apply h_target
    | split)

theorem execCall_kept {z : State} (n : Fin 18) (idx : BitVec 14) (s : State) (h_s : Kept z s) : KeptR z (execCall n idx s) := by
  unfold execCall
  repeat' (first
    | with_reducible assumption
    | with_reducible refine fun t => ?_
    | lift_lets -underBinder
    | with_reducible apply done_kept
    | with_reducible apply State.issue1_kept
    | with_reducible apply State.call_kept)

theorem execCallr_kept {z : State} (n : Fin 18) (ra : Fin 32) (s : State) (h_s : Kept z s) : KeptR z (execCallr n ra s) := by
  unfold execCallr
  repeat' (first
    | with_reducible assumption
    | with_reducible refine fun t => ?_
    | lift_lets -underBinder
    | with_reducible apply done_kept
    | with_reducible apply State.issue1_kept
    | with_reducible apply State.call_kept
    | with_reducible apply State.readW_kept)

theorem execRet_kept {z : State} (n : Fin 18) (s : State) (h_s : Kept z s) : KeptR z (execRet n s) := by
  unfold execRet
  repeat' (first
    | with_reducible assumption
    | with_reducible refine fun t => ?_
    | with_reducible apply Kept.ite1
    | lift_lets -underBinder
    | with_reducible apply done_kept
    | with_reducible apply State.issue1_kept
    | with_reducible apply State.pop_kept
    | with_reducible apply State.onPe_kept
    | (with_reducible refine Kept.ofPair (by assumption) ?_)
    | split)

theorem execPush_kept {z : State} (n : Fin 18) (rn : Fin 32) (s : State) (h_s : Kept z s) : KeptR z (execPush n rn s) := by
  unfold execPush
  repeat' (first
    | with_reducible assumption
    | with_reducible refine fun t => ?_
    | with_reducible apply Kept.ite
    | lift_lets -underBinder
    | with_reducible apply done_kept
    | with_reducible apply State.illegal_kept
    | with_reducible apply State.issue1_kept
    | with_reducible apply State.readW_kept
    | with_reducible apply State.push_kept)

theorem execPop_kept {z : State} (n : Fin 18) (rn : Fin 32) (s : State) (h_s : Kept z s) : KeptR z (execPop n rn s) := by
  unfold execPop
  repeat' (first
    | with_reducible assumption
    | with_reducible refine fun t => ?_
    | with_reducible apply Kept.ite
    | lift_lets -underBinder
    | with_reducible apply done_kept
    | with_reducible apply State.illegal_kept
    | with_reducible apply State.issue1_kept
    | with_reducible apply State.pop_kept
    | with_reducible apply State.putLoad_kept
    | (with_reducible refine Kept.ofPair (by assumption) ?_)
    | split)

theorem execWait_kept {z : State} (n : Fin 18) (s : State) (h_s : Kept z s) : KeptR z (execWait n s) := by
  unfold execWait
  repeat' (first
    | with_reducible assumption
    | with_reducible refine fun t => ?_
    | with_reducible apply Kept.ite
    | lift_lets -underBinder
    | with_reducible apply done_kept
    | with_reducible apply State.issue1_kept
    | with_reducible apply State.onPe_kept)

theorem execFence_kept {z : State} (n : Fin 18) (s : State) (h_s : Kept z s) : KeptR z (execFence n s) := by
  unfold execFence
  repeat' (first
    | with_reducible assumption
    | with_reducible refine fun t => ?_
    | with_reducible apply Kept.ite1
    | lift_lets -underBinder
    | with_reducible apply done_kept
    | with_reducible apply State.issue1_kept
    | with_reducible apply State.stallOn_kept)

theorem execBrk_kept {z : State} (n : Fin 18) (s : State) (h_s : Kept z s) : KeptR z (execBrk n s) := by
  unfold execBrk
  repeat' (first
    | with_reducible assumption
    | with_reducible refine fun t => ?_
    | lift_lets -underBinder
    | with_reducible apply done_kept
    | with_reducible apply State.issue1_kept
    | with_reducible apply State.onPe_kept)

theorem execIllegalBundle_kept {z : State} (n : Fin 18) (s : State) (h_s : Kept z s) : KeptR z (execIllegalBundle n s) := by
  unfold execIllegalBundle
  repeat' (first
    | with_reducible assumption
    | lift_lets -underBinder
    | with_reducible apply done_kept
    | with_reducible apply State.illegal_kept)

theorem execBreakpointHit_kept {z : State} (n : Fin 18) (s : State) (h_s : Kept z s) : KeptR z (execBreakpointHit n s) := by
  unfold execBreakpointHit
  repeat' (first
    | with_reducible assumption
    | with_reducible apply Kept.ite
    | lift_lets -underBinder
    | with_reducible apply done_kept
    | with_reducible apply State.onPe_kept)

end Sys2Proof.Machine
end

