-- ==== Sys2Proof/Laws/KeptEngine.lean ====
section
/-! SUPPORT. What the operations of Machine/Engine.lean keep. -/

namespace Sys2Proof.Machine

theorem onEng_kept {z : State} (s : State) (n : Fin 18) (f : State → State) (h_s : Kept z s) (h_f : ∀ t, Kept z t → Kept z (f t)) : KeptR z (onEng s n f) := by
  unfold onEng
  repeat' (first
    | with_reducible assumption
    | with_reducible apply KeptR.ite
    | with_reducible apply Kept.next
    | lift_lets -underBinder
    | with_reducible apply done_kept
    | apply h_f)

theorem engRead_kept {z : State} (s : State) (n : Fin 18) (r : Region) (h_s : Kept z s) : KeptR z (engRead s n r) := by
  unfold engRead
  repeat' (first
    | with_reducible assumption
    | with_reducible refine fun t => ?_
    | lift_lets -underBinder
    | with_reducible apply onEng_kept
    | with_reducible apply State.nearRead_kept
    | fail_if_no_progress (with_reducible refine Kept.upd ?_ rfl rfl rfl rfl rfl rfl rfl rfl rfl rfl rfl rfl rfl rfl rfl rfl rfl rfl rfl rfl rfl rfl rfl rfl rfl))

theorem engWrite_kept {z : State} (s : State) (n : Fin 18) (r : Region) (v : Nat) (h_s : Kept z s) : KeptR z (engWrite s n r v) := by
  unfold engWrite
  repeat' (first
    | with_reducible assumption
    | with_reducible refine fun t => ?_
    | with_reducible apply onEng_kept
    | with_reducible apply State.nearWrite_kept)

theorem State.endNearLoad_kept {z : State} (s : State) (n : Fin 18) (kind : LoadKind) (rd : Fin 32) (v : Nat) (h_s : Kept z s) : Kept z (State.endNearLoad s n kind rd v) := by
  unfold State.endNearLoad
  repeat' (first
    | with_reducible assumption
    | lift_lets -underBinder
    | with_reducible apply State.putLoad_kept
    | with_reducible apply State.endStall_kept)

theorem execFauFetchAheadDone_kept {z : State} (n : Fin 18) (q : Fin 8) (s : State) (h_s : Kept z s) : KeptR z (execFauFetchAheadDone n q s) := by
  unfold execFauFetchAheadDone
  repeat' (first
    | with_reducible assumption
    | (intro x; refine KeptR.cut (a := x) ?_ (fun _ => ?_) <;> [subst x; clear_value x])
    | (intro x; subst x)
    | with_reducible apply KeptR.ite
    | with_reducible apply Kept.next
    | lift_lets -underBinder
    | with_reducible apply State.onFau_kept
    | with_reducible apply done_kept
    | with_reducible apply State.endNearLoad_kept
    | split)

theorem execFauRxPop_kept {z : State} (n : Fin 18) (s : State) (h_s : Kept z s) : KeptR z (execFauRxPop n s) := by
  unfold execFauRxPop
  repeat' (first
    | with_reducible assumption
    | with_reducible apply engRead_kept)

theorem execFauRxDoneFree_kept {z : State} (n : Fin 18) (s : State) (h_s : Kept z s) : KeptR z (execFauRxDoneFree n s) := by
  unfold execFauRxDoneFree
  repeat' (first
    | with_reducible assumption
    | with_reducible apply engWrite_kept)

theorem execFauRxDoneForward_kept {z : State} (n : Fin 18) (ports : BitVec 16) (queue : Fin 8) (oneStep : Bool) (s : State) (h_s : Kept z s) : KeptR z (execFauRxDoneForward n ports queue oneStep s) := by
  unfold execFauRxDoneForward
  repeat' (first
    | with_reducible assumption
    | with_reducible apply engWrite_kept)

theorem execFauTxAlloc_kept {z : State} (n : Fin 18) (value : Word) (s : State) (h_s : Kept z s) : KeptR z (execFauTxAlloc n value s) := by
  unfold execFauTxAlloc
  repeat' (first
    | with_reducible assumption
    | with_reducible apply engWrite_kept)

theorem execFauTxBaseWrite_kept {z : State} (n : Fin 18) (value : Word) (s : State) (h_s : Kept z s) : KeptR z (execFauTxBaseWrite n value s) := by
  unfold execFauTxBaseWrite
  repeat' (first
    | with_reducible assumption
    | with_reducible apply engWrite_kept)

theorem execFauTxSendPorts_kept {z : State} (n : Fin 18) (ports : BitVec 16) (queue : Fin 8) (oneStep : Bool) (s : State) (h_s : Kept z s) : KeptR z (execFauTxSendPorts n ports queue oneStep s) := by
  unfold execFauTxSendPorts
  repeat' (first
    | with_reducible assumption
    | with_reducible apply engWrite_kept)

theorem execFauTxSendHost_kept {z : State} (n : Fin 18) (ring : Fin 512) (s : State) (h_s : Kept z s) : KeptR z (execFauTxSendHost n ring s) := by
  unfold execFauTxSendHost
  repeat' (first
    | with_reducible assumption
    | with_reducible apply engWrite_kept)

theorem execFauTxAbandon_kept {z : State} (n : Fin 18) (s : State) (h_s : Kept z s) : KeptR z (execFauTxAbandon n s) := by
  unfold execFauTxAbandon
  repeat' (first
    | with_reducible assumption
    | with_reducible apply engWrite_kept)

theorem execEtmSnapReq_kept {z : State} (n : Fin 18) (s : State) (h_s : Kept z s) : KeptR z (execEtmSnapReq n s) := by
  unfold execEtmSnapReq
  repeat' (first
    | with_reducible assumption
    | with_reducible apply engWrite_kept)

theorem State.endSnapLoad_kept {z : State} (s : State) (n : Fin 18) (g : Region × Nat) (kind : LoadKind) (rd : Fin 32) (h_s : Kept z s) : Kept z (State.endSnapLoad s n g kind rd) := by
  unfold State.endSnapLoad
  repeat' (first
    | with_reducible assumption
    | (intro x; subst x)
    | lift_lets -underBinder
    | with_reducible apply State.nearRead_kept
    | with_reducible apply State.endNearLoad_kept)

theorem execSnapshotArrived_kept {z : State} (n : Fin 18) (s : State) (h_s : Kept z s) : KeptR z (execSnapshotArrived n s) := by
  unfold execSnapshotArrived
  repeat' (first
    | with_reducible assumption
    | (intro x; refine KeptR.cut (a := x) ?_ (fun _ => ?_) <;> [subst x; clear_value x])
    | with_reducible apply KeptR.ite
    | with_reducible apply Kept.next
    | lift_lets -underBinder
    | with_reducible apply State.onPe_kept
    | with_reducible apply done_kept
    | with_reducible apply State.endSnapLoad_kept
    | split)

theorem execEtmTimerEnable_kept {z : State} (n : Fin 18) (t : Fin 4) (absolute periodic : Bool) (s : State) (h_s : Kept z s) : KeptR z (execEtmTimerEnable n t absolute periodic s) := by
  unfold execEtmTimerEnable
  repeat' (first
    | with_reducible assumption
    | with_reducible apply engWrite_kept)

theorem execEtmTimerFire_kept {z : State} (n : Fin 18) (t : Fin 4) (s : State) (h_s : Kept z s) : KeptR z (execEtmTimerFire n t s) := by
  unfold execEtmTimerFire
  repeat' (first
    | with_reducible assumption
    | with_reducible apply KeptR.ite
    | with_reducible apply Kept.next
    | lift_lets -underBinder
    | with_reducible apply State.onPe_kept)

theorem execEngineEventWake_kept {z : State} (n : Fin 18) (s : State) (h_s : Kept z s) : KeptR z (execEngineEventWake n s) := by
  unfold execEngineEventWake
  repeat' (first
    | with_reducible assumption
    | with_reducible apply KeptR.ite
    | with_reducible apply Kept.next
    | lift_lets -underBinder
    | with_reducible apply State.onPe_kept)

theorem execEcsBoundary_kept {z : State} (n : Fin 18) (s : State) (h_s : Kept z s) : KeptR z (execEcsBoundary n s) := by
  unfold execEcsBoundary
  repeat' (first
    | with_reducible assumption
    | with_reducible refine fun t => ?_
    | (intro x; refine Kept.cut (a := x) ?_ (fun _ => ?_) <;> [subst x; clear_value x])
    | lift_lets -underBinder
    | with_reducible apply onEng_kept
    | with_reducible apply State.nearWrite_kept
    | with_reducible apply State.onPe_kept)

theorem execEcsWdogKick_kept {z : State} (n : Fin 18) (s : State) (h_s : Kept z s) : KeptR z (execEcsWdogKick n s) := by
  unfold execEcsWdogKick
  repeat' (first
    | with_reducible assumption
    | with_reducible apply engWrite_kept)

theorem execEngineWatchdogExpiry_kept {z : State} (n : Fin 18) (s : State) (h_s : Kept z s) : KeptR z (execEngineWatchdogExpiry n s) := by
  unfold execEngineWatchdogExpiry
  repeat' (first
    | with_reducible assumption
    | with_reducible apply KeptR.ite
    | with_reducible apply Kept.next
    | lift_lets -underBinder
    | with_reducible apply done_kept
    | with_reducible apply State.raisePe_kept)

theorem execEtmTxtsPop_kept {z : State} (n : Fin 18) (s : State) (h_s : Kept z s) : KeptR z (execEtmTxtsPop n s) := by
  unfold execEtmTxtsPop
  repeat' (first
    | with_reducible assumption
    | with_reducible apply engRead_kept)

theorem execPeStart_kept {z : State} (port : Fin 2) (n : Fin 18) (s : State) (h_s : Kept z s) : KeptR z (execPeStart port n s) := by
  unfold execPeStart
  repeat' (first
    | with_reducible assumption
    | lift_lets -underBinder
    | with_reducible apply onMw0_kept
    | with_reducible apply done_kept
    | with_reducible apply State.peCtrlWrite_kept)

theorem execPeStop_kept {z : State} (port : Fin 2) (n : Fin 18) (s : State) (h_s : Kept z s) : KeptR z (execPeStop port n s) := by
  unfold execPeStop
  repeat' (first
    | with_reducible assumption
    | lift_lets -underBinder
    | with_reducible apply onMw0_kept
    | with_reducible apply done_kept
    | with_reducible apply State.peCtrlWrite_kept)

theorem execPeHalt_kept {z : State} (port : Fin 2) (n : Fin 18) (s : State) (h_s : Kept z s) : KeptR z (execPeHalt port n s) := by
  unfold execPeHalt
  repeat' (first
    | with_reducible assumption
    | lift_lets -underBinder
    | with_reducible apply onMw0_kept
    | with_reducible apply done_kept
    | with_reducible apply State.peCtrlWrite_kept)

theorem execPeReset_kept {z : State} (port : Fin 2) (n : Fin 18) (s : State) (h_s : Kept z s) : KeptR z (execPeReset port n s) := by
  unfold execPeReset
  repeat' (first
    | with_reducible assumption
    | lift_lets -underBinder
    | with_reducible apply onMw0_kept
    | with_reducible apply done_kept
    | with_reducible apply State.peCtrlWrite_kept)

theorem execEngineResetDone_kept {z : State} (n : Fin 18) (s : State) (h_s : Kept z s) : KeptR z (execEngineResetDone n s) := by
  unfold execEngineResetDone
  repeat' (first
    | with_reducible assumption
    | with_reducible apply KeptR.ite
    | with_reducible apply Kept.next
    | lift_lets -underBinder
    | with_reducible apply done_kept
    | with_reducible apply State.peResetDone_kept)

theorem State.dbgRead_kept {z : State} (s : State) (n : Fin 18) (h_s : Kept z s) : Kept z (State.dbgRead s n).2 := by
  unfold State.dbgRead
  repeat' (first
    | with_reducible assumption
    | (intro x; subst x)
    | with_reducible apply Kept.ite2
    | lift_lets -underBinder
    | with_reducible apply State.draw_kept
    | split)

theorem State.dbgWrite_kept {z : State} (s : State) (n : Fin 18) (v : Word) (h_s : Kept z s) : Kept z (State.dbgWrite s n v) := by
  unfold State.dbgWrite
  repeat' (first
    | with_reducible assumption
    | (intro x; subst x)
    | lift_lets -underBinder
    | with_reducible apply State.onPe_kept)

theorem execPeDbgDataAccess_kept {z : State} (port : Fin 2) (n : Fin 18) (write : Option Word) (s : State) (h_s : Kept z s) : KeptR z (execPeDbgDataAccess port n write s) := by
  unfold execPeDbgDataAccess
  repeat' (first
    | with_reducible assumption
    | (intro x; subst x)
    | with_reducible apply Kept.ite
    | with_reducible apply Kept.next
    | with_reducible apply Kept.ite2
    | lift_lets -underBinder
    | with_reducible apply onMw0_kept
    | with_reducible apply State.dbgWrite_kept
    | with_reducible apply State.dbgRead_kept
    | with_reducible apply State.draw_kept
    | fail_if_no_progress (with_reducible refine Kept.upd ?_ rfl rfl rfl rfl rfl rfl rfl rfl rfl rfl rfl rfl rfl rfl rfl rfl rfl rfl rfl rfl rfl rfl rfl rfl rfl)
    | split)

theorem State.scrubImem_kept {z : State} (s : State) (n : Fin 18) (w : Nat) (ecc : Ecc) (h_s : Kept z s) : Kept z (State.scrubImem s n w ecc) := by
  unfold State.scrubImem
  repeat' (first
    | with_reducible assumption
    | with_reducible apply Kept.ite
    | lift_lets -underBinder
    | with_reducible apply State.onPe_kept
    | with_reducible apply State.raiseFor_kept
    | with_reducible apply State.bump_kept)

theorem State.scrubDmem_kept {z : State} (s : State) (n : Fin 18) (w : Nat) (ecc : Ecc) (h_s : Kept z s) : Kept z (State.scrubDmem s n w ecc) := by
  unfold State.scrubDmem
  repeat' (first
    | with_reducible assumption
    | with_reducible apply Kept.ite
    | lift_lets -underBinder
    | with_reducible apply State.onPe_kept
    | with_reducible apply State.raisePe_kept
    | with_reducible apply State.bump_kept)

theorem execEngineScrubStep_kept {z : State} (n : Fin 18) (imem dmem : Ecc) (s : State) (h_s : Kept z s) : KeptR z (execEngineScrubStep n imem dmem s) := by
  unfold execEngineScrubStep
  repeat' (first
    | with_reducible assumption
    | (intro x; subst x)
    | lift_lets -underBinder
    | with_reducible apply done_kept
    | with_reducible apply State.onPe_kept
    | with_reducible apply State.scrubImem_kept
    | with_reducible apply State.scrubDmem_kept)

end Sys2Proof.Machine
end

