-- ==== Sys2Proof/Laws/KeptEngineStep.lean ====
section
/-! SUPPORT. What the operations of Machine/EngineStep.lean keep. -/

namespace Sys2Proof.Machine



theorem slot0_kept {z : State} (n : Fin 18) (w : Word) : KeptO z (slot0 n w) := by
  unfold slot0
  extract_lets
  repeat' (first
    | with_reducible exact KeptO.none
    | with_reducible refine KeptO.some (fun t h => ?_)
    | with_reducible refine KeptO.defined (fun t h => ?_)
    | split)
  all_goals with_reducible first
    | exact execNop_kept _ _ _ h
    | exact execAdd_kept _ _ _ _ _ _ h
    | exact execSub_kept _ _ _ _ _ _ h
    | exact execAnd_kept _ _ _ _ _ _ h
    | exact execOr_kept _ _ _ _ _ _ h
    | exact execXor_kept _ _ _ _ _ _ h
    | exact execShl_kept _ _ _ _ _ _ h
    | exact execShr_kept _ _ _ _ _ _ h
    | exact execSar_kept _ _ _ _ _ _ h
    | exact execSlt_kept _ _ _ _ _ _ h
    | exact execSltu_kept _ _ _ _ _ _ h
    | exact execMin_kept _ _ _ _ _ _ h
    | exact execMax_kept _ _ _ _ _ _ h
    | exact execAdds_kept _ _ _ _ _ _ h
    | exact execSubs_kept _ _ _ _ _ _ h
    | exact execAddi_kept _ _ _ _ _ _ h
    | exact execAndi_kept _ _ _ _ _ _ h
    | exact execOri_kept _ _ _ _ _ _ h
    | exact execXori_kept _ _ _ _ _ _ h
    | exact execSlti_kept _ _ _ _ _ _ h
    | exact execShli_kept _ _ _ _ _ _ h
    | exact execShri_kept _ _ _ _ _ _ h
    | exact execSari_kept _ _ _ _ _ _ h
    | exact execMovi_kept _ _ _ _ _ h
    | exact execLui_kept _ _ _ _ _ h
    | exact execAbs_kept _ _ _ _ _ h
    | exact execClz_kept _ _ _ _ _ h
    | exact execPopc_kept _ _ _ _ _ h
    | exact execBswap_kept _ _ _ _ _ h
    | exact execBrev_kept _ _ _ _ _ h
    | exact execExtu_kept _ _ _ _ _ _ _ h
    | exact execExt_kept _ _ _ _ _ _ _ _ h
    | exact execExts_kept _ _ _ _ _ _ _ h
    | exact execIns_kept _ _ _ _ _ _ _ h
    | exact execCrc_kept _ _ _ _ _ _ _ _ _ _ h
    | exact execMpy_kept _ _ _ _ _ _ _ _ h
    | exact execMac_kept _ _ _ _ _ _ _ _ h
    | exact execMsu_kept _ _ _ _ _ _ _ _ h
    | exact execMul_kept _ _ _ _ _ _ h
    | exact execSetacc_kept _ _ _ _ _ h
    | exact execSetg_kept _ _ _ _ _ h
    | exact execExtg_kept _ _ _ _ _ h
    | exact execGetf_kept _ _ _ _ h
    | exact execClrf_kept _ _ _ _ h

theorem slot1_kept {z : State} (n : Fin 18) (w : Word) : KeptO z (slot1 n w) := by
  unfold slot1
  extract_lets
  repeat' (first
    | with_reducible exact KeptO.none
    | with_reducible refine KeptO.some (fun t h => ?_)
    | with_reducible refine KeptO.defined (fun t h => ?_)
    | split)
  all_goals with_reducible first
    | exact execNop_kept _ _ _ h
    | exact execLb_kept _ _ _ _ _ _ h
    | exact execLbu_kept _ _ _ _ _ _ h
    | exact execLh_kept _ _ _ _ _ _ h
    | exact execLhu_kept _ _ _ _ _ _ h
    | exact execLw_kept _ _ _ _ _ _ h
    | exact execLd_kept _ _ _ _ _ _ h
    | exact execSb_kept _ _ _ _ _ h
    | exact execSh_kept _ _ _ _ _ h
    | exact execSw_kept _ _ _ _ _ h
    | exact execSd_kept _ _ _ _ _ h
    | exact execBeq_kept _ _ _ _ _ h
    | exact execBne_kept _ _ _ _ _ h
    | exact execBlt_kept _ _ _ _ _ h
    | exact execBge_kept _ _ _ _ _ h
    | exact execBltu_kept _ _ _ _ _ h
    | exact execBgeu_kept _ _ _ _ _ h
    | exact execJ_kept _ _ _ h
    | exact execCall_kept _ _ _ h
    | exact execJr_kept _ _ _ h
    | exact execCallr_kept _ _ _ h
    | exact execRet_kept _ _ h
    | exact execPush_kept _ _ _ h
    | exact execPop_kept _ _ _ h
    | exact execWait_kept _ _ h
    | exact execFence_kept _ _ h
    | exact execBrk_kept _ _ h

theorem stateOf_kept {z : State} (s : State) (r : Res) (h : KeptR z r) : Kept z (stateOf s r) := by
  obtain ⟨t, rfl, k⟩ := h
  exact k

theorem State.runBundle_kept {z : State} (s : State) (n : Fin 18) (h_s : Kept z s) : Kept z (s.runBundle n) := by
  unfold State.runBundle
  have h0 := slot0_kept (z := z) n (BitVec.ofNat 32 (s.bundleAt n / 2 ^ 32))
  have h1 := slot1_kept (z := z) n (BitVec.ofNat 32 (s.bundleAt n % 2 ^ 32))
  generalize s.bundleAt n = b at h0 h1 ⊢
  dsimp only
  generalize slot0 n (BitVec.ofNat 32 (b / 2 ^ 32)) = o0 at h0 ⊢
  generalize slot1 n (BitVec.ofNat 32 (b % 2 ^ 32)) = o1 at h1 ⊢
  have k := stateOf_kept s _ (execIllegalBundle_kept n s h_s)
  cases o0 with
  | none => exact k
  | some f =>
    cases o1 with
    | none => exact k
    | some g =>
      have k0 := stateOf_kept s _ (h0 f rfl s h_s)
      exact stateOf_kept _ _ (h1 g rfl _ k0)

theorem State.peStep_kept {z : State} (s : State) (n : Fin 18) (h_s : Kept z s) : Kept z (State.peStep s n) := by
  unfold State.peStep
  repeat' (first
    | with_reducible assumption
    | with_reducible apply Kept.ite
    | lift_lets -underBinder
    | with_reducible apply State.wr_kept
    | with_reducible apply State.onPe_kept
    | with_reducible apply State.runBundle_kept
    | with_reducible apply State.setReg_kept)

theorem execPeStep_kept {z : State} (port : Fin 2) (n : Fin 18) (s : State) (h_s : Kept z s) : KeptR z (execPeStep port n s) := by
  unfold execPeStep
  repeat' (first
    | with_reducible assumption
    | lift_lets -underBinder
    | with_reducible apply onMw0_kept
    | with_reducible apply done_kept
    | with_reducible apply State.peStep_kept)

end Sys2Proof.Machine
end

