-- ==== Sys2Proof/Laws/KeptMbx.lean ====
section
/-! SUPPORT. What the operations of Machine/Mbx.lean keep. -/

namespace Sys2Proof.Machine

theorem onWin_kept {z : State} (s : State) (ep : Fin 19) (off : Nat) (body : Res) (h_s : Kept z s) (h_body : KeptR z body) : KeptR z (onWin s ep off body) := by
  unfold onWin
  repeat' (first
    | with_reducible assumption
    | with_reducible apply KeptR.ite
    | with_reducible apply Kept.next
    | lift_lets -underBinder
    | with_reducible apply onMw0_kept)

theorem execMbxSend_kept {z : State} (ep : Fin 19) (c : Fin 4) (value : Word) (s : State) (h_s : Kept z s) : KeptR z (execMbxSend ep c value s) := by
  unfold execMbxSend
  repeat' (first
    | with_reducible assumption
    | lift_lets -underBinder
    | with_reducible apply onWin_kept
    | with_reducible apply done_kept
    | with_reducible apply State.winWrite_kept)

theorem execMbxDataWrite_kept {z : State} (ep : Fin 19) (c : Fin 4) (i : Fin 16) (value : Word) (s : State) (h_s : Kept z s) : KeptR z (execMbxDataWrite ep c i value s) := by
  unfold execMbxDataWrite
  repeat' (first
    | with_reducible assumption
    | lift_lets -underBinder
    | with_reducible apply onWin_kept
    | with_reducible apply done_kept
    | with_reducible apply State.winWrite_kept)

theorem execMbxInRead_kept {z : State} (ep : Fin 19) (k : Fin 4) (i : Fin 16) (s : State) (h_s : Kept z s) : KeptR z (execMbxInRead ep k i s) := by
  unfold execMbxInRead
  repeat' (first
    | with_reducible assumption
    | with_reducible apply Kept.next
    | lift_lets -underBinder
    | with_reducible apply onWin_kept
    | with_reducible apply State.winRead_kept
    | fail_if_no_progress (with_reducible refine Kept.upd ?_ rfl rfl rfl rfl rfl rfl rfl rfl rfl rfl rfl rfl rfl rfl rfl rfl rfl rfl rfl rfl rfl rfl rfl rfl rfl))

theorem execDbRing_kept {z : State} (ep : Fin 19) (n : Fin 32) (value : Word) (s : State) (h_s : Kept z s) : KeptR z (execDbRing ep n value s) := by
  unfold execDbRing
  repeat' (first
    | with_reducible assumption
    | lift_lets -underBinder
    | with_reducible apply onWin_kept
    | with_reducible apply done_kept
    | with_reducible apply State.winWrite_kept)

theorem execMbxRouteWrite_kept {z : State} (port : Fin 2) (i : Fin 76) (value : Word) (s : State) (h_s : Kept z s) : KeptR z (execMbxRouteWrite port i value s) := by
  unfold execMbxRouteWrite
  repeat' (first
    | with_reducible assumption
    | with_reducible apply KeptR.ite
    | with_reducible apply Kept.next
    | lift_lets -underBinder
    | with_reducible apply onMw0_kept
    | with_reducible apply done_kept
    | with_reducible apply State.raiseMbx_kept
    | with_reducible apply State.setReg_kept)

theorem execMbxHostResetA_kept {z : State} (port : Fin 2) (s : State) (h_s : Kept z s) : KeptR z (execMbxHostResetA port s) := by
  unfold execMbxHostResetA
  repeat' (first
    | with_reducible assumption
    | lift_lets -underBinder
    | with_reducible apply onMw0_kept
    | with_reducible apply done_kept
    | with_reducible apply State.epReset_kept)

theorem execMbxHostResetB_kept {z : State} (port : Fin 2) (s : State) (h_s : Kept z s) : KeptR z (execMbxHostResetB port s) := by
  unfold execMbxHostResetB
  repeat' (first
    | with_reducible assumption
    | with_reducible apply KeptR.ite
    | with_reducible apply Kept.next
    | lift_lets -underBinder
    | with_reducible apply onMw0_kept
    | with_reducible apply done_kept
    | with_reducible apply State.epReset_kept)

theorem execMbxAgeExpiry_kept {z : State} (ep : Fin 19) (k : Fin 4) (s : State) (h_s : Kept z s) : KeptR z (execMbxAgeExpiry ep k s) := by
  unfold execMbxAgeExpiry
  repeat' (first
    | with_reducible assumption
    | (intro x; refine KeptR.cut (a := x) ?_ (fun _ => ?_) <;> [subst x; clear_value x])
    | with_reducible apply KeptR.ite
    | with_reducible apply Kept.next
    | lift_lets -underBinder
    | with_reducible apply State.setInbox_kept
    | with_reducible apply State.setOstat_kept
    | with_reducible apply State.ringDb_kept
    | with_reducible apply done_kept
    | with_reducible apply State.bump_kept
    | with_reducible apply State.raiseMbx_kept)

end Sys2Proof.Machine
end

