-- ==== Sys2Proof/Laws/KeptMem.lean ====
section
/-! SUPPORT. What the operations of Machine/Mem.lean keep. -/

namespace Sys2Proof.Machine

theorem execBankScrubStep_kept {z : State} (buffer : Bool) (bank : Fin 72) (ecc : Ecc) (s : State) (h_s : Kept z s) : KeptR z (execBankScrubStep buffer bank ecc s) := by
  unfold execBankScrubStep
  repeat' (first
    | with_reducible assumption
    | with_reducible apply KeptR.ite
    | with_reducible apply Kept.next
    | lift_lets -underBinder
    | with_reducible apply State.setBank_kept
    | with_reducible apply done_kept
    | with_reducible apply State.bankUe_kept
    | with_reducible apply State.bankCe_kept)

theorem execMemOwnReq_kept {z : State} (port : Fin 2) (bank owner : Fin 64) (s : State) (h_s : Kept z s) : KeptR z (execMemOwnReq port bank owner s) := by
  unfold execMemOwnReq
  repeat' (first
    | with_reducible assumption
    | (intro x; subst x)
    | with_reducible apply KeptR.ite
    | with_reducible apply Kept.next
    | lift_lets -underBinder
    | with_reducible apply onMw0_kept
    | with_reducible apply State.wr_kept
    | with_reducible apply State.startHandover_kept)

theorem execHandoverMarkerArrive_kept {z : State} (s : State) (h_s : Kept z s) : KeptR z (execHandoverMarkerArrive s) := by
  unfold execHandoverMarkerArrive
  repeat' (first
    | with_reducible assumption
    | with_reducible apply KeptR.ite
    | with_reducible apply Kept.next
    | lift_lets -underBinder
    | with_reducible apply done_kept
    | with_reducible apply State.endHandover_kept
    | split)

theorem execHandoverForceTimeout_kept {z : State} (s : State) (h_s : Kept z s) : KeptR z (execHandoverForceTimeout s) := by
  unfold execHandoverForceTimeout
  repeat' (first
    | with_reducible assumption
    | with_reducible apply Kept.next
    | lift_lets -underBinder
    | with_reducible apply done_kept
    | with_reducible apply State.endHandover_kept
    | with_reducible apply State.raise_kept
    | split)

theorem execMemMarchReq_kept {z : State} (port : Fin 2) (preserving buffer : Bool) (bank : Fin 128) (s : State) (h_s : Kept z s) : KeptR z (execMemMarchReq port preserving buffer bank s) := by
  unfold execMemMarchReq
  repeat' (first
    | with_reducible assumption
    | (intro x; refine KeptR.cut (a := x) ?_ (fun _ => ?_) <;> [subst x; clear_value x])
    | (intro x; subst x)
    | with_reducible apply KeptR.ite
    | with_reducible apply Kept.next
    | lift_lets -underBinder
    | with_reducible apply onMw0_kept
    | with_reducible apply State.wr_kept
    | fail_if_no_progress (with_reducible refine Kept.upd ?_ rfl rfl rfl rfl rfl rfl rfl rfl rfl rfl rfl rfl rfl rfl rfl rfl rfl rfl rfl rfl rfl rfl rfl rfl rfl))

theorem execMarchDone_kept {z : State} (failWords : Nat) (s : State) (h_s : Kept z s) : KeptR z (execMarchDone failWords s) := by
  unfold execMarchDone
  repeat' (first
    | with_reducible assumption
    | (intro x; refine KeptR.cut (a := x) ?_ (fun _ => ?_) <;> [subst x; clear_value x])
    | (intro x; refine Kept.cut (a := x) ?_ (fun _ => ?_) <;> [subst x; clear_value x])
    | with_reducible apply Kept.ite
    | with_reducible apply KeptR.ite
    | with_reducible apply Kept.next
    | lift_lets -underBinder
    | with_reducible apply State.setBank_kept
    | with_reducible apply State.wr_kept
    | with_reducible apply done_kept
    | with_reducible apply State.raise_kept
    | fail_if_no_progress (with_reducible refine Kept.upd ?_ rfl rfl rfl rfl rfl rfl rfl rfl rfl rfl rfl rfl rfl rfl rfl rfl rfl rfl rfl rfl rfl rfl rfl rfl rfl)
    | split)

theorem execMemRepairReq_kept {z : State} (port : Fin 2) (buffer : Bool) (logical : Fin 64) (s : State) (h_s : Kept z s) : KeptR z (execMemRepairReq port buffer logical s) := by
  unfold execMemRepairReq
  repeat' (first
    | with_reducible assumption
    | (intro x; subst x)
    | with_reducible apply KeptR.ite
    | with_reducible apply Kept.next
    | lift_lets -underBinder
    | with_reducible apply onMw0_kept
    | fail_if_no_progress (with_reducible refine Kept.upd ?_ rfl rfl rfl rfl rfl rfl rfl rfl rfl rfl rfl rfl rfl rfl rfl rfl rfl rfl rfl rfl rfl rfl rfl rfl rfl))

theorem execRepairMarchDone_kept {z : State} (spareOk origOk : Bool) (s : State) (h_s : Kept z s) : KeptR z (execRepairMarchDone spareOk origOk s) := by
  unfold execRepairMarchDone
  repeat' (first
    | with_reducible assumption
    | (intro x; subst x)
    | with_reducible apply Kept.ite
    | with_reducible apply KeptR.ite
    | with_reducible apply Kept.next
    | lift_lets -underBinder
    | with_reducible apply State.raise_kept
    | with_reducible apply done_kept
    | with_reducible apply State.abandonRepair_kept
    | with_reducible apply State.repairStat_kept
    | fail_if_no_progress (with_reducible refine Kept.upd ?_ rfl rfl rfl rfl rfl rfl rfl rfl rfl rfl rfl rfl rfl rfl rfl rfl rfl rfl rfl rfl rfl rfl rfl rfl rfl)
    | split)

theorem execRepairCopyDone_kept {z : State} (s : State) (h_s : Kept z s) : KeptR z (execRepairCopyDone s) := by
  unfold execRepairCopyDone
  repeat' (first
    | with_reducible assumption
    | (intro x; refine KeptR.cut (a := x) ?_ (fun _ => ?_) <;> [subst x; clear_value x])
    | (intro x; subst x)
    | with_reducible apply KeptR.ite
    | with_reducible apply Kept.next
    | lift_lets -underBinder
    | with_reducible apply State.repairStat_kept
    | with_reducible apply done_kept
    | with_reducible apply State.bankUe_kept
    | with_reducible refine Kept.foldl ?_ (fun t x ht => ?_)
    | fail_if_no_progress (with_reducible refine Kept.upd ?_ rfl rfl rfl rfl rfl rfl rfl rfl rfl rfl rfl rfl rfl rfl rfl rfl rfl rfl rfl rfl rfl rfl rfl rfl rfl)
    | split)

theorem execRepairCommit_kept {z : State} (nvmOk : Bool) (s : State) (h_s : Kept z s) : KeptR z (execRepairCommit nvmOk s) := by
  unfold execRepairCommit
  repeat' (first
    | with_reducible assumption
    | (intro x; refine Kept.cut (a := x) ?_ (fun _ => ?_) <;> [subst x; clear_value x])
    | with_reducible apply KeptR.ite
    | with_reducible apply Kept.next
    | lift_lets -underBinder
    | with_reducible apply done_kept
    | with_reducible apply State.abandonRepair_kept
    | with_reducible apply State.raise_kept
    | with_reducible apply State.setBank_kept
    | with_reducible apply State.setPhys_kept
    | with_reducible apply State.repairStat_kept
    | with_reducible apply State.wr_kept
    | with_reducible apply State.bump_kept
    | fail_if_no_progress (with_reducible refine Kept.upd ?_ rfl rfl rfl rfl rfl rfl rfl rfl rfl rfl rfl rfl rfl rfl rfl rfl rfl rfl rfl rfl rfl rfl rfl rfl rfl)
    | split)

theorem execRepairOrigFail_kept {z : State} (s : State) (h_s : Kept z s) : KeptR z (execRepairOrigFail s) := by
  unfold execRepairOrigFail
  repeat' (first
    | with_reducible assumption
    | with_reducible apply KeptR.ite
    | with_reducible apply Kept.next
    | lift_lets -underBinder
    | with_reducible apply done_kept
    | with_reducible apply State.abandonRepair_kept
    | with_reducible apply State.remapLost_kept
    | split)

end Sys2Proof.Machine
end

