-- ==== Sys2Proof/Laws/KeptPsq.lean ====
section
/-! SUPPORT. What the operations of Machine/Psq.lean keep. -/

namespace Sys2Proof.Machine

theorem seqTickIf_kept {z : State} (s : State) (n : Nat) (pins : BitVec 48) (bad : Bool) (p : Word → Bool) (h_s : Kept z s) : KeptR z (seqTickIf s n pins bad p) := by
  unfold seqTickIf
  repeat' (first
    | with_reducible assumption
    | with_reducible apply KeptR.ite
    | with_reducible apply Kept.next
    | lift_lets -underBinder
    | with_reducible apply done_kept
    | with_reducible apply State.seqTick_kept)

theorem execPsqFetchWait_kept {z : State} (seq : Fin 32) (pins : BitVec 48) (bad : Bool) (s : State) (h_s : Kept z s) : KeptR z (execPsqFetchWait seq pins bad s) := by
  unfold execPsqFetchWait
  repeat' (first
    | with_reducible assumption
    | with_reducible apply seqTickIf_kept)

theorem execPsqFetchGo_kept {z : State} (seq : Fin 32) (pins : BitVec 48) (bad : Bool) (s : State) (h_s : Kept z s) : KeptR z (execPsqFetchGo seq pins bad s) := by
  unfold execPsqFetchGo
  repeat' (first
    | with_reducible assumption
    | with_reducible apply seqTickIf_kept)

theorem execPsqStoreWait_kept {z : State} (seq : Fin 32) (pins : BitVec 48) (bad : Bool) (s : State) (h_s : Kept z s) : KeptR z (execPsqStoreWait seq pins bad s) := by
  unfold execPsqStoreWait
  repeat' (first
    | with_reducible assumption
    | with_reducible apply seqTickIf_kept)

theorem execPsqStoreGo_kept {z : State} (seq : Fin 32) (pins : BitVec 48) (bad : Bool) (s : State) (h_s : Kept z s) : KeptR z (execPsqStoreGo seq pins bad s) := by
  unfold execPsqStoreGo
  repeat' (first
    | with_reducible assumption
    | with_reducible apply seqTickIf_kept)

theorem execPsqReload0_kept {z : State} (seq : Fin 32) (pins : BitVec 48) (bad : Bool) (s : State) (h_s : Kept z s) : KeptR z (execPsqReload0 seq pins bad s) := by
  unfold execPsqReload0
  repeat' (first
    | with_reducible assumption
    | with_reducible apply seqTickIf_kept)

theorem execPsqReload1_kept {z : State} (seq : Fin 32) (pins : BitVec 48) (bad : Bool) (s : State) (h_s : Kept z s) : KeptR z (execPsqReload1 seq pins bad s) := by
  unfold execPsqReload1
  repeat' (first
    | with_reducible assumption
    | with_reducible apply seqTickIf_kept)

theorem execPsqSignal_kept {z : State} (seq : Fin 32) (pins : BitVec 48) (bad : Bool) (s : State) (h_s : Kept z s) : KeptR z (execPsqSignal seq pins bad s) := by
  unfold execPsqSignal
  repeat' (first
    | with_reducible assumption
    | with_reducible apply seqTickIf_kept)

theorem execPsqEmit_kept {z : State} (seq : Fin 32) (pins : BitVec 48) (bad : Bool) (s : State) (h_s : Kept z s) : KeptR z (execPsqEmit seq pins bad s) := by
  unfold execPsqEmit
  repeat' (first
    | with_reducible assumption
    | with_reducible apply seqTickIf_kept)

theorem execPsqPattern_kept {z : State} (seq : Fin 32) (pins : BitVec 48) (bad : Bool) (s : State) (h_s : Kept z s) : KeptR z (execPsqPattern seq pins bad s) := by
  unfold execPsqPattern
  repeat' (first
    | with_reducible assumption
    | with_reducible apply seqTickIf_kept)

theorem execPsqCapture_kept {z : State} (seq : Fin 32) (pins : BitVec 48) (bad : Bool) (s : State) (h_s : Kept z s) : KeptR z (execPsqCapture seq pins bad s) := by
  unfold execPsqCapture
  repeat' (first
    | with_reducible assumption
    | with_reducible apply seqTickIf_kept)

theorem execPsqExchange_kept {z : State} (seq : Fin 32) (pins : BitVec 48) (bad : Bool) (s : State) (h_s : Kept z s) : KeptR z (execPsqExchange seq pins bad s) := by
  unfold execPsqExchange
  repeat' (first
    | with_reducible assumption
    | with_reducible apply seqTickIf_kept)

theorem execPsqDirect_kept {z : State} (seq : Fin 32) (pins : BitVec 48) (bad : Bool) (s : State) (h_s : Kept z s) : KeptR z (execPsqDirect seq pins bad s) := by
  unfold execPsqDirect
  repeat' (first
    | with_reducible assumption
    | with_reducible apply seqTickIf_kept)

theorem execPsqToggle_kept {z : State} (seq : Fin 32) (pins : BitVec 48) (bad : Bool) (s : State) (h_s : Kept z s) : KeptR z (execPsqToggle seq pins bad s) := by
  unfold execPsqToggle
  repeat' (first
    | with_reducible assumption
    | with_reducible apply seqTickIf_kept)

theorem execPsqBranch_kept {z : State} (seq : Fin 32) (pins : BitVec 48) (bad : Bool) (s : State) (h_s : Kept z s) : KeptR z (execPsqBranch seq pins bad s) := by
  unfold execPsqBranch
  repeat' (first
    | with_reducible assumption
    | with_reducible apply seqTickIf_kept)

theorem execPsqFlowWait_kept {z : State} (seq : Fin 32) (pins : BitVec 48) (bad : Bool) (s : State) (h_s : Kept z s) : KeptR z (execPsqFlowWait seq pins bad s) := by
  unfold execPsqFlowWait
  repeat' (first
    | with_reducible assumption
    | with_reducible apply seqTickIf_kept)

theorem execPsqCount_kept {z : State} (seq : Fin 32) (pins : BitVec 48) (bad : Bool) (s : State) (h_s : Kept z s) : KeptR z (execPsqCount seq pins bad s) := by
  unfold execPsqCount
  repeat' (first
    | with_reducible assumption
    | with_reducible apply seqTickIf_kept)

theorem execPsqIllegal_kept {z : State} (seq : Fin 32) (pins : BitVec 48) (bad : Bool) (s : State) (h_s : Kept z s) : KeptR z (execPsqIllegal seq pins bad s) := by
  unfold execPsqIllegal
  repeat' (first
    | with_reducible assumption
    | with_reducible apply KeptR.ite
    | with_reducible apply Kept.next
    | lift_lets -underBinder
    | with_reducible apply done_kept
    | with_reducible apply State.seqTick_kept)

theorem execPsqDwellExpiry_kept {z : State} (seq : Fin 32) (pins : BitVec 48) (bad : Bool) (s : State) (h_s : Kept z s) : KeptR z (execPsqDwellExpiry seq pins bad s) := by
  unfold execPsqDwellExpiry
  repeat' (first
    | with_reducible assumption
    | with_reducible apply KeptR.ite
    | lift_lets -underBinder
    | with_reducible apply done_kept
    | with_reducible apply State.seqDwellEnd_kept
    | with_reducible apply seqTickIf_kept)

theorem execPsqStart_kept {z : State} (port : Fin 2) (value : Word) (s : State) (h_s : Kept z s) : KeptR z (execPsqStart port value s) := by
  unfold execPsqStart
  repeat' (first
    | with_reducible assumption
    | with_reducible refine fun t => ?_
    | lift_lets -underBinder
    | with_reducible apply onMw0_kept
    | with_reducible apply done_kept
    | with_reducible apply State.seqMask_kept
    | with_reducible apply State.seqStart_kept)

theorem execPsqStop_kept {z : State} (port : Fin 2) (value : Word) (s : State) (h_s : Kept z s) : KeptR z (execPsqStop port value s) := by
  unfold execPsqStop
  repeat' (first
    | with_reducible assumption
    | with_reducible refine fun t => ?_
    | lift_lets -underBinder
    | with_reducible apply onMw0_kept
    | with_reducible apply done_kept
    | with_reducible apply State.seqMask_kept
    | with_reducible apply State.seqHalt_kept)

theorem execPsqClkrst_kept {z : State} (port : Fin 2) (value : Word) (s : State) (h_s : Kept z s) : KeptR z (execPsqClkrst port value s) := by
  unfold execPsqClkrst
  repeat' (first
    | with_reducible assumption
    | with_reducible refine fun t => ?_
    | (intro x; subst x)
    | lift_lets -underBinder
    | with_reducible apply onMw0_kept
    | with_reducible apply done_kept
    | with_reducible apply State.seqMask_kept
    | with_reducible apply State.setSeq_kept)

theorem execPsqTstartArm_kept {z : State} (port : Fin 2) (value : Word) (s : State) (h_s : Kept z s) : KeptR z (execPsqTstartArm port value s) := by
  unfold execPsqTstartArm
  repeat' (first
    | with_reducible assumption
    | lift_lets -underBinder
    | with_reducible apply onMw0_kept
    | with_reducible apply done_kept
    | with_reducible apply State.armStart_kept)

theorem execPsqTimedStart_kept {z : State} (s : State) (h_s : Kept z s) : KeptR z (execPsqTimedStart s) := by
  unfold execPsqTimedStart
  repeat' (first
    | with_reducible assumption
    | with_reducible apply KeptR.ite
    | with_reducible apply Kept.next
    | lift_lets -underBinder
    | with_reducible apply done_kept
    | with_reducible apply State.timedStart_kept)

theorem onSeq_kept {z : State} (s : State) (who : Fin 18) (n reg : Nat) (win mw0 : State → State) (h_s : Kept z s) (h_win : ∀ t, Kept z t → Kept z (win t)) (h_mw0 : ∀ t, Kept z t → Kept z (mw0 t)) : KeptR z (onSeq s who n reg win mw0) := by
  unfold onSeq
  repeat' (first
    | with_reducible assumption
    | with_reducible apply KeptR.ite
    | with_reducible apply Kept.next
    | lift_lets -underBinder
    | with_reducible apply done_kept
    | with_reducible apply State.raisePsq_kept
    | with_reducible apply onMw0_kept
    | fail_if_no_progress (with_reducible refine Kept.upd ?_ rfl rfl rfl rfl rfl rfl rfl rfl rfl rfl rfl rfl rfl rfl rfl rfl rfl rfl rfl rfl rfl rfl rfl rfl rfl)
    | apply h_win
    | apply h_mw0)

theorem execPsqSeqStart_kept {z : State} (who : Fin 18) (seq : Fin 32) (s : State) (h_s : Kept z s) : KeptR z (execPsqSeqStart who seq s) := by
  unfold execPsqSeqStart
  repeat' (first
    | with_reducible assumption
    | with_reducible refine fun t => ?_
    | with_reducible apply onSeq_kept
    | with_reducible apply State.seqCtrl_kept)

theorem execPsqSeqStop_kept {z : State} (who : Fin 18) (seq : Fin 32) (s : State) (h_s : Kept z s) : KeptR z (execPsqSeqStop who seq s) := by
  unfold execPsqSeqStop
  repeat' (first
    | with_reducible assumption
    | with_reducible refine fun t => ?_
    | with_reducible apply onSeq_kept
    | with_reducible apply State.seqCtrl_kept)

theorem execPsqSeqRestart_kept {z : State} (who : Fin 18) (seq : Fin 32) (s : State) (h_s : Kept z s) : KeptR z (execPsqSeqRestart who seq s) := by
  unfold execPsqSeqRestart
  repeat' (first
    | with_reducible assumption
    | with_reducible refine fun t => ?_
    | with_reducible apply onSeq_kept
    | with_reducible apply State.seqCtrl_kept)

theorem execPsqInject_kept {z : State} (who : Fin 18) (seq : Fin 32) (value : Word) (s : State) (h_s : Kept z s) : KeptR z (execPsqInject who seq value s) := by
  unfold execPsqInject
  repeat' (first
    | with_reducible assumption
    | with_reducible refine fun t => ?_
    | with_reducible apply onSeq_kept
    | with_reducible apply State.seqInject_kept)

theorem State.hostFifo_kept {z : State} (s : State) (n : Nat) (f : State → State) (h_s : Kept z s) (h_f : ∀ t, Kept z t → Kept z (f t)) : Kept z (State.hostFifo s n f) := by
  unfold State.hostFifo
  repeat' (first
    | with_reducible assumption
    | with_reducible apply Kept.ite
    | lift_lets -underBinder
    | with_reducible apply State.raisePsq_kept
    | fail_if_no_progress (with_reducible refine Kept.upd ?_ rfl rfl rfl rfl rfl rfl rfl rfl rfl rfl rfl rfl rfl rfl rfl rfl rfl rfl rfl rfl rfl rfl rfl rfl rfl)
    | apply h_f)

theorem execPsqTxfPush_kept {z : State} (who : Fin 18) (seq : Fin 32) (value : Word) (s : State) (h_s : Kept z s) : KeptR z (execPsqTxfPush who seq value s) := by
  unfold execPsqTxfPush
  repeat' (first
    | with_reducible assumption
    | with_reducible refine fun t => ?_
    | with_reducible apply onSeq_kept
    | with_reducible apply State.txfPush_kept
    | with_reducible apply State.hostFifo_kept)

theorem State.rxfRead_kept {z : State} (s : State) (n : Nat) (h_s : Kept z s) : Kept z (State.rxfRead s n) := by
  unfold State.rxfRead
  repeat' (first
    | with_reducible assumption
    | lift_lets -underBinder
    | with_reducible apply State.rxfPop_kept
    | fail_if_no_progress (with_reducible refine Kept.upd ?_ rfl rfl rfl rfl rfl rfl rfl rfl rfl rfl rfl rfl rfl rfl rfl rfl rfl rfl rfl rfl rfl rfl rfl rfl rfl))

theorem execPsqRxfPop_kept {z : State} (who : Fin 18) (seq : Fin 32) (s : State) (h_s : Kept z s) : KeptR z (execPsqRxfPop who seq s) := by
  unfold execPsqRxfPop
  repeat' (first
    | with_reducible assumption
    | with_reducible refine fun t => ?_
    | with_reducible apply onSeq_kept
    | with_reducible apply State.rxfRead_kept
    | with_reducible apply State.hostFifo_kept)

theorem execPsqImemWrite_kept {z : State} (port : Fin 2) (seq : Fin 32) (i : Fin 128) (value : Word) (s : State) (h_s : Kept z s) : KeptR z (execPsqImemWrite port seq i value s) := by
  unfold execPsqImemWrite
  repeat' (first
    | with_reducible assumption
    | (intro x; subst x)
    | with_reducible apply Kept.next
    | lift_lets -underBinder
    | with_reducible apply onMw0_kept
    | with_reducible apply State.setSeq_kept)

theorem execPsqFifoModeWrite_kept {z : State} (port : Fin 2) (seq : Fin 32) (value : Word) (s : State) (h_s : Kept z s) : KeptR z (execPsqFifoModeWrite port seq value s) := by
  unfold execPsqFifoModeWrite
  repeat' (first
    | with_reducible assumption
    | (intro x; subst x)
    | with_reducible apply Kept.next
    | lift_lets -underBinder
    | with_reducible apply onMw0_kept
    | with_reducible apply State.setReg_kept
    | with_reducible apply State.setSeq_kept)

theorem execPsqRemapPoint_kept {z : State} (s : State) (h_s : Kept z s) : KeptR z (execPsqRemapPoint s) := by
  unfold execPsqRemapPoint
  repeat' (first
    | with_reducible assumption
    | (intro x; refine KeptR.cut (a := x) ?_ (fun _ => ?_) <;> [subst x; clear_value x])
    | with_reducible apply KeptR.ite
    | with_reducible apply Kept.next
    | lift_lets -underBinder
    | with_reducible apply State.setSeqMap_kept
    | with_reducible apply State.wr_kept
    | with_reducible apply State.bump_kept
    | with_reducible apply done_kept
    | with_reducible apply State.seqRemapEvent_kept
    | fail_if_no_progress (with_reducible refine Kept.upd ?_ rfl rfl rfl rfl rfl rfl rfl rfl rfl rfl rfl rfl rfl rfl rfl rfl rfl rfl rfl rfl rfl rfl rfl rfl rfl))

theorem execPsqRemapTimeout_kept {z : State} (s : State) (h_s : Kept z s) : KeptR z (execPsqRemapTimeout s) := by
  unfold execPsqRemapTimeout
  repeat' (first
    | with_reducible assumption
    | with_reducible apply Kept.next
    | lift_lets -underBinder
    | with_reducible apply State.dropSeqRemap_kept)

theorem execPsqSmFail_kept {z : State} (machine : Fin 36) (s : State) (h_s : Kept z s) : KeptR z (execPsqSmFail machine s) := by
  unfold execPsqSmFail
  repeat' (first
    | with_reducible assumption
    | (intro x; refine KeptR.cut (a := x) ?_ (fun _ => ?_) <;> [subst x; clear_value x])
    | (intro x; subst x)
    | with_reducible apply Kept.ite
    | with_reducible apply KeptR.ite
    | with_reducible apply Kept.next
    | lift_lets -underBinder
    | with_reducible apply State.dropSeqRemap_kept
    | with_reducible apply State.unitFailed_kept
    | with_reducible apply done_kept
    | with_reducible apply State.raiseFor_kept
    | with_reducible apply State.raisePsq_kept
    | with_reducible apply State.setSeq_kept
    | with_reducible apply State.setSeqMap_kept
    | with_reducible apply State.seqRestart_kept
    | with_reducible apply State.seqStart_kept
    | with_reducible apply State.seqRemapEvent_kept
    | with_reducible apply State.shedSeq_kept
    | with_reducible apply State.outageFrom_kept
    | with_reducible apply State.lossOf_kept
    | fail_if_no_progress (with_reducible refine Kept.upd ?_ rfl rfl rfl rfl rfl rfl rfl rfl rfl rfl rfl rfl rfl rfl rfl rfl rfl rfl rfl rfl rfl rfl rfl rfl rfl)
    | split)

end Sys2Proof.Machine
end

