-- ==== Sys2Proof/Laws/KeptPwr.lean ====
section
/-! SUPPORT. What the operations of Machine/Pwr.lean keep. -/

namespace Sys2Proof.Machine

theorem State.onPwr_kept {z : State} (s : State) (f : PwrSt → PwrSt) (h_s : Kept z s) : Kept z (State.onPwr s f) := by
  unfold State.onPwr
  repeat' (first
    | with_reducible assumption
    | fail_if_no_progress (with_reducible refine Kept.upd ?_ rfl rfl rfl rfl rfl rfl rfl rfl rfl rfl rfl rfl rfl rfl rfl rfl rfl rfl rfl rfl rfl rfl rfl rfl rfl))

theorem execInputSupplyApplied_kept {z : State} (s : State) (h_s : Kept z s) : KeptR z (execInputSupplyApplied s) := by
  unfold execInputSupplyApplied
  repeat' (first
    | with_reducible assumption
    | with_reducible apply KeptR.ite
    | with_reducible apply Kept.next
    | lift_lets -underBinder
    | with_reducible apply State.onPwr_kept)

theorem execSoftStartOn_kept {z : State} (s : State) (h_s : Kept z s) : KeptR z (execSoftStartOn s) := by
  unfold execSoftStartOn
  repeat' (first
    | with_reducible assumption
    | with_reducible apply KeptR.ite
    | with_reducible apply Kept.next
    | lift_lets -underBinder
    | with_reducible apply State.onPwr_kept
    | with_reducible apply State.driveFlt_kept
    | with_reducible apply State.pwrShow_kept)

theorem execSoftStartTimeout_kept {z : State} (s : State) (h_s : Kept z s) : KeptR z (execSoftStartTimeout s) := by
  unfold execSoftStartTimeout
  repeat' (first
    | with_reducible assumption
    | with_reducible apply KeptR.ite
    | with_reducible apply Kept.next
    | lift_lets -underBinder
    | with_reducible apply State.onPwr_kept
    | with_reducible apply State.bump_kept)

theorem execSoftStartRetry_kept {z : State} (s : State) (h_s : Kept z s) : KeptR z (execSoftStartRetry s) := by
  unfold execSoftStartRetry
  repeat' (first
    | with_reducible assumption
    | with_reducible apply KeptR.ite
    | with_reducible apply Kept.next
    | lift_lets -underBinder
    | with_reducible apply State.onPwr_kept)

theorem State.logicLow_kept {z : State} (s : State) (mv : Nat) (h_s : Kept z s) : Kept z (State.logicLow s mv) := by
  unfold State.logicLow
  repeat' (first
    | with_reducible assumption
    | with_reducible apply Kept.ite
    | lift_lets -underBinder
    | with_reducible apply State.onPwr_kept
    | with_reducible apply State.pwrShow_kept
    | with_reducible apply State.raise_kept)

theorem execLogicSupplyLow_kept {z : State} (mv : BitVec 16) (s : State) (h_s : Kept z s) : KeptR z (execLogicSupplyLow mv s) := by
  unfold execLogicSupplyLow
  repeat' (first
    | with_reducible assumption
    | with_reducible apply Kept.ite
    | with_reducible apply KeptR.ite
    | with_reducible apply Kept.next
    | lift_lets -underBinder
    | with_reducible apply State.wr_kept
    | with_reducible apply done_kept
    | with_reducible apply State.logicLow_kept
    | with_reducible apply State.onPwr_kept
    | with_reducible apply State.porst_kept
    | with_reducible apply State.pwrShow_kept)

theorem execLogicSupplyRecover_kept {z : State} (mv : BitVec 16) (s : State) (h_s : Kept z s) : KeptR z (execLogicSupplyRecover mv s) := by
  unfold execLogicSupplyRecover
  repeat' (first
    | with_reducible assumption
    | with_reducible apply KeptR.ite
    | with_reducible apply Kept.next
    | lift_lets -underBinder
    | with_reducible apply State.onPwr_kept
    | with_reducible apply State.release_kept
    | with_reducible apply State.wr_kept
    | with_reducible apply done_kept
    | with_reducible apply State.logicLow_kept
    | with_reducible apply State.pwrShow_kept)

theorem execRailFail_kept {z : State} (rail : Fin 16) (s : State) (h_s : Kept z s) : KeptR z (execRailFail rail s) := by
  unfold execRailFail
  repeat' (first
    | with_reducible assumption
    | with_reducible apply KeptR.ite
    | with_reducible apply Kept.next
    | lift_lets -underBinder
    | with_reducible apply State.onPwr_kept
    | with_reducible apply State.pwrShow_kept
    | with_reducible apply done_kept
    | with_reducible apply State.raise_kept)

theorem execTempSample_kept {z : State} (temp mv v33 : BitVec 16) (s : State) (h_s : Kept z s) : KeptR z (execTempSample temp mv v33 s) := by
  unfold execTempSample
  repeat' (first
    | with_reducible assumption
    | (intro x; refine KeptR.cut (a := x) ?_ (fun _ => ?_) <;> [subst x; clear_value x])
    | with_reducible apply Kept.ite
    | with_reducible apply KeptR.ite
    | with_reducible apply Kept.next
    | lift_lets -underBinder
    | with_reducible apply State.porst_kept
    | with_reducible apply State.onPwr_kept
    | with_reducible apply State.wr_kept
    | with_reducible apply State.pwrShow_kept
    | with_reducible apply State.raise_kept
    | with_reducible apply done_kept)

end Sys2Proof.Machine
end

