-- ==== Sys2Proof/Laws/KeptTime.lean ====
section
/-! SUPPORT. What the operations of Machine/Time.lean keep. -/

namespace Sys2Proof.Machine

theorem execTimeFreqWrite_kept {z : State} (port : Fin 2) (value : Word) (s : State) (h_s : Kept z s) : KeptR z (execTimeFreqWrite port value s) := by
  unfold execTimeFreqWrite
  repeat' (first
    | with_reducible assumption
    | with_reducible refine fun t => ?_
    | lift_lets -underBinder
    | with_reducible apply onMw0_kept
    | with_reducible apply done_kept
    | with_reducible apply State.steer_kept
    | with_reducible apply State.setFreq_kept)

theorem execTimeStep_kept {z : State} (port : Fin 2) (value : Word) (s : State) (h_s : Kept z s) : KeptR z (execTimeStep port value s) := by
  unfold execTimeStep
  repeat' (first
    | with_reducible assumption
    | with_reducible refine fun t => ?_
    | lift_lets -underBinder
    | with_reducible apply onMw0_kept
    | with_reducible apply done_kept
    | with_reducible apply State.steer_kept
    | with_reducible apply State.stepTime_kept)

theorem execTimeSlew_kept {z : State} (port : Fin 2) (value : Word) (s : State) (h_s : Kept z s) : KeptR z (execTimeSlew port value s) := by
  unfold execTimeSlew
  repeat' (first
    | with_reducible assumption
    | with_reducible refine fun t => ?_
    | lift_lets -underBinder
    | with_reducible apply onMw0_kept
    | with_reducible apply done_kept
    | with_reducible apply State.steer_kept
    | with_reducible apply State.startSlew_kept)

theorem execSlewComplete_kept {z : State} (s : State) (h_s : Kept z s) : KeptR z (execSlewComplete s) := by
  unfold execSlewComplete
  repeat' (first
    | with_reducible assumption
    | with_reducible apply KeptR.ite
    | with_reducible apply Kept.next
    | lift_lets -underBinder
    | with_reducible apply done_kept
    | with_reducible apply State.slewDone_kept)

theorem execTimeSet_kept {z : State} (port : Fin 2) (value : Word) (s : State) (h_s : Kept z s) : KeptR z (execTimeSet port value s) := by
  unfold execTimeSet
  repeat' (first
    | with_reducible assumption
    | with_reducible refine fun t => ?_
    | (intro x; subst x)
    | lift_lets -underBinder
    | with_reducible apply onMw0_kept
    | with_reducible apply done_kept
    | with_reducible apply State.steer_kept
    | with_reducible apply State.setReg64_kept
    | with_reducible apply State.setTime_kept)

theorem execTimeNowFracRead_kept {z : State} (port : Fin 2) (s : State) (h_s : Kept z s) : KeptR z (execTimeNowFracRead port s) := by
  unfold execTimeNowFracRead
  repeat' (first
    | with_reducible assumption
    | (intro x; subst x)
    | lift_lets -underBinder
    | with_reducible apply onMw0_kept
    | with_reducible apply done_kept
    | with_reducible apply State.setPort_kept
    | fail_if_no_progress (with_reducible refine Kept.upd ?_ rfl rfl rfl rfl rfl rfl rfl rfl rfl rfl rfl rfl rfl rfl rfl rfl rfl rfl rfl rfl rfl rfl rfl rfl rfl))

theorem execSteerFreq_kept {z : State} (k : Fin 4) (s : State) (h_s : Kept z s) : KeptR z (execSteerFreq k s) := by
  unfold execSteerFreq
  repeat' (first
    | with_reducible assumption
    | with_reducible refine fun t => ?_
    | with_reducible apply KeptR.ite
    | with_reducible apply Kept.next
    | lift_lets -underBinder
    | with_reducible apply done_kept
    | with_reducible apply State.takeSteer_kept
    | with_reducible apply State.setFreq_kept)

theorem execSteerStep_kept {z : State} (k : Fin 4) (s : State) (h_s : Kept z s) : KeptR z (execSteerStep k s) := by
  unfold execSteerStep
  repeat' (first
    | with_reducible assumption
    | with_reducible refine fun t => ?_
    | with_reducible apply KeptR.ite
    | with_reducible apply Kept.next
    | lift_lets -underBinder
    | with_reducible apply done_kept
    | with_reducible apply State.takeSteer_kept
    | with_reducible apply State.stepTime_kept)

theorem execSteerSlew_kept {z : State} (k : Fin 4) (s : State) (h_s : Kept z s) : KeptR z (execSteerSlew k s) := by
  unfold execSteerSlew
  repeat' (first
    | with_reducible assumption
    | with_reducible refine fun t => ?_
    | with_reducible apply KeptR.ite
    | with_reducible apply Kept.next
    | lift_lets -underBinder
    | with_reducible apply done_kept
    | with_reducible apply State.takeSteer_kept
    | with_reducible apply State.startSlew_kept)

theorem execLinkDelay_kept {z : State} (k : Fin 4) (s : State) (h_s : Kept z s) : KeptR z (execLinkDelay k s) := by
  unfold execLinkDelay
  repeat' (first
    | with_reducible assumption
    | with_reducible apply KeptR.ite
    | with_reducible apply Kept.next
    | lift_lets -underBinder
    | with_reducible apply State.takeMsg_kept
    | with_reducible apply done_kept
    | with_reducible apply State.setReg_kept
    | with_reducible apply State.ringDb_kept)

theorem execSteerMsgInvalid_kept {z : State} (k : Fin 4) (s : State) (h_s : Kept z s) : KeptR z (execSteerMsgInvalid k s) := by
  unfold execSteerMsgInvalid
  repeat' (first
    | with_reducible assumption
    | with_reducible apply KeptR.ite
    | with_reducible apply Kept.next
    | lift_lets -underBinder
    | with_reducible apply State.takeMsg_kept
    | with_reducible apply done_kept
    | with_reducible apply State.steerRej_kept)

theorem execTioCapture_kept {z : State} (pin : Fin 16) (rising : Bool) (s : State) (h_s : Kept z s) : KeptR z (execTioCapture pin rising s) := by
  unfold execTioCapture
  repeat' (first
    | with_reducible assumption
    | (intro x; refine KeptR.cut (a := x) ?_ (fun _ => ?_) <;> [subst x; clear_value x])
    | (intro x; subst x)
    | with_reducible apply Kept.ite
    | with_reducible apply KeptR.ite
    | with_reducible apply Kept.next
    | lift_lets -underBinder
    | with_reducible apply done_kept
    | with_reducible apply State.bump_kept
    | with_reducible apply State.wr_kept
    | with_reducible apply State.raise_kept
    | with_reducible apply State.setTio_kept
    | with_reducible apply State.event_kept)

theorem execTioCapRead_kept {z : State} (port : Fin 2) (pin : Fin 16) (s : State) (h_s : Kept z s) : KeptR z (execTioCapRead port pin s) := by
  unfold execTioCapRead
  repeat' (first
    | with_reducible assumption
    | (intro x; subst x)
    | lift_lets -underBinder
    | with_reducible apply onMw0_kept
    | with_reducible apply done_kept
    | with_reducible apply State.wr_kept
    | with_reducible apply State.setTio_kept
    | fail_if_no_progress (with_reducible refine Kept.upd ?_ rfl rfl rfl rfl rfl rfl rfl rfl rfl rfl rfl rfl rfl rfl rfl rfl rfl rfl rfl rfl rfl rfl rfl rfl rfl)
    | split)

theorem State.tioCfg_kept {z : State} (s : State) (pin : Nat) (value : Word) (h_s : Kept z s) : Kept z (State.tioCfg s pin value) := by
  unfold State.tioCfg
  repeat' (first
    | with_reducible assumption
    | (intro x; subst x)
    | with_reducible apply Kept.ite
    | lift_lets -underBinder
    | with_reducible apply State.setReg_kept
    | with_reducible apply State.setTio_kept
    | with_reducible apply State.drive_kept
    | with_reducible apply State.singleEdge_kept
    | with_reducible apply State.tioLate_kept)

theorem execTioEnable_kept {z : State} (port : Fin 2) (pin : Fin 16) (value : Word) (s : State) (h_s : Kept z s) : KeptR z (execTioEnable port pin value s) := by
  unfold execTioEnable
  repeat' (first
    | with_reducible assumption
    | lift_lets -underBinder
    | with_reducible apply onMw0_kept
    | with_reducible apply done_kept
    | with_reducible apply State.tioCfg_kept)

theorem execTioSingleEdge_kept {z : State} (pin : Fin 16) (s : State) (h_s : Kept z s) : KeptR z (execTioSingleEdge pin s) := by
  unfold execTioSingleEdge
  repeat' (first
    | with_reducible assumption
    | with_reducible apply KeptR.ite
    | with_reducible apply Kept.next
    | lift_lets -underBinder
    | with_reducible apply done_kept
    | with_reducible apply State.singleEdge_kept)

theorem State.leadEdge_kept {z : State} (s : State) (pin : Nat) (h_s : Kept z s) : Kept z (State.leadEdge s pin) := by
  unfold State.leadEdge
  repeat' (first
    | with_reducible assumption
    | (intro x; subst x)
    | lift_lets -underBinder
    | with_reducible apply State.setTio_kept
    | with_reducible apply State.drive_kept)

theorem execTioPeriodicEdge_kept {z : State} (pin : Fin 16) (s : State) (h_s : Kept z s) : KeptR z (execTioPeriodicEdge pin s) := by
  unfold execTioPeriodicEdge
  repeat' (first
    | with_reducible assumption
    | (intro x; subst x)
    | with_reducible apply KeptR.ite
    | with_reducible apply Kept.next
    | lift_lets -underBinder
    | with_reducible apply done_kept
    | with_reducible apply State.setTio_kept
    | with_reducible apply State.leadEdge_kept)

theorem execTioPpsEdge_kept {z : State} (pin : Fin 16) (s : State) (h_s : Kept z s) : KeptR z (execTioPpsEdge pin s) := by
  unfold execTioPpsEdge
  repeat' (first
    | with_reducible assumption
    | with_reducible apply KeptR.ite
    | with_reducible apply Kept.next
    | lift_lets -underBinder
    | with_reducible apply done_kept
    | with_reducible apply State.leadEdge_kept)

theorem execTioPulseEnd_kept {z : State} (pin : Fin 16) (s : State) (h_s : Kept z s) : KeptR z (execTioPulseEnd pin s) := by
  unfold execTioPulseEnd
  repeat' (first
    | with_reducible assumption
    | (intro x; subst x)
    | with_reducible apply KeptR.ite
    | with_reducible apply Kept.next
    | lift_lets -underBinder
    | with_reducible apply done_kept
    | with_reducible apply State.setTio_kept
    | with_reducible apply State.drive_kept)

end Sys2Proof.Machine
end

