-- ==== Sys2Proof/Laws/KeptWake.lean ====
section
/-! SUPPORT. What the operations of Machine/Wake.lean keep. -/

namespace Sys2Proof.Machine

theorem onSleepCtrl_kept {z : State} (s : State) (who : Fin 18) (bus : Fin 8) (v : Word) (h_s : Kept z s) : KeptR z (onSleepCtrl s who bus v) := by
  unfold onSleepCtrl
  repeat' (first
    | with_reducible assumption
    | with_reducible apply KeptR.ite
    | with_reducible apply Kept.next
    | lift_lets -underBinder
    | with_reducible apply onBusWin_kept
    | with_reducible apply done_kept
    | with_reducible apply State.sleepCtrl_kept
    | with_reducible apply onMw0_kept)

theorem execBusSleepRequest_kept {z : State} (who : Fin 18) (bus : Fin 8) (s : State) (h_s : Kept z s) : KeptR z (execBusSleepRequest who bus s) := by
  unfold execBusSleepRequest
  repeat' (first
    | with_reducible assumption
    | with_reducible apply onSleepCtrl_kept)

theorem execBusSleepCancel_kept {z : State} (who : Fin 18) (bus : Fin 8) (s : State) (h_s : Kept z s) : KeptR z (execBusSleepCancel who bus s) := by
  unfold execBusSleepCancel
  repeat' (first
    | with_reducible assumption
    | with_reducible apply onSleepCtrl_kept)

theorem execSleepGateClose_kept {z : State} (bus : Fin 8) (s : State) (h_s : Kept z s) : KeptR z (execSleepGateClose bus s) := by
  unfold execSleepGateClose
  repeat' (first
    | with_reducible assumption
    | with_reducible apply KeptR.ite
    | with_reducible apply Kept.next
    | lift_lets -underBinder
    | with_reducible apply done_kept
    | with_reducible apply State.fallAsleep_kept)

theorem execBusWakeEvent_kept {z : State} (bus : Fin 8) (src : WakeSrc) (ide : Bool) (id : BitVec 29) (afterIdle : Bool) (s : State) (h_s : Kept z s) : KeptR z (execBusWakeEvent bus src ide id afterIdle s) := by
  unfold execBusWakeEvent
  repeat' (first
    | with_reducible assumption
    | with_reducible apply KeptR.ite
    | with_reducible apply Kept.next
    | lift_lets -underBinder
    | with_reducible apply done_kept
    | with_reducible apply State.busWakeEvent_kept
    | split)

theorem execWakeFilterActivity_kept {z : State} (bus : Fin 8) (what : FilterSeen) (s : State) (h_s : Kept z s) : KeptR z (execWakeFilterActivity bus what s) := by
  unfold execWakeFilterActivity
  repeat' (first
    | with_reducible assumption
    | with_reducible apply KeptR.ite
    | with_reducible apply Kept.next
    | lift_lets -underBinder
    | with_reducible apply State.bump_kept
    | with_reducible apply State.wr_kept
    | with_reducible apply done_kept
    | with_reducible apply State.busWakeEvent_kept
    | split)

theorem execAwakeMaxExpiry_kept {z : State} (bus : Fin 8) (s : State) (h_s : Kept z s) : KeptR z (execAwakeMaxExpiry bus s) := by
  unfold execAwakeMaxExpiry
  repeat' (first
    | with_reducible assumption
    | (intro x; refine KeptR.cut (a := x) ?_ (fun _ => ?_) <;> [subst x; clear_value x])
    | with_reducible apply Kept.ite
    | with_reducible apply KeptR.ite
    | with_reducible apply Kept.next
    | lift_lets -underBinder
    | with_reducible apply State.event_kept
    | with_reducible apply State.raiseFor_kept
    | with_reducible apply done_kept
    | with_reducible apply State.fallAsleep_kept)

theorem execWakeNAssert_kept {z : State} (s : State) (h_s : Kept z s) : KeptR z (execWakeNAssert s) := by
  unfold execWakeNAssert
  repeat' (first
    | with_reducible assumption
    | with_reducible apply KeptR.ite
    | with_reducible apply Kept.next
    | lift_lets -underBinder
    | with_reducible apply done_kept
    | with_reducible apply State.moduleWake_kept)

theorem execStandbyTimerExpiry_kept {z : State} (s : State) (h_s : Kept z s) : KeptR z (execStandbyTimerExpiry s) := by
  unfold execStandbyTimerExpiry
  repeat' (first
    | with_reducible assumption
    | with_reducible apply KeptR.ite
    | with_reducible apply Kept.next
    | lift_lets -underBinder
    | with_reducible apply done_kept
    | with_reducible apply State.moduleWake_kept)

end Sys2Proof.Machine
end

