-- ==== Sys2Proof/Laws/KeptMwRead.lean ====
section
/-! SUPPORT. What the operations of Machine/MwRead.lean keep. -/

namespace Sys2Proof.Machine

theorem State.clearRc_kept {z : State} (s : State) (b : BlkId) (off : Nat) (h_s : Kept z s) : Kept z (State.clearRc s b off) := by
  unfold State.clearRc
  repeat' (first
    | with_reducible assumption
    | (intro x; subst x)
    | with_reducible apply Kept.ite
    | lift_lets -underBinder
    | with_reducible apply State.setRing_kept
    | with_reducible apply State.setReg_kept
    | split)

theorem State.setLatch_kept {z : State} (s : State) (p off : Nat) (w : Option Word) (h_s : Kept z s) : Kept z (State.setLatch s p off w) := by
  unfold State.setLatch
  repeat' (first
    | with_reducible assumption
    | (intro x; subst x)
    | lift_lets -underBinder
    | with_reducible apply State.setPort_kept)

theorem State.tioCapLow_kept {z : State} (s : State) (p n : Nat) (h_s : Kept z s) : Kept z (State.tioCapLow s p n).2 := by
  unfold State.tioCapLow
  repeat' (first
    | with_reducible assumption
    | lift_lets -underBinder
    | with_reducible apply State.wr_kept
    | with_reducible apply State.setLatch_kept
    | split)

theorem State.tioCapHigh_kept {z : State} (s : State) (p n : Nat) (h_s : Kept z s) : Kept z (State.tioCapHigh s p n).2 := by
  unfold State.tioCapHigh
  repeat' (first
    | with_reducible assumption
    | (intro x; subst x)
    | lift_lets -underBinder
    | with_reducible apply State.setTio_kept
    | with_reducible apply State.setLatch_kept
    | split)

theorem State.readReg_kept {z : State} (s : State) (p : Nat) (b : BlkId) (off : Nat) (h_s : Kept z s) : Kept z (State.readReg s p b off).2 := by
  unfold State.readReg
  repeat' (first
    | with_reducible assumption
    | with_reducible apply Kept.ite2
    | lift_lets -underBinder
    | with_reducible apply State.tioCapLow_kept
    | with_reducible apply State.tioCapHigh_kept
    | with_reducible apply State.setLatch_kept
    | with_reducible apply State.clearRc_kept
    | split)

theorem readAns_kept {z : State} (x : Word × State) (h_x : Kept z (x ).2) : KeptR z (readAns x) := by
  unfold readAns
  repeat' (first
    | with_reducible assumption
    | (intro x; refine KeptR.cut (a := x) ?_ (fun _ => ?_) <;> [subst x; clear_value x])
    | lift_lets -underBinder
    | with_reducible apply done_kept
    | fail_if_no_progress (with_reducible refine Kept.upd ?_ rfl rfl rfl rfl rfl rfl rfl rfl rfl rfl rfl rfl rfl rfl rfl rfl rfl rfl rfl rfl rfl rfl rfl rfl rfl))

theorem mw0Read_kept {z : State} (s : State) (p : Fin 2) (off : Nat) (h_s : Kept z s) : KeptR z (mw0Read s p off) := by
  unfold mw0Read
  repeat' (first
    | with_reducible assumption
    | with_reducible refine fun t => ?_
    | (intro x; refine KeptR.cut (a := x) ?_ (fun _ => ?_) <;> [subst x; clear_value x])
    | with_reducible apply KeptR.ite
    | lift_lets -underBinder
    | with_reducible apply done_kept
    | with_reducible apply State.mw0Timeout_kept
    | with_reducible apply State.mw0Unmapped_kept
    | with_reducible apply readAns_kept
    | with_reducible apply State.winRead_kept
    | with_reducible apply execPeDbgDataAccess_kept
    | with_reducible apply State.readReg_kept
    | with_reducible apply execTimeNowFracRead_kept
    | with_reducible apply State.hostFifo_kept
    | with_reducible apply State.rxfRead_kept
    | fail_if_no_progress (with_reducible refine Kept.upd ?_ rfl rfl rfl rfl rfl rfl rfl rfl rfl rfl rfl rfl rfl rfl rfl rfl rfl rfl rfl rfl rfl rfl rfl rfl rfl)
    | split)

end Sys2Proof.Machine
end

