-- ==== Sys2Proof/Laws/KeptMwWrite.lean ====
section
/-! SUPPORT. What the operations of Machine/MwWrite.lean keep. -/

set_option linter.unusedSimpArgs false

namespace Sys2Proof.Machine

theorem State.sourceWrite_kept {z : State} (s : State) (b : BlkId) (off w : Nat) (react : Bool) (v : Word) (h_s : Kept z s) : Kept z (State.sourceWrite s b off w react v) := by
  unfold State.sourceWrite
  repeat' (first
    | with_reducible assumption
    | with_reducible apply State.regWrite_kept)

theorem State.faultWrite_kept {z : State} (s : State) (p : Fin 2) (b : BlkId) (off : Nat) (v : Word) (h_s : Kept z s) : KeptR z (State.faultWrite s p b off v) := by
  unfold State.faultWrite
  repeat' (first
    | with_reducible assumption
    | with_reducible apply KeptR.ite
    | lift_lets -underBinder
    | with_reducible apply execFstatWrite_kept
    | with_reducible apply execFaultForce_kept
    | with_reducible apply done_kept
    | with_reducible apply State.sourceWrite_kept
    | with_reducible apply State.regWrite_kept)

theorem State.hold_kept {z : State} (s : State) (off : Nat) (v : Word) (h_s : Kept z s) : Kept z (State.hold s off v) := by
  unfold State.hold
  repeat' (first
    | with_reducible assumption
    | with_reducible apply Kept.ite
    | lift_lets -underBinder
    | fail_if_no_progress (with_reducible refine Kept.gen ?_ rfl rfl (fun c => ?_) <;> [skip; (simp +zetaDelta only [State.canon, State.regsWf, Bool.and_eq_true] at c ⊢; simp +zetaDelta only [c, SMap.wf_set, SMap.wf_nil, SMap.wf_filter, SioSt.reset, SwcSt.reset, CvnSt.reset, PsqSt.reset, MbxSt.reset, and_self]; done)]))

theorem State.pairWrite_kept {z : State} (s : State) (off : Nat) (v : Word) (h_s : Kept z s) : Kept z (State.pairWrite s off v) := by
  unfold State.pairWrite
  repeat' (first
    | with_reducible assumption
    | lift_lets -underBinder
    | with_reducible apply State.regWrite_kept)

theorem State.wakeCfgErr_kept {z : State} (s : State) (n : Nat) (h_s : Kept z s) : Kept z (State.wakeCfgErr s n) := by
  unfold State.wakeCfgErr
  repeat' (first
    | with_reducible assumption
    | with_reducible apply State.raiseFor_kept)

theorem State.mdbCfgErr_kept {z : State} (s : State) (p n : Nat) (h_s : Kept z s) : Kept z (State.mdbCfgErr s p n) := by
  unfold State.mdbCfgErr
  repeat' (first
    | with_reducible assumption
    | with_reducible apply State.raiseFor_kept)

theorem State.wideDrop_kept {z : State} (s : State) (p : Nat) (b : BlkId) (off : Nat) (h_s : Kept z s) :
    ∀ t, State.wideDrop s p b off = some t → Kept z t := by
  intro t ht
  unfold State.wideDrop at ht
  repeat' (first
    | with_reducible assumption
    | (cases ht; done)
    | (injection ht with e; subst e)
    | split at ht
    | dsimp only at ht
    | with_reducible apply State.raise_kept
    | with_reducible apply State.ctxWrite_kept
    | with_reducible apply State.mdbCfgErr_kept
    | with_reducible apply State.wakeCfgErr_kept)

theorem State.lowWrite_kept {z : State} (s : State) (p : Nat) (b : BlkId) (off : Nat) (v : Word) (h_s : Kept z s) : KeptR z (State.lowWrite s p b off v) := by
  unfold State.lowWrite
  repeat' (first
    | with_reducible assumption
    | lift_lets -underBinder
    | with_reducible refine State.wideDrop_kept _ _ _ _ ?_ _ (by assumption)
    | with_reducible apply done_kept
    | with_reducible apply State.hold_kept
    | split)

theorem State.highWrite_kept {z : State} (s : State) (p : Fin 2) (b : BlkId) (off : Nat) (v : Word) (h_s : Kept z s) : KeptR z (State.highWrite s p b off v) := by
  unfold State.highWrite
  repeat' (first
    | with_reducible assumption
    | with_reducible apply KeptR.ite
    | lift_lets -underBinder
    | with_reducible refine State.wideDrop_kept _ _ _ _ ?_ _ (by assumption)
    | with_reducible apply done_kept
    | with_reducible apply execDbBaseWrite_kept
    | with_reducible apply State.pairWrite_kept
    | with_reducible apply execTimeStep_kept
    | with_reducible apply execTimeSet_kept
    | with_reducible apply execPsqTstartArm_kept
    | split)

theorem State.genWrite_kept {z : State} (s : State) (p : Fin 2) (off : Nat) (v : Word) (h_s : Kept z s) : KeptR z (State.genWrite s p off v) := by
  unfold State.genWrite
  repeat' (first
    | with_reducible assumption
    | (intro x; refine KeptR.cut (a := x) ?_ (fun _ => ?_) <;> [subst x; clear_value x])
    | with_reducible apply Kept.ite
    | with_reducible apply KeptR.ite
    | lift_lets -underBinder
    | with_reducible apply execGenModeReq_kept
    | with_reducible apply execWarmResetRequest_kept
    | with_reducible apply execBlockReset_kept
    | with_reducible apply done_kept
    | with_reducible apply State.resetKey_kept
    | with_reducible apply execGenHostimgGo_kept
    | with_reducible apply State.regWrite_kept
    | fail_if_no_progress (with_reducible refine Kept.upd ?_ rfl rfl rfl rfl rfl rfl rfl rfl rfl rfl rfl rfl rfl rfl rfl rfl rfl rfl rfl rfl rfl rfl rfl rfl rfl))

theorem State.hifWrite_kept {z : State} (s : State) (p : Fin 2) (off : Nat) (v : Word) (h_s : Kept z s) : KeptR z (State.hifWrite s p off v) := by
  unfold State.hifWrite
  repeat' (first
    | with_reducible assumption
    | with_reducible apply KeptR.ite
    | with_reducible apply Kept.next
    | lift_lets -underBinder
    | with_reducible apply done_kept
    | with_reducible apply State.regWrite_kept
    | with_reducible apply execRingBind_kept
    | with_reducible apply execRingUnbind_kept
    | with_reducible apply State.ctxWrite_kept)

theorem State.mbxWrite_kept {z : State} (s : State) (p : Fin 2) (off : Nat) (v : Word) (h_s : Kept z s) : KeptR z (State.mbxWrite s p off v) := by
  unfold State.mbxWrite
  repeat' (first
    | with_reducible assumption
    | with_reducible apply Kept.ite
    | with_reducible apply KeptR.ite
    | lift_lets -underBinder
    | with_reducible apply stateOf_kept
    | with_reducible apply execMbxHostResetA_kept
    | with_reducible apply execMbxHostResetB_kept
    | with_reducible apply done_kept
    | with_reducible apply execMbxRouteWrite_kept
    | with_reducible apply State.regWrite_kept
    | split)

theorem State.wadiWrite_kept {z : State} (s : State) (p : Fin 2) (off : Nat) (v : Word) (h_s : Kept z s) : KeptR z (State.wadiWrite s p off v) := by
  unfold State.wadiWrite
  repeat' (first
    | with_reducible assumption
    | lift_lets -underBinder
    | with_reducible apply execFuncModeWrite_kept
    | with_reducible apply done_kept
    | with_reducible apply State.regWrite_kept
    | split)

theorem State.memWrite_kept {z : State} (s : State) (p : Fin 2) (off : Nat) (v : Word) (h_s : Kept z s) : KeptR z (State.memWrite s p off v) := by
  unfold State.memWrite
  repeat' (first
    | with_reducible assumption
    | with_reducible apply KeptR.ite
    | with_reducible apply Kept.next
    | lift_lets -underBinder
    | with_reducible apply execMemOwnReq_kept
    | with_reducible apply execMemMarchReq_kept
    | with_reducible apply execMemRepairReq_kept
    | with_reducible apply done_kept
    | with_reducible apply State.regWrite_kept)

theorem State.peWrite_kept {z : State} (s : State) (p : Fin 2) (n off : Nat) (v : Word) (h_s : Kept z s) : KeptR z (State.peWrite s p n off v) := by
  unfold State.peWrite
  repeat' (first
    | with_reducible assumption
    | with_reducible apply KeptR.ite
    | lift_lets -underBinder
    | with_reducible apply execPeStep_kept
    | with_reducible apply done_kept
    | with_reducible apply State.peCtrlWrite_kept
    | with_reducible apply execPeDbgDataAccess_kept
    | with_reducible apply State.regWrite_kept)

theorem State.macWrite_kept {z : State} (s : State) (n off : Nat) (v : Word) (h_s : Kept z s) : KeptR z (State.macWrite s n off v) := by
  unfold State.macWrite
  repeat' (first
    | with_reducible assumption
    | (intro x; refine KeptR.cut (a := x) ?_ (fun _ => ?_) <;> [subst x; clear_value x])
    | with_reducible apply Kept.ite
    | with_reducible apply KeptR.ite
    | with_reducible apply Kept.next
    | lift_lets -underBinder
    | with_reducible apply State.portReset_kept
    | with_reducible apply State.macSetEn_kept
    | with_reducible apply done_kept
    | with_reducible apply State.macReneg_kept
    | with_reducible apply State.regWrite_kept
    | with_reducible apply State.raise_kept)

theorem State.gateCfgWrite_kept {z : State} (s : State) (n : Nat) (v : Word) (h_s : Kept z s) : Kept z (State.gateCfgWrite s n v) := by
  unfold State.gateCfgWrite
  repeat' (first
    | with_reducible assumption
    | with_reducible apply Kept.ite
    | lift_lets -underBinder
    | with_reducible apply State.regWrite_kept
    | with_reducible apply State.setGate_kept
    | with_reducible apply State.wr_kept)

theorem State.portQuotaWrite_kept {z : State} (s : State) (n : Nat) (v : Word) (h_s : Kept z s) : Kept z (State.portQuotaWrite s n v) := by
  unfold State.portQuotaWrite
  repeat' (first
    | with_reducible assumption
    | with_reducible apply Kept.ite
    | lift_lets -underBinder
    | with_reducible apply State.regWrite_kept
    | with_reducible apply State.raise_kept)

theorem State.portCfgWrite_kept {z : State} (s : State) (n : Nat) (v : Word) (h_s : Kept z s) : Kept z (State.portCfgWrite s n v) := by
  unfold State.portCfgWrite
  repeat' (first
    | with_reducible assumption
    | with_reducible apply Kept.ite
    | lift_lets -underBinder
    | with_reducible apply State.regWrite_kept
    | with_reducible apply State.portRemove_kept)

theorem State.gclWrite_kept {z : State} (s : State) (i : Nat) (v : Word) (h_s : Kept z s) : Kept z (State.gclWrite s i v) := by
  unfold State.gclWrite
  repeat' (first
    | with_reducible assumption
    | with_reducible apply Kept.ite
    | lift_lets -underBinder
    | with_reducible apply State.regWrite_kept)

theorem State.swcWrite_kept {z : State} (s : State) (p : Fin 2) (off : Nat) (v : Word) (h_s : Kept z s) : KeptR z (State.swcWrite s p off v) := by
  unfold State.swcWrite
  repeat' (first
    | with_reducible assumption
    | with_reducible apply KeptR.ite
    | with_reducible apply Kept.next
    | lift_lets -underBinder
    | with_reducible apply execSwcFctFence_kept
    | with_reducible apply done_kept
    | with_reducible apply State.regWrite_kept
    | with_reducible apply State.gclWrite_kept
    | with_reducible apply State.portCfgWrite_kept
    | with_reducible apply State.portQuotaWrite_kept
    | with_reducible apply State.gateCfgWrite_kept
    | split)

theorem State.timeWrite_kept {z : State} (s : State) (p : Fin 2) (off : Nat) (v : Word) (h_s : Kept z s) : KeptR z (State.timeWrite s p off v) := by
  unfold State.timeWrite
  repeat' (first
    | with_reducible assumption
    | (intro x; refine KeptR.cut (a := x) ?_ (fun _ => ?_) <;> [subst x; clear_value x])
    | with_reducible apply Kept.ite
    | with_reducible apply KeptR.ite
    | lift_lets -underBinder
    | with_reducible apply execTimeFreqWrite_kept
    | with_reducible apply execTimeSlew_kept
    | with_reducible apply State.regWrite_kept
    | with_reducible apply done_kept
    | with_reducible apply State.rateWritten_kept
    | with_reducible apply execTioEnable_kept
    | split)

theorem State.cvnWrite_kept {z : State} (s : State) (off : Nat) (v : Word) (h_s : Kept z s) : KeptR z (State.cvnWrite s off v) := by
  unfold State.cvnWrite
  repeat' (first
    | with_reducible assumption
    | (intro x; subst x)
    | with_reducible apply KeptR.ite
    | with_reducible apply Kept.next
    | lift_lets -underBinder
    | with_reducible apply done_kept
    | with_reducible apply State.cvnTableWrite_kept
    | with_reducible apply State.regWrite_kept
    | with_reducible apply State.cvnRoot_kept
    | with_reducible apply State.cvnCfgWrite_kept
    | split)

theorem State.mdbWrite_kept {z : State} (s : State) (p : Fin 2) (n off : Nat) (v : Word) (h_s : Kept z s) : KeptR z (State.mdbWrite s p n off v) := by
  unfold State.mdbWrite
  repeat' (first
    | with_reducible assumption
    | with_reducible apply Kept.ite
    | with_reducible apply KeptR.ite
    | lift_lets -underBinder
    | with_reducible apply done_kept
    | with_reducible apply State.regWrite_kept
    | with_reducible apply execMdbModeWrite_kept
    | with_reducible apply execMdbRamCfgWrite_kept
    | with_reducible apply State.mdbCfgErr_kept)

theorem State.agreedNow_kept {z : State} (s old : State) (h_s : Kept z s) (h_old : Kept z old) : Kept z (State.agreedNow s old) := by
  unfold State.agreedNow
  repeat' (first
    | with_reducible assumption
    | with_reducible apply Kept.ite
    | lift_lets -underBinder
    | with_reducible apply State.afterSleep_kept)

theorem State.wakeWrite_kept {z : State} (s : State) (off : Nat) (v : Word) (h_s : Kept z s) : KeptR z (State.wakeWrite s off v) := by
  unfold State.wakeWrite
  repeat' (first
    | with_reducible assumption
    | with_reducible apply KeptR.ite
    | lift_lets -underBinder
    | with_reducible apply done_kept
    | with_reducible apply State.regWrite_kept
    | with_reducible apply State.agreedNow_kept
    | with_reducible apply State.sleepCtrl_kept
    | with_reducible apply State.wakeCfgErr_kept)

theorem State.psqWrite_kept {z : State} (s : State) (p : Fin 2) (off : Nat) (v : Word) (h_s : Kept z s) : KeptR z (State.psqWrite s p off v) := by
  unfold State.psqWrite
  repeat' (first
    | with_reducible assumption
    | (intro x; subst x)
    | with_reducible apply KeptR.ite
    | lift_lets -underBinder
    | with_reducible apply execPsqStart_kept
    | with_reducible apply execPsqStop_kept
    | with_reducible apply execPsqClkrst_kept
    | with_reducible apply execPsqImemWrite_kept
    | with_reducible apply execPsqFifoModeWrite_kept
    | with_reducible apply done_kept
    | with_reducible apply State.seqCtrl_kept
    | with_reducible apply execPsqInject_kept
    | with_reducible apply execPsqTxfPush_kept
    | with_reducible apply State.regWrite_kept
    | with_reducible apply State.pioShow_kept
    | split)

theorem State.sioWrite_kept {z : State} (s : State) (p : Fin 2) (off : Nat) (v : Word) (h_s : Kept z s) : KeptR z (State.sioWrite s p off v) := by
  unfold State.sioWrite
  repeat' (first
    | with_reducible assumption
    | lift_lets -underBinder
    | with_reducible apply execSioCfgWrite_kept
    | with_reducible apply done_kept
    | with_reducible apply State.regWrite_kept
    | split)

theorem State.hlthWrite_kept {z : State} (s : State) (p : Fin 2) (off : Nat) (v : Word) (h_s : Kept z s) : KeptR z (State.hlthWrite s p off v) := by
  unfold State.hlthWrite
  repeat' (first
    | with_reducible assumption
    | with_reducible apply KeptR.ite
    | with_reducible apply Kept.next
    | lift_lets -underBinder
    | with_reducible apply execHlthWornClear_kept
    | with_reducible apply done_kept
    | with_reducible apply State.regWrite_kept
    | with_reducible apply State.fltSettle_kept
    | split)

theorem State.clkWrite_kept {z : State} (s : State) (p : Fin 2) (off : Nat) (v : Word) (h_s : Kept z s) : KeptR z (State.clkWrite s p off v) := by
  unfold State.clkWrite
  repeat' (first
    | with_reducible assumption
    | with_reducible apply KeptR.ite
    | lift_lets -underBinder
    | with_reducible apply execRefSelWrite_kept
    | with_reducible apply execPllSwitch_kept
    | with_reducible apply done_kept
    | with_reducible apply State.regWrite_kept)

theorem State.writeReg_kept {z : State} (s : State) (p : Fin 2) (b : BlkId) (off : Nat) (v : Word) (h_s : Kept z s) : KeptR z (State.writeReg s p b off v) := by
  unfold State.writeReg
  repeat' (first
    | with_reducible assumption
    | with_reducible apply KeptR.ite
    | lift_lets -underBinder
    | with_reducible apply State.faultWrite_kept
    | with_reducible apply State.lowWrite_kept
    | with_reducible apply State.highWrite_kept
    | with_reducible apply State.genWrite_kept
    | with_reducible apply State.hifWrite_kept
    | with_reducible apply State.mbxWrite_kept
    | with_reducible apply State.wadiWrite_kept
    | with_reducible apply State.memWrite_kept
    | with_reducible apply State.peWrite_kept
    | with_reducible apply State.macWrite_kept
    | with_reducible apply State.swcWrite_kept
    | with_reducible apply State.timeWrite_kept
    | with_reducible apply State.cvnWrite_kept
    | with_reducible apply State.mdbWrite_kept
    | with_reducible apply State.wakeWrite_kept
    | with_reducible apply State.psqWrite_kept
    | with_reducible apply State.sioWrite_kept
    | with_reducible apply State.hlthWrite_kept
    | with_reducible apply State.clkWrite_kept
    | with_reducible apply done_kept
    | with_reducible apply State.regWrite_kept
    | split)

theorem State.msixWrite_kept {z : State} (s : State) (p k : Nat) (v : Word) (h_s : Kept z s) : Kept z (State.msixWrite s p k v) := by
  unfold State.msixWrite
  repeat' (first
    | with_reducible assumption
    | (intro x; subst x)
    | with_reducible apply Kept.ite
    | lift_lets -underBinder
    | with_reducible apply State.setPort_kept
    | with_reducible apply State.raiseVec_kept)

theorem mw0Write_kept {z : State} (s : State) (p : Fin 2) (off : Nat) (v : Word) (h_s : Kept z s) : KeptR z (mw0Write s p off v) := by
  unfold mw0Write
  repeat' (first
    | with_reducible assumption
    | with_reducible apply KeptR.ite
    | with_reducible apply Kept.next
    | lift_lets -underBinder
    | with_reducible apply done_kept
    | with_reducible apply State.mw0Timeout_kept
    | with_reducible apply State.mw0Unmapped_kept
    | with_reducible apply State.winWrite_kept
    | with_reducible apply State.msixWrite_kept
    | with_reducible apply State.writeReg_kept
    | split)

end Sys2Proof.Machine
end

