-- ==== Sys2Proof/Laws/KeptMw0.lean ====
section
/-! SUPPORT. What the operations of Machine/Mw0.lean keep. -/

namespace Sys2Proof.Machine

theorem execRegisterWrite_kept {z : State} (port : Fin 2) (word : BitVec 22) (value : Word) (s : State) (h_s : Kept z s) : KeptR z (execRegisterWrite port word value s) := by
  unfold execRegisterWrite
  repeat' (first
    | with_reducible assumption
    | with_reducible apply KeptR.ite
    | with_reducible apply Kept.next
    | lift_lets -underBinder
    | with_reducible apply mw0Write_kept)

theorem execRcRead_kept {z : State} (port : Fin 2) (word : BitVec 22) (s : State) (h_s : Kept z s) : KeptR z (execRcRead port word s) := by
  unfold execRcRead
  repeat' (first
    | with_reducible assumption
    | with_reducible apply KeptR.ite
    | with_reducible apply Kept.next
    | lift_lets -underBinder
    | with_reducible apply mw0Read_kept)

theorem execReg64LowerWrite_kept {z : State} (port : Fin 2) (word : BitVec 22) (value : Word) (s : State) (h_s : Kept z s) : KeptR z (execReg64LowerWrite port word value s) := by
  unfold execReg64LowerWrite
  repeat' (first
    | with_reducible assumption
    | with_reducible apply KeptR.ite
    | with_reducible apply Kept.next
    | lift_lets -underBinder
    | with_reducible apply mw0Write_kept)

theorem execReg64LowerRead_kept {z : State} (port : Fin 2) (word : BitVec 22) (s : State) (h_s : Kept z s) : KeptR z (execReg64LowerRead port word s) := by
  unfold execReg64LowerRead
  repeat' (first
    | with_reducible assumption
    | with_reducible apply KeptR.ite
    | with_reducible apply Kept.next
    | lift_lets -underBinder
    | with_reducible apply mw0Read_kept)

theorem execMw0UnmappedAccess_kept {z : State} (port : Fin 2) (word : BitVec 22) (store : Bool) (s : State) (h_s : Kept z s) : KeptR z (execMw0UnmappedAccess port word store s) := by
  unfold execMw0UnmappedAccess
  repeat' (first
    | with_reducible assumption
    | with_reducible apply KeptR.ite
    | with_reducible apply Kept.next
    | lift_lets -underBinder
    | with_reducible apply mw0Write_kept
    | with_reducible apply mw0Read_kept)

theorem execMw0AccessTimeout_kept {z : State} (port : Fin 2) (word : BitVec 22) (store : Bool) (s : State) (h_s : Kept z s) : KeptR z (execMw0AccessTimeout port word store s) := by
  unfold execMw0AccessTimeout
  repeat' (first
    | with_reducible assumption
    | (intro x; refine KeptR.cut (a := x) ?_ (fun _ => ?_) <;> [subst x; clear_value x])
    | with_reducible apply Kept.ite
    | with_reducible apply KeptR.ite
    | with_reducible apply Kept.next
    | lift_lets -underBinder
    | with_reducible apply State.mw0Timeout_kept
    | with_reducible apply done_kept
    | fail_if_no_progress (with_reducible refine Kept.upd ?_ rfl rfl rfl rfl rfl rfl rfl rfl rfl rfl rfl rfl rfl rfl rfl rfl rfl rfl rfl rfl rfl rfl rfl rfl rfl))

end Sys2Proof.Machine
end

