-- ==== Sys2Proof/Laws/KeptMw2.lean ====
section
/-! SUPPORT. What the operations of Machine/Mw2.lean keep. -/

namespace Sys2Proof.Machine

theorem State.mw2Deny_kept {z : State} (s : State) (p off size : Nat) (store : Bool) (h_s : Kept z s) : Kept z (State.mw2Deny s p off size store) := by
  unfold State.mw2Deny
  repeat' (first
    | with_reducible assumption
    | with_reducible apply Kept.ite
    | lift_lets -underBinder
    | with_reducible apply State.raise_kept
    | fail_if_no_progress (with_reducible refine Kept.upd ?_ rfl rfl rfl rfl rfl rfl rfl rfl rfl rfl rfl rfl rfl rfl rfl rfl rfl rfl rfl rfl rfl rfl rfl rfl rfl))

theorem State.readWords_kept {z : State} (s : State) (m : Mem) (xs : List (Nat × Nat)) (h_s : Kept z s) : Kept z (State.readWords s m xs).2 := by
  induction xs generalizing s m with
  | nil =>
    unfold State.readWords
    assumption
  | cons e es ih =>
    unfold State.readWords
    repeat' (first
      | with_reducible assumption
      | apply ih
      | with_reducible apply Kept.ite2
      | lift_lets -underBinder
      | with_reducible apply State.draw_kept)

theorem hostAns_kept {z : State} (x : List Byte × State) (h_x : Kept z (x ).2) : Kept z (hostAns x) := by
  unfold hostAns
  repeat' (first
    | with_reducible assumption
    | (intro x; refine Kept.cut (a := x) ?_ (fun _ => ?_) <;> [subst x; clear_value x])
    | lift_lets -underBinder
    | fail_if_no_progress (with_reducible refine Kept.upd ?_ rfl rfl rfl rfl rfl rfl rfl rfl rfl rfl rfl rfl rfl rfl rfl rfl rfl rfl rfl rfl rfl rfl rfl rfl rfl))

theorem State.fctStore_kept {z : State} (s : State) (data : List Byte) (xs : List (Nat × Nat)) (h_s : Kept z s) : Kept z (State.fctStore s data xs) := by
  induction xs generalizing s data with
  | nil =>
    unfold State.fctStore
    assumption
  | cons e es ih =>
    unfold State.fctStore
    repeat' (first
      | with_reducible assumption
      | apply ih
      | lift_lets -underBinder
      | with_reducible apply State.setFct_kept)

theorem State.fctFound_kept {z : State} (s : State) (e : Nat) (ecc : Ecc) (h_s : Kept z s) : Kept z (State.fctFound s e ecc) := by
  unfold State.fctFound
  repeat' (first
    | with_reducible assumption
    | lift_lets -underBinder
    | with_reducible apply State.raise_kept
    | with_reducible apply State.unitFailed_kept
    | split)

theorem State.fctLoad_kept {z : State} (s : State) (ecc : Ecc) (xs : List (Nat × Nat)) (h_s : Kept z s) : Kept z (State.fctLoad s ecc xs).2 := by
  induction xs generalizing s ecc with
  | nil =>
    unfold State.fctLoad
    assumption
  | cons e es ih =>
    unfold State.fctLoad
    repeat' (first
      | with_reducible assumption
      | apply ih
      | with_reducible apply Kept.ite2
      | lift_lets -underBinder
      | with_reducible apply State.draw_kept)

theorem State.mw2Read_kept {z : State} (s : State) (p : Nat) (place : Mw2Place) (size : Nat) (ecc : Ecc) (h_s : Kept z s) : Kept z (State.mw2Read s p place size ecc) := by
  unfold State.mw2Read
  repeat' (first
    | with_reducible assumption
    | (intro x; refine Kept.cut (a := x) ?_ (fun _ => ?_) <;> [subst x; clear_value x])
    | with_reducible apply Kept.ite
    | lift_lets -underBinder
    | with_reducible apply State.scrubImem_kept
    | with_reducible apply hostAns_kept
    | with_reducible apply State.readWords_kept
    | with_reducible apply State.scrubDmem_kept
    | with_reducible apply State.hostBank_kept
    | with_reducible apply State.fctFound_kept
    | with_reducible apply State.fctLoad_kept
    | fail_if_no_progress (with_reducible refine Kept.upd ?_ rfl rfl rfl rfl rfl rfl rfl rfl rfl rfl rfl rfl rfl rfl rfl rfl rfl rfl rfl rfl rfl rfl rfl rfl rfl)
    | split)

theorem State.mw2Write_kept {z : State} (s : State) (p : Nat) (place : Mw2Place) (bs : List Byte) (ecc : Ecc) (h_s : Kept z s) : Kept z (State.mw2Write s p place bs ecc) := by
  unfold State.mw2Write
  repeat' (first
    | with_reducible assumption
    | with_reducible apply Kept.ite
    | lift_lets -underBinder
    | with_reducible apply State.raisePe_kept
    | with_reducible apply State.onPe_kept
    | with_reducible apply State.hostBank_kept
    | with_reducible apply State.fctStore_kept
    | split)

theorem execMw2Access_kept {z : State} (port : Fin 2) (off : BitVec 26) (len : Fin 513) (data : Option (List Byte)) (ecc : Ecc) (s : State) (h_s : Kept z s) : KeptR z (execMw2Access port off len data ecc s) := by
  unfold execMw2Access
  repeat' (first
    | with_reducible assumption
    | with_reducible apply KeptR.ite
    | with_reducible apply Kept.next
    | lift_lets -underBinder
    | with_reducible apply done_kept
    | with_reducible apply State.mw2Deny_kept
    | with_reducible apply State.mw2Write_kept
    | with_reducible apply State.mw2Read_kept
    | split)

end Sys2Proof.Machine
end

