-- ==== Sys2Proof/Laws/KeptDispatch.lean ====
section
/-! SUPPORT. What the operations of Machine/Dispatch.lean keep. -/

set_option linter.unusedSimpArgs false

namespace Sys2Proof.Machine

theorem exec_kept {z : State} (i : Instr) (s : State) (h_s : Kept z s) : KeptR z (exec i s) := by
  cases i with
  | registerWrite port word value => exact execRegisterWrite_kept port word value s h_s
  | rcRead port word => exact execRcRead_kept port word s h_s
  | reg64LowerWrite port word value => exact execReg64LowerWrite_kept port word value s h_s
  | reg64LowerRead port word => exact execReg64LowerRead_kept port word s h_s
  | mw0UnmappedAccess port word store => exact execMw0UnmappedAccess_kept port word store s h_s
  | mw0AccessTimeout port word store => exact execMw0AccessTimeout_kept port word store s h_s
  | mw2Access port off len data ecc => exact execMw2Access_kept port off len data ecc s h_s
  | refclkLoss => exact execRefclkLoss_kept s h_s
  | refRevert => exact execRefRevert_kept s h_s
  | refSelWrite port value => exact execRefSelWrite_kept port value s h_s
  | pllLockLoss pll => exact execPllLockLoss_kept pll s h_s
  | pllSwitch port value => exact execPllSwitch_kept port value s h_s
  | freqMonWindowEnd counts => exact execFreqMonWindowEnd_kept counts s h_s
  | clkFallback psq => exact execClkFallback_kept psq s h_s
  | hifClockFail port => exact execHifClockFail_kept port s h_s
  | porstNAssert => exact execPorstNAssert_kept s h_s
  | porstNDeassert => exact execPorstNDeassert_kept s h_s
  | bootSelfTestDone ok0 ok1 => exact execBootSelfTestDone_kept ok0 ok1 s h_s
  | bootMarchDone fails nvmOk0 nvmOk1 => exact execBootMarchDone_kept fails nvmOk0 nvmOk1 s h_s
  | flashHeadersRead => exact execFlashHeadersRead_kept s h_s
  | imageHashDone => exact execImageHashDone_kept s h_s
  | signatureCheckDone => exact execSignatureCheckDone_kept s h_s
  | genHostimgGo port value => exact execGenHostimgGo_kept port value s h_s
  | hostimgCheckDone version dma => exact execHostimgCheckDone_kept version dma s h_s
  | genModeReq port value => exact execGenModeReq_kept port value s h_s
  | mode ring p0 => exact execMode_kept ring p0 s h_s
  | warmResetRequest port key => exact execWarmResetRequest_kept port key s h_s
  | blockReset port key blk => exact execBlockReset_kept port key blk s h_s
  | blockResetDone blk => exact execBlockResetDone_kept blk s h_s
  | scLockstepFail => exact execScLockstepFail_kept s h_s
  | scWatchdogExpiry => exact execScWatchdogExpiry_kept s h_s
  | supervisorDoubleFail => exact execSupervisorDoubleFail_kept s h_s
  | ejectNAssert => exact execEjectNAssert_kept s h_s
  | ejectNDeassert => exact execEjectNDeassert_kept s h_s
  | quiesceDrainDone => exact execQuiesceDrainDone_kept s h_s
  | nvmFlushDone => exact execNvmFlushDone_kept s h_s
  | quiesceComplete => exact execQuiesceComplete_kept s h_s
  | standbyReached => exact execStandbyReached_kept s h_s
  | standbyWake src bus ide id => exact execStandbyWake_kept src bus ide id s h_s
  | nop n last => exact execNop_kept n last s h_s
  | add n rd ra rb last => exact execAdd_kept n rd ra rb last s h_s
  | sub n rd ra rb last => exact execSub_kept n rd ra rb last s h_s
  | and n rd ra rb last => exact execAnd_kept n rd ra rb last s h_s
  | or n rd ra rb last => exact execOr_kept n rd ra rb last s h_s
  | xor n rd ra rb last => exact execXor_kept n rd ra rb last s h_s
  | shl n rd ra rb last => exact execShl_kept n rd ra rb last s h_s
  | shr n rd ra rb last => exact execShr_kept n rd ra rb last s h_s
  | sar n rd ra rb last => exact execSar_kept n rd ra rb last s h_s
  | slt n rd ra rb last => exact execSlt_kept n rd ra rb last s h_s
  | sltu n rd ra rb last => exact execSltu_kept n rd ra rb last s h_s
  | min n rd ra rb last => exact execMin_kept n rd ra rb last s h_s
  | max n rd ra rb last => exact execMax_kept n rd ra rb last s h_s
  | adds n rd ra rb last => exact execAdds_kept n rd ra rb last s h_s
  | subs n rd ra rb last => exact execSubs_kept n rd ra rb last s h_s
  | addi n rd ra imm last => exact execAddi_kept n rd ra imm last s h_s
  | andi n rd ra imm last => exact execAndi_kept n rd ra imm last s h_s
  | ori n rd ra imm last => exact execOri_kept n rd ra imm last s h_s
  | xori n rd ra imm last => exact execXori_kept n rd ra imm last s h_s
  | shli n rd ra imm last => exact execShli_kept n rd ra imm last s h_s
  | shri n rd ra imm last => exact execShri_kept n rd ra imm last s h_s
  | sari n rd ra imm last => exact execSari_kept n rd ra imm last s h_s
  | slti n rd ra imm last => exact execSlti_kept n rd ra imm last s h_s
  | movi n rd imm last => exact execMovi_kept n rd imm last s h_s
  | lui n rd imm last => exact execLui_kept n rd imm last s h_s
  | abs n rd ra last => exact execAbs_kept n rd ra last s h_s
  | clz n rd ra last => exact execClz_kept n rd ra last s h_s
  | popc n rd ra last => exact execPopc_kept n rd ra last s h_s
  | bswap n rd ra last => exact execBswap_kept n rd ra last s h_s
  | brev n rd ra last => exact execBrev_kept n rd ra last s h_s
  | extu n rd ra pos wm1 last => exact execExtu_kept n rd ra pos wm1 last s h_s
  | exts n rd ra pos wm1 last => exact execExts_kept n rd ra pos wm1 last s h_s
  | ins n rd ra pos wm1 last => exact execIns_kept n rd ra pos wm1 last s h_s
  | crc n rd ra rb poly size uw uref last => exact execCrc_kept n rd ra rb poly size uw uref last s h_s
  | mpy n acc ra rb sat rnd last => exact execMpy_kept n acc ra rb sat rnd last s h_s
  | mac n acc ra rb sat rnd last => exact execMac_kept n acc ra rb sat rnd last s h_s
  | msu n acc ra rb sat rnd last => exact execMsu_kept n acc ra rb sat rnd last s h_s
  | mul n rd ra rb last => exact execMul_kept n rd ra rb last s h_s
  | ext n rd acc sh sat rnd last => exact execExt_kept n rd acc sh sat rnd last s h_s
  | setacc n acc ra last => exact execSetacc_kept n acc ra last s h_s
  | setg n acc ra last => exact execSetg_kept n acc ra last s h_s
  | extg n rd acc last => exact execExtg_kept n rd acc last s h_s
  | getf n rd last => exact execGetf_kept n rd last s h_s
  | clrf n imm last => exact execClrf_kept n imm last s h_s
  | lb n rd ra imm ecc => exact execLb_kept n rd ra imm ecc s h_s
  | lbu n rd ra imm ecc => exact execLbu_kept n rd ra imm ecc s h_s
  | lh n rd ra imm ecc => exact execLh_kept n rd ra imm ecc s h_s
  | lhu n rd ra imm ecc => exact execLhu_kept n rd ra imm ecc s h_s
  | lw n rd ra imm ecc => exact execLw_kept n rd ra imm ecc s h_s
  | ld n rd ra imm ecc => exact execLd_kept n rd ra imm ecc s h_s
  | sb n rs ra imm => exact execSb_kept n rs ra imm s h_s
  | sh n rs ra imm => exact execSh_kept n rs ra imm s h_s
  | sw n rs ra imm => exact execSw_kept n rs ra imm s h_s
  | sd n rs ra imm => exact execSd_kept n rs ra imm s h_s
  | beq n ra rb imm => exact execBeq_kept n ra rb imm s h_s
  | bne n ra rb imm => exact execBne_kept n ra rb imm s h_s
  | blt n ra rb imm => exact execBlt_kept n ra rb imm s h_s
  | bge n ra rb imm => exact execBge_kept n ra rb imm s h_s
  | bltu n ra rb imm => exact execBltu_kept n ra rb imm s h_s
  | bgeu n ra rb imm => exact execBgeu_kept n ra rb imm s h_s
  | j n idx => exact execJ_kept n idx s h_s
  | call n idx => exact execCall_kept n idx s h_s
  | jr n ra => exact execJr_kept n ra s h_s
  | callr n ra => exact execCallr_kept n ra s h_s
  | ret n => exact execRet_kept n s h_s
  | push n rn => exact execPush_kept n rn s h_s
  | pop n rn => exact execPop_kept n rn s h_s
  | wait n => exact execWait_kept n s h_s
  | fence n => exact execFence_kept n s h_s
  | brk n => exact execBrk_kept n s h_s
  | illegalBundle n => exact execIllegalBundle_kept n s h_s
  | breakpointHit n => exact execBreakpointHit_kept n s h_s
  | farLoadReturn n ecc => exact execFarLoadReturn_kept n ecc s h_s
  | farStoreAccepted n ecc => exact execFarStoreAccepted_kept n ecc s h_s
  | farTimeout n => exact execFarTimeout_kept n s h_s
  | fauFetchAheadDone n q => exact execFauFetchAheadDone_kept n q s h_s
  | fauRxPop n => exact execFauRxPop_kept n s h_s
  | fauRxDoneFree n => exact execFauRxDoneFree_kept n s h_s
  | fauRxDoneForward n ports queue oneStep => exact execFauRxDoneForward_kept n ports queue oneStep s h_s
  | fauTxAlloc n value => exact execFauTxAlloc_kept n value s h_s
  | fauTxBaseWrite n value => exact execFauTxBaseWrite_kept n value s h_s
  | fauTxSendPorts n ports queue oneStep => exact execFauTxSendPorts_kept n ports queue oneStep s h_s
  | fauTxSendHost n ring => exact execFauTxSendHost_kept n ring s h_s
  | fauTxAbandon n => exact execFauTxAbandon_kept n s h_s
  | etmSnapReq n => exact execEtmSnapReq_kept n s h_s
  | snapshotArrived n => exact execSnapshotArrived_kept n s h_s
  | etmTimerEnable n t absolute periodic => exact execEtmTimerEnable_kept n t absolute periodic s h_s
  | etmTimerFire n t => exact execEtmTimerFire_kept n t s h_s
  | engineEventWake n => exact execEngineEventWake_kept n s h_s
  | ecsBoundary n => exact execEcsBoundary_kept n s h_s
  | ecsWdogKick n => exact execEcsWdogKick_kept n s h_s
  | engineWatchdogExpiry n => exact execEngineWatchdogExpiry_kept n s h_s
  | etmTxtsPop n => exact execEtmTxtsPop_kept n s h_s
  | peStart port n => exact execPeStart_kept port n s h_s
  | peStop port n => exact execPeStop_kept port n s h_s
  | peHalt port n => exact execPeHalt_kept port n s h_s
  | peReset port n => exact execPeReset_kept port n s h_s
  | peStep port n => exact execPeStep_kept port n s h_s
  | engineResetDone n => exact execEngineResetDone_kept n s h_s
  | peDbgDataAccess port n write => exact execPeDbgDataAccess_kept port n write s h_s
  | engineScrubStep n imem dmem => exact execEngineScrubStep_kept n imem dmem s h_s
  | decisionPeriodEnd measures cycles => exact execDecisionPeriodEnd_kept measures cycles s h_s
  | persKeyAdd ring p0 dma => exact execPersKeyAdd_kept ring p0 dma s h_s
  | persKeyRevoke ring p0 => exact execPersKeyRevoke_kept ring p0 s h_s
  | persLoad ring p0 p1 dma => exact execPersLoad_kept ring p0 p1 dma s h_s
  | persDrop ring p0 => exact execPersDrop_kept ring p0 s h_s
  | persCaps ring p0 p1 => exact execPersCaps_kept ring p0 p1 s h_s
  | persBind ring p0 p1 p2 dma readOk => exact execPersBind_kept ring p0 p1 p2 dma readOk s h_s
  | persUnbind ring p0 => exact execPersUnbind_kept ring p0 s h_s
  | persUnbindTimeout slot => exact execPersUnbindTimeout_kept slot s h_s
  | migStart ring p0 p1 => exact execMigStart_kept ring p0 p1 s h_s
  | migAbort ring => exact execMigAbort_kept ring s h_s
  | engRetire ring p0 => exact execEngRetire_kept ring p0 s h_s
  | migPrepareDone readOk => exact execMigPrepareDone_kept readOk s h_s
  | precopyPassEnd => exact execPrecopyPassEnd_kept s h_s
  | migNoBoundary => exact execMigNoBoundary_kept s h_s
  | migSourceStopped ns => exact execMigSourceStopped_kept ns s h_s
  | migDeadlineExpiry ns => exact execMigDeadlineExpiry_kept ns s h_s
  | wadiDecision readBad => exact execWadiDecision_kept readBad s h_s
  | wadiAccept ring p0 => exact execWadiAccept_kept ring p0 s h_s
  | wadiVeto ring p0 => exact execWadiVeto_kept ring p0 s h_s
  | funcModeWrite port func value => exact execFuncModeWrite_kept port func value s h_s
  | funcSwitchPoint func => exact execFuncSwitchPoint_kept func s h_s
  | funcSwitchTimeout func => exact execFuncSwitchTimeout_kept func s h_s
  | funcRingOrphanTimeout func => exact execFuncRingOrphanTimeout_kept func s h_s
  | bankScrubStep buffer bank ecc => exact execBankScrubStep_kept buffer bank ecc s h_s
  | memOwnReq port bank owner => exact execMemOwnReq_kept port bank owner s h_s
  | handoverMarkerArrive => exact execHandoverMarkerArrive_kept s h_s
  | handoverForceTimeout => exact execHandoverForceTimeout_kept s h_s
  | memMarchReq port preserving buffer bank => exact execMemMarchReq_kept port preserving buffer bank s h_s
  | marchDone failWords => exact execMarchDone_kept failWords s h_s
  | memRepairReq port buffer logical => exact execMemRepairReq_kept port buffer logical s h_s
  | repairMarchDone spareOk origOk => exact execRepairMarchDone_kept spareOk origOk s h_s
  | repairCopyDone => exact execRepairCopyDone_kept s h_s
  | repairCommit nvmOk => exact execRepairCommit_kept nvmOk s h_s
  | repairOrigFail => exact execRepairOrigFail_kept s h_s
  | mbxSend ep c value => exact execMbxSend_kept ep c value s h_s
  | mbxDataWrite ep c j value => exact execMbxDataWrite_kept ep c j value s h_s
  | mbxInRead ep k j => exact execMbxInRead_kept ep k j s h_s
  | dbRing ep n value => exact execDbRing_kept ep n value s h_s
  | mbxRouteWrite port j value => exact execMbxRouteWrite_kept port j value s h_s
  | mbxHostResetA port => exact execMbxHostResetA_kept port s h_s
  | mbxHostResetB port => exact execMbxHostResetB_kept port s h_s
  | mbxAgeExpiry ep k => exact execMbxAgeExpiry_kept ep k s h_s
  | ringBind port ring value => exact execRingBind_kept port ring value s h_s
  | ringUnbind port ring => exact execRingUnbind_kept port ring s h_s
  | ringDrainDone ring => exact execRingDrainDone_kept ring s h_s
  | dbBaseWrite port page value => exact execDbBaseWrite_kept port page value s h_s
  | doorbellPoll port slots => exact execDoorbellPoll_kept port slots s h_s
  | ftxFrame ring descs data ecc => exact execFtxFrame_kept ring descs data ecc s h_s
  | frxFrameDeliver ring bufs => exact execFrxFrameDeliver_kept ring bufs s h_s
  | pdxTransfer ring q0 q1 q2 q3 data ecc => exact execPdxTransfer_kept ring q0 q1 q2 q3 data ecc s h_s
  | commandTake ring code p0 p1 p2 dma readOk high => exact execCommandTake_kept ring code p0 p1 p2 dma readOk high s h_s
  | dmaReadError port ring fetched addr size => exact execDmaReadError_kept port ring fetched addr size s h_s
  | msixModerationExpiry ring => exact execMsixModerationExpiry_kept ring s h_s
  | hostLinkDown port => exact execHostLinkDown_kept port s h_s
  | hostLinkUp port width speed => exact execHostLinkUp_kept port width speed s h_s
  | hostBmeChange port on => exact execHostBmeChange_kept port on s h_s
  | hostD3hotEntry port => exact execHostD3hotEntry_kept port s h_s
  | hifPerst port low => exact execHifPerst_kept port low s h_s
  | hostPortLost port => exact execHostPortLost_kept port s h_s
  | ringAdopt ring p0 p1 p2 dma => exact execRingAdopt_kept ring p0 p1 p2 dma s h_s
  | ringRelease ring p0 p1 p2 => exact execRingRelease_kept ring p0 p1 p2 s h_s
  | imgUpdStart ring p0 p1 => exact execImgUpdStart_kept ring p0 p1 s h_s
  | imgUpdData ring p0 p1 p2 dma => exact execImgUpdData_kept ring p0 p1 p2 dma s h_s
  | imgUpdFinish ring => exact execImgUpdFinish_kept ring s h_s
  | imgUpdCancel ring => exact execImgUpdCancel_kept ring s h_s
  | imgConfirm ring => exact execImgConfirm_kept ring s h_s
  | imgMinVersion ring p0 p1 => exact execImgMinVersion_kept ring p0 p1 s h_s
  | macEnable port n en => exact execMacEnable_kept port n en s h_s
  | macReneg port n => exact execMacReneg_kept port n s h_s
  | macPortReset port n => exact execMacPortReset_kept port n s h_s
  | negDwellExpiry n noCommon => exact execNegDwellExpiry_kept n noCommon s h_s
  | negModeSwitch n => exact execNegModeSwitch_kept n s h_s
  | linkUp n mode rate fec word => exact execLinkUp_kept n mode rate fec word s h_s
  | linkDown n => exact execLinkDown_kept n s h_s
  | macFail n => exact execMacFail_kept n s h_s
  | macParityFail n => exact execMacParityFail_kept n s h_s
  | rxFrame n bytes aborted code ecc => exact execRxFrame_kept n bytes aborted code ecc s h_s
  | pauseExpiry n => exact execPauseExpiry_kept n s h_s
  | txFrameStart n drift => exact execTxFrameStart_kept n drift s h_s
  | txFrameEnd n bufUe => exact execTxFrameEnd_kept n bufUe s h_s
  | counterAccumulate => exact execCounterAccumulate_kept s h_s
  | macCntRead ring p0 p1 => exact execMacCntRead_kept ring p0 p1 s h_s
  | learnActionApply => exact execLearnActionApply_kept s h_s
  | ageingScanStep => exact execAgeingScanStep_kept s h_s
  | fctAdd ring p0 dma => exact execFctAdd_kept ring p0 dma s h_s
  | fctDel ring p0 dma => exact execFctDel_kept ring p0 dma s h_s
  | fctRead ring p0 p1 p2 => exact execFctRead_kept ring p0 p1 p2 s h_s
  | fctWrite ring p0 p1 dma => exact execFctWrite_kept ring p0 p1 dma s h_s
  | fctFence ring => exact execFctFence_kept ring s h_s
  | swcFctFence port => exact execSwcFctFence_kept port s h_s
  | fenceDone => exact execFenceDone_kept s h_s
  | fenceTimeout => exact execFenceTimeout_kept s h_s
  | fctSubarrayRemap => exact execFctSubarrayRemap_kept s h_s
  | fctSubarrayLost sub => exact execFctSubarrayLost_kept sub s h_s
  | portRemove port n remove => exact execPortRemove_kept port n remove s h_s
  | portDrainExpiry n => exact execPortDrainExpiry_kept n s h_s
  | gateCycleStart n => exact execGateCycleStart_kept n s h_s
  | gateEntryChange n => exact execGateEntryChange_kept n s h_s
  | gateBankSwitch port n => exact execGateBankSwitch_kept port n s h_s
  | timeFreqWrite port value => exact execTimeFreqWrite_kept port value s h_s
  | timeStep port value => exact execTimeStep_kept port value s h_s
  | timeSlew port value => exact execTimeSlew_kept port value s h_s
  | slewComplete => exact execSlewComplete_kept s h_s
  | timeSet port value => exact execTimeSet_kept port value s h_s
  | timeNowFracRead port => exact execTimeNowFracRead_kept port s h_s
  | steerFreq k => exact execSteerFreq_kept k s h_s
  | steerStep k => exact execSteerStep_kept k s h_s
  | steerSlew k => exact execSteerSlew_kept k s h_s
  | linkDelay k => exact execLinkDelay_kept k s h_s
  | steerMsgInvalid k => exact execSteerMsgInvalid_kept k s h_s
  | tioCapture pin rising => exact execTioCapture_kept pin rising s h_s
  | tioCapRead port pin => exact execTioCapRead_kept port pin s h_s
  | tioEnable port pin value => exact execTioEnable_kept port pin value s h_s
  | tioSingleEdge pin => exact execTioSingleEdge_kept pin s h_s
  | tioPeriodicEdge pin => exact execTioPeriodicEdge_kept pin s h_s
  | tioPpsEdge pin => exact execTioPpsEdge_kept pin s h_s
  | tioPulseEnd pin => exact execTioPulseEnd_kept pin s h_s
  | cvnChannelEnable port c value => exact execCvnChannelEnable_kept port c value s h_s
  | cvnTrainDone port slow nbr ring nbrIsD => exact execCvnTrainDone_kept port slow nbr ring nbrIsD s h_s
  | cvnTrainTimeout port => exact execCvnTrainTimeout_kept port s h_s
  | cvnCycleStart => exact execCvnCycleStart_kept s h_s
  | cvnCsSend c late => exact execCvnCsSend_kept c late s h_s
  | cvnMoverStart c e complete ecc => exact execCvnMoverStart_kept c e complete ecc s h_s
  | cvnSlotSend c e late => exact execCvnSlotSend_kept c e late s h_s
  | cvnCommitSend c late => exact execCvnCommitSend_kept c late s h_s
  | dlyReqSend c => exact execDlyReqSend_kept c s h_s
  | csFrameRx port bytes resid => exact execCsFrameRx_kept port bytes resid s h_s
  | dataFrameRx port bytes resid => exact execDataFrameRx_kept port bytes resid s h_s
  | nullFrameRx port bytes resid => exact execNullFrameRx_kept port bytes resid s h_s
  | leaveFrameRx port bytes resid => exact execLeaveFrameRx_kept port bytes resid s h_s
  | commitFrameRx port bytes resid => exact execCommitFrameRx_kept port bytes resid s h_s
  | dlyReqRx port bytes turn => exact execDlyReqRx_kept port bytes turn s h_s
  | dlyRspRx port bytes => exact execDlyRspRx_kept port bytes s h_s
  | cvnOwnFrameReturn port bytes => exact execCvnOwnFrameReturn_kept port bytes s h_s
  | cvnSlotMissed c e => exact execCvnSlotMissed_kept c e s h_s
  | cvnCsMissing c => exact execCvnCsMissing_kept c s h_s
  | cvnListenTimeout c => exact execCvnListenTimeout_kept c s h_s
  | cvnLoopbackEnd c => exact execCvnLoopbackEnd_kept c s h_s
  | cvnLeave c => exact execCvnLeave_kept c s h_s
  | cvnBankValidate port c bank value => exact execCvnBankValidate_kept port c bank value s h_s
  | cvnTableMessage k ecc => exact execCvnTableMessage_kept k ecc s h_s
  | cvnMode ring p0 => exact execCvnMode_kept ring p0 s h_s
  | cvnTable ring p0 p1 dma => exact execCvnTable_kept ring p0 p1 dma s h_s
  | mdbTxRequest l bus buf => exact execMdbTxRequest_kept l bus buf s h_s
  | mdbTxAbort l bus buf => exact execMdbTxAbort_kept l bus buf s h_s
  | mdbTxDonePop l bus => exact execMdbTxDonePop_kept l bus s h_s
  | mdbRxPop l bus ecc => exact execMdbRxPop_kept l bus ecc s h_s
  | mdbMwEventRead l bus => exact execMdbMwEventRead_kept l bus s h_s
  | mdbFrameSent bus => exact execMdbFrameSent_kept bus s h_s
  | mdbArbitrationLost bus => exact execMdbArbitrationLost_kept bus s h_s
  | mdbFrameReceived bus hdr0 hdr1 hdr2 hdr3 data => exact execMdbFrameReceived_kept bus hdr0 hdr1 hdr2 hdr3 data s h_s
  | mdbErrorDetected bus kind transmitting afterArb dataPhase dominant => exact execMdbErrorDetected_kept bus kind transmitting afterArb dataPhase dominant s h_s
  | mdbRecoveryDone bus => exact execMdbRecoveryDone_kept bus s h_s
  | mdbRecover ring p0 => exact execMdbRecover_kept ring p0 s h_s
  | mdbAbort ring p0 => exact execMdbAbort_kept ring p0 s h_s
  | mdbTtNext ring p0 p1 => exact execMdbTtNext_kept ring p0 p1 s h_s
  | mdbModeWrite port bus value => exact execMdbModeWrite_kept port bus value s h_s
  | mdbTtEnable port bus => exact execMdbTtEnable_kept port bus s h_s
  | mdbRamCfgWrite port bus value => exact execMdbRamCfgWrite_kept port bus value s h_s
  | mdbTrigger bus j => exact execMdbTrigger_kept bus j s h_s
  | mdbRefDue bus => exact execMdbRefDue_kept bus s h_s
  | mdbRefReceived bus prio cycle global => exact execMdbRefReceived_kept bus prio cycle global s h_s
  | mdbTtLate bus => exact execMdbTtLate_kept bus s h_s
  | mdbRemapFollowDone => exact execMdbRemapFollowDone_kept s h_s
  | mdbRemapSwitch => exact execMdbRemapSwitch_kept s h_s
  | mdbRemapTimeout => exact execMdbRemapTimeout_kept s h_s
  | mdbCtrlFail ctrl => exact execMdbCtrlFail_kept ctrl s h_s
  | busSleepRequest who bus => exact execBusSleepRequest_kept who bus s h_s
  | busSleepCancel who bus => exact execBusSleepCancel_kept who bus s h_s
  | sleepGateClose bus => exact execSleepGateClose_kept bus s h_s
  | busWakeEvent bus src ide id afterIdle => exact execBusWakeEvent_kept bus src ide id afterIdle s h_s
  | awakeMaxExpiry bus => exact execAwakeMaxExpiry_kept bus s h_s
  | wakeNAssert => exact execWakeNAssert_kept s h_s
  | standbyTimerExpiry => exact execStandbyTimerExpiry_kept s h_s
  | psqFetchWait seq pins bad => exact execPsqFetchWait_kept seq pins bad s h_s
  | psqFetchGo seq pins bad => exact execPsqFetchGo_kept seq pins bad s h_s
  | psqStoreWait seq pins bad => exact execPsqStoreWait_kept seq pins bad s h_s
  | psqStoreGo seq pins bad => exact execPsqStoreGo_kept seq pins bad s h_s
  | psqReload0 seq pins bad => exact execPsqReload0_kept seq pins bad s h_s
  | psqReload1 seq pins bad => exact execPsqReload1_kept seq pins bad s h_s
  | psqSignal seq pins bad => exact execPsqSignal_kept seq pins bad s h_s
  | psqEmit seq pins bad => exact execPsqEmit_kept seq pins bad s h_s
  | psqPattern seq pins bad => exact execPsqPattern_kept seq pins bad s h_s
  | psqCapture seq pins bad => exact execPsqCapture_kept seq pins bad s h_s
  | psqExchange seq pins bad => exact execPsqExchange_kept seq pins bad s h_s
  | psqDirect seq pins bad => exact execPsqDirect_kept seq pins bad s h_s
  | psqToggle seq pins bad => exact execPsqToggle_kept seq pins bad s h_s
  | psqBranch seq pins bad => exact execPsqBranch_kept seq pins bad s h_s
  | psqFlowWait seq pins bad => exact execPsqFlowWait_kept seq pins bad s h_s
  | psqCount seq pins bad => exact execPsqCount_kept seq pins bad s h_s
  | psqIllegal seq pins bad => exact execPsqIllegal_kept seq pins bad s h_s
  | psqDwellExpiry seq pins bad => exact execPsqDwellExpiry_kept seq pins bad s h_s
  | psqStart port value => exact execPsqStart_kept port value s h_s
  | psqStop port value => exact execPsqStop_kept port value s h_s
  | psqClkrst port value => exact execPsqClkrst_kept port value s h_s
  | psqTstartArm port value => exact execPsqTstartArm_kept port value s h_s
  | psqTimedStart => exact execPsqTimedStart_kept s h_s
  | psqSeqStart who seq => exact execPsqSeqStart_kept who seq s h_s
  | psqSeqStop who seq => exact execPsqSeqStop_kept who seq s h_s
  | psqSeqRestart who seq => exact execPsqSeqRestart_kept who seq s h_s
  | psqInject who seq value => exact execPsqInject_kept who seq value s h_s
  | psqImemWrite port seq j value => exact execPsqImemWrite_kept port seq j value s h_s
  | psqTxfPush who seq value => exact execPsqTxfPush_kept who seq value s h_s
  | psqRxfPop who seq => exact execPsqRxfPop_kept who seq s h_s
  | psqFifoModeWrite port seq value => exact execPsqFifoModeWrite_kept port seq value s h_s
  | psqRemapPoint => exact execPsqRemapPoint_kept s h_s
  | psqRemapTimeout => exact execPsqRemapTimeout_kept s h_s
  | psqSmFail machine => exact execPsqSmFail_kept machine s h_s
  | sioImageCycle readback ecc => exact execSioImageCycle_kept readback ecc s h_s
  | sioCommTimeout => exact execSioCommTimeout_kept s h_s
  | sioLinkFail => exact execSioLinkFail_kept s h_s
  | diFilterAccept ch level => exact execDiFilterAccept_kept ch level s h_s
  | tpPulseStart src => exact execTpPulseStart_kept src s h_s
  | tpPulseEnd src reached lowOutside readbackOk => exact execTpPulseEnd_kept src reached lowOutside readbackOk s h_s
  | sioTick => exact execSioTick_kept s h_s
  | dqTestStart m => exact execDqTestStart_kept m s h_s
  | dqTestEnd m fell low ha hb => exact execDqTestEnd_kept m fell low ha hb s h_s
  | dqOffSettleCheck m high => exact execDqOffSettleCheck_kept m high s h_s
  | dqOverloadTrip m => exact execDqOverloadTrip_kept m s h_s
  | dqThermalTrip m => exact execDqThermalTrip_kept m s h_s
  | l2Sag tenths => exact execL2Sag_kept tenths s h_s
  | l2Recovered tenths => exact execL2Recovered_kept tenths s h_s
  | l1Sag tenths => exact execL1Sag_kept tenths s h_s
  | l1Recovered tenths => exact execL1Recovered_kept tenths s h_s
  | safetyDomainReset clock => exact execSafetyDomainReset_kept clock s h_s
  | sioInitDone okA okB badDi badDq => exact execSioInitDone_kept okA okB badDi badDq s h_s
  | sioCfgWrite port reg value => exact execSioCfgWrite_kept port reg value s h_s
  | sioUnlock ring p0 dma => exact execSioUnlock_kept ring p0 dma s h_s
  | sioLock ring => exact execSioLock_kept ring s h_s
  | sioCommit ring p0 p1 => exact execSioCommit_kept ring p0 p1 s h_s
  | sioPwdSet ring p0 dma => exact execSioPwdSet_kept ring p0 dma s h_s
  | sioAck ring p0 high => exact execSioAck_kept ring p0 high s h_s
  | sioOutEnable ring => exact execSioOutEnable_kept ring s h_s
  | sioLogRead ring p0 p1 p2 => exact execSioLogRead_kept ring p0 p1 p2 s h_s
  | sioTest ring p0 => exact execSioTest_kept ring p0 s h_s
  | sioUnlockTimeout => exact execSioUnlockTimeout_kept s h_s
  | pwdLockoutEnd => exact execPwdLockoutEnd_kept s h_s
  | ackOkTimeout => exact execAckOkTimeout_kept s h_s
  | parStartExpiry pair => exact execParStartExpiry_kept pair s h_s
  | faultForce port blk value => exact execFaultForce_kept port blk value s h_s
  | fstatWrite port blk value => exact execFstatWrite_kept port blk value s h_s
  | holdWindowEnd k => exact execHoldWindowEnd_kept k s h_s
  | fltPulseEnd => exact execFltPulseEnd_kept s h_s
  | hlthWornClear port value => exact execHlthWornClear_kept port value s h_s
  | hlthLogRead ring p0 p1 p2 => exact execHlthLogRead_kept ring p0 p1 p2 s h_s
  | faultLogFlush => exact execFaultLogFlush_kept s h_s
  | wearRecordFlush => exact execWearRecordFlush_kept s h_s
  | presentNHigh => exact execPresentNHigh_kept s h_s
  | presentNLow => exact execPresentNLow_kept s h_s
  | softStartTimeout => exact execSoftStartTimeout_kept s h_s
  | softStartOn => exact execSoftStartOn_kept s h_s
  | powerOnRelease => exact execPowerOnRelease_kept s h_s
  | logicSupplyLow mv => exact execLogicSupplyLow_kept mv s h_s
  | logicSupplyRecover mv => exact execLogicSupplyRecover_kept mv s h_s
  | railFail rail => exact execRailFail_kept rail s h_s
  | tempSample temp mv v33 => exact execTempSample_kept temp mv v33 s h_s
  | hifBootServiceStart => exact execHifBootServiceStart_kept s h_s
  | pllLockAcquired pll => exact execPllLockAcquired_kept pll s h_s
  | cvnOpenWindowStart c => exact execCvnOpenWindowStart_kept c s h_s
  | cvnOpenWindowEnd c => exact execCvnOpenWindowEnd_kept c s h_s
  | mdbTxStart bus ecc => exact execMdbTxStart_kept bus ecc s h_s
  | wakeFilterActivity bus what => exact execWakeFilterActivity_kept bus what s h_s
  | dqOverloadRestartTimeout m => exact execDqOverloadRestartTimeout_kept m s h_s
  | dqThermalCooled m => exact execDqThermalCooled_kept m s h_s
  | inputSupplyApplied => exact execInputSupplyApplied_kept s h_s
  | softStartRetry => exact execSoftStartRetry_kept s h_s

end Sys2Proof.Machine
end

