-- ==== Sys2Proof/Laws/Mem.lean ====
section
/-! SUPPORT. Memories: read after write, what a write leaves alone, and that every operation keeps the canonical form. -/

namespace Sys2Proof.Machine

theorem Mem.wf_empty : Mem.wf Mem.empty = true := rfl

theorem Mem.wf_zeroed : Mem.wf Mem.zeroed = true := rfl

theorem Mem.wf_marched (k : Nat) : Mem.wf (Mem.marched k) = true := rfl

/-- A write of a byte changes neither the fill nor the marks of bad words. -/
@[simp] theorem Mem.setByte_fill (m : Mem) (a : Nat) (v : Byte) : (m.setByte a v).fill = m.fill := rfl

@[simp] theorem Mem.setByte_bad (m : Mem) (a : Nat) (v : Byte) : (m.setByte a v).bad = m.bad := rfl

theorem Mem.wf_setByte {m : Mem} (w : m.wf = true) (a : Nat) (v : Byte) : (m.setByte a v).wf = true :=
  SMap.wf_set m.dflt w a v

/-- A written byte reads back. -/
theorem Mem.byte_setByte_self {m : Mem} (w : m.wf = true) (a : Nat) (v : Byte) : (m.setByte a v).byte a = v :=
  SMap.get_set_self m.dflt w a v

/-- A write of a byte leaves every other byte alone. -/
theorem Mem.byte_setByte_other {m : Mem} (w : m.wf = true) {a b : Nat} (h : b ≠ a) (v : Byte) :
    (m.setByte a v).byte b = m.byte b :=
  SMap.get_set_other m.dflt w h v

theorem Mem.wf_putBytes {m : Mem} (w : m.wf = true) (a : Nat) (bs : List Byte) : (m.putBytes a bs).wf = true := by
  induction bs generalizing m a with
  | nil => exact w
  | cons b bs ih => exact ih (Mem.wf_setByte w a b) (a + 1)

/-- A write of bytes leaves every byte outside them alone. -/
theorem Mem.byte_putBytes_other {m : Mem} (w : m.wf = true) {a b : Nat} {bs : List Byte} (h : b < a ∨ a + bs.length ≤ b) :
    (m.putBytes a bs).byte b = m.byte b := by
  induction bs generalizing m a with
  | nil => rfl
  | cons x bs ih =>
    have h1 : b < a + 1 ∨ a + 1 + bs.length ≤ b := by simp only [List.length_cons] at h; omega
    have h2 : b ≠ a := by simp only [List.length_cons] at h; omega
    exact (ih (Mem.wf_setByte w a x) h1).trans (Mem.byte_setByte_other w h2 x)

/-- Written bytes read back. -/
theorem Mem.byte_putBytes {m : Mem} (w : m.wf = true) {a k : Nat} {bs : List Byte} (h : k < bs.length) :
    (m.putBytes a bs).byte (a + k) = bs[k] := by
  induction bs generalizing m a k with
  | nil => exact absurd h (Nat.not_lt_zero k)
  | cons x bs ih =>
    cases k with
    | zero =>
      have := Mem.byte_putBytes_other (b := a) (Mem.wf_setByte w a x) (a := a + 1) (bs := bs) (Or.inl (Nat.lt_succ_self a))
      exact this.trans (Mem.byte_setByte_self w a x)
    | succ k =>
      have := ih (Mem.wf_setByte w a x) (a := a + 1) (k := k) (by simpa using h)
      have e : a + (k + 1) = a + 1 + k := by omega
      rw [e]
      exact this

theorem Mem.wf_setBad {m : Mem} (w : m.wf = true) (k : Nat) : (m.setBad k).wf = true := by
  unfold Mem.setBad
  split <;> exact w

theorem Mem.wf_clearBad {m : Mem} (w : m.wf = true) (k : Nat) : (m.clearBad k).wf = true := w

theorem Mem.wf_putWords {m : Mem} (w : m.wf = true) (a : Nat) (ws : List Nat) : (m.putWords a ws).wf = true := by
  induction ws generalizing m a with
  | nil => exact w
  | cons x ws ih => exact ih (Mem.wf_putBytes w a _) (a + 4)

theorem Mem.wf_loadImage {m : Mem} (w : m.wf = true) (bs : List Byte) : (m.loadImage bs).wf = true :=
  Mem.wf_putBytes (m := { m with bad := m.bad.filter fun k => decide (bs.length ≤ 8 * k) }) w 0 bs

theorem Mem.wf_putPieces {m : Mem} (w : m.wf = true) (data : List Byte) (ws : List (Nat × Nat)) :
    (m.putPieces data ws).wf = true := by
  induction ws generalizing m data with
  | nil => exact w
  | cons e ws ih =>
    obtain ⟨a, n⟩ := e
    have h : (if n = 8 then m.clearBad (a / 8) else m).wf = true := by split <;> exact w
    exact ih (Mem.wf_putBytes h a _) _

theorem Mem.wf_marks {t : Mem} (h : t.wf = true) (bad : Bool) (ws : List Nat) :
    (ws.foldl (fun m w => if bad then m.setBad w else m.clearBad w) t).wf = true := by
  induction ws generalizing t with
  | nil => exact h
  | cons x ws ih =>
    refine ih ?_
    cases bad
    · exact Mem.wf_clearBad h x
    · exact Mem.wf_setBad h x

theorem Mem.wf_copyLine (src : Mem) {tgt : Mem} (w : tgt.wf = true) (k : Nat) : (src.copyLine tgt k).wf = true := by
  unfold Mem.copyLine
  with_reducible exact Mem.wf_marks (Mem.wf_putBytes w _ _) _ _

/-- The marks of bad words are no part of the canonical form. -/
theorem Mem.wf_ofBad {m : Mem} (w : m.wf = true) (bad : List Nat) : Mem.wf { m with bad := bad } = true := w

theorem Mem.wf_copyAll {src : Mem} (w : src.wf = true) : src.copyAll.wf = true := by
  unfold Mem.copyAll
  with_reducible exact Mem.wf_ofBad w _

/-- After reset every engine's memories are in canonical form. -/
theorem State.reset_mems_wf (n : Fin 18) :
    (State.reset.pes[n]).imem.wf = true ∧ (State.reset.pes[n]).dmem.wf = true := by
  simp [State.reset, Engine.reset, Mem.wf_empty]

end Sys2Proof.Machine
end

