-- ==== Sys2Proof/Tests/Slice0.lean ====
section
/-! SUPPORT. Tests: the well-formedness smoke test, words and values worked out from the spec's tables, and for every
statement with hypotheses a state and operands that meet them together. -/

namespace Sys2Proof.Tests

open Sys2Proof.Machine

set_option Elab.async false

theorem test_reset_canon : State.reset.canon = true := by decide

/-! ## Well-formedness: for each check a term that it refuses, and one beside it that it admits -/

theorem test_wf_shifts : Instr.wellFormed (.shli 0 1 2 32 true) = false ∧ Instr.wellFormed (.shri 0 1 2 32 true) = false ∧
    Instr.wellFormed (.sari 0 1 2 32 true) = false ∧ Instr.wellFormed (.shli 0 1 2 31 true) = true := by decide

theorem test_wf_bit_fields : Instr.wellFormed (.extu 0 1 2 31 1 true) = false ∧ Instr.wellFormed (.exts 0 1 2 16 16 true) = false ∧
    Instr.wellFormed (.ins 0 1 2 1 31 true) = false ∧ Instr.wellFormed (.ins 0 1 2 0 31 true) = true := by decide

theorem test_wf_crc : Instr.wellFormed (.crc 0 1 2 3 5 0 0 false true) = false ∧ Instr.wellFormed (.crc 0 1 2 3 6 0 0 false true) = false ∧
    Instr.wellFormed (.crc 0 1 2 3 0 3 0 false true) = false ∧ Instr.wellFormed (.crc 0 1 2 3 7 2 0 false true) = true := by decide

theorem test_wf_accumulator : Instr.wellFormed (.mpy 0 1 2 3 false 3 true) = false ∧ Instr.wellFormed (.mac 0 1 2 3 false 3 true) = false ∧
    Instr.wellFormed (.msu 0 1 2 3 false 3 true) = false ∧ Instr.wellFormed (.ext 0 1 2 9 false 0 true) = false ∧
    Instr.wellFormed (.ext 0 1 2 8 false 3 true) = false ∧ Instr.wellFormed (.ext 0 1 2 8 false 2 true) = true := by decide

theorem test_wf_flags_and_pairs : Instr.wellFormed (.clrf 0 1024 true) = false ∧ Instr.wellFormed (.ld 0 30 1 0 .ok) = false ∧
    Instr.wellFormed (.ld 0 5 1 0 .ok) = false ∧ Instr.wellFormed (.sd 0 7 1 0) = false ∧ Instr.wellFormed (.push 0 30) = false ∧
    Instr.wellFormed (.pop 0 9) = false ∧ Instr.wellFormed (.sd 0 30 1 0) = true := by decide

theorem test_wf_lists : Instr.wellFormed (.freqMonWindowEnd [1, 2, 3, 4, 5, 6]) = false ∧ Instr.wellFormed (.ftxFrame 0 [] [] none) = false ∧
    Instr.wellFormed (.mw2Access 0 0 0 (some (List.replicate 513 0)) .ok) = false ∧
    Instr.wellFormed (.mw2Access 0 0 0 (some (List.replicate 512 0)) .ok) = true := by decide +kernel

/-! ## The spec's worked examples -/

/-- File 04, the table of MPY results: truncation, round-half-up and convergent rounding of 1.5, 0.5 and -0.5. -/
theorem test_rounding_table : ([0, 1, 2].map fun r => macProduct r 0x40000000 3) = [1, 2, 2] ∧
    ([0, 1, 2].map fun r => macProduct r 0x40000000 1) = [0, 1, 0] ∧
    ([0, 1, 2].map fun r => macProduct r 0x40000000 0xFFFFFFFF) = [-1, 0, 0] ∧
    macProduct 0 0x80000000 0x80000000 = 0x80000000 := by decide +kernel

/-- File 16, the three words of the UART program: its operations, conditions, targets and dwells. -/
theorem test_uart_words : (iDop 0x28000007, iPop 0x28000007, iFlow 0x28000007, iArg 0x28000007, iDwell 0x28000007) = (1, 2, 0, 0, 7) ∧
    (iDop 0x06B02007, iPop 0x06B02007, iCond 0x06B02007, iFlow 0x06B02007, iTarget 0x06B02007, iDwell 0x06B02007) = (0, 1, 0xA, 3, 1, 7) ∧
    (iDop 0xA8000107, iPop 0xA8000107, iFlow 0xA8000107, iArg 0xA8000107, iDwell 0xA8000107) = (5, 2, 0, 1, 7) ∧
    (seqLegal 0x28000007 && seqLegal 0x06B02007 && seqLegal 0xA8000107) = true := by decide +kernel

/-- File 18: 720,000 thermal cycles against PARAM 100 give the index 280. -/
theorem test_cycle_index : indexOf .cycles 100 0 720000 = 280 := by decide +kernel

/-- File 17: with DISC = 20, the 20th tick of a disagreement latches and the 19th does not. -/
theorem test_disc_ticks :
    let s := fun (c : Nat) => (((State.reset.wr SIO_STAT SIO_STAT_SSTATE 2).wr (SIO_PAIR_CFG 2) SIO_PAIR_CFG_EN 1).wr (SIO_PAIR_CFG 2)
      SIO_PAIR_CFG_DISC 20).setPair 2 ⟨true, c, false⟩;
    ((s 18).pairTick 2).flag (SIO_PAIR_STAT 2) SIO_PAIR_STAT_DISC_LATCH = false ∧
    ((s 19).pairTick 2).flag (SIO_PAIR_STAT 2) SIO_PAIR_STAT_DISC_LATCH = true := by decide +kernel

/-- A host port that carries traffic. -/
def portUp : HostPort := { HostPort.reset with up := true, bme := true }

/-- The module in a mode, booted, with both host ports up. -/
def at' (m : Mode) : State := { State.reset with mode := m, portA := portUp, portB := portUp }

theorem witness_IdleStepIsOneCycle_run : (at' .run).pending = [] ∧ (at' .run).boot.porst = false ∧
    (at' .run).mode ≠ .standby ∧ (at' .run).tb.slew = 0 := by decide

theorem witness_IdleStepIsOneCycle_porst :
    let s := { State.reset with boot := { BootSt.reset with porst := true } }
    s.pending = [] ∧ s.boot.porst = true := by decide

theorem witness_StepKeepsCanonicalForm : State.reset.canon = true ∧ step State.reset = .next (tick State.reset) :=
  ⟨by decide, rfl⟩

theorem witness_QuietStateStaysAsItIs : (at' .run).quiet = true := by decide

theorem witness_MaskedFaultSetsItsBitOnly :
    let s := (at' .run).setReg (FMASK .clk) 1
    s.quiet = true ∧ s.regsWf = true ∧ s.masked .clk 0 = true := by decide

theorem witness_FreeCaptureIsFilled_free :
    let s := at' .run
    s.regsWf = true ∧ s.masked .clk 2 = false ∧ s.heldBy .clk 2 255 (0 : Word).toNat = none ∧
      (s.reg (FSTAT .clk)).getLsbD 31 = false := by decide

theorem witness_FreeCaptureIsFilled_taken :
    let s := (at' .run).setReg (FSTAT (.pe 17)) 0x80000001
    s.regsWf = true ∧ s.masked (.pe 17) 23 = false ∧ s.heldBy (.pe 17) 23 255 (0xFFFFFFFF : Word).toNat = none ∧
      (s.reg (FSTAT (.pe 17))).getLsbD 31 = true := by decide

theorem witness_SecondOfItsClassEscalates :
    let s := at' .run
    s.masked .clk 2 = false ∧ s.heldBy .clk 2 255 7 = none := by decide

theorem witness_SecondOfItsClassEscalates_second :
    let s := (at' .run).occur .clk 2 [7, 0, 0] 255 false
    s.masked .clk 2 = false ∧ s.heldBy .clk 2 255 7 = none ∧ s.unackedOf .clk (s.confClass .clk 2) = true := by decide

theorem witness_HeldFaultIsToldOnly :
    let h : Hold := ⟨.swc, 2, 255, 0⟩
    let s := { at' .run with faults := { FaultSt.reset with holds := [h] } }
    s.masked .swc 0 = false ∧ s.heldBy .swc 0 255 3 = some h := by decide

theorem witness_HostWriteFollowsAccessCodes :
    (∀ f ∈ [(⟨31, 16, .rw, 0⟩ : FieldRow), ⟨15, 0, .w1c, 0⟩], f.hi < 32) ∧ 31 < 32 := by decide

theorem witness_PlainRegisterReadAndWrite :
    let s := at' .run
    let w : BitVec 22 := 0x120000
    s.quiet = true ∧ s.hears (1 : Fin 2).val .clk = true ∧ mw0Place (1 : Fin 2).val (mw0Off w) = .reg .clk ∧
      isFaultReg (mw0Off w) = false ∧
      isWide (mw0Off w) = false ∧ isUpper (mw0Off w) = false ∧ mw0Off w ≠ CLK_REF_CFG ∧ mw0Off w ≠ CLK_PLL_CTRL := by decide

theorem witness_WideRegisterTakesTwoWrites :
    let w : BitVec 22 := 0xE3808
    let u : BitVec 22 := 0xE3809
    let s := (at' .run).setLatch 1 (mw0Off w) (some 5)
    s.quiet = true ∧ s.hears (1 : Fin 2).val (.mdb 7) = true ∧ mw0Place (1 : Fin 2).val (mw0Off w) = .reg (.mdb 7) ∧
      isFaultReg (mw0Off w) = false ∧ isWide (mw0Off w) = true ∧ isUpper (mw0Off w) = false ∧
      s.wideDrop (1 : Fin 2).val (.mdb 7) (mw0Off w) = none ∧ mw0Off u = mw0Off w + 4 ∧
      mw0Place (1 : Fin 2).val (mw0Off u) = .reg (.mdb 7) ∧ isFaultReg (mw0Off u) = false ∧ isWide (mw0Off u) = false ∧
      s.wideDrop (1 : Fin 2).val (.mdb 7) (mw0Off u) = none ∧ (s.port (1 : Fin 2).val).latched (mw0Off w) = some 5 := by decide

theorem witness_UnansweredAccessIsReported :
    let s := at' .run
    let w : BitVec 22 := 0x68000
    s.noPort (1 : Fin 2) = false ∧ s.mw0Served (mw0Off w) = true ∧ mw0Place (1 : Fin 2) (mw0Off w) = .nothing := by decide

theorem witness_Mw2WriteThenReadReturnsTheBytes :
    let s := at' .run
    let off : BitVec 26 := 0x47FFF8
    s.quiet = true ∧ s.noPort (0 : Fin 2) = false ∧ s.noPort (1 : Fin 2) = false ∧ s.onlyGen = false ∧
      s.executing 17 = false ∧ s.inCopy 17 = false ∧ s.copyTarget 17 = false ∧ mw2Place off.toNat = .dmem 17 0x1FFF8 ∧
      off.toNat % 8 = 0 ∧ (List.replicate 8 (1 : Byte)).length = 8 ∧ (s.pe 17).dmem.wf = true := by decide

/-- Every PLL locked, PLL 0, 2 and 4 active, REFCLK_IN the reference. -/
def clkUp : State := ((at' .run).setReg CLK_STAT 0x00013FF0).setReg CLK_REF_CFG 5

theorem witness_ReferenceAndPllEvents_ref : clkUp.clocked = true ∧ clkUp.quiet = true ∧
    clkUp.hears (1 : Fin 2).val .clk = true ∧ clkUp.rd CLK_STAT CLK_STAT_REF_ACTIVE = 1 ∧
    clkUp.flag CLK_REF_CFG CLK_REF_CFG_REF_REVERT = true ∧ clkUp.rd CLK_REF_CFG CLK_REF_CFG_REF_SEL = 1 ∧
    (clkUp.regWrite CLK_REF_CFG 1).rd CLK_REF_CFG CLK_REF_CFG_REF_SEL ≤ 1 ∧ clkUp.bonded = false := by decide

theorem witness_ReferenceAndPllEvents_pll : clkUp.locked 5 = true ∧ clkUp.activePll 2 ≠ 5 ∧ clkUp.locked 4 = true ∧
    clkUp.activePll 2 = 4 ∧
    (let u := clkUp.wr CLK_STAT (pllBit 4) 0
     u.locked (u.standbyPll 2) = true ∧ u.autoClk 2 = true) ∧
    (let u := clkUp.regWrite CLK_PLL_CTRL 0x400
     (∀ e, e < 3 → bitOf (0x400 : Word).toNat (8 + e) = decide (e = 2)) ∧ u.locked (u.standbyPll 2) = true) ∧
    (let u := (clkUp.wr CLK_STAT (pllBit 5) 0).regWrite CLK_PLL_CTRL 0x400
     u.locked (u.standbyPll 2) = false) ∧
    (let u := clkUp.wr CLK_STAT (pllBit 6) 0
     u.flag CLK_PLL_CTRL CLK_PLL_CTRL_MDB_FB_AUTO = true ∧ u.flag CLK_STAT CLK_STAT_MDB_FALLBACK = false) ∧
    (let u := clkUp.wr CLK_STAT (pllBit 7) 0
     u.flag CLK_PLL_CTRL CLK_PLL_CTRL_PSQ_FB_AUTO = true ∧ u.flag CLK_STAT CLK_STAT_PSQ_FALLBACK = false) := by decide

theorem witness_ReferenceAndPllEvents_window : ∀ k, k < 7 → clkUp.monVerdict (monFreqs.getD k 0)
    ([50000, 40000, 25000, 25000, 25000, 8000, 20040].getD k (0 : BitVec 24)).toNat = none := by decide

theorem witness_PowerOnResetReturnsEveryField : (at' .run).boot.porst = false ∧ (at' .run).m10 = false := by decide

/-- BOOT at a stage, with an image in slot B that fits and both supplies valid. -/
def bootAt (n : Nat) : State :=
  { State.reset with
    portA := portUp, boot := { BootSt.reset with hifServes := true, hostRead := none }
    flashB := ⟨1, [], true, some 1, 0⟩ }.setStage n

theorem witness_BootRunsStageByStage_release :
    let s := { State.reset with
      boot := { BootSt.reset with porst := true }
      pwr := { PwrSt.reset with present := true, on := true, rails := true, supply := true, pin := true, hot := false } }
    s.quiet = true ∧ s.boot.porst = true ∧ { s with pwr := { s.pwr with pin := false } }.mayRelease = true ∧
    { { s with pwr := { s.pwr with pin := false } } with pwr := { s.pwr with pin := false, rails := true } }.mayRelease = true := by
  decide

theorem witness_BootRunsStageByStage_stages : (bootAt 0).quiet = true ∧ (bootAt 1).booting = true ∧ (bootAt 1).stage ≤ 1 ∧
    (bootAt 1).regsWf = true ∧ (bootAt 3).booting = true ∧ (bootAt 3).stage = 3 ∧ (bootAt 3).nvm.trial = none ∧
    (bootAt 3).nvm.updLog = [] ∧ (bootAt 3).boot.trialLost = none ∧
    (let u := (((bootAt 3).showVersion false).showVersion true).setStage 4
     u.rd GEN_BOOT_CFG GEN_BOOT_CFG_SRC ≠ 3 ∧ u.slotChoice = some true) ∧
    (bootAt 5).booting = true ∧ (bootAt 5).stage = 5 ∧ (bootAt 6).stage = 6 ∧
    (bootAt 6).flag GEN_BOOT_STAT GEN_BOOT_STAT_WAIT_HOST = false := by decide

theorem witness_BootRunsStageByStage_host :
    let s := (bootAt 4).wr GEN_BOOT_STAT GEN_BOOT_STAT_WAIT_HOST 1
    let r := { s with boot := { s.boot with hostRead := some 0 } }
    s.hears (0 : Fin 2).val .gen = true ∧ bitOf (1 : Word).toNat 0 = true ∧ s.booting = true ∧
      s.flag GEN_BOOT_STAT GEN_BOOT_STAT_WAIT_HOST = true ∧ s.boot.hostRead = none ∧ r.booting = true ∧ 4 ≤ r.stage ∧
      r.boot.hostRead = some (0 : Fin 2).val ∧ r.rd GEN_HOSTIMG_LEN GEN_HOSTIMG_LEN_LEN ≤ 0x1000000 ∧
      r.nvm.minVersion ≤ (0 : Word).toNat := by decide

theorem witness_MarchEndsInStageThree : (bootAt 2).booting = true ∧ (bootAt 2).stage = 2 := by decide

/-- CMD ring 3 of port A posted with one command, its completions bound to RSP ring 4, in a mode. -/
def cmdAt (m : Mode) : State :=
  ((((at' m).wr (HIF_RING_CFG 3) HIF_RING_CFG_TYPE 3).wr (HIF_RING_CFG 4) HIF_RING_CFG_TYPE 4).wr (HIF_RING_BIND 3)
    HIF_RING_BIND_BIND 4).setRing 3 { Ring.reset with state := .active, pidx := 1 } |>.setRing 4
    { Ring.reset with state := .active, pidx := 16 }

theorem witness_takes : (cmdAt .run).takes 3 Mode.working = true ∧ (cmdAt .config).takes 3 Mode.working = true ∧
    (cmdAt .run).quiet = true ∧ (cmdAt .run).canon = true := by decide

theorem witness_ImageUpdateCommands :
    let s := cmdAt .run
    let u : UpdRun := ⟨true, 16, 1, 0⟩
    let w : UpdRun := ⟨true, 16, 1, 16⟩
    s.upd = none ∧ s.isTrial = false ∧ (s.take 3).nvm.trial ≠ some (s.take 3).updTarget ∧
    (0x1000000 : BitVec 64).toNat % 2 ^ 25 ≤ 0x1000000 ∧ { s with upd := some u }.takes 3 Mode.working = true ∧
    (0 : BitVec 64).toNat % 2 ^ 25 = u.got ∧ u.got + (16 : BitVec 64).toNat % 2 ^ 21 ≤ u.len ∧
    { s with upd := some w }.takes 3 Mode.working = true ∧ w.got = w.len ∧ s.nvm.minVersion ≤ w.version ∧
    (0 : BitVec 64).toNat % 2 ^ 32 ≤ s.boot.runVersion ∧
    (s.wr GEN_BOOT_STAT GEN_BOOT_STAT_TRIAL 1).takes 3 Mode.working = true ∧
    (s.wr GEN_BOOT_STAT GEN_BOOT_STAT_TRIAL 1).isTrial = true := by decide

theorem witness_RefusedModeRequestIsReported : ((at' .boot).modeRequest 2 false none).1 ≠ 0 ∧ (at' .boot).regsWf = true := by
  decide

theorem witness_HostModeRequestsAct_register :
    (at' .config).hears (1 : Fin 2).val .gen = true ∧ (2 : Word).toNat % 8 = 2 ∧ (at' .config).enteringStandby = false ∧
      (at' .degraded).hears (0 : Fin 2).val .gen = true ∧ (at' .degraded).inBlackout = false ∧
      (at' .safe).quiesce = none ∧ hostMayAsk Mode.run 2 = false := by decide

theorem witness_HostModeRequestsAct_safe :
    let s := (at' .safe).wr SIO_STAT SIO_STAT_ACK_OK 1
    s.enteringStandby = false ∧ s.boot.stopped = false ∧ s.fatalUncleared = false ∧ s.flag SIO_STAT SIO_STAT_ACK_OK = true ∧
      (0x102 : Word).toNat % 8 = 2 ∧ bitOf (0x102 : Word).toNat 8 = true := by decide

theorem witness_HostModeRequestsAct_command :
    let s := cmdAt .config
    s.takes (3 : Fin 512).val Mode.working = true ∧ s.mode = .config ∧ s.enteringStandby = false := by decide

theorem witness_ResetKeyGuardsEveryReset : (at' .run).hears (0 : Fin 2).val .gen = true ∧ (0x5A : BitVec 8) ≠ 0xA5 ∧
    BitVec.ofNat 8 (bitsOf (0x5A000001 : Word).toNat 31 24) = (0x5A : BitVec 8) ∧
    (at' .run).badBlock (0 : Fin 2).val (0x13 : BitVec 5).toNat = false := by decide

theorem witness_SupervisorAndQuiesceEvents_supervisors :
    (at' .run).scRuns = true ∧ ((at' .run).scFailed 0).scUsable 1 = true ∧
      (let s := { at' .run with boot := { BootSt.reset with scFail1 := true } }
       s.scRuns = true ∧ (s.scFailed 0).scUsable 1 = false) := by decide

theorem witness_SupervisorAndQuiesceEvents_power :
    let q : Quiesce := ⟨.eject, false, false, false, false, false, false⟩
    let s := { at' .run with pwr := { PwrSt.reset with present := true, on := true } }
    let e := { s with quiesce := some q }
    s.pwr.on = true ∧ s.pwr.present = true ∧ s.scRuns = true ∧ e.ejecting = true ∧ e.pwr.present = true ∧
      e.pwr.eject = false ∧ s.flag GEN_MODE_STAT GEN_MODE_STAT_QUIESCED = false ∧
      (s.wr GEN_MODE_STAT GEN_MODE_STAT_QUIESCED 1).flag GEN_MODE_STAT GEN_MODE_STAT_QUIESCED = true ∧ q.drained = false ∧
      q.early = false ∧ q.kind ≠ .standby ∧ q.kind ≠ .warm ∧ { q with drained := true, flushed := true }.flushed = true ∧
      { q with kind := .standby, flushed := true }.kind = .standby := by decide

theorem witness_SupervisorAndQuiesceEvents_wake :
    let s := ((at' .standby).wr (WAKE_BUS_CFG 7) WAKE_BUS_CFG_STBY_EN 1).wr WAKE_CTRL WAKE_CTRL_PIN_EN 1
    s.mode = .standby ∧ s.flag (WAKE_BUS_CFG (7 : Fin 8).val) WAKE_BUS_CFG_STBY_EN = true ∧
      s.flag WAKE_CTRL WAKE_CTRL_PIN_EN = true := by decide

/-- Engine 17 runs bundle 0 with nothing in flight; w1 and w2 hold values. -/
def engAt : State :=
  (at' .run).setPe 17 { Engine.reset with state := .run, w := (Engine.reset.w.set 1 0x80000000).set 2 0xFFFFFFFF }

theorem witness_engAt : engAt.quiet = true ∧ engAt.issues 17 = true ∧ (engAt.pe 17).calm = true ∧
    (engAt.pe 17).w[(1 : Fin 32)] = 0x80000000 := by decide

theorem witness_ImmediateAndUnaryOfSlotZero : (31 : BitVec 16).toNat < 32 ∧ (0 : Fin 32).val + (31 : Fin 32).val + 1 ≤ 32 ∧
    engAt.quiet = true ∧ engAt.issues 17 = true ∧ (engAt.pe 17).calm = true := by decide

theorem witness_AccumulatorAndFlagInstructions : engAt.quiet = true ∧ engAt.issues 17 = true ∧ (engAt.pe 17).calm = true ∧
    (2 : Fin 4).val ≠ 3 ∧ (8 : Fin 16).val ≤ 8 ∧ (0x3FF : BitVec 16).toNat < 1024 := by decide

theorem witness_CrcAndUndefinedEncodings : engAt.quiet = true ∧ engAt.issues 17 = true ∧ (engAt.pe 17).calm = true ∧
    (engAt.stays 17 F_PE_ILLEGAL = true) ∧ (Instr.push 17 30).wellFormed = false := by decide
theorem witness_CrcAndUndefinedEncodings_nop :
    let s := engAt.setReg (FMASK (.pe 17)) 0xFFFFFFFF
    s.issues 17 = true ∧ s.stays 17 F_PE_ILLEGAL = false := by decide

/-- Engine 17 stands in RUN with w1 at the start of DMEM. -/
def engDm : State := (at' .run).setPe 17 { Engine.reset with state := .run, w := Engine.reset.w.set 1 0x10000000 }

theorem witness_LoadsFromDmem : engDm.quiet = true ∧ engDm.closes 17 = true ∧
    (BitVec.ofInt 32 ((engDm.pe 17).w[(1 : Fin 32)].toInt + (0x7FF8 : BitVec 16).toInt)).toNat = 0x10007FF8 ∧
    (engDm.pe 17).dmem.isBad 0x7FF8 = false ∧ pairBase 28 = true := by decide

theorem witness_StoresToDmem : engDm.quiet = true ∧ engDm.closes 17 = true ∧
    (BitVec.ofInt 32 ((engDm.pe 17).w[(1 : Fin 32)].toInt + (0x7FF8 : BitVec 16).toInt)).toNat = 0x10007FF8 ∧
    (engDm.pe 17).dmem.wf = true ∧ (30 : Fin 32).val % 2 = 0 := by decide

theorem witness_AccessesThatFaultOrGoFar : engDm.quiet = true ∧ engDm.closes 17 = true ∧
    (Instr.ld 17 2 1 1 .double).wellFormed = true ∧ regionOf 0x10000001 = .dmem 1 ∧ regionOf 0x1FFFFFF8 = .nothing ∧
    regionOf 0x20002FFC = .mbx 0xFFC ∧ regionOf 0x407FFFF8 = .bank 0x7FFFF8 ∧ (engDm.pe 17).wbuf.length < 8 := by decide

/-- Engine 17 with its breakpoint at the bundle it stands at. -/
def engBp : State := engAt.setReg (PE_BP 17) 0x80000000

theorem witness_TransfersStart : engAt.quiet = true ∧ engAt.closes 17 = true ∧ engBp.quiet = true ∧
    (engBp.pe 17).canIssue = true ∧ (engBp.pe 17).half = false ∧ engBp.atBreakpoint 17 = true := by decide

theorem witness_TransferReachesItsTarget : engAt.quiet = true ∧ engAt.issues 17 = true ∧ (engAt.pe 17).calm = true ∧
    engAt.flag (PE_BP 17) PE_BP_EN = false ∧ (engAt.pe 17).imem.bad = [] := by decide

/-- Engine 17 in RUN with w31 at the middle, the top and the limit of its stack. -/
def engSp (sp : Word) : State := (at' .run).setPe 17 { Engine.reset with state := .run, w := Engine.reset.w.set 31 sp }

theorem witness_CallsAndTheStack : (engSp 0x10020000).quiet = true ∧ (engSp 0x10020000).closes 17 = true ∧ pairBase 28 = true ∧
    (engSp 0x10020000).pe 17 = { Engine.reset with state := .run, w := Engine.reset.w.set 31 0x10020000 } ∧
    Engine.reset.stackLimit.toNat + 8 ≤ 0x10020000 ∧ (0x10020000 - 8 : Word).toNat = 0x1001FFF8 ∧ Engine.reset.xfer = none := by
  decide

theorem witness_CallsAndTheStack_pop : (engSp 0x1001FFF8).quiet = true ∧ (engSp 0x1001FFF8).closes 17 = true ∧
    0x1001FFF8 + 8 ≤ 0x10000000 + 8 * (engSp 0x1001FFF8).rd (PE_SP_INIT 17) PE_SP_INIT_TOP ∧
    ((engSp 0x1001FFF8).pe 17).dmem.isBad 0x1FFF8 = false ∧
    0x10000000 + 8 * (engSp 0x10020000).rd (PE_SP_INIT 17) PE_SP_INIT_TOP < 0x10020000 + 8 ∧
    (0x10018000 : Word).toNat < Engine.reset.stackLimit.toNat + 8 := by decide

theorem witness_BundleOfTwoSlots : engAt.quiet = true ∧ engAt.issues 17 = true ∧ (engAt.pe 17).calm = true ∧
    (Instr.ext 17 1 2 8 true 2 false).wellFormed = true ∧ (Instr.ins 17 1 2 31 0 false).wellFormed = true ∧
    (Instr.clrf 17 0x3FF false).wellFormed = true := by decide

/-- Engine 17 in RUN for slot 2. -/
def engFau : State :=
  (((at' .run).setReg (SWC_SLOT_BUF 2) 200).setSlot 2 { SlotSt.free with bound := true }).setPe 17
    { Engine.reset with state := .run, slot := some 2 }

/-- The same with a 64-byte frame waiting in queue 3. -/
def engFrame : State :=
  let (fid, s) := engFau.store { bytes := List.replicate 64 0, src := 0, port := 0, ring := none, slot := none, tsNs := 0, tsFrac := 0, err := false, bad := false, redelivered := false, entry := 0xFFFF, tagged := false, tci := 0, vid := 0, pcp := 0, dei := false, gen := 0, op := 0, opVid := 0, oneStep := false, report := none, txSlot := none, redSeq := none }
  (s.setEq 2 3 [fid]).onFau 17 fun f => { f with qen := 0xFF }

/-- The same with that frame open, and a transmit frame of 60 bytes. -/
def engOpen : State :=
  (engFrame.setEq 2 3 []).onFau 17 fun f => { f with rx := some (3, 1), tx := some ⟨60, [], [], 1⟩ }

theorem witness_FrameAccessUnitCommands : engFau.quiet = true ∧ (engFrame.pe 17).canIssue = true ∧ (engFrame.pe 17).slot = some 2 ∧
    (engFrame.pe 17).fau.rx = none ∧ engFrame.eq 2 3 = [1] ∧ (engFrame.frame 1).isSome = true ∧
    [7, 6, 5, 4, 3, 2, 1, 0].find? (fun q => bitOf (engFrame.pe 17).fau.qen q && !(engFrame.eq 2 q).isEmpty) = some 3 ∧
    engFrame.admitSlot 2 (cellsOf 60) = true ∧ engFrame.admitSlot 2 (cellsOf 9216) = true := by decide +kernel

theorem witness_FrameAccessUnitCommands_open : (engOpen.pe 17).canIssue = true ∧ (engOpen.pe 17).fau.rx = some (3, 1) ∧
    (((engOpen.flushWindow 17 true).onFau 17 fun f => { f with rx := none, rxAhead := false }).frame 1).isSome = true ∧
    (((engOpen.flushWindow 17 false).onFau 17 Fau.flush).pe 17).fau.tx = some ⟨60, [], [], 1⟩ ∧
    (((engFrame.flushWindow 17 false).onFau 17 Fau.flush).pe 17).fau.tx = none := by decide +kernel

/-- Engine 17 in RUN with a snapshot pending and timer 1 on. -/
def engTm : State := (at' .run).setPe 17 { Engine.reset with
  state := .run, slot := some 2, snapPend := true, timers := Engine.reset.timers.set 1 { EtTimer.reset with en := true },
  wdog := 500000 }

theorem witness_EngineTimersEventsAndBoundaries : engTm.quiet = true ∧ (engTm.pe 17).canIssue = true ∧ engTm.regsWf = true ∧
    (engTm.pe 17).snapPend = true ∧ (engTm.pe 17).stall = none ∧ ((engTm.pe 17).timers[(1 : Fin 4)]).en = true ∧
    (engTm.pe 17).inReset = false := by decide

theorem witness_EngineTimersEventsAndBoundaries_wait :
    let s := (engTm.setReg (PE_WDOG 17) 1000).onPe 17 fun e => { e with state := .wait, snapReady := true, even := 0x8000 }
    s.quiet = true ∧ (s.pe 17).state = .wait ∧ s.ecsEvent 17 &&& (s.pe 17).even ≠ 0 ∧
      500 * s.rd (PE_WDOG 17) PE_WDOG_TIMEOUT ≤ (s.pe 17).wdog ∧ s.rd (PE_WDOG 17) PE_WDOG_TIMEOUT ≠ 0 := by decide

theorem witness_EngineTimersEventsAndBoundaries_txts :
    let h : TxTs := ⟨0, 0, 0, false, 0⟩
    let s := { engTm with swc := { engTm.swc with txts := [(2, ([h], 3))] } }
    s.quiet = true ∧ (s.pe 17).canIssue = true ∧ SMap.get (fun _ => ([], 0)) s.swc.txts 2 = ([h], 3) := by decide

/-- Engine 17 in a state. -/
def engSt (x : PeState) : State := (at' .run).setPe 17 { Engine.reset with state := x }

theorem witness_EngineControlCommands : (engSt .loaded).quiet = true ∧ (engSt .loaded).hears 0 (.pe 17) = true ∧
    ((engSt .loaded).pe 17).inReset = false ∧ ((engSt .loaded).pe 17).state = .loaded ∧ ((engSt .run).pe 17).state = .run ∧
    ((engSt .run).pe 17).stopPend = false ∧ (engSt .halt).hears 1 (.pe 17) = true ∧
    (engSt .halt).rd (PE_DBG_SEL 17) PE_DBG_SEL_SEL = (0 : Fin 32).val ∧
    ((engSt .halt).setReg (PE_DBG_SEL 17) 40).rd (PE_DBG_SEL 17) PE_DBG_SEL_SEL = 40 ∧
    (((engSt .run).pe 17).imem.bad.contains ((engSt .run).pe 17).scrubAt || ((engSt .run).pe 17).dmem.bad.contains
      ((engSt .run).pe 17).scrubAt) = false ∧
    (((engSt .run).onPe 17 fun e => { e with inReset := true }).pe 17).startAfter = false := by decide

/-- A stored image whose declaration leaves room for one parameter line. -/
def anImage : Image := ⟨7, List.replicate 0xA4 0 ++ [64] ++ List.replicate 475 0, [], List.replicate 8 0, [], [0]⟩

/-- A command posted with that image in the store. -/
def persAt (m : Mode) : State :=
  { cmdAt m with pers := { PersSt.reset with images := [anImage] }, nvm := { (cmdAt m).nvm with keys := [([], false)] } }

theorem witness_PersonalityCommands : (persAt .config).takes 3 (· == .config) = true ∧
    ((persAt .config).take 3).nvm.keys.length < 8 ∧ ((persAt .config).take 3).nvm.keys[0]? = some ([], false) ∧
    ((persAt .config).take 3).nvm.keys[1]? = none ∧ (persAt .run).takes 3 Mode.working = true ∧
    ((persAt .run).take 3).image 7 = some anImage ∧ ((persAt .run).take 3).image 8 = none ∧
    ((List.range 16).any fun l => (((persAt .run).take 3).slot l).bound && (((persAt .run).take 3).slot l).img == 7) = false ∧
    ((persAt .run).take 3).dmaOk (((persAt .run).take 3).ring 3).port = true ∧
    ((persAt .run).take 3).checkImage [] = (stBadImage, parseImage []) := by decide +kernel

theorem witness_PersonalityCommands_bind :
    let u := (persAt .run).take 3
    (u.slot 0).bound = false ∧ u.resourcesFor 0 anImage = true ∧ noCommon (capRecs anImage.caps) [] = false ∧
    4 * (u.paramBlock anImage []).length ≤ anImage.paramLen ∧ u.pinBroken 0 = false ∧ (u.placeSlot 0 false).isSome = true := by
  decide +kernel

theorem witness_PersonalityCommands_unbind :
    let s := (cmdAt .run).setSlot 5 { SlotSt.free with bound := true }
    let b := s.setSlot 5 { SlotSt.free with bound := true, unbind := some 3 }
    s.takes 3 Mode.working = true ∧ ((s.take 3).slot 5).bound = true ∧ ((s.take 3).slot 5).unbind = none ∧
    (s.take 3).pers.mig = none ∧ (b.slot 5).unbind = some 3 ∧ b.pers.mig = none := by decide

/-- A command posted with slot 2 bound to a migratable image on engine 0. -/
def migAt : State :=
  (({ cmdAt .run with pers := { PersSt.reset with
      images := [⟨7, List.replicate 0x9C 0 ++ [1] ++ List.replicate 483 0, [], [], [], []⟩] } } : State).setSlot 2
    { SlotSt.free with bound := true, img := 7 }).setPe 0 { Engine.reset with state := .run, slot := some 2 }

/-- A migration of slot 2 from engine 0 to engine 1 in a phase. -/
def migIn (p : MigPhase) (st : PeState) : State :=
  (migAt.onPe 0 fun e => { e with state := st }).setMig (some ⟨2, 0, 1, p, [(0, true)], 0, 0, false, [3], []⟩)

theorem witness_MigrationCommandsAndEvents : migAt.takes 3 Mode.running = true ∧
    (((migAt.take 3).slotImage 2).map Image.migratable) = some true ∧ (migAt.take 3).servingPe 2 = some 0 ∧
    (migAt.take 3).pers.mig = none ∧ ((migAt.take 3).placeSlot 2 false).isSome = true ∧ (migAt.take 3).idlePe 17 = true ∧
    migAt.takes 3 Mode.working = true ∧ ((migAt.take 3).pe 17).state ≠ .failed ∧ ((migAt.take 3).pe 17).slot = none := by
  decide +kernel

theorem witness_MigrationCommandsAndEvents_run :
    (migIn .prepare .run).takes 3 Mode.running = true ∧ ((migIn .prepare .run).take 3).inBlackout = false ∧
    ((migIn .prepare .run).slotImage 2).isSome = true ∧
    ((migIn .precopy .run).wr WADI_MIG_DIRTY WADI_MIG_DIRTY_PASS 2).rd WADI_MIG_DIRTY WADI_MIG_DIRTY_PASS ≠ 1 ∧
    1 ≤ (migIn .precopy .run).stopThr ∧ ((migIn .stopwait .run).pe 0).state ≠ .stopped ∧
    ((migIn .stopwait .stopped).pe 0).state = .stopped ∧ 1 ≤ (migIn .stopwait .stopped).finalMax := by decide +kernel

/-- A command posted with proposal 1 open. -/
def wadiAt : State := { cmdAt .run with wadi := { WadiSt.reset with props := [⟨1, 1, 0, 0, 1, 9, false, false⟩] } }

/-- A pending move of function 6, and a function that is host-assisted with no rings bound. -/
def funcAt (host : Bool) : State :=
  ((at' .run).wr (WADI_FUNC 6) WADI_FUNC_PENDING 1).wr (WADI_FUNC 6) WADI_FUNC_FUNC_MODE (b2n host)

theorem witness_WadiDecidesAndSplitsFunctions : (at' .run).firmware = true ∧ (at' .run).wadi.skip = false ∧
    wadiAt.takes 3 Mode.working = true ∧ (wadiAt.take 3).wadi.props.any (·.id == 1) = true ∧
    (wadiAt.take 3).wadi.props.any (·.id == 0) = false ∧ (at' .run).hears 1 .wadi = true ∧
    (funcAt false).flag (WADI_FUNC 6) WADI_FUNC_PENDING = true ∧ (funcAt false).funcMoving 6 = false ∧
    (funcAt false).flag (WADI_FUNC 6) WADI_FUNC_FUNC_MODE = false ∧ (funcAt true).flag (WADI_FUNC 6) WADI_FUNC_FUNC_MODE = true ∧
    (funcAt true).funcRings 6 = false ∧ byPersonality 6 = false ∧
    ((at' .run).wr (WADI_FUNC 6) WADI_FUNC_CUR 1).funcHost 6 = true := by decide +kernel

/-- A march of spare buffer bank 60 runs, and a repair stands at a step. -/
def memAt (k : Nat) : State := { at' .run with mem := { (at' .run).mem with
  march := some ⟨false, true, 60⟩, handover := some ⟨5, 0x10, 0x11, 0, none⟩, repair := some ⟨true, 3, 3, 50, k⟩ } }

theorem witness_MemoryBanksAndRepairs : (at' .run).quiet = true ∧
    (at' .run).flag MEM_SCRUB_CFG MEM_SCRUB_CFG_EN = true ∧ (71 : Fin 72).val < physBanks false ∧
    ((at' .run).bank false 71).mem.bad.contains ((at' .run).bank false 71).scrubAt = false ∧
    (at' .run).hears 0 .mem = true ∧ Mode.run.ownReq = true ∧ (at' .run).owner 63 ≠ 0x20 ∧ (at' .run).mem.handover = none ∧
    (at' .run).mem.march = none ∧ (at' .run).mem.repair = none ∧ (63 : Fin 64).val < logicalBanks false ∧
    (at' .run).mem.asks.contains (false, 63) = false ∧ (memAt 1).quiet = true := by decide +kernel

/-- Slot 0 has channel 0 routed to mailbox 2 of the host endpoint 17; with `full`, a message of 3 words stands there. -/
def mbxAt (full : Bool) : State :=
  let s := (((at' .run).wr (MBX_ROUTE 0) MBX_ROUTE_EN 1).wr (MBX_ROUTE 0) MBX_ROUTE_DEST 17).wr (MBX_ROUTE 0) MBX_ROUTE_MB 2
  if full then s.setInbox 17 2 { Inbox.empty with full := true, len := 3 } else s

theorem witness_MailboxesAndDoorbells : (mbxAt false).inBlkReset .mbx = false ∧ (mbxAt false).hears 1 .mbx = true ∧
    (mbxAt false).routeEn 0 = true ∧ (mbxAt false).routeDest 0 = 17 ∧ (mbxAt false).routeMb 0 = 2 ∧
    ((mbxAt false).inbox 17 2).full = false ∧ (mbxAt false).routeEn 75 = false ∧
    ((mbxAt true).inbox 17 2).full = true ∧ ((mbxAt true).inbox 17 2).len = 2 + 1 ∧
    ((mbxAt true).inbox 17 2).agedOnce = false ∧ (mbxAt true).rd MBX_AGE_LIMIT MBX_AGE_LIMIT_LIMIT ≠ 0 ∧
    (mbxAt false).routeBad 75 0 = false ∧ (mbxAt false).routeBad 1 0x80001300 = true ∧ (mbxAt false).bonded = false := by
  decide +kernel

/-- Ring 511, of type FTX and size 16, in a state under port 1 whose doorbell page is enabled. -/
def ringAt (st : RingState) (rel : Option Nat) : State :=
  ((((cmdAt .run).wr (HIF_DB_BASE 1) HIF_DB_BASE_EN 1).wr (HIF_RING_CFG 511) HIF_RING_CFG_SIZE 4)).setRing 511 { Ring.reset with
    state := st, port := 1, release := rel, modBusy := true }

theorem witness_RingsAreBoundDrainedAndAdopted : (ringAt .disabled none).hears 1 .hif = true ∧
    bitOf (0x80000000 : Word).toNat 31 = true ∧ ((ringAt .disabled none).ring 511).state = .disabled ∧
    ((ringAt .disabled none).regWrite (HIF_RING_CFG 511) 0x80000000).badBind 1 511 = true ∧
    ((ringAt .disabled none).regWrite (HIF_RING_CFG 511) 0x84000000).badBind 1 511 = false ∧
    ((ringAt .disabled none).regWrite (HIF_RING_CFG 511) 0x84000000).ringsUnder 1 <
      ((ringAt .disabled none).regWrite (HIF_RING_CFG 511) 0x84000000).ringLimit ∧
    ((ringAt .active none).ring 511).port = 1 ∧ (at' .run).ringsUnder 0 = 0 ∧
    ((ringAt .draining none).flushPosted 511 stFlushed).ringDrained 511 = true ∧
    (ringAt .draining (some 3)).ringDrained 511 = true := by decide +kernel

theorem witness_RingsAreBoundDrainedAndAdopted_commands : (ringAt .active none).dmaOk 1 = true ∧
    (ringAt .active none).flag (HIF_DB_BASE 1) HIF_DB_BASE_EN = true ∧ (ringAt .active none).mode ≠ .standby ∧
    (ringAt .active none).ringType 511 < 4 ∧ bitsOf (0x10010 : Word).toNat 31 16 ≠ ((ringAt .active none).ring 511).seq ∧
    ((ringAt .active none).ring 511).cidx + (ringAt .active none).ringSize 511 = 16 ∧
    ((ringAt .active none).ring 511).modBusy = true ∧ ((ringAt .active none).ring 511).modWait = false ∧
    (ringAt .orphaned none).takes 3 Mode.working = true ∧
    adoptParams 0x101FF 0 = true ∧
    ((List.range 1).all fun k => (((ringAt .orphaned none).take 3).ring (511 + k)).state == .orphaned) = true ∧
    ((ringAt .orphaned none).take 3).ringsUnder 0 + 1 ≤ ((ringAt .orphaned none).take 3).ringLimit ∧
    (((cmdAt .run).take 3).ring 4).state = .active ∧ (((cmdAt .run).take 3).ring 4).port = 0 := by decide +kernel

/-- 256 rings stand ACTIVE under port 1. -/
def ringsFull : State :=
  { ringAt .disabled none with rings := (List.range 256).map fun k => (k, { Ring.reset with state := .active, port := 1 }) }

theorem witness_RingsAreBoundDrainedAndAdopted_full :
    (ringsFull.regWrite (HIF_RING_CFG 511) 0x84000000).badBind 1 511 = false ∧
    (ringsFull.ring 511).state = .disabled ∧
    (ringsFull.regWrite (HIF_RING_CFG 511) 0x84000000).ringLimit ≤
      (ringsFull.regWrite (HIF_RING_CFG 511) 0x84000000).ringsUnder 1 := by decide +kernel

/-- Ring 3 of port 0, of a type, with one descriptor posted. -/
def workAt (type : Nat) : State :=
  ((cmdAt .run).wr (HIF_RING_CFG 3) HIF_RING_CFG_TYPE type).wr (HIF_RING_BIND 3) HIF_RING_BIND_BIND 0

/-- A frame of 64 bytes. -/
def aFrame (bad : Bool) : Frame :=
  { bytes := List.replicate 64 0, src := 0, port := 5, ring := none, slot := none, tsNs := 0, tsFrac := 0, err := false, bad := bad
    redelivered := false, entry := 0xFFFF, tagged := false, tci := 0, vid := 0, pcp := 0, dei := false, gen := 0, op := 0, opVid := 0
    oneStep := false, report := none, txSlot := none, redSeq := none }

/-- That frame stored and queued for ring 3. -/
def frxAt (bad : Bool) : State :=
  let r := (workAt 1).store (aFrame bad)
  r.2.setFrxQ 3 [r.1]

theorem witness_HostPortsAndDescriptors : (at' .run).noPort 1 = false ∧ ((at' .run).port 1).up = true ∧
    ((at' .run).port 1).d3hot = false ∧ (State.reset.port 1).up = false ∧ (State.reset.port 1).perst = false ∧
    (State.reset.port 1).clockFailed = false ∧ State.reset.mode ≠ .standby ∧ State.reset.noPort 1 = false ∧
    ((at' .run).setPort 1 { portUp with perst := true }).noPort 1 = false ∧
    (workAt 0).hasWork 3 0 = true ∧ (workAt 0).posted 3 = 1 ∧ ftxChain [(0, 64)] = [(0, 64)] ∧ ftxBad [(0, 64)] 64 64 = false ∧
    ftxBad [(0, 63)] 63 63 = true ∧ ((workAt 0).ringStart 3 1).admitRing 3 (cellsOf 64) = true ∧
    (workAt 2).hasWork 3 2 = true ∧ pdxBad 0 8 0 0 = false ∧ pdxBad 0 7 0 0 = true ∧
    (workAt 2).mayAccess ((workAt 2).pdxOwner 3) 0 = some false ∧ ((workAt 2).ring 3).port = 0 ∧ (workAt 2).ringType 3 = 2 ∧
    (cmdAt .run).takes 3 (fun _ => true) = true ∧ (0xFF : BitVec 8).toNat ≥ 0xC0 := by decide +kernel

theorem witness_HostPortsAndDescriptors_frames : (frxAt false).frxQ 3 = [1] ∧ (frxAt false).frame 1 = some (aFrame false) ∧
    (frxAt true).frame 1 = some (aFrame true) ∧ (frxAt false).hasWork 3 1 = true ∧ (frxAt false).posted 3 = 1 ∧
    frxLen (1, 256) = none ∧ frxLen (64, 9216) = some 9216 := by decide +kernel

theorem witness_HostPortsAndDescriptors_owner :
    let s := { workAt 2 with mem := { (workAt 2).mem with owner := [(0, 0x21)] } }
    s.hasWork 3 2 = true ∧ s.mayAccess (s.pdxOwner 3) 0 = some true := by decide +kernel

/-- Port 15 searches in a mode; with `an`, by Clause 73. -/
def macSearch (m : Nat) (an : Bool) : State :=
  let s := ((((at' .run).wr (MAC_CTRL 15) MAC_CTRL_EN 1).wr (MAC_MODE 15) MAC_MODE_ALLOW 62).wr (MAC_MODE 15) MAC_MODE_AN73 (b2n an))
  s.setMac 15 { s.mac 15 with trying := m }

/-- The link of port 15 is up, and it sends the frame 1. -/
def macUp (q : List TxEnt) : State :=
  let s := (macSearch 1 false).wr (MAC_STAT 15) MAC_STAT_LINK 1
  let r := s.store (aFrame false)
  (r.2.setMac 15 { s.mac 15 with sending := if q.isEmpty then some ⟨1, List.replicate 64 0, false, 0, 0, false⟩ else none }).setTq 15 7 q

theorem witness_MacCommandsAndFrames : (at' .run).hears 1 (.mac 15) = true ∧ (at' .run).macEn 15 = false ∧
    (macSearch 1 false).macEn 15 = true ∧ (macSearch 1 false).hears 1 (.mac 15) = true ∧ (macSearch 1 false).portDown 15 = false ∧
    (macSearch 1 false).searching 15 = true ∧ (macSearch 5 false).searching 15 = true ∧ (macSearch 5 true).searching 15 = true ∧
    ((macSearch 1 false).allowed 15).contains 2 = true ∧ ((macSearch 5 false).allowed 15).contains 4 = true ∧
    ((macSearch 1 false).allowed 15).contains 1 = true ∧ rateOk 1 6 = true ∧ ((macSearch 5 true).mac 15).negFail = false ∧
    ((macSearch 5 true).mac 15).parityAt = none ∧ (macUp []).linkUp 15 = true ∧
    (macUp []).flag (MAC_CFG 15) MAC_CFG_PASS_BAD = false ∧ ((macUp []).mac 15).sending.isSome = true ∧
    ((macUp []).frame 1).isSome = true ∧ (cmdAt .run).takes 3 Mode.working = true ∧
    ((cmdAt .run).take 3).rd (WADI_FUNC 7) WADI_FUNC_CUR ≠ 1 := by decide +kernel

/-- A frame of 64 bytes with an EtherType and its FCS; a PAUSE frame with opcode 1. -/
def wireFrame (hi lo : Byte) : List Byte := withFcs (List.replicate 12 0 ++ [hi, lo, 0, 1, 0, 5] ++ List.replicate 42 0)

theorem witness_MacCommandsAndFrames_frames :
    (macUp []).rxKind 15 (wireFrame 0x88 0x08) false false = none ∧
    etherType ((macUp []).rd (MAC_VLAN 15) MAC_VLAN_TPID) (wireFrame 0x88 0x08) = 0x8808 ∧
    pauseTime ((macUp []).rd (MAC_VLAN 15) MAC_VLAN_TPID) (wireFrame 0x88 0x08) = some 5 ∧
    (macUp []).rxKind 15 (wireFrame 8 0) false false = none ∧
    etherType ((macUp []).rd (MAC_VLAN 15) MAC_VLAN_TPID) (wireFrame 8 0) ≠ 0x8808 ∧
    (macUp []).rd (MAC_CFG 15) MAC_CFG_ACCEPT = 0 ∧ (macUp []).redRole 15 = 0 ∧
    ((macUp []).countFrame 15 0 (wireFrame 8 0)).pairOf 15 = none ∧
    ((macUp []).wr (MAC_CFG 15) MAC_CFG_PAUSE_RX 1).flag (MAC_CFG 15) MAC_CFG_PAUSE_RX = true := by decide +kernel

theorem witness_MacCommandsAndFrames_queue : (macUp [⟨1, false⟩]).nextQueue 15 = some 7 ∧
    ((macUp [⟨1, false⟩]).mac 15).sending = none ∧ ((macUp [⟨1, false⟩]).mac 15).paused = false := by decide +kernel

/-- An exact MAC entry whose key is k. -/
def anEntry (k : Nat) : List Byte := leBytes 32 (2 ^ 255 + k)

/-- A command posted, the fence busy, functions 1 and 2 in a mode, and with `lost` no spare sub-array. -/
def swcAt (busy : Bool) (cur : Nat) (lost : Bool) : State :=
  let s := ((cmdAt .run).wr SWC_FCT_FENCE SWC_FCT_FENCE_BUSY (b2n busy)).wr (WADI_FUNC 2) WADI_FUNC_CUR cur
  { s with swc := { s.swc with subCopy := some ⟨15, 16⟩, subBad := if lost then [16, 17] else [], learnQ := [⟨5, 7, 15⟩] } }

/-- The gates of port 15 run with two entries, the bank change pending or not. -/
def gateAt (pend : Nat) : State :=
  let s := ((((at' .run).wr (SWC_GATE_CFG 15) SWC_GATE_CFG_EN 1).wr (SWC_GATE_CFG 15) SWC_GATE_CFG_PEND pend).wr (SWC_GCL 1920)
    SWC_GCL_INTERVAL 1000).wr (SWC_GCL 1921) SWC_GCL_INTERVAL 1000
  s.setGate 15 (s.gateEntry 15 0)

theorem witness_SwitchTablesFencesAndGates : (swcAt false 0 false).swc.learnQ ≠ [] ∧
    (at' .run).flag SWC_AGE_CFG SWC_AGE_CFG_EN = true ∧ (at' .run).rd (WADI_FUNC 1) WADI_FUNC_CUR ≠ 1 ∧
    (swcAt false 0 false).takes 3 Mode.working = true ∧ ((swcAt false 0 false).take 3).rd (WADI_FUNC 2) WADI_FUNC_CUR = 0 ∧
    entReserved true (entOf (anEntry 9)) = false ∧ entValid (entOf (anEntry 9)) = true ∧
    entReserved true (entOf (leBytes 32 (2 ^ 247))) = true ∧ entReserved false (entOf (leBytes 32 (2 ^ 247))) = false ∧
    ((swcAt false 1 false).take 3).rd (WADI_FUNC 2) WADI_FUNC_CUR = 1 ∧
    ((swcAt false 0 false).take 3).exactHit ⟨0, 9⟩ = none ∧
    (swcAt false 0 false).flag SWC_FCT_FENCE SWC_FCT_FENCE_BUSY = false ∧ (swcAt true 0 false).flag SWC_FCT_FENCE SWC_FCT_FENCE_BUSY = true ∧
    (swcAt false 0 false).genCount 1 = 0 ∧ (swcAt false 0 false).rd SWC_FCT_FENCE SWC_FCT_FENCE_GEN = 0 ∧
    ((List.range 16).all fun k => k == 0 || (swcAt true 0 false).genCount k == 0) = true ∧ (at' .run).hears 1 .swc = true ∧
    (swcAt false 0 false).swc.subCopy.isSome = true ∧ (swcAt false 1 true).spareSubs = [] ∧
    (swcAt false 1 true).subLost (2048 * 15) = false := by decide +kernel

theorem witness_SwitchTablesFencesAndGates_add :
    (((((swcAt false 0 false).take 3).candidates 9).filter fun i => !((swcAt false 0 false).take 3).subLost i).find?
      (fun i => !entValid (((swcAt false 0 false).take 3).fctAt i))).isSome = true ∧
    (let s := (swcAt false 0 false).setFct ((((swcAt false 0 false).candidates 9).head?).getD 0) (entOf (anEntry 9));
      ((s.take 3).exactHit ⟨0, 9⟩).isSome = true ∧ s.takes 3 Mode.working = true) := by decide +kernel

theorem witness_SwitchTablesFencesAndGates_gates : (gateAt 0).flag (SWC_GATE_CFG 15) SWC_GATE_CFG_EN = true ∧
    (gateAt 0).flag (SWC_GATE_CFG 15) SWC_GATE_CFG_PEND = false ∧ (gateAt 1).flag (SWC_GATE_CFG 15) SWC_GATE_CFG_PEND = true ∧
    ((gateAt 0).gate 15).running = true ∧
    ((gateAt 0).gate 15).entry + 1 < ((gateAt 0).gateList 15 ((gateAt 0).rd (SWC_GATE_CFG 15) SWC_GATE_CFG_ACTIVE)).length ∧
    ((at' .run).wr (SWC_PORT_CFG 15) SWC_PORT_CFG_REMOVE 1).flag (SWC_PORT_CFG 15) SWC_PORT_CFG_REMOVE = true ∧
    (at' .run).flag (SWC_PORT_OCC 15) SWC_PORT_OCC_DRAINED = false := by decide +kernel

/-- A message of an OP and a length from slot 0 waits in mailbox 3 of the supervisor; TIME_CTRL names a source. -/
def steerAt (op len src : Nat) : State :=
  ((at' .run).wr TIME_CTRL TIME_CTRL_SRC src).setInbox 16 3 { Inbox.empty with
    full := true, len := len, sender := 0, words := [(0, BitVec.ofNat 32 (op * 2 ^ 24))] }

/-- Timed pin 15 enabled in a mode with captures waiting. -/
def pinAt (mode caps : Nat) : State :=
  let s := (((at' .run).wr (TIO_CFG 15) TIO_CFG_EN 1).wr (TIO_CFG 15) TIO_CFG_MODE mode).wr (TIO_CFG 15) TIO_CFG_EDGE 1
  s.setTio 15 { s.tioAt 15 with caps := List.replicate caps (5, 1, true), pulse := true }

theorem witness_TimeBaseSteeringAndPins : (at' .run).hears 1 .time = true ∧ (at' .run).maySteer (.mw0 1) = true ∧
    ((at' .run).wr TIME_CTRL TIME_CTRL_SRC 2).maySteer (.mw0 1) = false ∧ ((at' .run).tioAt 15).caps = [] ∧
    ((pinAt 0 4).tioAt 15).caps.length = 4 ∧ (pinAt 0 4).hears 1 .time = true ∧ (at' .run).flag (TIO_CFG 15) TIO_CFG_EN = false ∧
    (pinAt 0 3).flag (TIO_CFG 15) TIO_CFG_EN = true ∧ (pinAt 0 3).rd (TIO_CFG 15) TIO_CFG_MODE = 0 ∧
    bitOf ((pinAt 0 3).rd (TIO_CFG 15) TIO_CFG_EDGE) 0 = true ∧ ((pinAt 0 3).tioAt 15).last = none ∧
    (pinAt 0 3).flag (TIO_CFG 15) TIO_CFG_EVT = false ∧ (pinAt 1 0).rd (TIO_CFG 15) TIO_CFG_MODE = 1 ∧
    ((pinAt 1 0).tioAt 15).done = false ∧ (pinAt 2 0).rd (TIO_CFG 15) TIO_CFG_MODE = 2 ∧ (pinAt 3 0).rd (TIO_CFG 15) TIO_CFG_MODE = 3 ∧
    ((pinAt 3 0).tioAt 15).pulse = true ∧ { (at' .run) with tb := { (at' .run).tb with slew := -1 } }.tb.slew ≠ 0 := by decide +kernel

theorem witness_TimeBaseSteeringAndPins_enable :
    ((at' .run).setReg (TIO_CFG 15) ((pinAt 3 0).reg (TIO_CFG 15) &&& 0xFFC0FFFF)).flag (TIO_CFG 15) TIO_CFG_EN = true ∧
    ((at' .run).setReg (TIO_CFG 15) ((pinAt 3 0).reg (TIO_CFG 15) &&& 0xFFC0FFFF)).rd (TIO_CFG 15) TIO_CFG_MODE = 3 := by
  decide +kernel

theorem witness_TimeBaseSteeringAndPins_messages :
    let took := fun (s : State) => (s.setInbox 16 3 { s.inbox 16 3 with full := false }).clearDb 16 (BitVec.ofNat 32 (2 ^ 3))
    let op := fun (s : State) => bitsOf (SMap.get (fun _ => (0 : Word)) (s.inbox 16 3).words 0).toNat 31 24
    op (steerAt 1 2 1) = 1 ∧ op (steerAt 2 3 1) = 2 ∧ op (steerAt 3 2 1) = 3 ∧ op (steerAt 4 2 1) = 4 ∧ opLen 4 ≠ some 3 ∧
    ((steerAt 2 3 1).inbox 16 3).full = true ∧ ((steerAt 2 3 1).inbox 16 3).len = 3 ∧
    (took (steerAt 1 2 1)).maySteer ((took (steerAt 1 2 1)).steererOf 0) = true ∧
    (took (steerAt 1 2 0)).maySteer ((took (steerAt 1 2 0)).steererOf 0) = false := by decide +kernel

/-- Channel 1 is enabled in a state, first node or not, with a valid header, a transmit entry 255, a second bank for mode 7 and
a change under way as given; a command is posted and a table message waits. -/
def chanAt (st : Nat) (first : Bool) (x : CvnChan) : State :=
  let s := ((((((((cmdAt .run).wr (CVN_CH_CFG 1) CVN_CH_CFG_EN 1).wr (CVN_CH_STAT 1) CVN_CH_STAT_STATE st).wr (CVN_CH_STAT 1)
    CVN_CH_STAT_FIRST (b2n first)).setReg (cvnOff 1 0 0 3) 0x80000000).setReg (cvnOff 1 0 0 1) 1).setReg (cvnOff 1 0 255 3)
    0xC0000000).setReg (cvnOff 1 1 0 3) 0x80070000).setInbox 16 3
    { Inbox.empty with full := true, len := 2, sender := 0, words := [(0, 0x10000000)] }
  { s with mem := { s.mem with owner := [(0, 0x10)] } }.setChan 1 x

/-- Port 3 is the U port of channel 1, trained in Caravan mode or not yet. -/
def cvnPortAt (up : Nat) (slow : Bool) (st : Nat) : State :=
  (((chanAt st false { CvnChan.reset with slowU := slow }).wr (MAC_MODE 3) MAC_MODE_CARAVAN 1).wr (MAC_CTRL 3) MAC_CTRL_EN 1).wr (MAC_STAT 3)
    MAC_STAT_LINK up

theorem witness_CaravanChannelsStartAndSend : (at' .run).hears 1 .cvn = true ∧ bitOf (0x80000000 : Word).toNat 31 = true ∧
    (at' .run).cvnEn 1 = false ∧ (at' .run).cvnAddr = 0xFFF ∧ ((at' .run).wr CVN_NODE CVN_NODE_ADDR 5).cvnAddr ≠ 0xFFF ∧
    (chanAt 5 true CvnChan.reset).cvnEn 1 = true ∧ (chanAt 5 true CvnChan.reset).cvnBank 1 = 0 ∧
    (cvnPortAt 0 false 1).cvnPort 3 = true ∧ (cvnPortAt 0 false 1).linkUp 3 = false ∧ (cvnPortAt 0 true 1).cvnPort 3 = true ∧
    ((cvnPortAt 0 true 1).chan 1).slowU = true ∧ ((cvnPortAt 0 true 1).chan 1).loopU = false ∧
    ((cvnPortAt 0 false 1).chan 1).slowU = false ∧ (cvnPortAt 0 false 1).flag (CVN_CH_CFG 1) CVN_CH_CFG_MAX_RATE = false ∧
    (cvnPortAt 0 false 1).rd (CVN_CH_CFG 1) CVN_CH_CFG_RING = 0 ∧
    ((chanAt 5 true CvnChan.reset).cvnHeader 1 0).valid = true ∧
    ((chanAt 5 true CvnChan.reset).cvnHeader 1 0).openStart ≠ ((chanAt 5 true CvnChan.reset).cvnHeader 1 0).openEnd := by
  decide +kernel

theorem witness_CaravanChannelsStartAndSend_sync :
    let s := chanAt 5 true CvnChan.reset
    s.cvnState 1 = 5 ∧ (s.chan 1).left = false ∧ s.cvnFirst 1 = true ∧
    (((s.csRequest 1).2.2.csSent 1 false (s.csRequest 1).1 (s.csRequest 1).2.1).chan 1).leaving = none ∧
    (s.txEntry 1 255).isSome = true ∧ (s.chan 1).leaving = none ∧ s.mode ≠ .safe ∧
    (let t := chanAt 5 true { CvnChan.reset with change := some ⟨3, 7, some 0, some true⟩ };
      t.cvnFirst 1 = true ∧ t.cvnState 1 = 5) ∧
    (chanAt 4 false CvnChan.reset).cvnFirst 1 = false ∧ (chanAt 4 false CvnChan.reset).cvnState 1 = 4 := by decide +kernel

theorem witness_CaravanChannelsStartAndSend_cycle :
    let s := chanAt 5 true { CvnChan.reset with switchAt := some (0, 7) }
    let t := s.onChan 1 fun x => { x with switchAt := none }
    s.cvnEn 0 = false ∧ s.cvnEn 1 = true ∧ s.cvnN = 0 ∧ (s.chan 1).switchAt = some (0, 7) ∧ t.cvnOther 1 7 = true ∧
    ((t.cvnSwitch 1 7).chan 1).firstLeft = none := by decide +kernel

theorem witness_CaravanChannelsStartAndSend_commit :
    let x := { CvnChan.reset with change := some ⟨3, 7, some 0, some true⟩ }
    let s := { chanAt 5 true x with tb := { (chanAt 5 true x).tb with ns := BitVec.ofNat 32 (chanAt 5 true x).cvnCycle } }
    s.cvnN = 0 + 1 ∧ s.cvnState 1 = 5 ∧ (s.chan 1).change = some ⟨3, 7, some 0, some true⟩ := by decide +kernel

theorem witness_CaravanChannelsStartAndSend_listen :
    let s := (chanAt 2 false CvnChan.reset).wr (CVN_CH_CFG 1) CVN_CH_CFG_COLD_EN 1
    let t := chanAt 4 false { CvnChan.reset with loopEndD := some 0, leaving := some 0 }
    s.cvnState 1 = 2 ∧ (s.chan 1).left = false ∧ (s.wr CVN_CTRL CVN_CTRL_TCH 1).cvnMayCold 1 = true ∧
    (t.chan 1).loopEndD = some 0 ∧ (t.chan 1).loopEndU = none ∧ 0 ≤ t.cvnN ∧ t.cvnFirst 1 = false ∧ t.cvnState 1 ≠ 5 := by
  decide +kernel

theorem witness_CaravanChannelsStartAndSend_commands :
    let s := chanAt 5 true CvnChan.reset
    s.takes 3 Mode.working = true ∧ (s.take 3).cvnFirst 1 = true ∧ (s.take 3).cvnState 1 = 5 ∧ ((s.take 3).chan 1).change = none ∧
    (s.take 3).cvnOther 1 7 = true ∧ (s.take 3).cvnOther 1 8 = false ∧ (s.take 3).cvnFirst 0 = false ∧
    (s.take 3).flag (CVN_CH_STAT 1) CVN_CH_STAT_PEND = false ∧ s.msgWaits 3 0x10 = true ∧
    (s.takeMsg 3).1 = 0 ∧ (s.takeMsg 3).2.2.rd TIME_CTRL TIME_CTRL_SLOT = 0 ∧ (s.takeMsg 3).2.2.owner 0 = 0x10 ∧
    (s.takeMsg 3).2.2.rd (WADI_FUNC 4) WADI_FUNC_CUR = 0 ∧
    ((List.range 513).any fun i => ((s.takeMsg 3).2.2.bank false ((s.takeMsg 3).2.2.physOf false 0)).mem.isBad (0 + min 4095 (8 * i))) =
      false := by decide +kernel

theorem witness_CaravanChannelsStartAndSend_fits :
    ((((chanAt 5 true CvnChan.reset).setReg (cvnOff 1 0 0 2) 100).take 3).cvnFits 1) = true := by decide +kernel

/-- The ports of channel 1 trained and open, its link delays known, the node with address 5. -/
def cvnOpen (first : Bool) : State :=
  let s := (chanAt 5 first { CvnChan.reset with
    upU := true, upD := true, delU := [7], delD := [7], reqU := some 1, reqD := some 1 }).wr CVN_NODE CVN_NODE_ADDR 5
  (([2, 3] : List Nat).foldl (fun t p => ((t.wr (MAC_MODE p) MAC_MODE_CARAVAN 1).wr (MAC_CTRL p) MAC_CTRL_EN 1).wr (MAC_STAT p)
    MAC_STAT_LINK 1) s).setReg (cvnOff 1 0 254 3) 0x80000000

/-- A frame of a type from a node, on the wire. -/
def cvnBytes (typ src : Nat) : List Byte := { (cvnOpen true).cvnOwn 1 typ 0 0 [] with src := src }.bytes false

/-- Whether a frame returns at port 3, has few hops, and shows EDGE. -/
def returnsAt (f : CvnFrame) : Bool × Bool × Bool := ((cvnOpen true).cvnReturns 3 f, decide (f.hops < 1040), f.edge)

theorem witness_CaravanFramesReceived : (cvnOpen true).cvnTakes 3 = true ∧ (cvnOpen true).cvnTakes 2 = true ∧
    cvnParse [] = none ∧ (cvnParse (cvnBytes 1 9)).map CvnFrame.typ = some cvnCS ∧
    ([2, 3, 4, 5, 6, 7].all fun t => (cvnParse (cvnBytes t 9)).map CvnFrame.typ == some t) = true ∧
    ((cvnParse (cvnBytes 5 9)).map fun f => (returnsAt f)) = some (false, true, false) ∧
    ((cvnParse (cvnBytes 1 5)).map fun f => (returnsAt f)) = some (true, true, false) ∧
    (cvnOpen true).cvnDelay 1 true = some 7 ∧ (cvnOpen true).cvnState 1 ≠ 1 ∧ ((cvnOpen true).chan 1).openU = true ∧
    ((cvnOpen true).chan 1).change = none ∧ (cvnOpen true).cvnFirst 1 = true := by decide +kernel

theorem witness_CaravanFramesReceived_delay : (cvnOpen true).cvnPort 3 = true ∧ (cvnOpen true).linkUp 3 = true ∧
    (cvnParse (cvnBytes 6 9)).map (fun f => (decide ((cvnOpen true).cvnFull f.cycle ≤ (cvnOpen true).cvnN), cvnGood f (cvnBytes 6 9))) =
      some (true, true) ∧ ((cvnOpen true).chan 1).reqU = some 1 ∧
    (let bs := ((cvnOpen true).cvnOwn 1 6 0 0 []).bytes true; (cvnParse bs).map (fun f => cvnGood f bs) = some false) := by decide +kernel

theorem witness_CaravanFramesReceived_missed : 4 ≤ (cvnOpen true).cvnState 1 ∧ ((cvnOpen true).cvnHeader 1 0).valid = true ∧
    (cvnOpen true).cvnBank 1 = 0 ∧ ((cvnOpen true).cvnEntry 1 0 254).valid = true ∧ ((cvnOpen true).cvnEntry 1 0 254).tx = false := by
  decide +kernel

/-- Bus 7 in a mode and error state, held by slot 15 or by none, with a buffer 31 as given; a command is posted. -/
def busAt (mode est : Nat) (held : Bool) (x : TBuf) (send : Option (Nat × Nat × Bool)) : State :=
  let s := ((cmdAt .run).wr (MDB_STAT 7) MDB_STAT_MODE_ACT mode).wr (MDB_STAT 7) MDB_STAT_ESTATE est
  let t := s.setBus 7 { (s.bus 7).setBuf 31 x with sending := send }
  if held then t.setSlot 15 { SlotSt.free with bound := true, mdb := 0x80 } else t

theorem witness_BusBuffersFramesAndErrors :
    let x := TBuf.empty
    let y := { TBuf.empty with pending := true }
    (busAt 1 0 true x none).inBlkReset (.mdb 7) = false ∧ (busAt 1 0 false x none).busSlot 7 ≠ some 15 ∧
    (busAt 1 0 true x none).busSlot 7 = some 15 ∧ (((busAt 1 0 true x none).bus 7).buf 31).pending = false ∧
    lenOk (((busAt 1 0 true x none).bus 7).buf 31).hdr = true ∧
    hdrLen (((busAt 1 0 true x none).bus 7).buf 31).hdr ≤ (busAt 1 0 true x none).dmax 7 ∧
    lenOk (((busAt 1 0 true { x with hdr := [0, 9, 0, 0] } none).bus 7).buf 31).hdr = false ∧
    (((busAt 1 0 true y none).bus 7).buf 31).pending = true ∧ (busAt 1 0 true y none).nextBuf 7 = some 31 ∧
    (busAt 1 0 true y none).canSend 7 = true ∧ ((busAt 1 0 true y (some (31, 0, false))).bus 7).sending = some (31, 0, false) ∧
    (busAt 1 0 true x none).canReceive 7 = true ∧ (busAt 1 0 true x none).mdbMode 7 = 1 ∧
    (busAt 1 0 true x none).rd (MDB_STAT 7) MDB_STAT_REC ≤ 127 ∧ (busAt 1 0 true x none).fmtAllowed 7 [0, 0, 0, 0] = true ∧
    (busAt 1 3 true x none).mdbEst 7 = 3 := by decide +kernel

theorem witness_BusBuffersFramesAndErrors_errors :
    let s := busAt 1 0 true TBuf.empty none
    let r := (s.setErrs 7 0 1).errEvent 7 2 false
    let t := (s.setErrs 7 8 0).errEvent 7 2 true
    let v := (s.wr (MDB_STAT 7) MDB_STAT_TEC 248)
    r.mdbMode 7 ≠ 3 ∧ r.mdbEst 7 ≠ 2 ∧ t.mdbMode 7 ≠ 3 ∧ t.mdbEst 7 ≠ 2 ∧ v.canReceive 7 = true ∧ v.mdbMode 7 = 1 ∧
    ((v.setErrs 7 256 0).errEvent 7 2 true).mdbEst 7 = 2 ∧ ((v.setErrs 7 256 0).errEvent 7 2 true).mdbMode 7 ≠ 3 ∧
    ((s.setErrs 7 0 0).storeRx 7 [0, 0, 0, 0] []).mdbMode 7 ≠ 3 := by decide +kernel

theorem witness_BusBuffersFramesAndErrors_commands :
    let y := { TBuf.empty with pending := true }
    (busAt 1 2 true y none).takes 3 Mode.working = true ∧ ((busAt 1 2 true y none).take 3).mdbEst 7 = 2 ∧
    (((busAt 1 2 true y none).wr (WADI_FUNC 3) WADI_FUNC_CUR 1).take 3).fun3Hw = false ∧
    ((busAt 1 0 true y none).take 3).mdbEst 7 ≠ 2 ∧ ((busAt 1 2 true y none).take 3).fun3Hw = true ∧
    31 < ((busAt 1 0 true y none).take 3).tbCount 7 ∧ ((busAt 1 0 false y none).take 3).busSlot 7 = none ∧
    (((busAt 1 0 true y none).take 3).busSlot 7).isSome = true ∧
    ((busAt 1 0 true y none).wr (MDB_RAM_CFG 7) MDB_RAM_CFG_TB_COUNT 31).tbCount 7 ≤ 31 ∧ bitsOf (0x7001F : BitVec 64).toNat 18 16 = 7 := by
  decide +kernel

/-- Bus 7 runs time-triggered in NORMAL mode with trigger 63 of a kind, as time master or not. -/
def ttAt (kind : Nat) (master : Bool) (mayBe : Nat) : State :=
  let s := ((((busAt 1 0 true { TBuf.empty with pending := true } none).wr (MDB_CTRL 7) MDB_CTRL_TT_EN 1).setReg64 (MDB_TRG 7 63)
    (kind * 2 ^ 62 + 2 ^ 61 + 31 * 2 ^ 46)).wr (MDB_STAT 7) MDB_STAT_TT_MASTER (b2n master)).wr (MDB_TT_CFG 7) MDB_TT_CFG_MASTER_EN mayBe
  s.setBus 7 { s.bus 7 with ttRun := true }

/-- A remap of bus 7 stands at a step. -/
def remapIn (step : Nat) : State :=
  (((busAt 1 0 true TBuf.empty none).wr MDB8_REMAP MDB8_REMAP_ACTIVE 1).wr MDB8_REMAP MDB8_REMAP_STEP step).wr MDB8_REMAP MDB8_REMAP_BUS 7

theorem witness_BusModesTriggersAndRemaps : (at' .run).hears 1 (.mdb 7) = true ∧ (at' .run).busInit 7 = true ∧
    ((at' .run).wr (MDB_CTRL 7) MDB_CTRL_MODE 1).busInit 7 = false ∧ (ttAt 0 true 1).takes 3 Mode.working = true ∧
    (((ttAt 0 true 1).wr (WADI_FUNC 3) WADI_FUNC_CUR 1).take 3).fun3Hw = false ∧
    ((ttAt 0 true 1).take 3).flag (MDB_STAT 7) MDB_STAT_TT_MASTER = true ∧ ((ttAt 0 false 1).take 3).flag (MDB_STAT 7) MDB_STAT_TT_MASTER = false ∧
    (ttAt 0 true 1).ttOn 7 = true ∧ ((ttAt 0 true 1).bus 7).ttRun = true ∧ (ttAt 0 true 1).canSend 7 = true ∧ (ttAt 2 true 1).refOk 7 = true ∧
    ((ttAt 1 true 1).bus 7).matched.contains 31 = false ∧ (ttAt 0 false 1).canReceive 7 = true ∧
    (ttAt 0 false 1).flag (MDB_TT_CFG 7) MDB_TT_CFG_LEVEL2 = false ∧ ((ttAt 0 true 1).bus 7).ttNext = none := by decide +kernel

theorem witness_BusModesTriggersAndRemaps_trigger :
    let w := fun k => (ttAt k false 0).reg64 (MDB_TRG 7 63)
    ([0, 1, 2, 3].all fun k => bitsOf (w k) 63 62 == k) = true ∧ bitOf (w 3) 61 = true ∧ bitsOf (w 0) 50 46 = 31 ∧
    (ttAt 3 false 0).rd (MDB_TT_STAT 7) MDB_TT_STAT_CYCLE_CNT % 2 ^ bitsOf (w 3) 54 52 = bitsOf (w 3) 60 55 ∧
    (((ttAt 3 false 0).ttEvent 7 1 0).raiseFor (.mdb 7) F_MDB_TT_ERR (mdbCaps 7 0 31) 7).refOk 7 = false ∧
    (((ttAt 3 false 1).ttEvent 7 1 0).raiseFor (.mdb 7) F_MDB_TT_ERR (mdbCaps 7 0 31) 7).refOk 7 = true := by decide +kernel

theorem witness_BusModesTriggersAndRemaps_remap : (remapIn 1).flag MDB8_REMAP MDB8_REMAP_ACTIVE = true ∧
    (remapIn 1).rd MDB8_REMAP MDB8_REMAP_STEP = 1 ∧ (remapIn 2).rd MDB8_REMAP MDB8_REMAP_STEP = 2 ∧
    ((remapIn 2).bus 7).sending = none ∧ (remapIn 2).mdbEst 7 < 2 ∧ (remapIn 2).rd MDB8_REMAP MDB8_REMAP_BUS = 7 ∧
    (at' .run).ctrlBad.contains 8 = false ∧ (at' .run).flag MDB8_REMAP MDB8_REMAP_ACTIVE = false ∧ (at' .run).busOfCtrl 8 = none ∧
    (at' .run).busOfCtrl 7 = some 7 ∧
    ({ (at' .run).unitFailed kMdb 7 with ctrlBad := [7] } : State).spareCtrls = [8] ∧
    ({ ({ at' .run with ctrlBad := [8] } : State).unitFailed kMdb 7 with ctrlBad := [7, 8] } : State).spareCtrls = [] := by decide +kernel

/-- Bus 7, held by slot 15, in a sleep state, its wake filter in a mode. -/
def sleepAt (st filter ferr : Nat) : State :=
  ((((busAt 1 0 true TBuf.empty none).wr (MDB_CTRL 7) MDB_CTRL_MODE 1).wr (WAKE_BUS_STAT 7) WAKE_BUS_STAT_STATE st).wr (WAKE_BUS_CFG 7)
    WAKE_BUS_CFG_MODE filter).wr (WAKE_BUS_STAT 7) WAKE_BUS_STAT_FERR ferr

/-- The module in STANDBY with every wake source of bus 7, the pin and the timer on. -/
def stbyAt : State :=
  (((({ at' .run with mode := .standby } : State).wr (WAKE_BUS_CFG 7) WAKE_BUS_CFG_STBY_EN 1).wr (WAKE_BUS_CFG 7) WAKE_BUS_CFG_MODE 1).wr
    WAKE_CTRL WAKE_CTRL_PIN_EN 1).wr WAKE_CTRL WAKE_CTRL_TIMER 1

theorem witness_BusesSleepAndWake : (sleepAt 0 1 0).inBlkReset .wake = false ∧ (sleepAt 0 1 0).inBlkReset (.mdb 7) = false ∧
    (sleepAt 0 1 0).busSlot 7 = some 15 ∧ (sleepAt 0 1 0).hears 1 .wake = true ∧ (sleepAt 0 1 0).sleepState 7 = 0 ∧
    (sleepAt 0 1 0).flag (MDB_CTRL 7) MDB_CTRL_TT_EN = false ∧ (sleepAt 0 1 0).rd (MDB_CTRL 7) MDB_CTRL_MODE = 1 ∧
    ((sleepAt 0 1 0).bus 7).shed = false ∧ (at' .run).rd (MDB_CTRL 7) MDB_CTRL_MODE = 0 ∧ (sleepAt 1 1 0).sleepState 7 = 1 ∧
    (sleepAt 3 1 0).sleepState 7 = 3 ∧ ((sleepAt 1 1 0).bus 7).sending = none ∧ ((sleepAt 1 1 0).bus 7).bits (·.pending) = 0 ∧
    (sleepAt 1 1 0).mdbEst 7 < 2 ∧ ((sleepAt 1 1 0).wr (WAKE_BUS_CFG 7) WAKE_BUS_CFG_AWAKE_MAX 1).rd (WAKE_BUS_CFG 7) WAKE_BUS_CFG_AWAKE_MAX ≠ 0 ∧
    (sleepAt 1 1 0).flag (WAKE_BUS_CFG 7) WAKE_BUS_CFG_WITHDRAW = false ∧ (sleepAt 1 1 0).rd (WAKE_BUS_CFG 7) WAKE_BUS_CFG_MODE = 1 ∧
    (sleepAt 1 1 0).mode ≠ .standby ∧ (sleepAt 1 1 0).enteringStandby = false ∧ (sleepAt 2 2 31).filterArmed 7 = true ∧
    31 ≤ (sleepAt 2 2 31).rd (WAKE_BUS_STAT 7) WAKE_BUS_STAT_FERR ∧ (sleepAt 2 2 30).rd (WAKE_BUS_STAT 7) WAKE_BUS_STAT_FERR < 31 := by
  decide +kernel

theorem witness_BusesSleepAndWake_standby : stbyAt.mode = .standby ∧ stbyAt.flag (WAKE_BUS_CFG 7) WAKE_BUS_CFG_STBY_EN = true ∧
    stbyAt.rd (WAKE_BUS_CFG 7) WAKE_BUS_CFG_MODE = 1 ∧ stbyAt.flag WAKE_CTRL WAKE_CTRL_PIN_EN = true ∧
    stbyAt.rd WAKE_CTRL WAKE_CTRL_TIMER ≠ 0 := by decide +kernel

/-- Sequencer 0 running at address 0 with an instruction there. -/
def seqAt (w : Word) (tx : List Word) : State :=
  (at' .run).setSeq 0 { SeqSt.reset with running := true, fresh := false, imem := SMap.set (fun _ => 0) [] 0 w, tx := tx }

/-- The word of an instruction from its fields, in the order of the layout of file 16. -/
def seqWord (dop pop cond flow target arg dwell : Nat) : Word :=
  BitVec.ofNat 32 (dop * 2 ^ 29 + pop * 2 ^ 26 + cond * 2 ^ 22 + flow * 2 ^ 20 + target * 2 ^ 13 + arg * 2 ^ 8 + dwell)

theorem witness_SequencersExecuteInstructions :
    ([1, 2, 3, 4, 5, 6, 7].all fun d => (seqAt (seqWord d 0 0 0 0 0 0) []).seqTicks 0 && seqLegal (seqWord d 0 0 0 0 0 0) &&
      (iDop (seqWord d 0 0 0 0 0 0) == d) && (seqAt (seqWord d 0 0 0 0 0 0) []).seqDue 0 == (seqWord d 0 0 0 0 0 0, true)) = true ∧
    ([1, 2, 3, 4, 5, 6].all fun p => seqLegal (seqWord 0 p 0 0 0 0 3) && iPop (seqWord 0 p 0 0 0 0 3) == p) = true ∧
    (seqLegal (seqWord 0 0 0xF 1 0 0 0) && seqLegal (seqWord 0 0 1 1 5 0 0) && seqLegal (seqWord 0 0 1 2 0 0 0) &&
      seqLegal (seqWord 0 0 0xA 3 7 0 0) && seqLegal (seqWord 0 0 0 0 0 0 9)) = true ∧ seqLegal (seqWord 0 7 0 0 0 0 0) = false ∧
    (seqAt (seqWord 1 0 0 0 0 0 0) []).seqStalls 0 (seqWord 1 0 0 0 0 0 0) = true ∧
    (seqAt (seqWord 1 0 0 0 0 0 0) [5]).seqStalls 0 (seqWord 1 0 0 0 0 0 0) = false ∧ (seqAt 0 []).seqMap 0 ≠ 0x3F ∧
    ((seqAt 0 []).seqSt 0).running = true ∧ ((seqAt 0 []).seqSt 0).inject.isNone = true ∧ ((seqAt 0 []).seqSt 0).stalled.isNone = true ∧
    ((seqAt 0 []).seqSt 0).rx.length < ((seqAt 0 []).fifoDepth 0).2 ∧ (seqAt 0 []).seqSlot 0 = none := by decide +kernel

theorem witness_SequencersExecuteInstructions_dwell :
    (((seqAt 0 []).setSeq 0 { (seqAt 0 []).seqSt 0 with dwell := some (9, .goto 1) }).seqSt 0).dwell = some (9, .goto 1) ∧
    1 < (((seqAt 0 []).setSeq 0 { (seqAt 0 []).seqSt 0 with lc0 := 2 }).seqSt 0).lc0.toNat := by decide +kernel

/-- The fields of an instruction word, written out from the layout of file 16. -/
theorem test_seq_fields : iDop 0xBABFFFFF = 5 ∧ iPop 0xBABFFFFF = 6 ∧ iCond 0xBABFFFFF = 10 ∧ iFlow 0xBABFFFFF = 3 ∧ iTarget 0xBABFFFFF = 127 ∧
    iArg 0xBABFFFFF = 31 ∧ iDwell 0xBABFFFFF = 255 := by decide +kernel

/-- Sequencer 0 stopped, held by no slot, with words in its RX FIFO; a remap under way where `on`. -/
def seqIdle (rx : List Word) (on : Bool) : State :=
  ((at' .run).setSeq 0 { SeqSt.reset with rx := rx }).wr PSQ_REMAP PSQ_REMAP_ACTIVE (b2n on)

/-- Slot 5 is bound and holds sequencer 0. -/
def seqHeld : State := (seqIdle [] false).setSlot 5 { SlotSt.free with bound := true, psq := 1 }

theorem witness_SequencersStartStopAndRemap : (at' .run).hears 0 .psq = true ∧ (at' .run).hears 1 .psq = true ∧
    ((at' .run).wr PSQ_TSTART_STAT PSQ_TSTART_STAT_ARMED 1).flag PSQ_TSTART_STAT PSQ_TSTART_STAT_ARMED = true ∧
    seqHeld.inBlkReset .psq = false ∧ seqHeld.seqSlot 0 = some 5 ∧ (seqIdle [] false).seqSlot 0 = none ∧
    ((seqIdle [] false).seqSt 0).running = false ∧ seqLegal (seqWord 0 7 0 0 0 0 0) = false ∧ seqLegal (seqWord 1 0 0 0 0 0 0) = true ∧
    (seqIdle [] false).seqStalls 0 (seqWord 1 0 0 0 0 0 0) = true ∧ (seqIdle [] false).seqStalls 0 (seqWord 2 0 0 0 0 0 0) = false ∧
    ¬ ((seqIdle [] false).fifoDepth 0).1 ≤ ((seqIdle [] false).seqSt 0).tx.length ∧
    ((seqAt 0 [1, 2, 3, 4, 5, 6, 7, 8]).fifoDepth 0).1 ≤ ((seqAt 0 [1, 2, 3, 4, 5, 6, 7, 8]).seqSt 0).tx.length ∧
    ((seqIdle [9, 8] false).seqSt 0).rx = [9, 8] ∧ (seqIdle [] true).flag PSQ_REMAP PSQ_REMAP_ACTIVE = true ∧
    (seqIdle [] false).seqMap 0 ≠ 0x3F ∧ (seqIdle [] false).seqOfMachine 31 = some 31 ∧ (seqIdle [] false).seqOfMachine 35 = none ∧
    (seqIdle [] false).spareSeqs = [32, 33, 34, 35] := by decide +kernel

/-- The safety die in a state of R877: 0 INIT, 1 HOLD, 2 OPERATE. -/
def sioAt (st : Nat) : State := (at' .run).wr SIO_STAT SIO_STAT_SSTATE st

/-- Output 3 with its fields changed. -/
def dqAt (f : SioDq → SioDq) : State := (sioAt 2).onDq 3 f

/-- What the image mover has stored before it reads the output block. -/
def imageAt (s : State) : State :=
  let s0 := s.allDq fun t j => t.onDq j fun y => { y with readback := bitOf 0 j };
  let s1 : State := { s0 with sio := { s0.sio with cntIn := (s0.sio.cntIn + 1) % 2 ^ 32 } };
  [0, 8, 16, 24].foldl (fun t i => t.imgStore i (slice s1.inputBlock i 8)) s1

/-- An output block of zeros with the CRC that R887 gives it for CFG_CRC 0. -/
def goodBlock : List Byte := List.replicate 28 0 ++ List.replicate 4 255

theorem witness_SafetyImage : ((imageAt (sioAt 2)).outputBlock .double).1 = none ∧
    ((imageAt ((sioAt 2).imgStore 0x38 [0, 0, 0, 0, 255, 255, 255, 255])).outputBlock .ok).1 = some goodBlock ∧
    ((imageAt (sioAt 2)).outputBlock .ok).1 = some (List.replicate 32 0) := by decide +kernel

theorem witness_SafetyImage_crc : crc32c 0 (goodBlock.take 28) ^^^ 0xFFFFFFFF = ofLe (slice goodBlock 28 4) ∧
    ¬ (crc32c 0 ((List.replicate 32 (0 : Byte)).take 28) ^^^ 0xFFFFFFFF = ofLe (slice (List.replicate 32 (0 : Byte)) 28 4)) ∧
    (sioAt 2).sio.cntOut = none ∧ (sioAt 2).reg SIO_CFG_CRC = 0 := by decide +kernel

theorem witness_SafetyInputs : (sioAt 2).sstate ≠ 0 ∧ (sioAt 0).sstate = 0 ∧ (sioAt 2).m10 = false ∧
    ((sioAt 2).wr SIO_STAT SIO_STAT_COMM_OK 1).flag SIO_STAT SIO_STAT_COMM_OK = true ∧ ((sioAt 2).di 5).level ≠ true ∧
    (sioAt 2).sio.stopped = false ∧ ({ sioAt 2 with sio := { (sioAt 2).sio with stopped := true } } : State).sio.stopped = true ∧
    bitOf (((sioAt 2).wr SIO_TP_CFG SIO_TP_CFG_TP_EN 8).rd SIO_TP_CFG SIO_TP_CFG_TP_EN) 3 = true ∧ 3 ∉ (sioAt 2).sio.pulses ∧
    3 ∈ ({ sioAt 2 with sio := { (sioAt 2).sio with pulses := [3] } } : State).sio.pulses ∧
    (((sioAt 2).wr (SIO_PAIR_CFG 7) SIO_PAIR_CFG_EN 1).setPair 7 ⟨true, 4, false⟩).pairEn 7 = true ∧
    (((sioAt 2).wr (SIO_PAIR_CFG 7) SIO_PAIR_CFG_EN 1).setPair 7 ⟨true, 4, false⟩).pair 7 = ⟨true, 4, false⟩ ∧
    (((sioAt 2).wr (SIO_PAIR_CFG 7) SIO_PAIR_CFG_EN 1).setPair 7 ⟨true, 4, false⟩).discOf 7 = 5 ∧
    (sioAt 2).flag (SIO_PAIR_STAT 7) SIO_PAIR_STAT_DISC_LATCH = false := by decide +kernel

theorem witness_SafetyOutputs : ((dqAt fun x => { x with on := true }).dq 3).on = true ∧
    (dqAt fun x => { x with on := true }).testGroup 3 ≠ [] ∧ ((dqAt fun x => { x with trip := 4 }).dq 3).trip = 4 ∧
    ((dqAt fun x => { x with trip := 5 }).dq 3).trip = 5 ∧ ((dqAt fun x => { x with test := true }).dq 3).test = true ∧
    ((sioAt 2).dq 3).on = false ∧ ((sioAt 2).dq 3).test = false ∧ ((sioAt 2).dq 3).fail = 0 := by decide +kernel

theorem witness_SafetySupplies :
    (((sioAt 2).wr SIO_STAT SIO_STAT_L2_OK 1).wr SIO_SUPPLY SIO_SUPPLY_L2 191).flag SIO_STAT SIO_STAT_L2_OK = true ∧
    (((sioAt 2).wr SIO_STAT SIO_STAT_L1_OK 1).wr SIO_SUPPLY SIO_SUPPLY_L1 167).flag SIO_STAT SIO_STAT_L1_OK = true ∧
    ((((sioAt 2).wr SIO_SUPPLY SIO_SUPPLY_L2 167).wr SIO_STAT SIO_STAT_L2_OK 0).raiseSio F_SIO_L2_LOW 0).flag SIO_STAT SIO_STAT_L2_LATCH =
      false := by decide +kernel

/-- CMD ring 3 posted in a mode, the safety die in OPERATE with its supplies and communication good, and unlocked. -/
def sioCmd (m : Mode) : State :=
  (((((cmdAt m).wr SIO_STAT SIO_STAT_SSTATE 2).wr SIO_STAT SIO_STAT_COMM_OK 1).wr SIO_STAT SIO_STAT_L1_OK 1).wr SIO_STAT SIO_STAT_L2_OK
    1).wr SIO_STAT SIO_STAT_UNLOCKED 1

/-- A password record of eight characters. -/
def pwdRec : List Byte := 8 :: List.replicate 32 0x41

theorem witness_SafetyConfiguration : (at' .config).hears 1 .sio = true ∧ (at' .config).mode = .config ∧
    ((at' .config).wr SIO_STAT SIO_STAT_UNLOCKED 1).flag SIO_STAT SIO_STAT_UNLOCKED = true ∧ (at' .run).mode ≠ .config ∧
    (at' .config).m10 = false ∧ (at' .config).flag SIO_STAT SIO_STAT_UNLOCKED = false ∧ (cmdAt .config).canTake 3 = true ∧
    ({ cmdAt .config with m10 := true } : State).m10 = true ∧ ({ cmdAt .config with m10 := true } : State).canTake 3 = true ∧
    (sioCmd .config).takes 3 configOnly = true ∧ ((sioCmd .config).take 3).nvm.sio.pwd = none ∧ ((sioCmd .config).take 3).sio.lockout = false ∧
    ((sioCmd .config).take 3).flag SIO_STAT SIO_STAT_UNLOCKED = true ∧ ((cmdAt .config).take 3).flag SIO_STAT SIO_STAT_UNLOCKED = false ∧
    pwdOf [] = none ∧ pwdOf pwdRec = some (List.replicate 8 0x41) ∧ pwdOf ((List.replicate 33 0 ++ pwdRec).drop 33) = some (List.replicate 8 0x41) ∧
    pwdOf (List.replicate 33 0 ++ pwdRec) = none ∧ ((sioCmd .config).take 3).commitOk 0 0 = false := by decide +kernel

/-- The same with a password stored; with `odd` no password has its hash. -/
def pwdAt (odd : List Byte) : State := { sioCmd .config with nvm := { (sioCmd .config).nvm with sio :=
  { (sioCmd .config).nvm.sio with pwd := some ([], Config.sha384 (List.replicate 8 0x41) ++ odd) } } }

theorem witness_SafetyPassword : ((pwdAt []).take 3).nvm.sio.pwd ≠ none ∧ ((pwdAt []).take 3).pwdOk (List.replicate 8 0x41) = true ∧
    ((pwdAt [0]).take 3).pwdOk (List.replicate 8 0x41) = false := by
  have h : ∀ odd, ((pwdAt odd).take 3).nvm.sio.pwd = some ([], Config.sha384 (List.replicate 8 0x41) ++ odd) := fun _ => rfl
  refine ⟨by rw [h]; exact Option.some_ne_none _, ?_, ?_⟩
  · unfold State.pwdOk; rw [h]; dsimp only; rw [List.append_nil, List.nil_append]; exact beq_self_eq_true _
  · unfold State.pwdOk; rw [h]; dsimp only; rw [List.nil_append]
    exact beq_eq_false_iff_ne.mpr fun c => by have := congrArg List.length c; simp at this

theorem witness_SafetyCommit : let s := ((sioCmd .config).wr SIO_IMG_OFF SIO_IMG_OFF_COMM_TO 5).sioPend;
    s.takes 3 configOnly = true ∧ (s.take 3).flag SIO_STAT SIO_STAT_UNLOCKED = true ∧
    (s.take 3).commitOk 1 ((s.take 3).reg SIO_PEND_CRC).toNat = true := by decide +kernel

theorem witness_SafetyCommands : (sioCmd .run).takes 3 Mode.working = true ∧ ((sioCmd .run).take 3).sstate = 2 ∧
    ((sioCmd .run).take 3).reg SIO_CFG_CRC = 0 ∧ ((sioCmd .run).take 3).sio.badCfg = false ∧
    ((sioCmd .run).take 3).flag SIO_STAT SIO_STAT_COMM_OK = true ∧ ((sioCmd .run).take 3).flag SIO_STAT SIO_STAT_L1_OK = true ∧
    ((sioCmd .run).take 3).flag SIO_STAT SIO_STAT_L2_OK = true ∧ ((cmdAt .run).take 3).flag SIO_STAT SIO_STAT_L2_OK = false ∧
    ((List.range 8).any fun m => bitOf 0 m && !(((sioCmd .run).take 3).dq m).on && !(((sioCmd .run).take 3).dq m).test) = false ∧
    ((List.range 8).any fun m => bitOf 128 m && !(((sioCmd .run).take 3).dq m).on && !(((sioCmd .run).take 3).dq m).test) = true := by
  decide +kernel

theorem witness_FaultRegistersLogsAndWear : blkOf 0x3C0 = some .psq ∧ (at' .run).hears 1 .psq = true ∧ (at' .boot).mode = .boot ∧
    blkOf 0xFFF = none ∧ (at' .run).hears 0 .hlth = true ∧ (at' .run).boot.porst = false ∧ (at' .run).firmware = true ∧
    bitOf (0x40000000 : Word).toNat 30 = true ∧ (at' .run).rd HLTH_SEL HLTH_SEL_UNIT < kindUnits.getD ((at' .run).rd HLTH_SEL HLTH_SEL_KIND) 0 ∧
    (at' .run).swapThr 0 ≤ (at' .run).health 0 0 ∧ bitOf (0 : Word).toNat 30 = false ∧ (cmdAt .run).takes 3 Mode.working = true ∧
    (at' .run).faults.outageSrc = none ∧ 17 < kindUnits.getD 0 0 ∧ 0 ≠ kMac ∧ (at' .run).rd (WADI_FUNC 7) WADI_FUNC_CUR ≠ 1 := by
  decide +kernel

/-- The module with what PWR senses changed. -/
def pwrAt (f : PwrSt → PwrSt) : State := (at' .run).onPwr f

theorem witness_SuppliesSoftStartAndTemperature : (pwrAt fun p => { p with on := false }).pwr.on = false ∧
    (pwrAt fun p => { p with on := false }).pwr.charging = false ∧ (pwrAt fun p => { p with fails := 2 }).pwr.fails = 2 ∧
    (pwrAt fun p => { p with fails := 3 }).pwr.fails = 3 ∧ (pwrAt fun p => { p with charging := true }).pwr.charging = true ∧
    (at' .run).pwr.on = true ∧ (at' .run).pwr.low = false ∧ (at' .run).boot.porst = false ∧ (at' .run).pwr.rails = true ∧
    (pwrAt fun p => { p with low := true, rails := false }).pwr.low = true ∧
    ({ at' .run with boot := { (at' .run).boot with porst := true } } : State).boot.porst = true ∧ (at' .run).pwr.hot = false ∧
    (at' .run).tempHigh ≤ (960 : BitVec 16).toInt ∧ (at' .run).pwr.high = false ∧ (at' .run).pwr.crit = false ∧
    (1000 : BitVec 16).toInt = 1000 ∧ (0x0438 : BitVec 16).toInt = 1080 ∧ (10000 : BitVec 16).toNat = 10000 := by decide

/-- Engine 17 stalled at a far load, or with a store posted, of the first word of bank 0. -/
def farAt (owned store : Bool) : State :=
  let s := (at' .run).setPe 17 { Engine.reset with
    state := .run, slot := some 4, stall := if store then none else some (.load 0x40000000 .w32 9),
    wbuf := if store then [⟨0x40000000, [1, 2, 3, 4], 0, .bus⟩] else [] };
  { s with mem := { s.mem with owner := SMap.set (fun _ => 0) s.mem.owner 0 (if owned then 0x14 else 0x15) } }

theorem witness_FarAccessesAreAnsweredOrEnd : regionOf 0x40000000 = .bank 0 ∧ ((farAt true false).pe 17).inReset = false ∧
    ((farAt true false).pe 17).wbuf = [] ∧ ((farAt true false).pe 17).stall = some (.load 0x40000000 .w32 9) ∧
    ((farAt true false).bankLoad 17 ((farAt true false).pe 17).ownerCode 0 0 4 false .ok).1 = .data [0, 0, 0, 0] ∧
    ((farAt true false).bankLoad 17 ((farAt true false).pe 17).ownerCode 0 0 4 false .double).1 = .poisoned ∧
    ((farAt false false).bankLoad 17 ((farAt false false).pe 17).ownerCode 0 0 4 false .ok).1 = .denied ∧
    ((farAt true true).pe 17).wbuf = [⟨0x40000000, [1, 2, 3, 4], 0, .bus⟩] ∧
    ((farAt true true).bankStore 17 ((farAt true true).pe 17).ownerCode 0 0 [1, 2, 3, 4] false .ok).1 = .data [] ∧
    ((farAt false true).bankStore 17 ((farAt false true).pe 17).ownerCode 0 0 [1, 2, 3, 4] false .ok).1 = .denied := by decide +kernel

end Sys2Proof.Tests
end

section
/-! What a host's mode request and a write of GEN_RESET do where they are refused (R84 to R88, R92 to R96). -/

namespace Sys2Proof.Machine

/-! ## Refused mode requests (R86) -/

/-- Events leave the mode alone. -/
theorem Told.mode {s t : State} (h : Told s t) : t.mode = s.mode := by
  obtain ⟨_, _, _, _, _, rfl⟩ := h; rfl

/-- Beyond REFUSE, a refusal changes only what events change. -/
theorem State.refuseMode_told (s : State) (cause target : Nat) :
    Told (s.wr GEN_MODE_STAT GEN_MODE_STAT_REFUSE cause) (s.refuseMode cause target) :=
  State.event_told _ _ _ _ _ _

theorem State.refuseMode_mode (s : State) (cause target : Nat) : (s.refuseMode cause target).mode = s.mode :=
  (s.refuseMode_told cause target).mode

/-- REFUSE holds the low four bits of the cause. -/
theorem State.refuseMode_refuse {s : State} (w : s.regsWf = true) (cause target : Nat) :
    (s.refuseMode cause target).rd GEN_MODE_STAT GEN_MODE_STAT_REFUSE = cause % 16 :=
  calc (s.refuseMode cause target).rd GEN_MODE_STAT GEN_MODE_STAT_REFUSE
    _ = (s.wr GEN_MODE_STAT GEN_MODE_STAT_REFUSE cause).rd GEN_MODE_STAT GEN_MODE_STAT_REFUSE :=
      congrArg GEN_MODE_STAT_REFUSE.get ((s.refuseMode_told cause target).reg GEN_MODE_STAT)
    _ = cause % 16 := rd_wr_self w _ _ _ (by decide) (by decide)

/-- A mode request is accepted, or its whole effect is the refusal with the cause that it answers: each branch that refuses
does so in the state the request found, before SIO_STAT.ACK_OK is used up or a quiesce begins (R84 to R88). -/
theorem State.modeRequest_accepts_or_refuses (s : State) (target : Nat) (sack : Bool) (ring : Option Nat) :
    (s.modeRequest target sack ring).1 = 0 ∨
      (s.modeRequest target sack ring).2 = s.refuseMode (s.modeRequest target sack ring).1 target := by
  unfold State.modeRequest
  generalize (if target = 3 then 2 else target) = want
  dsimp only
  split
  case isTrue notAllowed => exact .inr rfl
  split
  case isTrue entersStandby => exact .inr rfl
  split
  case isTrue toSafe => exact .inl rfl
  split
  case isTrue toStandby =>
    split
    case isTrue accepted => exact .inl rfl
    case isFalse refused => exact .inr rfl
  generalize (if s.mode = .safe then s.safeExit sack else 0) = exitCause
  split
  case isTrue exitRefused => exact .inr rfl
  split
  case isTrue toConfig => exact .inl rfl
  case isFalse toService => exact .inl rfl

/-- Settles O21: a request that answers a cause is `State.refuseMode` in the state it found. -/
theorem refusedModeRequestIsReported : Obligations.RefusedModeRequestIsReported := by
  intro s target sack ring refused
  have h := (s.modeRequest_accepts_or_refuses target sack ring).resolve_left refused
  dsimp only
  generalize (s.modeRequest target sack ring).1 = cause at h
  rw [h]
  exact ⟨s.refuseMode_mode cause target, fun w => State.refuseMode_refuse w cause target, rfl⟩

/-! ## The key of GEN_RESET (R92) -/

/-- A warm reset request that GEN answers. -/
theorem exec_warmResetRequest_of_hears {s : State} {p : Fin 2} (h : s.hears p .gen = true) (key : BitVec 8) :
    exec (.warmResetRequest p key) s = done (if key = 0xA5 then s.quiesceWarm else s.resetKey) :=
  onMw0_hears h _ _

/-- A block reset request that GEN answers. -/
theorem exec_blockReset_of_hears {s : State} {p : Fin 2} (h : s.hears p .gen = true) (key : BitVec 8) (blk : BitVec 5) :
    exec (.blockReset p key blk) s =
      done (if key ≠ 0xA5 ∨ s.badBlock p blk.toNat = true then s.resetKey else s.blockReset blk.toNat) :=
  onMw0_hears h _ _

theorem exec_warmResetRequest_badKey {s : State} {p : Fin 2} (h : s.hears p .gen = true) {key : BitVec 8}
    (bad : key ≠ 0xA5) : exec (.warmResetRequest p key) s = done s.resetKey := by
  rw [exec_warmResetRequest_of_hears h, if_neg bad]

theorem exec_blockReset_badKey {s : State} {p : Fin 2} (h : s.hears p .gen = true) {key : BitVec 8} (bad : key ≠ 0xA5)
    (blk : BitVec 5) : exec (.blockReset p key blk) s = done s.resetKey := by
  rw [exec_blockReset_of_hears h, if_pos (.inl bad)]

/-- A write of GEN_RESET is a warm reset request where WARM is written, else a block reset request where BLK_GO is, else a
check of the key. -/
theorem State.genWrite_reset (s : State) (p : Fin 2) (v : Word) :
    s.genWrite p GEN_RESET v =
      if bitOf v.toNat 0 then exec (.warmResetRequest p (BitVec.ofNat 8 (bitsOf v.toNat 31 24))) s
      else if bitOf v.toNat 1 then
        exec (.blockReset p (BitVec.ofNat 8 (bitsOf v.toNat 31 24)) (BitVec.ofNat 5 (bitsOf v.toNat 12 8))) s
      else done (if BitVec.ofNat 8 (bitsOf v.toNat 31 24) = 0xA5 then s else s.resetKey) := by
  rw [State.genWrite, if_neg (by decide), if_pos rfl]
  rfl

/-- Whatever else a write of GEN_RESET asks for, a wrong key raises RESET_KEY in its place. -/
theorem State.genWrite_reset_badKey {s : State} {p : Fin 2} (h : s.hears p .gen = true) {v : Word}
    (bad : BitVec.ofNat 8 (bitsOf v.toNat 31 24) ≠ 0xA5) : s.genWrite p GEN_RESET v = done s.resetKey := by
  rw [State.genWrite_reset, exec_warmResetRequest_badKey h bad, exec_blockReset_badKey h bad, if_neg bad,
    ite_self, ite_self]

/-- Settles O23, from what each way to write GEN_RESET does with a wrong and with the right key. -/
theorem resetKeyGuardsEveryReset : Obligations.ResetKeyGuardsEveryReset := by
  intro s p key blk h
  refine ⟨fun bad => ⟨exec_warmResetRequest_badKey h bad, exec_blockReset_badKey h bad blk, ?_⟩, ?_, ?_⟩
  · rintro v rfl
    exact State.genWrite_reset_badKey h bad
  · rw [exec_warmResetRequest_of_hears h, if_pos rfl, done]
  · intro named
    rw [exec_blockReset_of_hears h, if_neg (by simp [named]), done]

end Sys2Proof.Machine
end

section
/-! What a masked fault does (R932, R945). -/

namespace Sys2Proof.Machine

/-- The FSTAT word after an occurrence's bit is set. -/
theorem State.setFstat_reg_self {s : State} (w : s.regsWf = true) (b : BlkId) (src : Nat) :
    (s.setFstat b src).reg (FSTAT b) = s.reg (FSTAT b) ||| BitVec.ofNat 32 (2 ^ src) :=
  State.reg_setReg_self w _ _

/-- Settles O7: a masked occurrence ends in `State.setFstat` of the state it found, which writes the FSTAT word alone. -/
theorem maskedFaultSetsItsBitOnly : Obligations.MaskedFaultSetsItsBitOnly := by
  intro s b src caps slot quiet wf masked
  have bitSet := State.setFstat_reg_self wf b src
  refine ⟨s.setFstat b src, done_raiseFor_masked quiet masked caps slot, ?_, bitSet⟩
  rw [bitSet, State.setFstat]

end Sys2Proof.Machine
end

section
/-! What every step keeps, what an idle step does, and the state after reset. -/

namespace Sys2Proof.Machine

/-! ## Steps -/

theorem step_of_empty {s : State} (h : s.pending = []) : step s = .next (tick s) := by
  rw [step, h]

theorem step_of_command {s : State} {c : Instr} {cs : List Instr} (h : s.pending = c :: cs) :
    step s = exec c { s with pending := cs } := by
  rw [step, h]

/-- Settles O1: the front of a queue that holds `c` first is `c`. -/
theorem stepRunsFront : Obligations.StepRunsFront :=
  fun c s => step_of_command (s := { s with pending := c :: s.pending }) rfl

/-- A step goes on from the state whose queue is without its front, and keeps what every operation keeps. -/
theorem step_keptR (s : State) : KeptR { s with pending := s.pending.tail } (step s) := by
  cases h : s.pending with
  | nil =>
    rw [step_of_empty h]
    have same : ({ s with pending := [] } : State) = s := by rw [← h]
    rw [List.tail_nil, same]
    exact (tick_kept s Kept.rfl).next
  | cons c cs =>
    rw [step_of_command h]
    exact exec_kept c _ Kept.rfl

/-- Settles O3, from what every command and the idle cycle keep. -/
theorem everyStepGoesOn : Obligations.EveryStepGoesOn := by
  intro s
  obtain ⟨t, next, pending, m10, _⟩ := step_keptR s
  exact ⟨t, next, pending, m10⟩

/-- Settles O4, from what every command and the idle cycle keep; the canonical form says nothing of the queue. -/
theorem stepKeepsCanonicalForm : Obligations.StepKeepsCanonicalForm := by
  intro s t canon next
  obtain ⟨t', next', _, _, keeps⟩ := step_keptR s
  obtain rfl : t' = t := by simpa [next'] using next
  exact keeps canon

/-- Settles O6: settling a quiet state is the identity. -/
theorem quietStateStaysAsItIs : Obligations.QuietStateStaysAsItIs := fun _ => settle_quiet

/-- Settles O5: the reset state is closed and each part is its own evaluation. -/
theorem resetIsCanonicalAndQuiet : Obligations.ResetIsCanonicalAndQuiet :=
  ⟨rfl, rfl, rfl, rfl, fun _ => rfl⟩

/-! ## The idle step -/

/-- CK_TB stands still under PORST_N (R49). -/
theorem tick_of_porst {s : State} (h : s.boot.porst = true) : tick s = s := by
  have stands : s.tbRuns = false := by simp [State.tbRuns, h]
  rw [tick, stands, Bool.not_false, if_pos rfl]

theorem State.slewPart_of_noSlew {s : State} (h : s.tb.slew = 0) : s.slewPart = 0 := by
  rw [State.slewPart]
  exact if_pos h

/-- With no slew the time base takes 4 ns and FREQ (R644). -/
theorem State.tbTick_of_noSlew {s : State} (h : s.tb.slew = 0) :
    s.tbTick = { s with tb := { s.tb.add (4 * 2 ^ 40 + s.freq) with slew := 0 } } := by
  simp only [State.tbTick, State.slewPart_of_noSlew h, h, Int.add_zero, Int.sub_zero, if_true]

theorem tick_of_running {s : State} (porst : s.boot.porst = false) (mode : s.mode ≠ .standby) :
    tick s = { s.tbTick with pes := s.tbTick.pes.map Engine.tick } := by
  have runs : s.tbRuns = true := by simp [State.tbRuns, porst, mode]
  rw [tick, runs, Bool.not_true, if_neg Bool.false_ne_true, if_neg mode]

/-- Settles O2: the idle step is the tick, which stands under PORST_N and else moves the time base. -/
theorem idleStepIsOneCycle : Obligations.IdleStepIsOneCycle := by
  intro s empty
  refine ⟨step_of_empty empty, tick_of_porst, fun porst mode noSlew => ?_⟩
  rw [tick_of_running porst mode, State.tbTick_of_noSlew noSlew]

end Sys2Proof.Machine
end

section
/-! What an unmasked fault does (R944 to R967), and what a host write leaves in a register (R18). -/

namespace Sys2Proof.Machine

/-! ## An occurrence that no window holds -/

/-- The effective class of an occurrence: one level above its class for the second of its class (R957). -/
def State.effClass (s : State) (b : BlkId) (src : Nat) : Nat :=
  if s.unackedOf b (s.confClass b src) && decide (s.confClass b src < 4) then s.confClass b src + 1 else s.confClass b src

/-- What an occurrence leaves due: its reaction, and the FATAL class effect where the reaction is not that already. -/
def State.dueReact (s : State) (b : BlkId) (src react eff slot : Nat) (forced : Bool) : State :=
  let s4 := if react = 0 then s else
    { s with faults := { s.faults with due := s.faults.due ++ [.react b src react slot forced] } }
  if eff = 4 ∧ react ≠ 4 then
    { s4 with faults := { s4.faults with due := s4.faults.due ++ [.react b src 4 slot forced] } } else s4

/-- What an occurrence that is not held leaves before its FLT_N rule: FSTAT and the capture, the record of the source, what is
due, the log entry and the event. -/
def State.recorded (s : State) (b : BlkId) (src c0 c1 c2 slot : Nat) (forced : Bool) : State :=
  let conf := s.confClass b src
  let eff := s.effClass b src
  let react := s.reaction b src
  let cap := (s.setFstat b src).capture b src (c0, c1, c2)
  (((cap.2.noteSource b src conf eff forced).dueReact b src react eff slot forced).logFault b src eff react
    (decide (conf < eff)) forced (c0, c1, c2)).faultEvent b src eff conf react none (decide (conf < eff)) forced cap.1 (c0, c1, c2)

theorem State.occur_free {s : State} {b : BlkId} {src c0 c1 c2 slot : Nat} (unmasked : s.masked b src = false)
    (free : s.heldBy b src slot c0 = none) (forced : Bool) :
    s.occur b src [c0, c1, c2] slot forced =
      if s.fltMin ≤ s.effClass b src then (s.recorded b src c0 c1 c2 slot forced).fltQualify
      else s.recorded b src c0 c1 c2 slot forced := by
  simp only [State.occur, unmasked, Bool.false_eq_true, if_false, State.capWords, free]
  rfl

theorem State.occur_held {s : State} {b : BlkId} {src c0 c1 c2 slot : Nat} {h : Hold} (unmasked : s.masked b src = false)
    (held : s.heldBy b src slot c0 = some h) (forced : Bool) :
    s.occur b src [c0, c1, c2] slot forced = (s.setFstat b src).faultEvent b src (s.confClass b src) (s.confClass b src) 0 (some h)
      false forced false (c0, c1, c2) := by
  simp only [State.occur, unmasked, Bool.false_eq_true, if_false, State.capWords, held]

/-! ### Registers -/

@[simp] theorem State.noteSource_reg (s : State) (b : BlkId) (src conf eff : Nat) (forced : Bool) (o : Nat) :
    (s.noteSource b src conf eff forced).reg o = s.reg o := rfl

@[simp] theorem State.dueReact_reg (s : State) (b : BlkId) (src react eff slot : Nat) (forced : Bool) (o : Nat) :
    (s.dueReact b src react eff slot forced).reg o = s.reg o := by
  unfold State.dueReact
  dsimp only
  split <;> split <;> rfl

@[simp] theorem State.logFault_reg (s : State) (b : BlkId) (src eff react : Nat) (esc forced : Bool) (c : Nat × Nat × Nat)
    (o : Nat) : (s.logFault b src eff react esc forced c).reg o = s.reg o := by
  unfold State.logFault
  split <;> rfl

theorem State.recorded_reg (s : State) (b : BlkId) (src c0 c1 c2 slot : Nat) (forced : Bool) (o : Nat) :
    (s.recorded b src c0 c1 c2 slot forced).reg o = ((s.setFstat b src).capture b src (c0, c1, c2)).2.reg o := by
  unfold State.recorded
  dsimp only
  rw [(State.faultEvent_told _ _ _ _ _ _ _ _ _ _ _).reg]
  simp

theorem RegsOnly.regsWf_setReg {s t : State} (w : t.regsWf = true) (_ : RegsOnly s t) (off : Nat) (v : Word) :
    (t.setReg off v).regsWf = true :=
  State.regsWf_setReg w off v

theorem State.capture_regsWf {s : State} (w : s.regsWf = true) (b : BlkId) (src : Nat) (c : Nat × Nat × Nat) :
    (s.capture b src c).2.regsWf = true := by
  unfold State.capture
  split
  · exact State.regsWf_setReg w _ _
  · dsimp only [State.setReg64]
    iterate 6 refine State.regsWf_setReg ?_ _ _
    exact w

theorem State.regsWf_eq {s t : State} (h : t.regs = s.regs) : t.regsWf = s.regsWf := by
  rw [State.regsWf, State.regsWf, h]

/-- A rise of FLT_N's pulse count touches HLTH_STAT alone. -/
theorem State.fltQualify_reg {s : State} (w : s.regsWf = true) {o : Nat} (h : o ≠ HLTH_STAT) :
    s.fltQualify.reg o = s.reg o := by
  unfold State.fltQualify
  split
  · rfl
  · rw [State.setPin, State.emit_reg, State.bump, wr_reg_other (by exact w) h]
    rfl

theorem State.noteSource_regsWf (s : State) (b : BlkId) (src conf eff : Nat) (forced : Bool) :
    (s.noteSource b src conf eff forced).regsWf = s.regsWf := rfl

theorem State.dueReact_regsWf (s : State) (b : BlkId) (src react eff slot : Nat) (forced : Bool) :
    (s.dueReact b src react eff slot forced).regsWf = s.regsWf := by
  unfold State.dueReact
  dsimp only
  split <;> split <;> rfl

theorem State.logFault_regsWf (s : State) (b : BlkId) (src eff react : Nat) (esc forced : Bool) (c : Nat × Nat × Nat) :
    (s.logFault b src eff react esc forced c).regsWf = s.regsWf := by
  unfold State.logFault
  split <;> rfl

theorem State.recorded_regsWf {s : State} (w : s.regsWf = true) (b : BlkId) (src c0 c1 c2 slot : Nat) (forced : Bool) :
    (s.recorded b src c0 c1 c2 slot forced).regsWf = true := by
  unfold State.recorded
  dsimp only
  rw [(State.faultEvent_told _ _ _ _ _ _ _ _ _ _ _).regsWf, State.logFault_regsWf, State.dueReact_regsWf, State.noteSource_regsWf]
  exact State.capture_regsWf (State.regsWf_setReg w _ _) b src _

/-- Outside HLTH_STAT an unheld occurrence leaves the registers that its capture left. -/
theorem State.occur_reg {s : State} (w : s.regsWf = true) {b : BlkId} {src c0 c1 c2 slot : Nat}
    (unmasked : s.masked b src = false) (free : s.heldBy b src slot c0 = none) (forced : Bool) {o : Nat} (h : o ≠ HLTH_STAT) :
    (s.occur b src [c0, c1, c2] slot forced).reg o = ((s.setFstat b src).capture b src (c0, c1, c2)).2.reg o := by
  rw [State.occur_free unmasked free, ← State.recorded_reg s b src c0 c1 c2 slot forced o]
  split
  · exact State.fltQualify_reg (State.recorded_regsWf w b src c0 c1 c2 slot forced) h
  · rfl

/-- The base of every fault block is a multiple of 8 KiB (R63). -/
theorem BlkId.base_mod (b : BlkId) : b.base % 0x2000 = 0 := by
  cases b <;> simp only [BlkId.base] <;> omega

/-- No fault block has HLTH_STAT among its fault registers. -/
theorem faultReg_ne_hlthStat (b : BlkId) {k : Nat} (low : 0 < k) (high : k < 0x2000) : b.base + k ≠ HLTH_STAT := by
  have := b.base_mod
  unfold HLTH_STAT
  omega

theorem State.capture_busy {s : State} {b : BlkId} {src : Nat} {c : Nat × Nat × Nat} (held : bitOf (s.reg (FSTAT b)).toNat 31 = true) :
    (s.capture b src c).2 = s.setReg (FSTAT b) (s.reg (FSTAT b) ||| BitVec.ofNat 32 (2 ^ 30)) := by
  rw [State.capture, if_pos held]

theorem State.capture_free {s : State} {b : BlkId} {src : Nat} {c : Nat × Nat × Nat} (free : bitOf (s.reg (FSTAT b)).toNat 31 = false) :
    (s.capture b src c).2 = (((((s.setReg (FSTAT b) ((Fld.mk 28 24).put (s.reg (FSTAT b)) src ||| BitVec.ofNat 32 (2 ^ 31))).setReg
      (FCAP b 0) (BitVec.ofNat 32 c.1)).setReg (FCAP b 1) (BitVec.ofNat 32 c.2.1)).setReg (FCAP b 2)
      (BitVec.ofNat 32 c.2.2)).setReg (FCAP3 b) (BitVec.ofNat 32 (s.now % 2 ^ 32))).setReg (FCAP3 b + 4)
      (BitVec.ofNat 32 (s.now / 2 ^ 32)) := by
  rw [State.capture, if_neg (by simp [free])]
  rfl

theorem bitOf_eq_getLsbD (v : Word) (i : Nat) : bitOf v.toNat i = v.getLsbD i := by
  rw [BitVec.getLsbD, Nat.testBit_eq_decide_div_mod_eq, bitOf]
  exact (Bool.beq_eq_decide_eq _ _)

/-- The bit of a source is not CAPV. -/
theorem getLsbD_or_source (v : Word) {src : Nat} (h : src < 24) :
    (v ||| BitVec.ofNat 32 (2 ^ src)).getLsbD 31 = v.getLsbD 31 := by
  have other : (2 ^ src).testBit 31 = false := by
    rw [Nat.testBit_two_pow]
    exact decide_eq_false (by omega)
  rw [BitVec.getLsbD_or, BitVec.getLsbD_ofNat, other, Bool.and_false, Bool.or_false]

/-- A register after a write of one of them. -/
theorem State.reg_setReg {s : State} (w : s.regsWf = true) (off o : Nat) (v : Word) :
    (s.setReg off v).reg o = if o = off then v else s.reg o := by
  split
  case isTrue same => rw [same, State.reg_setReg_self w]
  case isFalse other => exact State.reg_setReg_other w other v

/-- Settles O8: an occurrence that is not held is its FSTAT bit and then its capture, and what follows keeps every other register but HLTH_STAT. -/
theorem freeCaptureIsFilled : Obligations.FreeCaptureIsFilled := by
  intro s b src c0 c1 c2 slot forced w low unmasked free
  have back : ∀ c : Word, BitVec.ofNat 32 c.toNat = c := fun c => by simp
  have w0 : (s.setFstat b src).regsWf = true := State.regsWf_setReg w _ _
  have reg : ∀ {o}, o ≠ HLTH_STAT → (s.occur b src [c0.toNat, c1.toNat, c2.toNat] slot forced).reg o =
      ((s.setFstat b src).capture b src (c0.toNat, c1.toNat, c2.toNat)).2.reg o :=
    fun h => State.occur_reg w unmasked free forced h
  have fstat := State.setFstat_reg_self w b src
  have capv : bitOf ((s.setFstat b src).reg (FSTAT b)).toNat 31 = (s.reg (FSTAT b)).getLsbD 31 := by
    rw [fstat, bitOf_eq_getLsbD, getLsbD_or_source _ low]
  have n1 : ∀ k, k < 3 → FCAP b k ≠ HLTH_STAT := fun k hk => by
    rw [FCAP, Nat.add_assoc]
    exact faultReg_ne_hlthStat b (by omega) (by omega)
  have n0 : FSTAT b ≠ HLTH_STAT := faultReg_ne_hlthStat b (by decide) (by decide)
  have n2 : FCAP3 b ≠ HLTH_STAT := faultReg_ne_hlthStat b (by decide) (by decide)
  have n3 : FCAP3 b + 4 ≠ HLTH_STAT := faultReg_ne_hlthStat b (k := 0xF44) (by decide) (by decide)
  have apart : ∀ k, FCAP b k ≠ FSTAT b := fun k => by unfold FCAP FSTAT; omega
  refine ⟨fun empty => ?_, fun taken => ?_, fun o m0 m1 m2 m3 m4 m5 m6 => ?_⟩
  · rw [reg n0, reg (n1 0 (by decide)), reg (n1 1 (by decide)), reg (n1 2 (by decide)), reg n2, reg n3,
      State.capture_free (capv.trans empty), fstat]
    simp (disch := repeat first | exact w0 | apply State.regsWf_setReg) [State.reg_setReg, back, FSTAT, FCAP, FCAP3]
    exact ⟨rfl, rfl⟩
  · have kept : ∀ {o}, o ≠ FSTAT b → o ≠ HLTH_STAT → (s.occur b src [c0.toNat, c1.toNat, c2.toNat] slot forced).reg o = s.reg o :=
      fun m h => by
        rw [reg h, State.capture_busy (capv.trans taken), State.reg_setReg_other w0 m, State.setFstat, State.reg_setReg_other w m]
    refine ⟨?_, fun k hk => kept (apart k) (n1 k hk), kept (by unfold FCAP3 FSTAT; omega) n2, kept (by unfold FCAP3 FSTAT; omega) n3⟩
    rw [reg n0, State.capture_busy (capv.trans taken), fstat]
    exact State.reg_setReg_self w0 _ _
  · have kept : (s.setFstat b src).reg o = s.reg o := State.reg_setReg_other w m0 _
    rw [reg m6]
    cases h : (s.reg (FSTAT b)).getLsbD 31
    · rw [State.capture_free (capv.trans h)]
      simp (disch := repeat first | exact w0 | apply State.regsWf_setReg) [State.reg_setReg, m0, m1, m2, m3, m4, m5, kept]
    · rw [State.capture_busy (capv.trans h), State.reg_setReg_other w0 m0, kept]

/-! ### The fault log -/

theorem State.capture_faults (s : State) (b : BlkId) (src : Nat) (c : Nat × Nat × Nat) : (s.capture b src c).2.faults = s.faults := by
  obtain ⟨_, h⟩ := s.capture_only b src c
  rw [h]

/-- A capture leaves the time base and the mode alone. -/
theorem State.capture_now (s : State) (b : BlkId) (src : Nat) (c : Nat × Nat × Nat) : (s.capture b src c).2.now = s.now := by
  obtain ⟨_, h⟩ := s.capture_only b src c
  rw [h]
  rfl

theorem State.capture_mode (s : State) (b : BlkId) (src : Nat) (c : Nat × Nat × Nat) : (s.capture b src c).2.mode = s.mode := by
  obtain ⟨_, h⟩ := s.capture_only b src c
  rw [h]

theorem Told.buffered {s t : State} (h : Told s t) : t.faults.buffered = s.faults.buffered := by
  obtain ⟨_, _, _, _, _, rfl⟩ := h
  rfl

theorem State.fltQualify_buffered (s : State) : s.fltQualify.faults.buffered = s.faults.buffered := by
  unfold State.fltQualify
  split <;> rfl

/-- What an occurrence leaves due is no part of the time base, the mode or the log. -/
theorem State.dueReact_only (s : State) (b : BlkId) (src react eff slot : Nat) (forced : Bool) :
    ∃ due, s.dueReact b src react eff slot forced = { s with faults := { s.faults with due := due } } := by
  unfold State.dueReact
  dsimp only
  split <;> split <;> exact ⟨_, rfl⟩

theorem State.logFault_buffered (s : State) (b : BlkId) (src eff react : Nat) (esc forced : Bool) (c : Nat × Nat × Nat) :
    (s.logFault b src eff react esc forced c).faults.buffered =
      if eff < 2 then s.faults.buffered
      else ⟨s.now, b.code, src, b.instNo, esc, forced, eff, react, s.mode.code, c.1, c.2.1, c.2.2⟩ :: s.faults.buffered := by
  unfold State.logFault
  split <;> rfl

theorem State.recorded_buffered (s : State) (b : BlkId) (src c0 c1 c2 slot : Nat) (forced : Bool) :
    (s.recorded b src c0 c1 c2 slot forced).faults.buffered =
      if s.effClass b src < 2 then s.faults.buffered
      else ⟨s.now, b.code, src, b.instNo, decide (s.confClass b src < s.effClass b src), forced, s.effClass b src,
        s.reaction b src, s.mode.code, c0, c1, c2⟩ :: s.faults.buffered := by
  unfold State.recorded
  dsimp only
  rw [(State.faultEvent_told _ _ _ _ _ _ _ _ _ _ _).buffered, State.logFault_buffered]
  obtain ⟨due, left⟩ := State.dueReact_only (((s.setFstat b src).capture b src (c0, c1, c2)).2.noteSource b src (s.confClass b src)
    (s.effClass b src) forced) b src (s.reaction b src) (s.effClass b src) slot forced
  obtain ⟨regs, taken⟩ := (s.setFstat b src).capture_only b src (c0, c1, c2)
  rw [left, taken]
  rfl

/-- Settles O9: an occurrence that is not held is recorded with its effective class and then qualifies FLT_N. -/
theorem secondOfItsClassEscalates : Obligations.SecondOfItsClassEscalates := by
  intro s b src c0 c1 c2 slot forced unmasked free
  have eff : s.effClass b src = if s.unackedOf b (s.confClass b src) = true ∧ s.confClass b src < 4 then s.confClass b src + 1
      else s.confClass b src := by
    simp only [State.effClass, Bool.and_eq_true, decide_eq_true_eq]
  dsimp only
  rw [← eff, ← State.recorded_buffered s b src c0 c1 c2 slot forced, State.occur_free unmasked free]
  split
  · exact State.fltQualify_buffered _
  · rfl

/-! ### A held occurrence -/

/-- Settles O10: a held occurrence is its FSTAT bit and its event, which touches only what is told. -/
theorem heldFaultIsToldOnly : Obligations.HeldFaultIsToldOnly := by
  intro s b src c0 c1 c2 slot forced h unmasked held
  rw [State.occur_held unmasked held]
  refine ⟨?_, State.faultEvent_told _ _ _ _ _ _ _ _ _ _ _⟩
  simp [State.faultEvent, b2n]
  rfl

/-! ## Host writes -/

/-- A bit lies in a field that `p` admits. -/
def inField (p : Acc → Bool) (fs : List FieldRow) (i : Nat) : Bool :=
  fs.any fun f => p f.acc && decide (f.lo ≤ i) && decide (i ≤ f.hi)

theorem accMask_getLsbD (p : Acc → Bool) (fs : List FieldRow) {i : Nat} (hi : i < 32) (bounded : ∀ f ∈ fs, f.hi < 32) :
    (accMask p fs).getLsbD i = inField p fs i := by
  have fold : ∀ m : Word, (fs.foldl (fun m f => if p f.acc then m ||| (Fld.mk f.hi f.lo).mask else m) m).getLsbD i =
      (m.getLsbD i || inField p fs i) := by
    induction fs with
    | nil => intro m; simp [inField]
    | cons f fs ih =>
      intro m
      have mask := mask_getLsbD ⟨f.hi, f.lo⟩ (bounded f List.mem_cons_self) i hi
      rw [List.foldl_cons, ih (fun g hg => bounded g (List.mem_cons_of_mem _ hg))]
      cases h : p f.acc <;> simp [h, inField, mask, Bool.or_assoc]
  simpa [accMask] using fold 0

/-- Settles O11: a bit of an access mask tells whether a field of that access covers it. -/
theorem hostWriteFollowsAccessCodes : Obligations.HostWriteFollowsAccessCodes := by
  intro fs old v i bounded hi
  have takes := accMask_getLsbD (fun a => a == .rw || a == .rws) fs hi bounded
  have clears := accMask_getLsbD (· == .w1c) fs hi bounded
  change (hostWrite fs old v).getLsbD i = if inField (· == .w1c) fs i = true ∧ v.getLsbD i = true then false
    else if inField (fun a => a == .rw || a == .rws) fs i = true then v.getLsbD i else old.getLsbD i
  rw [← takes, ← clears]
  simp only [hostWrite, BitVec.getLsbD_and, BitVec.getLsbD_or, BitVec.getLsbD_not, hi, decide_true, Bool.true_and]
  cases v.getLsbD i <;> cases (accMask (· == .w1c) fs).getLsbD i <;>
    cases (accMask (fun a => a == .rw || a == .rws) fs).getLsbD i <;> simp

end Sys2Proof.Machine
end

section
/-! The slot 0 instructions that write one register (R225): the model's word operations as the table states them, on natural
numbers, integers and bits. -/

namespace Sys2Proof.Machine

/-! ## Word operations -/

theorem word_add (a b : Word) : a + b = BitVec.ofNat 32 (a.toNat + b.toNat) :=
  BitVec.eq_of_toNat_eq (by simp)

theorem word_sub (a b : Word) : a - b = BitVec.ofInt 32 (a.toNat - b.toNat) := by
  apply BitVec.eq_of_toNat_eq
  rw [BitVec.toNat_sub, BitVec.toNat_ofInt]
  have := a.isLt
  have := b.isLt
  omega

theorem word_shl (a : Word) (k : Nat) : a <<< k = BitVec.ofNat 32 (a.toNat * 2 ^ k) :=
  BitVec.eq_of_toNat_eq (by simp [Nat.shiftLeft_eq])

theorem word_shr (a : Word) (k : Nat) : a >>> k = BitVec.ofNat 32 (a.toNat / 2 ^ k) := by
  apply BitVec.eq_of_toNat_eq
  rw [BitVec.toNat_ushiftRight, Nat.shiftRight_eq_div_pow, BitVec.toNat_ofNat,
    Nat.mod_eq_of_lt (Nat.lt_of_le_of_lt (Nat.div_le_self _ _) a.isLt)]

theorem word_sar (a : Word) (k : Nat) : a.sshiftRight k = BitVec.ofInt 32 (a.toInt / 2 ^ k) := by
  have e : (a.sshiftRight k).toInt = a.toInt / 2 ^ k := by rw [BitVec.toInt_sshiftRight, Int.shiftRight_eq_div_pow]; norm_cast
  rw [← e, BitVec.ofInt_toInt]

theorem boolWord_slt (a b : Word) : boolWord (a.slt b) = if a.toInt < b.toInt then 1 else 0 := by
  simp only [boolWord, BitVec.slt, decide_eq_true_eq]

theorem boolWord_ult (a b : Word) : boolWord (a.ult b) = if a.toNat < b.toNat then 1 else 0 := by
  simp only [boolWord, BitVec.ult, decide_eq_true_eq]

theorem minSigned_eq (a b : Word) : minSigned a b = BitVec.ofInt 32 (min a.toInt b.toInt) := by
  unfold minSigned
  split
  case isTrue le => rw [min_eq_left le, BitVec.ofInt_toInt]
  case isFalse gt => rw [min_eq_right (by omega), BitVec.ofInt_toInt]

theorem maxSigned_eq (a b : Word) : maxSigned a b = BitVec.ofInt 32 (max a.toInt b.toInt) := by
  unfold maxSigned
  split
  case isTrue le => rw [max_eq_right le, BitVec.ofInt_toInt]
  case isFalse gt => rw [max_eq_left (by omega), BitVec.ofInt_toInt]

theorem sext16_eq (i : BitVec 16) : sext16 i = BitVec.ofInt 32 i.toInt := by
  have e : (sext16 i).toInt = i.toInt := BitVec.toInt_signExtend_of_le (by decide)
  rw [← e, BitVec.ofInt_toInt]

theorem sext16_toInt (i : BitVec 16) : (sext16 i).toInt = i.toInt := BitVec.toInt_signExtend_of_le (by decide)

theorem zext16_eq (i : BitVec 16) : zext16 i = BitVec.ofNat 32 i.toNat := BitVec.eq_of_toNat_eq (by simp [zext16])

/-! ## One bundle with one result -/

section
variable {s : State} {n : Fin 18} (quiet : s.quiet = true) (issues : s.issues n = true) (calm : (s.pe n).calm = true)
include quiet issues calm

/-- An operation of two registers that sets no flag. -/
theorem alu2_plain (rd ra rb : Fin 32) (f : Word → Word → Word) {v : Word} (value : f (s.pe n).w[ra] (s.pe n).w[rb] = v) :
    done (s.alu2 n true rd ra rb 1 fun a b => plain (f a b)) = .next (s.setPe n { (s.pe n).ran with w := (s.pe n).w.set rd v }) := by
  rw [alu2_last quiet issues calm, plain_flags, value]

theorem alu1_plain (rd ra : Fin 32) (f : Word → Word) {v : Word} (value : f (s.pe n).w[ra] = v) :
    done (s.alu1 n true rd ra fun a => plain (f a)) = .next (s.setPe n { (s.pe n).ran with w := (s.pe n).w.set rd v }) := by
  rw [alu1_last quiet issues calm, plain_flags, value]

theorem alu0_last (rd : Fin 32) (v : Word) :
    done (s.alu0 n true rd v) = .next (s.setPe n { (s.pe n).ran with w := (s.pe n).w.set rd v }) := by
  rw [← plain_flags]
  exact put_last quiet issues calm rd (plain v) _ rfl

end

/-- A result clamped to the Q1.31 range, with RSAT when it is clamped. -/
theorem clamped_flags (e : Engine) (rd : Fin 32) (x : Int) :
    ({ e.ran with w := e.w.set rd (clampQ31 x).val, flags := e.flags ||| (clampQ31 x).set } : Engine) =
      if x > 2 ^ 31 - 1 then { e.ran with w := e.w.set rd 0x7FFFFFFF, flags := e.flags ||| 0x100 }
      else if x < -2 ^ 31 then { e.ran with w := e.w.set rd 0x80000000, flags := e.flags ||| 0x100 }
      else { e.ran with w := e.w.set rd (BitVec.ofInt 32 x) } := by
  unfold clampQ31
  norm_num
  split
  · rfl
  · split
    · rfl
    · rw [plain_flags]

/-- An operation of two registers whose result is clamped. -/
theorem alu2_clamped {s : State} {n : Fin 18} (quiet : s.quiet = true) (issues : s.issues n = true) (calm : (s.pe n).calm = true)
    (rd ra rb : Fin 32) (f : Word → Word → AluOut) {x : Int} (value : f (s.pe n).w[ra] (s.pe n).w[rb] = clampQ31 x) :
    done (s.alu2 n true rd ra rb 1 f) = .next (s.setPe n (if x > 2 ^ 31 - 1 then
        { (s.pe n).ran with w := (s.pe n).w.set rd 0x7FFFFFFF, flags := (s.pe n).flags ||| 0x100 }
      else if x < -2 ^ 31 then { (s.pe n).ran with w := (s.pe n).w.set rd 0x80000000, flags := (s.pe n).flags ||| 0x100 }
      else { (s.pe n).ran with w := (s.pe n).w.set rd (BitVec.ofInt 32 x) })) := by
  rw [alu2_last quiet issues calm, value, clamped_flags]

/-- Settles O25: each instruction is one bundle with one result, and the model's operation is the one that the table names. -/
theorem registerArithmeticOfSlotZero : Obligations.RegisterArithmeticOfSlotZero := by
  intro s n rd ra rb quiet issues calm
  have plain2 := fun f v h => alu2_plain quiet issues calm rd ra rb f (v := v) h
  exact ⟨plain2 _ _ (word_add _ _), plain2 _ _ (word_sub _ _), plain2 _ _ rfl, plain2 _ _ rfl, plain2 _ _ rfl,
    plain2 _ _ (word_shl _ _), plain2 _ _ (word_shr _ _), plain2 _ _ (word_sar _ _), plain2 _ _ (boolWord_slt _ _),
    plain2 _ _ (boolWord_ult _ _), plain2 _ _ (minSigned_eq _ _), plain2 _ _ (maxSigned_eq _ _),
    alu2_clamped quiet issues calm rd ra rb _ rfl, alu2_clamped quiet issues calm rd ra rb _ rfl⟩

end Sys2Proof.Machine
end

section
/-! The immediate, unary and bit-field instructions of slot 0 (R225, R228), bit by bit. -/

namespace Sys2Proof.Machine

/-! ## Counting bits -/

theorem leadingZeros_le (a : Word) (n : Nat) : leadingZeros a n ≤ n := by
  induction n with
  | zero => exact Nat.le_refl 0
  | succ n ih =>
    rw [leadingZeros]
    split
    · exact Nat.zero_le _
    · omega

/-- Above the first one every bit is 0. -/
theorem leadingZeros_zeros (a : Word) {n i : Nat} (high : n - leadingZeros a n ≤ i) (low : i < n) : a.getLsbD i = false := by
  induction n with
  | zero => exact absurd low (Nat.not_lt_zero i)
  | succ n ih =>
    rw [leadingZeros] at high
    split at high
    · omega
    case isFalse zero =>
      by_cases top : i = n
      · rw [top]; simpa using zero
      · exact ih (by omega) (by omega)

/-- Below the leading zeros stands a one. -/
theorem leadingZeros_one (a : Word) {n : Nat} (h : leadingZeros a n < n) : a.getLsbD (n - 1 - leadingZeros a n) = true := by
  induction n with
  | zero => exact absurd h (Nat.not_lt_zero _)
  | succ n ih =>
    rw [leadingZeros] at h ⊢
    split
    case isTrue one => simpa using one
    case isFalse zero =>
      rw [if_neg zero] at h
      have := ih (by omega)
      rwa [show n + 1 - 1 - (1 + leadingZeros a n) = n - 1 - leadingZeros a n by omega]

theorem onesBelow_eq (a : Word) (n : Nat) : onesBelow a n = (List.range n).countP a.getLsbD := by
  induction n with
  | zero => rfl
  | succ n ih =>
    rw [onesBelow, List.range_succ, List.countP_append, ih, List.countP_singleton, Nat.add_comm]

/-! ## Reversed bits and bytes -/

/-- The number whose bits are the low `m` bits of `v` in reversed order. -/
def reversed (v : Nat) : Nat → Nat
  | 0 => 0
  | m + 1 => 2 * reversed v m + v / 2 ^ m % 2

theorem reversed_testBit (v m j : Nat) : (reversed v m).testBit j = (decide (j < m) && v.testBit (m - 1 - j)) := by
  induction m generalizing j with
  | zero => simp [reversed]
  | succ m ih =>
    rw [reversed]
    cases j with
    | zero =>
      rw [Nat.testBit_zero, Nat.testBit_eq_decide_div_mod_eq]
      have : (2 * reversed v m + v / 2 ^ m % 2) % 2 = v / 2 ^ m % 2 := by omega
      simp [this]
    | succ j =>
      have half : (2 * reversed v m + v / 2 ^ m % 2) / 2 = reversed v m := by omega
      rw [Nat.testBit_succ, half, ih]
      have : m + 1 - 1 - (j + 1) = m - 1 - j := by omega
      rw [this]
      simp

/-- Each bit of `revBits` is added at its place in the reversed number. -/
theorem revBits_fold (n v : Nat) {m : Nat} (h : m ≤ n) :
    (List.range m).foldl (fun r i => r + (v / 2 ^ i % 2) * 2 ^ (n - 1 - i)) 0 = reversed v m * 2 ^ (n - m) := by
  induction m with
  | zero => simp [reversed]
  | succ m ih =>
    rw [List.range_succ, List.foldl_append, ih (by omega), List.foldl_cons, List.foldl_nil, reversed,
      show n - m = n - (m + 1) + 1 by omega, show n - 1 - m = n - (m + 1) by omega]
    ring

theorem revBits_eq (n v : Nat) : revBits n v = reversed v n := by
  rw [revBits, revBits_fold n v (Nat.le_refl n), Nat.sub_self, Nat.pow_zero, Nat.mul_one]

theorem brev_getLsbD (a : Word) {i : Nat} (hi : i < 32) : (brev a).getLsbD i = a.getLsbD (31 - i) := by
  rw [brev, revBits_eq, BitVec.getLsbD_ofNat, reversed_testBit]
  simp [hi, BitVec.getLsbD]

theorem bswap_getLsbD (a : Word) {j i : Nat} (hj : j < 4) (hi : i < 8) :
    (bswap a).getLsbD (8 * j + i) = a.getLsbD (8 * (3 - j) + i) := by
  simp only [bswap, BitVec.getLsbD_append, BitVec.getLsbD_extractLsb']
  have cases : j = 0 ∨ j = 1 ∨ j = 2 ∨ j = 3 := by omega
  obtain rfl | rfl | rfl | rfl := cases
  · simp [hi]
  · simp [hi, show ¬ 8 + i < 8 by omega]
  · simp [hi, show ¬ 16 + i < 8 by omega, show ¬ 16 + i - 8 < 8 by omega, show 16 + i - 8 - 8 = i by omega]
  · simp [hi, show ¬ 24 + i < 8 by omega, show ¬ 24 + i - 8 < 8 by omega, show ¬ 24 + i - 8 - 8 < 8 by omega,
      show 24 + i - 8 - 8 - 8 = i by omega]

/-! ## Bit fields -/

theorem fieldU_getLsbD (a : Word) (pos width : Nat) {i : Nat} (hi : i < 32) :
    (fieldU a pos width).getLsbD i = (decide (i < width) && a.getLsbD (pos + i)) := by
  rw [fieldU, BitVec.getLsbD_ofNat, Nat.testBit_mod_two_pow, Nat.testBit_div_two_pow]
  simp [hi, BitVec.getLsbD, Nat.add_comm]

theorem signedOf_eq_toInt {width : Nat} (positive : 0 < width) (v : Nat) : signedOf width v = (BitVec.ofNat width v).toInt := by
  have double : 2 ^ width = 2 * 2 ^ (width - 1) := by rw [← Nat.pow_succ']; congr 1; omega
  rw [BitVec.toInt_eq_toNat_cond, BitVec.toNat_ofNat, signedOf]
  by_cases low : v % 2 ^ width < 2 ^ (width - 1)
  · rw [if_pos low, if_pos (by omega)]
  · rw [if_neg low, if_neg (by omega)]
    norm_cast

/-- A number of `width` bits, read as signed, has its top bit in every place above. -/
theorem fieldS_getLsbD (a : Word) {pos width : Nat} (positive : 0 < width) {i : Nat} (hi : i < 32) :
    (fieldS a pos width).getLsbD i = a.getLsbD (pos + min i (width - 1)) := by
  have bit : ∀ k, k < width → (BitVec.ofNat width (a.toNat / 2 ^ pos)).getLsbD k = a.getLsbD (pos + k) := fun k hk => by
    rw [BitVec.getLsbD_ofNat, Nat.testBit_div_two_pow, BitVec.getLsbD, Nat.add_comm, decide_eq_true hk, Bool.true_and]
  rw [fieldS, signedOf_eq_toInt positive, ← BitVec.signExtend, BitVec.getLsbD_signExtend, decide_eq_true hi, Bool.true_and]
  split
  case isTrue inside => rw [bit i inside, min_eq_left (by omega)]
  case isFalse above => rw [BitVec.msb_eq_getLsbD_last, bit _ (by omega), min_eq_right (by omega)]

theorem insertField_getLsbD (d a : Word) {pos width : Nat} (bound : pos + width ≤ 32) {i : Nat} (hi : i < 32) :
    (insertField d a pos width).getLsbD i =
      if pos ≤ i ∧ i ≤ pos + width - 1 then a.getLsbD (i - pos) else d.getLsbD i := by
  rw [insertField, Fld.put, BitVec.getLsbD_or, BitVec.getLsbD_and, BitVec.getLsbD_not, mask_getLsbD _ (by simp; omega) i hi,
    BitVec.getLsbD_ofNat, ← Nat.shiftLeft_eq, Nat.testBit_shiftLeft, Fld.size, Nat.testBit_mod_two_pow]
  by_cases low : pos ≤ i
  · by_cases high : i ≤ pos + width - 1
    · have inside : i - pos < pos + width - 1 + 1 - pos := by omega
      simp [hi, low, high, inside, BitVec.getLsbD]
    · have outside : ¬ i - pos < pos + width - 1 + 1 - pos := by omega
      simp [hi, low, high, outside]
  · simp [hi, low]

/-! ## The absolute value -/

theorem absSat_eq (a : Word) : absSat a = if a = 0x80000000 then ⟨0x7FFFFFFF, 0x100⟩ else plain (BitVec.ofNat 32 a.toInt.natAbs) := by
  have least : a.toInt = -2147483648 ↔ a = 0x80000000 := by
    rw [← BitVec.toInt_inj]; rfl
  have := a.le_toInt
  unfold absSat clampQ31
  split
  case isTrue negative =>
    rw [← Int.ofNat_natAbs_of_nonpos (by omega)]
    by_cases h : a = 0x80000000
    · subst h; rfl
    · have : a.toInt ≠ -2147483648 := fun e => h (least.mp e)
      rw [if_neg (by omega), if_neg (by omega), if_neg h, BitVec.ofInt_natCast]
  case isFalse positive =>
    have : a ≠ 0x80000000 := fun e => by have := least.mpr e; omega
    have abs : (a.toInt.natAbs : Int) = a.toInt := Int.natAbs_of_nonneg (by omega)
    rw [if_neg this, ← BitVec.ofInt_natCast, abs, BitVec.ofInt_toInt]

/-- The one instruction that clamps an operand: ABS. -/
theorem absSat_flags (e : Engine) (rd : Fin 32) (a : Word) :
    ({ e.ran with w := e.w.set rd (absSat a).val, flags := e.flags ||| (absSat a).set } : Engine) =
      if a = 0x80000000 then { e.ran with w := e.w.set rd 0x7FFFFFFF, flags := e.flags ||| 0x100 }
      else { e.ran with w := e.w.set rd (BitVec.ofNat 32 a.toInt.natAbs) } := by
  rw [absSat_eq]
  split
  · rfl
  · rw [plain_flags]

theorem exec_shli {n : Fin 18} {rd ra : Fin 32} {imm : BitVec 16} (h : imm.toNat < 32) (last : Bool) (s : State) :
    exec (.shli n rd ra imm last) s = done (s.alu1 n last rd ra fun a => plain (a <<< imm.toNat)) := if_neg (by omega)

theorem exec_shri {n : Fin 18} {rd ra : Fin 32} {imm : BitVec 16} (h : imm.toNat < 32) (last : Bool) (s : State) :
    exec (.shri n rd ra imm last) s = done (s.alu1 n last rd ra fun a => plain (a >>> imm.toNat)) := if_neg (by omega)

theorem exec_sari {n : Fin 18} {rd ra : Fin 32} {imm : BitVec 16} (h : imm.toNat < 32) (last : Bool) (s : State) :
    exec (.sari n rd ra imm last) s = done (s.alu1 n last rd ra fun a => plain (a.sshiftRight imm.toNat)) := if_neg (by omega)

theorem exec_extu {n : Fin 18} {rd ra pos wm1 : Fin 32} (h : pos.val + wm1.val + 1 ≤ 32) (last : Bool) (s : State) :
    exec (.extu n rd ra pos wm1 last) s = done (s.alu1 n last rd ra fun a => plain (fieldU a pos.val (wm1.val + 1))) :=
  if_neg (by omega)

theorem exec_exts {n : Fin 18} {rd ra pos wm1 : Fin 32} (h : pos.val + wm1.val + 1 ≤ 32) (last : Bool) (s : State) :
    exec (.exts n rd ra pos wm1 last) s = done (s.alu1 n last rd ra fun a => plain (fieldS a pos.val (wm1.val + 1))) :=
  if_neg (by omega)

theorem exec_ins {n : Fin 18} {rd ra pos wm1 : Fin 32} (h : pos.val + wm1.val + 1 ≤ 32) (last : Bool) (s : State) :
    exec (.ins n rd ra pos wm1 last) s =
      done (s.alu2 n last rd rd ra 1 fun d a => plain (insertField d a pos.val (wm1.val + 1))) :=
  if_neg (by omega)

/-- Settles O26: each instruction is one bundle with one result, and the model's operation is the one that the table names. -/
theorem immediateAndUnaryOfSlotZero : Obligations.ImmediateAndUnaryOfSlotZero := by
  intro s n rd ra pos wm1 imm quiet issues calm
  have plain1 := fun f v h => alu1_plain quiet issues calm rd ra f (v := v) h
  have zext : ∀ f : Word → Word → Word, f (s.pe n).w[ra] (zext16 imm) = f (s.pe n).w[ra] (BitVec.ofNat 32 imm.toNat) :=
    fun f => by rw [zext16_eq]
  refine ⟨plain1 _ _ (addr_eq _ _), plain1 _ _ (zext (· &&& ·)), plain1 _ _ (zext (· ||| ·)), plain1 _ _ (zext (· ^^^ ·)),
    fun amount => ⟨?_, ?_, ?_⟩, plain1 _ _ ?_, ?_, ?_, ?_,
    ⟨leadingZeros (s.pe n).w[ra] 32, leadingZeros_le _ _, plain1 _ _ rfl, fun i high low => leadingZeros_zeros _ high low,
      fun h => leadingZeros_one _ h⟩,
    plain1 _ _ (congrArg (BitVec.ofNat 32) (onesBelow_eq _ _)), ⟨_, plain1 _ _ rfl, fun j i hj hi => bswap_getLsbD _ hj hi⟩,
    ⟨_, plain1 _ _ rfl, fun i hi => brev_getLsbD _ hi⟩, fun field => ⟨⟨_, (exec_extu field true s).trans (plain1 _ _ rfl), ?_⟩,
      ⟨_, (exec_exts field true s).trans (plain1 _ _ rfl), ?_⟩,
      ⟨_, (exec_ins field true s).trans (alu2_plain quiet issues calm rd rd ra _ rfl), ?_⟩⟩⟩
  case refine_1 => exact (exec_shli amount true s).trans (plain1 _ _ (word_shl _ _))
  case refine_2 => exact (exec_shri amount true s).trans (plain1 _ _ (word_shr _ _))
  case refine_3 => exact (exec_sari amount true s).trans (plain1 _ _ (word_sar _ _))
  case refine_4 => rw [boolWord_slt, sext16_toInt]
  case refine_5 => exact sext16_eq imm ▸ alu0_last quiet issues calm rd (sext16 imm)
  case refine_6 =>
    have value : zext16 imm <<< 16 = BitVec.ofNat 32 (imm.toNat * 2 ^ 16) := by
      rw [word_shl, zext16, BitVec.zeroExtend, BitVec.toNat_setWidth_of_le (by decide)]
    exact value ▸ alu0_last quiet issues calm rd (zext16 imm <<< 16)
  case refine_7 =>
    refine (alu1_last quiet issues calm rd ra _).trans ?_
    rw [absSat_flags]
    exact apply_ite (fun e => Host.Outcome.next (s.setPe n e)) _ _ _
  case refine_8 =>
    intro i hi
    rw [fieldU_getLsbD _ _ _ hi]
    simp only [Nat.lt_succ_iff]
  case refine_9 => exact fun i hi => fieldS_getLsbD _ (Nat.succ_pos _) hi
  case refine_10 =>
    intro i hi
    rw [insertField_getLsbD _ _ (by omega : pos.val + (wm1.val + 1) ≤ 32) hi]
    simp only [Nat.add_sub_cancel, ← Nat.add_assoc]

end Sys2Proof.Machine
end

section
/-! The accumulator and flag instructions of slot 0 and NOP (R225 to R227, R243 to R246). -/

namespace Sys2Proof.Machine

/-! ## Rounding and fitting -/

/-- Rounding of `x / 2^k` as R243 and R245 state it: 0 truncation, 1 round-half-up, 2 convergent. -/
def rounded (rnd k : Nat) (x : Int) : Int :=
  if k = 0 then x else if rnd = 0 then x / 2 ^ k
  else if rnd = 1 ∨ x % 2 ^ k ≠ 2 ^ (k - 1) then (x + 2 ^ (k - 1)) / 2 ^ k
  else 2 * ((x / 2 ^ k + 1) / 2)

/-- Half a unit added before the division rounds up from half a unit on. -/
theorem add_half_div {x h : Int} (positive : 0 < h) :
    (x + h) / (2 * h) = if x % (2 * h) < h then x / (2 * h) else x / (2 * h) + 1 := by
  have := Int.mul_ediv_add_emod x (2 * h)
  have := Int.emod_nonneg x (show 2 * h ≠ 0 by omega)
  have := Int.emod_lt_of_pos x (show 0 < 2 * h by omega)
  generalize x / (2 * h) = q at *
  split
  · rw [Int.ediv_eq_iff_of_pos (by omega)]
    constructor <;> nlinarith
  · rw [Int.ediv_eq_iff_of_pos (by omega)]
    constructor <;> nlinarith

theorem roundShift_eq (rnd k : Nat) (x : Int) : roundShift rnd k x = rounded rnd k x := by
  unfold roundShift rounded
  by_cases zero : k = 0
  · rw [if_pos zero, if_pos zero]
  have double : (2 : Int) ^ k = 2 * 2 ^ (k - 1) := by rw [← pow_succ']; congr 1; omega
  have positive : (0 : Int) < 2 ^ (k - 1) := by positivity
  rw [if_neg zero, if_neg zero, double]
  generalize (2 : Int) ^ (k - 1) = h at *
  have fdiv : ∀ y : Int, y.fdiv (2 * h) = y / (2 * h) := fun y => Int.fdiv_eq_ediv_of_nonneg y (by omega)
  simp only [fdiv]
  have := Int.mul_ediv_add_emod x (2 * h)
  have := Int.emod_nonneg x (show 2 * h ≠ 0 by omega)
  have remainder : x - x / (2 * h) * (2 * h) = x % (2 * h) := by rw [Int.mul_comm]; omega
  rw [remainder, add_half_div positive]
  generalize x / (2 * h) = q
  generalize x % (2 * h) = r
  by_cases truncate : rnd = 0
  · rw [if_pos truncate, if_pos truncate]
  by_cases up : rnd = 1
  · rw [if_neg truncate, if_neg truncate, if_pos up, if_pos (show rnd = 1 ∨ r ≠ h from .inl up)]
  rw [if_neg truncate, if_neg truncate, if_neg up]
  by_cases tie : r = h
  · rw [if_neg (show ¬ r < h by omega), if_neg (show ¬ r > h by omega),
      if_neg (show ¬ (rnd = 1 ∨ r ≠ h) from fun either => either.elim up (· tie))]
    split <;> omega
  · rw [if_pos (show rnd = 1 ∨ r ≠ h from .inr tie)]
    by_cases low : r < h
    · rw [if_pos low, if_pos low]
    · rw [if_neg low, if_neg low, if_pos (show r > h by omega)]

/-- A result fitted to 40 bits with the number of the flag bits it sets (R244). -/
def fitted (acc : Fin 4) (sat : Bool) (x : Int) : BitVec 40 × Nat :=
  if -2 ^ 39 ≤ x ∧ x < 2 ^ 39 then (BitVec.ofInt 40 x, 0)
  else if sat then (if 0 < x then 0x7FFFFFFFFF else 0x8000000000, 2 ^ acc.val)
  else (BitVec.ofInt 40 x, 2 ^ (4 + acc.val))

theorem fitAcc_eq (acc : Fin 4) (sat : Bool) (x : Int) :
    fitAcc acc sat x = ((fitted acc sat x).1, BitVec.ofNat 10 (fitted acc sat x).2) := by
  unfold fitAcc fitted
  norm_num
  by_cases above : 549755813887 < x
  · have : 0 < x := by omega
    have : ¬ (x < 549755813888) := by omega
    cases sat <;> simp [*, flagASAT, flagAOVF]
  · by_cases below : x < -549755813888
    · have : ¬ 0 < x := by omega
      have : ¬ -549755813888 ≤ x := by omega
      cases sat <;> simp [*, flagASAT, flagAOVF]
    · have : -549755813888 ≤ x := by omega
      have : x < 549755813888 := by omega
      simp [*]

/-- The flag bits of a result name accumulators: they fit the flag register. -/
theorem fitted_flag (acc : Fin 4) (sat : Bool) (x : Int) :
    (BitVec.ofNat 10 (fitted acc sat x).2).setWidth 40 = BitVec.ofNat 40 (fitted acc sat x).2 ∧
      (BitVec.ofNat 10 (fitted acc sat x).2 = 0 ↔ (fitted acc sat x).2 = 0) := by
  have bits : ∀ a : Fin 4, ∀ f ∈ [0, 2 ^ a.val, 2 ^ (4 + a.val)], (BitVec.ofNat 10 f).setWidth 40 = BitVec.ofNat 40 f ∧
      (BitVec.ofNat 10 f = 0 ↔ f = 0) := by decide
  refine bits acc _ ?_
  unfold fitted
  split
  · exact List.mem_cons_self
  · split <;> simp

/-! ## Bundles of one instruction -/

/-- An engine that begins a bundle with nothing in flight can close it as well. -/
theorem closes_of_issues {s : State} {n : Fin 18} (issues : s.issues n = true) (calm : (s.pe n).calm = true) : s.closes n = true := by
  simp only [State.issues, Bool.and_eq_true, Bool.not_eq_true'] at issues
  obtain ⟨⟨⟨can, _⟩, bp⟩, sound⟩ := issues
  simp [State.closes, can, bp, sound, (calm_parts calm).1]

section
variable {s : State} {n : Fin 18} (quiet : s.quiet = true) (issues : s.issues n = true) (calm : (s.pe n).calm = true)
include quiet issues calm

/-- A bundle of two NOPs. -/
theorem exec_nop_last : exec (.nop n true) s = .next (s.setPe n (s.pe n).ran) := by
  have closes := closes_of_issues issues calm
  have pend := (calm_parts calm).1
  have bundle : s.issue1 n (fun t => (t, true)) = s.setPe n (s.pe n).ran := by
    have half : ({ s.pe n with half := true } : Engine).calm = true := calm
    have finish := finish_late half (issues_run issues) [] (by simp)
    rw [issue1_go closes]
    dsimp only
    rw [if_pos rfl, onPe_onPe, State.onPe]
    congr 1
    refine Eq.trans ?_ (finish.trans ?_)
    · simp only [pend]
    · simp [Engine.ran, pend]
  exact (congrArg done bundle).trans (done_quiet quiet)

/-- A MAC-class instruction leaves its fitted result in flight, and the flag it sets. -/
theorem macClass_last (acc : Fin 4) (ra rb : Fin 32) (sat : Bool) {rnd : Nat} (defined : rnd ≠ 3) (f : Int → Int → Int) :
    let x := f (s.pe n).acc[acc].toInt (rounded rnd 31 ((s.pe n).w[ra].toInt * (s.pe n).w[rb].toInt))
    done (s.macClass n true acc ra rb sat rnd f) = .next (s.setPe n { (s.pe n).ran with
      pend := ⟨.acc acc, (fitted acc sat x).1, 2, false, true, false⟩ ::
        (if (fitted acc sat x).2 = 0 then [] else
          [⟨.setFlags, BitVec.ofNat 40 (fitted acc sat x).2, 2, false, true, false⟩]) }) := by
  intro x
  obtain ⟨pend, w, accs, _⟩ := lastPc_calm calm
  obtain ⟨wide, zero⟩ := fitted_flag acc sat x
  have late := late_last quiet issues calm (⟨.acc acc, (fitted acc sat x).1, 3, true, true, false⟩ ::
    (if (fitted acc sat x).2 = 0 then [] else [⟨.setFlags, BitVec.ofNat 40 (fitted acc sat x).2, 3, true, true, false⟩]))
    (by split <;> simp) (fun t =>
      let (x, t1) := t.readW n ra
      let (y, t2) := t1.readW n rb
      let (z, t3) := t2.readAcc n acc true
      t3.putAcc n acc (fitAcc acc sat (f z.toInt (macProduct rnd x y))) 3 true) ?_
  · rw [State.macClass, if_neg defined, late]
    congr 3
    split <;> simp
  · dsimp only
    rw [readW_calm pend, readW_calm pend, readAcc_calm pend, w, accs, macProduct, roundShift_eq, fitAcc_eq, State.putAcc,
      onPe_onPe]
    simp only [Engine.result]
    unfold State.onPe
    congr 1
    simp only [(calm_parts calm).1, List.nil_append]
    split <;> simp_all [x]

/-- One result that is visible to the next bundle, in an accumulator. -/
theorem putAcc_last (acc : Fin 4) (v : BitVec 40) (body : State → State)
    (effect : body (s.onPe n fun e => { e with lastPc := e.pc }) =
      (s.onPe n fun e => { e with lastPc := e.pc }).putAcc n acc (v, 0) 1 false) :
    done (s.issue0 n true body) = .next (s.setPe n { (s.pe n).ran with acc := (s.pe n).acc.set acc v }) := by
  refine now_last quiet issues calm ⟨.acc acc, v, 1, true, false, false⟩ rfl (by simp) body ?_
  rw [effect, State.putAcc, onPe_onPe]
  simp only [Engine.result, if_true]
  unfold State.onPe
  simp only [(calm_parts calm).1, List.nil_append]

end

/-- The three cases of a fitted result, under any use of it. -/
theorem apply_fitted {α : Type} (late : BitVec 40 → Nat → α) (acc : Fin 4) (sat : Bool) (x : Int) :
    late (fitted acc sat x).1 (fitted acc sat x).2 =
      if -2 ^ 39 ≤ x ∧ x < 2 ^ 39 then late (BitVec.ofInt 40 x) 0
      else if sat then late (if 0 < x then 0x7FFFFFFFFF else 0x8000000000) (2 ^ acc.val)
      else late (BitVec.ofInt 40 x) (2 ^ (4 + acc.val)) := by
  unfold fitted
  split
  · rfl
  · split <;> rfl

/-- What EXT leaves: the scaled, rounded accumulator, clamped with RSAT or wrapped with ROVF where it does not fit (R245). -/
theorem extResult_flags (e : Engine) (rd : Fin 32) (z : BitVec 40) (sh rnd : Nat) (sat : Bool) :
    let x := rounded rnd sh z.toInt
    ({ e.ran with w := e.w.set rd (extResult z sh sat rnd).val, flags := e.flags ||| (extResult z sh sat rnd).set } : Engine) =
      if -2 ^ 31 ≤ x ∧ x < 2 ^ 31 then { e.ran with w := e.w.set rd (BitVec.ofInt 32 x) }
      else if sat then
        { e.ran with w := e.w.set rd (if 0 < x then 0x7FFFFFFF else 0x80000000), flags := e.flags ||| 0x100 }
      else { e.ran with w := e.w.set rd (BitVec.ofInt 32 x), flags := e.flags ||| 0x200 } := by
  intro x
  have value : extResult z sh sat rnd = if sat then clampQ31 x
      else if x > 2147483647 ∨ x < -2147483648 then ⟨BitVec.ofInt 32 x, flagROVF⟩ else plain (BitVec.ofInt 32 x) := by
    rw [extResult, roundShift_eq]
  rw [value]
  generalize x = x
  norm_num
  cases sat
  case false =>
    by_cases fits : -2147483648 ≤ x ∧ x < 2147483648
    · rw [if_pos fits, if_neg Bool.false_ne_true, if_neg (by omega), plain_flags]
    · rw [if_neg fits, if_neg Bool.false_ne_true, if_neg Bool.false_ne_true, if_pos (by omega)]
      rfl
  case true =>
    rw [if_pos rfl, if_pos rfl, clamped_flags]
    norm_num
    by_cases above : 2147483647 < x
    · rw [if_pos above, if_neg (by omega), if_pos (by omega)]
    · by_cases below : x < -2147483648
      · rw [if_neg above, if_pos below, if_neg (by omega), if_neg (by omega)]
      · rw [if_neg above, if_neg below, if_pos (by omega)]

/-- CLRF clears its bits before the next bundle (R227). -/
theorem clearFlags_last {s : State} {n : Fin 18} (quiet : s.quiet = true) (issues : s.issues n = true)
    (calm : (s.pe n).calm = true) (v : BitVec 40) :
    done (s.issue0 n true fun t => t.onPe n (·.result .clearFlags v 1 false)) =
      .next (s.setPe n { (s.pe n).ran with flags := (s.pe n).flags &&& ~~~ v.setWidth 10 }) := by
  obtain ⟨pend, xfer, halt⟩ := calm_parts calm
  have run := issues_run issues
  have bundle : (s.issue0 n true fun t => t.onPe n (·.result .clearFlags v 1 false)) =
      s.setPe n { (s.pe n).ran with flags := (s.pe n).flags &&& ~~~ v.setWidth 10 } := by
    rw [issue0_go issues]
    dsimp only
    rw [if_pos rfl, onPe_onPe, onPe_onPe, State.onPe]
    congr 1
    simp [Engine.result, pend, Engine.finishBundle, Engine.endBundle, Engine.applyAll, Engine.apply, nextPc, xfer, halt, run, Engine.ran]
  rw [bundle]
  exact done_quiet quiet

theorem exec_ext {n : Fin 18} {rd : Fin 32} {acc : Fin 4} {sh : Fin 16} {sat : Bool} {rnd : Fin 4} (defined : rnd.val ≠ 3)
    (small : sh.val ≤ 8) (last : Bool) (s : State) :
    exec (.ext n rd acc sh sat rnd last) s = done (s.issue0 n last fun t =>
      let (z, t1) := t.readAcc n acc false
      t1.put n rd (extResult z sh.val sat rnd.val) 1) :=
  if_neg (by omega)

theorem exec_clrf {n : Fin 18} {imm : BitVec 16} (h : imm.toNat < 1024) (last : Bool) (s : State) :
    exec (.clrf n imm last) s =
      done (s.issue0 n last fun t => t.onPe n (·.result .clearFlags (imm.zeroExtend 40) 1 false)) :=
  if_neg (by omega)

/-- SETG: the guard bits above the low 32 bits of the accumulator (R246). -/
theorem guard_append (a : Word) (z : BitVec 40) :
    a.extractLsb' 0 8 ++ z.extractLsb' 0 32 = BitVec.ofNat 40 (a.toNat % 256 * 2 ^ 32 + z.toNat % 2 ^ 32) := by
  apply BitVec.eq_of_toNat_eq
  have low : z.toNat % 2 ^ 32 < 2 ^ 32 := Nat.mod_lt _ (by decide)
  rw [BitVec.toNat_append, BitVec.extractLsb'_toNat, BitVec.extractLsb'_toNat, Nat.shiftRight_zero, Nat.shiftRight_zero,
    ← Nat.shiftLeft_add_eq_or_of_lt low, Nat.shiftLeft_eq, BitVec.toNat_ofNat]
  omega

/-- EXTG: the guard bits, sign-extended, are the accumulator divided by 2^32 (R246). -/
theorem guard_signExtend (z : BitVec 40) : (z.extractLsb' 32 8).signExtend 32 = BitVec.ofInt 32 (z.toInt / 2 ^ 32) := by
  have shifted : z.toInt / 2 ^ 32 = (z.sshiftRight 32).toInt := by
    rw [BitVec.toInt_sshiftRight, Int.shiftRight_eq_div_pow]; norm_cast
  rw [shifted]
  change _ = (z.sshiftRight 32).signExtend 32
  apply BitVec.eq_of_getLsbD_eq
  intro i hi
  rw [BitVec.getLsbD_signExtend, BitVec.getLsbD_signExtend, BitVec.getLsbD_sshiftRight, BitVec.getLsbD_extractLsb',
    BitVec.msb_extractLsb', BitVec.msb_eq_getLsbD_last]
  by_cases guard : i < 8
  · simp [hi, guard, show i < 40 by omega, show 32 + i < 40 by omega]
  · have sign : z.getMsbD 0 = z[39] := by simp [BitVec.getMsbD_eq_getLsbD]
    simp [hi, guard, show i < 40 by omega, show ¬ 40 ≤ i by omega, show ¬ 32 + i < 40 by omega, sign]

/-- Settles O27: each instruction is one bundle whose result is the fitted value that the tables name. -/
theorem accumulatorAndFlagInstructions : Obligations.AccumulatorAndFlagInstructions := by
  intro s n acc rd ra rb sh rnd imm quiet issues calm
  obtain ⟨pend, w, accs, flags⟩ := lastPc_calm calm
  have mac := fun sat defined f => (macClass_last quiet issues calm acc ra rb sat (rnd := rnd.val) defined f).trans
    (apply_fitted (fun v b => Host.Outcome.next (s.setPe n { (s.pe n).ran with
      pend := ⟨.acc acc, v, 2, false, true, false⟩ ::
        (if b = 0 then [] else [⟨.setFlags, BitVec.ofNat 40 b, 2, false, true, false⟩]) })) acc sat _)
  have plain1 := fun v body h => (put_last quiet issues calm rd (plain v) body h).trans
    (congrArg (fun e => Host.Outcome.next (s.setPe n e)) (plain_flags (s.pe n) rd v))
  refine ⟨exec_nop_last quiet issues calm, fun defined sat => ⟨mac sat defined _, mac sat defined _, mac sat defined _⟩, ?mul,
    fun defined small sat => ?ext, ?setacc, ?setg, ?extg, ?getf, fun h => ?clrf⟩
  case mul =>
    have value : ((s.pe n).w[ra] * (s.pe n).w[rb]).setWidth 40 =
        BitVec.ofNat 40 ((s.pe n).w[ra].toNat * (s.pe n).w[rb].toNat % 2 ^ 32) :=
      BitVec.eq_of_toNat_eq (by simp)
    dsimp only
    rw [← value]
    refine late_last quiet issues calm [⟨.reg rd, _, 3, true, false, false⟩] (by simp) _ ?_
    dsimp only
    rw [readW_calm pend, readW_calm pend, w, State.put, onPe_onPe]
    simp only [plain, Engine.result, if_true]
    unfold State.onPe
    simp only [(calm_parts calm).1, List.nil_append]
    rfl
  case ext =>
    refine (exec_ext defined small true s).trans ((put_last quiet issues calm rd (extResult (s.pe n).acc[acc] sh sat rnd) _ ?_).trans ?_)
    · dsimp only
      rw [readAcc_calm pend, accs]
    · rw [extResult_flags]
      rfl
  case setacc =>
    refine putAcc_last quiet issues calm acc _ _ ?_
    dsimp only
    rw [readW_calm pend, w]
    rfl
  case setg =>
    have value : (s.pe n).w[ra].extractLsb' 0 8 ++ (s.pe n).acc[acc].extractLsb' 0 32 =
        BitVec.ofNat 40 ((s.pe n).w[ra].toNat % 256 * 2 ^ 32 + (s.pe n).acc[acc].toNat % 2 ^ 32) := guard_append _ _
    dsimp only
    rw [← value]
    refine putAcc_last quiet issues calm acc _ _ ?_
    dsimp only
    rw [readW_calm pend, readAcc_calm pend, w, accs]
  case extg =>
    dsimp only
    rw [← guard_signExtend]
    refine plain1 _ _ ?_
    dsimp only
    rw [readAcc_calm pend, accs]
  case getf =>
    dsimp only
    rw [BitVec.ofNat_toNat]
    refine plain1 _ _ ?_
    dsimp only
    rw [readFlags_calm pend, flags]
  case clrf =>
    have value : (imm.zeroExtend 40).setWidth 10 = BitVec.ofNat 10 imm.toNat := BitVec.eq_of_toNat_eq (by simp)
    rw [exec_clrf h, clearFlags_last quiet issues calm, value]

end Sys2Proof.Machine
end

section
/-! Slot 1 loads and stores that stay in DMEM (R229 to R232). -/

namespace Sys2Proof.Machine

/-! ## Issue of a slot 1 instruction -/

/-- The state in which the body of a slot 1 instruction runs: the bundle has begun. -/
def State.begun (s : State) (n : Fin 18) : State := s.onPe n fun e => { e with lastPc := e.pc, half := true }

theorem setPe_onPe (s : State) (n : Fin 18) (x : Engine) (f : Engine → Engine) : (s.setPe n x).onPe n f = s.setPe n (f x) := by
  rw [State.onPe, State.pe_setPe_self, setPe_setPe]

/-- A body that changes the engine alone and ends the bundle. -/
theorem issue1_ends {s : State} {n : Fin 18} (closes : s.closes n = true) (body : State → State × Bool) {t : State}
    (ends : body (s.begun n) = (t, true)) : s.issue1 n body = t.onPe n Engine.finishBundle := by
  rw [issue1_go closes]
  show (if (body (s.begun n)).2 then (body (s.begun n)).1.onPe n Engine.finishBundle else (body (s.begun n)).1) = _
  rw [ends]
  rfl

/-- A body that stalls the engine. -/
theorem issue1_stalls {s : State} {n : Fin 18} (closes : s.closes n = true) (body : State → State × Bool) {t : State}
    (stalls : body (s.begun n) = (t, false)) : s.issue1 n body = t := by
  rw [issue1_go closes]
  show (if (body (s.begun n)).2 then (body (s.begun n)).1.onPe n Engine.finishBundle else (body (s.begun n)).1) = _
  rw [stalls]
  rfl

theorem begun_readW {s : State} {n : Fin 18} (closes : s.closes n = true) (r : Fin 32) :
    (s.begun n).readW n r = ((s.pe n).w[r], s.begun n) := by
  rw [State.begun, readW_sound (sound_lastPc closes), pe_onPe]

/-- The address of an access as the statements give it (R231). -/
theorem begun_effAddr {s : State} {n : Fin 18} (closes : s.closes n = true) (ra : Fin 32) (imm : BitVec 16) :
    (s.begun n).effAddr n ra imm = ((BitVec.ofInt 32 (((s.pe n).w[ra]).toInt + imm.toInt)).toNat, s.begun n) := by
  rw [State.begun, effAddr_sound closes, addr_eq]

/-! ## Values of loads and stores -/

/-- The registers a load writes, with their values (R229). -/
def loaded (kind : LoadKind) (rd : Fin 32) (v : Nat) : List (Fin 32 × Word) :=
  match kind with
  | .s8 => [(rd, (BitVec.ofNat 8 v).signExtend 32)]
  | .u8 => [(rd, (BitVec.ofNat 8 v).setWidth 32)]
  | .s16 => [(rd, (BitVec.ofNat 16 v).signExtend 32)]
  | .u16 => [(rd, (BitVec.ofNat 16 v).setWidth 32)]
  | .w32 => [(rd, BitVec.ofNat 32 v)]
  | .d64 => [(rd, BitVec.ofNat 32 v), (rd + 1, BitVec.ofNat 32 (v / 2 ^ 32))]

theorem toBits_signed {width : Nat} (positive : 0 < width) (v : Nat) :
    BitVec.ofNat 40 (toBits 32 (signedOf width v)) = ((BitVec.ofNat width v).signExtend 32).setWidth 40 := by
  rw [signedOf_eq_toInt positive, BitVec.signExtend, ← BitVec.ofNat_toNat, BitVec.toNat_ofInt]
  rfl

theorem ofNat_mod_eq_setWidth (width v : Nat) : BitVec.ofNat 40 (v % 2 ^ width) = (BitVec.ofNat width v).setWidth 40 := by
  rw [← BitVec.ofNat_toNat, BitVec.toNat_ofNat]

theorem ofNat_mod_eq_setWidth_word {width : Nat} (narrow : width ≤ 32) (v : Nat) :
    BitVec.ofNat 40 (v % 2 ^ width) = ((BitVec.ofNat width v).setWidth 32).setWidth 40 := by
  have small : v % 2 ^ width < 2 ^ 32 := (Nat.mod_lt _ (by positivity)).trans_le (Nat.pow_le_pow_right (by decide) narrow)
  rw [← BitVec.ofNat_toNat, BitVec.toNat_setWidth, BitVec.toNat_ofNat, Nat.mod_eq_of_lt small]

/-- A load adds its values to the results in flight, at distance 2 (R215, R229). -/
theorem putLoad_loaded (e : Engine) (kind : LoadKind) (rd : Fin 32) (v : Nat) :
    e.putLoad kind rd v =
      { e with pend := e.pend ++ (loaded kind rd v).map fun x => ⟨.reg x.1, x.2.setWidth 40, 2, true, false, false⟩ } := by
  cases kind <;> simp only [Engine.putLoad, Engine.result, loaded, List.map_cons, List.map_nil, List.append_assoc,
    List.singleton_append]
  case s8 => rw [toBits_signed (by decide)]
  case s16 => rw [toBits_signed (by decide)]
  case u8 => rw [ofNat_mod_eq_setWidth_word (by decide)]
  case u16 => rw [ofNat_mod_eq_setWidth_word (by decide)]
  case w32 => rw [ofNat_mod_eq_setWidth]
  case d64 => rw [ofNat_mod_eq_setWidth, ofNat_mod_eq_setWidth]

/-- Putting a byte below a number that its bits hold. -/
theorem ofNat_ofLe_cons {width : Nat} (high : BitVec width) (b : Byte) (bs : List Byte) (holds : BitVec.ofNat width (ofLe bs) = high) :
    BitVec.ofNat (width + 8) (ofLe (b :: bs)) = high ++ b := by
  apply BitVec.eq_of_toNat_eq
  have small := b.isLt
  rw [← holds, BitVec.toNat_append, ← Nat.shiftLeft_add_eq_or_of_lt small, Nat.shiftLeft_eq, BitVec.toNat_ofNat, BitVec.toNat_ofNat,
    ofLe, Nat.pow_add]
  have := Nat.mod_mul (a := 2 ^ 8) (b := 2 ^ width) (x := b.toNat + 256 * ofLe bs)
  have low : (b.toNat + 256 * ofLe bs) % 2 ^ 8 = b.toNat := by omega
  have quotient : (b.toNat + 256 * ofLe bs) / 2 ^ 8 = ofLe bs := by omega
  rw [low, quotient] at this
  rw [Nat.mul_comm (2 ^ width), this]
  ring

theorem ofNat_ofLe_one (b : Byte) : BitVec.ofNat 8 (ofLe [b]) = b := by
  simp [ofLe]

theorem ofNat_ofLe_two (a b : Byte) : BitVec.ofNat 16 (ofLe [a, b]) = b ++ a :=
  ofNat_ofLe_cons b a [b] (ofNat_ofLe_one b)

theorem ofNat_ofLe_four (a b c d : Byte) : BitVec.ofNat 32 (ofLe [a, b, c, d]) = d ++ c ++ b ++ a :=
  ofNat_ofLe_cons _ a _ (ofNat_ofLe_cons _ b _ (ofNat_ofLe_two c d))

theorem ofLe_append (bs cs : List Byte) : ofLe (bs ++ cs) = ofLe bs + 256 ^ bs.length * ofLe cs := by
  induction bs with
  | nil => simp [ofLe]
  | cons b bs ih => rw [List.cons_append, ofLe, ofLe, ih, List.length_cons]; ring

theorem ofLe_lt (bs : List Byte) : ofLe bs < 256 ^ bs.length := by
  induction bs with
  | nil => simp [ofLe]
  | cons b bs ih =>
    have := b.isLt
    rw [ofLe, List.length_cons, pow_succ]
    omega

/-- The two words of 8 bytes (R232). -/
theorem ofNat_ofLe_pair (low high : List Byte) (h : low.length = 4) :
    BitVec.ofNat 32 (ofLe (low ++ high)) = BitVec.ofNat 32 (ofLe low) ∧
      BitVec.ofNat 32 (ofLe (low ++ high) / 2 ^ 32) = BitVec.ofNat 32 (ofLe high) := by
  have bound := ofLe_lt low
  rw [h] at bound
  rw [ofLe_append, h]
  constructor
  · apply BitVec.eq_of_toNat_eq
    rw [BitVec.toNat_ofNat, BitVec.toNat_ofNat]
    omega
  · congr 1
    omega

/-- The bytes of a word, lowest first (R232). -/
theorem leBytes_word (w : Word) :
    leBytes 4 w.toNat = [w.extractLsb' (8 * 0) 8, w.extractLsb' (8 * 1) 8, w.extractLsb' (8 * 2) 8, w.extractLsb' (8 * 3) 8] := by
  simp only [leBytes, BitVec.extractLsb', Nat.shiftRight_eq_div_pow, Nat.div_div_eq_div_mul]
  norm_num

/-! ## DMEM -/

section
variable {t : State} {n : Fin 18} {addr off : Nat}

theorem loadAt_dmem (kind : LoadKind) (rd : Fin 32) (aligned : addr % kind.size = 0) (region : regionOf addr = .dmem off)
    (sound : (t.pe n).dmem.isBad off = false) :
    t.loadAt n addr kind rd .ok = (t.putLoad n kind rd (ofLe ((t.pe n).dmem.bytes off kind.size)), true) := by
  simp only [State.loadAt, aligned, region, State.dmemLoad, sound]
  rfl

theorem storeAt_dmem (bs : List Byte) (aligned : addr % bs.length = 0) (region : regionOf addr = .dmem off) :
    t.storeAt n addr bs = (t.dmemStore n off bs, true) := by
  simp only [State.storeAt, aligned, region]
  rfl

/-- Without a migration a store marks no line. -/
theorem markDirty_quiet (quiet : t.quiet = true) (off : Nat) : t.markDirty n off = t := by
  have mig : t.pers.mig = none := by simp_all [State.quiet]
  rw [State.markDirty, mig]

end

section
variable {s : State} {n : Fin 18} (quiet : s.quiet = true) (closes : s.closes n = true)
include quiet closes

/-- A sound load of DMEM (R229). -/
theorem load_dmem (kind : LoadKind) (rd ra : Fin 32) (imm : BitVec 16) :
    let e := s.pe n
    let a := (BitVec.ofInt 32 (e.w[ra].toInt + imm.toInt)).toNat
    0x10000000 ≤ a → a < 0x10020000 → e.dmem.isBad (a - 0x10000000) = false → a % kind.size = 0 →
    done (s.loadInstr n kind rd ra imm .ok) = .next (s.setPe n ({ e with
      lastPc := e.pc, half := true,
      pend := e.pend ++ (loaded kind rd (ofLe (e.dmem.bytes (a - 0x10000000) kind.size))).map fun v =>
        ⟨.reg v.1, v.2.setWidth 40, 2, true, false, false⟩ } : Engine).finishBundle) := by
  intro e a low high sound aligned
  have dmem : ((s.begun n).pe n).dmem = e.dmem := by rw [State.begun, pe_onPe]
  have bundle : s.loadInstr n kind rd ra imm .ok = s.setPe n ({ e with
      lastPc := e.pc, half := true,
      pend := e.pend ++ (loaded kind rd (ofLe (e.dmem.bytes (a - 0x10000000) kind.size))).map fun v =>
        ⟨.reg v.1, v.2.setWidth 40, 2, true, false, false⟩ } : Engine).finishBundle := by
    refine (issue1_ends closes _ (t := (s.begun n).putLoad n kind rd (ofLe (e.dmem.bytes (a - 0x10000000) kind.size))) ?_).trans ?_
    · dsimp only
      rw [begun_effAddr closes, ← dmem]
      exact loadAt_dmem kind rd aligned (region_dmem low high) (dmem ▸ sound)
    · rw [State.putLoad, State.begun, onPe_onPe, onPe_onPe, State.onPe, putLoad_loaded]
  rw [bundle]
  exact done_quiet quiet

/-- A store to DMEM (R229). -/
theorem store_dmem (ra : Fin 32) (imm : BitVec 16) (bs : List Byte) (body : State → State × Bool) :
    let e := s.pe n
    let a := (BitVec.ofInt 32 (e.w[ra].toInt + imm.toInt)).toNat
    0x10000000 ≤ a → a < 0x10020000 → a % bs.length = 0 →
    body (s.begun n) = (s.begun n).storeAt n a bs →
    done (s.issue1 n body) = .next (s.setPe n ({ e with
      lastPc := e.pc, half := true,
      dmem := (if bs.length = 8 then e.dmem.clearBad ((a - 0x10000000) / 8) else e.dmem).putBytes (a - 0x10000000) bs }
      : Engine).finishBundle) := by
  intro e a low high aligned effect
  have bundle := issue1_ends closes body (effect.trans (storeAt_dmem bs aligned (region_dmem low high)))
  rw [State.dmemStore, markDirty_quiet (t := s.begun n) quiet, State.begun, onPe_onPe, onPe_onPe] at bundle
  rw [bundle]
  exact done_quiet quiet

end

/-- Settles O29: each load is one access to DMEM, whose bytes are its value by width and sign. -/
theorem loadsFromDmem : Obligations.LoadsFromDmem := by
  intro s n rd ra imm quiet closes e a b loads low high sound
  have load : ∀ kind vs, a % kind.size = 0 → loaded kind rd (ofLe (e.dmem.bytes (a - 0x10000000) kind.size)) = vs →
      done (s.loadInstr n kind rd ra imm .ok) = loads vs := by
    rintro kind vs aligned rfl
    exact load_dmem quiet closes kind rd ra imm low high sound aligned
  have byte : loaded .s8 rd (ofLe (e.dmem.bytes (a - 0x10000000) 1)) = [(rd, (b 0).signExtend 32)] ∧
      loaded .u8 rd (ofLe (e.dmem.bytes (a - 0x10000000) 1)) = [(rd, (b 0).setWidth 32)] := by
    have value := ofNat_ofLe_one (b 0)
    exact ⟨congrArg (fun v : Byte => [(rd, v.signExtend 32)]) value, congrArg (fun v : Byte => [(rd, v.setWidth 32)]) value⟩
  have half : loaded .s16 rd (ofLe (e.dmem.bytes (a - 0x10000000) 2)) = [(rd, (b 1 ++ b 0).signExtend 32)] ∧
      loaded .u16 rd (ofLe (e.dmem.bytes (a - 0x10000000) 2)) = [(rd, (b 1 ++ b 0).setWidth 32)] := by
    have value := ofNat_ofLe_two (b 0) (b 1)
    exact ⟨congrArg (fun v : BitVec 16 => [(rd, v.signExtend 32)]) value, congrArg (fun v : BitVec 16 => [(rd, v.setWidth 32)]) value⟩
  have word : loaded .w32 rd (ofLe (e.dmem.bytes (a - 0x10000000) 4)) = [(rd, b 3 ++ b 2 ++ b 1 ++ b 0)] :=
    congrArg (fun v : Word => [(rd, v)]) (ofNat_ofLe_four (b 0) (b 1) (b 2) (b 3))
  have pair : loaded .d64 rd (ofLe (e.dmem.bytes (a - 0x10000000) 8)) =
      [(rd, b 3 ++ b 2 ++ b 1 ++ b 0), (rd + 1, b 7 ++ b 6 ++ b 5 ++ b 4)] := by
    obtain ⟨first, second⟩ := ofNat_ofLe_pair [b 0, b 1, b 2, b 3] [b 4, b 5, b 6, b 7] rfl
    exact congrArg₂ (fun v w : Word => [(rd, v), (rd + 1, w)]) (first.trans (ofNat_ofLe_four _ _ _ _))
      (second.trans (ofNat_ofLe_four _ _ _ _))
  refine ⟨load .s8 _ (Nat.mod_one a) byte.1, load .u8 _ (Nat.mod_one a) byte.2,
    fun aligned => ⟨load .s16 _ aligned half.1, load .u16 _ aligned half.2⟩, fun aligned => load .w32 _ aligned word,
    fun aligned named => ?_⟩
  have even : oddPair rd = false := by simp_all [pairBase, oddPair]
  have bundle : exec (.ld n rd ra imm .ok) s = done (s.loadInstr n .d64 rd ra imm .ok) :=
    congrArg done (if_neg (by simp [even]))
  exact bundle.trans (load .d64 _ aligned pair)

/-- Settles O30: each store is one access to DMEM, and what is stored reads back byte by byte. -/
theorem storesToDmem : Obligations.StoresToDmem := by
  intro s n rs ra imm quiet closes e a off v stores low high
  have bytes : ∀ r, leBytes 4 (e.w[r]).toNat = [v r 0, v r 1, v r 2, v r 3] := fun r => leBytes_word _
  have store : ∀ size bs, leBytes size (e.w[rs]).toNat = bs → a % bs.length = 0 →
      done (s.storeInstr n size rs ra imm) = stores bs := by
    rintro size bs rfl aligned
    refine store_dmem quiet closes ra imm _ _ low high aligned ?_
    dsimp only
    rw [begun_effAddr closes]
    dsimp only
    rw [begun_readW closes]
  refine ⟨store 1 _ (congrArg (List.take 1) (bytes rs)) (Nat.mod_one a), store 2 _ (congrArg (List.take 2) (bytes rs)),
    store 4 _ (bytes rs), fun aligned even => ?_, fun wf m bs k same => ?_⟩
  · have bundle : exec (.sd n rs ra imm) s = done (s.issue1 n fun t =>
        let (a, t1) := t.effAddr n ra imm
        let (x, t2) := t1.readW n rs
        let (y, t3) := t2.readW n (rs + 1)
        t3.storeAt n a (leBytes 4 x.toNat ++ leBytes 4 y.toNat)) := congrArg done (if_neg (by omega))
    refine bundle.trans (store_dmem quiet closes ra imm _ _ low high aligned ?_)
    dsimp only
    rw [begun_effAddr closes]
    dsimp only
    rw [begun_readW closes]
    dsimp only
    rw [begun_readW closes]
    dsimp only
    rw [bytes, bytes]
    rfl
  · have mwf : m.wf = true := same.elim (· ▸ wf) (· ▸ Mem.wf_clearBad wf _)
    have read : ∀ k, m.byte k = e.dmem.byte k := fun k => same.elim (· ▸ rfl) (· ▸ rfl)
    split
    case isTrue inside =>
      have := Mem.byte_putBytes mwf (a := off) inside.2
      rwa [Nat.add_sub_cancel' inside.1] at this
    case isFalse outside =>
      rw [← read k]
      exact Mem.byte_putBytes_other mwf (by omega)

end Sys2Proof.Machine
end

section
/-! Slot 1 accesses that fault or go beyond DMEM (R140 to R144, R150, R189, R231). -/

namespace Sys2Proof.Machine

/-- A region behind the engine's far port (R140). -/
def Region.isFar : Region → Bool
  | .bank _ | .mbx _ | .mdb _ | .psq _ => true
  | _ => false

theorem isFar_of_mem {r : Region} {o : Nat} (h : r ∈ [Region.bank o, .mbx o, .mdb o, .psq o]) : r.isFar = true := by
  simp only [List.mem_cons, List.not_mem_nil, or_false] at h
  obtain rfl | rfl | rfl | rfl := h <;> rfl

section
variable {t : State} {n : Fin 18} {addr off : Nat}

/-! ## What a load can do -/

theorem loadAt_misaligned (kind : LoadKind) (rd : Fin 32) (ecc : Ecc) (h : addr % kind.size ≠ 0) :
    t.loadAt n addr kind rd ecc = ((t.raiseAcc n F_PE_ALIGN addr kind.size false).putLoad n kind rd 0, true) := by
  rw [State.loadAt, if_pos h]

theorem loadAt_nothing (kind : LoadKind) (rd : Fin 32) (ecc : Ecc) (aligned : addr % kind.size = 0) (region : regionOf addr = .nothing) :
    t.loadAt n addr kind rd ecc = ((t.raiseAcc n F_PE_ADDR_ERR addr kind.size false).putLoad n kind rd 0, true) := by
  simp only [State.loadAt, aligned, region]
  rfl

theorem loadAt_dmem_bad (kind : LoadKind) (rd : Fin 32) (ecc : Ecc) (aligned : addr % kind.size = 0)
    (region : regionOf addr = .dmem off) (bad : (t.pe n).dmem.isBad off = true ∨ ecc = .double) :
    t.loadAt n addr kind rd ecc = (((t.onPe n fun e => { e with dmem := e.dmem.setBad (off / 8) }).raisePe n
      F_PE_DMEM_UE).putLoad n kind rd 0, true) := by
  have bad' : ((t.pe n).dmem.isBad off || ecc == .double) = true := by simpa using bad
  simp only [State.loadAt, aligned, region, State.dmemLoad, bad']
  rfl

theorem loadAt_dmem_corrected (kind : LoadKind) (rd : Fin 32) (aligned : addr % kind.size = 0)
    (region : regionOf addr = .dmem off) (sound : (t.pe n).dmem.isBad off = false) :
    t.loadAt n addr kind rd .single = (((t.bump (PE_ECC_CNT n) PE_ECC_CNT_DMEM_CE 1).raisePe n F_PE_DMEM_CE).putLoad n kind rd
      (ofLe ((t.pe n).dmem.bytes off kind.size)), true) := by
  simp only [State.loadAt, aligned, region, State.dmemLoad, sound]
  rfl

theorem loadAt_far (kind : LoadKind) (rd : Fin 32) (ecc : Ecc) (aligned : addr % kind.size = 0) (far : (regionOf addr).isFar = true) :
    t.loadAt n addr kind rd ecc = (t.onPe n fun e => { e.disturb with stall := some (.load addr kind rd) }, false) := by
  rw [State.loadAt, if_neg (by omega)]
  cases region : regionOf addr <;> simp [region, Region.isFar] at far <;> rfl

/-! ## What a store can do -/

theorem storeAt_misaligned (bs : List Byte) (h : addr % bs.length ≠ 0) :
    t.storeAt n addr bs = (t.raiseAcc n F_PE_ALIGN addr bs.length true, true) := by
  rw [State.storeAt, if_pos h]

theorem storeAt_nothing (bs : List Byte) (aligned : addr % bs.length = 0) (region : regionOf addr = .nothing) :
    t.storeAt n addr bs = (t.raiseAcc n F_PE_ADDR_ERR addr bs.length true, true) := by
  simp only [State.storeAt, aligned, region]
  rfl

theorem storeAt_far (bs : List Byte) (aligned : addr % bs.length = 0) (far : (regionOf addr).isFar = true) :
    t.storeAt n addr bs = t.postStore n ⟨addr, bs, (t.pe n).lastPc, .bus⟩ := by
  rw [State.storeAt, if_neg (by omega)]
  cases region : regionOf addr <;> simp [region, Region.isFar] at far <;> rfl

end

/-! ## The begun bundle -/

section
variable {s : State} {n : Fin 18}

theorem begun_accCaps (addr size : Nat) (store : Bool) : (s.begun n).accCaps n addr size store = s.accCaps n addr size store := by
  rw [State.accCaps, State.begun, pe_onPe]
  rfl

theorem begun_slotNo : ((s.begun n).pe n).slotNo = (s.pe n).slotNo := by
  rw [State.begun, pe_onPe]
  rfl

theorem begun_raiseAcc (src addr size : Nat) (store : Bool) : (s.begun n).raiseAcc n src addr size store =
    (s.begun n).raiseFor (.pe n) src (s.accCaps n addr size store) (s.pe n).slotNo := by
  rw [State.raiseAcc, begun_accCaps, begun_slotNo]

/-- A source of the bundle that has begun names it (R189), whatever its body changed besides. -/
theorem raisePe_of_begun {t : State} (slot : (t.pe n).slot = (s.pe n).slot) (pc : (t.pe n).lastPc = (s.pe n).pc) (src : Nat) :
    t.raisePe n src = t.raiseFor (.pe n) src [8 * (s.pe n).pc.toNat] (s.pe n).slotNo := by
  rw [State.raisePe, pc, Engine.slotNo, slot]
  rfl

variable (closes : s.closes n = true)
include closes

theorem load_ends (kind : LoadKind) (rd ra : Fin 32) (imm : BitVec 16) (ecc : Ecc) {t : State}
    (ends : (s.begun n).loadAt n (BitVec.ofInt 32 ((s.pe n).w[ra].toInt + imm.toInt)).toNat kind rd ecc = (t, true)) :
    done (s.loadInstr n kind rd ra imm ecc) = .next (settle (t.onPe n Engine.finishBundle)) := by
  refine congrArg done (issue1_ends closes _ ?_)
  dsimp only
  rw [begun_effAddr closes]
  exact ends

theorem load_stalls (quiet : s.quiet = true) (kind : LoadKind) (rd ra : Fin 32) (imm : BitVec 16) (ecc : Ecc) {x : Engine}
    (stalls : (s.begun n).loadAt n (BitVec.ofInt 32 ((s.pe n).w[ra].toInt + imm.toInt)).toNat kind rd ecc = (s.setPe n x, false)) :
    done (s.loadInstr n kind rd ra imm ecc) = .next (s.setPe n x) := by
  have bundle : s.loadInstr n kind rd ra imm ecc = s.setPe n x := by
    refine issue1_stalls closes _ ?_
    dsimp only
    rw [begun_effAddr closes]
    exact stalls
  rw [bundle]
  exact done_quiet quiet

end

/-- A slot 1 instruction that stores bytes at an address: its body is the store. -/
def State.stores (s : State) (n : Fin 18) (r : Res) (a : Nat) (bs : List Byte) : Prop :=
  ∃ body, r = done (s.issue1 n body) ∧ body (s.begun n) = (s.begun n).storeAt n a bs

theorem stores_of_wellFormed {s : State} {n : Fin 18} (closes : s.closes n = true) (rd ra : Fin 32) (imm : BitVec 16) :
    let le := fun (r : Fin 32) => leBytes 4 ((s.pe n).w[r]).toNat
    ∀ x ∈ [((le rd).take 1, Instr.sb n rd ra imm), ((le rd).take 2, .sh n rd ra imm), (le rd, .sw n rd ra imm),
        (le rd ++ le (rd + 1), .sd n rd ra imm)], x.2.wellFormed = true →
      s.stores n (exec x.2 s) (BitVec.ofInt 32 ((s.pe n).w[ra].toInt + imm.toInt)).toNat x.1 := by
  intro le x listed wf
  have store : ∀ size, s.stores n (done (s.storeInstr n size rd ra imm))
      (BitVec.ofInt 32 ((s.pe n).w[ra].toInt + imm.toInt)).toNat (leBytes size ((s.pe n).w[rd]).toNat) := by
    refine fun size => ⟨_, rfl, ?_⟩
    dsimp only
    rw [begun_effAddr closes]
    dsimp only
    rw [begun_readW closes]
  simp only [List.mem_cons, List.not_mem_nil, or_false] at listed
  obtain rfl | rfl | rfl | rfl := listed
  · exact store 1
  · exact store 2
  · exact store 4
  · have even : rd.val % 2 = 0 := by simpa [Instr.wellFormed] using wf
    refine ⟨_, congrArg done (if_neg (by omega)), ?_⟩
    dsimp only
    rw [begun_effAddr closes]
    dsimp only
    rw [begun_readW closes]
    dsimp only
    rw [begun_readW closes]

theorem State.stores.ends {s : State} {n : Fin 18} {r : Res} {a : Nat} {bs : List Byte} (h : s.stores n r a bs)
    (closes : s.closes n = true) {t : State} (effect : (s.begun n).storeAt n a bs = (t, true)) :
    r = .next (settle (t.onPe n Engine.finishBundle)) := by
  obtain ⟨body, rfl, store⟩ := h
  exact congrArg done (issue1_ends closes body (store.trans effect))

theorem State.stores.stalls {s : State} {n : Fin 18} {r : Res} {a : Nat} {bs : List Byte} (h : s.stores n r a bs)
    (closes : s.closes n = true) {t : State} (effect : (s.begun n).storeAt n a bs = (t, false)) : r = .next (settle t) := by
  obtain ⟨body, rfl, store⟩ := h
  exact congrArg done (issue1_stalls closes body (store.trans effect))

theorem exec_load {s : State} {n : Fin 18} (rd ra : Fin 32) (imm : BitVec 16) :
    ∀ x ∈ [(LoadKind.s8, fun c => Instr.lb n rd ra imm c), (.u8, fun c => .lbu n rd ra imm c), (.s16, fun c => .lh n rd ra imm c),
        (.u16, fun c => .lhu n rd ra imm c), (.w32, fun c => .lw n rd ra imm c), (.d64, fun c => .ld n rd ra imm c)],
      ∀ ecc : Ecc, (x.2 ecc).wellFormed = true → exec (x.2 ecc) s = done (s.loadInstr n x.1 rd ra imm ecc) := by
  intro x listed ecc wf
  simp only [List.mem_cons, List.not_mem_nil, or_false] at listed
  obtain rfl | rfl | rfl | rfl | rfl | rfl := listed
  case inr.inr.inr.inr.inr =>
    have even : oddPair rd = false := by
      have named : pairBase rd = true := wf
      simp_all [pairBase, oddPair]
    exact congrArg done (if_neg (by simp [even]))
  all_goals rfl

/-- Settles O31: a load or a store is its access, and each kind of access has its own rule. -/
theorem accessesThatFaultOrGoFar : Obligations.AccessesThatFaultOrGoFar := by
  intro s n rd ra imm quiet closes e a i caps ends slot le
  have dmem : (i.pe n).dmem = e.dmem := by rw [pe_onPe]
  have wbuf : (i.pe n).wbuf = e.wbuf := by rw [pe_onPe]
  refine ⟨fun x listed ecc wf => ?_, fun x listed wf => ?_⟩
  · rw [exec_load rd ra imm x listed ecc wf]
    refine ⟨fun h => ?_, fun aligned region => ?_, fun o aligned region bad => ?_, fun o aligned region sound single => ?_,
      fun o aligned region => ?_⟩
    · exact load_ends closes _ _ _ _ _ ((loadAt_misaligned _ _ _ h).trans (by rw [begun_raiseAcc]; rfl))
    · exact load_ends closes _ _ _ _ _ ((loadAt_nothing _ _ _ aligned region).trans (by rw [begun_raiseAcc]; rfl))
    · refine load_ends closes _ _ _ _ _ ((loadAt_dmem_bad _ _ _ aligned region (dmem ▸ bad)).trans ?_)
      rw [raisePe_of_begun (s := s) (by simp [State.begun, pe_onPe]) (by simp [State.begun, pe_onPe])]
      rfl
    · subst single
      refine load_ends closes _ _ _ _ _ ((loadAt_dmem_corrected _ _ aligned region (dmem ▸ sound)).trans ?_)
      have corrected : ((s.begun n).bump (PE_ECC_CNT n) PE_ECC_CNT_DMEM_CE 1).pe n = { e with lastPc := e.pc, half := true } :=
        show (s.begun n).pe n = _ from pe_onPe s n _
      rw [raisePe_of_begun (s := s) (by rw [corrected]) (by rw [corrected]),
        show (s.begun n).pe n = { e with lastPc := e.pc, half := true } from corrected]
      rfl
    · refine load_stalls closes quiet _ _ _ _ _ ((loadAt_far _ _ _ aligned (isFar_of_mem region)).trans ?_)
      rw [State.begun, onPe_onPe]
      rfl
  · have store := stores_of_wellFormed closes rd ra imm x listed wf
    refine ⟨fun h => ?_, fun aligned region => ?_, fun o aligned region room => ?_, fun o aligned region full => ?_⟩
    · exact store.ends closes ((storeAt_misaligned _ h).trans (by rw [begun_raiseAcc]; rfl))
    · exact store.ends closes ((storeAt_nothing _ aligned region).trans (by rw [begun_raiseAcc]; rfl))
    · have posted := (storeAt_far _ aligned (isFar_of_mem region)).trans (if_neg (show ¬ 8 ≤ (i.pe n).wbuf.length by rw [wbuf]; omega))
      rw [pe_onPe, onPe_onPe] at posted
      rw [store.ends closes posted, onPe_onPe]
      exact done_quiet quiet
    · have stalled := (storeAt_far _ aligned (isFar_of_mem region)).trans (if_pos (show 8 ≤ (i.pe n).wbuf.length by rwa [wbuf]))
      rw [State.stallOn, pe_onPe, onPe_onPe] at stalled
      rw [store.stalls closes stalled]
      exact done_quiet quiet

end Sys2Proof.Machine
end

section
/-! Slot 1 control instructions: transfers, WAIT, FENCE, BRK and breakpoints (R171, R182, R229, R234 to R236). -/

namespace Sys2Proof.Machine

/-- The engine of a bundle that has begun. -/
def Engine.begun (e : Engine) : Engine := { e with lastPc := e.pc, half := true }

theorem begun_pe (s : State) (n : Fin 18) : (s.begun n).pe n = (s.pe n).begun := pe_onPe s n _

theorem begun_setPe (s : State) (n : Fin 18) : s.begun n = s.setPe n (s.pe n).begun := rfl

/-- A bundle in a quiet state whose body changes the engine alone. -/
theorem issue1_engine {s : State} {n : Fin 18} (quiet : s.quiet = true) (closes : s.closes n = true) (body : State → State × Bool)
    {x : Engine} (effect : body (s.begun n) = (s.setPe n x, true)) :
    done (s.issue1 n body) = .next (s.setPe n x.finishBundle) := by
  rw [issue1_ends closes body effect, setPe_onPe]
  exact done_quiet quiet

theorem issue1_engine_stalls {s : State} {n : Fin 18} (quiet : s.quiet = true) (closes : s.closes n = true)
    (body : State → State × Bool) {x : Engine} (effect : body (s.begun n) = (s.setPe n x, false)) :
    done (s.issue1 n body) = .next (s.setPe n x) := by
  rw [issue1_stalls closes body effect]
  exact done_quiet quiet

theorem begun_onPe (s : State) (n : Fin 18) (f : Engine → Engine) : (s.begun n).onPe n f = s.setPe n (f (s.pe n).begun) := by
  rw [begun_setPe, setPe_onPe]

/-- Bits [16:3] of a word (R234). -/
theorem bundleOf_eq (w : Word) : bundleOf w = w.extractLsb' 3 14 :=
  BitVec.eq_of_toNat_eq (by simp [bundleOf, BitVec.extractLsb'_toNat])

theorem begun_ecsEvent (s : State) (n : Fin 18) : (s.begun n).ecsEvent n = s.ecsEvent n := by
  unfold State.ecsEvent
  rw [begun_pe]
  rfl

theorem begun_eventPending (s : State) (n : Fin 18) :
    (s.begun n).eventPending n = true ↔ s.ecsEvent n &&& (s.pe n).even ≠ 0 := by
  rw [State.eventPending, begun_ecsEvent, begun_pe]
  exact bne_iff_ne

section
variable {s : State} {n : Fin 18} (quiet : s.quiet = true) (closes : s.closes n = true)
include quiet closes

theorem branch_transfers (ra rb : Fin 32) (imm : BitVec 16) (cond : Word → Word → Bool) {p : Prop} [Decidable p]
    (holds : cond (s.pe n).w[ra] (s.pe n).w[rb] = true ↔ p) :
    done (s.branch n ra rb imm cond) = .next (s.setPe n ((s.pe n).begun.transfer
      (if p then some ((s.pe n).pc + imm.setWidth 14) else none)).finishBundle) := by
  refine issue1_engine quiet closes _ ?_
  dsimp only
  rw [begun_readW closes]
  dsimp only
  rw [begun_readW closes, begun_onPe, if_congr holds rfl rfl]
  rfl

theorem exec_j (idx : BitVec 14) :
    exec (.j n idx) s = .next (s.setPe n ((s.pe n).begun.transfer (some idx)).finishBundle) :=
  issue1_engine quiet closes _ (by rw [begun_onPe])

theorem exec_jr (ra : Fin 32) : exec (.jr n ra) s =
    .next (s.setPe n ((s.pe n).begun.transfer (some ((s.pe n).w[ra].extractLsb' 3 14))).finishBundle) := by
  refine issue1_engine quiet closes _ ?_
  dsimp only
  rw [begun_readW closes, begun_onPe, bundleOf_eq]

theorem exec_wait : exec (.wait n) s = .next (s.setPe n (if s.ecsEvent n &&& (s.pe n).even ≠ 0 then (s.pe n).begun
    else { (s.pe n).begun.disturb with state := .wait }).finishBundle) := by
  refine issue1_engine quiet closes _ ?_
  dsimp only
  rw [begun_onPe, if_congr (begun_eventPending s n) rfl rfl]
  split <;> rfl

theorem exec_fence : exec (.fence n) s =
    if (s.pe n).wbuf = [] then .next (s.setPe n (s.pe n).begun.finishBundle)
    else .next (s.setPe n { (s.pe n).begun.disturb with stall := some .fence }) := by
  have stores : ((s.begun n).pe n).wbuf = (s.pe n).wbuf := by rw [begun_pe]; rfl
  split
  case isTrue empty =>
    refine issue1_engine quiet closes _ ?_
    rw [stores, empty]
    rfl
  case isFalse waiting =>
    refine issue1_engine_stalls quiet closes _ ?_
    dsimp only
    rw [stores, if_neg (by simpa using waiting), State.stallOn, begun_onPe]

theorem exec_brk : exec (.brk n) s = .next (s.setPe n ({ (s.pe n).begun with haltPend := some 2 } : Engine).finishBundle) :=
  issue1_engine quiet closes _ (by rw [begun_onPe])

end

/-- An engine about to issue the bundle at its breakpoint halts (R182). -/
theorem exec_breakpointHit {s : State} {n : Fin 18} (quiet : s.quiet = true) (can : (s.pe n).canIssue = true)
    (start : (s.pe n).half = false) (at_ : s.atBreakpoint n = true) :
    exec (.breakpointHit n) s = .next (s.setPe n ((s.pe n).haltNow 2)) := by
  refine Eq.trans (congrArg done (if_pos ?_)) (done_quiet (s := s.setPe n _) quiet)
  rw [can, start, at_]
  rfl

/-- Settles O32: the comparison of a branch is that of the words it reads, and each transfer has its own rule. -/
theorem transfersStart : Obligations.TransfersStart := by
  intro s n ra rb imm idx quiet e e1 a b ends goes to_
  refine ⟨fun closes => ?_, fun can start at_ => exec_breakpointHit quiet can start at_⟩
  have branch := fun cond {p} [Decidable p] => branch_transfers quiet closes ra rb imm cond (p := p)
  exact ⟨branch _ (by simp [a, b, e]), branch _ (by simp [a, b, e]), branch _ (by simp [a, b, e, BitVec.slt]),
    branch _ (by simp [a, b, e, BitVec.slt]), branch _ (by simp [a, b, e, BitVec.ult]), branch _ (by simp [a, b, e, BitVec.ult]),
    exec_j quiet closes idx, exec_jr quiet closes ra, exec_wait quiet closes, exec_fence quiet closes, exec_brk quiet closes⟩

end Sys2Proof.Machine
end

section
/-! The stack of an engine: calls, returns, PUSH and POP (R229, R236, R238 to R241). -/

namespace Sys2Proof.Machine

/-- w31 with a new value, visible to the next bundle. -/
def stackMoved (v : Word) : Pend := ⟨.reg 31, v.setWidth 40, 1, true, false, false⟩

/-- An engine whose bundle pushed bytes. -/
def Engine.pushed (e : Engine) (bs : List Byte) : Engine :=
  let sp := e.w[(31 : Fin 32)]
  let off := (sp - 8).toNat - 0x10000000
  { e.begun with pend := e.pend ++ [stackMoved (sp - 8)], dmem := (e.dmem.clearBad (off / 8)).putBytes off bs }

/-- The stack word that w31 names. -/
def Engine.stackEntry (e : Engine) : Nat := ofLe (e.dmem.bytes ((e.w[(31 : Fin 32)]).toNat - 0x10000000) 8)

/-- A push or pop whose bound fails (R241). -/
def State.stackFault (s : State) (n : Fin 18) : State :=
  (s.begun n).raiseFor (.pe n) F_PE_STACK [8 * (s.pe n).pc.toNat] (s.pe n).slotNo

theorem begun_raisePe (s : State) (n : Fin 18) (src : Nat) :
    (s.begun n).raisePe n src = (s.begun n).raiseFor (.pe n) src [8 * (s.pe n).pc.toNat] (s.pe n).slotNo :=
  raisePe_of_begun (by rw [begun_pe]; rfl) (by rw [begun_pe]; rfl) src

theorem even_of_pairBase {rn : Fin 32} (named : pairBase rn = true) : oddPair rn = false := by
  simp_all [pairBase, oddPair]

/-- PUSH of a pair (R240). -/
theorem exec_push (s : State) (n : Fin 18) {rn : Fin 32} (named : pairBase rn = true) : exec (.push n rn) s = done (s.issue1 n fun t =>
      let (x, t1) := t.readW n rn
      let (y, t2) := t1.readW n (rn + 1)
      ((t2.push n (leBytes 4 x.toNat ++ leBytes 4 y.toNat)).2, true)) :=
  congrArg done (if_neg (by simp [even_of_pairBase named]))

/-- POP into a pair (R240). -/
theorem exec_pop (s : State) (n : Fin 18) {rn : Fin 32} (named : pairBase rn = true) : exec (.pop n rn) s = done (s.issue1 n fun t =>
      match t.pop n with
      | (some v, t1) => (t1.putLoad n .d64 rn v, true)
      | (none, t1) => (t1, true)) :=
  congrArg done (if_neg (by simp [even_of_pairBase named]))

/-- In a delay slot a call is a NOP (R236). -/
theorem call_delay {s : State} {n : Fin 18} (target : State → BitVec 14 × State) (delay : (s.pe n).xfer.isSome = true) :
    (s.begun n).call n target = (s.begun n, true) := by
  rw [State.call, begun_pe]
  exact if_pos delay

theorem begun_xfer_none {s : State} {n : Fin 18} (start : (s.pe n).xfer = none) : ((s.begun n).pe n).xfer.isSome = false := by
  rw [begun_pe]
  show (s.pe n).xfer.isSome = false
  rw [start]
  rfl

theorem call_pushes {s : State} {n : Fin 18} {target : State → BitVec 14 × State} {to_ : BitVec 14} (start : (s.pe n).xfer = none)
    (names : target (s.begun n) = (to_, s.begun n))
    (push : (s.begun n).push n (leBytes 8 (8 * ((s.pe n).pc + 3).toNat)) =
      (true, s.setPe n ((s.pe n).pushed (leBytes 8 (8 * ((s.pe n).pc + 3).toNat))))) :
    (s.begun n).call n target =
      (s.setPe n { (s.pe n).pushed (leBytes 8 (8 * ((s.pe n).pc + 3).toNat)) with xfer := some ⟨some to_, 3⟩ }, true) := by
  have pc : ((s.begun n).pe n).pc = (s.pe n).pc := by rw [begun_pe]; rfl
  rw [State.call, begun_xfer_none start, names, if_neg Bool.false_ne_true]
  dsimp only
  rw [pc, pcAddr, push]
  dsimp only
  rw [setPe_onPe, Engine.transfer, if_neg (by simp [Engine.pushed, Engine.begun, start])]

section
variable {s : State} {n : Fin 18} (quiet : s.quiet = true) (closes : s.closes n = true)
include closes

section
include quiet

theorem push_stores (bs : List Byte) (size : bs.length = 8) (aligned : ((s.pe n).w[(31 : Fin 32)]).toNat % 8 = 0)
    (room : (s.pe n).stackLimit.toNat + 8 ≤ ((s.pe n).w[(31 : Fin 32)]).toNat)
    (low : 0x10000000 ≤ ((s.pe n).w[(31 : Fin 32)] - 8).toNat) (high : ((s.pe n).w[(31 : Fin 32)] - 8).toNat < 0x10020000) :
    (s.begun n).push n bs = (true, s.setPe n ((s.pe n).pushed bs)) := by
  have limit : ((s.begun n).pe n).stackLimit = (s.pe n).stackLimit := by rw [begun_pe]; rfl
  have below : ((s.pe n).w[(31 : Fin 32)] - 8).toNat % 8 = 0 := by
    have := ((s.pe n).w[(31 : Fin 32)]).isLt
    rw [BitVec.toNat_sub, show (8 : Word).toNat = 8 from rfl]
    omega
  rw [State.push, begun_readW closes]
  dsimp only
  rw [limit, if_neg (by omega), State.stackStore, if_neg (by omega), region_dmem low high]
  dsimp only
  rw [State.dmemStore, markDirty_quiet (t := s.begun n) quiet, begun_onPe, State.setSp, setPe_onPe]
  simp only [size]
  rfl

end

theorem push_fails (bs : List Byte) (bound : ((s.pe n).w[(31 : Fin 32)]).toNat < (s.pe n).stackLimit.toNat + 8) :
    (s.begun n).push n bs = (false, s.stackFault n) := by
  have limit : ((s.begun n).pe n).stackLimit = (s.pe n).stackLimit := by rw [begun_pe]; rfl
  rw [State.push, begun_readW closes]
  dsimp only
  rw [limit, if_pos bound, begun_raisePe]
  rfl

theorem pop_loads (aligned : ((s.pe n).w[(31 : Fin 32)]).toNat % 8 = 0)
    (room : ((s.pe n).w[(31 : Fin 32)]).toNat + 8 ≤ 0x10000000 + 8 * s.rd (PE_SP_INIT n) PE_SP_INIT_TOP)
    (low : 0x10000000 ≤ ((s.pe n).w[(31 : Fin 32)]).toNat) (high : ((s.pe n).w[(31 : Fin 32)]).toNat < 0x10020000)
    (sound : (s.pe n).dmem.isBad (((s.pe n).w[(31 : Fin 32)]).toNat - 0x10000000) = false) :
    (s.begun n).pop n = (some (s.pe n).stackEntry, s.setPe n { (s.pe n).begun with
      pend := (s.pe n).pend ++ [stackMoved ((s.pe n).w[(31 : Fin 32)] + 8)] }) := by
  have top : (s.begun n).rd (PE_SP_INIT n) PE_SP_INIT_TOP = s.rd (PE_SP_INIT n) PE_SP_INIT_TOP := rfl
  have dmem : ((s.begun n).pe n).dmem = (s.pe n).dmem := by rw [begun_pe]; rfl
  rw [State.pop, begun_readW closes]
  dsimp only
  rw [top, if_neg (by omega), State.stackLoad, if_neg (by omega), region_dmem low high]
  dsimp only
  rw [State.dmemLoad, dmem, sound]
  exact congrArg (Prod.mk _) (begun_onPe s n _)

theorem pop_fails (bound : 0x10000000 + 8 * s.rd (PE_SP_INIT n) PE_SP_INIT_TOP < ((s.pe n).w[(31 : Fin 32)]).toNat + 8) :
    (s.begun n).pop n = (none, s.stackFault n) := by
  rw [State.pop, begun_readW closes]
  dsimp only
  rw [if_pos (show 0x10000000 + 8 * (s.begun n).rd (PE_SP_INIT n) PE_SP_INIT_TOP < _ from bound), begun_raisePe]
  rfl

theorem call_fails {target : State → BitVec 14 × State} {to_ : BitVec 14} (start : (s.pe n).xfer = none)
    (names : target (s.begun n) = (to_, s.begun n))
    (bound : ((s.pe n).w[(31 : Fin 32)]).toNat < (s.pe n).stackLimit.toNat + 8) :
    (s.begun n).call n target = (s.stackFault n, true) := by
  rw [State.call, begun_xfer_none start, names, if_neg Bool.false_ne_true]
  dsimp only
  rw [push_fails closes _ bound]

end

/-- The bundle index of a return address (R239). -/
theorem bundleOf_ofNat (v : Nat) : bundleOf (BitVec.ofNat 32 v) = BitVec.ofNat 14 (v / 8) := by
  apply BitVec.eq_of_toNat_eq
  rw [bundleOf, BitVec.toNat_setWidth, BitVec.toNat_ushiftRight, BitVec.toNat_ofNat, BitVec.toNat_ofNat, Nat.shiftRight_eq_div_pow]
  omega

/-- Settles O34: a push is a store and a pop is a load within the bound that its register names. -/
theorem callsAndTheStack : Obligations.CallsAndTheStack := by
  intro s n ra rn idx quiet closes named e e1 sp top ends moved off pushed entry bad
  have registers : ∀ r, (s.begun n).readW n r = (e.w[r], s.begun n) := begun_readW closes
  have target : (let (a, u) := (s.begun n).readW n ra; (bundleOf a, u)) = (e.w[ra].extractLsb' 3 14, s.begun n) := by
    rw [registers]
    dsimp only
    rw [bundleOf_eq]
  have raises : ∀ body : State → State × Bool, body (s.begun n) = (s.stackFault n, true) → done (s.issue1 n body) = bad :=
    fun body effect => congrArg done (issue1_ends closes body effect)
  have nothing : ∀ body : State → State × Bool, body (s.begun n) = (s.begun n, true) → done (s.issue1 n body) = ends e1 :=
    fun body effect => issue1_engine quiet closes body effect
  rw [exec_push s n named, exec_pop s n named]
  refine ⟨fun aligned room low high => ?_, fun aligned room low high sound => ⟨?_, fun start => ?_⟩, fun bound => ⟨?_, fun start => ?_⟩,
    fun bound => ⟨?_, fun start => ?_⟩, fun delay => ?_⟩
  · have stores := fun bs size => push_stores quiet closes bs size aligned room low high
    refine ⟨issue1_engine quiet closes _ ?_, fun start => ⟨issue1_engine quiet closes _ (call_pushes start rfl (stores _ rfl)),
      issue1_engine quiet closes _ (call_pushes start target (stores _ rfl))⟩⟩
    dsimp only
    rw [registers]
    dsimp only
    rw [registers]
    dsimp only
    rw [stores _ rfl]
    rfl
  · refine issue1_engine quiet closes _ ?_
    rw [pop_loads closes aligned room low high sound]
    dsimp only
    rw [State.putLoad, setPe_onPe]
    simp only [Engine.putLoad, Engine.result, List.append_assoc, List.cons_append, List.nil_append]
    rfl
  · refine issue1_engine quiet closes _ ?_
    rw [begun_xfer_none start, if_neg Bool.false_ne_true, pop_loads closes aligned room low high sound]
    dsimp only
    rw [setPe_onPe, bundleOf_ofNat, Engine.transfer, if_neg (by simp [Engine.begun, show (s.pe n).xfer = none from start])]
    rfl
  · refine raises _ ?_
    dsimp only
    rw [registers]
    dsimp only
    rw [registers]
    dsimp only
    rw [push_fails closes _ bound]
  · exact ⟨raises _ (call_fails closes start rfl bound), raises _ (call_fails closes start target bound)⟩
  · refine raises _ ?_
    rw [pop_fails closes bound]
  · refine raises _ ?_
    rw [begun_xfer_none start, if_neg Bool.false_ne_true, pop_fails closes bound]
  · refine ⟨nothing _ (call_delay _ delay), nothing _ (call_delay _ delay), nothing _ ?_⟩
    rw [begun_pe]
    exact if_pos delay

end Sys2Proof.Machine
end

section
/-! A transfer and its two delay slots (R234, R235). -/

namespace Sys2Proof.Machine

/-- An engine after one bundle without results, its transfer being one bundle nearer (R235). -/
def Engine.moved (e : Engine) : Engine :=
  { e.ran with xfer := (nextPc e.pc e.xfer).1, pc := (nextPc e.pc e.xfer).2 }

/-- A running engine with nothing in flight and no halt that waits. -/
def Engine.idleRun (e : Engine) : Prop := e.pend = [] ∧ e.haltPend = none ∧ e.state = .run

theorem finish_idle {e : Engine} (idle : e.idleRun) : e.begun.finishBundle = e.moved := by
  obtain ⟨pend, halt, run⟩ := idle
  simp [Engine.finishBundle, Engine.endBundle, Engine.applyAll, Engine.begun, Engine.moved, Engine.ran, pend, halt, run]

theorem moved_idleRun {e : Engine} (idle : e.idleRun) : e.moved.idleRun := idle

/-- An engine that can close a bundle wherever its program counter stands. -/
theorem closes_anywhere {s : State} {n : Fin 18} (can : (s.pe n).canIssue = true) (bp : s.flag (PE_BP n) PE_BP_EN = false)
    (sound : (s.pe n).imem.bad = []) (pend : (s.pe n).pend = []) : s.closes n = true := by
  have nobp : s.atBreakpoint n = false := by rw [State.atBreakpoint, bp]; rfl
  have fetch : s.fetchBad n = false := by rw [State.fetchBad, Mem.isBad, sound]; rfl
  simp [State.closes, can, nobp, fetch, pend]

/-- A NOP bundle moves the engine on, and its transfer with it. -/
theorem exec_nop_moves {s : State} {n : Fin 18} (quiet : s.quiet = true) (closes : s.closes n = true) (idle : (s.pe n).idleRun) :
    exec (.nop n true) s = .next (s.setPe n (s.pe n).moved) :=
  (issue1_engine quiet closes (fun t => (t, true)) rfl).trans
    (congrArg (fun e => Host.Outcome.next (s.setPe n e)) (finish_idle idle))

/-- The engine of a transfer after its own bundle, and after each of its two delay slots. -/
theorem moved_thrice {e : Engine} (half : e.half = false) (xfer : e.xfer = none) (target : Option (BitVec 14)) :
    let e1 := ({ e with xfer := some ⟨target, 3⟩ } : Engine).moved
    e1.pc = e.pc + 1 ∧ e1.moved.pc = e.pc + 2 ∧ e1.moved.moved = { e with
      pc := target.getD (e.pc + 3), lastPc := e.pc + 2, cycles := e.cycles + 3, busy := e.busy + 3, wdog := e.wdog + 3 } := by
  have two : e.pc + 1#14 + 1#14 = e.pc + 2#14 := BitVec.add_assoc e.pc 1 1
  have three : e.pc + 2#14 + 1#14 = e.pc + 3#14 := BitVec.add_assoc e.pc 2 1
  obtain ⟨w, acc, flags, pc, lastPc, _, pend, _, rest⟩ := e
  subst half xfer
  refine ⟨rfl, two, ?_⟩
  dsimp only at two three
  simp [Engine.moved, Engine.ran, nextPc, two, three]

/-- Two NOP bundles after a transfer. -/
theorem transfer_two_nops {s : State} {n : Fin 18} (quiet : s.quiet = true) (issues : s.issues n = true) (calm : (s.pe n).calm = true)
    (bp : s.flag (PE_BP n) PE_BP_EN = false) (sound : (s.pe n).imem.bad = []) (i : Instr) (target : Option (BitVec 14))
    (starts : exec i s = .next (s.setPe n ((s.pe n).begun.transfer target).finishBundle)) :
    ∃ t u v, exec i s = .next t ∧ exec (.nop n true) t = .next u ∧ exec (.nop n true) u = .next v ∧
      (t.pe n).pc = (s.pe n).pc + 1 ∧ (u.pe n).pc = (s.pe n).pc + 2 ∧ (v.pe n).pc = target.getD ((s.pe n).pc + 3) ∧
      (v.pe n).xfer = none ∧ v = s.setPe n { s.pe n with
        pc := target.getD ((s.pe n).pc + 3), lastPc := (s.pe n).pc + 2, cycles := (s.pe n).cycles + 3,
        busy := (s.pe n).busy + 3, wdog := (s.pe n).wdog + 3 } := by
  obtain ⟨pend, xfer, halt⟩ := calm_parts calm
  have run := issues_run issues
  simp only [State.issues, Bool.and_eq_true, Bool.not_eq_true'] at issues
  obtain ⟨⟨⟨can, half⟩, _⟩, _⟩ := issues
  obtain ⟨pc1, pc2, last⟩ := moved_thrice half xfer target
  have idle : ({ s.pe n with xfer := some ⟨target, 3⟩ } : Engine).idleRun := ⟨pend, halt, run⟩
  have started : (s.pe n).begun.transfer target = ({ s.pe n with xfer := some ⟨target, 3⟩ } : Engine).begun :=
    if_neg (by simp [Engine.begun, xfer])
  rw [started, finish_idle idle] at starts
  generalize moved1 : ({ s.pe n with xfer := some ⟨target, 3⟩ } : Engine).moved = e1 at starts pc1 pc2 last
  have idle1 : e1.idleRun := moved1 ▸ moved_idleRun idle
  have nop : ∀ e : Engine, e.canIssue = true → e.imem.bad = [] → e.idleRun →
      exec (.nop n true) (s.setPe n e) = .next (s.setPe n e.moved) := by
    intro e can sound idle
    have self : (s.setPe n e).pe n = e := State.pe_setPe_self s n e
    have moves := exec_nop_moves (s := s.setPe n e) (n := n) quiet (closes_anywhere (by rwa [self]) bp (by rwa [self])
      (by rw [self]; exact idle.1)) (by rwa [self])
    rwa [self, setPe_setPe] at moves
  have can1 : e1.canIssue = true := moved1 ▸ can
  have sound1 : e1.imem.bad = [] := moved1 ▸ sound
  refine ⟨_, _, _, starts, nop e1 can1 sound1 idle1, nop e1.moved can1 sound1 (moved_idleRun idle1), ?_, ?_, ?_, ?_, ?_⟩
  · rw [State.pe_setPe_self, pc1]
  · rw [State.pe_setPe_self, pc2]
  · rw [State.pe_setPe_self, last]
  · rw [State.pe_setPe_self, last, xfer]
  · rw [last]

/-- Settles O33: a transfer that starts reaches its target after two NOP bundles, whatever its target is. -/
theorem transferReachesItsTarget : Obligations.TransferReachesItsTarget := by
  intro s n ra rb imm idx quiet issues calm bp sound e x listed
  have closes := closes_of_issues issues calm
  have reaches := fun i target starts => transfer_two_nops quiet issues calm bp sound i target starts
  simp only [List.mem_cons, List.not_mem_nil, or_false] at listed
  obtain rfl | rfl := listed
  · exact reaches _ _ (exec_j quiet closes idx)
  · have taken := reaches (.beq n ra rb imm) _ (branch_transfers quiet closes ra rb imm (fun a b => a == b) beq_iff_eq)
    have target : (if e.w[ra] = e.w[rb] then some (e.pc + imm.setWidth 14) else none).getD (e.pc + 3) =
        if e.w[ra] = e.w[rb] then e.pc + imm.setWidth 14 else e.pc + 3 := by split <;> rfl
    rw [target] at taken
    exact taken

end Sys2Proof.Machine
end

section
/-! Bundles of two slots, the CRC instruction and undefined encodings (R138, R214, R219, R221, R247, R248). -/

namespace Sys2Proof.Machine

/-! ## The end of a bundle does not depend on how far it had come -/

/-- An engine in the middle of its bundle, or before it. -/
def Engine.withHalf (e : Engine) (half : Bool) : Engine := { e with half := half }

theorem apply_withHalf (e : Engine) (half : Bool) (p : Pend) : (e.withHalf half).apply p = (e.apply p).withHalf half := by
  unfold Engine.apply
  cases p.dst <;> rfl

theorem foldl_apply_withHalf (ps : List Pend) (e : Engine) (half : Bool) :
    ps.foldl Engine.apply (e.withHalf half) = (ps.foldl Engine.apply e).withHalf half := by
  induction ps generalizing e with
  | nil => rfl
  | cons p ps ih => rw [List.foldl_cons, List.foldl_cons, apply_withHalf, ih]

theorem applyAll_withHalf (e : Engine) (half : Bool) (ps : List Pend) : (e.withHalf half).applyAll ps = (e.applyAll ps).withHalf half := by
  rw [Engine.applyAll, foldl_apply_withHalf, foldl_apply_withHalf]
  rfl

theorem finishBundle_withHalf (e : Engine) (half : Bool) : (e.withHalf half).finishBundle = e.finishBundle := by
  have ends : (e.withHalf half).endBundle = e.endBundle := by
    rw [Engine.endBundle, Engine.endBundle,
      show ({ e.withHalf half with pend := [] } : Engine) = ({ e with pend := [] } : Engine).withHalf half from rfl, applyAll_withHalf]
    rfl
  rw [Engine.finishBundle, Engine.finishBundle, ends]

/-! ## Slot 0 instructions -/

/-- A slot 0 instruction: alone or before a slot 1 instruction it adds the same results to those in flight. -/
def State.slotZero (s : State) (n : Fin 18) (i : Bool → Instr) : Prop :=
  ∃ body ps, (∀ last, exec (i last) s = done (s.issue0 n last body)) ∧ (ps.all fun p => !p.disturbed) = true ∧
    body (s.onPe n fun e => { e with lastPc := e.pc }) = s.setPe n { s.pe n with lastPc := (s.pe n).pc, pend := ps }

/-- A slot 0 instruction and a NOP in slot 1 are the slot 0 instruction alone. -/
theorem State.slotZero.pairs {s : State} {n : Fin 18} {i : Bool → Instr} (h : s.slotZero n i) (quiet : s.quiet = true)
    (issues : s.issues n = true) :
    ∃ ps u, exec (i false) s = .next (s.setPe n { s.pe n with lastPc := (s.pe n).pc, half := true, pend := ps }) ∧
      exec (.nop n true) (s.setPe n { s.pe n with lastPc := (s.pe n).pc, half := true, pend := ps }) = .next u ∧
      exec (i true) s = .next u := by
  obtain ⟨body, ps, instr, undisturbed, effect⟩ := h
  refine ⟨ps, s.setPe n ({ s.pe n with lastPc := (s.pe n).pc, pend := ps } : Engine).finishBundle, ?_, ?_, ?_⟩
  · rw [instr, issue0_go issues]
    dsimp only
    rw [effect, if_neg Bool.false_ne_true, setPe_onPe]
    exact done_quiet quiet
  · have closes : (s.setPe n { s.pe n with lastPc := (s.pe n).pc, half := true, pend := ps }).closes n = true := by
      simp only [State.issues, Bool.and_eq_true, Bool.not_eq_true'] at issues
      obtain ⟨⟨⟨can, _⟩, _⟩, fetch⟩ := issues
      simp only [State.closes, State.pe_setPe_self, State.fetchBad, Bool.true_or, Bool.and_true, Bool.and_eq_true, Bool.not_eq_true']
      exact ⟨⟨can, fetch⟩, undisturbed⟩
    refine (issue1_engine (s := s.setPe n _) (n := n) quiet closes (fun t => (t, true)) rfl).trans ?_
    rw [setPe_setPe, State.pe_setPe_self]
    exact congrArg (fun e => Host.Outcome.next (s.setPe n e))
      (finishBundle_withHalf { s.pe n with lastPc := (s.pe n).pc, pend := ps } true)
  · rw [instr, issue0_go issues]
    dsimp only
    rw [effect, if_pos rfl, setPe_onPe]
    exact done_quiet quiet

/-- Results that a bundle just issued are undisturbed. -/
theorem put_begins {s : State} {n : Fin 18} (calm : (s.pe n).calm = true) (rd : Fin 32) (o : AluOut) (d : Nat) :
    ∃ ps, (ps.all fun p : Pend => !p.disturbed) = true ∧ (s.onPe n fun e => { e with lastPc := e.pc }).put n rd o d =
      s.setPe n { s.pe n with lastPc := (s.pe n).pc, pend := ps } := by
  refine ⟨⟨.reg rd, o.val.setWidth 40, d, true, false, false⟩ ::
    (if o.set = 0 then [] else [⟨.setFlags, o.set.setWidth 40, d, true, false, false⟩]), by split <;> rfl, ?_⟩
  rw [State.put, onPe_onPe, State.onPe]
  simp only [Engine.result, (calm_parts calm).1, List.nil_append]
  split <;> rfl

theorem putAcc_begins {s : State} {n : Fin 18} (calm : (s.pe n).calm = true) (a : Fin 4) (v : BitVec 40 × BitVec 10) (d : Nat) (mac : Bool) :
    ∃ ps, (ps.all fun p : Pend => !p.disturbed) = true ∧ (s.onPe n fun e => { e with lastPc := e.pc }).putAcc n a v d mac =
      s.setPe n { s.pe n with lastPc := (s.pe n).pc, pend := ps } := by
  refine ⟨⟨.acc a, v.1, d, true, mac, false⟩ :: (if v.2 = 0 then [] else [⟨.setFlags, v.2.setWidth 40, d, true, mac, false⟩]),
    by split <;> rfl, ?_⟩
  rw [State.putAcc, onPe_onPe, State.onPe]
  simp only [Engine.result, (calm_parts calm).1, List.nil_append]
  split <;> rfl

section
variable {s : State} {n : Fin 18} (calm : (s.pe n).calm = true) {i : Bool → Instr}
include calm

theorem put_slotZero (rd : Fin 32) (o : AluOut) (d : Nat) (body : State → State)
    (instr : ∀ last, exec (i last) s = done (s.issue0 n last body))
    (effect : body (s.onPe n fun e => { e with lastPc := e.pc }) = (s.onPe n fun e => { e with lastPc := e.pc }).put n rd o d) :
    s.slotZero n i := by
  obtain ⟨ps, undisturbed, put⟩ := put_begins calm rd o d
  exact ⟨body, ps, instr, undisturbed, effect.trans put⟩

theorem putAcc_slotZero (a : Fin 4) (v : BitVec 40 × BitVec 10) (d : Nat) (mac : Bool) (body : State → State)
    (instr : ∀ last, exec (i last) s = done (s.issue0 n last body))
    (effect : body (s.onPe n fun e => { e with lastPc := e.pc }) = (s.onPe n fun e => { e with lastPc := e.pc }).putAcc n a v d mac) :
    s.slotZero n i := by
  obtain ⟨ps, undisturbed, put⟩ := putAcc_begins calm a v d mac
  exact ⟨body, ps, instr, undisturbed, effect.trans put⟩

theorem alu2_slotZero (rd ra rb : Fin 32) (d : Nat) (f : Word → Word → AluOut)
    (instr : ∀ last, exec (i last) s = done (s.alu2 n last rd ra rb d f)) : s.slotZero n i := by
  obtain ⟨pend, w, _⟩ := lastPc_calm calm
  refine put_slotZero calm rd (f (s.pe n).w[ra] (s.pe n).w[rb]) d _ instr ?_
  dsimp only
  rw [readW_calm pend, readW_calm pend, w]

theorem alu1_slotZero (rd ra : Fin 32) (f : Word → AluOut)
    (instr : ∀ last, exec (i last) s = done (s.alu1 n last rd ra f)) : s.slotZero n i := by
  obtain ⟨pend, w, _⟩ := lastPc_calm calm
  refine put_slotZero calm rd (f (s.pe n).w[ra]) 1 _ instr ?_
  dsimp only
  rw [readW_calm pend, w]

theorem macClass_slotZero (acc : Fin 4) (ra rb : Fin 32) (sat : Bool) {rnd : Nat} (defined : rnd ≠ 3) (f : Int → Int → Int)
    (instr : ∀ last, exec (i last) s = done (s.macClass n last acc ra rb sat rnd f)) : s.slotZero n i := by
  obtain ⟨pend, w, accs, _⟩ := lastPc_calm calm
  refine putAcc_slotZero calm acc (fitAcc acc sat (f (s.pe n).acc[acc].toInt (macProduct rnd (s.pe n).w[ra] (s.pe n).w[rb]))) 3 true _
    (fun last => (instr last).trans (congrArg done (if_neg defined))) ?_
  dsimp only
  rw [readW_calm pend, readW_calm pend, readAcc_calm pend, w, accs]

end

/-! ## CRC -/

/-- The effect of CRC with a defined encoding. -/
def crcBody (n : Fin 18) (rd ra rb : Fin 32) (poly : Fin 8) (size uw : Fin 4) (uref : Bool) (t : State) : State :=
  let (st, t1) := t.readW n rd
  let (a, t2) := t1.readW n ra
  let (b, t3) := if poly.val = 7 then t2.readW n rb else (0, t2)
  match crcPoly poly.val uw.val uref b with
  | none => t3
  | some p => t3.put n rd (plain (crcUpdate p st a (2 ^ size.val))) 2

theorem exec_crc {n : Fin 18} (rd ra rb : Fin 32) {poly : Fin 8} {size : Fin 4} (uw : Fin 4) (uref : Bool) (hsize : size.val ≠ 3)
    (hpoly : poly.val ≠ 5 ∧ poly.val ≠ 6) (last : Bool) (s : State) :
    exec (.crc n rd ra rb poly size uw uref last) s = done (s.issue0 n last (crcBody n rd ra rb poly size uw uref)) :=
  if_neg (by omega)

theorem crcBody_calm {t : State} {n : Fin 18} (pend : (t.pe n).pend = []) (rd ra rb : Fin 32) (poly : Fin 8) (size uw : Fin 4)
    (uref : Bool) :
    crcBody n rd ra rb poly size uw uref t =
      match crcPoly poly.val uw.val uref (if poly.val = 7 then (t.pe n).w[rb] else 0) with
      | none => t
      | some p => t.put n rd (plain (crcUpdate p (t.pe n).w[rd] (t.pe n).w[ra] (2 ^ size.val))) 2 := by
  rw [crcBody, readW_calm pend]
  dsimp only
  rw [readW_calm pend]
  dsimp only
  rw [readW_calm pend]
  by_cases user : poly.val = 7
  · rw [if_pos user, if_pos user]
  · rw [if_neg user, if_neg user]

theorem crc_slotZero {s : State} {n : Fin 18} (calm : (s.pe n).calm = true) (rd ra rb : Fin 32) {poly : Fin 8} {size : Fin 4}
    (uw : Fin 4) (uref : Bool) (hsize : size.val ≠ 3) (hpoly : poly.val ≠ 5 ∧ poly.val ≠ 6) :
    s.slotZero n (.crc n rd ra rb poly size uw uref ·) := by
  obtain ⟨pend, _⟩ := lastPc_calm calm
  have body := crcBody_calm pend rd ra rb poly size uw uref
  cases named : crcPoly poly.val uw.val uref
    (if poly.val = 7 then ((s.onPe n fun e => { e with lastPc := e.pc }).pe n).w[rb] else 0) with
  | none =>
    rw [named] at body
    refine ⟨_, [], fun last => exec_crc rd ra rb uw uref hsize hpoly last s, rfl, body.trans ?_⟩
    rw [← (calm_parts calm).1]
    rfl
  | some p =>
    rw [named] at body
    exact put_slotZero calm rd _ 2 _ (fun last => exec_crc rd ra rb uw uref hsize hpoly last s) body

/-- A slot 0 NOP adds no result. -/
theorem nop_slotZero {s : State} {n : Fin 18} (quiet : s.quiet = true) (issues : s.issues n = true) (calm : (s.pe n).calm = true) :
    s.slotZero n (.nop n ·) := by
  have begins : s.onPe n (fun e => { e with lastPc := e.pc }) = s.setPe n { s.pe n with lastPc := (s.pe n).pc, pend := [] } := by
    rw [← (calm_parts calm).1]
    rfl
  refine ⟨id, [], fun last => ?_, rfl, begins⟩
  cases last with
  | false => rfl
  | true =>
    have none : ({ (s.pe n).ran with pend := [] } : Engine) = (s.pe n).ran := by
      rw [← (calm_parts calm).1]
      rfl
    have alone := late_last quiet issues calm [] (by simp) id begins
    rw [List.map_nil, none] at alone
    exact (exec_nop_last quiet issues calm).trans alone.symm

theorem clrf_slotZero {s : State} {n : Fin 18} (calm : (s.pe n).calm = true) {imm : BitVec 16} (defined : imm.toNat < 1024) :
    s.slotZero n (.clrf n imm ·) := by
  refine ⟨_, [⟨.clearFlags, imm.zeroExtend 40, 1, true, false, false⟩], fun last => exec_clrf defined last s, rfl, ?_⟩
  rw [onPe_onPe, State.onPe]
  simp only [Engine.result, (calm_parts calm).1, List.nil_append]

/-- Settles O35: every slot 0 row has the pairing property, which is proved once for each form of bundle. -/
theorem bundleOfTwoSlots : Obligations.BundleOfTwoSlots := by
  intro s n acc rd ra rb pos wm1 poly sh size uw rnd imm uref sat quiet issues calm i listed wf
  refine State.slotZero.pairs ?_ quiet issues
  obtain ⟨pend, w, accs, flags⟩ := lastPc_calm calm
  have two : ∀ {i} (rd ra rb : Fin 32) (d : Nat) (f : Word → Word → AluOut),
      (∀ last, exec (i last) s = done (s.alu2 n last rd ra rb d f)) → (i false).wellFormed = true → s.slotZero n i :=
    fun rd ra rb d f instr _ => alu2_slotZero calm rd ra rb d f instr
  have one : ∀ {i} (rd ra : Fin 32) (f : Word → AluOut),
      (∀ last, exec (i last) s = done (s.alu1 n last rd ra f)) → (i false).wellFormed = true → s.slotZero n i :=
    fun rd ra f instr _ => alu1_slotZero calm rd ra f instr
  have defined : (rnd != 3) = true → rnd.val ≠ 3 := fun round h => bne_iff_ne.mp round (Fin.ext h)
  revert i
  simp only [List.forall_mem_cons]
  refine ⟨
    two _ _ _ _ _ fun _ => rfl, two _ _ _ _ _ fun _ => rfl, two _ _ _ _ _ fun _ => rfl, two _ _ _ _ _ fun _ => rfl,
    two _ _ _ _ _ fun _ => rfl, two _ _ _ _ _ fun _ => rfl, two _ _ _ _ _ fun _ => rfl, two _ _ _ _ _ fun _ => rfl,
    two _ _ _ _ _ fun _ => rfl, two _ _ _ _ _ fun _ => rfl, two _ _ _ _ _ fun _ => rfl, two _ _ _ _ _ fun _ => rfl,
    two _ _ _ _ _ fun _ => rfl, two _ _ _ _ _ fun _ => rfl, one _ _ _ fun _ => rfl, one _ _ _ fun _ => rfl,
    one _ _ _ fun _ => rfl, one _ _ _ fun _ => rfl, ?shli, ?shri, ?sari, one _ _ _ fun _ => rfl, ?movi, ?lui,
    one _ _ _ fun _ => rfl, one _ _ _ fun _ => rfl, one _ _ _ fun _ => rfl, one _ _ _ fun _ => rfl, one _ _ _ fun _ => rfl,
    ?extu, ?exts, ?ins, ?crc, ?mpy, ?mac, ?msu, two _ _ _ _ _ fun _ => rfl, ?ext, ?setacc, ?setg, ?extg, ?getf, ?clrf,
    fun _ => nop_slotZero quiet issues calm, fun _ h => absurd h List.not_mem_nil⟩
  case shli => exact fun wf => alu1_slotZero calm _ _ _ fun last => exec_shli (of_decide_eq_true wf) last s
  case shri => exact fun wf => alu1_slotZero calm _ _ _ fun last => exec_shri (of_decide_eq_true wf) last s
  case sari => exact fun wf => alu1_slotZero calm _ _ _ fun last => exec_sari (of_decide_eq_true wf) last s
  case movi => exact fun _ => put_slotZero calm rd (plain (sext16 imm)) 1 _ (fun _ => rfl) rfl
  case lui => exact fun _ => put_slotZero calm rd (plain (zext16 imm <<< 16)) 1 _ (fun _ => rfl) rfl
  case extu => exact fun wf => alu1_slotZero calm _ _ _ fun last => exec_extu (of_decide_eq_true wf) last s
  case exts => exact fun wf => alu1_slotZero calm _ _ _ fun last => exec_exts (of_decide_eq_true wf) last s
  case ins => exact fun wf => alu2_slotZero calm _ _ _ _ _ fun last => exec_ins (of_decide_eq_true wf) last s
  case crc =>
    intro wf
    simp only [Instr.wellFormed, Bool.and_eq_true, bne_iff_ne, ne_eq, Fin.ext_iff] at wf
    exact crc_slotZero calm rd ra rb uw uref wf.2 wf.1
  case mpy => exact fun wf => macClass_slotZero calm acc ra rb sat (defined wf) _ fun _ => rfl
  case mac => exact fun wf => macClass_slotZero calm acc ra rb sat (defined wf) _ fun _ => rfl
  case msu => exact fun wf => macClass_slotZero calm acc ra rb sat (defined wf) _ fun _ => rfl
  case ext =>
    intro wf
    obtain ⟨small, round⟩ := Bool.and_eq_true_iff.mp wf
    refine put_slotZero calm rd (extResult (s.pe n).acc[acc] sh sat rnd) 1 _
      (fun last => exec_ext (defined round) (of_decide_eq_true small) last s) ?_
    dsimp only
    rw [readAcc_calm pend, accs]
  case setacc =>
    refine fun _ => putAcc_slotZero calm acc ((s.pe n).w[ra].signExtend 40, 0) 1 false _ (fun _ => rfl) ?_
    dsimp only
    rw [readW_calm pend, w]
  case setg =>
    refine fun _ => putAcc_slotZero calm acc ((s.pe n).w[ra].extractLsb' 0 8 ++ (s.pe n).acc[acc].extractLsb' 0 32, 0) 1 false _
      (fun _ => rfl) ?_
    dsimp only
    rw [readW_calm pend, readAcc_calm pend, w, accs]
  case extg =>
    refine fun _ => put_slotZero calm rd (plain (((s.pe n).acc[acc].extractLsb' 32 8).signExtend 32)) 1 _ (fun _ => rfl) ?_
    dsimp only
    rw [readAcc_calm pend, accs]
  case getf =>
    refine fun _ => put_slotZero calm rd (plain ((s.pe n).flags.zeroExtend 32)) 1 _ (fun _ => rfl) ?_
    dsimp only
    rw [readFlags_calm pend, flags]
  case clrf => exact fun wf => clrf_slotZero calm (of_decide_eq_true wf)

/-- The polynomials of the table of R248, with the user's own (POLY 7). -/
theorem crcPoly_named {poly : Fin 8} {uw : Fin 4} {uref : Bool} {b : Word} {p : CrcPoly}
    (named : (poly.val, p) ∈ [(0, ⟨32, 0x04C11DB7, true⟩), (1, ⟨32, 0x1EDC6F41, true⟩), (2, ⟨16, 0x1021, false⟩),
      (3, ⟨16, 0x8005, true⟩), (4, ⟨8, 0x07, false⟩),
      (7, (⟨8 * (uw.val + 1), b.toNat % 2 ^ (8 * (uw.val + 1)), uref⟩ : CrcPoly))]) :
    crcPoly poly.val uw.val uref (if poly.val = 7 then b else 0) = some p ∧ poly.val ≠ 5 ∧ poly.val ≠ 6 := by
  simp only [List.mem_cons, List.not_mem_nil, or_false, Prod.mk.injEq] at named
  obtain ⟨h, rfl⟩ | ⟨h, rfl⟩ | ⟨h, rfl⟩ | ⟨h, rfl⟩ | ⟨h, rfl⟩ | ⟨h, rfl⟩ := named <;> rw [h] <;> exact ⟨rfl, by decide⟩

theorem exec_crc_last {s : State} {n : Fin 18} (quiet : s.quiet = true) (issues : s.issues n = true) (calm : (s.pe n).calm = true)
    (rd ra rb : Fin 32) {poly : Fin 8} {size : Fin 4} (uw : Fin 4) (uref : Bool) (hsize : size.val ≠ 3)
    (hpoly : poly.val ≠ 5 ∧ poly.val ≠ 6) {p : CrcPoly}
    (named : crcPoly poly.val uw.val uref (if poly.val = 7 then (s.pe n).w[rb] else 0) = some p) :
    exec (.crc n rd ra rb poly size uw uref true) s = .next (s.setPe n { (s.pe n).ran with
      pend := [⟨.reg rd, (crcUpdate p (s.pe n).w[rd] (s.pe n).w[ra] (2 ^ size.val)).setWidth 40, 1, false, false, false⟩] }) := by
  obtain ⟨pend, w, _⟩ := lastPc_calm calm
  rw [exec_crc rd ra rb uw uref hsize hpoly]
  refine late_last quiet issues calm [⟨.reg rd, _, 2, true, false, false⟩] (by simp) _ ?_
  rw [crcBody_calm pend, w, named]
  dsimp only
  rw [State.put, onPe_onPe]
  simp only [plain, Engine.result, if_true]
  unfold State.onPe
  simp only [(calm_parts calm).1, List.nil_append]
  rfl

/-- An undefined bundle of an engine that issues raises ILLEGAL (R219). -/
theorem illegal_issues {s : State} {n : Fin 18} (issues : s.issues n = true) : s.illegal n = s.notExecuted n F_PE_ILLEGAL true := by
  simp only [State.issues, Bool.and_eq_true, Bool.not_eq_true'] at issues
  obtain ⟨⟨⟨can, half⟩, bp⟩, fetch⟩ := issues
  rw [State.illegal, can, half, bp, fetch]
  rfl

theorem oddPair_of_not_pairBase {r : Fin 32} (h : pairBase r = false) : oddPair r = true := by
  simp only [pairBase, oddPair, Bool.and_eq_false_iff, beq_eq_false_iff_ne, bne_eq_false_iff_eq, Bool.or_eq_true, beq_iff_eq] at h ⊢
  omega

/-- Settles O28: a CRC step is a bundle with one result, and an undefined operand takes the branch of the undefined bundle. -/
theorem crcAndUndefinedEncodings : Obligations.CrcAndUndefinedEncodings := by
  intro s n acc rd ra rb pos wm1 poly sh size uw rnd imm uref sat last ecc e
  refine ⟨fun quiet issues calm p hsize named => ?_, ?_, fun issues => ?_⟩
  · obtain ⟨named, hpoly⟩ := crcPoly_named named
    exact exec_crc_last quiet issues calm rd ra rb uw uref hsize hpoly named
  · have shift : decide (imm.toNat < 32) = false → 32 ≤ imm.toNat := fun h => not_lt.mp (of_decide_eq_false h)
    have field : decide (pos.val + wm1.val < 32) = false → 32 < pos.val + wm1.val + 1 := fun h => by
      have := of_decide_eq_false h
      omega
    have round : (rnd != 3) = false → rnd.val = 3 := fun h => congrArg Fin.val (bne_eq_false_iff_eq.mp h)
    have mac : (rnd != 3) = false → ∀ f, done (s.macClass n last acc ra rb sat rnd f) = done (s.illegal n) :=
      fun h f => congrArg done (if_pos (round h))
    simp only [List.forall_mem_cons]
    refine ⟨fun h => if_pos (shift h), fun h => if_pos (shift h), fun h => if_pos (shift h), fun h => if_pos (field h),
      fun h => if_pos (field h), fun h => if_pos (field h), fun h => if_pos ?crc, fun h => mac h _, fun h => mac h _, fun h => mac h _,
      fun h => if_pos ?ext, fun h => if_pos (not_lt.mp (of_decide_eq_false h)),
      fun h => congrArg done (if_pos (oddPair_of_not_pairBase h)), fun h => congrArg done (if_pos ?sd),
      fun h => congrArg done (if_pos (oddPair_of_not_pairBase h)), fun h => congrArg done (if_pos (oddPair_of_not_pairBase h)),
      fun _ h => absurd h List.not_mem_nil⟩
    case crc =>
      simp only [Instr.wellFormed, Bool.and_eq_false_iff, bne_eq_false_iff_eq, Fin.ext_iff] at h
      change (poly.val = 5 ∨ poly.val = 6) ∨ size.val = 3 at h
      tauto
    case ext =>
      simp only [Instr.wellFormed, Bool.and_eq_false_iff, bne_eq_false_iff_eq, decide_eq_false_iff_not, not_le] at h
      exact h.imp_right (congrArg Fin.val)
    case sd =>
      have odd : (rd.val % 2 == 0) = false := h
      have := beq_eq_false_iff_ne.mp odd
      omega
  · have raised : exec (.illegalBundle n) s = done (s.notExecuted n F_PE_ILLEGAL true) := congrArg done (illegal_issues issues)
    rw [raised, State.notExecuted]
    exact ⟨fun stays => congrArg done (if_pos stays), fun goes => congrArg done ((if_neg (by simp [goes])).trans (if_pos rfl))⟩

end Sys2Proof.Machine
end

section
/-! PE_CTRL, PE_DBG_DATA, engine resets and the scrubber (R147, R151, R174, R179 to R185, R207 to R209). -/

namespace Sys2Proof.Machine

theorem mig_quiet {s : State} (quiet : s.quiet = true) : s.pers.mig = none := by
  simp_all [State.quiet]

theorem peCtrlWrite_quiet {s : State} (quiet : s.quiet = true) (n : Fin 18) (v : Nat) : s.peCtrlWrite n v = s.peCtrl n v := by
  rw [State.peCtrlWrite, mig_quiet quiet]

/-- A change of one engine in a quiet state leaves nothing to follow. -/
theorem done_onPe {s : State} (quiet : s.quiet = true) (n : Fin 18) (f : Engine → Engine) : done (s.onPe n f) = .next (s.onPe n f) :=
  done_quiet (s := s.onPe n f) quiet

section
variable {s : State} {n : Fin 18}

theorem peStart_loaded (live : (s.pe n).inReset = false) (state : (s.pe n).state = .loaded) :
    s.peStart n = (s.setReg (PE_CYC_CNT n) 0).onPe n fun e => { e with state := .run, cycles := 0, lastBoundary := 0, wdog := 0 } := by
  rw [State.peStart, live, state]
  rfl

theorem peStart_resumes (live : (s.pe n).inReset = false) (state : (s.pe n).state = .stopped ∨ (s.pe n).state = .halt) :
    s.peStart n = s.onPe n fun e => { e with state := .run, haltCause := 0 } := by
  obtain state | state := state <;> rw [State.peStart, live, state] <;> rfl

theorem peStop_requests (live : (s.pe n).inReset = false) (state : (s.pe n).state = .run ∨ (s.pe n).state = .wait)
    (first : (s.pe n).stopPend = false) : s.peStop n = s.onPe n fun e => { e with stopPend := true, deferred := 0 } := by
  obtain state | state := state <;> rw [State.peStop, live, state, first] <;> rfl

theorem peHalt_halts (live : (s.pe n).inReset = false)
    (state : (s.pe n).state = .run ∨ (s.pe n).state = .wait ∨ (s.pe n).state = .stopped) (cause : Nat) :
    s.peHalt n cause = s.onPe n fun e =>
      if e.half = true ∨ e.stall.isSome = true then { e with haltPend := some cause, stopPend := false } else e.haltNow cause := by
  have halts : s.peHalt n cause = s.onPe n (·.haltReq cause) := by
    obtain state | state | state := state <;> rw [State.peHalt, live, state] <;> rfl
  rw [halts, State.onPe, State.onPe]
  rw [Engine.haltReq, live]
  simp

theorem peReset_starts (idle : (s.pe n).state ≠ .idle) (failed : (s.pe n).state ≠ .failed) :
    s.peReset n false = s.onPe n fun e => { e with inReset := true, stopPend := false, haltPend := none } := by
  simp [State.peReset, idle, failed]

/-! ## PE_DBG_DATA -/

/-- Writing back what an engine holds changes nothing. -/
theorem onPe_id (s : State) (n : Fin 18) : s.onPe n (fun e => e) = s := by
  have same : s.pes.set n (s.pes[n.val]) = s.pes := Vector.set_getElem_self n.isLt
  exact congrArg (fun pes => { s with pes := pes }) same

theorem dbgRead_register {r : Fin 32} (sel : s.rd (PE_DBG_SEL n) PE_DBG_SEL_SEL = r.val) : s.dbgRead n = ((s.pe n).w[r].toNat, s) := by
  simp [State.dbgRead, sel]

theorem dbgWrite_register {r : Fin 32} (sel : s.rd (PE_DBG_SEL n) PE_DBG_SEL_SEL = r.val) (v : Word) :
    s.dbgWrite n v = s.onPe n fun e => { e with w := e.w.set r v } := by
  simp [State.dbgWrite, sel]

theorem dbgRead_stackLimit (sel : s.rd (PE_DBG_SEL n) PE_DBG_SEL_SEL = 40) : s.dbgRead n = ((s.pe n).stackLimit.toNat, s) := by
  simp [State.dbgRead, sel]

theorem dbgWrite_stackLimit (sel : s.rd (PE_DBG_SEL n) PE_DBG_SEL_SEL = 40) (v : Word) : s.dbgWrite n v = s := by
  simp [State.dbgWrite, sel, onPe_id]

theorem debug_stands (state : (s.pe n).state = .loaded ∨ (s.pe n).state = .stopped ∨ (s.pe n).state = .halt) :
    (s.pe n).state.debug = true := by
  obtain state | state | state := state <;> rw [state] <;> rfl

theorem exec_dbg_stands {p : Fin 2} (hears : s.hears p (.pe n) = true)
    (state : (s.pe n).state = .loaded ∨ (s.pe n).state = .stopped ∨ (s.pe n).state = .halt) (v : Word) :
    exec (.peDbgDataAccess p n none) s = .next { (s.dbgRead n).2 with rdata := (s.dbgRead n).1 } ∧
      exec (.peDbgDataAccess p n (some v)) s = .next (s.dbgWrite n v) := by
  have debug := debug_stands state
  constructor
  · refine (onMw0_hears hears _ _).trans ?_
    dsimp only
    rw [debug]
    rfl
  · refine (onMw0_hears hears _ _).trans ?_
    dsimp only
    rw [debug]
    rfl

theorem exec_dbg_runs {p : Fin 2} (hears : s.hears p (.pe n) = true)
    (state : (s.pe n).state = .run ∨ (s.pe n).state = .wait ∨ (s.pe n).state = .shadow) (v : Word) :
    exec (.peDbgDataAccess p n none) s = .next { s with rdata := 0xFFFFFFFF } ∧ exec (.peDbgDataAccess p n (some v)) s = .next s := by
  constructor <;> refine (onMw0_hears hears _ _).trans ?_ <;> dsimp only <;> obtain state | state | state := state <;> rw [state] <;> rfl

/-! ## Resets -/

/-- An engine with no frame open and no far store posted loses only its frame access unit's registers (R186). -/
theorem fauReset_closed (rx : (s.pe n).fau.rx = none) (stores : (s.pe n).wbuf = []) :
    s.fauReset n = s.onPe n fun e => { e with wbuf := [], fau := Fau.reset } := by
  rw [State.fauReset, rx, State.flushWindow, stores, onPe_onPe, State.onPe, State.onPe]
  dsimp only [List.filter_nil, List.foldl_nil]
  rw [stores]
  rfl

theorem markerMoves_none (handover : s.mem.handover = none) (k i : Nat) : s.markerMoves k i = s := by
  rw [State.markerMoves, handover]

/-- The start values of an engine that serves no slot (R185, R213). -/
theorem peResetDone_unbound (slot : (s.pe n).slot = none) (rx : (s.pe n).fau.rx = none) (stores : (s.pe n).wbuf = [])
    (handover : s.mem.handover = none) (start : (s.pe n).startAfter = false) :
    s.peResetDone n = s.onPe n fun e => { Engine.reset with
      w := (Vector.replicate 32 0).set 31 (BitVec.ofNat 32 (0x10000000 + 8 * s.rd (PE_SP_INIT n) PE_SP_INIT_TOP))
      stackLimit := BitVec.ofNat 32 (0x10000000 + 8 * s.rd (PE_STACK_LIMIT n) PE_STACK_LIMIT_LIMIT)
      pc := BitVec.ofNat 14 (s.rd (PE_START_PC n) PE_START_PC_PC)
      state := if s.reg (PE_IMG_ID n) = 0 then .idle else .loaded
      lastPc := e.lastPc, imem := e.imem, dmem := e.dmem, busy := e.busy, stalled := e.stalled, scrubAt := e.scrubAt,
      longest := e.longest } := by
  rw [State.peResetDone, slot, start, fauReset_closed rx stores, markerMoves_none (by exact handover), State.peClear, onPe_onPe,
    if_neg Bool.false_ne_true, State.onPe, State.onPe]
  dsimp only
  rw [slot]
  rfl

/-! ## The scrubber -/

/-- The scrubber moves on over words that are sound (R151). -/
theorem exec_scrub_sound (quiet : s.quiet = true)
    (sound : ((s.pe n).imem.bad.contains (s.pe n).scrubAt || (s.pe n).dmem.bad.contains (s.pe n).scrubAt) = false) :
    exec (.engineScrubStep n .ok .ok) s = .next (s.onPe n fun e => { e with scrubAt := (e.scrubAt + 1) % 16384 }) := by
  obtain ⟨imem, dmem⟩ := Bool.or_eq_false_iff.mp sound
  let t := s.onPe n fun e => { e with scrubAt := ((s.pe n).scrubAt + 1) % 16384 }
  have engine : t.pe n = { s.pe n with scrubAt := ((s.pe n).scrubAt + 1) % 16384 } := pe_onPe s n _
  have first : t.scrubImem n (s.pe n).scrubAt .ok = t := by
    rw [State.scrubImem, engine, imem]
    rfl
  have second : t.scrubDmem n (s.pe n).scrubAt .ok = t := by
    rw [State.scrubDmem, engine, dmem]
    rfl
  have effect : exec (.engineScrubStep n .ok .ok) s =
      done ((t.scrubImem n (s.pe n).scrubAt .ok).scrubDmem n (s.pe n).scrubAt .ok) := rfl
  rw [effect, first, second]
  exact done_onPe quiet n _

end

/-- Settles O38: each control command has its own rule for each state of the engine. -/
theorem engineControlCommands : Obligations.EngineControlCommands := by
  intro s p n v quiet e put
  refine ⟨fun hears => ?_, fun resetting => ?_, exec_scrub_sound quiet⟩
  · have ctrl : ∀ (v : Nat) (t : State), s.peCtrl n v = t → onMw0 s p (.pe n) (PE_CTRL n) (done (s.peCtrlWrite n v)) = done t := by
      rintro v t rfl
      rw [onMw0_hears hears, peCtrlWrite_quiet quiet]
    refine ⟨fun live state => (ctrl 1 _ (peStart_loaded live state)).trans ?_,
      fun live state => (ctrl 1 _ (peStart_resumes live state)).trans (done_onPe quiet n _),
      fun live state first => (ctrl 2 _ (peStop_requests live state first)).trans (done_onPe quiet n _),
      fun live state => (ctrl 4 _ (peHalt_halts live state 1)).trans (done_onPe quiet n _),
      fun idle failed => (ctrl 8 _ (peReset_starts idle failed)).trans (done_onPe quiet n _),
      fun _ _ => onMw0_hears hears _ _, fun stands r sel => ?_, fun stands sel => ?_, fun runs => exec_dbg_runs hears runs v⟩
    · exact done_quiet (s := (s.setReg (PE_CYC_CNT n) 0).onPe n _) quiet
    · obtain ⟨read, write⟩ := exec_dbg_stands hears stands v
      rw [dbgRead_register sel] at read
      rw [dbgWrite_register sel] at write
      exact ⟨read, write⟩
    · obtain ⟨read, write⟩ := exec_dbg_stands hears stands v
      rw [dbgRead_stackLimit sel] at read
      rw [dbgWrite_stackLimit sel] at write
      exact ⟨read, write⟩
  · have ends : exec (.engineResetDone n) s = done (s.peResetDone n) := if_pos resetting
    refine ⟨ends, fun slot rx stores handover start => ?_⟩
    rw [ends, peResetDone_unbound slot rx stores handover start]
    exact done_onPe quiet n _

end Sys2Proof.Machine
end

section
/-! Host accesses to an engine's DMEM through MW2 (R152, R453, R454). -/

namespace Sys2Proof.Machine

theorem putBytes_bad (m : Mem) (a : Nat) (bs : List Byte) : (m.putBytes a bs).bad = m.bad := by
  induction bs generalizing m a with
  | nil => rfl
  | cons b bs ih => exact ih _ _

/-- A word with fresh check bits is sound. -/
theorem clearBad_sound (m : Mem) (k : Nat) : (m.clearBad k).bad.contains k = false := by
  simp [Mem.clearBad]

/-- Bytes written read back as they were given. -/
theorem bytes_putBytes {m : Mem} (wf : m.wf = true) (a : Nat) (bs : List Byte) : (m.putBytes a bs).bytes a bs.length = bs := by
  refine List.ext_getElem (by simp [Mem.bytes]) fun k hk hk' => ?_
  simp only [Mem.bytes, List.getElem_map, List.getElem_range]
  exact Mem.byte_putBytes wf hk'

theorem mw2Size_eight {off : Nat} (aligned : off % 8 = 0) : mw2Size off 8 = true := by
  have page : off / 4096 = (off + 7) / 4096 := by omega
  simp [mw2Size, aligned, page]

/-- An engine's DMEM after 8 bytes are written at `a`. -/
def Mem.hostStored (m : Mem) (a : Nat) (bs : List Byte) : Mem := (m.clearBad (a / 8)).putBytes a bs

theorem hostStored_sound (m : Mem) (a : Nat) (bs : List Byte) : (m.hostStored a bs).bad.contains (a / 8) = false := by
  rw [Mem.hostStored, putBytes_bad, clearBad_sound]

/-- A read's answer leaves nothing to follow. -/
theorem done_rdata {s : State} (quiet : s.quiet = true) (v : Nat) : done { s with rdata := v } = .next { s with rdata := v } :=
  done_quiet ((State.quiet_congr rfl rfl rfl rfl rfl).trans quiet)

theorem mw2_allowed {s : State} {n : Fin 18} {a : Nat} {off : BitVec 26} (served : s.onlyGen = false) (aligned : off.toNat % 8 = 0)
    (p : Fin 2) (port : s.noPort p = false) :
    (s.noPort p || 8 == 0) = false ∧ (!mw2Size off.toNat 8 || s.mw2Denies (.dmem n a)) = false := by
  have denies : s.mw2Denies (.dmem n a) = s.onlyGen := Bool.or_false _
  rw [port, mw2Size_eight aligned, denies, served]
  exact ⟨rfl, rfl⟩

section
variable {s : State} {n : Fin 18} {a : Nat} {off : BitVec 26} (quiet : s.quiet = true) (served : s.onlyGen = false)
  (place : mw2Place off.toNat = .dmem n a) (aligned : off.toNat % 8 = 0)
include quiet served place aligned

/-- An 8-byte write that the engine admits changes its DMEM alone. -/
theorem exec_mw2_write (p : Fin 2) (port : s.noPort p = false) (idle : s.executing n = false) (copy : s.inCopy n = false)
    (bs : List Byte) (size : bs.length = 8) (k : Fin 513) (ecc : Ecc) :
    exec (.mw2Access p off k (some bs) ecc) s = .next (s.setPe n { s.pe n with dmem := (s.pe n).dmem.hostStored a bs }) := by
  obtain ⟨reached, allowed⟩ := mw2_allowed (n := n) (a := a) served aligned p port
  have write : exec (.mw2Access p off k (some bs) ecc) s = done (s.mw2Write p (.dmem n a) bs ecc) := by
    show execMw2Access p off k (some bs) ecc s = _
    rw [execMw2Access]
    rw [size, place, reached, allowed]
    rfl
  have effect : s.mw2Write p (.dmem n a) bs ecc = s.setPe n { s.pe n with dmem := (s.pe n).dmem.hostStored a bs } := by
    have whole : bs.take 8 = bs := List.take_of_length_le size.le
    rw [State.mw2Write, idle, copy, size]
    show s.setPe n { s.pe n with dmem := ((s.pe n).dmem.clearBad (a / 8)).putBytes a (bs.take 8) } = _
    rw [whole]
    rfl
  rw [write, effect]
  exact done_quiet quiet

/-- An 8-byte read of a sound word answers its bytes, and changes nothing. -/
theorem exec_mw2_read (p : Fin 2) (port : s.noPort p = false) (target : s.copyTarget n = false)
    (sound : (s.pe n).dmem.bad.contains (a / 8) = false) :
    exec (.mw2Access p off 8 none .ok) s = .next { s with rdata := ofLe ((s.pe n).dmem.bytes a 8) } := by
  obtain ⟨reached, allowed⟩ := mw2_allowed (n := n) (a := a) served aligned p port
  have read : exec (.mw2Access p off 8 none .ok) s = done (s.mw2Read p (.dmem n a) 8 .ok) := by
    show execMw2Access p off 8 none .ok s = _
    rw [execMw2Access]
    rw [place, show ((8 : Fin 513).val) = 8 from rfl, reached, allowed]
    rfl
  have scrubbed : s.scrubDmem n (a / 8) .ok = s := by
    rw [State.scrubDmem, sound]
    rfl
  have effect : s.mw2Read p (.dmem n a) 8 .ok = { s with rdata := ofLe ((s.pe n).dmem.bytes a 8) } := by
    have serves : s.mw2Read p (.dmem n a) 8 .ok =
        hostAns ((s.scrubDmem n (a / 8) .ok).readWords ((s.scrubDmem n (a / 8) .ok).pe n).dmem [(a, 8)]) :=
      if_neg (by simp [target])
    rw [serves, scrubbed]
    simp only [State.readWords, Mem.isBad, sound, hostAns, List.append_nil]
    rfl
  rw [read, effect]
  exact done_rdata quiet _

end

/-- Settles O15: both accesses reach DMEM at the offset of the window, and the bytes written are the bytes read. -/
theorem mw2WriteThenReadReturnsTheBytes : Obligations.Mw2WriteThenReadReturnsTheBytes := by
  intro s p q n a off bs k ecc quiet portP portQ served idle copy target place alignedA aligned size wf
  have cleared : ((s.pe n).dmem.clearBad (a / 8)).wf = true := Mem.wf_clearBad wf _
  refine ⟨(s.pe n).dmem.hostStored a bs, exec_mw2_write quiet served place aligned p portP idle copy bs size k ecc, fun i hi => ?_,
    fun b hb => ?_, hostStored_sound _ a bs, ?_⟩
  · rw [Mem.hostStored, Mem.byte_putBytes cleared (size ▸ hi), List.getD_eq_getElem?_getD, List.getElem?_eq_getElem (size ▸ hi)]
    rfl
  · exact Mem.byte_putBytes_other cleared (size ▸ hb)
  · have read := exec_mw2_read (s := s.setPe n { s.pe n with dmem := (s.pe n).dmem.hostStored a bs }) quiet served place aligned q
      portQ target (by rw [State.pe_setPe_self]; exact hostStored_sound _ a bs)
    have bytes := bytes_putBytes cleared a bs
    rw [size] at bytes
    rw [State.pe_setPe_self, Mem.hostStored, bytes] at read
    exact read

end Sys2Proof.Machine
end

section
/-! The power-on reset (R19, R90). -/

namespace Sys2Proof.Machine

/-- `t` is `s` but for the registers at the offsets listed. -/
structure Rewrites (offs : List Nat) (s t : State) : Prop where
  only : RegsOnly s t
  wf : t.regsWf = true
  other : ∀ o, o ∉ offs → t.reg o = s.reg o

theorem Rewrites.rfl {offs : List Nat} {s : State} (wf : s.regsWf = true) : Rewrites offs s s :=
  ⟨RegsOnly.rfl, wf, fun _ _ => Eq.refl _⟩

theorem Rewrites.setReg {offs : List Nat} {s t : State} (h : Rewrites offs s t) {off : Nat} (listed : off ∈ offs) (v : Word) :
    Rewrites offs s (t.setReg off v) :=
  ⟨h.only.setReg off v, State.regsWf_setReg h.wf off v, fun o absent => by
    have different : o ≠ off := fun same => absent (same ▸ listed)
    rw [State.reg_setReg_other h.wf different, h.other o absent]⟩

theorem Rewrites.wr {offs : List Nat} {s t : State} (h : Rewrites offs s t) {off : Nat} (listed : off ∈ offs) (f : Fld) (v : Nat) :
    Rewrites offs s (t.wr off f v) := h.setReg listed _

theorem Rewrites.foldl {offs : List Nat} {s t : State} (h : Rewrites offs s t) (ws : List (Nat × Word))
    (listed : ∀ e ∈ ws, e.1 ∈ offs) : Rewrites offs s (ws.foldl (fun t e => t.setReg e.1 e.2) t) := by
  induction ws generalizing t with
  | nil => exact h
  | cons e ws ih =>
    exact ih (h.setReg (listed e List.mem_cons_self) _) fun x hx => listed x (List.mem_cons_of_mem _ hx)

/-- The registers that a power-on reset loads from NVM or that tell its cause. -/
def porstRegs : List Nat := [HLTH_AVAIL, HLTH_PARTIAL, HLTH_HOURS, PWR_CNT, GEN_BOOT_CFG, GEN_UPD_STAT, GEN_RST_CAUSE, PWR_STAT]

/-- Loading from NVM touches the registers listed alone; the AZ-9416-M10 loads two more. -/
theorem loadNvm_rewrites {s : State} (wf : s.regsWf = true) (m00 : s.m10 = false) : Rewrites porstRegs s s.loadNvm := by
  have worn : Rewrites porstRegs s ((wornRegs.zip s.nvm.savedCnt).foldl (fun t e => t.setReg e.1 e.2) s) := by
    refine (Rewrites.rfl wf).foldl _ fun e he => ?_
    have : e.1 ∈ wornRegs := (List.of_mem_zip he).1
    revert this
    generalize e.1 = o
    intro named
    simp only [wornRegs, porstRegs, List.mem_cons, List.not_mem_nil, or_false] at named ⊢
    tauto
  have mirror : ∀ t, Rewrites porstRegs s t → Rewrites porstRegs s t.updMirror := by
    intro t h
    rw [State.updMirror]
    split
    · exact h.setReg (by simp [porstRegs]) _
    · exact h.setReg (by simp [porstRegs]) _
  rw [State.loadNvm, m00]
  exact mirror _ (worn.setReg (by simp [porstRegs]) _)

/-- Driving FLT_N low is told outside. -/
theorem driveFlt_fields (s : State) : ∃ out faults, s.driveFlt = { s with out := out, faults := faults } := by
  rw [State.driveFlt]
  split
  · exact ⟨s.out, s.faults, rfl⟩
  · exact ⟨_, _, rfl⟩

/-- What a power-on reset of the AZ-9416-M00 leaves of a state, beside FLT_N. -/
theorem porst_fields {s : State} (m00 : s.m10 = false) (pin brownout : Bool) :
    ∃ u out faults, Rewrites porstRegs s.porstBase u ∧ s.porst pin brownout = { u with out := out, faults := faults } := by
  have load : Rewrites porstRegs s.porstBase s.porstBase.loadNvm := loadNvm_rewrites rfl m00
  obtain ⟨out, faults, drive⟩ := driveFlt_fields
    ((s.porstBase.loadNvm.wr GEN_RST_CAUSE GEN_RST_CAUSE_PIN (b2n pin)).wr GEN_RST_CAUSE GEN_RST_CAUSE_BROWNOUT (b2n brownout))
  exact ⟨_, out, faults, (load.wr (by simp [porstRegs]) _ _).wr (by simp [porstRegs]) _ _, drive⟩

/-- Settles O17: the reset is one state whose registers are the reset values and those loaded after. -/
theorem powerOnResetReturnsEveryField : Obligations.PowerOnResetReturnsEveryField := by
  intro s outside m00
  obtain ⟨u, out, faults, rewrites, porst⟩ := porst_fields (s := { s with pwr := { s.pwr with pin := true } }) m00 true false
  have asserts : exec .porstNAssert s = .next ({ u with out := out, faults := faults } : State).pwrShow := by
    have step : exec .porstNAssert s = .next (if s.boot.porst then ({ s with pwr := { s.pwr with pin := true } } : State)
        else ({ s with pwr := { s.pwr with pin := true } } : State).porst true false).pwrShow := rfl
    rw [step, outside, if_neg Bool.false_ne_true, porst]
  refine ⟨_, asserts, ?_⟩
  obtain ⟨⟨regs, rfl⟩, wf, other⟩ := rewrites
  refine ⟨rfl, rfl, rfl, rfl, rfl, rfl, rfl, rfl, rfl, fun n => ?_, fun off absent => ?_⟩
  · have engines : ∀ t : State, t.pes = s.resetPes → (t.pe n).state = if (s.pe n).state = .failed then .failed else .idle := by
      intro t pes
      simp [State.pe, pes, State.resetPes]
      rfl
    exact engines _ rfl
  · have power : off ≠ PWR_STAT := fun same => absent (by simp [same])
    exact (State.reg_setReg_other wf power _).trans (other off absent)

end Sys2Proof.Machine
end

section
/-! Reads and writes of registers by a host port (R14, R18, R67, R1034). -/

namespace Sys2Proof.Machine

/-- Whether a state is quiet depends on no register. -/
theorem setReg_quiet (s : State) (off : Nat) (v : Word) : (s.setReg off v).quiet = s.quiet := State.quiet_congr rfl rfl rfl rfl rfl

theorem clearRc_quiet (s : State) (b : BlkId) (off : Nat) : (s.clearRc b off).quiet = s.quiet := by
  unfold State.clearRc
  split
  · exact State.quiet_congr rfl rfl rfl rfl rfl
  · dsimp only
    split
    · rfl
    · exact setReg_quiet s off _

theorem setLatch_quiet (s : State) (p off : Nat) (w : Option Word) : (s.setLatch p off w).quiet = s.quiet := setPort_quiet s p _

theorem hold_quiet (s : State) (off : Nat) (v : Word) : (s.hold off v).quiet = s.quiet := by
  unfold State.hold
  split
  · rfl
  · exact State.quiet_congr rfl rfl rfl rfl rfl

/-- The answer of a read that raises nothing. -/
theorem readAns_quiet {w : Word} {t : State} (quiet : t.quiet = true) : readAns (w, t) = .next { t with rdata := w.toNat } :=
  done_rdata quiet _

section
variable {s : State} {p : Fin 2} {b : BlkId} {off : Nat} (hears : s.hears p b = true) (place : mw0Place p off = .reg b)
include hears place

theorem mw0Write_reg (v : Word) : mw0Write s p off v = s.writeReg p b off v := by
  have served := served_reg place (hears_parts hears).2
  simp only [mw0Write, served, place]
  rfl

/-- A read of a register whose reads have no other effect. -/
theorem mw0Read_reg (time : b ≠ .time) (psq : b ≠ .psq) (pe : ∀ n, b ≠ .pe n) : mw0Read s p off = readAns (s.readReg p b off) := by
  have served := served_reg place (hears_parts hears).2
  simp only [mw0Read, served, place]
  rfl

end

section
variable {s : State} {p : Fin 2} {word : BitVec 22} {b : BlkId} (hears : s.hears p b = true)
  (place : mw0Place p (mw0Off word) = .reg b)
include hears place

theorem exec_registerWrite (v : Word) : exec (.registerWrite p word v) s = s.writeReg p b (mw0Off word) v :=
  (if_neg (by simp [(hears_parts hears).1])).trans (mw0Write_reg hears place v)

theorem exec_reg64LowerWrite (wide : isWide (mw0Off word) = true) (v : Word) :
    exec (.reg64LowerWrite p word v) s = s.writeReg p b (mw0Off word) v :=
  (if_neg (by simp [(hears_parts hears).1, wide])).trans (mw0Write_reg hears place v)

variable (time : b ≠ .time) (psq : b ≠ .psq) (pe : ∀ n, b ≠ .pe n)
include time psq pe

theorem exec_rcRead : exec (.rcRead p word) s = readAns (s.readReg p b (mw0Off word)) :=
  (if_neg (by simp [(hears_parts hears).1])).trans (mw0Read_reg hears place time psq pe)

theorem exec_reg64LowerRead (wide : isWide (mw0Off word) = true) :
    exec (.reg64LowerRead p word) s = readAns (s.readReg p b (mw0Off word)) :=
  (if_neg (by simp [(hears_parts hears).1, wide])).trans (mw0Read_reg hears place time psq pe)

end

section
variable (s : State) (p : Nat) {b : BlkId} {off : Nat} (time : b ≠ .time)
include time

theorem readReg_plain (wide : isWide off = false) (upper : isUpper off = false) :
    s.readReg p b off = (s.view p b off, s.clearRc b off) := by
  simp [State.readReg, time, wide, upper]

theorem readReg_lower (wide : isWide off = true) (upper : isUpper off = false) :
    s.readReg p b off = (s.view p b off, s.setLatch p off (some (s.view p b (off + 4)))) := by
  simp [State.readReg, time, wide, upper]

theorem readReg_upper (upper : isUpper off = true) {w : Word} (latched : (s.port p).latched (off - 4) = some w) :
    s.readReg p b off = (w, s.setLatch p (off - 4) none) := by
  simp [State.readReg, time, upper, latched]

end

/-- A write of a 32-bit register of PWR, or of CLK or WADI where it has no effect of its own. -/
theorem writeReg_plain (s : State) (p : Fin 2) {b : BlkId} {off : Nat} (fault : isFaultReg off = false) (wide : isWide off = false)
    (upper : isUpper off = false) (v : Word)
    (plain : b = .pwr ∨ (b = .clk ∧ off ≠ CLK_REF_CFG ∧ off ≠ CLK_PLL_CTRL) ∨ (b = .wadi ∧ elemAt off (WADI_FUNC 0) 4 8 = none)) :
    s.writeReg p b off v = done (s.regWrite off v) := by
  unfold State.writeReg
  rw [fault, wide, upper]
  obtain rfl | ⟨rfl, ref, pll⟩ | ⟨rfl, func⟩ := plain
  · rfl
  · show s.clkWrite p off v = _
    rw [State.clkWrite, if_neg ref, if_neg pll]
  · show s.wadiWrite p off v = _
    rw [State.wadiWrite, func]

/-- Settles O12: a host access that is heard is the plain write or read of its register. -/
theorem plainRegisterReadAndWrite : Obligations.PlainRegisterReadAndWrite := by
  intro s p word v b quiet hears place fault wide upper
  constructor
  · intro plain
    rw [exec_registerWrite hears place, writeReg_plain s p fault wide upper v plain]
    exact done_quiet ((setReg_quiet s _ _).trans quiet)
  · intro time psq pe
    rw [exec_rcRead hears place time psq pe, readReg_plain s p time wide upper]
    exact readAns_quiet ((clearRc_quiet s _ _).trans quiet)

/-- A write of the upper word of a register of MAC, MDB, SWC or WAKE that is not discarded. -/
theorem writeReg_upper (s : State) (p : Fin 2) {b : BlkId} {off : Nat} (fault : isFaultReg off = false) (wide : isWide off = false)
    (upper : isUpper off = true) (kept : s.wideDrop p b off = none) (v : Word)
    (block : (∃ n, b = .mac n ∨ b = .mdb n) ∨ b = .swc ∨ b = .wake) : s.writeReg p b off v = done (s.pairWrite off v) := by
  have high : s.writeReg p b off v = s.highWrite p b off v := by
    unfold State.writeReg
    rw [fault, wide, upper]
    rfl
  rw [high]
  unfold State.highWrite
  rw [kept]
  obtain ⟨n, rfl | rfl⟩ | rfl | rfl := block <;> rfl

/-- Settles O13: the two halves of a 64-bit access have one rule for each of the four blocks. -/
theorem wideRegisterTakesTwoWrites : Obligations.WideRegisterTakesTwoWrites := by
  intro s p word up v b quiet hears place fault wide upper kept
  refine ⟨?_, fun time psq pe => ?_, fun next placeUp faultUp wideUp keptUp => ⟨fun block => ?_, fun time psq pe w latched => ?_⟩⟩
  · have low : s.writeReg p b (mw0Off word) v = done (s.hold (mw0Off word) v) := by
      unfold State.writeReg
      rw [fault, wide]
      show s.lowWrite p b (mw0Off word) v = _
      rw [State.lowWrite, kept]
    rw [exec_reg64LowerWrite hears place wide, low]
    exact done_quiet ((hold_quiet s _ _).trans quiet)
  · rw [exec_reg64LowerRead hears place time psq pe wide, readReg_lower s p time wide upper]
    exact readAns_quiet ((setLatch_quiet s _ _ _).trans quiet)
  · have upperUp : isUpper (mw0Off up) = true := by simp [isUpper, next, wide]
    rw [exec_registerWrite hears placeUp, writeReg_upper s p faultUp wideUp upperUp keptUp v block]
    exact done_quiet ((setReg_quiet _ _ _).trans ((setReg_quiet s _ _).trans quiet))
  · have upperUp : isUpper (mw0Off up) = true := by simp [isUpper, next, wide]
    have lower : mw0Off up - 4 = mw0Off word := by omega
    rw [exec_rcRead hears placeUp time psq pe, readReg_upper s p time upperUp (lower ▸ latched), lower]
    exact readAns_quiet ((setLatch_quiet s _ _ _).trans quiet)

end Sys2Proof.Machine
end

section
/-! References, PLLs and clock monitors (R39 to R48, R73 to R77). -/

namespace Sys2Proof.Machine

/-- Registers alone do not disturb a quiet state. -/
theorem RegsOnly.quiet {s t : State} (h : RegsOnly s t) : t.quiet = s.quiet := by
  obtain ⟨_, rfl⟩ := h
  exact State.quiet_congr (Eq.refl _) (Eq.refl _) (Eq.refl _) (Eq.refl _) (Eq.refl _)

theorem RegsOnly.done {s t : State} (h : RegsOnly s t) (quiet : s.quiet = true) : Machine.done t = .next t :=
  done_quiet (h.quiet.trans quiet)

theorem State.wr_only (s : State) (off : Nat) (f : Fld) (v : Nat) : RegsOnly s (s.wr off f v) := s.setReg_only off _

theorem RegsOnly.foldl {α : Type} {f : State → α → State} (each : ∀ t x, RegsOnly t (f t x)) (xs : List α) (s : State) :
    RegsOnly s (xs.foldl f s) := by
  induction xs generalizing s with
  | nil => exact RegsOnly.rfl
  | cons x xs ih => exact (each s x).trans (ih _)

section
variable {s : State} (clocked : s.clocked = true) (quiet : s.quiet = true)
include clocked

theorem exec_refclkLoss (active : s.rd CLK_STAT CLK_STAT_REF_ACTIVE = 1) : exec .refclkLoss s = .next (settle
    (((s.wr CLK_STAT CLK_STAT_REF_ACTIVE 0).bump CLK_SWITCH_CNT CLK_SWITCH_CNT_REF 1).raise .clk F_CLK_REF_LOSS [])) :=
  if_pos (by simp [clocked, active])

theorem exec_refRevert (revert : s.flag CLK_REF_CFG CLK_REF_CFG_REF_REVERT = true) (sel : s.rd CLK_REF_CFG CLK_REF_CFG_REF_SEL = 1) :
    exec .refRevert s = .next (s.wr CLK_STAT CLK_STAT_REF_ACTIVE 1) :=
  if_pos (by simp [clocked, revert, sel])

theorem exec_pllLockLoss {pll : Fin 6} (locked : s.locked pll = true) : exec (.pllLockLoss pll) s =
    done (if s.activePll (pll / 2) = pll then (s.wr CLK_STAT (pllBit pll) 0).activeFails (pll / 2)
      else s.wr CLK_STAT (pllBit pll) 0) :=
  if_neg (by simp [clocked, locked])

end

/-- A SWITCH bit of one domain alone asks that domain (R75). -/
theorem pllCtrl_asks (s : State) {v : Word} {d : Fin 3} (one : ∀ e, e < 3 → bitOf v.toNat (8 + e) = decide (e = d.val)) :
    s.pllCtrl v = (s.regWrite CLK_PLL_CTRL v).askSwitch d := by
  rw [State.pllCtrl]
  simp only [List.foldl_cons, List.foldl_nil, one 0 (by decide), one 1 (by decide), one 2 (by decide), decide_eq_true_eq]
  obtain ⟨d, hd⟩ := d
  have : d = 0 ∨ d = 1 ∨ d = 2 := by omega
  obtain rfl | rfl | rfl := this <;> rfl

/-- PLL_MDB or PLL_PSQ falls back once, where its AUTO bit asks for it (R47). -/
theorem clkFallback_falls {u : State} {psq : Bool} (auto : u.flag CLK_PLL_CTRL (if psq then CLK_PLL_CTRL_PSQ_FB_AUTO else
      CLK_PLL_CTRL_MDB_FB_AUTO) = true)
    (first : u.flag CLK_STAT (if psq then CLK_STAT_PSQ_FALLBACK else CLK_STAT_MDB_FALLBACK) = false) :
    u.clkFallback psq = (u.wr CLK_STAT (if psq then CLK_STAT_PSQ_FALLBACK else CLK_STAT_MDB_FALLBACK) 1).raise .clk F_CLK_FALLBACK
      [if psq then 7 else 6] :=
  if_pos (by rw [auto, first]; rfl)

/-- What a gained lock shows; a host port's clock counts as sound again (R45). -/
theorem exec_pllLockAcquired (s : State) (j : Fin 10) :
    let u := s.wr CLK_STAT (pllBit j) 1
    let w := if j.val < 8 then u else u.setPort (j.val - 8) { u.port (j.val - 8) with clockFailed := false }
    exec (.pllLockAcquired j) s = .next
      (if w.booting = true ∧ w.stage = 0 ∧ w.rd CLK_STAT lockBits = 1023 then w.setStage 1 else w) := by
  intro u w
  have shown : w = if j.val = 8 then { u with portA := { u.portA with clockFailed := false } }
      else if j.val = 9 then { u with portB := { u.portB with clockFailed := false } } else u := by
    have : j.val < 8 ∨ j.val = 8 ∨ j.val = 9 := by omega
    obtain main | portA | portB := this
    · rw [if_neg (by omega), if_neg (by omega)]
      exact if_pos main
    · simp [w, portA, State.setPort, State.port]
    · simp [w, portB, State.setPort, State.port]
  rw [shown]
  rfl

/-- A window in which every clock keeps within its limit (R50, R51). -/
theorem exec_freqMon_sound {s : State} (clocked : s.clocked = true) (quiet : s.quiet = true) (counts : List (BitVec 24))
    (within : ∀ k, k < 7 → s.monVerdict (monFreqs.getD k 0) (counts.getD k 0).toNat = none) :
    exec (.freqMonWindowEnd counts) s = .next
      (((List.range 7).foldl (fun t k => t.wr (CLK_MON_CNT k) CLK_MON_CNT_COUNT (counts.getD k 0).toNat) s).setReg CLK_MON_STAT 0) := by
  have verdicts : (List.range 7).map (fun k => s.monVerdict (monFreqs.getD k 0) (counts.getD k 0).toNat) =
      (List.range 7).map fun _ => none := List.map_congr_left fun k hk => within k (List.mem_range.mp hk)
  have effect : exec (.freqMonWindowEnd counts) s = done
      (((List.range 7).foldl (fun t k => t.wr (CLK_MON_CNT k) CLK_MON_CNT_COUNT (counts.getD k 0).toNat) s).setReg CLK_MON_STAT 0) := by
    refine (if_neg (by simp [clocked])).trans ?_
    dsimp only
    rw [verdicts]
    rfl
  rw [effect]
  exact ((RegsOnly.foldl (fun t _ => t.wr_only _ _ _) _ s).setReg _ _).done quiet

/-- Settles O16: each event of the clocks has its own rule. -/
theorem referenceAndPllEvents : Obligations.ReferenceAndPllEvents := by
  intro s p v d pll clocked quiet
  have onClk : ∀ off r, s.hears p .clk = true → onMw0 s p .clk off r = r := fun off r hears => onMw0_hears hears off r
  refine ⟨exec_refclkLoss clocked, exec_refRevert clocked, fun hears sel => ?_, fun locked standby => ?_,
    fun locked active ready auto => ?_, fun hears one => ⟨fun ready => ?_, fun unready => ?_⟩, fun auto first => ?_,
    fun auto first => ?_, fun unbonded => ?_, fun j => exec_pllLockAcquired s j, exec_freqMon_sound clocked quiet⟩
  · exact (onClk _ _ hears).trans (congrArg Host.Outcome.next (if_pos sel))
  · rw [exec_pllLockLoss clocked locked, if_neg standby]
    exact (s.wr_only _ _ _).done quiet
  · rw [exec_pllLockLoss clocked locked, if_pos active, State.activeFails, State.askSwitch, ready, auto]
    simp [ready]
    rfl
  · refine (onClk _ _ hears).trans ?_
    rw [pllCtrl_asks s one, State.askSwitch, if_pos ready]
    rfl
  · refine (onClk _ _ hears).trans ?_
    rw [pllCtrl_asks s one, State.askSwitch, if_neg (by simp [unready])]
    rfl
  · exact (if_pos clocked).trans (congrArg done (clkFallback_falls (psq := false) auto first))
  · exact (if_pos clocked).trans (congrArg done (clkFallback_falls (psq := true) auto first))
  · exact (if_pos clocked).trans (congrArg done (if_neg fun both => by simp [unbonded] at both))

end Sys2Proof.Machine
end

section
/-! Boot, march and image update (R101 to R114, R358, R495, R496). -/

namespace Sys2Proof.Machine

/-- A command that is taken ends as its body does. -/
theorem command_is {s : State} {ring code : Nat} {modes : Mode → Bool} (takes : s.takes ring modes = true) {body : State → State}
    {t : State} (effect : body (s.take ring) = t) : done (s.command ring code modes body) = .next (settle t) := by
  rw [command_done takes, effect]

/-! ## Image update -/

/-- A log entry of an update leaves the trial mark. -/
theorem updAppend_trial (s : State) (k : UpdKind) (b : Bool) (version progress : Nat) :
    (s.updAppend k b version progress).nvm.trial = s.nvm.trial := by
  obtain ⟨out, rings, pa, pb, due, told⟩ := State.event_told
    ({ s with nvm := { s.nvm with updLog := (UpdEntry.mk k b version progress s.now :: s.nvm.updLog).take 64 } } : State).updMirror
    .gen 0x0A 0 ((({ s with nvm := { s.nvm with updLog := (UpdEntry.mk k b version progress s.now :: s.nvm.updLog).take 64 } } :
      State).updMirror).reg GEN_UPD_STAT).toNat 0
  rw [State.updAppend, State.updTell, told]
  rfl

theorem setRejected_trial (s : State) (b v : Bool) : (s.setRejected b v).nvm.trial = s.nvm.trial := by
  cases b <;> rfl

theorem setFlash_nvm (s : State) (b : Bool) (x : FlashSlot) : (s.setFlash b x).nvm = s.nvm := by
  cases b <;> rfl

theorem cmdImgUpdStart_starts {t : State} (ring : Nat) {p0 p1 : BitVec 64} (idle : t.upd = none) (confirmed : t.isTrial = false)
    (least : 1 ≤ p0.toNat % 2 ^ 25) (most : p0.toNat % 2 ^ 25 ≤ 0x1000000) (other : t.nvm.trial ≠ some t.updTarget) :
    cmdImgUpdStart ring p0 p1 t =
      ({ (((t.updAppend .start t.updTarget (p1.toNat % 2 ^ 32) 0).setFlash t.updTarget
          ⟨p1.toNat % 2 ^ 32, [], false, none, (t.flash t.updTarget).erases + 1⟩).setRejected t.updTarget false) with
        upd := some ⟨t.updTarget, p0.toNat % 2 ^ 25, p1.toNat % 2 ^ 32, 0⟩ }.setReg (verReg t.updTarget) 0).finish ring 0x08 stOk 0 := by
  rw [cmdImgUpdStart, idle, confirmed]
  dsimp only
  rw [if_neg (by simp), if_neg (by simp), if_neg (by omega), if_neg]
  rwa [setRejected_trial, setFlash_nvm, updAppend_trial]

/-- Settles O20: each command is its body on the state after it was taken. -/
theorem imageUpdateCommands : Obligations.ImageUpdateCommands := by
  intro s ring p0 p1 p2 bs takes t
  refine ⟨fun idle confirmed least most other => ?_, fun u upd next least most room => ?_, fun u upd whole hash sig version => ?_,
    fun u upd => ?_, fun trial => ?_, fun confirmed running => ?_⟩
  · exact command_is takes (cmdImgUpdStart_starts ring (t := t) idle confirmed least most other)
  · refine command_is takes ?_
    rw [cmdImgUpdData, show (s.take ring).upd = some u from upd]
    exact if_neg (by omega)
  · refine command_is takes ?_
    rw [cmdImgUpdFinish, show (s.take ring).upd = some u from upd]
    refine (if_neg (not_not.mpr whole)).trans ((if_neg ?_).trans (if_neg ?_))
    · have kept : ¬ u.version < (s.take ring).nvm.minVersion := not_lt.mpr version
      have good : Config.imageHashOk ((s.take ring).flash u.slotB).data u.version = true := hash
      simp [good, kept]
    · have good : Config.imageSigOk ((s.take ring).flash u.slotB).data u.version = true := sig
      simp [good]
  · refine command_is takes ?_
    rw [cmdImgUpdCancel, show (s.take ring).upd = some u from upd]
  · refine command_is takes ?_
    rw [cmdImgConfirm, show (s.take ring).isTrial = true from trial]
    rfl
  · refine command_is takes ?_
    rw [cmdImgMinVersion, show (s.take ring).isTrial = false from confirmed]
    exact if_neg (not_lt.mpr running)

/-! ## March -/

/-- Settles O19: the end of the march is the sequence of named operations. -/
theorem marchEndsInStageThree : Obligations.MarchEndsInStageThree := by
  intro s fails ok0 ok1 booting stage bad units s1 s2 s3
  exact if_neg (by simp [booting, stage])

/-! ## Boot -/

/-- What the release of the power-on reset leaves (R1008). -/
theorem release_fields {s : State} (porst : s.boot.porst = true) (may : s.mayRelease = true) :
    s.release.boot = { s.boot with porst := false } ∧ s.release.bonded = s.bondPin ∧ s.release.mode = s.mode ∧
      s.release.pwr.pin = s.pwr.pin ∧ s.release.pwr.rails = s.pwr.rails := by
  unfold State.release
  rw [porst, may, if_neg (by decide)]
  dsimp only
  split <;> exact ⟨rfl, rfl, rfl, rfl, rfl⟩

/-- The self-tests change the health of the supervisors and no register. -/
theorem tested_regs (s : State) (k u : Nat) (bad : Bool) : (s.tested k u bad).regs = s.regs := rfl

theorem mode_of_booting {s : State} (booting : s.booting = true) : s.mode = .boot := by
  simp only [State.booting, Bool.and_eq_true, beq_iff_eq] at booting
  exact booting.1

/-- The supervisors after their self-tests (R102). -/
def State.scTested (s : State) (ok0 ok1 : Bool) : State :=
  (({ s with boot := { s.boot with scFail0 := !ok0, scFail1 := !ok1 } } : State).tested kSupervisor 0 (!ok0)).tested kSupervisor 1 (!ok1)

/-- Neither the self-tests nor the boot status change the mode. -/
theorem scTested_mode (s : State) (ok0 ok1 : Bool) :
    ((((s.scTested ok0 ok1).wr CLK_STAT lockBits 1023).setStage 1).bootErr 1).mode = s.mode := by
  simp [State.bootErr, State.setStage, State.scTested, State.tested, State.setWear, State.wr]

/-- FLT_N follows its causes: nothing but its level and the fault bookkeeping changes. -/
theorem fltSettle_fields (s : State) : s.fltSettle.regs = s.regs ∧ s.fltSettle.boot = s.boot ∧ s.fltSettle.mode = s.mode ∧
    s.fltSettle.faults.resetLow = s.faults.resetLow := by
  unfold State.fltSettle
  dsimp only
  split <;> exact ⟨rfl, rfl, rfl, rfl⟩

theorem selfTest_fails {s : State} (booting : s.booting = true) (stage : s.stage ≤ 1) :
    exec (.bootSelfTestDone false false) s = .next ((((s.scTested false false).wr CLK_STAT lockBits 1023).setStage 1).bootErr 1) :=
  (if_neg (by simp [booting, stage])).trans (if_pos rfl)

theorem selfTest_passes {s : State} (booting : s.booting = true) (stage : s.stage ≤ 1) {ok0 ok1 : Bool} (ok : ok0 = true ∨ ok1 = true) :
    ∃ t a, exec (.bootSelfTestDone ok0 ok1) s = .next t ∧ t.boot = { s.boot with scFail0 := !ok0, scFail1 := !ok1, scActive := a } ∧
      t.mode = s.mode ∧ t.faults.resetLow = false ∧ t.regs = (((s.scTested ok0 ok1).wr CLK_STAT lockBits 1023).setStage 2).regs := by
  have effect : exec (.bootSelfTestDone ok0 ok1) s = .next
      (({ ((s.scTested ok0 ok1).wr CLK_STAT lockBits 1023).setStage 2 with
        boot := { ((s.scTested ok0 ok1).wr CLK_STAT lockBits 1023).boot with
          scActive := ((s.scTested ok0 ok1).wr CLK_STAT lockBits 1023).chooseSc ok0 ok1 }
        faults := { ((s.scTested ok0 ok1).wr CLK_STAT lockBits 1023).faults with resetLow := false } } : State).fltSettle) :=
    (if_neg (by simp [booting, stage])).trans (if_neg (by obtain rfl | rfl := ok <;> simp))
  generalize ((s.scTested ok0 ok1).wr CLK_STAT lockBits 1023).chooseSc ok0 ok1 = a at effect
  refine ⟨_, a, effect, ?_⟩
  obtain ⟨regs, boot, mode, reset⟩ := fltSettle_fields { ((s.scTested ok0 ok1).wr CLK_STAT lockBits 1023).setStage 2 with
    boot := { ((s.scTested ok0 ok1).wr CLK_STAT lockBits 1023).boot with scActive := a }
    faults := { ((s.scTested ok0 ok1).wr CLK_STAT lockBits 1023).faults with resetLow := false } }
  exact ⟨boot, mode, reset, regs⟩

/-- Reading the headers with no trial and no update chooses among the slots as they are (R105). -/
theorem flashHeaders_choose {s : State} (booting : s.booting = true) (stage : s.stage = 3) (trial : s.nvm.trial = none)
    (log : s.nvm.updLog = []) : exec .flashHeadersRead s =
      (let u := ((s.showVersion false).showVersion true).setStage 4
       if u.rd GEN_BOOT_CFG GEN_BOOT_CFG_SRC = 3 then done u.waitHost
       else match u.slotChoice with
        | some b => done (if u.boot.trialLost = some (!b) then ({ u with boot := { u.boot with chosenB := b } }.setStage 5).fallback
            else { u with boot := { u.boot with chosenB := b } }.setStage 5)
        | none => done (if [false, true].any fun b => u.slotWhole b && !u.slotFits b then u.bootErr 4 else u).waitHost) := by
  have settled : s.settleTrial.settleUpdate = s := by
    rw [State.settleTrial, trial]
    dsimp only
    rw [State.settleUpdate, log]
  refine (if_neg (by simp [booting, stage])).trans ?_
  dsimp only
  rw [settled] <;> rfl

/-- The choice changes registers alone. -/
theorem showVersions_only (s : State) : RegsOnly s (((s.showVersion false).showVersion true).setStage 4) :=
  ((s.setReg_only _ _).setReg _ _).setReg _ _

/-- Settles O18: each stage of BOOT has its own rule. -/
theorem bootRunsStageByStage : Obligations.BootRunsStageByStage := by
  intro s p ok0 ok1 v bs quiet
  refine ⟨fun porst may => ?_, fun porst may => ?_, fun booting => ?_, fun booting stage h0 h1 => ?_, fun booting stage ok => ?_,
    fun booting stage trial log lost => ?_, fun booting stage => ?_, fun booting stage waits hash sig => ?_,
    fun hears go booting waits read => ?_, fun booting stage read len version hash sig => ?_⟩
  · obtain ⟨boot, bonded, mode, pin, _⟩ := release_fields (s := { s with pwr := { s.pwr with pin := false } }) porst may
    exact ⟨_, rfl, boot, bonded, mode, pin⟩
  · obtain ⟨boot, bonded, mode, _, rails⟩ := release_fields (s := { s with pwr := { s.pwr with rails := true } }) porst may
    refine ⟨_, congrArg (fun t : State => Host.Outcome.next t.release) (if_pos porst), boot, bonded, mode, rails⟩
  · refine if_pos ?_
    simp only [State.booting, Bool.and_eq_true, Bool.or_eq_true] at booting ⊢
    exact ⟨booting.2, .inl booting.1⟩
  · subst h0 h1
    refine ⟨_, selfTest_fails booting stage, rfl, (scTested_mode s false false).trans (mode_of_booting booting), fun wf => ?_⟩
    have wf1 : (((s.scTested false false).wr CLK_STAT lockBits 1023)).regsWf = true := wr_wf (s := s.scTested false false) wf _ _ _
    have wf2 := wr_wf wf1 GEN_BOOT_STAT GEN_BOOT_STAT_STAGE 1
    exact ⟨(rd_wr_other wf2 _ _ _ _ (by decide) (by decide) (by decide)).trans (rd_wr_self wf1 _ _ _ (by decide) (by decide)),
      rd_wr_self wf2 _ _ _ (by decide) (by decide)⟩
  · obtain ⟨t, a, effect, boot, mode, low, regs⟩ := selfTest_passes booting stage ok
    refine ⟨t, a, effect, boot, mode.trans (mode_of_booting booting), low, fun wf => ?_⟩
    have wf1 : (((s.scTested ok0 ok1).wr CLK_STAT lockBits 1023)).regsWf = true := wr_wf (s := s.scTested ok0 ok1) wf _ _ _
    have stage2 := rd_wr_self wf1 GEN_BOOT_STAT GEN_BOOT_STAT_STAGE 2 (by decide) (by decide)
    rw [State.stage, State.rd, State.reg, regs]
    exact stage2
  · rw [flashHeaders_choose booting stage trial log]
    have only := showVersions_only s
    refine ⟨fun src => ?_, fun b src choice => ?_⟩
    · refine (if_pos src).trans ?_
      exact (only.setReg _ _).done quiet
    · refine (if_neg src).trans ?_
      rw [choice]
      refine (congrArg done (if_neg ?_)).trans (done_quiet ?_)
      · show ¬ s.boot.trialLost = some (!b)
        simp [lost]
      · refine (setReg_quiet _ _ _).trans ?_
        exact (State.quiet_congr rfl rfl rfl rfl rfl).trans (only.quiet.trans quiet)
  · exact if_pos (by simp [booting, stage])
  · refine (if_neg (by simp [booting, stage, waits])).trans ?_
    exact if_pos (by rw [hash, sig]; rfl)
  · refine (onMw0_hears hears _ _).trans ?_
    exact if_pos (by simp [go, booting, waits, read])
  · show execHostimgCheckDone v (some bs) s = _
    rw [execHostimgCheckDone, read]
    refine (if_neg (by simp [booting, stage])).trans ((if_neg (not_lt.mpr len)).trans ?_)
    exact (if_neg (not_lt.mpr version)).trans (if_neg (by rw [hash, sig]; decide))

end Sys2Proof.Machine
end

section
/-! Supervisor failures, ejection and the steps of a quiesce (R95, R98 to R100, R117, R119, R823 to R826, R1009, R1010). -/

namespace Sys2Proof.Machine

section
variable {s : State} {q : Quiesce}

theorem scLost_takes (usable : (s.scFailed s.boot.scActive).scUsable (1 - s.boot.scActive) = true) :
    s.scLost = (s.scFailed s.boot.scActive).takeover := if_pos usable

theorem scLost_resets (unusable : (s.scFailed s.boot.scActive).scUsable (1 - s.boot.scActive) = false) :
    s.scLost = (s.scFailed s.boot.scActive).scDouble := if_neg (by simp [unusable])

theorem exec_quiesceDrainDone (quiesce : s.quiesce = some q) (waits : q.drained = false) : exec .quiesceDrainDone s =
    .next (settle { s.drainRings.quiesceTell q with quiesce := some { q with drained := true, told := true } }) := by
  show execQuiesceDrainDone s = _
  rw [execQuiesceDrainDone, quiesce]
  exact if_neg (by simp [waits])

theorem exec_nvmFlushDone (quiesce : s.quiesce = some q) (drained : q.drained = true) (waits : q.flushed = false)
    (late : q.early = false) : exec .nvmFlushDone s =
      .next (settle { s.flushFaultLog.flushWear with quiesce := some { q with flushed := true } }) := by
  show execNvmFlushDone s = _
  rw [execNvmFlushDone, quiesce]
  exact (if_neg (by simp [drained, waits])).trans (if_neg (by simp [late]))

/-- A finished quiesce other than to STANDBY shows QUIESCED, and resets or powers off where its cause asks for it. -/
theorem exec_quiesceComplete (quiesce : s.quiesce = some q) (flushed : q.flushed = true) (kind : q.kind ≠ .standby)
    (first : s.flag GEN_MODE_STAT GEN_MODE_STAT_QUIESCED = false) : exec .quiesceComplete s =
      if q.kind = .warm then done ((s.wr GEN_MODE_STAT GEN_MODE_STAT_QUIESCED 1).warmReset 0)
      else if !s.pwr.present then .next (s.wr GEN_MODE_STAT GEN_MODE_STAT_QUIESCED 1).powerOff
      else .next (s.wr GEN_MODE_STAT GEN_MODE_STAT_QUIESCED 1) := by
  show execQuiesceComplete s = _
  rw [execQuiesceComplete, quiesce]
  exact if_neg (by simp [flushed, kind, first])

theorem exec_standbyReached (quiesce : s.quiesce = some q) (kind : q.kind = .standby) (flushed : q.flushed = true) :
    exec .standbyReached s = .next (settle s.reachStandby) := by
  show execStandbyReached s = _
  rw [execStandbyReached, quiesce]
  exact if_pos ⟨kind, flushed⟩

end

/-- Settles O24: each event has its own rule. -/
theorem supervisorAndQuiesceEvents : Obligations.SupervisorAndQuiesceEvents := by
  intro s q blk bus ide id
  refine ⟨fun runs usable => ?_, fun runs unusable => ?_, fun runs => if_pos runs, fun on runs => if_pos ⟨on, runs⟩,
    fun present ejecting => if_pos ⟨present, ejecting⟩, fun present on => ⟨fun quiesced => ?_, fun quiesced runs => ?_⟩,
    fun ejecting low => if_pos ⟨ejecting, low⟩, exec_quiesceDrainDone, exec_nvmFlushDone,
    fun quiesce flushed kind first => ?_, exec_standbyReached, fun standby wakes => ?_, fun standby wakes => ?_, rfl⟩
  · have loses := congrArg done (scLost_takes usable)
    exact ⟨(if_pos runs).trans loses, (if_pos runs).trans loses⟩
  · have loses := congrArg done (scLost_resets unusable)
    exact ⟨(if_pos runs).trans loses, (if_pos runs).trans loses⟩
  · exact (if_neg (by simp [present, on])).trans (if_pos (.inl quiesced))
  · exact (if_neg (by simp [present, on])).trans (if_neg (by simp [quiesced, runs]))
  · rw [exec_quiesceComplete quiesce flushed kind first]
    exact ⟨fun warm => if_pos warm, fun other present => (if_neg other).trans (if_neg (by simp [present])),
      fun other absent => (if_neg other).trans (if_pos (by simp [absent]))⟩
  · exact (if_pos ⟨standby, wakes⟩).trans (congrArg done (if_pos (by decide)))
  · exact (if_pos ⟨standby, wakes⟩).trans (congrArg done (if_neg (by decide)))

end Sys2Proof.Machine
end

section
/-! Timers, snapshots, boundaries and the watchdog of an engine (R167 to R171, R173, R174, R176, R667). -/

namespace Sys2Proof.Machine

/-- A near write of an engine that can issue. -/
theorem engWrite_can {s : State} {n : Fin 18} (can : (s.pe n).canIssue = true) (r : Region) (v : Nat) :
    engWrite s n r v = done (s.nearWrite n r 0 (leBytes 4 v)) := if_pos can

theorem engRead_can {s : State} {n : Fin 18} (can : (s.pe n).canIssue = true) (r : Region) :
    engRead s n r = done { (s.nearRead n r).2 with rdata := (s.nearRead n r).1 } := if_pos can

/-! ## Near writes -/

theorem nearWrite_snapReq (s : State) (n : Fin 18) (bs : List Byte) : s.nearWrite n (.etm 8) 0 bs = s.snapReq n := rfl

theorem nearWrite_boundary (s : State) (n : Fin 18) (bs : List Byte) : s.nearWrite n (.ecs 0x10) 0 bs = s.boundary n := rfl

theorem nearWrite_wdogKick (s : State) (n : Fin 18) (bs : List Byte) :
    s.nearWrite n (.ecs 0x18) 0 bs = s.onPe n fun e => { e with wdog := 0 } := rfl

theorem timerAt_ctrl (t : Fin 4) : timerAt (0x40 + 0x20 * t.val) = some (t, 0) := by
  revert t
  decide

theorem nearWrite_timerCtrl (s : State) (n : Fin 18) (t : Fin 4) (bs : List Byte) :
    s.nearWrite n (.etm (0x40 + 0x20 * t.val)) 0 bs = s.timerCtrl n t (ofLe bs) := by
  simp only [State.nearWrite, timerAt_ctrl]
  rfl

/-- The control word of ETMn_CTRL (R168, R170). -/
theorem timer_bits (absolute periodic : Bool) :
    let v := ofLe (leBytes 4 (1 + b2n absolute * 2 + b2n periodic * 4))
    bitOf v 0 = true ∧ bitOf v 1 = absolute ∧ bitOf v 2 = periodic := by
  revert absolute periodic
  decide

section
variable {s : State} {n : Fin 18}

theorem exec_snapshotArrived (waits : (s.pe n).snapPend = true) (free : (s.pe n).stall = none) :
    exec (.snapshotArrived n) s = .next (s.onPe n fun e => { e with snapPend := false, snapReady := true }) := by
  show execSnapshotArrived n s = _
  rw [execSnapshotArrived, waits, free]
  rfl

variable (quiet : s.quiet = true)
include quiet

theorem exec_etmSnapReq (can : (s.pe n).canIssue = true) : exec (.etmSnapReq n) s = .next (s.onPe n fun e =>
    { e with snapCyc := e.cycles, snapNs := s.now, snapFrac := s.tb.frac, snapPend := true, snapReady := false }) := by
  refine (engWrite_can can _ _).trans ?_
  rw [nearWrite_snapReq]
  exact done_onPe quiet n _

theorem exec_etmTimerEnable (can : (s.pe n).canIssue = true) (t : Fin 4) (absolute periodic : Bool) :
    let x := (s.pe n).timers[t]
    let y := { x with en := true, absolute := absolute, periodic := periodic, spent := x.spent && x.en }
    exec (.etmTimerEnable n t absolute periodic) s = .next (s.onPe n fun e => { e with
      timers := e.timers.set t (if x.en = false ∧ absolute = true ∧ x.cmp < s.now then y.fire true else y) }) := by
  intro x y
  refine (engWrite_can can _ _).trans ?_
  obtain ⟨en, abs, per⟩ := timer_bits absolute periodic
  rw [nearWrite_timerCtrl, State.timerCtrl, en, abs, per]
  have fires : (true && !x.en && absolute && decide (x.cmp < s.now)) = true ↔ x.en = false ∧ absolute = true ∧ x.cmp < s.now := by
    simp [and_assoc]
  rw [done_onPe quiet, State.onPe, State.onPe, ← if_congr fires rfl rfl]

theorem exec_ecsWdogKick (can : (s.pe n).canIssue = true) :
    exec (.ecsWdogKick n) s = .next (s.onPe n fun e => { e with wdog := 0 }) := by
  refine (engWrite_can can _ _).trans ?_
  rw [nearWrite_wdogKick]
  exact done_onPe quiet n _

theorem exec_etmTxtsPop (can : (s.pe n).canIssue = true) {l : Fin 16} {h : TxTs} {rest : List TxTs} {lost : Nat}
    (slot : (s.pe n).slot = some l) (queue : SMap.get (fun _ => ([], 0)) s.swc.txts l.val = (h :: rest, lost)) :
    exec (.etmTxtsPop n) s = .next { s with
      swc := { s.swc with txts := SMap.set (fun _ => ([], 0)) s.swc.txts l.val (rest, 0) }
      rdata := 2 ^ 31 + b2n h.inserted * 2 ^ 30 + lost * 2 ^ 24 + h.quarter * 2 ^ 22 + h.port * 2 ^ 16 + h.seq } := by
  have pop : s.nearRead n (.etm 0x108) = s.txtsPop n := rfl
  refine (engRead_can can _).trans ?_
  rw [pop, State.txtsPop, slot]
  dsimp only
  rw [queue]
  exact done_rdata (s := { s with swc := { s.swc with txts := SMap.set (fun _ => ([], 0)) s.swc.txts l.val (rest, 0) } })
    (State.quiet_congr rfl rfl rfl rfl rfl |>.trans quiet) _

end

/-! ## Cycle boundaries -/

/-- Results that complete reach registers, accumulators and flags alone. -/
theorem foldl_apply_fields (ps : List Pend) (e : Engine) :
    ∃ w acc flags, ps.foldl Engine.apply e = { e with w := w, acc := acc, flags := flags } := by
  induction ps generalizing e with
  | nil => exact ⟨e.w, e.acc, e.flags, rfl⟩
  | cons p ps ih =>
    obtain ⟨w, acc, flags, rest⟩ := ih (e.apply p)
    rw [List.foldl_cons, rest]
    unfold Engine.apply
    cases p.dst <;> exact ⟨_, _, _, rfl⟩

theorem applyAll_fields (ps : List Pend) (e : Engine) :
    ∃ w acc flags, e.applyAll ps = { e with w := w, acc := acc, flags := flags } := by
  obtain ⟨w1, acc1, flags1, first⟩ := foldl_apply_fields (ps.filter (·.dst == .clearFlags)) e
  obtain ⟨w2, acc2, flags2, second⟩ := foldl_apply_fields (ps.filter (·.dst != .clearFlags)) { e with w := w1, acc := acc1, flags := flags1 }
  exact ⟨w2, acc2, flags2, by rw [Engine.applyAll, first, second]⟩

theorem completeAll_fields (e : Engine) :
    ∃ w acc flags, e.completeAll = { e with w := w, acc := acc, flags := flags, pend := [] } := by
  have folds : ∀ (ks : List Nat) (f : Nat → List Pend) (e : Engine),
      ∃ w acc flags, ks.foldl (fun t k => t.applyAll (f k)) e = { e with w := w, acc := acc, flags := flags } := by
    intro ks f
    induction ks with
    | nil => exact fun e => ⟨e.w, e.acc, e.flags, rfl⟩
    | cons k ks ih =>
      intro e
      obtain ⟨w1, acc1, flags1, first⟩ := applyAll_fields (f k) e
      rw [List.foldl_cons, first]
      obtain ⟨w, acc, flags, rest⟩ := ih { e with w := w1, acc := acc1, flags := flags1 }
      exact ⟨w, acc, flags, rest⟩
  obtain ⟨w, acc, flags, all⟩ := folds (List.range 4) (fun k => e.pend.filter (·.left == k)) e
  exact ⟨w, acc, flags, by rw [Engine.completeAll, all]⟩

/-- An engine after a boundary: the cycle is counted and a stop that waited is taken (R173, R174). -/
def Engine.bounded (e : Engine) : Engine :=
  let e1 := { e with lastBoundary := e.cycles, wdog := 0, longest := max e.longest (e.cycles - e.lastBoundary) }
  if !e.stopPend then e1
  else if e.fau.rx.isSome || e.fau.tx.isSome then { e1 with deferred := stopAt 255 (e.deferred + 1) }
  else { e1 with state := .stopped }

/-- A boundary counts the cycle in the registers, and changes its engine. -/
theorem boundary_eq {s : State} (wf : s.regsWf = true) (n : Fin 18) :
    ∃ t, RegsOnly s t ∧ t.reg (PE_CYC_CNT n) = s.reg (PE_CYC_CNT n) + 1 ∧ s.boundary n = t.setPe n (s.pe n).bounded := by
  have counted := State.reg_setReg_self wf (PE_CYC_CNT n) (s.reg (PE_CYC_CNT n) + 1)
  have wf1 := State.regsWf_setReg wf (PE_CYC_CNT n) (s.reg (PE_CYC_CNT n) + 1)
  have other : PE_CYC_CNT n ≠ PE_MAXCYC n := by simp [PE_CYC_CNT, PE_MAXCYC]
  unfold State.boundary
  dsimp only
  split
  · exact ⟨_, (s.setReg_only _ _).setReg _ _, (State.reg_setReg_other wf1 other _).trans counted, rfl⟩
  · exact ⟨_, s.setReg_only _ _, counted, rfl⟩

/-- The engine that ECS_BOUNDARY leaves. -/
def Engine.crossed (e : Engine) : Engine := if e.bounded.state == .stopped then e.bounded.stopNow else e.bounded

theorem exec_ecsBoundary {s : State} {n : Fin 18} (quiet : s.quiet = true) (wf : s.regsWf = true)
    (can : (s.pe n).canIssue = true) : ∃ u, exec (.ecsBoundary n) s = .next u ∧
      u.reg (PE_CYC_CNT n) = s.reg (PE_CYC_CNT n) + 1 ∧ u.pe n = (s.pe n).crossed := by
  obtain ⟨t, only, counted, boundary⟩ := boundary_eq wf n
  have effect : exec (.ecsBoundary n) s = done (t.setPe n (s.pe n).crossed) := by
    refine (if_pos can).trans ?_
    show done ((s.boundary n).onPe n fun e => if e.state == .stopped then e.stopNow else e) = _
    rw [boundary, setPe_onPe]
    rfl
  have after : (t.setPe n (s.pe n).crossed).quiet = true :=
    (State.quiet_congr (s := t) rfl rfl rfl rfl rfl).trans (only.quiet.trans quiet)
  exact ⟨_, effect.trans (done_quiet after), counted, State.pe_setPe_self _ _ _⟩

/-- Every crossing restarts the watchdog and records the cycle. -/
theorem crossed_counts (e : Engine) : e.crossed.lastBoundary = e.cycles ∧ e.crossed.wdog = 0 ∧
    e.crossed.longest = max e.longest (e.cycles - e.lastBoundary) := by
  have bounded : e.bounded.lastBoundary = e.cycles ∧ e.bounded.wdog = 0 ∧
      e.bounded.longest = max e.longest (e.cycles - e.lastBoundary) := by
    unfold Engine.bounded
    dsimp only
    split
    · exact ⟨rfl, rfl, rfl⟩
    · split <;> exact ⟨rfl, rfl, rfl⟩
  unfold Engine.crossed
  split
  · obtain ⟨w, acc, flags, completes⟩ := completeAll_fields e.bounded
    rw [Engine.stopNow, completes]
    exact bounded
  · exact bounded

theorem crossed_goes {e : Engine} (run : e.state = .run) (free : e.stopPend = false) : e.crossed.state = .run := by
  have bounded : e.bounded.state = .run := by simp [Engine.bounded, free, run]
  unfold Engine.crossed
  rw [bounded]
  exact bounded

theorem crossed_stops {e : Engine} (stop : e.stopPend = true) (rx : e.fau.rx = none) (tx : e.fau.tx = none) :
    e.crossed.state = .stopped ∧ e.crossed.stopPend = false := by
  have bounded : e.bounded.state = .stopped := by simp [Engine.bounded, stop, rx, tx]
  unfold Engine.crossed
  rw [bounded]
  exact ⟨rfl, rfl⟩

/-- With a frame open the stop is deferred (R174). -/
theorem crossed_defers {e : Engine} (run : e.state = .run) (stop : e.stopPend = true)
    (open_ : e.fau.rx.isSome = true ∨ e.fau.tx.isSome = true) :
    e.crossed.state = .run ∧ e.crossed.deferred = min 255 (e.deferred + 1) := by
  have bounded : e.bounded.state = .run ∧ e.bounded.deferred = min 255 (e.deferred + 1) := by
    have waits : (e.fau.rx.isSome || e.fau.tx.isSome) = true := by simpa using open_
    simp only [Engine.bounded, stop, waits]
    refine ⟨run, ?_⟩
    show stopAt 255 (e.deferred + 1) = _
    rw [stopAt]
    split <;> omega
  unfold Engine.crossed
  rw [bounded.1]
  exact bounded

/-- Settles O37: each register of the timers and each boundary has its own rule. -/
theorem engineTimersEventsAndBoundaries : Obligations.EngineTimersEventsAndBoundaries := by
  intro s n t absolute periodic quiet e put set x
  refine ⟨exec_etmSnapReq quiet, exec_snapshotArrived, fun can => exec_etmTimerEnable quiet can t absolute periodic,
    fun en spent => if_pos (show (x.en && !x.spent) = true by rw [en, spent]; rfl), fun wait live event => if_pos ?_, exec_ecsWdogKick quiet,
    fun can wf => ?_, fun limit state live due => if_pos ?_, fun l h rest lost can slot queue => exec_etmTxtsPop quiet can slot queue⟩
  · have pending : s.eventPending n = true := bne_iff_ne.mpr event
    rw [wait, live, pending]
    rfl
  · obtain ⟨u, effect, counted, engine⟩ := exec_ecsBoundary quiet wf can
    have run : e.state = .run := by
      simp only [Engine.canIssue, Bool.and_eq_true, beq_iff_eq] at can
      exact can.1.1
    obtain ⟨boundary, wdog, longest⟩ := crossed_counts e
    rw [← engine] at boundary wdog longest
    refine ⟨u, effect, counted, boundary, wdog, longest, fun free => ?_, fun stop rx tx => ?_, fun stop open_ => ?_⟩
    · rw [engine]
      exact crossed_goes run free
    · rw [engine]
      exact crossed_stops stop rx tx
    · rw [engine]
      exact crossed_defers run stop open_
  · refine ⟨limit, ?_, by rw [show (s.pe n).inReset = false from live]; rfl, due⟩
    simpa using state

end Sys2Proof.Machine
end

section
/-! The frame access unit of an engine (R154 to R164). -/

namespace Sys2Proof.Machine

/-! ## The words that engine writes carry -/

theorem ofLe_leBytes (n v : Nat) : ofLe (leBytes n v) = v % 256 ^ n := by
  induction n generalizing v with
  | zero => simp [leBytes, ofLe, Nat.mod_one]
  | succ n ih =>
    have split : v % (256 * 256 ^ n) = v % 256 + 256 * (v / 256 % 256 ^ n) := Nat.mod_mul
    rw [leBytes, ofLe, ih, BitVec.toNat_ofNat, pow_succ' 256 n, split]

theorem ofLe_leBytes_word {v : Nat} (h : v < 2 ^ 32) : ofLe (leBytes 4 v) = v := by
  rw [ofLe_leBytes]
  exact Nat.mod_eq_of_lt h

section
variable (ports : BitVec 16) (queue : Fin 8) (oneStep : Bool) (action : Nat)

theorem fauWord_lt (h : action < 4) : fauWord ports.toNat queue action oneStep < 2 ^ 32 := by
  have := ports.isLt
  cases oneStep <;> simp [fauWord, b2n] <;> omega

/-- The fields of FAU_RX_DONE and FAU_TX_SEND (R160, R164). -/
theorem fauWord_fields (h : action < 4) :
    let v := fauWord ports.toNat queue action oneStep
    v % 4 = action ∧ bitOf v 4 = oneStep ∧ bitsOf v 31 16 = ports.toNat ∧ bitsOf v 10 8 = queue.val := by
  have := ports.isLt
  cases oneStep <;> simp [fauWord, b2n, bitOf, bitsOf] <;> omega

end

/-! ## Reads and writes of its registers -/

section
variable (s : State) (n : Fin 18) (bs : List Byte)

theorem nearRead_rxPop : s.nearRead n (.fau 0x800) = s.fauPop n := rfl

theorem nearWrite_rxDone : s.nearWrite n (.fau 0x828) 0 bs = s.fauRxDone n (ofLe bs) := rfl

theorem nearWrite_txAlloc : s.nearWrite n (.fau 0x830) 0 bs = s.fauAlloc n (ofLe bs % 2 ^ 32) := rfl

theorem nearWrite_txBase : s.nearWrite n (.fau 0x838) 0 bs = s.fauTxBase n (merge64 (s.pe n).fau.txBase 0 bs) := rfl

theorem nearWrite_txSend : s.nearWrite n (.fau 0x840) 0 bs = s.fauSend n (ofLe bs) := rfl

end

section
variable {s : State} {n : Fin 18}

/-! ## The receive side -/

theorem exec_fauFetchAheadDone (closed : (s.pe n).fau.rx = none) (q : Fin 8) : exec (.fauFetchAheadDone n q) s =
    .next (s.onFau n fun f => { f with ahead := setBit f.ahead q true }) := by
  show execFauFetchAheadDone n q s = _
  rw [execFauFetchAheadDone, closed]

theorem fauPop_open (open_ : (s.pe n).fau.rx.isSome = true) : s.fauPop n = (0, s.raisePe n F_PE_FAU_ERR) := by
  obtain ⟨x, hx⟩ := Option.isSome_iff_exists.mp open_
  unfold State.fauPop
  dsimp only
  rw [hx]

theorem fauPop_takes {l : Fin 16} {q fid : Nat} {rest : List Nat} {f : Frame} (slot : (s.pe n).slot = some l)
    (closed : (s.pe n).fau.rx = none)
    (highest : [7, 6, 5, 4, 3, 2, 1, 0].find? (fun q => bitOf (s.pe n).fau.qen q && !(s.eq l q).isEmpty) = some q)
    (head : s.eq l q = fid :: rest) (frame : s.frame fid = some f) : s.fauPop n =
      (2 ^ 31 + q * 2 ^ 28 + b2n f.err * 2 ^ 27 + b2n f.redelivered * 2 ^ 26 + f.src * 2 ^ 24 +
        (if f.src = 0 then f.port * 2 ^ 20 else 0) + f.bytes.length,
      (s.setEq l q rest).onFau n fun x => { x with rx := some (q, fid), rxAhead := bitOf x.ahead q, ahead := setBit x.ahead q false }) := by
  unfold State.fauPop
  dsimp only
  rw [slot, closed]
  dsimp only
  rw [highest]
  dsimp only
  rw [head]
  dsimp only
  rw [show ((s.setEq l q rest).onFau n fun x =>
    { x with rx := some (q, fid), rxAhead := bitOf x.ahead q, ahead := setBit x.ahead q false }).frame fid = some f from frame]

/-- A state whose open receive frame was closed, after its window stores. -/
def State.rxClosed (s : State) (n : Fin 18) : State := (s.flushWindow n true).onFau n fun f => { f with rx := none, rxAhead := false }

theorem fauRxDone_none (closed : (s.pe n).fau.rx = none) (v : Nat) : s.fauRxDone n v = s.raisePe n F_PE_FAU_ERR := by
  rw [State.fauRxDone, closed]

theorem fauRxDone_closes {q fid : Nat} {f : Frame} (open_ : (s.pe n).fau.rx = some (q, fid))
    (frame : (s.rxClosed n).frame fid = some f) {v : Nat} (action : v % 4 < 2) : s.fauRxDone n v =
      if (decide (v % 4 = 1) && !f.err && !f.bad) = true then
        ((s.rxClosed n).setFrame fid (some { f with
          oneStep := bitOf v 4, txSlot := if bitOf v 4 then (s.pe n).slot.map Fin.val else none })).deliver fid
          { Dest.nowhere with ports := portsOf (bitsOf v 31 16) 16 (bitsOf v 10 8) }
      else (s.rxClosed n).collect fid := by
  unfold State.fauRxDone
  rw [open_]
  dsimp only
  rw [if_neg (by omega)]
  show (match (s.rxClosed n).frame fid with | none => _ | some f => _) = _
  rw [frame]
  rfl

/-! ## The transmit side -/

theorem fauAlloc_asks {l : Fin 16} {len : Nat} (closed : (s.pe n).fau.tx = none) (least : 60 ≤ len) (most : len ≤ 9216)
    (slot : (s.pe n).slot = some l) : s.fauAlloc n len = (s.onFau n fun f =>
      if s.admitSlot l (cellsOf len) then { f with tx := some ⟨len, [], [], cellsOf len⟩, allocStat := 2 ^ 31 }
      else { f with allocStat := 2 ^ 30 }).noteSlot l false := by
  unfold State.fauAlloc
  dsimp only
  rw [closed, slot]
  exact (if_neg (by simp)).trans (if_neg (by omega))

/-- A state whose transmit data have all reached the frame. -/
def State.txFlushed (s : State) (n : Fin 18) : State := (s.flushWindow n false).onFau n Fau.flush

theorem fauSend_none (closed : ((s.txFlushed n).pe n).fau.tx = none) (v : Nat) : s.fauSend n v = s.raisePe n F_PE_FAU_ERR := by
  show (match ((s.txFlushed n).pe n).fau.tx with | none => _ | some t => _) = _
  rw [closed]

theorem fauSend_abandons {t : TxOpen} (open_ : ((s.txFlushed n).pe n).fau.tx = some t) {v : Nat} (action : v % 4 = 0) :
    s.fauSend n v = (s.txFlushed n).onFau n fun f => { f with tx := none } := by
  show (match ((s.txFlushed n).pe n).fau.tx with | none => _ | some t => _) = _
  rw [open_]
  exact if_pos action

/-- The frame that a slot's transmit data become (R164). -/
def State.sentFrame (s : State) (n : Fin 18) (t : TxOpen) (one : Bool) : Frame :=
  let bytes := (List.range t.len).map fun k => SMap.get (fun _ => 0) t.bytes k
  let tci := be bytes 14 2
  { bytes := bytes, src := 2, port := 0, ring := none, slot := (s.pe n).slot.map Fin.val, tsNs := 0, tsFrac := 0,
    err := false, bad := false, redelivered := false, entry := 0xFFFF, tagged := isTagged 0x8100 bytes, tci := tci,
    vid := tci % 4096, pcp := tci / 8192, dei := bitOf tci 12, gen := s.rd SWC_FCT_FENCE SWC_FCT_FENCE_GEN, op := 0, opVid := 0,
    oneStep := one, report := none, txSlot := if one then (s.pe n).slot.map Fin.val else none, redSeq := none }

theorem fauSend_sends {t : TxOpen} (open_ : ((s.txFlushed n).pe n).fau.tx = some t) {v : Nat} (action : v % 4 = 1 ∨ v % 4 = 2) :
    let stored := ((s.txFlushed n).onFau n fun f => { f with tx := none }).store (s.sentFrame n t (bitOf v 4 && v % 4 == 1))
    s.fauSend n v = stored.2.deliver stored.1 (if v % 4 = 1 then
        { Dest.nowhere with ports := portsOf (bitsOf v 31 16) 16 (bitsOf v 10 8) }
      else { Dest.nowhere with ring := some (bitsOf v 24 16) }) := by
  show (match ((s.txFlushed n).pe n).fau.tx with | none => _ | some t => _) = _
  rw [open_]
  exact (if_neg (by omega)).trans (if_neg (by omega))

/-- A write of the low half of a 64-bit register brings the value's low bits. -/
theorem merge64_low (old v : Nat) : merge64 old 0 (leBytes 4 v) % 2 ^ 14 = v % 2 ^ 14 := by
  simp [merge64, overlay, leBytes, ofLe]
  omega

end

/-! ## The commands -/

section
variable {s : State} {n : Fin 18} (can : (s.pe n).canIssue = true)
include can

theorem exec_fauRxPop : exec (.fauRxPop n) s = .next (settle { (s.fauPop n).2 with rdata := (s.fauPop n).1 }) :=
  engRead_can can _

theorem exec_fauRxDoneFree : exec (.fauRxDoneFree n) s = .next (settle (s.fauRxDone n 0)) := engWrite_can can _ _

theorem exec_fauRxDoneForward (ports : BitVec 16) (queue : Fin 8) (oneStep : Bool) :
    exec (.fauRxDoneForward n ports queue oneStep) s =
      .next (settle (s.fauRxDone n (fauWord ports.toNat queue 1 oneStep))) := by
  refine (engWrite_can can _ _).trans ?_
  rw [nearWrite_rxDone, ofLe_leBytes_word (fauWord_lt ports queue oneStep 1 (by decide))]
  rfl

theorem exec_fauTxAlloc (v : Word) : exec (.fauTxAlloc n v) s = .next (settle (s.fauAlloc n v.toNat)) := by
  refine (engWrite_can can _ _).trans ?_
  rw [nearWrite_txAlloc, ofLe_leBytes_word v.isLt, Nat.mod_eq_of_lt v.isLt]
  rfl

theorem exec_fauTxBaseWrite {v : Word} (moves : v.toNat % 2 ^ 14 / 64 * 64 ≠ (s.pe n).fau.txBase) : exec (.fauTxBaseWrite n v) s =
    .next (settle (s.onFau n fun f => { f.flush with txBase := v.toNat % 2 ^ 14 / 64 * 64 })) := by
  refine (engWrite_can can _ _).trans ?_
  rw [nearWrite_txBase, State.fauTxBase]
  dsimp only
  rw [merge64_low]
  have moved : ∀ e : Engine, e = s.pe n → ({ e with fau :=
      if v.toNat % 2 ^ 14 / 64 * 64 = e.fau.txBase then e.fau else { e.fau.flush with txBase := v.toNat % 2 ^ 14 / 64 * 64 } } : Engine) =
      { e with fau := { e.fau.flush with txBase := v.toNat % 2 ^ 14 / 64 * 64 } } := by
    rintro e rfl
    rw [if_neg moves]
  exact congrArg (fun e => done (s.setPe n e)) (moved _ (Eq.refl _))

theorem exec_fauTxAbandon : exec (.fauTxAbandon n) s = .next (settle (s.fauSend n 0)) := engWrite_can can _ _

theorem exec_fauTxSendPorts (ports : BitVec 16) (queue : Fin 8) (oneStep : Bool) :
    exec (.fauTxSendPorts n ports queue oneStep) s = .next (settle (s.fauSend n (fauWord ports.toNat queue 1 oneStep))) := by
  refine (engWrite_can can _ _).trans ?_
  rw [nearWrite_txSend, ofLe_leBytes_word (fauWord_lt ports queue oneStep 1 (by decide))]
  rfl

theorem exec_fauTxSendHost (ring : Fin 512) :
    exec (.fauTxSendHost n ring) s = .next (settle (s.fauSend n (ring.val * 2 ^ 16 + 2))) := by
  refine (engWrite_can can _ _).trans ?_
  rw [nearWrite_txSend, ofLe_leBytes_word (by omega)]
  rfl

end

/-- Settles O36: each register of the frame access unit has its own rule by what is open. -/
theorem frameAccessUnitCommands : Obligations.FrameAccessUnitCommands := by
  intro s n ports queue oneStep v ring e closed err dests txDone
  obtain ⟨act, one, pts, que⟩ := fauWord_fields ports queue oneStep 1 (by decide)
  refine ⟨fun quiet none => ?_, fun can => ⟨fun l q fid rest f slot none highest head frame => ?_, fun open_ => ?_,
    fun q fid f open_ frame => ⟨?_, fun good whole => ?_⟩, fun none => ⟨?_, ?_⟩,
    fun l none least most slot => ⟨fun admits => ?_, fun refuses => ?_⟩, exec_fauTxBaseWrite can,
    fun t open_ => ⟨?_, ?_, ?_⟩, fun none => ⟨?_, ?_, ?_⟩⟩⟩
  · exact exec_fauFetchAheadDone none queue
  · rw [exec_fauRxPop can, fauPop_takes slot none highest head frame]
  · rw [exec_fauRxPop can, fauPop_open open_]
  · rw [exec_fauRxDoneFree can, fauRxDone_closes open_ frame (by decide)]
    rfl
  · rw [exec_fauRxDoneForward can, fauRxDone_closes open_ frame (by omega), act, one, pts, que, good, whole]
    rfl
  · rw [exec_fauRxDoneFree can, fauRxDone_none none]
  · rw [exec_fauRxDoneForward can, fauRxDone_none none]
  · rw [exec_fauTxAlloc can, fauAlloc_asks none least most slot]
    simp only [admits, if_true]
  · rw [exec_fauTxAlloc can, fauAlloc_asks none least most slot]
    simp only [refuses, Bool.false_eq_true, if_false]
  · rw [exec_fauTxAbandon can, fauSend_abandons open_ (by decide)]
    rfl
  · refine ⟨_, s.sentFrame n t oneStep, Eq.refl _, Eq.refl _, Eq.refl _, Eq.refl _, ?_⟩
    rw [exec_fauTxSendPorts can, fauSend_sends open_ (.inl act), act, one, pts, que]
    simp
    rfl
  · refine ⟨_, s.sentFrame n t false, Eq.refl _, Eq.refl _, Eq.refl _, Eq.refl _, ?_⟩
    have word : (ring.val * 2 ^ 16 + 2) % 4 = 2 ∧ bitsOf (ring.val * 2 ^ 16 + 2) 24 16 = ring.val := by
      simp only [bitsOf]; omega
    rw [exec_fauTxSendHost can, fauSend_sends open_ (.inr word.1), word.1, word.2]
    simp
    rfl
  · rw [exec_fauTxAbandon can, fauSend_none none]
  · rw [exec_fauTxSendPorts can, fauSend_none none]
  · rw [exec_fauTxSendHost can, fauSend_none none]

end Sys2Proof.Machine
end

section
/-! Accesses beyond an engine's own memories (R142 to R145, R177). -/

namespace Sys2Proof.Machine

section
variable {s : State} {n : Fin 18} {ecc : Ecc}

/-! ## Loads -/

section
variable {addr : Nat} {kind : LoadKind} {rd : Fin 32}
  (stalled : (s.pe n).stall = some (.load addr kind rd)) (first : (s.pe n).wbuf = [])
include stalled first

theorem exec_farLoadReturn (runs : (s.pe n).inReset = false) : exec (.farLoadReturn n ecc) s =
    match s.farLoad n addr kind.size ecc with
    | (some v, t) => .next (settle ((t.putLoad n kind rd v).endStall n))
    | (none, t) => .next t := by
  show execFarLoadReturn n ecc s = _
  rw [execFarLoadReturn, stalled]
  exact if_neg (by simp [first, runs])

theorem exec_farTimeout_load : exec (.farTimeout n) s =
    .next (settle (((s.raiseAcc n F_PE_FAR_TIMEOUT addr kind.size false).putLoad n kind rd 0).endStall n)) := by
  show execFarTimeout n s = _
  rw [execFarTimeout, first, stalled]
  rfl

end

/-! ## Stores -/

section
variable {st : FarStore} {rest : List FarStore} (head : (s.pe n).wbuf = st :: rest)
include head

theorem exec_farStoreAccepted : exec (.farStoreAccepted n ecc) s =
    match s.farStore n st ecc with
    | (true, t) => .next (settle (t.wbufPop n))
    | (false, t) => .next t := by
  show execFarStoreAccepted n ecc s = _
  rw [execFarStoreAccepted, head]
  rfl

theorem exec_farTimeout_store : exec (.farTimeout n) s =
    .next (settle ((s.raiseAcc n F_PE_FAR_TIMEOUT st.addr st.data.length true).wbufPop n)) := by
  show execFarTimeout n s = _
  rw [execFarTimeout, head]
  rfl

end

end

/-- Settles O60: a far access is answered by its target, with one rule for the engine and one for a bank. -/
theorem farAccessesAreAnsweredOrEnd : Obligations.FarAccessesAreAnsweredOrEnd := by
  intro s n ecc to_ e
  refine ⟨fun addr kind rd stalled first => ⟨fun runs => ?_, exec_farTimeout_load stalled first⟩,
    fun st rest head => ?_⟩
  · have load := exec_farLoadReturn (ecc := ecc) stalled first runs
    refine ⟨fun v t answer => ?_, fun t waits => ?_, fun off t bank => ⟨fun bs answer => ?_, fun answer => ?_, fun answer => ?_⟩⟩
    · rw [load, answer]
    · rw [load, waits]
    · rw [load, farLoad_bank bank answer]
    · rw [load, farLoad_bank bank answer]
      rfl
    · rw [load, farLoad_bank bank answer]
  · have store := exec_farStoreAccepted (ecc := ecc) head
    refine ⟨fun t accepted => ?_, fun t waits => ?_, fun off t bus bank => ⟨fun bs answer => ?_, fun answer => ?_⟩,
      exec_farTimeout_store head⟩
    · rw [store, accepted]
    · rw [store, waits]
    · rw [store, farStore_bank bus bank answer]
    · rw [store, farStore_bank bus bank answer]
      rfl

end Sys2Proof.Machine
end

section
/-! Personalities: the key table, the store and the slots (R254 to R275). -/

namespace Sys2Proof.Machine

/-- A command whose DMA read brings its bytes goes on with them. -/
theorem withDma_some (s : State) (ring code addr : Nat) (bs : List Byte) (k : State → List Byte → State) :
    s.withDma ring code addr (some bs) k = k s bs := rfl

section
variable {t : State} {ring : Nat} {p0 p1 p2 : BitVec 64} {bs : List Byte}

/-! ## Keys -/

theorem cmdPersKeyAdd_adds (room : t.nvm.keys.length < 8) : cmdPersKeyAdd ring p0 (some bs) t =
    { t with nvm := { t.nvm with keys := t.nvm.keys ++ [(Config.sha384 (bs.take 97), false)] } }.finish ring 0x40 stOk 0 :=
  if_neg (not_le.mpr room)

theorem cmdPersKeyAdd_full (full : 8 ≤ t.nvm.keys.length) : cmdPersKeyAdd ring p0 (some bs) t = t.finish ring 0x40 stTableFull 0 :=
  if_pos full

theorem cmdPersKeyRevoke_unrevoked {k : List Byte} (entry : t.nvm.keys[p0.toNat]? = some (k, false)) :
    cmdPersKeyRevoke ring p0 t =
      { t with nvm := { t.nvm with keys := mapAt t.nvm.keys p0.toNat fun k => (k.1, true) } }.finish ring 0x41 stOk 0 := by
  rw [cmdPersKeyRevoke, entry]

theorem cmdPersKeyRevoke_none (entry : t.nvm.keys[p0.toNat]? = none) :
    cmdPersKeyRevoke ring p0 t = t.finish ring 0x41 stNoEntry 0 := by
  rw [cmdPersKeyRevoke, entry]

/-! ## The store -/

theorem cmdPersLoad_fails {st : Status} {i : Image} (checked : t.checkImage (bs.take p1.toNat) = (st, i)) (fails : st ≠ stOk) :
    cmdPersLoad ring p0 p1 (some bs) t = t.finish ring 0x42 st 0 := by
  rw [cmdPersLoad, withDma_some]
  dsimp only
  rw [checked]
  exact if_pos fails

theorem cmdPersLoad_stores {i : Image} (checked : t.checkImage (bs.take p1.toNat) = (stOk, i)) (new : t.image i.id = none)
    (few : t.pers.images.length < 16) (fits : i.banksNeeded ≤ t.unowned.length) :
    let banks := t.unowned.take i.banksNeeded
    let u := (t.grantBanks 0x20 banks).storeBanks (bs.take p1.toNat) banks
    cmdPersLoad ring p0 p1 (some bs) t =
      { u with pers := { u.pers with images := u.pers.images ++ [{ i with banks := banks }] } }.finish ring 0x42 stOk 0 := by
  rw [cmdPersLoad, withDma_some]
  dsimp only
  rw [checked]
  exact (if_neg (by simp)).trans ((if_neg (by simp [new])).trans (if_neg (not_or.mpr ⟨not_le.mpr few, not_lt.mpr fits⟩)))

theorem cmdPersDrop_unbound {i : Image} (stored : t.image (p0.toNat % 2 ^ 32) = some i)
    (unbound : ((List.range 16).any fun l => (t.slot l).bound && (t.slot l).img == i.id) = false) :
    let u := i.banks.foldl (fun t b => t.supHandover b 0) t
    cmdPersDrop ring p0 t = { u with pers := { u.pers with images := u.pers.images.filter (·.id != i.id) } }.finish ring 0x43 stOk 0 := by
  rw [cmdPersDrop, stored]
  exact if_neg (by simp [unbound])

theorem cmdPersCaps_stored {i : Image} (stored : t.image (p0.toNat % 2 ^ 32) = some i) (reached : t.dmaOk (t.ring ring).port = true) :
    cmdPersCaps ring p0 p1 t = (t.emit (.hostData (t.ring ring).port p1.toNat i.caps)).finish ring 0x44 stOk 0 := by
  rw [cmdPersCaps, stored]
  exact if_pos reached

theorem pers_none (missing : t.image (p0.toNat % 2 ^ 32) = none) (readOk : Bool) :
    cmdPersDrop ring p0 t = t.finish ring 0x43 stNoEntry 0 ∧ cmdPersCaps ring p0 p1 t = t.finish ring 0x44 stNoEntry 0 ∧
      cmdPersBind ring p0 p1 p2 (some bs) readOk t = t.finish ring 0x45 stNoEntry 0 := by
  rw [cmdPersDrop, cmdPersCaps, cmdPersBind, withDma_some]
  simp only [missing, and_self]

/-! ## The slots -/

theorem cmdPersBind_granted {i : Image} (stored : t.image (p0.toNat % 2 ^ 32) = some i) {host : List CapRec}
    (recs : host = capRecs (bs.take (8 * p2.toNat))) {l : Fin 16} (named : Fin.ofNat 16 (bitsOf p0.toNat 35 32) = l)
    (free : (t.slot l).bound = false) (granted : t.resourcesFor l i = true) (common : noCommon (capRecs i.caps) host = false)
    (declared : 4 * (t.paramBlock i host).length ≤ i.paramLen) (pinned : t.pinBroken l = false)
    {n : Fin 18} (placed : t.placeSlot l false = some n) (readOk : Bool) :
    cmdPersBind ring p0 p1 p2 (some bs) readOk t = if readOk then t.bindSlot ring l n i host
      else (t.raiseFor .wadi F_WADI_IMG_MISMATCH [l] l).finish ring 0x45 stNoEngine 0 := by
  unfold cmdPersBind
  rw [withDma_some]
  dsimp only
  rw [named, stored, ← recs]
  dsimp only
  rw [if_neg (by simp [free]), if_neg (by simp [granted]), if_neg (by simp [common]), if_neg (by omega),
    if_neg (by simp [pinned]), placed]

section
variable {l : Nat} (named : p0.toNat % 16 = l) (bound : (t.slot l).bound = true) (first : (t.slot l).unbind = none)
include named bound first

theorem cmdPersUnbind_serving {u : State} (asked : (t.hostAction l 32).setSlot l { t.slot l with unbind := some ring } = u)
    (idle : t.pers.mig = none) {n : Fin 18} (serving : u.servingPe l = some n) : cmdPersUnbind ring p0 t = u.peStop n := by
  unfold cmdPersUnbind
  dsimp only
  rw [named, if_neg (by simp [bound, first]), asked, serving, idle]
  exact if_neg (by simp)

theorem cmdPersUnbind_alone {u : State} (asked : (t.hostAction l 32).setSlot l { t.slot l with unbind := some ring } = u)
    (alone : u.servingPe l = none) : cmdPersUnbind ring p0 t = u := by
  unfold cmdPersUnbind
  dsimp only
  rw [named, if_neg (by simp [bound, first]), asked, alone]

end

end

theorem exec_persUnbindTimeout {s : State} {slot : Fin 16} {r : Nat} (requested : (s.slot slot).unbind = some r)
    (idle : s.pers.mig = none) : exec (.persUnbindTimeout slot) s = .next (settle (s.unbindNow slot r true)) := by
  show execPersUnbindTimeout slot s = _
  rw [execPersUnbindTimeout, requested, idle]
  rfl

/-- Settles O39: each command is its body on the state after it was taken, and a forced unbind has its own rule. -/
theorem personalityCommands : Obligations.PersonalityCommands := by
  intro s ring p0 p1 p2 bs readOk slot u ends
  refine ⟨fun takes => ⟨fun room => command_is takes (cmdPersKeyAdd_adds room), fun full => command_is takes (cmdPersKeyAdd_full full),
      fun k entry => command_is takes (cmdPersKeyRevoke_unrevoked entry), fun entry => command_is takes (cmdPersKeyRevoke_none entry)⟩,
    fun takes => ⟨fun st i checked => ⟨fun fails => command_is takes (cmdPersLoad_fails checked fails), ?_⟩,
      fun i stored => ⟨fun unbound => command_is takes (cmdPersDrop_unbound stored unbound),
        fun reached => command_is takes (cmdPersCaps_stored stored reached),
        fun n => ?_⟩,
      fun missing => ?_, ?_⟩,
    fun r requested idle => exec_persUnbindTimeout requested idle⟩
  · rintro rfl new few fits
    exact command_is takes (cmdPersLoad_stores checked new few fits)
  · intro l host free granted common declared pinned placed
    exact command_is takes
      (cmdPersBind_granted stored (Eq.refl host) (Eq.refl l) free granted common declared pinned placed readOk)
  · obtain ⟨drop, caps, bind⟩ := pers_none (ring := ring.val) (p1 := p1) (p2 := p2) (bs := bs) missing readOk
    exact ⟨command_is takes drop, command_is takes caps, command_is takes bind⟩
  · intro l t bound first idle
    exact ⟨fun n serving => command_is takes (cmdPersUnbind_serving (Eq.refl l) bound first (Eq.refl t) idle serving),
      fun alone => command_is takes (cmdPersUnbind_alone (Eq.refl l) bound first (Eq.refl t) alone)⟩

end Sys2Proof.Machine
end

section
/-! Migrations (R276 to R294). -/

namespace Sys2Proof.Machine

/-! ## The commands -/

section
variable {t : State} {ring : Nat} {p0 p1 : BitVec 64}

section
variable {l : Fin 16} (named : Fin.ofNat 16 p0.toNat = l) {i : Image} (bound : t.slotImage l = some i) {src tgt : Fin 18}
  (serving : t.servingPe l = some src) (migratable : i.migratable = true) (idle : t.pers.mig = none)
include named bound serving migratable idle

theorem cmdMigStart_placed (anywhere : p1.toNat % 32 = 31) (placed : t.placeSlot l false = some tgt) :
    cmdMigStart ring p0 p1 t = (t.hostAction l 32).migBegin l src tgt 0 0 false [ring] := by
  unfold cmdMigStart
  dsimp only
  rw [named, bound, serving, placed]
  dsimp only
  rw [if_neg (by simp [migratable]), if_neg (by simp [idle]), if_pos anywhere, if_pos anywhere]

theorem cmdMigStart_named (target : p1.toNat % 32 = tgt.val) (free : t.idlePe tgt = true) :
    cmdMigStart ring p0 p1 t = (t.hostAction l tgt).migBegin l src tgt 0 0 false [ring] := by
  have other : ¬ p1.toNat % 32 = 31 := by omega
  unfold cmdMigStart
  dsimp only
  rw [named, bound, serving]
  dsimp only
  rw [if_neg (by simp [migratable]), if_neg (by simp [idle])]
  simp only [target] at other ⊢
  rw [if_neg other, dif_pos tgt.isLt, if_pos free, if_neg other]

end

theorem cmdMigAbort_none (idle : t.pers.mig = none) : cmdMigAbort ring t = t.finish ring 0x48 stNotActive 0 :=
  if_pos (by simp [idle])

theorem cmdMigAbort_abandons (runs : t.pers.mig.isSome = true) (early : t.inBlackout = false) :
    cmdMigAbort ring t = (t.migAbandon 6).finish ring 0x48 stOk 0 :=
  (if_neg (by simpa [Option.isSome_iff_ne_none] using runs)).trans (if_neg (by simp [early]))

theorem cmdEngRetire_unused {n : Fin 18} (named : p0.toNat % 32 = n.val) (sound : (t.pe n).state ≠ .failed)
    (unused : (t.pe n).slot = none) (idle : t.pers.mig = none) :
    cmdEngRetire ring p0 t = ((t.hostAction 255 n).retirePe n).finish ring 0x49 stOk 0 := by
  have slotNo : (t.pe n).slotNo = 255 := by rw [Engine.slotNo, unused]
  unfold cmdEngRetire
  dsimp only
  rw [named, dif_pos n.isLt, if_neg (by simpa using sound), idle, slotNo]
  refine (if_neg Bool.false_ne_true).trans (if_pos ?_)
  simp only [unused, Option.isNone_none]

end

/-! ## The events -/

section
variable {s : State} {m : Mig} (runs : s.pers.mig = some m)
include runs

theorem exec_migPrepareDone (phase : m.phase = .prepare) {i : Image} (image : s.slotImage m.slot = some i) (readOk : Bool) :
    exec (.migPrepareDone readOk) s = .next (settle (if readOk then
      (((s.onPe m.tgt fun e => { e with imem := e.imem.loadImage i.imem }).migStat true 2).wr WADI_MIG_DIRTY
        WADI_MIG_DIRTY_PASS 1).migCopyAll { m with phase := .precopy }
      else (s.raiseFor .wadi F_WADI_IMG_MISMATCH [m.slot] m.slot).migAbandon 10)) := by
  show execMigPrepareDone readOk s = _
  rw [execMigPrepareDone, runs]
  dsimp only
  rw [if_neg (by simp [phase]), image]
  cases readOk <;> rfl

theorem exec_precopyPassEnd (phase : m.phase = .precopy) (later : s.rd WADI_MIG_DIRTY WADI_MIG_DIRTY_PASS ≠ 1) :
    exec .precopyPassEnd s = .next (settle (if m.lines.length ≤ s.stopThr then
        ((s.setMig (some { m with phase := .stopwait })).migStat true 3).peStop m.src
      else if s.passMax ≤ s.rd WADI_MIG_DIRTY WADI_MIG_DIRTY_PASS then s.migAbandon 2
      else (s.wr WADI_MIG_DIRTY WADI_MIG_DIRTY_PASS (s.rd WADI_MIG_DIRTY WADI_MIG_DIRTY_PASS + 1)).migCopy m)) := by
  show execPrecopyPassEnd s = _
  rw [execPrecopyPassEnd, runs]
  dsimp only
  rw [phase]
  dsimp only
  rw [if_neg (c := _ ∧ _) (by simp [later])]
  split_ifs <;> rfl

theorem exec_migNoBoundary (phase : m.phase = .stopwait) (running : (s.pe m.src).state ≠ .stopped) :
    exec .migNoBoundary s = .next (settle (s.migAbandon 1)) := by
  show execMigNoBoundary s = _
  rw [execMigNoBoundary, runs]
  exact if_pos (by simp [phase, running])

theorem exec_migSourceStopped (phase : m.phase = .stopwait) (stopped : (s.pe m.src).state = .stopped) (ns : Fin 5001) :
    exec (.migSourceStopped ns) s = .next (settle (if s.finalMax < m.lines.length then s.migRetry m ns else s.migCommit m ns)) := by
  show execMigSourceStopped ns s = _
  rw [execMigSourceStopped, runs]
  exact if_pos (by simp [phase, stopped])

theorem inBlackout_of (phase : m.phase = .stopwait) (stopped : (s.pe m.src).state = .stopped) (few : m.lines.length ≤ s.finalMax) :
    s.inBlackout = true := by
  rw [State.inBlackout, runs]
  simp [phase, stopped, few]

end

/-- Settles O40: each command is its body on the state after it was taken, and each event is decided by the phase of the migration. -/
theorem migrationCommandsAndEvents : Obligations.MigrationCommandsAndEvents := by
  intro s ring p0 p1 readOk ns u ends to_
  refine ⟨fun takes => ⟨?_, fun idle => command_is takes (cmdMigAbort_none idle),
      fun runs early => command_is takes (cmdMigAbort_abandons runs early)⟩,
    fun takes n named sound unused idle => command_is takes (cmdEngRetire_unused named sound unused idle),
    fun m runs => ⟨fun i phase image => exec_migPrepareDone runs phase image readOk, ?_,
      fun phase running => exec_migNoBoundary runs phase running, fun phase stopped => ?_⟩⟩
  · rintro i src l named bound serving migratable idle
    exact ⟨fun anywhere tgt placed => command_is takes
        (cmdMigStart_placed named.symm bound serving migratable idle anywhere placed),
      fun tgt target free => command_is takes (cmdMigStart_named named.symm bound serving migratable idle target free)⟩
  · intro pass phase later
    have ends := exec_precopyPassEnd runs phase later
    refine ⟨fun few => ?_, fun many last => ?_, fun many more => ?_⟩
    · rw [ends, if_pos few]
    · rw [ends, if_neg (not_le.mpr many), if_pos last]
    · rw [ends, if_neg (not_le.mpr many), if_neg (not_le.mpr more)]
  · have stops := exec_migSourceStopped runs phase stopped ns
    refine ⟨fun few => ⟨?_, if_pos (inBlackout_of runs phase stopped few)⟩, fun many => ?_⟩
    · rw [stops, if_neg (not_lt.mpr few)]
    · rw [stops, if_pos many]

end Sys2Proof.Machine
end

section
/-! Wadi's decisions, proposals and the functions it moves (R308 to R342). -/

namespace Sys2Proof.Machine

section
variable {t : State} {ring : Nat} {p0 : BitVec 64}

/-! ## Proposals -/

theorem cmdWadiAccept_open (isOpen : t.wadi.props.any (·.id == p0.toNat) = true) : cmdWadiAccept ring p0 t =
    { t with wadi := { t.wadi with props := t.wadi.props.map fun (x : Proposal) =>
      if x.id = p0.toNat then { x with accepted := true } else x } }.finish ring 0x50 stOk 0 :=
  if_pos isOpen

theorem cmdWadiAccept_closed (closed : t.wadi.props.any (·.id == p0.toNat) = false) :
    cmdWadiAccept ring p0 t = t.finish ring 0x50 (t.noProposal p0.toNat) 0 :=
  if_neg (by simp [closed])

theorem cmdWadiVeto_open (isOpen : t.wadi.props.any (·.id == p0.toNat) = true) :
    cmdWadiVeto ring p0 t = (t.withdraw p0.toNat 3).finish ring 0x51 stOk 0 :=
  if_pos isOpen

theorem cmdWadiVeto_closed (closed : t.wadi.props.any (·.id == p0.toNat) = false) :
    cmdWadiVeto ring p0 t = t.finish ring 0x51 (t.noProposal p0.toNat) 0 :=
  if_neg (by simp [closed])

end

/-! ## Modes of a function -/

section
variable (s : State) (f : Fin 8)

/-- A write that asks for host-assisted mode (R338). -/
theorem funcWrite_host {v : Word} (host : bitOf v.toNat 0 = true) :
    let u := s.wr (WADI_FUNC f) WADI_FUNC_SHED_OK (b2n (bitOf v.toNat 8))
    s.funcWrite f v = if u.funcHost f then (u.wr (WADI_FUNC f) WADI_FUNC_FUNC_MODE 1).wr (WADI_FUNC f) WADI_FUNC_PENDING 0
      else u.funcAsk f true 0 := by
  unfold State.funcWrite
  simp only [host, if_true, b2n]
  exact if_congr eq_comm rfl rfl

variable {s f}

theorem exec_wadiDecision_decides (firmware : s.firmware = true) (turn : s.wadi.skip = false) (bad : List (Fin 16)) :
    exec (.wadiDecision bad) s = .next (settle (s.decide_ fun l => !(bad.any fun b => b.val == l)).leaveDegraded) :=
  (if_neg (by simp [firmware])).trans (if_neg (by simp [turn]))

theorem exec_wadiDecision_skips (firmware : s.firmware = true) (skip : s.wadi.skip = true) (bad : List (Fin 16)) :
    exec (.wadiDecision bad) s = .next { s with wadi := { s.wadi with skip := false } } :=
  (if_neg (by simp [firmware])).trans (if_pos skip)

section
variable (pending : s.flag (WADI_FUNC f) WADI_FUNC_PENDING = true) (still : s.funcMoving f = false)
include pending still

theorem exec_funcSwitchPoint_hardware (hardware : s.flag (WADI_FUNC f) WADI_FUNC_FUNC_MODE = false) :
    exec (.funcSwitchPoint f) s = .next (settle (s.funcSet f false (b2n (s.wadi.moved.contains f.val)))) := by
  show execFuncSwitchPoint f s = _
  rw [execFuncSwitchPoint, hardware]
  exact (if_neg (by simp [pending, still])).trans ((if_neg (by simp)).trans (if_neg (by simp)))

variable (host : s.flag (WADI_FUNC f) WADI_FUNC_FUNC_MODE = true)
include host

theorem exec_funcSwitchPoint_host (rings : s.funcRings f = true) (own : byPersonality f = false) :
    exec (.funcSwitchPoint f) s = .next (settle (s.funcSet f true (b2n (s.wadi.moved.contains f.val)))) := by
  show execFuncSwitchPoint f s = _
  rw [execFuncSwitchPoint, host]
  exact (if_neg (by simp [pending, still])).trans ((if_neg (by simp [rings])).trans (if_neg (by simp [own])))

theorem exec_funcSwitchPoint_refuses (rings : s.funcRings f = false) :
    exec (.funcSwitchPoint f) s = .next (settle (s.funcRefuse f 1)) :=
  (if_neg (by simp [pending, still])).trans (if_pos (by simp [host, rings]))

theorem exec_funcSwitchTimeout : exec (.funcSwitchTimeout f) s = .next (settle (s.funcRefuse f 3)) :=
  if_pos (by simp [pending, still, host])

end

theorem exec_funcRingOrphanTimeout (host : s.funcHost f = true) (orphaned : s.funcRings f = false) (own : byPersonality f = false) :
    exec (.funcRingOrphanTimeout f) s = .next (settle (s.funcAsk f false 1)) :=
  (if_neg (by simp [host, orphaned])).trans (if_neg (by simp [own]))

end

/-- Settles O41: each command is its body on the state after it was taken, and each move of a function is decided by the mode it asks for. -/
theorem wadiDecidesAndSplitsFunctions : Obligations.WadiDecidesAndSplitsFunctions := by
  intro s ring p0 bad p f v u to_ ends isOpen refused
  refine ⟨fun firmware skip => exec_wadiDecision_skips firmware skip bad, fun firmware turn => exec_wadiDecision_decides firmware turn bad,
    fun takes => ⟨fun isOpen => ⟨command_is takes (cmdWadiAccept_open isOpen), command_is takes (cmdWadiVeto_open isOpen)⟩,
      fun closed => ⟨command_is takes (cmdWadiAccept_closed closed), command_is takes (cmdWadiVeto_closed closed)⟩⟩,
    fun hears host => ?_,
    fun pending still => ⟨fun hardware => exec_funcSwitchPoint_hardware pending still hardware,
      fun host => ⟨fun rings own => exec_funcSwitchPoint_host pending still host rings own,
        fun rings => exec_funcSwitchPoint_refuses pending still host rings, exec_funcSwitchTimeout pending still host⟩⟩,
    fun host orphaned own => exec_funcRingOrphanTimeout host orphaned own⟩
  refine (onMw0_hears hears _ _).trans ?_
  rw [funcWrite_host s f host]
  rfl

end Sys2Proof.Machine
end

section
/-! Memory banks: scrubbing, handover, march and repair (R365 to R401). -/

namespace Sys2Proof.Machine

section
variable {s : State} {p : Fin 2} {buffer preserving : Bool}

/-! ## Scrubbing -/

section
variable {unit : Fin 72} (enabled : s.flag MEM_SCRUB_CFG MEM_SCRUB_CFG_EN = true) (present : unit.val < physBanks buffer)
  (sound : (s.bank buffer unit).mem.bad.contains (s.bank buffer unit).scrubAt = false)
include enabled present sound

theorem exec_bankScrubStep (ecc : Ecc) :
    let w := (s.bank buffer unit).scrubAt
    let moved := s.setBank buffer unit { s.bank buffer unit with scrubAt := (w + 1) % (if buffer then 1024 else 16384) }
    exec (.bankScrubStep buffer unit ecc) s = match ecc with
      | .ok => .next moved
      | .single => .next (settle (moved.bankCe buffer unit w 31 false 8))
      | .double => .next (settle (moved.bankUe buffer unit w 31 false 8)) := by
  refine (if_neg (by simp [enabled, present])).trans ?_
  cases ecc with
  | ok => exact (if_neg (by simp only [sound]; decide)).trans (if_neg (by decide))
  | single => exact (if_neg (by simp only [sound]; decide)).trans (if_pos (by decide))
  | double => exact if_pos (by simp)

end

/-! ## Handover -/

theorem exec_memOwnReq_starts (hears : s.hears p .mem = true) (mode : s.mode.ownReq = true) {bank owner : Fin 64}
    (known : owner = 0 ∨ (0x10 ≤ owner.val ∧ owner.val < 0x20) ∨ owner = 0x21 ∨ owner = 0x23) (free : s.owner bank ≠ 0x20)
    (idle : s.mem.handover = none) : exec (.memOwnReq p bank owner) s = .next (s.startHandover bank owner) := by
  refine (onMw0_hears hears _ _).trans ((if_neg (by simp [mode])).trans (if_neg ?_))
  have isKnown : (owner.val == 0 || decide (0x10 ≤ owner.val ∧ owner.val < 0x20) || (owner.val == 0x21) ||
      (owner.val == 0x22 && !s.bonded) || (owner.val == 0x23)) = true := by
    rcases known with rfl | range | rfl | rfl
    · rfl
    · simp [range]
    · rfl
    · simp
  simp only [isKnown, idle]
  simpa using free

theorem exec_memOwnReq_refuses (hears : s.hears p .mem = true) (mode : s.mode.ownReq = true) {bank : Fin 64} (owner : Fin 64)
    (refused : s.owner bank = 0x20 ∨ s.mem.handover.isSome = true) : exec (.memOwnReq p bank owner) s =
      .next (((s.wr MEM_OWN_STAT MEM_OWN_STAT_RESULT 3).wr MEM_OWN_STAT MEM_OWN_STAT_OWNER owner).wr MEM_OWN_STAT
        MEM_OWN_STAT_BANK bank) := by
  refine (onMw0_hears hears _ _).trans ((if_neg (by simp [mode])).trans (if_pos ?_))
  rcases refused with stored | busy
  · simp [stored]
  · simp [busy]

theorem exec_handover {h : Handover} (runs : s.mem.handover = some h) :
    (h.ahead = 0 → exec .handoverMarkerArrive s = .next (settle (s.endHandover h 1))) ∧
    exec .handoverForceTimeout s = .next (settle ((s.endHandover h 2).raise .mem F_MEM_HANDOVER_FORCED
      [memCap0 false (s.physOf false h.bank) 0, s.masterOf h.old, 0])) := by
  constructor
  · intro first
    show execHandoverMarkerArrive s = _
    rw [execHandoverMarkerArrive, runs]
    exact if_pos first
  · show execHandoverForceTimeout s = _
    rw [execHandoverForceTimeout, runs]
    rfl

/-! ## March -/

section
variable (hears : s.hears p .mem = true) {any : Fin 128}
include hears

theorem exec_memMarchReq_starts (present : any.val < physBanks buffer)
    (may : preserving = true ∨ (s.bank buffer any).role = 1 ∨ (s.bank buffer any).role = 2) (idle : s.mem.march = none)
    (unrepaired : s.mem.repair = none) :
    let t := s.wr MEM_MARCH_STAT MEM_MARCH_STAT_TARGET (b2n preserving * 256 + b2n buffer * 128 + any)
    exec (.memMarchReq p preserving buffer any) s = .next (({ t with mem := { t.mem with march := some ⟨preserving, buffer, any⟩ } }.wr
      MEM_MARCH_STAT MEM_MARCH_STAT_BUSY 1).wr MEM_MARCH_STAT MEM_MARCH_STAT_FAIL_WORDS 0) := by
  refine (onMw0_hears hears _ _).trans (if_neg ?_)
  rw [idle, unrepaired]
  rcases may with rfl | spare | retired
  · simp [present]
  · simp [present, spare]
  · simp [present, retired]

theorem exec_memMarchReq_refuses (refused : physBanks buffer ≤ any.val ∨ s.mem.march.isSome = true) :
    exec (.memMarchReq p preserving buffer any) s = .next ((s.wr MEM_MARCH_STAT MEM_MARCH_STAT_TARGET
      (b2n preserving * 256 + b2n buffer * 128 + any)).wr MEM_MARCH_STAT MEM_MARCH_STAT_RESULT 3) := by
  refine (onMw0_hears hears _ _).trans (if_pos ?_)
  rcases refused with absent | busy
  · simp [absent]
  · simp [busy]

end

section
variable {m : March} (runs : s.mem.march = some m)
include runs

theorem exec_marchDone_preserving (preserves : m.preserving = true) (words : Nat) :
    let t := (({ s with mem := { s.mem with march := none } }.wr MEM_MARCH_STAT MEM_MARCH_STAT_BUSY 0).wr MEM_MARCH_STAT
      MEM_MARCH_STAT_RESULT (if words = 0 then 1 else 2)).wr MEM_MARCH_STAT MEM_MARCH_STAT_FAIL_WORDS (stopAt 4095 words)
    exec (.marchDone words) s = if words = 0 then .next t
      else .next (settle (t.raise .mem F_MEM_MARCH_FAIL [memCap0 m.buffer m.bank 0, 30, 0])) := by
  show execMarchDone words s = _
  rw [execMarchDone, runs]
  dsimp only
  rw [if_pos preserves]
  rfl

theorem exec_marchDone_destructive (destroys : m.preserving = false) :
    let t := { s.setBank m.buffer m.bank { s.bank m.buffer m.bank with mem := Mem.marched s.draws } with draws := s.draws + 1 }
    exec (.marchDone 0) s = .next ((({ t with mem := { t.mem with march := none } }.wr MEM_MARCH_STAT MEM_MARCH_STAT_BUSY 0).wr
      MEM_MARCH_STAT MEM_MARCH_STAT_RESULT 1).wr MEM_MARCH_STAT MEM_MARCH_STAT_FAIL_WORDS 0) := by
  show execMarchDone 0 s = _
  rw [execMarchDone, runs]
  dsimp only
  rw [if_neg (c := m.preserving = true) (by simp [destroys]), if_pos (c := (0 : Nat) = 0) (Eq.refl 0),
    if_pos (c := (0 : Nat) = 0) (Eq.refl 0), show stopAt 4095 0 = 0 from Eq.refl 0]

end

/-! ## Repair -/

theorem exec_memRepairReq (hears : s.hears p .mem = true) {bank : Fin 64} (logical : bank.val < logicalBanks buffer)
    (new : s.mem.asks.contains (buffer, bank.val) = false) : exec (.memRepairReq p buffer bank) s =
      .next { s with mem := { s.mem with asks := s.mem.asks ++ [(buffer, bank.val)] } } :=
  (onMw0_hears hears _ _).trans (if_neg (by simp only [new, not_or]; exact ⟨not_le.mpr logical, Bool.false_ne_true⟩))

section
variable {r : Repair} (runs : s.mem.repair = some r)
include runs

theorem exec_repairMarchDone (step : r.step = 1) :
    let fails := fun (t : State) (b : Bool) (p : Nat) => t.raise .mem F_MEM_MARCH_FAIL [memCap0 b p 0, 30, 0]
    let copies := fun (t : State) => { t with mem := { t.mem with repair := some { r with step := 2 } } }.repairStat true 2
    exec (.repairMarchDone true true) s = .next (settle (copies s)) ∧
    exec (.repairMarchDone true false) s = .next (settle (copies (fails s r.buffer r.orig))) ∧
    exec (.repairMarchDone false true) s = .next (settle ((fails s r.buffer r.spare).abandonRepair r 1 2)) := by
  have is : ∀ a b, exec (.repairMarchDone a b) s = execRepairMarchDone a b s := fun _ _ => Eq.refl _
  simp only [is, execRepairMarchDone, runs, step, ne_eq, not_true_eq_false, if_false]
  exact ⟨Eq.refl _, Eq.refl _, Eq.refl _⟩

theorem exec_repairCopy (step : r.step = 2) :
    exec .repairCopyDone s = .next (settle ((s.bank r.buffer r.orig).mem.bad.foldl
      (fun t w => t.bankUe r.buffer r.orig w 30 false 8)
      ({ s with mem := { s.mem with repair := some { r with step := 3 } } }.repairStat true 3))) ∧
    exec .repairOrigFail s = .next (settle ((s.abandonRepair r 6 1).remapLost r.buffer r.logical)) := by
  constructor
  · show execRepairCopyDone s = _
    rw [execRepairCopyDone, runs]
    exact if_neg (not_not.mpr step)
  · show execRepairOrigFail s = _
    rw [execRepairOrigFail, runs]
    exact if_neg (not_not.mpr step)

theorem exec_repairCommit_fails (step : r.step = 3) : exec (.repairCommit false) s =
    .next (settle ((s.abandonRepair r 5 1).raise .mem F_MEM_NVM_ERR [memCap0 r.buffer r.spare 0, 30, 0])) := by
  show execRepairCommit false s = _
  rw [execRepairCommit, runs]
  exact (if_neg (not_not.mpr step)).trans (if_pos (by simp))

theorem exec_repairCommit (step : r.step = 3) :
    let o := s.bank r.buffer r.orig
    let k := s.bank r.buffer r.spare
    let s1 := (s.setBank r.buffer r.spare { k with role := 0, mem := o.mem }).setBank r.buffer r.orig { o with role := 2 }
    let s2 := s1.setPhys r.buffer r.logical r.spare
    let s3 := { s2 with nvm := { s1.nvm with repairs := s1.nvm.repairs ++ [(r.buffer, r.logical, r.orig, r.spare)] } }
    exec (.repairCommit true) s = .next ((({ s3 with mem := { s3.mem with repair := none } }.repairStat false 4).wr
      MEM_REPAIR_STAT MEM_REPAIR_STAT_COMMIT 1).bump MEM_REPAIR_CNT MEM_REPAIR_CNT_DONE 1) := by
  show execRepairCommit true s = _
  rw [execRepairCommit, runs]
  exact (if_neg (not_not.mpr step)).trans (if_neg (by simp))

end

end

/-- Settles O42: each request is decided by the state of its bank, and each step of a repair by the step that runs. -/
theorem memoryBanksAndRepairs : Obligations.MemoryBanksAndRepairs := by
  intro s p buffer preserving bank owner unit any words quiet to_ w moved fails
  refine ⟨fun enabled present sound => ?_,
    fun hears mode => ⟨fun known free idle => exec_memOwnReq_starts hears mode known free idle,
      fun refused => exec_memOwnReq_refuses hears mode owner refused⟩,
    fun h runs => exec_handover runs,
    fun hears => ⟨fun present may idle unrepaired => exec_memMarchReq_starts hears present may idle unrepaired,
      fun refused => exec_memMarchReq_refuses hears refused⟩,
    fun m runs preserves => exec_marchDone_preserving runs preserves words,
    fun m runs destroys => exec_marchDone_destructive runs destroys,
    fun hears logical new => exec_memRepairReq hears logical new,
    fun r runs => ⟨fun step => exec_repairMarchDone runs step, fun step => exec_repairCopy runs step,
      fun step => ⟨exec_repairCommit_fails runs step, exec_repairCommit runs step⟩⟩⟩
  have step := exec_bankScrubStep enabled present sound
  exact ⟨step .ok, step .single, step .double⟩

end Sys2Proof.Machine
end

section
/-! Mailboxes and doorbells (R411 to R443). -/

namespace Sys2Proof.Machine

/-- An access of an endpoint's window that reaches it does what the window does. -/
theorem onWin_reached {s : State} {ep : Fin 19}
    (reached : if ep.val < 17 then s.inBlkReset .mbx = false else s.hears (ep.val - 17) .mbx = true) (off : Nat) (r : Res) :
    onWin s ep off r = r := by
  unfold onWin
  split_ifs at reached ⊢ with inside reset
  · simp [reset] at reached
  · rfl
  · exact onMw0_hears reached _ _

/-! ## The window's registers -/

section
variable (s : State) (ep master : Nat)

theorem winWrite_send (c : Fin 4) (v : Word) : s.winWrite ep master (0x240 + 0x80 * c) v = s.mbxSend ep c master v := by
  have channel : (0x240 + 0x80 * c.val) % 0x200 / 0x80 = c := by omega
  rw [State.winWrite, channel]
  exact (if_neg (by omega)).trans ((if_pos (by omega)).trans ((if_neg (by omega)).trans (if_pos (by omega))))

theorem winWrite_data (c : Fin 4) (w : Fin 16) (v : Word) :
    s.winWrite ep master (0x200 + 0x80 * c + 4 * w) v = s.mbxData ep c w master v := by
  have channel : (0x200 + 0x80 * c.val + 4 * w.val) % 0x200 / 0x80 = c := by omega
  have word : (0x200 + 0x80 * c.val + 4 * w.val) % 0x80 / 4 = w := by omega
  rw [State.winWrite, channel, word]
  exact (if_neg (by omega)).trans ((if_pos (by omega)).trans (if_pos (by omega)))

theorem winWrite_db (n : Fin 32) (v : Word) : s.winWrite ep master (0x480 + 8 * n) v =
    if 19 ≤ n.val then s.raiseMbx F_MBX_ROUTE_ERR n 0 0 master ep else s.ringDb n (v &&& 0x0FFFFFF0) := by
  have number : (0x480 + 8 * n.val - 0x480) / 8 = n := by omega
  rw [State.winWrite, number]
  exact (if_neg (by omega)).trans ((if_neg (by omega)).trans ((if_neg (by omega)).trans ((if_neg (by omega)).trans
    (if_pos (by omega)))))

theorem winRead_in (k : Fin 4) (w : Fin 16) : s.winRead ep (0x80 * k + 4 * w) = s.mbxRead ep k w := by
  have mailbox : (0x80 * k.val + 4 * w.val) % 0x200 / 0x80 = k := by omega
  have word : (0x80 * k.val + 4 * w.val) % 0x80 / 4 = w := by omega
  rw [State.winRead, mailbox, word]
  exact (if_pos (by omega)).trans (if_pos (by omega))

end

/-! ## Channels -/

section
variable {s : State} {ep c master d m : Nat} {v : Word} (dest : s.routeDest (4 * ep + c) = d) (mailbox : s.routeMb (4 * ep + c) = m)
include dest

theorem mbxSend_disabled (off : s.routeEn (4 * ep + c) = false) :
    s.mbxSend ep c master v = (s.setOstat ep c 0).raiseMbx F_MBX_ROUTE_ERR d c 0 master ep := by
  subst dest
  exact if_pos (by simp [off])

theorem mbxData_disabled (off : s.routeEn (4 * ep + c) = false) (w : Nat) :
    s.mbxData ep c w master v = (s.setOstat ep c 0).raiseMbx F_MBX_ROUTE_ERR d c w master ep := by
  subst dest
  exact if_pos (by simp [off])

variable (on : s.routeEn (4 * ep + c) = true)
include mailbox on

theorem mbxSend_badLength (bad : bitsOf v.toNat 4 0 = 0 ∨ 16 < bitsOf v.toNat 4 0) :
    s.mbxSend ep c master v = (s.setOstat ep c 0).raiseMbx F_MBX_REJECT d m 0 master ep := by
  subst dest mailbox
  exact (if_neg (by simp [on])).trans (if_pos bad)

variable (empty : (s.inbox d m).full = false)
include empty

theorem mbxSend_posts (least : 1 ≤ bitsOf v.toNat 4 0) (most : bitsOf v.toNat 4 0 ≤ 16) : s.mbxSend ep c master v =
    (s.setInbox d m { s.inbox d m with
      full := true, len := bitsOf v.toNat 4 0, sender := ep, chan := c, epoch := s.epoch ep, agedOnce := false }).ringDb d (BitVec.ofNat 32 (2 ^ m)) := by
  subst dest mailbox
  exact (if_neg (by simp [on])).trans ((if_neg (by omega)).trans (if_neg (by simp [empty])))

theorem mbxData_writes (w : Nat) : s.mbxData ep c w master v =
    s.setInbox d m { s.inbox d m with words := SMap.set (fun _ => 0) (s.inbox d m).words w v } := by
  subst dest mailbox
  exact (if_neg (by simp [on])).trans (if_neg (by simp [empty]))

end

/-! ## Reads -/

section
variable {s : State} {ep k w : Nat}

theorem mbxRead_beyond (posted : (s.inbox ep k).full = true) (beyond : (s.inbox ep k).len ≤ w) : s.mbxRead ep k w = (0, s) :=
  if_pos ⟨posted, beyond⟩

theorem mbxRead_last (posted : (s.inbox ep k).full = true) (last : (s.inbox ep k).len = w + 1) : s.mbxRead ep k w =
    (SMap.get (fun _ => 0) (s.inbox ep k).words w, s.setInbox ep k { s.inbox ep k with full := false }) := by
  have within : ¬ ((s.inbox ep k).full = true ∧ (s.inbox ep k).len ≤ w) := by omega
  exact (if_neg within).trans (congrArg _ (if_pos ⟨posted, last.symm⟩))

theorem mbxRead_stays (stays : (s.inbox ep k).full = false ∨ w + 1 < (s.inbox ep k).len) :
    s.mbxRead ep k w = (SMap.get (fun _ => 0) (s.inbox ep k).words w, s) := by
  have within : ¬ ((s.inbox ep k).full = true ∧ (s.inbox ep k).len ≤ w) := by
    rintro ⟨full, beyond⟩
    rcases stays with free | more
    · exact absurd full (by simp [free])
    · omega
  have notLast : ¬ ((s.inbox ep k).full = true ∧ w + 1 = (s.inbox ep k).len) := by
    rintro ⟨full, last⟩
    rcases stays with free | more
    · exact absurd full (by simp [free])
    · omega
  exact (if_neg within).trans (congrArg _ (if_neg notLast))

end

/-! ## The commands -/

section
variable {s : State} {ep : Fin 19}
  (reached : if ep.val < 17 then s.inBlkReset .mbx = false else s.hears (ep.val - 17) .mbx = true)
include reached

theorem exec_mbxSend (c : Fin 4) (v : Word) :
    exec (.mbxSend ep c v) s = .next (settle (s.mbxSend ep c (s.epMaster ep) v)) := by
  refine (onWin_reached reached _ _).trans ?_
  rw [winWrite_send]
  rfl

theorem exec_mbxDataWrite (c : Fin 4) (w : Fin 16) (v : Word) :
    exec (.mbxDataWrite ep c w v) s = .next (settle (s.mbxData ep c w (s.epMaster ep) v)) := by
  refine (onWin_reached reached _ _).trans ?_
  rw [winWrite_data]
  rfl

theorem exec_mbxInRead (k : Fin 4) (w : Fin 16) : exec (.mbxInRead ep k w) s =
    .next { (s.mbxRead ep k w).2 with rdata := (s.mbxRead ep k w).1.toNat } := by
  refine (onWin_reached reached _ _).trans ?_
  rw [winRead_in]

theorem exec_dbRing (n : Fin 32) (v : Word) : exec (.dbRing ep n v) s = .next (settle
    (if 19 ≤ n.val then s.raiseMbx F_MBX_ROUTE_ERR n 0 0 (s.epMaster ep) ep else s.ringDb n (v &&& 0x0FFFFFF0))) := by
  refine (onWin_reached reached _ _).trans ?_
  rw [winWrite_db]
  rfl

end

theorem exec_mbxAgeExpiry {s : State} {ep : Fin 19} {k : Fin 4} (posted : (s.inbox ep k).full = true)
    (first : (s.inbox ep k).agedOnce = false) (limit : s.rd MBX_AGE_LIMIT MBX_AGE_LIMIT_LIMIT ≠ 0) :
    let b := s.inbox ep k
    exec (.mbxAgeExpiry ep k) s =
      .next (settle ((((((s.setInbox ep k { b with aged := true, agedOnce := true }).setOstat b.sender b.chan 3).ringDb ep 0x80000000).ringDb
        b.sender 0x80000000).bump MBX_CNT MBX_CNT_AGED 1).raiseMbx F_MBX_AGED ep k 0 31 b.sender)) :=
  if_neg (by simp [posted, first, limit])

/-- Settles O43: an access that reaches an endpoint is the operation on its mailbox. -/
theorem mailboxesAndDoorbells : Obligations.MailboxesAndDoorbells := by
  intro s p ep c k w n v i to_ r d m len b away word
  refine ⟨fun reached => ?_, fun hears mode => ?_, fun hears => ⟨onMw0_hears hears _ _, fun split => ?_⟩,
    fun posted first limit => exec_mbxAgeExpiry posted first limit⟩
  · have send := exec_mbxSend reached c v
    have data := exec_mbxDataWrite reached c w v
    have read := exec_mbxInRead reached k w
    have ring := exec_dbRing reached n v
    refine ⟨fun on empty => ⟨fun least most => ?_, ?_⟩, fun on bad => ?_, fun off => ⟨?_, ?_⟩, fun posted beyond => ?_,
      fun posted last => ?_, fun stays => ?_, fun present => ?_, fun absent => ?_⟩
    · rw [send, mbxSend_posts (Eq.refl d) (Eq.refl m) on empty least most]
    · rw [data, mbxData_writes (Eq.refl d) (Eq.refl m) on empty]
    · rw [send, mbxSend_badLength (Eq.refl d) (Eq.refl m) on bad]
    · rw [send, mbxSend_disabled (Eq.refl d) off]
    · rw [data, mbxData_disabled (Eq.refl d) off]
    · rw [read, mbxRead_beyond posted beyond]
      rfl
    · rw [read, mbxRead_last posted last]
    · rw [read, mbxRead_stays stays]
    · rw [ring, if_neg (by omega)]
    · rw [ring, if_pos absent]
  · have routes : s.mode.routes = true := by
      rcases mode with m | m | m | m <;> rw [m] <;> rfl
    refine ⟨fun sound => ?_, fun bad => ?_⟩
    · exact (onMw0_hears hears _ _).trans ((if_neg (by simp [routes])).trans (if_neg (by simp [sound])))
    · exact (onMw0_hears hears _ _).trans ((if_neg (by simp [routes])).trans (if_pos bad))
  · exact (onMw0_hears hears _ _).trans (if_neg (by simp [split]))

end Sys2Proof.Machine
end

section
/-! Rings: binding, draining, doorbells, release and adoption (R456 to R505). -/

namespace Sys2Proof.Machine

section
variable {s : State} {p : Fin 2} {ring : Fin 512}

/-! ## Binding -/

theorem exec_ringBind (hears : s.hears p .hif = true) {v : Word} (enables : bitOf v.toNat 31 = true)
    (may : s.bonded = false ∨ p = 0) (disabled : (s.ring ring).state = .disabled) :
    exec (.ringBind p ring v) s = .next (settle ((s.regWrite (HIF_RING_CFG ring) v).bindRing p ring)) := by
  refine (onMw0_hears hears _ _).trans ((if_neg ?_).trans (if_neg (by simp [disabled])))
  rcases may with split | rfl
  · simp [enables, split]
  · simp [enables]

section
variable {t : State} {p r : Nat}

theorem bindRing_bad (bad : t.badBind p r = true) :
    t.bindRing p r = (t.wr (HIF_RING_CFG r) HIF_RING_CFG_EN 0).setRing r { t.ring r with err := 3 } :=
  if_pos bad

theorem bindRing_full (good : t.badBind p r = false) (full : t.ringLimit ≤ t.ringsUnder p) :
    t.bindRing p r = (t.wr (HIF_RING_CFG r) HIF_RING_CFG_EN 0).setRing r { t.ring r with err := 4 } :=
  (if_neg (by simp [good])).trans (if_pos full)

theorem bindRing_binds (good : t.badBind p r = false) (room : t.ringsUnder p < t.ringLimit) :
    t.bindRing p r = ((t.setRing r { Ring.reset with
      state := .active, port := p, waiting := (t.ring r).waiting, drops := (t.ring r).drops }).bootDone r).flushRsp 4096 r :=
  (if_neg (by simp [good])).trans (if_neg (not_le.mpr room))

theorem unbindRing_active (active : (t.ring r).state = .active) (own : (t.ring r).port = p) : t.unbindRing p r =
    ((t.setRing r { t.ring r with state := .draining, release := none }).dropFrx r).flushPosted r stFlushed := by
  unfold State.unbindRing
  dsimp only
  rw [active]
  exact if_pos (by simpa using own)

theorem unbindRing_disables (free : (t.ring r).state = .stopped ∧ (t.ring r).port = p ∨ (t.ring r).state = .orphaned) :
    t.unbindRing p r = (t.forgetRing r).disableRing r := by
  unfold State.unbindRing
  dsimp only
  rcases free with ⟨stopped, own⟩ | orphaned
  · rw [stopped]
    exact if_pos (by simpa using own)
  · rw [orphaned]

theorem unbindRing_other (held : (t.ring r).state = .active ∨ (t.ring r).state = .stopped) (other : (t.ring r).port ≠ p) :
    t.unbindRing p r = t.raise .hif F_HIF_CTX_WRITE [HIF_RING_CFG r, 20 + p, 5 + 16 * t.ringType r] := by
  unfold State.unbindRing
  dsimp only
  rcases held with active | stopped
  · rw [active]
    exact if_neg (by simpa using other)
  · rw [stopped]
    exact if_neg (by simpa using other)

end

theorem exec_ringUnbind (hears : s.hears p .hif = true) : exec (.ringUnbind p ring) s = .next (settle (s.unbindRing p ring)) :=
  onMw0_hears hears _ _

/-! ## Doorbell pages -/

section
variable {page : Fin 2} {base : BitVec 64}

theorem exec_dbBaseWrite (hears : s.hears p .hif = true) (own : p = page) (free : s.ringsUnder page = 0) :
    exec (.dbBaseWrite p page base) s =
      .next (s.setReg64 (HIF_DB_BASE page) (base.toNat / 4096 * 4096 + base.toNat % 2)) :=
  (onMw0_hears hears _ _).trans (if_neg (by simp [own, free]))

theorem exec_dbBaseWrite_refused (hears : s.hears p .hif = true) (refused : p ≠ page ∨ 0 < s.ringsUnder page) :
    exec (.dbBaseWrite p page base) s = .next (settle (s.raise .hif F_HIF_CTX_WRITE [HIF_DB_BASE page, 20 + p.val, 5])) :=
  (onMw0_hears hears _ _).trans (if_pos refused)

end

/-! ## Draining -/

section
variable (draining : (s.ring ring).state = .draining)
include draining

theorem exec_ringDrainDone (unbound : (s.ring ring).release = none)
    (done_ : (s.flushPosted ring stFlushed).ringDrained ring = true) :
    exec (.ringDrainDone ring) s = .next (settle ((s.flushPosted ring stFlushed).endDrain ring)) := by
  refine (if_neg (not_not.mpr draining)).trans ?_
  rw [unbound]
  exact if_pos done_

omit draining in
theorem endDrain_released {c : Nat} (released : (s.ring ring).release = some c) (other : c ≠ ring.val) : s.endDrain ring =
    (s.setRing ring { s.ring ring with state := .orphaned, release := none }).finish c 0x03 stOk 0 := by
  rw [State.endDrain, released]
  exact if_neg other

theorem exec_ringDrainDone_released {c : Nat} (released : (s.ring ring).release = some c) (other : c ≠ ring.val)
    (done_ : s.ringDrained ring = true) : exec (.ringDrainDone ring) s =
      .next (settle ((s.setRing ring { s.ring ring with state := .orphaned, release := none }).finish c 0x03 stOk 0)) := by
  refine (if_neg (not_not.mpr draining)).trans ?_
  rw [released, ← endDrain_released released other]
  exact if_pos done_

end

/-! ## Doorbells -/

theorem slotUpdate_producer {r : Nat} {w : Word} (producer : s.ringType r < 4) (new : bitsOf w.toNat 31 16 ≠ (s.ring r).seq) :
    let x := s.ring r
    s.slotUpdate r w = if (w.toNat % 65536 + 65536 - x.pidx) % 65536 ≤ (x.cidx + s.ringSize r + 65536 - x.pidx) % 65536 then
        s.setRing r { x with seq := bitsOf w.toNat 31 16, pidx := w.toNat % 65536 }
      else (s.setRing r { x with seq := bitsOf w.toNat 31 16 }).stopRing r 1 := by
  refine (if_neg new).trans ?_
  simp only [producer, decide_true, if_true]

theorem exec_doorbellPoll {w : Word} (reached : s.dmaOk p = true) (enabled : s.flag (HIF_DB_BASE p) HIF_DB_BASE_EN = true)
    (awake : s.mode ≠ .standby) (active : (s.ring ring).state = .active) (own : (s.ring ring).port = p.val) :
    exec (.doorbellPoll p [(ring, w)]) s = .next (settle (s.slotUpdate ring w)) :=
  (if_neg (by simp [reached, enabled, awake])).trans
    (congrArg (fun t => Host.Outcome.next (settle t)) (if_pos ⟨.inl active, own⟩))

/-! ## Moderation -/

theorem exec_msixModerationExpiry (busy : (s.ring ring).modBusy = true) : exec (.msixModerationExpiry ring) s =
    if (s.ring ring).modWait then .next (settle ((s.setRing ring { s.ring ring with modWait := false }).raiseVec (s.ring ring).port
        (s.rd (HIF_RING_CFG ring) HIF_RING_CFG_VEC)))
    else .next (s.setRing ring { s.ring ring with modBusy := false }) :=
  if_neg (by simp [busy])

end

/-! ## Adoption and release -/

section
variable {t : State} {ring : Nat} {p0 p1 p2 : BitVec 64} {bs : List Byte}

section
variable (params : adoptParams p0.toNat p2.toNat = true) {first n : Nat} (from_ : p0.toNat % 512 = first)
  (many : bitsOf p0.toNat 24 16 = n)
include params from_ many

theorem cmdRingAdopt_adopts (orphaned : ((List.range n).all fun k => (t.ring (first + k)).state == .orphaned) = true)
    (room : t.ringsUnder (t.ring ring).port + n ≤ t.ringLimit) : cmdRingAdopt ring p0 p1 p2 (some bs) t =
      (t.adoptAll (t.ring ring).port (adoptTable first n (p1 != 0) bs) (bitOf p0.toNat 32)).finish ring 0x02 stOk 0 := by
  subst from_ many
  have none : ((List.range (bitsOf p0.toNat 24 16)).any fun k => (t.ring (p0.toNat % 512 + k)).state != .orphaned) = false := by
    simpa [List.any_eq_false, List.all_eq_true] using orphaned
  exact (if_neg (by simp [params])).trans ((if_neg (by simp only [none]; decide)).trans (if_neg (not_lt.mpr room)))

theorem cmdRingAdopt_notOrphaned (held : ((List.range n).any fun k => (t.ring (first + k)).state != .orphaned) = true) :
    cmdRingAdopt ring p0 p1 p2 (some bs) t = t.finish ring 0x02 stNotOrphaned 0 := by
  subst from_ many
  exact (if_neg (by simp [params])).trans (if_pos held)

end

section
variable {r : Fin 512} (named : p0.toNat = r.val) (none1 : p1 = 0) (none2 : p2 = 0)
include named none1 none2

theorem cmdRingRelease_drains (active : (t.ring r).state = .active) (own : (t.ring r).port = (t.ring ring).port) (other : r.val ≠ ring) :
    cmdRingRelease ring p0 p1 p2 t = t.setRing r { t.ring r with state := .draining, release := some ring } := by
  have is : p0.toNat % 512 = r.val := by omega
  unfold cmdRingRelease
  dsimp only
  rw [is]
  exact (if_neg (by simp [none1, none2]; omega)).trans ((if_neg (by simp [active, own])).trans (if_neg other))

theorem cmdRingRelease_badState (inactive : (t.ring r).state ≠ .active) :
    cmdRingRelease ring p0 p1 p2 t = t.finish ring 0x03 stBadState 0 := by
  have is : p0.toNat % 512 = r.val := by omega
  unfold cmdRingRelease
  dsimp only
  rw [is]
  exact (if_neg (by simp [none1, none2]; omega)).trans (if_pos (.inl inactive))

end

end

/-- Settles O44: each write is decided by the state of its ring, and each command is its body on the state after it was taken. -/
theorem ringsAreBoundDrainedAndAdopted : Obligations.RingsAreBoundDrainedAndAdopted := by
  intro s p page ring r v w base p0 p1 p2 bs to_ u x t y refuse first n
  refine ⟨fun hears => ⟨fun enables may disabled => ?_, fun active own => ?_, fun free => ?_, fun held other => ?_,
      fun own free => exec_dbBaseWrite hears own free, fun refused => exec_dbBaseWrite_refused hears refused⟩,
    fun draining => ⟨fun unbound done_ => exec_ringDrainDone draining unbound done_,
      fun c released other done_ => exec_ringDrainDone_released draining released other done_⟩,
    fun reached enabled awake active own producer new => ?_,
    fun busy => ⟨fun waits => ?_, fun quiet => ?_⟩,
    fun takes => ⟨fun params => ⟨fun orphaned room => command_is takes (cmdRingAdopt_adopts params (Eq.refl first) (Eq.refl n) orphaned room),
        fun held => command_is takes (cmdRingAdopt_notOrphaned params (Eq.refl first) (Eq.refl n) held)⟩,
      fun named none1 none2 => ⟨fun active own other => ?_,
        fun inactive => command_is takes (cmdRingRelease_badState named none1 none2 inactive)⟩⟩⟩
  · have binds := exec_ringBind hears enables may disabled
    refine ⟨fun bad => ?_, fun good full => ?_, fun good room => ?_⟩
    · rw [binds, bindRing_bad bad]
    · rw [binds, bindRing_full good full]
    · rw [binds, bindRing_binds good room]
  · rw [exec_ringUnbind hears, unbindRing_active active own]
  · rw [exec_ringUnbind hears, unbindRing_disables free]
  · rw [exec_ringUnbind hears, unbindRing_other held other]
  · have poll := exec_doorbellPoll (w := w) reached enabled awake active own
    refine ⟨fun within => ?_, fun beyond => ?_⟩
    · rw [poll, slotUpdate_producer producer new, if_pos within]
    · rw [poll, slotUpdate_producer producer new, if_neg (not_le.mpr beyond)]
  · rw [exec_msixModerationExpiry busy, if_pos waits]
  · rw [exec_msixModerationExpiry busy, if_neg (by simp [show (s.ring ring).modWait = false from quiet])]
  · exact command_is takes (cmdRingRelease_drains named none1 none2 active own fun same => other (Fin.ext same))

end Sys2Proof.Machine
end

section
/-! Host ports and the descriptors of FTX, FRX, PDX and CMD rings (R449 to R497). -/

namespace Sys2Proof.Machine

/-! ## Host ports -/

section
variable {s : State} {p : Fin 2} (exists_ : s.noPort p = false)
include exists_

theorem exec_hostLinkDown (up : (s.port p).up = true) : exec (.hostLinkDown p) s =
    .next (settle (s.setPort p { s.port p with up := false, width := 0, speed := 0 })) :=
  if_neg (by simp [exists_, up])

theorem exec_hostBmeChange (up : (s.port p).up = true) (on : Bool) : exec (.hostBmeChange p on) s =
    .next (settle ((s.setPort p { s.port p with bme := on }).portBack p)) :=
  if_neg (by simp [exists_, up])

theorem exec_hostD3hotEntry (up : (s.port p).up = true) (awake : (s.port p).d3hot = false) : exec (.hostD3hotEntry p) s =
    .next (settle ((s.setPort p { s.port p with d3hot := true }).hostPortLost p)) :=
  if_neg (by simp [exists_, up, awake])

theorem exec_hostLinkUp (down : (s.port p).up = false) (released : (s.port p).perst = false)
    (clocked : (s.port p).clockFailed = false) (awake : s.mode ≠ .standby) {width speed : Fin 5}
    (lanes : width = 1 ∨ width = 2 ∨ width = 4) (rate : speed ≠ 0) : exec (.hostLinkUp p width speed) s =
      .next (settle ((s.setPort p { s.port p with
        up := true, lostBit := false, d3hot := false, width := width, speed := speed }).portBack p)) := by
  have some_ : speed.val ≠ 0 := fun zero => rate (Fin.ext zero)
  refine if_neg ?_
  rcases lanes with rfl | rfl | rfl <;> simp [exists_, down, released, clocked, awake, some_]

theorem exec_hifPerst_low (high : (s.port p).perst = false) : exec (.hifPerst p true) s = .next (settle (s.setPort p { s.port p with
    perst := true, up := false, width := 0, speed := 0, bme := false, d3hot := false, msix := [], pba := [] })) :=
  (if_neg (by simp [exists_, high])).trans (if_pos rfl)

theorem exec_hifPerst_high (low : (s.port p).perst = true) :
    exec (.hifPerst p false) s = .next (s.setPort p { s.port p with perst := false }) :=
  (if_neg (by simp [exists_, low])).trans (if_neg (by decide))

end

theorem exec_hostPortLost {s : State} {p : Fin 2} (dead : (s.port p).up = false ∨ (s.port p).bme = false) :
    exec (.hostPortLost p) s = .next (settle (s.hostPortLost p)) := by
  refine if_neg ?_
  rcases dead with down | masterOff
  · simp [down]
  · simp [masterOff]

section
variable {s : State} {ring : Fin 512}

/-! ## FTX -/

section
variable {descs : List (BitVec 64 × BitVec 64)} {data : List Byte} {d e : BitVec 64 × BitVec 64}
  (work : s.hasWork ring 0 = true) (first : (ftxChain descs).head? = some d) (last : (ftxChain descs).getLast? = some e)
  (ends : bitOf e.2.toNat 14 = false) (posted : (ftxChain descs).length ≤ s.posted ring)
include work first last ends posted

theorem exec_ftxFrame :
    let chain := ftxChain descs
    let len := sumOf (chain.map ftxLen)
    let idx := s.nextIdx ring chain.length
    let t := s.ringStart ring chain.length
    let bs := ftxBytes (bitOf d.2.toNat 15) data
    exec (.ftxFrame ring descs data none) s =
      if ftxBad chain d.2.toNat len then .next (settle (t.chainDone ring idx stBadDesc))
      else if data.length ≠ len then .next s
      else if !t.admitRing ring (cellsOf bs.length) then .next (settle (t.chainDone ring idx stQuota))
      else .next (settle (t.ftxSend ring idx d.2.toNat bs none)) := by
  show execFtxFrame ring descs data none s = _
  unfold execFtxFrame
  dsimp only
  rw [first, last]
  exact if_neg (by simp [work, ends, posted])

end

/-! ## FRX -/

section
variable {fid : Nat} {rest : List Nat} {f : Frame} (queued : s.frxQ ring = fid :: rest) (frame : s.frame fid = some f)
include queued frame

theorem exec_frxFrameDeliver_bad (bad : f.bad = true) (descs : List (BitVec 64 × BitVec 64)) :
    exec (.frxFrameDeliver ring descs) s = .next (settle ((s.setFrxQ ring rest).collect fid)) := by
  show execFrxFrameDeliver ring descs s = _
  rw [execFrxFrameDeliver, queued]
  dsimp only
  rw [frame]
  exact if_pos bad

variable (good : f.bad = false) (work : s.hasWork ring 1 = true) (posted : 1 ≤ s.posted ring) {q0 q1 : BitVec 64}
include good work posted

theorem exec_frxFrameDeliver_badDesc (malformed : frxLen (q0, q1) = none) : exec (.frxFrameDeliver ring [(q0, q1)]) s =
    .next (settle ((s.ringStart ring 1).chainDone ring (s.nextIdx ring 1) stBadDesc)) := by
  show execFrxFrameDeliver ring [(q0, q1)] s = _
  rw [execFrxFrameDeliver, queued]
  dsimp only
  rw [frame]
  exact (if_neg (by simp [good])).trans ((if_neg (by simp [work]; omega)).trans (if_pos (by simp [malformed])))

omit queued frame good work posted in
/-- A buffer that holds the whole frame takes it. -/
theorem frxWrite_whole (u : State) {k : Nat} (fits : f.bytes.length ≤ k) (i addr : Nat) : u.frxWrite ring f [(i, addr, k)] f.bytes =
    (u.emit (.hostData (u.ring ring).port addr f.bytes)).ringComplete ring i stOk (frxInfo f false f.bytes.length) f.tsNs := by
  simp [State.frxWrite, List.take_of_length_le fits, List.drop_of_length_le fits, Nat.min_eq_right fits]

theorem exec_frxFrameDeliver {k : Nat} (buffer : frxLen (q0, q1) = some k) (some_ : 0 < f.bytes.length) (fits : f.bytes.length ≤ k) :
    let u := s.ringStart ring 1
    exec (.frxFrameDeliver ring [(q0, q1)]) s = .next (settle ((((u.emit (.hostData (u.ring ring).port q0.toNat f.bytes)).ringComplete
      ring ((s.ring ring).cidx % 65536) stOk (frxInfo f false f.bytes.length) f.tsNs).setFrxQ ring rest).collect fid)) := by
  have need : frxNeed [k] f.bytes.length 0 = some 1 := by
    obtain ⟨m, hm⟩ := Nat.exists_eq_succ_of_ne_zero some_.ne'
    simp only [hm, frxNeed]
    rw [if_neg (by decide), show m.succ - k = 0 by omega, frxNeed]
  show execFrxFrameDeliver ring [(q0, q1)] s = _
  rw [execFrxFrameDeliver, queued]
  dsimp only
  rw [frame]
  refine (if_neg (by simp [good])).trans ((if_neg (by simp [work]; omega)).trans ((if_neg (by simp [buffer])).trans ?_))
  simp only [List.takeWhile, buffer, Option.isSome_some, List.filterMap, need]
  rw [← frxWrite_whole (s.ringStart ring 1) fits]
  simp only [State.nextIdx, List.range_one, List.map_cons, List.map_nil, List.take_succ_cons, List.take_zero, List.zip_cons_cons,
    List.zip_nil_right, buffer, Option.getD_some, Nat.add_zero]
  rfl

end

/-! ## PDX -/

section
variable {q0 q1 q2 q3 : BitVec 64} {data : List Byte} (work : s.hasWork ring 2 = true)
include work

theorem exec_pdxTransfer_bad (bad : pdxBad q0.toNat q1.toNat q2.toNat q3.toNat = true) : exec (.pdxTransfer ring q0 q1 q2 q3 data none) s =
    .next (settle ((s.ringStart ring 1).ringComplete ring (s.ring ring).cidx stBadDesc 0 0)) :=
  (if_neg (by simp [work])).trans (if_pos bad)

variable (good : pdxBad q0.toNat q1.toNat q2.toNat q3.toNat = false)
include good

theorem exec_pdxTransfer_denied (denied : s.mayAccess (s.pdxOwner ring) (bitsOf q1.toNat 23 18) = some false) :
    exec (.pdxTransfer ring q0 q1 q2 q3 data none) s = .next (settle (((s.ringStart ring 1).nonOwner (20 + (s.ring ring).port)
      (bitsOf q1.toNat 23 18) (bitsOf q1.toNat 40 24 / 8) (!bitOf q1.toNat 17) 8).ringComplete ring (s.ring ring).cidx stNotOwner 0 0)) := by
  refine (if_neg (by simp [work])).trans ((if_neg (by simp [good])).trans ?_)
  dsimp only
  rw [denied]
  rfl

variable (owns : s.mayAccess (s.pdxOwner ring) (bitsOf q1.toNat 23 18) = some true)
include owns

theorem exec_pdxTransfer_out (out : bitOf q1.toNat 17 = true) : exec (.pdxTransfer ring q0 q1 q2 q3 data none) s =
    (let r := (s.ringStart ring 1).pdxOut (20 + (s.ring ring).port) (s.pdxOwner ring) (bitsOf q1.toNat 23 18) (bitsOf q1.toNat 40 24)
      none (bitsOf q1.toNat 16 0 / 8)
    .next (settle ((r.2.emit (.hostData (s.ring ring).port q0.toNat r.1)).ringComplete ring (s.ring ring).cidx stOk
      (bitsOf q1.toNat 16 0) 0))) := by
  refine (if_neg (by simp [work])).trans ((if_neg (by simp [good])).trans ?_)
  dsimp only
  rw [owns]
  exact if_pos out

theorem exec_pdxTransfer_in (into : bitOf q1.toNat 17 = false) (whole : data.length = bitsOf q1.toNat 16 0) :
    exec (.pdxTransfer ring q0 q1 q2 q3 data none) s = .next (settle (((s.ringStart ring 1).pdxIn (20 + (s.ring ring).port)
      (s.pdxOwner ring) (bitsOf q1.toNat 23 18) (bitsOf q1.toNat 40 24) (wordsOf (bitsOf q1.toNat 16 0 / 8) data)).ringComplete
      ring (s.ring ring).cidx stOk (bitsOf q1.toNat 16 0) 0)) := by
  refine (if_neg (by simp [work])).trans ((if_neg (by simp [good])).trans ?_)
  dsimp only
  rw [owns]
  exact (if_neg (by simp [into])).trans (if_neg (by simpa using whole))

end

/-! ## Failed reads -/

section
variable {p : Fin 2} {addr : BitVec 64} {size : Fin 4097}

theorem exec_dmaReadError_port (reached : s.dmaOk p = true) (fetched : Bool) :
    exec (.dmaReadError p none fetched addr size) s = .next (settle (s.dmaError p addr.toNat size)) :=
  if_pos reached

variable (own : (s.ring ring).port = p.val)
include own

theorem exec_dmaReadError_data
    (work : (s.hasWork ring 0 = true ∧ s.ringType ring = 0) ∨ (s.hasWork ring 2 = true ∧ s.ringType ring = 2)) :
    exec (.dmaReadError p (some ring) true addr size) s = .next (settle ((((s.dmaError p addr.toNat size).ringStart ring 1).ringComplete
      ring (s.ring ring).cidx stDmaErr 0 0).stopRing ring 2)) := by
  rcases work with ⟨work, type⟩ | ⟨work, type⟩
  · exact (if_neg (by simp [own, type, work])).trans (if_pos (by simp [type]))
  · exact (if_neg (by simp [own, type, work])).trans (if_pos (by simp [type]))

theorem exec_dmaReadError_desc (work : s.hasWork ring (s.ringType ring) = true) (type : s.ringType ring ≤ 3) :
    exec (.dmaReadError p (some ring) false addr size) s = .next (settle ((s.dmaError p addr.toNat size).stopRing ring 2)) :=
  (if_neg (by simp [own, work]; omega)).trans ((if_neg (by simp)).trans (if_neg (by decide)))

end

/-! ## Commands -/

section
variable {p0 p1 p2 : BitVec 64} {dma : Option (List Byte)} {readOk : Bool} {high : BitVec 8} {c : Nat} (beyond : 0xC0 ≤ c)
include beyond

theorem cmdHost_beyond : cmdHost s ring c p0 p1 p2 dma = none := by
  unfold cmdHost
  split
  case h_10 => rfl
  all_goals omega

theorem cmdSlots_beyond : cmdSlots s ring c p0 p1 p2 dma readOk = none := by
  unfold cmdSlots
  split
  case h_13 => rfl
  all_goals omega

theorem cmdBlocks_beyond : cmdBlocks s ring c p0 p1 p2 dma = none := by
  unfold cmdBlocks
  split
  case h_13 => rfl
  all_goals omega

theorem cmdSafety_beyond : cmdSafety s ring c p0 p1 p2 dma high = none := by
  unfold cmdSafety
  split
  case h_9 => rfl
  all_goals omega

end

theorem exec_commandTake_unknown {p0 p1 p2 : BitVec 64} {dma : Option (List Byte)} {readOk : Bool} {high code : BitVec 8}
    (beyond : 0xC0 ≤ code.toNat) : exec (.commandTake ring code p0 p1 p2 dma readOk high) s =
      .next (settle (cmdUnknown s ring code.toNat)) := by
  show execCommandTake ring code p0 p1 p2 dma readOk high s = _
  rw [execCommandTake, cmdHost_beyond beyond, cmdSlots_beyond beyond, cmdBlocks_beyond beyond, cmdSafety_beyond beyond]
  rfl

theorem command_ejecting {code : Nat} {modes : Mode → Bool} {body : State → State} (may : s.canTake ring = true)
    (ejecting : s.ejecting = true) : s.command ring code modes body = (s.take ring).finish ring 0 stEjected 0 :=
  (if_neg (by simp [may])).trans (if_pos ejecting)

end

/-- Settles O45: each event is decided by the state of its port or ring, and a command by its code is that command. -/
theorem hostPortsAndDescriptors : Obligations.HostPortsAndDescriptors := by
  intro s p ring width speed on readOk q0 q1 q2 q3 p0 p1 p2 addr code high size descs data dma to_ h x u
  refine ⟨fun exists_ => ⟨fun up => ⟨exec_hostLinkDown exists_ up, exec_hostBmeChange exists_ up on, exec_hostD3hotEntry exists_ up⟩,
      fun down released clocked awake lanes rate => exec_hostLinkUp exists_ down released clocked awake lanes rate,
      exec_hifPerst_low exists_, exec_hifPerst_high exists_⟩,
    exec_hostPortLost, fun work => ?_,
    fun fid rest f queued frame => ⟨fun bad => exec_frxFrameDeliver_bad queued frame bad descs,
      fun good work posted => ⟨exec_frxFrameDeliver_badDesc queued frame good work posted,
        fun k buffer some_ fits => exec_frxFrameDeliver queued frame good work posted buffer some_ fits⟩⟩,
    fun work => ⟨exec_pdxTransfer_bad work, fun good => ⟨exec_pdxTransfer_denied work good, exec_pdxTransfer_out work good,
      exec_pdxTransfer_in work good⟩⟩,
    fun reached => exec_dmaReadError_port reached on,
    fun own => ⟨exec_dmaReadError_data own, exec_dmaReadError_desc own⟩,
    ⟨Eq.refl _, Eq.refl _, Eq.refl _, Eq.refl _, Eq.refl _, Eq.refl _, Eq.refl _, Eq.refl _, Eq.refl _, Eq.refl _, Eq.refl _⟩,
    fun takes beyond => ?_, fun may ejecting beyond => ?_⟩
  · intro chain n len d e first last ends posted bs t
    have frame := exec_ftxFrame (data := data) work first last ends posted
    refine ⟨fun bad => ?_, fun good whole => ⟨fun refused => ?_, fun admitted => ?_⟩⟩
    · exact frame.trans (if_pos bad)
    · exact frame.trans ((if_neg (by simp only [chain, len] at good; simp [good])).trans
        ((if_neg (not_not.mpr whole)).trans (if_pos (by simpa using refused))))
    · exact frame.trans ((if_neg (by simp only [chain, len] at good; simp [good])).trans
        ((if_neg (not_not.mpr whole)).trans (if_neg (by simpa using admitted))))
  · exact (exec_commandTake_unknown beyond).trans (congrArg (fun t => Host.Outcome.next (settle t)) (command_takes takes))
  · exact (exec_commandTake_unknown beyond).trans
      (congrArg (fun t => Host.Outcome.next (settle t)) (command_ejecting may ejecting))

end Sys2Proof.Machine
end

section
/-! The Ethernet MACs: search, link, reception and transmission (R516 to R573). -/

namespace Sys2Proof.Machine

section
variable {s : State} {n : Fin 16}

/-! ## Control -/

section
variable {p : Fin 2} (hears : s.hears p (.mac n) = true)
include hears

theorem exec_macEnable_on (off : s.macEn n = false) :
    exec (.macEnable p n true) s = .next (settle ((s.wr (MAC_CTRL n) MAC_CTRL_EN 1).startSearch n)) := by
  refine (onMw0_hears hears _ _).trans (congrArg (fun t => Host.Outcome.next (settle t)) ?_)
  exact (if_neg (by simp [off])).trans (if_pos rfl)

theorem exec_macEnable_off (on : s.macEn n = true) : exec (.macEnable p n false) s =
    .next (settle ((((s.linkLost n).endSending n false).wr (MAC_CTRL n) MAC_CTRL_EN 0).startSearch n)) := by
  refine (onMw0_hears hears _ _).trans (congrArg (fun t => Host.Outcome.next (settle t)) ?_)
  exact (if_neg (by simp [on])).trans (if_neg (by decide))

theorem exec_macReneg (on : s.macEn n = true) (sound : s.portDown n = false) :
    exec (.macReneg p n) s = .next (settle ((s.linkLost n).startSearch n)) := by
  refine (onMw0_hears hears _ _).trans (congrArg (fun t => Host.Outcome.next (settle t)) ?_)
  exact if_pos (by simp [on, sound])

end

/-! ## Search -/

section
variable (searching : s.searching n = true)
include searching

section
variable (parallel : s.flag (MAC_MODE n) MAC_MODE_AN73 = false)
include parallel

theorem exec_negDwellExpiry_tries :
    exec (.negDwellExpiry n false) s = .next (settle (s.tryMode n (nextMode (s.allowed n) (s.mac n).trying))) := by
  refine (if_neg (by simp [searching])).trans ((if_neg (by decide)).trans ?_)
  rw [parallel]
  rfl

theorem exec_negModeSwitch {other : Nat} (met : (s.mac n).trying = 1 ∧ other = 2 ∨ (s.mac n).trying = 5 ∧ other = 4)
    (allowed : (s.allowed n).contains other = true) : exec (.negModeSwitch n) s = .next (settle (s.tryMode n other)) := by
  have is : (if (s.mac n).trying = 1 then 2 else if (s.mac n).trying = 5 then 4 else 0) = other := by
    rcases met with ⟨mode, rfl⟩ | ⟨mode, rfl⟩
    · rw [if_pos mode]
    · rw [if_neg (by omega), if_pos mode]
  show execNegModeSwitch n s = _
  unfold execNegModeSwitch
  dsimp only
  rw [is]
  exact if_pos (by simp only [searching, parallel, allowed]; rfl)

theorem exec_linkUp_tried {mode rate : Fin 8} {fec : Bool} {word : BitVec 16} (mode4 : (s.mac n).trying ≠ 4)
    (allowed : (s.allowed n).contains (s.mac n).trying = true) (fits : rateOk (s.mac n).trying rate = true) :
    exec (.linkUp n mode rate fec word) s = .next (settle (s.linkCame n (s.mac n).trying rate false word.toNat)) := by
  have four : ((s.mac n).trying == 4) = false := beq_eq_false_iff_ne.mpr mode4
  show execLinkUp n mode rate fec word s = _
  unfold execLinkUp
  dsimp only
  rw [parallel]
  simp only [Bool.false_eq_true, if_false, mode4, decide_false, Bool.false_and, searching, allowed, fits, Bool.not_false, Bool.true_or,
    Bool.and_true, Bool.and_false]
  rfl

end

section
variable (negotiates : s.flag (MAC_MODE n) MAC_MODE_AN73 = true)
include negotiates

theorem exec_negDwellExpiry_negotiating : exec (.negDwellExpiry n false) s = .next (settle s) := by
  refine (if_neg (by simp [searching])).trans ((if_neg (by decide)).trans ?_)
  rw [negotiates]
  rfl

theorem exec_negDwellExpiry_fails (first : (s.mac n).negFail = false) :
    let t := s.wr (MAC_STAT n) MAC_STAT_RESULT 2
    exec (.negDwellExpiry n true) s =
      .next (settle ((t.setMac n { t.mac n with negFail := true }).raise (.mac n) F_MAC_NEG_FAIL (s.macCaps n))) := by
  refine (if_neg (by simp [searching])).trans ((if_pos rfl).trans ((if_neg (by simp [first])).trans ?_))
  rw [negotiates]
  rfl

end

end

/-! ## Failures -/

theorem exec_macParityFail (sound : s.portDown n = false) : exec (.macParityFail n) s =
    if (match (s.mac n).parityAt with | some t => decide (s.now < t + 1000000000) | none => false) then
      .next (settle ((s.setMac n { s.mac n with parityAt := some s.now }).macFail n))
    else .next (settle ((s.setMac n { s.mac n with parityAt := some s.now }).portReset n)) :=
  if_neg (by simp [sound])

/-! ## Reception -/

section
variable {bs : List Byte} {code : Bool} {ecc : Option (Nat × Ecc)}

theorem exec_rxFrame (up : s.linkUp n = true) (aborted : Bool) : exec (.rxFrame n bs aborted code ecc) s =
    .next (settle (s.rxFrame n bs aborted code ecc)) :=
  if_neg (by simp [up])

theorem rxFrame_long (long : 9216 < bs.length) : s.rxFrame n bs false code ecc = s.macErr n 4 := by
  have kind : s.rxKind n bs false code = some (4, false) := by
    simp only [State.rxKind, long, if_true, Bool.false_eq_true, if_false]
  rw [State.rxFrame, kind]
  exact (if_neg (by simp)).trans (if_pos (by simp [long]))

section
variable (good : s.rxKind n bs false code = none)
include good

theorem rxFrame_pause {x : Nat} (control : etherType (s.rd (MAC_VLAN n) MAC_VLAN_TPID) bs = 0x8808)
    (pause : pauseTime (s.rd (MAC_VLAN n) MAC_VLAN_TPID) bs = some x) (honoured : s.flag (MAC_CFG n) MAC_CFG_PAUSE_RX = true) :
    let t := (s.countFrame n 0 bs).macErr n 9
    s.rxFrame n bs false code ecc = t.setMac n { t.mac n with paused := x != 0 } := by
  rw [State.rxFrame, good]
  dsimp only
  rw [if_pos control, pause]
  exact if_pos honoured

theorem rxFrame_admits (plain : etherType (s.rd (MAC_VLAN n) MAC_VLAN_TPID) bs ≠ 0x8808) (any : s.rd (MAC_CFG n) MAC_CFG_ACCEPT = 0)
    (single : s.redRole n = 0) (unpaired : (s.countFrame n 0 bs).pairOf n = none) :
    s.rxFrame n bs false code ecc = (s.countFrame n 0 bs).admitRx n bs false ecc := by
  have new : (s.countFrame n 0 bs).duplicate n (s.rd (MAC_VLAN n) MAC_VLAN_TPID) (body bs) = (false, s.countFrame n 0 bs) := by
    rw [State.duplicate, unpaired]
  rw [State.rxFrame, good]
  dsimp only
  rw [if_neg plain, any, single]
  simp [new]

end

end

/-! ## Transmission -/

theorem exec_txFrameStart {q : Nat} (up : s.linkUp n = true) (free : (s.mac n).sending = none) (may : (s.mac n).paused = false)
    (next : s.nextQueue n = some q) (drift : Int) : exec (.txFrameStart n drift) s = .next (settle (s.startFrame n q drift)) := by
  refine (if_neg (by simp [up, free, may])).trans ?_
  rw [next]
  rfl

section
variable {x : Sending} (sending : (s.mac n).sending = some x)
include sending

theorem endFrame_unsound {f : Frame} (frame : s.frame x.fid = some f) : s.endFrame n true =
    ((s.setFrame x.fid (some { f with bad := true })).endSending n true).raise .mem F_MEM_UE [] := by
  rw [State.endFrame, sending]
  refine (if_pos rfl).trans ?_
  dsimp only
  rw [frame]

theorem endFrame_plain {t : State} (counted : (s.emit (.frame n x.bytes false)).countFrame n 4 x.bytes = t) {f : Frame}
    (frame : (t.setMac n { t.mac n with sending := none }).frame x.fid = some f) (unreported : f.report = none)
    (unstamped : f.txSlot = none) : s.endFrame n false = (t.setMac n { t.mac n with sending := none }).collect x.fid := by
  rw [State.endFrame, sending]
  refine (if_neg (by decide)).trans ?_
  dsimp only
  rw [counted, frame]
  dsimp only
  rw [unreported, unstamped]

end

end

/-! ## Counters -/

section
variable {t : State} {ring : Nat} {p0 p1 : BitVec 64} (hardware : t.rd (WADI_FUNC 7) WADI_FUNC_CUR ≠ 1)
include hardware

theorem cmdMacCntRead_writes (port : p0.toNat < 16) : cmdMacCntRead ring p0 p1 t = (t.accumulate p0.toNat).writeHost ring 0x80 p1.toNat
    (((List.range 8).map fun i => leBytes 8 (SMap.get (fun _ => 0) ((t.accumulate p0.toNat).mac p0.toNat).totals i)).flatten) t.now :=
  (if_neg hardware).trans (if_neg (not_le.mpr port))

theorem cmdMacCntRead_badParam (none : 16 ≤ p0.toNat) : cmdMacCntRead ring p0 p1 t = t.finish ring 0x80 stBadParam 0 :=
  (if_neg hardware).trans (if_pos none)

end

/-- Settles O46: each event is decided by the search and the link of its port. -/
theorem macCommandsAndFrames : Obligations.MacCommandsAndFrames := by
  intro s p n ring mode rate fec code word bs ecc drift p0 p1 to_ m u an
  refine ⟨fun hears => ⟨exec_macEnable_on hears, fun on => ⟨exec_macEnable_off hears on, exec_macReneg hears on⟩,
      onMw0_hears hears _ _⟩,
    fun searching => ⟨fun parallel => ⟨exec_negDwellExpiry_tries searching parallel,
        fun mode allowed => exec_negModeSwitch searching parallel (.inl ⟨mode, rfl⟩) allowed,
        fun mode allowed => exec_negModeSwitch searching parallel (.inr ⟨mode, rfl⟩) allowed,
        fun mode allowed fits => exec_linkUp_tried searching parallel mode allowed fits⟩,
      fun negotiates => ⟨exec_negDwellExpiry_negotiating searching negotiates,
        fun first => exec_negDwellExpiry_fails searching negotiates first⟩⟩,
    fun up => if_neg (by simp [up]), fun sound => ⟨if_neg (by simp [sound]), fun new => ?_, fun x last soon => ?_, fun x last later => ?_⟩,
    fun up => ⟨fun drops long => ?_, fun good => ⟨fun x control pause honoured => ?_, fun plain any single unpaired => ?_⟩⟩,
    Eq.refl _, fun q up free may next => exec_txFrameStart up free may next drift,
    fun x sending => ⟨fun f frame => ?_, fun f frame unreported unstamped => ?_⟩,
    fun hardware => if_neg hardware,
    fun takes hardware => ⟨fun port => command_is takes (cmdMacCntRead_writes hardware port),
      fun none => command_is takes (cmdMacCntRead_badParam hardware none)⟩⟩
  · rw [exec_macParityFail sound, new]
    rfl
  · rw [exec_macParityFail sound, last]
    exact if_pos (decide_eq_true soon)
  · rw [exec_macParityFail sound, last]
    exact if_neg (by simpa using later)
  · rw [exec_rxFrame up, rxFrame_long long]
  · rw [exec_rxFrame up, rxFrame_pause good control pause honoured]
  · rw [exec_rxFrame up, rxFrame_admits good plain any single unpaired]
  · exact congrArg (fun t => Host.Outcome.next (settle t)) (endFrame_unsound sending frame)
  · exact congrArg (fun t => Host.Outcome.next (settle t)) (endFrame_plain sending (Eq.refl _) frame unreported unstamped)

end Sys2Proof.Machine
end

section
/-! The forwarding table, fences, port removal and gates of the switch core (R588 to R615). -/

namespace Sys2Proof.Machine

section
variable {t : State} {ring : Nat} {p0 p1 p2 : BitVec 64} {bs : List Byte}

/-! ## The forwarding table -/

/-- The key of an entry (R588). -/
def entKey (e : BitVec 256) : Key := ⟨entF e 254 252, entF e 127 0⟩

/-- An entry whose key stands, or finds a free candidate, takes that place. -/
theorem place_fits {e : BitVec 256} {i : Nat} (at_ : t.exactHit (entKey e) = some i ∨ t.exactHit (entKey e) = none ∧
      ((t.candidates (entKey e).key).filter fun i => !t.subLost i).find? (fun i => !entValid (t.fctAt i)) = some i) :
    t.place e = (some i, (t.setFct i e).setShadow i e) := by
  show (match t.exactHit (entKey e) with | some i => _ | none => _) = _
  rcases at_ with hit | ⟨miss, free⟩
  · rw [hit]
  · rw [miss]
    show (match ((t.candidates (entKey e).key).filter fun i => !t.subLost i).find? (fun i => !entValid (t.fctAt i)) with
      | some i => _ | none => _) = _
    rw [free]

theorem cmdFctAdd_hardware (hardware : t.rd (WADI_FUNC 2) WADI_FUNC_CUR = 0) : cmdFctAdd ring p0 (some bs) t =
    if entReserved true (entOf bs) || !entValid (entOf bs) then t.finish ring 0x81 stBadParam 0
    else match t.place (entOf bs) with
      | (some i, t1) => t1.finish ring 0x81 stOk i
      | (none, t1) => t1.finish ring 0x81 stTableFull 0 :=
  if_neg (by omega)

theorem cmdFctAdd_takes (hardware : t.rd (WADI_FUNC 2) WADI_FUNC_CUR = 0) (sound : entReserved true (entOf bs) = false)
    (valid : entValid (entOf bs) = true) {i : Nat} (at_ : t.exactHit (entKey (entOf bs)) = some i ∨
      t.exactHit (entKey (entOf bs)) = none ∧
        ((t.candidates (entKey (entOf bs)).key).filter fun i => !t.subLost i).find? (fun i => !entValid (t.fctAt i)) = some i) :
    cmdFctAdd ring p0 (some bs) t = ((t.setFct i (entOf bs)).setShadow i (entOf bs)).finish ring 0x81 stOk i := by
  rw [cmdFctAdd_hardware hardware, if_neg (by simp [sound, valid]), place_fits at_]

theorem cmdFctDel_hardware (hardware : t.rd (WADI_FUNC 2) WADI_FUNC_CUR = 0) : cmdFctDel ring p0 (some bs) t =
    match t.exactHit (entKey (entOf bs)) with
    | some i => ((t.setFct i 0).setShadow i 0).finish ring 0x82 stOk i
    | none => t.finish ring 0x82 stNoEntry 0 :=
  if_neg (by omega)

theorem cmdFctWrite_exact (host : t.rd (WADI_FUNC 2) WADI_FUNC_CUR = 1) (index : p0.toNat < 32768)
    (sound : entReserved true (entOf bs) = false) :
    cmdFctWrite ring p0 p1 (some bs) t = (t.setFct p0.toNat (entOf bs)).finish ring 0x84 stOk p0.toNat := by
  refine (if_neg (by omega)).trans ((if_neg (by omega)).trans ((if_neg ?_).trans (if_pos index)))
  rw [decide_eq_true index, sound]
  decide

theorem cmdFctWrite_ternary (first : 32768 ≤ p0.toNat) (last : p0.toNat < 33792) (sound : entReserved false (entOf bs) = false) :
    cmdFctWrite ring p0 p1 (some bs) t =
      (t.setTern (p0.toNat - 32768) (entOf bs, BitVec.ofNat 128 (ofLe (slice bs 32 16)))).finish ring 0x84 stOk p0.toNat := by
  refine (if_neg (by omega)).trans ((if_neg (by omega)).trans ((if_neg ?_).trans (if_neg (by omega))))
  rw [decide_eq_false (not_lt.mpr first), sound]
  decide

/-! ## Fences -/

theorem startFence_starts (cmd : Option Nat) (idle : t.flag SWC_FCT_FENCE SWC_FCT_FENCE_BUSY = false)
    (free : t.genCount ((t.rd SWC_FCT_FENCE SWC_FCT_FENCE_GEN + 1) % 16) = 0) : t.startFence cmd =
      (false, ({ t with swc := { t.swc with fenceCmd := cmd } }.wr SWC_FCT_FENCE SWC_FCT_FENCE_GEN
        (t.rd SWC_FCT_FENCE SWC_FCT_FENCE_GEN + 1)).wr SWC_FCT_FENCE SWC_FCT_FENCE_BUSY 1) :=
  if_neg (by simp [idle, free])

theorem startFence_busy (cmd : Option Nat) (busy : t.flag SWC_FCT_FENCE SWC_FCT_FENCE_BUSY = true) :
    t.startFence cmd = (true, t.wr SWC_FCT_FENCE SWC_FCT_FENCE_RESULT 3) :=
  if_pos (by simp [busy])

theorem cmdFctFence_starts (idle : t.flag SWC_FCT_FENCE SWC_FCT_FENCE_BUSY = false)
    (free : t.genCount ((t.rd SWC_FCT_FENCE SWC_FCT_FENCE_GEN + 1) % 16) = 0) : cmdFctFence ring t =
      ({ t with swc := { t.swc with fenceCmd := some ring } }.wr SWC_FCT_FENCE SWC_FCT_FENCE_GEN
        (t.rd SWC_FCT_FENCE SWC_FCT_FENCE_GEN + 1)).wr SWC_FCT_FENCE SWC_FCT_FENCE_BUSY 1 := by
  rw [cmdFctFence, startFence_starts (some ring) idle free]

theorem cmdFctFence_busy (busy : t.flag SWC_FCT_FENCE SWC_FCT_FENCE_BUSY = true) :
    let u := t.wr SWC_FCT_FENCE SWC_FCT_FENCE_RESULT 3
    cmdFctFence ring t = u.finish ring 0x85 stBusy u.fenceValue := by
  rw [cmdFctFence, startFence_busy (some ring) busy]

end

/-! ## Sub-arrays, port removal and gates -/

section
variable {s : State} {n : Fin 16}

theorem exec_fctSubarrayRemap {c : SubCopy} (copied : s.swc.subCopy = some c) : exec .fctSubarrayRemap s = .next (settle { s with
    swc := { s.swc with
      subCopy := none, subMap := SMap.set id s.swc.subMap c.sub c.spare, subBad := s.swc.subBad ++ [s.subPhys c.sub] },
    nvm := { s.nvm with subMaps := s.nvm.subMaps ++ [(c.sub, c.spare)] } }) := by
  show execFctSubarrayRemap s = _
  rw [execFctSubarrayRemap, copied]
  rfl

section
variable (enabled : s.flag (SWC_GATE_CFG n) SWC_GATE_CFG_EN = true)
include enabled

theorem exec_gateCycleStart (alone : s.flag (SWC_GATE_CFG n) SWC_GATE_CFG_PEND = false) :
    exec (.gateCycleStart n) s = .next (settle (s.setGate n (s.gateEntry n 0))) := by
  refine (if_neg (by simp [enabled])).trans ?_
  rw [alone]
  rfl

theorem exec_gateCycleStart_switches (pending : s.flag (SWC_GATE_CFG n) SWC_GATE_CFG_PEND = true) :
    let t := (s.wr (SWC_GATE_CFG n) SWC_GATE_CFG_ACTIVE (1 - s.rd (SWC_GATE_CFG n) SWC_GATE_CFG_ACTIVE)).wr (SWC_GATE_CFG n)
      SWC_GATE_CFG_PEND 0
    exec (.gateCycleStart n) s = .next (settle (t.setGate n (t.gateEntry n 0))) := by
  refine (if_neg (by simp [enabled])).trans ?_
  rw [pending]
  rfl

theorem exec_gateEntryChange (running : (s.gate n).running = true)
    (more : (s.gate n).entry + 1 < (s.gateList n (s.rd (SWC_GATE_CFG n) SWC_GATE_CFG_ACTIVE)).length) :
    exec (.gateEntryChange n) s = .next (settle (s.setGate n (s.gateEntry n ((s.gate n).entry + 1)))) :=
  if_pos (by simp [enabled, running, more])

end

end

/-- Settles O47: each command is its body on the state after it was taken, and each event is decided by the table, fence or gate it finds. -/
theorem switchTablesFencesAndGates : Obligations.SwitchTablesFencesAndGates := by
  intro s p n sub ring p0 p1 p2 bs to_ u ends e key here aged g begun busy gate
  refine ⟨fun a rest queued => ?_, fun enabled hardware => if_neg (by simp [enabled, hardware]),
    fun takes => ⟨fun hardware => ⟨fun sound valid i at_ => command_is takes (cmdFctAdd_takes hardware sound valid at_), fun reserved => ?_,
        fun i hit => command_is takes ?_, fun miss => command_is takes ?_, fun index => command_is takes ?_⟩,
      fun host => ⟨command_is takes (if_pos host), command_is takes (if_pos host),
        fun index sound => command_is takes (cmdFctWrite_exact host index sound)⟩,
      fun first last sound => command_is takes (cmdFctWrite_ternary first last sound),
      fun some_ most within => command_is takes (if_neg (by omega)),
      fun idle free => command_is takes (cmdFctFence_starts (t := u) idle free),
      fun busy => command_is takes (cmdFctFence_busy (t := u) busy)⟩,
    fun hears => ⟨fun idle free => ?_, fun busy => ?_, onMw0_hears hears _ _, onMw0_hears hears _ _, onMw0_hears hears _ _⟩,
    fun busy => ⟨if_pos busy, fun clear => if_pos (Bool.and_eq_true_iff.mpr ⟨busy, clear⟩)⟩,
    fun c copied => exec_fctSubarrayRemap copied, fun none found => ?_,
    fun removing draining => if_pos (by simp [removing, draining]),
    fun enabled => ⟨exec_gateCycleStart enabled, exec_gateCycleStart_switches enabled, exec_gateEntryChange enabled⟩⟩
  · show execLearnActionApply s = _
    rw [execLearnActionApply, queued]
    rfl
  · refine command_is takes ((cmdFctAdd_hardware hardware).trans (if_pos ?_))
    rw [show entReserved true (entOf bs) = true from reserved]
    rfl
  · rw [cmdFctDel_hardware hardware, show u.exactHit (entKey (entOf bs)) = some i from hit]
  · rw [cmdFctDel_hardware hardware, show u.exactHit (entKey (entOf bs)) = none from miss]
  · exact (if_neg (by omega)).trans (if_pos ⟨index, hardware⟩)
  · refine (onMw0_hears hears _ _).trans ?_
    rw [startFence_starts none idle free]
    rfl
  · refine (onMw0_hears hears _ _).trans ?_
    rw [startFence_busy none busy]
    rfl
  · exact if_neg (by simp [none, found])

end Sys2Proof.Machine
end

section
/-! Time base steering and the timed pins (R644 to R686). -/

namespace Sys2Proof.Machine

section
variable {s : State}

/-! ## Registers -/

section
variable {w : Steerer} {apply : State → State}

theorem steer_may (may : s.maySteer w = true) : s.steer w apply = apply s := if_pos may

theorem steer_refused (refused : s.maySteer w = false) : s.steer w apply = s.steerRej w := if_neg (by simp [refused])

end

section
variable {p : Fin 2} (hears : s.hears p .time = true)
include hears

theorem exec_timeWrites_steer (may : s.maySteer (.mw0 p) = true) (v : Word) :
    let wide := signedOf 64 (v.toNat * 2 ^ 32 + (s.held32 TIME_STEP).toNat)
    let sec := v.toNat % 2 ^ 16 * 2 ^ 32 + (s.held32 TIME_SET_SEC).toNat
    exec (.timeFreqWrite p v) s = .next (settle (s.setFreq v (20 + p))) ∧
    exec (.timeStep p v) s = .next (settle (s.stepTime wide 0)) ∧
    exec (.timeSlew p v) s = .next (settle (s.startSlew (signedOf 32 v.toNat) (20 + p))) ∧
    exec (.timeSet p v) s = .next (settle ((s.setReg64 TIME_SET_SEC sec).setTime sec (s.rd TIME_SET_NS ⟨29, 0⟩) 0)) := by
  have acts : ∀ (off : Nat) (apply : State → State),
      onMw0 s p .time off (done (s.steer (.mw0 p) apply)) = .next (settle (apply s)) := by
    intro off apply
    rw [onMw0_hears hears, steer_may may]
    rfl
  exact ⟨acts _ _, acts _ _, acts _ _, acts _ _⟩

theorem exec_timeWrites_refused (refused : s.maySteer (.mw0 p) = false) (v : Word) :
    exec (.timeFreqWrite p v) s = .next (settle (s.steerRej (.mw0 p))) ∧
    exec (.timeStep p v) s = .next (settle (s.steerRej (.mw0 p))) ∧
    exec (.timeSlew p v) s = .next (settle (s.steerRej (.mw0 p))) ∧
    exec (.timeSet p v) s = .next (settle (s.steerRej (.mw0 p))) := by
  have rejects : ∀ (off : Nat) (apply : State → State),
      onMw0 s p .time off (done (s.steer (.mw0 p) apply)) = .next (settle (s.steerRej (.mw0 p))) := by
    intro off apply
    rw [onMw0_hears hears, steer_refused refused]
    rfl
  exact ⟨rejects _ _, rejects _ _, rejects _ _, rejects _ _⟩

variable {pin : Fin 16}

theorem exec_tioCapRead_empty (empty : (s.tioAt pin).caps = []) :
    exec (.tioCapRead p pin) s = .next (settle ({ s with rdata := 0 }.wr (TIO_STAT pin) TIO_STAT_CAP_Q 0)) := by
  refine (onMw0_hears hears _ _).trans ?_
  dsimp only
  rw [empty]
  rfl

theorem exec_tioCapRead {ns q : Nat} {r : Bool} {rest : List (Nat × Nat × Bool)} (head : (s.tioAt pin).caps = (ns, q, r) :: rest) :
    exec (.tioCapRead p pin) s = .next (settle ((({ s with rdata := ns }.wr (TIO_STAT pin) TIO_STAT_CAP_Q q).wr (TIO_STAT pin)
      TIO_STAT_CAP_EDGE (b2n r)).setTio pin { s.tioAt pin with caps := rest })) := by
  refine (onMw0_hears hears _ _).trans ?_
  dsimp only
  rw [head]
  rfl

theorem exec_tioEnable {v : Word} (off : s.flag (TIO_CFG pin) TIO_CFG_EN = false) {t : State}
    (written : s.setReg (TIO_CFG pin) (v &&& 0xFFC0FFFF) = t) (on : t.flag (TIO_CFG pin) TIO_CFG_EN = true)
    (mode : t.rd (TIO_CFG pin) TIO_CFG_MODE = 2 ∨ t.rd (TIO_CFG pin) TIO_CFG_MODE = 3) : exec (.tioEnable p pin v) s =
      .next (settle ((t.setTio pin { t.tioAt pin with done := false, next := t.tioIndex pin, pulse := false }).drive pin
        (!t.flag (TIO_CFG pin) TIO_CFG_LEVEL))) := by
  refine (onMw0_hears hears _ _).trans (congrArg (fun t => Host.Outcome.next (settle t)) ?_)
  unfold State.tioCfg
  dsimp only
  rw [written, off, on]
  refine (if_neg (by decide)).trans ((if_neg (by decide)).trans ((if_neg (by omega)).trans (if_pos ?_)))
  rcases mode with m | m <;> rw [m] <;> rfl

end

/-! ## Messages -/

section
variable {k : Fin 4} {b : Inbox} (inbox : s.inbox 16 k = b) (full : b.full = true)
include inbox full

theorem msgWaits_of {op : Nat} (code : bitsOf (SMap.get (fun _ => 0) b.words 0).toNat 31 24 = op) (length : opLen op = some b.len) :
    s.msgWaits k op = true := by
  subst inbox
  rw [State.msgWaits, full, length]
  simpa [msgOp] using code

omit full in
/-- A word within the length of a message is the one its mailbox holds. -/
theorem takeMsg_word {i : Nat} (within : i < b.len) : (s.takeMsg k).2.1.getD i 0 = SMap.get (fun _ => 0) b.words i := by
  subst inbox
  simp [State.takeMsg, within]

variable {u : State} (taken : (s.setInbox 16 k { b with full := false }).clearDb 16 (BitVec.ofNat 32 (2 ^ k.val)) = u)
include taken

omit full in
theorem takeSteer_may (apply : State → List Word → State) (may : u.maySteer (u.steererOf b.sender) = true) :
    s.takeSteer k apply = (apply u (s.takeMsg k).2.1).ringDb b.sender (BitVec.ofNat 32 (2 ^ 27)) := by
  subst taken inbox
  exact if_pos may

omit full in
theorem takeSteer_refused (apply : State → List Word → State) (refused : u.maySteer (u.steererOf b.sender) = false) :
    s.takeSteer k apply = u.steerRej (u.steererOf b.sender) := by
  subst taken inbox
  exact if_neg (ne_true_of_eq_false refused)

theorem exec_linkDelay (code : bitsOf (SMap.get (fun _ => 0) b.words 0).toNat 31 24 = 4) (length : b.len = 2) :
    exec (.linkDelay k) s = .next (settle ((u.setReg (TIME_PORT_LINKDLY ((SMap.get (fun _ => 0) b.words 0 : Word).toNat % 16))
      (SMap.get (fun _ => 0) b.words 1)).ringDb b.sender (BitVec.ofNat 32 (2 ^ 27)))) := by
  have waits := msgWaits_of inbox full code (by rw [length]; rfl)
  rw [← takeMsg_word inbox (i := 0) (by omega), ← takeMsg_word inbox (i := 1) (by omega)]
  subst taken inbox
  exact if_neg (by simp [waits])

theorem exec_steerMsgInvalid (malformed : opLen (bitsOf (SMap.get (fun _ => 0) b.words 0 : Word).toNat 31 24) ≠ some b.len) :
    exec (.steerMsgInvalid k) s = .next (settle (u.steerRej (u.steererOf b.sender))) := by
  subst taken inbox
  exact if_neg (by simpa [full, msgOp] using malformed)

theorem exec_steerFreq (code : bitsOf (SMap.get (fun _ => 0) b.words 0).toNat 31 24 = 1) (length : b.len = 2) :
    (u.maySteer (u.steererOf b.sender) = true → exec (.steerFreq k) s =
      .next (settle ((u.setFreq (SMap.get (fun _ => 0) b.words 1) (u.epMaster b.sender)).ringDb b.sender (BitVec.ofNat 32 (2 ^ 27))))) ∧
    (u.maySteer (u.steererOf b.sender) = false → exec (.steerFreq k) s = .next (settle (u.steerRej (u.steererOf b.sender)))) := by
  have waits := msgWaits_of inbox full code (by rw [length]; rfl)
  refine ⟨fun may => (if_neg (by simp [waits])).trans (congrArg done ?_), fun refused => (if_neg (by simp [waits])).trans (congrArg done ?_)⟩
  · rw [takeSteer_may inbox taken _ may, takeMsg_word inbox (by omega), inbox]
  · rw [takeSteer_refused inbox taken _ refused]

theorem exec_steerStep (code : bitsOf (SMap.get (fun _ => 0) b.words 0).toNat 31 24 = 2) (length : b.len = 3) :
    (u.maySteer (u.steererOf b.sender) = true → exec (.steerStep k) s = .next (settle ((u.stepTime (signedOf 64
      ((SMap.get (fun _ => 0) b.words 2 : Word).toNat * 2 ^ 32 + (SMap.get (fun _ => 0) b.words 1 : Word).toNat)) 1).ringDb b.sender
        (BitVec.ofNat 32 (2 ^ 27))))) ∧
    (u.maySteer (u.steererOf b.sender) = false → exec (.steerStep k) s = .next (settle (u.steerRej (u.steererOf b.sender)))) := by
  have waits := msgWaits_of inbox full code (by rw [length]; rfl)
  refine ⟨fun may => (if_neg (by simp [waits])).trans (congrArg done ?_), fun refused => (if_neg (by simp [waits])).trans (congrArg done ?_)⟩
  · rw [takeSteer_may inbox taken _ may, takeMsg_word inbox (by omega), takeMsg_word inbox (by omega)]
  · rw [takeSteer_refused inbox taken _ refused]

theorem exec_steerSlew (code : bitsOf (SMap.get (fun _ => 0) b.words 0).toNat 31 24 = 3) (length : b.len = 2) :
    (u.maySteer (u.steererOf b.sender) = true → exec (.steerSlew k) s = .next (settle ((u.startSlew (signedOf 32
      (SMap.get (fun _ => 0) b.words 1 : Word).toNat) (u.epMaster b.sender)).ringDb b.sender (BitVec.ofNat 32 (2 ^ 27))))) ∧
    (u.maySteer (u.steererOf b.sender) = false → exec (.steerSlew k) s = .next (settle (u.steerRej (u.steererOf b.sender)))) := by
  have waits := msgWaits_of inbox full code (by rw [length]; rfl)
  refine ⟨fun may => (if_neg (by simp [waits])).trans (congrArg done ?_), fun refused => (if_neg (by simp [waits])).trans (congrArg done ?_)⟩
  · rw [takeSteer_may inbox taken _ may, takeMsg_word inbox (by omega), inbox]
  · rw [takeSteer_refused inbox taken _ refused]

end

/-! ## Timed pins -/

section
variable {pin : Fin 16} (enabled : s.flag (TIO_CFG pin) TIO_CFG_EN = true)
include enabled

section
variable (captures : s.rd (TIO_CFG pin) TIO_CFG_MODE = 0) {rising : Bool}
  (selected : bitOf (s.rd (TIO_CFG pin) TIO_CFG_EDGE) (if rising then 0 else 1) = true)
include captures selected

theorem exec_tioCapture_queues (room : (s.tioAt pin).caps.length < 4)
    (apart : ∀ l, (s.tioAt pin).last = some l → l + 32 ≤ s.tb.total / 2 ^ 38) (silent : s.flag (TIO_CFG pin) TIO_CFG_EVT = false) :
    let q : Nat := s.tb.total / 2 ^ 38
    let c := (((q : Int) - signedOf 16 (s.rd (TIO_CFG pin) TIO_CFG_CORR)) % (2 ^ 66 : Int)).toNat
    exec (.tioCapture pin rising) s = .next (settle (s.setTio pin { s.tioAt pin with
      caps := (s.tioAt pin).caps ++ [(c / 4, c % 4, rising)], last := some q })) := by
  refine (if_neg (by simp [enabled, captures, selected])).trans ((if_neg ?_).trans ?_)
  · cases last : (s.tioAt pin).last with
    | none => simpa using room
    | some l =>
      have := apart l last
      simp
      omega
  · rw [silent]
    rfl

theorem exec_tioCapture_loses (full : 4 ≤ (s.tioAt pin).caps.length) : exec (.tioCapture pin rising) s =
    .next (settle (((s.bump (TIO_STAT pin) TIO_STAT_LOST 1).wr (TIO_STAT pin) TIO_STAT_OVF 1).raise .time F_TIME_TIO_OVF [pin])) :=
  (if_neg (by simp [enabled, captures, selected])).trans (if_pos (by simp [full]))

end

theorem tioRuns_of {mode : Nat} (is : s.rd (TIO_CFG pin) TIO_CFG_MODE = mode) : s.tioRuns pin mode = true := by
  simp [State.tioRuns, enabled, is]

end

end

/-- Settles O48: each access is decided by who may steer, and each edge by the configuration of its pin. -/
theorem timeBaseSteeringAndPins : Obligations.TimeBaseSteeringAndPins := by
  intro s p k pin v rising to_ rej wide sec b word op u x cfg lead
  refine ⟨fun hears => ⟨fun may => exec_timeWrites_steer hears may v, fun refused => exec_timeWrites_refused hears refused v,
      onMw0_hears hears _ _, fun empty => exec_tioCapRead_empty hears empty, fun ns q r rest head => exec_tioCapRead hears head,
      fun off on mode => exec_tioEnable hears off (Eq.refl _) on mode⟩,
    fun slews => if_neg slews,
    fun full => ⟨fun code length => exec_linkDelay (Eq.refl b) full (Eq.refl u) code length,
      fun malformed => exec_steerMsgInvalid (Eq.refl b) full (Eq.refl u) malformed,
      fun may => ⟨fun code length => (exec_steerFreq (Eq.refl b) full (Eq.refl u) code length).1 may,
        fun code length => (exec_steerStep (Eq.refl b) full (Eq.refl u) code length).1 may,
        fun code length => (exec_steerSlew (Eq.refl b) full (Eq.refl u) code length).1 may⟩,
      fun refused => ⟨fun code length => (exec_steerFreq (Eq.refl b) full (Eq.refl u) code length).2 refused,
        fun code length => (exec_steerStep (Eq.refl b) full (Eq.refl u) code length).2 refused,
        fun code length => (exec_steerSlew (Eq.refl b) full (Eq.refl u) code length).2 refused⟩⟩,
    fun enabled => ⟨fun captures selected => ⟨exec_tioCapture_queues enabled captures selected, exec_tioCapture_loses enabled captures selected⟩,
      fun mode first => ?_, fun mode => if_pos (tioRuns_of enabled mode), fun mode => if_pos (tioRuns_of enabled mode)⟩,
    fun pulse => if_pos pulse⟩
  exact if_pos (Bool.and_eq_true_iff.mpr ⟨tioRuns_of enabled mode, by rw [show (s.tioAt pin).done = false from first]; rfl⟩)

end Sys2Proof.Machine
end

section
/-! Caravan channels: training, cycles, sending and changes of mode (R695 to R743). -/

namespace Sys2Proof.Machine

/-! ## Configuration -/

section
variable {s : State} {p c : Fin 2} (hears : s.hears p .cvn = true) {v : Word} (set : bitOf v.toNat 31 = true)
include hears set

theorem exec_cvnChannelEnable_noAddress (off : s.cvnEn c = false) (none : s.cvnAddr = 0xFFF) :
    exec (.cvnChannelEnable p c v) s = .next (settle (s.raise .cvn F_CVN_CFG_ERR [])) := by
  refine (onMw0_hears hears _ _).trans ((if_neg (by simp [set])).trans (congrArg done (if_pos ?_)))
  simp [set, off, none]

theorem exec_cvnChannelEnable (off : s.cvnEn c = false) (address : s.cvnAddr ≠ 0xFFF) : exec (.cvnChannelEnable p c v) s =
    .next (settle (((s.regWrite (CVN_CH_CFG c) v).wr (CVN_CH_CFG c) CVN_CH_CFG_EN 0).cvnSetEn c true)) := by
  refine (onMw0_hears hears _ _).trans ((if_neg (by simp [set])).trans (congrArg done ((if_neg (by simp [address])).trans ?_)))
  rw [off, set]
  rfl

theorem exec_cvnBankValidate_inForce {bank : Fin 2} (on : s.cvnEn c = true) (inForce : s.cvnBank c = bank.val) :
    exec (.cvnBankValidate p c bank v) s = .next (settle (s.raise .cvn F_CVN_CFG_ERR [])) :=
  (onMw0_hears hears _ _).trans ((if_neg (by simp [set])).trans (congrArg done (if_pos (by simp [on, inForce]))))

theorem exec_cvnBankValidate {bank : Fin 2} (may : s.cvnEn c = false ∨ s.cvnBank c ≠ bank.val) : exec (.cvnBankValidate p c bank v) s =
    .next (settle (((s.regWrite (cvnOff c bank 0 3) v).cvnValid c bank false).cvnCheck c bank)) := by
  refine (onMw0_hears hears _ _).trans ((if_neg (by simp [set])).trans (congrArg done ((if_neg ?_).trans ((if_pos ⟨rfl, rfl⟩).trans
    (if_pos set)))))
  rcases may with off | other
  · simp [off]
  · simp [other]

end

/-! ## Training -/

section
variable {s : State} {port : Fin 4} (caravan : s.cvnPort port = true) (down : s.linkUp port = false)
include caravan down

theorem exec_cvnTrainDone (slow : Bool) (nbr : Fin 4096) (rg : Fin 256) (nbrIsD : Bool) :
    let c := port.val / 2
    let x := s.chan c
    let d := port.val % 2 == 0
    let sl := slow || s.flag (CVN_CH_CFG c) CVN_CH_CFG_MAX_RATE || (if d then x.slowD else x.slowU)
    let up := (s.linkCame port 6 (if sl then 4 else 6) false 0).wr (CVN_CH_NBR c)
      (if d then CVN_CH_NBR_D_ADDR else CVN_CH_NBR_U_ADDR) nbr
    let joined := up.onChan c fun x => if d then { x with upD := true, slowD := sl, loopD := x.loopD && s.cvnState c != 1 }
      else { x with upU := true, slowU := sl, loopU := x.loopU && s.cvnState c != 1 }
    exec (.cvnTrainDone port slow nbr rg nbrIsD) s =
      if nbrIsD == d || rg.val != s.rd (CVN_CH_CFG c) CVN_CH_CFG_RING then
        .next (settle ((up.cvnDown c d).raise .cvn F_CVN_CFG_ERR []))
      else .next (settle (((if s.cvnState c ≤ 2 then joined.cvnSetRate c sl else joined).cvnWrap c).cvnTrained c)) :=
  if_neg (by simp [caravan, down])

theorem exec_cvnTrainTimeout :
    let c := port.val / 2
    let x := s.chan c
    let d := port.val % 2 == 0
    exec (.cvnTrainTimeout port) s =
      if !(s.flag (CVN_CH_CFG c) CVN_CH_CFG_MAX_RATE || (if d then x.slowD else x.slowU)) then
        .next (s.onChan c fun x => if d then { x with slowD := true } else { x with slowU := true })
      else
        let s1 := s.onChan c fun x => if d then { x with slowD := false } else { x with slowU := false }
        .next (settle ((if (if d then x.loopD else x.loopU) then s1 else s1.cvnDown c d).cvnTrained c)) :=
  if_neg (by simp [caravan, down])

end

section
variable {s : State} {c : Fin 2}

/-! ## The cycle -/

/-- A cycle start makes the switch that is due (R703, R727). -/
theorem cycleStart_switches {c mode : Nat} (due : (s.chan c).switchAt = some (s.cvnN % 2 ^ 32, mode)) {t : State}
    (taken : s.onChan c (fun x => { x with switchAt := none }) = t) (other : t.cvnOther c mode = true)
    (stays : ((t.cvnSwitch c mode).chan c).firstLeft = none) : s.cycleStart c = t.cvnSwitch c mode := by
  unfold State.cycleStart
  generalize s.cvnN % 2 ^ 32 = n at due ⊢
  dsimp only
  rw [due]
  simp only [ne_eq, not_true_eq_false, if_false]
  rw [taken, if_pos other, stays]

theorem exec_cvnCycleStart_second (off : s.cvnEn 0 = false) (on : s.cvnEn 1 = true) :
    exec .cvnCycleStart s = .next (settle (s.cycleStart 1)) := by
  have first : (if s.cvnEn 0 then s.cycleStart 0 else s) = s := if_neg (by simp [off])
  show execCvnCycleStart s = _
  unfold execCvnCycleStart
  dsimp only
  rw [first, if_pos on]
  rfl

theorem exec_cvnOpenWindowStart (on : s.cvnEn c = true) (valid : (s.cvnHeader c (s.cvnBank c)).valid = true)
    (opens : (s.cvnHeader c (s.cvnBank c)).openStart ≠ (s.cvnHeader c (s.cvnBank c)).openEnd) :
    exec (.cvnOpenWindowStart c) s = .next (s.onChan c fun x => { x with window := true }) :=
  if_neg (by simp [on, valid, opens])

/-! ## Sending -/

section
variable (sync : s.cvnState c = 5) (here : (s.chan c).left = false) (first : s.cvnFirst c = true)
include sync here first

theorem exec_cvnCsSend_late : exec (.cvnCsSend c true) s = .next (s.bump (CVN_CH_CNT2 c) cntLo 1) :=
  (if_neg (by simp [sync, here, first])).trans (if_pos rfl)

theorem exec_cvnCsSend {t : State}
    (sent : (s.csRequest c).2.2.csSent c false (s.csRequest c).1 (s.csRequest c).2.1 = t) (stays : (t.chan c).leaving = none) :
    exec (.cvnCsSend c false) s = .next (settle t) := by
  refine (if_neg (by simp [sync, here, first])).trans ((if_neg (by decide)).trans ?_)
  dsimp only
  rw [if_neg (by omega), show (s.cvnState c == 3) = false by rw [sync]; rfl, sent, stays]
  rfl

end

section
variable {e : Fin 256} {ent : CvnEnt} (entry : s.txEntry c e = some ent)
include entry

theorem exec_cvnMoverStart (full : Bool) (ecc : Ecc) :
    exec (.cvnMoverStart c e full ecc) s = .next (settle (s.cvnMove c e ent full ecc)) := by
  show execCvnMoverStart c e full ecc s = _
  rw [execCvnMoverStart, entry]
  rfl

theorem exec_cvnSlotSend (late : Bool) :
    let q := (SMap.get (fun _ => none) (s.chan c).prep e.val).getD ⟨true, false, 0, []⟩
    let t := s.onChan c fun x => { x with prep := SMap.set (fun _ => none) x.prep e none }
    let sent := t.onChan c fun x => { x with lastSeq := SMap.set (fun _ => none) x.lastSeq e (some q.seq) }
    exec (.cvnSlotSend c e late) s =
      if late then .next (t.bump (CVN_CH_CNT2 c) cntLo 1)
      else if (match (s.chan c).leaving with | some k => decide (k ≤ s.cvnN) | none => false) then .next (settle (t.cvnTell c s.cvnN e))
      else if q.null || s.mode == .safe then
        .next (settle ((t.bump (CVN_CH_CNT2 c) cntHi 1).cvnGuard c (t.inTxWindow c 0) (t.cvnOwn c cvnNULL ent.slot ent.act [])))
      else .next (settle (sent.cvnGuard c (sent.inTxWindow c q.data.length)
          { sent.cvnOwn c cvnDATA ent.slot ent.act q.data with stale := q.stale, seq := q.seq })) := by
  show execCvnSlotSend c e late s = _
  rw [execCvnSlotSend, entry]
  rfl

end

section
variable {ch : CvnChange} (change : (s.chan c).change = some ch) (sync : s.cvnState c = 5) (first : s.cvnFirst c = true)
  (due : ch.start.map (· + 1) = some s.cvnN)
include change sync first due

theorem exec_cvnCommitSend_late :
    exec (.cvnCommitSend c true) s = .next (settle ((s.bump (CVN_CH_CNT2 c) cntLo 1).cvnChangeEnd c ch 3)) := by
  show execCvnCommitSend c true s = _
  rw [execCvnCommitSend, change]
  exact (if_neg (by simp [sync, first, due])).trans (if_pos rfl)

theorem exec_cvnCommitSend (equal : ch.equal = some true) :
    let h := s.cvnHeader c (s.cvnBank c)
    let next := (s.cvnN + 1) % 2 ^ 32
    let t := s.cvnGuard c (decide (h.tail ≤ s.cvnPos)) (s.cvnOwn c cvnCOMMIT 0 (h.tail + h.guard)
      ([BitVec.ofNat 8 ch.target, BitVec.ofNat 8 0x81] ++ beBytes 4 next ++ [0, 0]))
    exec (.cvnCommitSend c false) s = .next (settle ((t.onChan c fun x => { x with switchAt := some (next, ch.target) }).cvnChangeEnd
      c ch 1)) := by
  show execCvnCommitSend c false s = _
  rw [execCvnCommitSend, change]
  refine (if_neg (by simp [sync, first, due])).trans ((if_neg (by decide)).trans ?_)
  dsimp only
  rw [equal]
  rfl

end

/-! ## Listening, loopbacks and leaving -/

theorem exec_cvnListenTimeout (listens : s.cvnState c = 2) (here : (s.chan c).left = false) (may : s.cvnMayCold c = true) :
    exec (.cvnListenTimeout c) s = .next (settle ((s.onChan c fun x => { x with cold := 0 }).cvnTo c 3)) :=
  if_neg (by simp [listens, here, may])

theorem exec_cvnLoopbackEnd {n : Nat} (ends : (s.chan c).loopEndD = some n) (other : (s.chan c).loopEndU = none) (due : n ≤ s.cvnN) :
    exec (.cvnLoopbackEnd c) s =
      .next (settle ((s.onChan c fun x => { x with loopD := x.loopD && !x.upD, loopEndD := none }).cvnWrap c)) := by
  show execCvnLoopbackEnd c s = _
  unfold execCvnLoopbackEnd State.onChan
  dsimp only
  rw [ends, other]
  simp [due]
  rfl

theorem exec_cvnLeave {n : Nat} (leaves : (s.chan c).leaving = some n) {t : State}
    (told : (if s.cvnState c = 5 then (s.cvnTellCycle c n).cvnTellCycle c (n + 1) else s) = t) (other : t.cvnFirst c = false) :
    exec (.cvnLeave c) s = .next (settle (t.onChan c fun x => { x with leaving := none, told := [], left := true })) := by
  show execCvnLeave c s = _
  rw [execCvnLeave, leaves]
  dsimp only
  rw [told, if_neg (by simp [other])]
  rfl

end

/-! ## Tables -/

section
variable {s t : State} {k : Fin 4} {sender : Nat} {ws : List Word} (waits : s.msgWaits k 0x10 = true) (taken : s.takeMsg k = (sender, ws, t))
include waits taken

theorem exec_cvnTableMessage_rejects (other : 16 ≤ sender ∨ t.owner ((ws.getD 0 0).toNat % 64) ≠ 0x10 + sender) (ecc : Ecc) :
    exec (.cvnTableMessage k ecc) s = .next (settle (t.steerRej (t.steererOf sender))) := by
  show execCvnTableMessage k ecc s = _
  unfold execCvnTableMessage
  rw [if_neg (by simp [waits]), taken]
  refine if_pos ?_
  rcases other with endpoint | unowned
  · exact .inl endpoint
  · exact .inr (.inr (.inr (.inl unowned)))

theorem exec_cvnTableMessage_loads (slot : sender < 16) (steers : sender = t.rd TIME_CTRL TIME_CTRL_SLOT)
    (hardware : t.rd (WADI_FUNC 4) WADI_FUNC_CUR = 0) {b ch off : Nat} (bank : (ws.getD 0 0).toNat % 64 = b)
    (channel : bitsOf (ws.getD 0 0).toNat 8 8 = ch) (offset : (ws.getD 1 0).toNat = off) (owns : t.owner b = 0x10 + sender)
    (within : off + 4096 ≤ 131072) (free : t.flag (CVN_CH_STAT ch) CVN_CH_STAT_PEND = false)
    (sound : ((List.range 513).any fun i => (t.bank false (t.physOf false b)).mem.isBad (off + min 4095 (8 * i))) = false) :
    exec (.cvnTableMessage k .ok) s = .next (settle ((t.cvnLoad ch ((t.bank false (t.physOf false b)).mem.bytes off 4096)).2.ringDb
      sender (BitVec.ofNat 32 (2 ^ 27)))) := by
  subst bank channel offset
  show execCvnTableMessage k .ok s = _
  unfold execCvnTableMessage
  rw [if_neg (by simp [waits]), taken]
  refine (if_neg ?_).trans ((if_neg ?_).trans ?_)
  · rintro (endpoint | other | assisted | unowned | beyond | pending)
    · omega
    · exact other steers
    · exact assisted hardware
    · exact unowned owns
    · omega
    · exact ne_true_of_eq_false free pending
  · rintro (double | unsound)
    · cases double
    · exact absurd unsound (by simp only [sound]; decide)
  · rfl

end

/-! ## Commands -/

section
variable {t : State} {ring p0 c m : Nat} (channel : bitsOf p0 8 8 = c) (mode : p0 % 256 = m)
include channel

theorem cmdCvnMode_badState (other : t.cvnFirst c = false ∨ t.cvnState c ≠ 5) : t.cmdCvnMode ring p0 = t.finish ring 0x88 stBadState 0 := by
  subst channel
  refine if_pos ?_
  rcases other with notFirst | unsynced
  · simp [notFirst]
  · simp [unsynced]

section
variable (first : t.cvnFirst c = true) (sync : t.cvnState c = 5)
include first sync

theorem cmdCvnMode_busy (runs : (t.chan c).change.isSome = true) : t.cmdCvnMode ring p0 = t.finish ring 0x88 stBusy 0 := by
  subst channel
  exact (if_neg (by simp [first, sync])).trans (if_pos runs)

variable (free : (t.chan c).change = none)
include mode free

theorem cmdCvnMode_noEntry (missing : t.cvnOther c m = false) : t.cmdCvnMode ring p0 = t.finish ring 0x88 stNoEntry 0 := by
  subst channel mode
  exact (if_neg (by simp [first, sync])).trans ((if_neg (by simp [free])).trans (if_pos (by simp [missing])))

theorem cmdCvnMode_begins (held : t.cvnOther c m = true) (fits : t.cvnFits c = true) : t.cmdCvnMode ring p0 =
    (t.onChan c fun x => { x with change := some ⟨ring, m, none, none⟩ }).wr (CVN_CH_STAT c) CVN_CH_STAT_PEND 1 := by
  subst channel mode
  exact (if_neg (by simp [first, sync])).trans ((if_neg (by simp [free])).trans ((if_neg (by simp [held])).trans
    (if_neg (by simp [fits]))))

end

theorem cmdCvnTable_pending (pending : t.flag (CVN_CH_STAT c) CVN_CH_STAT_PEND = true) (p1 : Nat) (bs : List Byte) :
    t.cmdCvnTable ring p0 p1 (some bs) = t.finish ring 0x89 stBadState 0 := by
  subst channel
  exact if_pos pending

theorem cmdCvnTable_loads (free : t.flag (CVN_CH_STAT c) CVN_CH_STAT_PEND = false) (p1 : Nat) (bs : List Byte) :
    t.cmdCvnTable ring p0 p1 (some bs) =
      (t.cvnLoad c bs).2.finish ring 0x89 (if (t.cvnLoad c bs).1 then stOk else stBadParam) 0 := by
  subst channel
  exact if_neg (by simp [free])

end

/-- Settles O49: each event is decided by the state of its channel. -/
theorem caravanChannelsStartAndSend : Obligations.CaravanChannelsStartAndSend := by
  intro s p c bank port k ring e v nbr rg slow nbrIsD full ecc p0 p1 bs to_ u x h blocked
  refine ⟨fun hears set => ⟨exec_cvnChannelEnable_noAddress hears set, exec_cvnChannelEnable hears set,
      exec_cvnBankValidate_inForce hears set, exec_cvnBankValidate hears set⟩,
    fun caravan down => ?_,
    fun off on => ?_,
    exec_cvnOpenWindowStart, Eq.refl _,
    fun sync here first => ⟨exec_cvnCsSend_late sync here first, exec_cvnCsSend sync here first (Eq.refl _)⟩,
    fun ent entry => ?_,
    fun ch change sync first due => ⟨exec_cvnCommitSend_late change sync first due, exec_cvnCommitSend change sync first due⟩,
    fun state here => if_neg (by simp only [not_or]; exact ⟨state, by simpa using here⟩),
    fun state first => if_neg (by simp only [not_or]; exact ⟨not_lt.mpr state, by simpa using first⟩),
    exec_cvnListenTimeout, fun n => exec_cvnLoopbackEnd, fun n leaves => exec_cvnLeave leaves (Eq.refl _),
    fun b sender ws t waits taken bank => ?_,
    fun takes => ?_⟩
  · intro c x d tried sl up joined
    have done_ := exec_cvnTrainDone caravan down slow nbr rg nbrIsD
    have timeout := exec_cvnTrainTimeout caravan down
    refine ⟨fun bad => done_.trans (if_pos bad), fun good => done_.trans (if_neg (ne_true_of_eq_false good)), fun untried => ?_,
      fun tried loop => ?_⟩
    · exact timeout.trans (if_pos (congrArg (! ·) untried))
    · exact timeout.trans ((if_neg (ne_true_of_eq_false (congrArg (! ·) tried))).trans
        (congrArg (fun t => Host.Outcome.next (settle (State.cvnTrained t c))) (if_neg (ne_true_of_eq_false loop))))
  · intro t m due other stays
    rw [exec_cvnCycleStart_second off on, cycleStart_switches due (Eq.refl t) other stays]
  · intro q t sent
    have send := exec_cvnSlotSend entry false
    refine ⟨exec_cvnMoverStart entry full ecc, exec_cvnSlotSend entry true, fun k leaves due => ?_, fun stays null => ?_,
      fun stays data unsafe_ => ?_⟩
    · rw [send, leaves]
      exact if_pos (decide_eq_true due)
    · rw [send, stays]
      refine (if_neg Bool.false_ne_true).trans ((if_neg Bool.false_ne_true).trans (if_pos ?_))
      rcases null with null | safe
      · exact Bool.or_eq_true_iff.mpr (.inl null)
      · exact Bool.or_eq_true_iff.mpr (.inr (by rw [safe]; rfl))
    · rw [send, stays]
      refine (if_neg Bool.false_ne_true).trans ((if_neg Bool.false_ne_true).trans (if_neg ?_))
      rw [show (SMap.get (fun _ => none) (s.chan c).prep e.val).getD ⟨true, false, 0, []⟩ = q from rfl, data]
      simpa using unsafe_
  · subst bank
    exact ⟨fun other => exec_cvnTableMessage_rejects waits taken other ecc,
      fun slot steers hardware owns within free sound => exec_cvnTableMessage_loads waits taken slot steers hardware (Eq.refl _)
        (Eq.refl _) (Eq.refl _) owns within free sound⟩
  · intro c m ends
    exact ⟨fun other => command_is takes (cmdCvnMode_badState (Eq.refl c) other),
      fun first sync => ⟨fun runs => command_is takes (cmdCvnMode_busy (Eq.refl c) first sync runs),
        fun free missing => command_is takes (cmdCvnMode_noEntry (Eq.refl c) (Eq.refl m) first sync free missing),
        fun free held fits => command_is takes (cmdCvnMode_begins (Eq.refl c) (Eq.refl m) first sync free held fits)⟩,
      fun pending => command_is takes (cmdCvnTable_pending (Eq.refl c) pending p1.toNat bs),
      fun free => command_is takes (cmdCvnTable_loads (Eq.refl c) free p1.toNat bs)⟩

end Sys2Proof.Machine
end

section
/-! Caravan frames received, repeated and removed (R708 to R736). -/

namespace Sys2Proof.Machine

section
variable {s : State} {port : Fin 4} {bs : List Byte}

/-! ## Frames that take a side -/

section
variable {p resid typ : Nat} (takes : s.cvnTakes p = true) {marks : CvnFrame → List Byte → List Byte}
  {proc : CvnFrame → State → Nat → Nat → Bool × State}
include takes

theorem cvnArrive_badHeader (bad : cvnParse bs = none) :
    cvnArrive s p bs resid typ marks proc = .next (s.bump (CVN_CH_CNT3 (p / 2)) cntHi 1) := by
  unfold cvnArrive
  rw [if_neg (by simp [takes]), bad]

theorem cvnArrive_passes {f : CvnFrame} (parsed : cvnParse bs = some f) (other : s.cvnReturns p f = false) (is : f.typ = typ) :
    cvnArrive s p bs resid typ marks proc = .next (settle (s.cvnPass p f bs resid (marks f) (proc f))) := by
  unfold cvnArrive
  rw [if_neg (by simp [takes]), parsed]
  exact if_neg (by simp [is, other])

end

/-- A frame that arrives on D and is not turned is repeated only (R710, R728). -/
theorem cvnPass_through {p resid ld : Nat} {f : CvnFrame} {marks : List Byte → List Byte} {proc : State → Nat → Nat → Bool × State}
    (onD : (p % 2 == 0) = true) (opens : (s.chan (p / 2)).openU = true) (delay : s.cvnDelay (p / 2) (p % 2 == 0) = some ld)
    (young : f.hops < 1040) (active : s.cvnState (p / 2) ≠ 1) : s.cvnPass p f bs resid marks proc =
      (if cvnGood f bs then s else s.bump (CVN_CH_CNT3 (p / 2)) cntLo 1).emit (.caravan (2 * (p / 2) + 1)
        (cvnRepeat bs (f.hops + 1) (f.corr + ld + resid) f.edge false (!cvnGood f bs) id)) := by
  have open_ : ¬ (1040 ≤ f.hops ∨ s.cvnState (p / 2) = 1) := by omega
  unfold State.cvnPass
  dsimp only
  rw [delay]
  dsimp only
  rw [if_neg open_, onD, opens]
  simp

/-! ## The node's own frames -/

section
variable (takes : s.cvnTakes port = true)
include takes

theorem exec_cvnOwnFrameReturn_badHeader (bad : cvnParse bs = none) :
    exec (.cvnOwnFrameReturn port bs) s = .next (s.bump (CVN_CH_CNT3 (port.val / 2)) cntHi 1) := by
  refine (if_neg (by simp [takes])).trans ?_
  rw [bad]

variable {f : CvnFrame} (parsed : cvnParse bs = some f) (returns : s.cvnReturns port f = true) (cyclic : f.typ < 6)
include parsed returns cyclic

theorem exec_cvnOwnFrameReturn_badFcs (bad : cvnGood f bs = false) :
    exec (.cvnOwnFrameReturn port bs) s = .next (s.bump (CVN_CH_CNT3 (port.val / 2)) cntLo 1) := by
  refine (if_neg (by simp [takes])).trans ?_
  rw [parsed]
  exact (if_neg (by simpa [returns] using cyclic)).trans (if_pos (by simp [bad]))

variable (good : cvnGood f bs = true) (whole : f.edge = false)
include good whole

theorem exec_cvnOwnFrameReturn_other (other : f.typ ≠ cvnCS) : exec (.cvnOwnFrameReturn port bs) s = .next (settle s) := by
  refine (if_neg (by simp [takes])).trans ?_
  rw [parsed]
  refine (if_neg (by simpa [returns] using cyclic)).trans ((if_neg (by simp [good])).trans ?_)
  dsimp only
  rw [whole]
  exact if_pos (.inl other)

theorem exec_cvnOwnFrameReturn_cs (cs : f.typ = cvnCS) (first : s.cvnFirst (port.val / 2) = true) {ld : Nat}
    (delay : s.cvnDelay (port.val / 2) (port.val % 2 == 0) = some ld) {t : State}
    (shown : (s.wr (CVN_CH_LAT (port.val / 2)) CVN_CH_LAT_NS ((f.corr + ld) / 65536)).wr (CVN_CH_STAT (port.val / 2))
      CVN_CH_STAT_MEMBERS (sumOf ((List.range 512).map fun m => b2n (memberBit f.payload 32 m))) = t)
    (steady : (t.chan (port.val / 2)).change = none) : exec (.cvnOwnFrameReturn port bs) s = .next (settle t) := by
  refine (if_neg (by simp [takes])).trans ?_
  rw [parsed]
  refine (if_neg (by simpa [returns] using cyclic)).trans ((if_neg (by simp [good])).trans ?_)
  dsimp only
  rw [whole, Bool.false_and, if_neg Bool.false_ne_true, if_neg (by simp [cs, first]), delay]
  dsimp only
  rw [shown, steady]
  rfl

end

/-! ## Link delays -/

section
variable (caravan : s.cvnPort port = true) (up : s.linkUp port = true) {f : CvnFrame} (parsed : cvnParse bs = some f)
include caravan up parsed

section
variable (request : f.typ = cvnREQ) {turn : Nat}
include request

theorem exec_dlyReqRx_badFcs (bad : cvnGood f bs = false) :
    exec (.dlyReqRx port bs turn) s = .next (s.bump (CVN_CH_CNT3 (port.val / 2)) cntLo 1) := by
  refine (if_neg (by simp [caravan, up])).trans ?_
  rw [parsed]
  exact (if_neg (not_not.mpr request)).trans (if_pos (by simp [bad]))

theorem exec_dlyReqRx (good : cvnGood f bs = true) (past : s.cvnFull f.cycle ≤ s.cvnN) (active : s.cvnState (port.val / 2) ≠ 0) :
    exec (.dlyReqRx port bs turn) s = .next (settle (s.emit (.caravan port ((s.cvnOwn (port.val / 2) cvnRSP 0 f.act
      (timeBytes (s.rxStamp port) ++ timeBytes (s.txStampIn port (max (200 * 65536) (min (300 * 65536) turn))))).bytes false)))) := by
  refine (if_neg (by simp [caravan, up])).trans ?_
  rw [parsed]
  refine (if_neg (not_not.mpr request)).trans ((if_neg (by simp [good])).trans ?_)
  dsimp only
  rw [if_pos past, if_neg active]
  rfl

end

section
variable (response : f.typ = cvnRSP)
include response

theorem exec_dlyRspRx_badFcs (bad : cvnGood f bs = false) :
    exec (.dlyRspRx port bs) s = .next (s.bump (CVN_CH_CNT3 (port.val / 2)) cntLo 1) := by
  refine (if_neg (by simp [caravan, up])).trans ?_
  rw [parsed]
  exact (if_neg (not_not.mpr response)).trans (if_pos (by simp [bad]))

theorem exec_dlyRspRx (good : cvnGood f bs = true) {t1 : Nat}
    (asked : (if port.val % 2 == 0 then (s.chan (port.val / 2)).reqD else (s.chan (port.val / 2)).reqU) = some t1) :
    exec (.dlyRspRx port bs) s = .next (s.dlyValue port
      (((((scaledView (s.rxStamp port) : Nat) : Int) - (t1 : Int)) - (timeOf f.payload 12 - timeOf f.payload 0)) / 2).toNat) := by
  refine (if_neg (by simp [caravan, up])).trans ?_
  rw [parsed]
  refine (if_neg (not_not.mpr response)).trans ((if_neg (by simp [good])).trans ?_)
  rw [asked]

end

end

end

theorem exec_cvnSlotMissed {s : State} {c : Fin 2} {e : Fin 256} (follows : 4 ≤ s.cvnState c) (slot : e ≠ 0)
    (header : (s.cvnHeader c (s.cvnBank c)).valid = true) (valid : (s.cvnEntry c (s.cvnBank c) e).valid = true)
    (receives : (s.cvnEntry c (s.cvnBank c) e).tx = false) : exec (.cvnSlotMissed c e) s =
      .next (settle ((s.bump (CVN_CH_CNT1 c) cntLo 1).ctlSet (s.cvnEntry c (s.cvnBank c) e) ctlMissed)) := by
  refine if_neg ?_
  rintro (below | zero | noHeader | invalid | sends)
  · omega
  · exact slot (Fin.ext zero)
  · simp [header] at noHeader
  · simp [valid] at invalid
  · simp [receives] at sends

/-- Settles O50: a frame on an open side is decided by its header, its kind and its sender. -/
theorem caravanFramesReceived : Obligations.CaravanFramesReceived := by
  intro s port c e bs resid turn to_ ch d x
  refine ⟨fun takes => ⟨fun bad => ⟨cvnArrive_badHeader takes bad, cvnArrive_badHeader takes bad, cvnArrive_badHeader takes bad,
        cvnArrive_badHeader takes bad, cvnArrive_badHeader takes bad, exec_cvnOwnFrameReturn_badHeader takes bad⟩,
      fun f parsed other => ⟨cvnArrive_passes takes parsed other, cvnArrive_passes takes parsed other,
        cvnArrive_passes takes parsed other, fun ld delay young active onD opens => ?_⟩,
      fun f parsed returns cyclic => ⟨exec_cvnOwnFrameReturn_badFcs takes parsed returns cyclic,
        fun good whole => ⟨exec_cvnOwnFrameReturn_other takes parsed returns cyclic good whole, fun cs first _ ld delay =>
          exec_cvnOwnFrameReturn_cs takes parsed returns cyclic good whole cs first delay (Eq.refl _)⟩⟩⟩,
    fun caravan up f parsed => ⟨fun request => ⟨exec_dlyReqRx_badFcs caravan up parsed request,
        exec_dlyReqRx caravan up parsed request⟩,
      fun response => ⟨exec_dlyRspRx_badFcs caravan up parsed response,
        fun t1 good asked => exec_dlyRspRx caravan up parsed response good asked⟩⟩,
    exec_cvnSlotMissed⟩
  have through := fun marks proc => cvnPass_through (bs := bs) (resid := resid) (marks := marks) (proc := proc) onD opens delay young active
  refine ⟨fun leave => ?_, fun commit => ?_⟩
  · exact (cvnArrive_passes takes parsed other leave).trans (congrArg done (through _ _))
  · exact (cvnArrive_passes takes parsed other commit).trans (congrArg done (through _ _))

end Sys2Proof.Machine
end

section
/-! Transmit buffers, receive FIFOs, frames and error states of a multi-drop bus (R770 to R789). -/

namespace Sys2Proof.Machine

/-! ## The window -/

section
variable {s : State} {l n : Nat} (served : s.inBlkReset (.mdb n) = false)
include served

theorem onBusWin_other (other : s.busSlot n ≠ some l) (what : Nat) (r : Res) :
    onBusWin s l n what r = .next (settle ({ s with rdata := 0 }.winErr n l what)) := by
  unfold onBusWin
  rw [if_neg (by simp [served]), if_neg (by simpa [State.holdsBus] using other)]
  rfl

theorem onBusWin_holder (holds : s.busSlot n = some l) (what : Nat) (r : Res) : onBusWin s l n what r = r := by
  unfold onBusWin
  rw [if_neg (by simp [served]), if_pos (by simp [State.holdsBus, holds])]

end

/-- A write of TX_GO aborts, then requests (R777). -/
theorem busWrite_go (s : State) (n l : Nat) (v : Word) : s.busWrite n l 0x20 v =
    if bitOf v.toNat 8 then (if bitOf v.toNat 9 then s.txAbort n (v.toNat % 32) else s).txRequest n (v.toNat % 32)
    else if bitOf v.toNat 9 then s.txAbort n (v.toNat % 32) else s := rfl

theorem busWrite_request (s : State) (n l : Nat) (i : Fin 32) :
    s.busWrite n l 0x20 (BitVec.ofNat 32 (2 ^ 8 + i)) = s.txRequest n i := by
  have word : (BitVec.ofNat 32 (2 ^ 8 + i.val)).toNat = 256 + i := by rw [BitVec.toNat_ofNat]; omega
  have buf : (256 + i.val) % 32 = i := by omega
  have noAbort : bitOf (256 + i.val) 9 = false := by simp [bitOf]; omega
  have request : bitOf (256 + i.val) 8 = true := by simp [bitOf]; omega
  rw [busWrite_go, word, buf, noAbort, request]
  rfl

theorem busWrite_abort (s : State) (n l : Nat) (i : Fin 32) :
    s.busWrite n l 0x20 (BitVec.ofNat 32 (2 ^ 9 + i)) = s.txAbort n i := by
  have word : (BitVec.ofNat 32 (2 ^ 9 + i.val)).toNat = 512 + i := by rw [BitVec.toNat_ofNat]; omega
  have buf : (512 + i.val) % 32 = i := by omega
  have abort : bitOf (512 + i.val) 9 = true := by simp [bitOf]; omega
  have noRequest : bitOf (512 + i.val) 8 = false := by simp [bitOf]; omega
  rw [busWrite_go, word, buf, abort, noRequest]
  rfl

/-! ## Transmit buffers -/

section
variable {s : State} {n i : Nat}

theorem txRequest_malformed (free : ((s.bus n).buf i).pending = false)
    (bad : lenOk ((s.bus n).buf i).hdr = false ∨ s.dmax n < hdrLen ((s.bus n).buf i).hdr) : s.txRequest n i = s.bufDone n i 4 s.now := by
  refine (if_neg (by simp [free])).trans (if_pos ?_)
  rcases bad with malformed | long
  · simp [malformed]
  · simp [long]

theorem txRequest_pends (free : ((s.bus n).buf i).pending = false) (sound : lenOk ((s.bus n).buf i).hdr = true)
    (fits : hdrLen ((s.bus n).buf i).hdr ≤ s.dmax n) :
    s.txRequest n i = s.setBus n ((s.bus n).setBuf i { (s.bus n).buf i with pending := true }) :=
  (if_neg (by simp [free])).trans (if_neg (by simpa [sound] using fits))

variable (pending : ((s.bus n).buf i).pending = true)
include pending

theorem txAbort_waiting (waits : ∀ q, (s.bus n).sending = some q → q.1 ≠ i) : s.txAbort n i = s.bufDone n i 1 s.now := by
  unfold State.txAbort
  dsimp only
  rw [if_neg (by simp [pending])]
  cases sending : (s.bus n).sending with
  | none => rfl
  | some q =>
    obtain ⟨j, t, e⟩ := q
    exact if_neg (by simpa using waits _ sending)

theorem txAbort_sending {t : Nat} {e : Bool} (sends : (s.bus n).sending = some (i, t, e)) :
    s.txAbort n i = s.setBus n ((s.bus n).setBuf i { (s.bus n).buf i with abort := true }) := by
  unfold State.txAbort
  dsimp only
  rw [if_neg (by simp [pending]), sends]
  exact if_pos (by simp)

end

/-! ## Frames -/

section
variable {s : State} {bus : Fin 8}

theorem exec_mdbTxStart {j : Nat} (next : s.nextBuf bus = some j) (may : s.canSend bus = true) :
    exec (.mdbTxStart bus .ok) s = .next (settle (s.setBus bus { s.bus bus with sending := some (j, s.now, false) })) := by
  show execMdbTxStart bus .ok s = _
  rw [execMdbTxStart, next]
  exact if_pos may

theorem exec_mdbFrameSent {j t : Nat} {excl : Bool} (sends : (s.bus bus).sending = some (j, t, excl)) :
    let b := s.bus bus
    exec (.mdbFrameSent bus) s = .next (settle (((((s.setBus bus { b with sending := none }).emit
      (.bus bus (b.buf j).hdr (b.buf j).bytes)).bufDone bus j 0 t).setErrs bus (s.rd (MDB_STAT bus) MDB_STAT_TEC - 1)
        (s.rd (MDB_STAT bus) MDB_STAT_REC)).modeSettle bus)) := by
  show execMdbFrameSent bus s = _
  unfold execMdbFrameSent
  dsimp only
  rw [sends]
  rfl

section
variable (receives : s.canReceive bus = true) (normal : s.mdbMode bus = 1)
include receives normal

theorem exec_mdbFrameReceived {h0 h1 h2 h3 : Word} {data : List Byte} (low : s.rd (MDB_STAT bus) MDB_STAT_REC ≤ 127)
    (allowed : s.fmtAllowed bus [h0, h1, h2, h3] = true) {t : State}
    (stored : (s.setErrs bus (s.rd (MDB_STAT bus) MDB_STAT_TEC) (s.rd (MDB_STAT bus) MDB_STAT_REC - 1)).storeRx bus [h0, h1, h2, h3]
      data = t) (settled : t.mdbMode bus ≠ 3) : exec (.mdbFrameReceived bus h0 h1 h2 h3 data) s = .next (settle t) := by
  have counted : s.recDown bus = s.setErrs bus (s.rd (MDB_STAT bus) MDB_STAT_TEC) (s.rd (MDB_STAT bus) MDB_STAT_REC - 1) :=
    (if_neg (not_not.mpr normal)).trans (if_neg (not_lt.mpr low))
  refine (if_pos (by simp [receives, allowed])).trans ?_
  rw [counted, stored]
  exact congrArg done (if_neg settled)

theorem exec_mdbErrorDetected_receiving {kind : Fin 5} {afterArb dataPhase dominant : Bool} {t : State}
    (counted : (s.setErrs bus (s.rd (MDB_STAT bus) MDB_STAT_TEC) (s.rd (MDB_STAT bus) MDB_STAT_REC + (if dominant then 9 else 1))).errEvent
      bus kind false = t) (idle : (s.bus bus).sending = none) (settled : t.mdbMode bus ≠ 3) (on : t.mdbEst bus ≠ 2) :
    exec (.mdbErrorDetected bus kind false afterArb dataPhase dominant) s = .next (settle t) := by
  have counts : s.errCount bus kind false afterArb dominant = s.setErrs bus (s.rd (MDB_STAT bus) MDB_STAT_TEC)
      (s.rd (MDB_STAT bus) MDB_STAT_REC + (if dominant then 9 else 1)) := if_neg (not_not.mpr normal)
  show execMdbErrorDetected bus kind false afterArb dataPhase dominant s = _
  unfold execMdbErrorDetected
  dsimp only
  rw [if_neg (by simp [receives]), idle, counts]
  dsimp only
  rw [counted, if_neg (c := _ ∧ _) (fun both => settled both.1), if_neg on]
  rfl

theorem exec_mdbErrorDetected_sending {kind : Fin 5} {dataPhase dominant : Bool} {t : State}
    (counted : (s.setErrs bus (s.rd (MDB_STAT bus) MDB_STAT_TEC + 8) (s.rd (MDB_STAT bus) MDB_STAT_REC)).errEvent bus kind true = t)
    (notAck : kind ≠ 3) (notStuff : kind ≠ 1) (settled : t.mdbMode bus ≠ 3) :
    exec (.mdbErrorDetected bus kind true false dataPhase dominant) s =
      .next (settle (if t.mdbEst bus = 2 then t.enterBusOff bus else t.sendEnds bus)) := by
  have counts : s.errCount bus kind true false dominant = s.setErrs bus (s.rd (MDB_STAT bus) MDB_STAT_TEC + 8)
      (s.rd (MDB_STAT bus) MDB_STAT_REC) := by
    have three : (kind.val == 3) = false := beq_eq_false_iff_ne.mpr fun is => notAck (Fin.ext is)
    have one : (kind.val == 1) = false := beq_eq_false_iff_ne.mpr fun is => notStuff (Fin.ext is)
    refine (if_neg (not_not.mpr normal)).trans ((if_pos rfl).trans (if_neg ?_))
    rw [three, one]
    exact Bool.false_ne_true
  have ends : (if t.mdbEst bus = 2 then done (t.enterBusOff bus) else if true = true then done (t.sendEnds bus) else done t) =
      .next (settle (if t.mdbEst bus = 2 then t.enterBusOff bus else t.sendEnds bus)) := by
    by_cases off : t.mdbEst bus = 2
    · rw [if_pos off, if_pos off]
      rfl
    · rw [if_neg off, if_neg off, if_pos (Eq.refl true)]
      rfl
  show execMdbErrorDetected bus kind true false dataPhase dominant s = _
  unfold execMdbErrorDetected
  dsimp only
  rw [if_neg (by simp [receives]), counts]
  generalize (s.bus bus).sending = q
  cases q with
  | none =>
    dsimp only
    rw [counted, if_neg (c := _ ∧ _) (fun both => settled both.1)]
    exact ends
  | some q =>
    simp only [Bool.and_false, Bool.false_eq_true, if_false]
    rw [counted, if_neg (c := _ ∧ _) (fun both => settled both.1)]
    exact ends

end

theorem exec_mdbRecoveryDone (recovers : s.mdbEst bus = 3) :
    let w := MDB_STAT bus
    exec (.mdbRecoveryDone bus) s = .next (settle ((((((s.wr w MDB_STAT_ESTATE 0).wr w MDB_STAT_RECOV 0).wr w MDB_STAT_TEC 0).wr
      w MDB_STAT_REC 0).wr w MDB_STAT_WARN 0).mdbState bus)) :=
  if_neg (not_not.mpr recovers)

end

/-! ## Commands -/

section
variable {t : State} {ring : Fin 512} {p0 : BitVec 64}

theorem cmdMdbRecover_starts {k : Nat} (bus : p0.toNat % 8 = k) (off : t.mdbEst k = 2) (host : t.fun3Hw = false) :
    cmdMdbRecover ring p0 t = (t.startRecovery k).finish ring 0x91 stOk 0 := by
  subst bus
  exact if_neg (by simp [off, host])

theorem cmdMdbRecover_badState {k : Nat} (bus : p0.toNat % 8 = k) (refused : t.mdbEst k ≠ 2 ∨ t.fun3Hw = true) :
    cmdMdbRecover ring p0 t = t.finish ring 0x91 stBadState 0 := by
  subst bus
  exact if_pos refused

section
variable {m j : Nat} (bus : bitsOf p0.toNat 18 16 = m) (buffer : p0.toNat % 32 = j)
include bus buffer

theorem cmdMdbAbort_badParam (beyond : t.tbCount m ≤ j) : cmdMdbAbort ring p0 t = t.finish ring 0x90 stBadParam 0 := by
  subst bus buffer
  exact if_pos beyond

variable (exists_ : j < t.tbCount m)
include exists_

theorem cmdMdbAbort_notBound (free : t.busSlot m = none) : cmdMdbAbort ring p0 t = t.finish ring 0x90 stNotBound 0 := by
  subst bus buffer
  exact (if_neg (not_le.mpr exists_)).trans (if_pos (by simp [free]))

variable (held : (t.busSlot m).isSome = true) (pending : ((t.bus m).buf j).pending = true)
include held pending

theorem cmdMdbAbort_sending {a : Nat} {e : Bool} (sends : (t.bus m).sending = some (j, a, e)) : cmdMdbAbort ring p0 t =
    t.setBus m ((t.bus m).setBuf j { (t.bus m).buf j with
      abort := true, abortCmds := ((t.bus m).buf j).abortCmds ++ [ring.val] }) := by
  subst bus buffer
  unfold cmdMdbAbort
  dsimp only
  rw [if_neg (not_le.mpr exists_), if_neg (by simpa [Option.isSome_iff_ne_none] using held), if_neg (by simp [pending]), sends]
  exact if_pos (by simp)

theorem cmdMdbAbort_waiting (waits : ∀ q, (t.bus m).sending = some q → q.1 ≠ j) :
    cmdMdbAbort ring p0 t = (t.bufDone m j 1 t.now).finish ring 0x90 stOk 1 := by
  subst bus buffer
  unfold cmdMdbAbort
  dsimp only
  rw [if_neg (not_le.mpr exists_), if_neg (by simpa [Option.isSome_iff_ne_none] using held), if_neg (by simp [pending])]
  cases sending : (t.bus (bitsOf p0.toNat 18 16)).sending with
  | none => rfl
  | some q =>
    obtain ⟨k, a, e⟩ := q
    exact if_neg (by simpa using waits _ sending)

end

end

/-- Settles O51: each access is decided by the holder of the bus, and each event by the state of its buffers and counters. -/
theorem busBuffersFramesAndErrors : Obligations.BusBuffersFramesAndErrors := by
  intro s l bus i ring kind afterArb dataPhase dominant ecc h0 h1 h2 h3 data p0 to_ n b x u w answer
  refine ⟨fun served => ⟨fun other => ⟨onBusWin_other served other _ _, onBusWin_other served other _ _, onBusWin_other served other _ _⟩,
      fun holds => ⟨fun free bad => ?_, fun free sound fits => ?_, fun pending waits => ?_, fun t e pending sends => ?_,
        onBusWin_holder served holds _ _, onBusWin_holder served holds _ _, onBusWin_holder served holds _ _⟩⟩,
    fun j next may => exec_mdbTxStart next may,
    fun j t excl sends => ⟨Eq.refl _, exec_mdbFrameSent sends⟩,
    fun receives normal => ⟨fun low allowed settled => exec_mdbFrameReceived receives normal low allowed (Eq.refl _) settled,
      fun idle settled on => exec_mdbErrorDetected_receiving receives normal (Eq.refl _) idle settled on,
      fun notAck notStuff settled => ?_⟩,
    fun recovers => exec_mdbRecoveryDone recovers,
    fun takes => ?_⟩
  · exact (onBusWin_holder served holds _ _).trans (congrArg done ((busWrite_request s n l i).trans (txRequest_malformed free bad)))
  · exact (onBusWin_holder served holds _ _).trans (congrArg done ((busWrite_request s n l i).trans (txRequest_pends free sound fits)))
  · exact (onBusWin_holder served holds _ _).trans (congrArg done ((busWrite_abort s n l i).trans (txAbort_waiting pending waits)))
  · exact (onBusWin_holder served holds _ _).trans (congrArg done ((busWrite_abort s n l i).trans (txAbort_sending pending sends)))
  · have detected := exec_mdbErrorDetected_sending (dataPhase := dataPhase) (dominant := dominant) receives normal (Eq.refl _) notAck
      notStuff settled
    exact ⟨fun on => detected.trans (congrArg done (if_neg on)), fun off => detected.trans (congrArg done (if_pos off))⟩
  · intro k m j y ends
    exact ⟨fun off host => command_is takes (cmdMdbRecover_starts (Eq.refl k) off host),
      fun refused => command_is takes (cmdMdbRecover_badState (Eq.refl k) refused),
      fun beyond => command_is takes (cmdMdbAbort_badParam (Eq.refl m) (Eq.refl j) beyond),
      fun exists_ free => command_is takes (cmdMdbAbort_notBound (Eq.refl m) (Eq.refl j) exists_ free),
      fun exists_ held pending => ⟨fun a e sends => command_is takes
          (cmdMdbAbort_sending (Eq.refl m) (Eq.refl j) exists_ held pending sends),
        fun waits => command_is takes (cmdMdbAbort_waiting (Eq.refl m) (Eq.refl j) exists_ held pending waits)⟩⟩

end Sys2Proof.Machine
end

section
/-! Bus modes, time-triggered operation and controller remaps (R765 to R789). -/

namespace Sys2Proof.Machine

section
variable {s : State} {bus : Fin 8}

/-! ## Modes -/

section
variable {p : Fin 2} (hears : s.hears p (.mdb bus) = true) {v : Word}
include hears

theorem exec_mdbModeWrite : exec (.mdbModeWrite p bus v) s =
    .next (settle (if bitOf v.toNat 7 then (s.busCtrl bus v).ttEnable bus (20 + p) else s.busCtrl bus v)) :=
  onMw0_hears hears _ _

theorem exec_mdbRamCfgWrite : exec (.mdbRamCfgWrite p bus v) s = if s.busInit bus then .next (settle (s.ramCfg bus v (20 + p)))
    else .next (settle (s.raiseFor (.mdb bus) F_MDB_CFG_ERR (mdbCaps bus 0 (20 + p)) bus)) :=
  onMw0_hears hears _ _

end

/-! ## Next starts -/

section
variable {t : State} {ring : Fin 512} {p0 p1 : BitVec 64} {k : Nat} (named : p0.toNat % 8 = k)
include named

theorem cmdMdbTtNext_badState (refused : t.fun3Hw = true ∨ t.flag (MDB_STAT k) MDB_STAT_TT_MASTER = false) :
    cmdMdbTtNext ring p0 p1 t = t.finish ring 0x92 stBadState 0 := by
  subst named
  refine if_pos ?_
  rcases refused with hardware | other
  · exact .inl hardware
  · exact .inr (by simp [other])

variable (host : t.fun3Hw = false) (master : t.flag (MDB_STAT k) MDB_STAT_TT_MASTER = true)
include host master

theorem cmdMdbTtNext_sets (ahead : t.now ≤ p1.toNat) :
    cmdMdbTtNext ring p0 p1 t = (t.setBus k { t.bus k with ttNext := some p1.toNat }).finish ring 0x92 stOk 0 := by
  subst named
  exact (if_neg (by simp [host, master])).trans (if_neg (not_lt.mpr ahead))

theorem cmdMdbTtNext_past (past : p1.toNat < t.now) : cmdMdbTtNext ring p0 p1 t = t.finish ring 0x92 stBadParam 0 := by
  subst named
  exact (if_neg (by simp [host, master])).trans (if_pos past)

end

/-! ## Triggers -/

section
variable (on : s.ttOn bus = true)
include on

section
variable {i : Fin 64} (runs : (s.bus bus).ttRun = true) (enabled : bitOf (s.reg64 (MDB_TRG bus i)) 61 = true)
  (acts : s.rd (MDB_TT_STAT bus) MDB_TT_STAT_CYCLE_CNT % 2 ^ bitsOf (s.reg64 (MDB_TRG bus i)) 54 52 = bitsOf (s.reg64 (MDB_TRG bus i)) 60 55)
include runs enabled acts

theorem exec_mdbTrigger :
    let w := s.reg64 (MDB_TRG bus i)
    let kind := bitsOf w 63 62
    let b := bitsOf w 50 46
    exec (.mdbTrigger bus i) s =
      if kind = 0 then
        if ((s.bus bus).buf b).pending && s.canSend bus then .next (settle (s.sendBuf bus b (bitOf w 51) .ok)) else .next s
      else if kind = 1 then
        if (s.bus bus).matched.contains b then .next s
        else .next (settle ((s.bump (MDB_TT_STAT bus) MDB_TT_STAT_TT_MISS 1).setBus bus { s.bus bus with ttEv := true }))
      else if kind = 2 then (if s.refOk bus then .next (settle (s.sendRef bus)) else .next s)
      else
        let t := (s.ttEvent bus 1 0).raiseFor (.mdb bus) F_MDB_TT_ERR (mdbCaps bus (s.rd (MDB_TT_CFG bus) MDB_TT_CFG_REF_ID) 31) bus
        .next (settle (if t.refOk bus then t.sendRef bus else t.ttStop bus)) :=
  if_neg (by simp only [on, runs, enabled, acts, beq_self_eq_true]; decide)

end

theorem exec_mdbRefReceived (receives : s.canReceive bus = true) (follower : s.flag (MDB_STAT bus) MDB_STAT_TT_MASTER = false)
    (level1 : s.flag (MDB_TT_CFG bus) MDB_TT_CFG_LEVEL2 = false) (prio : Fin 8) (cycle : Fin 64) (g : Nat) :
    let t := (s.ttCycleStart bus (cycle.val % 2 ^ s.ttMatrix bus) prio).wr (MDB_STAT bus) MDB_STAT_TT_MASTER 0
    exec (.mdbRefReceived bus prio cycle g) s =
      .next (settle (if (s.bus bus).ttRun && s.rd (MDB_TT_STAT bus) MDB_TT_STAT_MASTER != prio.val then t.ttEvent bus 2 0 else t)) := by
  refine (if_neg (by simp [on, receives, follower])).trans (if_neg ?_)
  rw [level1]
  exact Bool.false_ne_true

theorem exec_mdbTtLate (host : s.fun3Hw = false) (master : s.flag (MDB_STAT bus) MDB_STAT_TT_MASTER = true)
    (none : (s.bus bus).ttNext = none) :
    exec (.mdbTtLate bus) s = .next (settle ((s.bump (MDB_TT_STAT bus) MDB_TT_STAT_TT_LATE 1).ttEvent bus 3 0)) :=
  if_pos (by simp [on, host, master, none])

end

/-! ## Remaps -/

theorem remapAt_of {step : Nat} (active : s.flag MDB8_REMAP MDB8_REMAP_ACTIVE = true) (at_ : s.rd MDB8_REMAP MDB8_REMAP_STEP = step) :
    s.remapAt step = true := by
  simp [State.remapAt, active, at_]

theorem exec_mdbRemapSwitch (due : s.remapAt 2 = true) {m new old : Nat} (bus : s.rd MDB8_REMAP MDB8_REMAP_BUS = m)
    (to_ : s.rd MDB8_REMAP MDB8_REMAP_TO = new) (from_ : s.rd MDB8_REMAP MDB8_REMAP_FROM = old)
    (idle : (s.bus m).sending = none) (on : s.mdbEst m < 2) :
    let t := (((s.setCtrl m new).wr MDB8_REMAP MDB8_REMAP_STEP 3).wr MDB8_REMAP MDB8_REMAP_ACTIVE 0).bump MDB8_REMAP MDB8_REMAP_COUNT 1
    exec .mdbRemapSwitch s = .next (settle ({ t with ctrlWorn := old :: t.ctrlWorn }.remapEvent m new old false)) := by
  subst bus to_ from_
  exact if_pos (by simp [due, idle, on])

section
variable {ctrl : Fin 9} (sound : s.ctrlBad.contains ctrl.val = false) (settled : s.flag MDB8_REMAP MDB8_REMAP_ACTIVE = false) {t : State}
  (failed : { s.unitFailed kMdb ctrl with ctrlBad := ctrl.val :: s.ctrlBad } = t)
include sound settled failed

theorem exec_mdbCtrlFail_spare (spare : s.busOfCtrl ctrl = none) :
    exec (.mdbCtrlFail ctrl) s = .next (settle (t.raiseFor (.mdb 8) F_MDB_CTRL_FAIL [0, 31, 0] 255)) := by
  refine (if_neg (ne_true_of_eq_false sound)).trans ?_
  dsimp only
  rw [settled, Bool.false_and, if_neg Bool.false_ne_true, failed, spare]
  rfl

variable {m : Nat} (serving : s.busOfCtrl ctrl = some m)
include serving

theorem exec_mdbCtrlFail_moves {c : Nat} {rest : List Nat} (spare : t.spareCtrls = c :: rest) : exec (.mdbCtrlFail ctrl) s =
    .next (settle (((t.moveBus m c).remapEvent m c ctrl true).raiseFor (.mdb m) F_MDB_CTRL_FAIL (mdbCaps m 0 31) m)) := by
  refine (if_neg (ne_true_of_eq_false sound)).trans ?_
  dsimp only
  rw [settled, Bool.false_and, if_neg Bool.false_ne_true, failed, serving]
  dsimp only
  rw [spare]
  rfl

theorem exec_mdbCtrlFail_sheds (none : t.spareCtrls = []) : exec (.mdbCtrlFail ctrl) s =
    .next (settle ((((t.shedBus m).outageFrom (outBus m)).lossOf 5 m).raiseFor (.mdb m) F_MDB_CTRL_FAIL (mdbCaps m 0 31) m)) := by
  refine (if_neg (ne_true_of_eq_false sound)).trans ?_
  dsimp only
  rw [settled, Bool.false_and, if_neg Bool.false_ne_true, failed, serving]
  dsimp only
  rw [none]
  rfl

end

end

/-- Settles O52: each trigger is decided by its kind and the node, and each remap by the bus and the spare controllers. -/
theorem busModesTriggersAndRemaps : Obligations.BusModesTriggersAndRemaps := by
  intro s p bus prio cycle i ctrl g ring v p0 p1 to_ n b u st cfgErr on
  refine ⟨fun hears => ⟨fun off => ?_, fun enables => ?_, onMw0_hears hears _ _, fun init => ?_, fun active => ?_⟩,
    fun takes => ?_,
    fun ttOn => ⟨fun runs enabled acts => ?_, fun may => if_pos may, fun receives follower level1 => ?_,
      fun host master none => exec_mdbTtLate ttOn host master none⟩,
    fun active => ⟨fun step => if_pos (remapAt_of active step), fun step => ⟨if_pos (remapAt_of active step),
      fun idle on => exec_mdbRemapSwitch (remapAt_of active step) (Eq.refl _) (Eq.refl _) (Eq.refl _) idle on⟩⟩,
    fun sound settled => ⟨fun spare => exec_mdbCtrlFail_spare sound settled (Eq.refl _) spare,
      fun m serving => ⟨fun c rest spare => exec_mdbCtrlFail_moves sound settled (Eq.refl _) serving spare,
        fun none => exec_mdbCtrlFail_sheds sound settled (Eq.refl _) serving none⟩⟩⟩
  · rw [exec_mdbModeWrite hears, if_neg (by simp [off])]
  · rw [exec_mdbModeWrite hears, if_pos enables]
    rfl
  · rw [exec_mdbRamCfgWrite hears, if_pos init]
  · rw [exec_mdbRamCfgWrite hears, if_neg (ne_true_of_eq_false active)]
  · intro k
    exact ⟨fun host master => ⟨fun ahead => command_is takes (cmdMdbTtNext_sets (Eq.refl k) host master ahead),
        fun past => command_is takes (cmdMdbTtNext_past (Eq.refl k) host master past)⟩,
      fun refused => command_is takes (cmdMdbTtNext_badState (Eq.refl k) refused)⟩
  · have fires := exec_mdbTrigger ttOn runs enabled acts
    have other : ∀ {j k : Nat}, bitsOf (s.reg64 (MDB_TRG n i)) 63 62 = j → j ≠ k → bitsOf (s.reg64 (MDB_TRG n i)) 63 62 ≠ k :=
      fun is ne eq => ne (is.symm.trans eq)
    refine ⟨fun kind pending may => ?_, fun kind missed => ?_, fun kind may => ?_, fun kind => ⟨fun may => ?_, fun may => ?_⟩⟩
    · exact fires.trans ((if_pos kind).trans (if_pos (Bool.and_eq_true_iff.mpr ⟨pending, may⟩)))
    · exact fires.trans ((if_neg (other kind (by decide))).trans ((if_pos kind).trans (if_neg (ne_true_of_eq_false missed))))
    · exact fires.trans ((if_neg (other kind (by decide))).trans ((if_neg (other kind (by decide))).trans ((if_pos kind).trans (if_pos may))))
    · exact fires.trans ((if_neg (other kind (by decide))).trans ((if_neg (other kind (by decide))).trans ((if_neg (other kind (by decide))).trans
        (congrArg done (if_pos may)))))
    · exact fires.trans ((if_neg (other kind (by decide))).trans ((if_neg (other kind (by decide))).trans ((if_neg (other kind (by decide))).trans
        (congrArg done (if_neg (ne_true_of_eq_false may))))))
  · have received := exec_mdbRefReceived ttOn receives follower level1 prio cycle g
    refine ⟨fun same => received.trans (congrArg done (if_neg ?_)), fun runs other => received.trans (congrArg done (if_pos ?_))⟩
    · rcases same with still | same
      · simp [show (s.bus bus).ttRun = false from still]
      · simp [show s.rd (MDB_TT_STAT bus) MDB_TT_STAT_MASTER = prio.val from same]
    · simpa [show (s.bus bus).ttRun = true from runs] using other

end Sys2Proof.Machine
end

section
/-! Buses that sleep, withdraw and wake, and the module's wake events (R807 to R825). -/

namespace Sys2Proof.Machine

section
variable {s : State} {bus : Fin 8}

/-! ## Requests -/

theorem onSleepCtrl_reached {who : Fin 18} (reached : if who.val < 16 then
      s.inBlkReset .wake = false ∧ s.inBlkReset (.mdb bus) = false ∧ s.busSlot bus = some who.val
    else s.hears (who.val - 16) .wake = true) (v : Word) : onSleepCtrl s who bus v = .next (settle (s.sleepCtrl bus v)) := by
  unfold onSleepCtrl
  split_ifs at reached ⊢ with slot reset
  · simp [reset] at reached
  · obtain ⟨-, served, holds⟩ := reached
    exact onBusWin_holder served holds _ _
  · exact onMw0_hears reached _ _

section
variable {n : Nat} (awake : s.sleepState n = 0)
include awake

theorem sleepRequest_pends (untimed : s.flag (MDB_CTRL n) MDB_CTRL_TT_EN = false)
    (mode : s.rd (MDB_CTRL n) MDB_CTRL_MODE = 1 ∨ s.rd (MDB_CTRL n) MDB_CTRL_MODE = 2) (served : (s.bus n).shed = false) :
    let pend := (s.wr (WAKE_BUS_STAT n) WAKE_BUS_STAT_FERR 0).setSleep n 1
    s.sleepRequest n = pend.setBus n { pend.bus n with pendAt := s.now } := by
  refine (if_neg (not_not.mpr awake)).trans (if_neg ?_)
  rintro (timed | ⟨other1, other2⟩ | shed)
  · simp [untimed] at timed
  · omega
  · simp [served] at shed

theorem sleepRequest_refused (refused : s.flag (MDB_CTRL n) MDB_CTRL_TT_EN = true ∨
      (s.rd (MDB_CTRL n) MDB_CTRL_MODE ≠ 1 ∧ s.rd (MDB_CTRL n) MDB_CTRL_MODE ≠ 2) ∨ (s.bus n).shed = true) :
    s.sleepRequest n = s.raiseFor .wake F_WAKE_SLP_REFUSED [n, 0, 0] n :=
  (if_neg (not_not.mpr awake)).trans (if_pos refused)

end

theorem sleepCancel_pending {n : Nat} (pending : s.sleepState n = 1) : s.sleepCancel n = s.setSleep n 0 := by
  rw [State.sleepCancel, pending]
  rfl

theorem sleepCancel_asleep {n : Nat} (asleep : 2 ≤ s.sleepState n) : s.sleepCancel n = s.wakeBus n 7 0 false := by
  unfold State.sleepCancel
  split
  case h_1 awake => omega
  case h_2 pending => omega
  case h_3 => rfl

/-! ## Wake events -/

section
variable {n src id : Nat} {ide after : Bool} (ordinary : src ≠ 4)
include ordinary

theorem busWakeEvent_standby (standby : s.mode = .standby) (enabled : s.flag (WAKE_BUS_CFG n) WAKE_BUS_CFG_STBY_EN = true) :
    s.busWakeEvent n src id ide after = s.moduleWake src n id ide := by
  unfold State.busWakeEvent
  dsimp only
  rw [if_neg ordinary, if_pos (.inl standby), if_pos enabled]

variable (running : s.mode ≠ .standby) (staying : s.enteringStandby = false)
include running staying

section
variable {k : Nat} (state : s.sleepState n = k)
include state

theorem busWakeEvent_running : s.busWakeEvent n src id ide after =
    if k = 0 then s
    else if k = 1 then
      if after then ((s.setSleep n 0).bump (WAKE_BUS_STAT n) WAKE_BUS_STAT_ABORTS 1).sleepEvent n 2 else s
    else if k = 2 then s.wakeBus n src id ide
    else if s.rd (WAKE_BUS_CFG n) WAKE_BUS_CFG_MODE == 2 || after then s.wakeBus n src id ide else s := by
  unfold State.busWakeEvent
  dsimp only
  rw [if_neg ordinary, if_neg (by simp [running, staying]), state]
  split
  case h_1 => rfl
  case h_2 => rfl
  case h_3 => rfl
  case h_4 awake pending asleep => rw [if_neg awake, if_neg pending, if_neg asleep]

end

end

section
variable {ide after : Bool} {id : BitVec 29} (armed : s.filterArmed bus = true)
include armed

theorem exec_busWakeEvent_pattern (mode : s.rd (WAKE_BUS_CFG bus) WAKE_BUS_CFG_MODE = 1) :
    exec (.busWakeEvent bus .pattern ide id after) s = .next (settle (s.busWakeEvent bus 2 0 false after)) :=
  if_pos (Bool.and_eq_true_iff.mpr ⟨armed, beq_iff_eq.mpr mode⟩)

theorem exec_busWakeEvent_selective (mode : s.rd (WAKE_BUS_CFG bus) WAKE_BUS_CFG_MODE = 2) :
    exec (.busWakeEvent bus .selective ide id after) s = .next (settle (s.busWakeEvent bus 3 id.toNat ide after)) :=
  if_pos (Bool.and_eq_true_iff.mpr ⟨armed, beq_iff_eq.mpr mode⟩)

end

theorem filterArmed_of_asleep {k : Nat} (state : s.sleepState bus = k) (asleep : k ≠ 0) : s.filterArmed bus = true := by
  simp [State.filterArmed, state, asleep]

theorem filterArmed_of_standby (standby : s.mode = .standby) (enabled : s.flag (WAKE_BUS_CFG bus) WAKE_BUS_CFG_STBY_EN = true) :
    s.filterArmed bus = true := by
  simp [State.filterArmed, standby, enabled]

/-! ## Other activity -/

section
variable (armed : s.filterArmed bus = true)
include armed

theorem exec_wakeFilterActivity (what : FilterSeen) :
    let st := WAKE_BUS_STAT bus
    let ferr := s.rd st WAKE_BUS_STAT_FERR
    let selective := s.rd (WAKE_BUS_CFG bus) WAKE_BUS_CFG_MODE == 2
    exec (.wakeFilterActivity bus what) s = match what with
      | .short => .next (s.bump st WAKE_BUS_STAT_FALSE 1)
      | .badFrame =>
        if !selective then .next s
        else if ferr < 31 then .next (s.wr st WAKE_BUS_STAT_FERR (ferr + 1))
        else .next (settle (s.busWakeEvent bus 4 0 false true))
      | .goodFrame => if selective then .next (s.wr st WAKE_BUS_STAT_FERR (ferr - 1)) else .next s :=
  (if_neg (by simp [armed])).trans (by cases what <;> rfl)

end

/-! ## Gates and limits -/

theorem exec_awakeMaxExpiry (pending : s.sleepState bus = 1) (limited : s.rd (WAKE_BUS_CFG bus) WAKE_BUS_CFG_AWAKE_MAX ≠ 0) :
    let t := (s.event .wake 0x4A 5 (bus * 2 ^ 32) 0).raiseFor .wake F_WAKE_AWAKE_MAX [bus, 0, 0] bus
    exec (.awakeMaxExpiry bus) s =
      .next (settle (if s.flag (WAKE_BUS_CFG bus) WAKE_BUS_CFG_WITHDRAW then t.fallAsleep bus 3 else t)) :=
  if_pos ⟨pending, limited⟩

theorem moduleWake_standby {src n id : Nat} {ide : Bool} (standby : s.mode = .standby) :
    s.moduleWake src n id ide = s.later (.standbyWake src n id ide) :=
  if_pos standby

end

/-- Settles O53: each request and each wake is decided by the sleep state of its bus. -/
theorem busesSleepAndWake : Obligations.BusesSleepAndWake := by
  intro s who bus ide after id to_ n st cfg mode tt pend
  refine ⟨fun reached => ⟨fun awake => ⟨fun untimed normal served => ?_, fun refused => ?_⟩, fun pending => ?_, fun asleep => ?_⟩,
    fun pending => ⟨fun idle empty on => if_pos ⟨pending, by rw [show (s.bus bus).sending = none from idle]; rfl, empty, on⟩,
      fun limited => ⟨fun stays => ?_, fun withdraws => ?_⟩⟩,
    fun pattern => ⟨fun standby enabled => ?_, fun running staying => ⟨fun pending begun => ?_, fun pending before => ?_,
      fun asleep => ?_, fun withdrawn idle => ?_⟩⟩,
    fun selective running staying asleep => ?_,
    fun armed => ⟨exec_wakeFilterActivity armed .short, fun selective => ⟨?_, fun few => ?_, fun many => ?_⟩⟩,
    fun standby => ⟨fun enabled => ?_, fun set => ?_⟩⟩
  · exact (onSleepCtrl_reached reached _).trans (congrArg done (sleepRequest_pends awake untimed normal served))
  · exact (onSleepCtrl_reached reached _).trans (congrArg done (sleepRequest_refused awake refused))
  · exact (onSleepCtrl_reached reached _).trans (congrArg done (sleepCancel_pending pending))
  · exact (onSleepCtrl_reached reached _).trans (congrArg done (sleepCancel_asleep asleep))
  · rw [exec_awakeMaxExpiry pending limited, if_neg (ne_true_of_eq_false stays)]
  · rw [exec_awakeMaxExpiry pending limited, if_pos withdraws]
  · have event := busWakeEvent_standby (src := 2) (id := 0) (ide := false) (after := after) (by decide) standby enabled
    exact (exec_busWakeEvent_pattern (filterArmed_of_standby standby enabled) pattern).trans
      (congrArg done (event.trans (moduleWake_standby standby)))
  · rw [exec_busWakeEvent_pattern (filterArmed_of_asleep pending (by decide)) pattern,
      busWakeEvent_running (by decide) running staying pending, begun]
    rfl
  · rw [exec_busWakeEvent_pattern (filterArmed_of_asleep pending (by decide)) pattern,
      busWakeEvent_running (by decide) running staying pending, before]
    rfl
  · rw [exec_busWakeEvent_pattern (filterArmed_of_asleep asleep (by decide)) pattern,
      busWakeEvent_running (by decide) running staying asleep]
    rfl
  · rw [exec_busWakeEvent_pattern (filterArmed_of_asleep withdrawn (by decide)) pattern,
      busWakeEvent_running (by decide) running staying withdrawn, idle, Bool.or_true]
    rfl
  · rw [exec_busWakeEvent_selective (filterArmed_of_asleep asleep (by decide)) selective,
      busWakeEvent_running (by decide) running staying asleep]
    rfl
  · rw [exec_wakeFilterActivity armed .goodFrame]
    exact if_pos (beq_iff_eq.mpr selective)
  · rw [exec_wakeFilterActivity armed .badFrame]
    exact (if_neg (by simp [show s.rd (WAKE_BUS_CFG bus) WAKE_BUS_CFG_MODE = 2 from selective])).trans (if_pos few)
  · rw [exec_wakeFilterActivity armed .badFrame]
    exact (if_neg (by simp [show s.rd (WAKE_BUS_CFG bus) WAKE_BUS_CFG_MODE = 2 from selective])).trans (if_neg (not_lt.mpr many))
  · exact (if_pos enabled).trans (congrArg done (moduleWake_standby standby))
  · exact (if_pos ⟨standby, set⟩).trans (congrArg done (moduleWake_standby standby))

end Sys2Proof.Machine
end

section
/-! The ticks of a sequencer: due instructions, their parts and the ends of dwells (R841 to R863). -/

namespace Sys2Proof.Machine

/-! ## A tick -/

/-- What a tick answers with the sound, legal instruction `w` due: it stalls, or acts and dwells or goes on (R842, R847). -/
def SeqRuns (s : State) (n : Nat) (pins : BitVec 48) (w : Word) (adv : Bool) (r : Res) : Prop :=
  let s1 := ({ s with psq := { s.psq with pins := pins } } : State).seqPhase n 1
  let ends := fun (t : State) => Host.Outcome.next (settle (t.setSeq n { t.seqSt n with test := s1.testLevel n }))
  (s1.seqStalls n w = true → r = ends (s1.setSeq n { s1.seqSt n with stalled := some (w, adv), inject := none })) ∧
  (s1.seqStalls n w = false →
    let base := if adv = true then s1.seqAfter n (s.seqSt n).pc else (s.seqSt n).pc
    let a := (s1.setSeq n { s1.seqSt n with stalled := none, inject := none }).seqAct n w base
    (iDwell w = 0 → r = ends (a.2.seqGo n a.1)) ∧
    (iDwell w ≠ 0 → r = ends (a.2.setSeq n { a.2.seqSt n with dwell := some (iDwell w, a.1) })))

section
variable {s : State} {n : Nat} {pins : BitVec 48} {bad : Bool} {w : Word} {adv : Bool} (due : s.seqDue n = (w, adv))
include due

section
variable (sound : ((s.seqSt n).inject.isNone && (s.seqSt n).stalled.isNone && bad) = false)
include sound

theorem seqTick_runs (legal : seqLegal w = true) : SeqRuns s n pins w adv (done (s.seqTick n pins bad)) := by
  have tick : s.seqTick n pins bad =
      (let s1 := ({ s with psq := { s.psq with pins := pins } } : State).seqPhase n 1
      let s2 :=
        if s1.seqStalls n w then s1.setSeq n { s1.seqSt n with stalled := some (w, adv), inject := none }
        else
          let base := if adv then s1.seqAfter n (s.seqSt n).pc else (s.seqSt n).pc
          let a := (s1.setSeq n { s1.seqSt n with stalled := none, inject := none }).seqAct n w base
          if iDwell w = 0 then a.2.seqGo n a.1 else a.2.setSeq n { a.2.seqSt n with dwell := some (iDwell w, a.1) }
      s2.setSeq n { s2.seqSt n with test := s1.testLevel n }) := by
    unfold State.seqTick
    dsimp only
    rw [due]
    exact (if_neg (ne_true_of_eq_false sound)).trans (if_neg (by simp [legal]))
  rw [tick]
  refine ⟨fun stalls => ?_, fun acts => ⟨fun single => ?_, fun dwells => ?_⟩⟩
  · dsimp only
    rw [if_pos stalls]
    rfl
  · dsimp only
    rw [if_neg (ne_true_of_eq_false acts), if_pos single]
    rfl
  · dsimp only
    rw [if_neg (ne_true_of_eq_false acts), if_neg dwells]
    rfl

theorem seqTick_illegal (illegal : seqLegal w = false) : s.seqTick n pins bad = s.seqIllegal n := by
  unfold State.seqTick
  dsimp only
  rw [due]
  exact (if_neg (ne_true_of_eq_false sound)).trans (if_pos (by simp [illegal]))

end

omit due in
theorem seqTick_unsound (unsound : ((s.seqSt n).inject.isNone && (s.seqSt n).stalled.isNone && bad) = true) :
    s.seqTick n pins bad = s.seqImemUe n :=
  if_pos unsound

section
variable (ticks : s.seqTicks n = true) (legal : seqLegal w = true) {p : Word → Bool} (meets : p w = true)
include ticks legal meets

theorem seqTickIf_meets : seqTickIf s n pins bad p = done (s.seqTick n pins bad) := by
  unfold seqTickIf
  rw [due]
  exact if_pos (by simp [ticks, legal, meets])

theorem seqTickIf_runs (sound : ((s.seqSt n).inject.isNone && (s.seqSt n).stalled.isNone && bad) = false) :
    SeqRuns s n pins w adv (seqTickIf s n pins bad p) := by
  rw [seqTickIf_meets due ticks legal meets]
  exact seqTick_runs due sound legal

end

end

section
variable {s : State} {seq : Fin 32} {pins : BitVec 48} {bad : Bool}

theorem exec_psqIllegal {w : Word} {adv : Bool} (ticks : s.seqTicks seq = true) (due : s.seqDue seq = (w, adv))
    (illegal : seqLegal w = false) : exec (.psqIllegal seq pins bad) s = .next (settle (s.seqTick seq pins bad)) :=
  if_pos (by simp [ticks, due, illegal])

theorem exec_psqDwellExpiry_plain (acts : (s.seqSt seq).dwell = none) :
    exec (.psqDwellExpiry seq pins bad) s = seqTickIf s seq pins bad seqPlain :=
  if_neg (by simp [acts])

section
variable {k : Nat} {next : SeqNext} (running : (s.seqSt seq).running = true) (served : s.seqMap seq ≠ 0x3F)
  (dwells : (s.seqSt seq).dwell = some (k, next))
include running served dwells

theorem exec_psqDwellExpiry_ends :
    let p1 := ({ s with psq := { s.psq with pins := pins } } : State).seqPhase seq k
    let p2 := (p1.setSeq seq { p1.seqSt seq with test := p1.testLevel seq }).seqGo seq next
    exec (.psqDwellExpiry seq pins bad) s = .next (settle
      (if bad && (p2.seqSt seq).running && (p2.seqSt seq).inject.isNone then p2.seqImemUe seq else p2)) := by
  refine (if_pos (by simp [running, served, dwells])).trans (congrArg done ?_)
  rw [State.seqDwellEnd, dwells]

end

end

/-! ## The parts of an instruction -/

section
variable {t : State} {n : Nat}

section
variable {w : Word} {base : BitVec 7} {cond : Bool}

theorem seqFlow_branch (branch : iFlow w = 1) : t.seqFlow n w cond base =
    if iCond w = 0xF then (.stop, t) else (if cond then .goto (BitVec.ofNat 7 (iTarget w)) else .goto base, t) := by
  rw [State.seqFlow, branch]
  rfl

theorem seqFlow_wait (wait : iFlow w = 2) : t.seqFlow n w cond base = (.goto base, t) := by
  rw [State.seqFlow, wait]
  rfl

section
variable (count : iFlow w = 3) (counter : iCond w = 0xA)
include count counter

theorem seqFlow_count_more (more : 1 < (t.seqSt n).lc0.toNat) : t.seqFlow n w cond base =
    (.goto (BitVec.ofNat 7 (iTarget w)), t.setSeq n { t.seqSt n with lc0 := (t.seqSt n).lc0 - 1 }) := by
  have some_ : (t.seqSt n).lc0 ≠ 0 := fun zero => by simp [zero] at more
  have left : (t.seqSt n).lc0 - 1 ≠ 0 := by bv_omega
  rw [State.seqFlow, count]
  refine (if_pos counter).trans ?_
  rw [if_neg some_]
  dsimp only
  rw [if_neg left]

theorem seqFlow_count_last (last : (t.seqSt n).lc0.toNat ≤ 1) : t.seqFlow n w cond base =
    (.goto base, t.setSeq n { t.seqSt n with lc0 := 0 }) := by
  have left : (if (t.seqSt n).lc0 = 0 then 0 else (t.seqSt n).lc0 - 1) = 0 := by
    split_ifs with zero
    · rfl
    · bv_omega
  rw [State.seqFlow, count]
  refine (if_pos counter).trans ?_
  rw [left]
  rfl

end

end

/-! ## The data -/

section
variable {v : Word} {vs : List Word}

theorem seqData_fetch (waits : (t.seqSt n).tx = v :: vs) :
    t.seqData n 1 = t.setSeq n { t.seqSt n with tx := vs, tsr := v, hold := v, tcnt := 0 } ∧
    t.seqData n 2 = t.setSeq n { t.seqSt n with tx := vs, tsr := v, hold := v, tcnt := 0 } := by
  simp only [State.seqData, waits, and_self]

theorem seqData_stale (empty : (t.seqSt n).tx = []) :
    t.seqData n 2 = (t.setSeq n { t.seqSt n with tsr := (t.seqSt n).hold, tcnt := 0 }).psqStale n PSQ_SEQ_CNT_TX_STALE := by
  simp only [State.seqData, empty]

theorem seqData_signal {l : Nat} (held : t.seqSlot n = some l) : t.seqData n 7 = t.setSeq n { t.seqSt n with signal := true } := by
  simp only [State.seqData, held]

theorem seqData_signalHost (free : t.seqSlot n = none) :
    t.seqData n 7 = t.event .psq 0x4E 5 (n * 2 ^ 16 + (t.seqSt n).pc.toNat) 0 := by
  simp only [State.seqData, free]

end

theorem seqStore_room (room : (t.seqSt n).rx.length < (t.fifoDepth n).2) {dop : Nat} (store : dop = 3 ∨ dop = 4) :
    t.seqStore n dop = t.setSeq n { t.seqSt n with rsr := 0, rcnt := 0, rx := (t.seqSt n).rx ++ [(t.seqSt n).rsr] } :=
  (if_pos store).trans (if_pos room)

theorem seqStore_drops (full : (t.fifoDepth n).2 ≤ (t.seqSt n).rx.length) {dop : Nat} (store : dop = 3 ∨ dop = 4) :
    t.seqStore n dop = (t.setSeq n { t.seqSt n with rsr := 0, rcnt := 0 }).psqStale n PSQ_SEQ_CNT_RX_DROP :=
  (if_pos store).trans (if_neg (not_lt.mpr full))

end

/-- Settles O54: a tick is decided by the instruction due, and each part of it has its own rule. -/
theorem sequencersExecuteInstructions : Obligations.SequencersExecuteInstructions := by
  intro s seq pins bad w adv n q fetched to_ s1 ends runs
  refine ⟨fun ticks due => ⟨fun sound legal => ?_, fun sound illegal => ?_, fun unsound legal branch => ?_⟩,
    fun k next running served dwells => ?_, fun t base => Eq.refl _, fun t v vs base cond arg => ?_⟩
  · have rows : ∀ p : Word → Bool, p w = true → SeqRuns s n pins w adv (seqTickIf s n pins bad p) :=
      fun p meets => seqTickIf_runs due ticks legal meets sound
    have data : ∀ k, iDop w = k → SeqRuns s n pins w adv (seqTickIf s n pins bad fun w => iDop w == k) :=
      fun k is => rows _ (beq_iff_eq.mpr is)
    have pin : ∀ k, iPop w = k → SeqRuns s n pins w adv (seqTickIf s n pins bad fun w => iPop w == k) :=
      fun k is => rows _ (beq_iff_eq.mpr is)
    have flow : ∀ k, iFlow w = k → SeqRuns s n pins w adv (seqTickIf s n pins bad fun w => iFlow w == k) :=
      fun k is => rows _ (beq_iff_eq.mpr is)
    refine ⟨data 1, data 2, data 3, data 4, data 5, data 6, data 7, pin 1, pin 2, pin 3, pin 4, pin 5, pin 6, flow 1, flow 2, flow 3,
      fun acts noData noPin noFlow => ?_⟩
    show SeqRuns s n pins w adv (exec (.psqDwellExpiry seq pins bad) s)
    rw [exec_psqDwellExpiry_plain acts]
    exact rows _ (by simp [seqPlain, noData, noPin, noFlow])
  · rw [exec_psqIllegal ticks due illegal, seqTick_illegal due sound illegal]
    rfl
  · refine (seqTickIf_meets due ticks legal (p := fun w => iFlow w == 1) (beq_iff_eq.mpr branch)).trans ?_
    rw [seqTick_unsound unsound]
    rfl
  · intro p1 p2
    have ends := exec_psqDwellExpiry_ends (pins := pins) (bad := bad) running served dwells
    exact ⟨fun sound => ends.trans (congrArg done (if_neg (ne_true_of_eq_false sound))),
      fun unsound => ends.trans (congrArg done (if_pos unsound))⟩
  · intro p five
    exact ⟨seqData_fetch, seqData_stale, Eq.refl _, Eq.refl _, fun l => seqData_signal, seqData_signalHost,
      fun room => ⟨seqStore_room room (.inl rfl), seqStore_room room (.inr rfl)⟩, fun full => seqStore_drops full (.inr rfl),
      Eq.refl _, Eq.refl _, Eq.refl _, Eq.refl _,
      fun branch stop => (seqFlow_branch branch).trans (if_pos stop),
      fun branch goes => ⟨(seqFlow_branch branch).trans (if_neg goes), (seqFlow_branch branch).trans (if_neg goes)⟩,
      seqFlow_wait, seqFlow_count_more, seqFlow_count_last⟩

end Sys2Proof.Machine
end

section
/-! Sequencers that start, stop, restart, take injected instructions and are remapped (R840 to R874). -/

namespace Sys2Proof.Machine

/-! ## Access -/

section
variable {s : State} {who : Fin 18} {n : Nat}
  (reached : if who.val < 16 then s.inBlkReset .psq = false ∧ s.seqSlot n = some who.val else s.hears (who.val - 16) .psq = true)
include reached

/-- An access that reaches a sequencer acts as the window's or the host's. -/
theorem onSeq_reached (reg : Nat) (win mw0 : State → State) :
    onSeq s who n reg win mw0 = .next (settle (if who.val < 16 then win s else mw0 s)) := by
  unfold onSeq
  split_ifs at reached ⊢ with slot reset holds
  · simp [reset] at reached
  · rfl
  · exact absurd reached.2 holds
  · exact onMw0_hears reached _ _

/-- An access that means the same to a slot and to a host. -/
theorem onSeq_same (reg : Nat) (f : State → State) : onSeq s who n reg f f = .next (settle (f s)) := by
  rw [onSeq_reached reached, ite_self]

end

theorem onSeq_other {s : State} {who : Fin 18} {n : Nat} (slot : who.val < 16) (served : s.inBlkReset .psq = false)
    (other : s.seqSlot n ≠ some who.val) (reg : Nat) (win mw0 : State → State) :
    onSeq s who n reg win mw0 = .next (settle (({ s with rdata := 0 } : State).raisePsq F_PSQ_WIN_ERR n 0 who)) := by
  unfold onSeq
  rw [if_pos slot, if_neg (by simp [served]), if_neg other]
  rfl

/-! ## Control -/

theorem seqCtrl_start (s : State) (n cause : Nat) : s.seqCtrl n cause 1 = s.seqStart n false := rfl

theorem seqCtrl_stop (s : State) (n cause : Nat) : s.seqCtrl n cause 2 = s.seqHalt n cause := rfl

theorem seqCtrl_restart (s : State) (n cause : Nat) : s.seqCtrl n cause 4 = s.seqRestart n cause := rfl

section
variable {t : State} {n : Nat}

theorem seqHalt_stopped (stopped : (t.seqSt n).running = false) (cause : Nat) : t.seqHalt n cause = t :=
  if_pos (by simp [stopped])

theorem seqHalt_running (running : (t.seqSt n).running = true) (cause : Nat) : t.seqHalt n cause =
    ((((t.setSeq n { t.seqSt n with running := false, cause := cause, stalled := none }).pinsIdle n).pioShow t).event .psq 0x4D 5
      (n * 2 ^ 16 + cause * 2 ^ 8 + (t.seqSt n).pc.toNat) 0) :=
  if_neg (by simp [running])

theorem seqStart_shed (shed : t.seqMap n = 0x3F) : t.seqStart n false = t :=
  if_pos shed

/-! ## Injection -/

section
variable {w : Word}

theorem seqInject_running (running : (t.seqSt n).running = true) : t.seqInject n w = t.setSeq n { t.seqSt n with inject := some w } :=
  if_pos running

variable (stopped : (t.seqSt n).running = false)
include stopped

theorem seqInject_illegal (illegal : seqLegal w = false) : t.seqInject n w = t.seqIllegal n :=
  (if_neg (by simp [stopped])).trans (if_pos (by simp [illegal]))

variable (legal : seqLegal w = true)
include legal

theorem seqInject_stalls (stalls : t.seqStalls n w = true) : t.seqInject n w = t :=
  (if_neg (by simp [stopped])).trans ((if_neg (by simp [legal])).trans (if_pos stalls))

theorem seqInject_acts (acts : t.seqStalls n w = false) {pc : BitVec 7} {u : State} (goes : t.seqAct n w (t.seqSt n).pc = (.goto pc, u)) :
    t.seqInject n w = u.setSeq n { u.seqSt n with pc := pc } := by
  refine (if_neg (by simp [stopped])).trans ((if_neg (by simp [legal])).trans ((if_neg (by simp [acts])).trans ?_))
  rw [goes]

end

/-! ## FIFOs -/

theorem txfPush_room (room : ¬ (t.fifoDepth n).1 ≤ (t.seqSt n).tx.length) (slot : Nat) (v : Word) :
    t.txfPush n slot v = t.setSeq n { t.seqSt n with tx := (t.seqSt n).tx ++ [v] } :=
  if_neg room

theorem txfPush_full (full : (t.fifoDepth n).1 ≤ (t.seqSt n).tx.length) (slot : Nat) (v : Word) :
    t.txfPush n slot v = t.raisePsq F_PSQ_WIN_ERR n 0 slot :=
  if_pos full

theorem rxfRead_empty (empty : (t.seqSt n).rx = []) : t.rxfRead n = { t with rdata := 0 } := by
  rw [State.rxfRead, State.rxfPop, empty]
  rfl

theorem rxfRead_word {v : Word} {vs : List Word} (waits : (t.seqSt n).rx = v :: vs) :
    t.rxfRead n = { t.setSeq n { t.seqSt n with rx := vs } with rdata := v.toNat } := by
  rw [State.rxfRead, State.rxfPop, waits]

theorem hostFifo_free (free : t.seqSlot n = none) (f : State → State) : t.hostFifo n f = f t :=
  if_neg (by simp [free])

theorem hostFifo_held {l : Nat} (held : t.seqSlot n = some l) (f : State → State) :
    t.hostFifo n f = ({ t with rdata := 0 } : State).raisePsq F_PSQ_WIN_ERR n 0 255 :=
  if_pos (by simp [held])

end

section
variable {s : State} {who : Fin 18} {seq : Fin 32}
  (reached : if who.val < 16 then s.inBlkReset .psq = false ∧ s.seqSlot seq = some who.val else s.hears (who.val - 16) .psq = true)
include reached

theorem exec_psqSeqCtrl :
    let cause := if who.val < 16 then 2 else 1
    exec (.psqSeqStart who seq) s = .next (settle (s.seqStart seq false)) ∧
    exec (.psqSeqStop who seq) s = .next (settle (s.seqHalt seq cause)) ∧
    exec (.psqSeqRestart who seq) s = .next (settle (s.seqRestart seq cause)) := by
  intro cause
  refine ⟨?_, ?_, ?_⟩
  · show execPsqSeqStart who seq s = _
    rw [execPsqSeqStart, onSeq_reached reached, seqCtrl_start, seqCtrl_start, ite_self]
  · show execPsqSeqStop who seq s = _
    rw [execPsqSeqStop, onSeq_reached reached, seqCtrl_stop, seqCtrl_stop, ← apply_ite (s.seqHalt seq)]
  · show execPsqSeqRestart who seq s = _
    rw [execPsqSeqRestart, onSeq_reached reached, seqCtrl_restart, seqCtrl_restart, ← apply_ite (s.seqRestart seq)]

theorem exec_psqInject (v : Word) : exec (.psqInject who seq v) s = .next (settle (s.seqInject seq v)) := by
  show execPsqInject who seq v s = _
  rw [execPsqInject, onSeq_same reached]

theorem exec_psqFifos (may : who.val < 16 ∨ s.seqSlot seq = none) (v : Word) :
    exec (.psqTxfPush who seq v) s = .next (settle (s.txfPush seq (if who.val < 16 then who.val else 255) v)) ∧
    exec (.psqRxfPop who seq) s = .next (settle (s.rxfRead seq)) := by
  constructor
  · show execPsqTxfPush who seq v s = _
    rw [execPsqTxfPush, onSeq_reached reached]
    by_cases slot : who.val < 16
    · simp only [slot, if_true]
    · simp only [slot, if_false, hostFifo_free (may.resolve_left slot)]
  · show execPsqRxfPop who seq s = _
    rw [execPsqRxfPop, onSeq_reached reached]
    by_cases slot : who.val < 16
    · simp only [slot, if_true]
    · simp only [slot, if_false, hostFifo_free (may.resolve_left slot)]

end

/-! ## Remaps and failures -/

section
variable {s : State}

theorem exec_psqRemapPoint (active : s.flag PSQ_REMAP PSQ_REMAP_ACTIVE = true) {l new old : Nat}
    (logical : s.rd PSQ_REMAP PSQ_REMAP_LOGICAL = l) (to_ : s.rd PSQ_REMAP PSQ_REMAP_TO = new) (from_ : s.rd PSQ_REMAP PSQ_REMAP_FROM = old)
    (rests : (s.seqSt l).running = false ∨ (s.seqSt l).stalled ≠ none) :
    let r := (((s.setSeqMap l new).wr PSQ_REMAP PSQ_REMAP_ACTIVE 0).wr PSQ_REMAP PSQ_REMAP_STEP 2).bump PSQ_REMAP PSQ_REMAP_COUNT 1
    exec .psqRemapPoint s =
      .next (settle (({ r with psq := { r.psq with worn := old :: r.psq.worn } } : State).seqRemapEvent l new old false)) := by
  subst logical to_ from_
  refine if_pos ?_
  rcases rests with stopped | stalled
  · simp [active, stopped]
  · simp [active, Option.isSome_iff_ne_none.mpr stalled]

section
variable {m : Fin 36} (sound : m.val ∉ s.psq.bad) {t : State}
  (failed : (if s.rd PSQ_REMAP PSQ_REMAP_TO == m.val || s.rd PSQ_REMAP PSQ_REMAP_FROM == m.val then s.dropSeqRemap else s).unitFailed
    kPsq m = t)
include sound failed

theorem exec_psqSmFail_spare (spare : s.seqOfMachine m = none) : exec (.psqSmFail m) s =
    .next (settle (({ t with psq := { t.psq with bad := m.val :: t.psq.bad } } : State).raiseFor .psq F_PSQ_SM_FAIL [0, 0, 0] 255)) := by
  subst failed
  refine (if_neg (by simpa using sound)).trans ?_
  dsimp only
  rw [spare]
  rfl

variable {l : Nat} (serving : s.seqOfMachine m = some l) {u : State}
  (raised : ({ t with psq := { t.psq with bad := m.val :: t.psq.bad } } : State).raisePsq F_PSQ_SM_FAIL l 0 255 = u)
include serving raised

theorem exec_psqSmFail_moves {new : Nat} {rest : List Nat} (spare : u.spareSeqs = new :: rest) : exec (.psqSmFail m) s =
    .next (settle (((((u.setSeq l { u.seqSt l with running := false }).setSeqMap l new).seqRestart l 0).seqStart l true).seqRemapEvent
      l new m true)) := by
  subst failed
  refine (if_neg (by simpa using sound)).trans ?_
  dsimp only
  rw [serving]
  dsimp only
  rw [raised, spare]
  rfl

theorem exec_psqSmFail_sheds (none : u.spareSeqs = []) : exec (.psqSmFail m) s =
    .next (settle ((((u.seqHalt l 6).setSeqMap l 0x3F).outageFrom (outSeq l)).lossOf 4 l)) := by
  subst failed
  refine (if_neg (by simpa using sound)).trans ?_
  dsimp only
  rw [serving]
  dsimp only
  rw [raised, none]
  rfl

end

end

/-- Settles O55: an access that reaches a sequencer is the operation on it, decided by whether it runs. -/
theorem sequencersStartStopAndRemap : Obligations.SequencersStartStopAndRemap := by
  intro s port value seq i who to_ n q full
  refine ⟨fun hears => ⟨onMw0_hears hears _ _, onMw0_hears hears _ _, onMw0_hears hears _ _,
      ⟨fun ahead => (onMw0_hears hears _ _).trans (congrArg done (if_neg (not_lt.mpr ahead))),
        fun late => (onMw0_hears hears _ _).trans (congrArg done (if_pos late))⟩,
      onMw0_hears hears _ _, onMw0_hears hears _ _⟩,
    fun armed => if_pos armed,
    fun reached => ⟨?_, ?_, ?_, fun running => ?_, fun stopped illegal => ?_, fun stopped legal stalls => ?_,
      fun pc t stopped legal acts goes => ?_, fun may => ?_, fun l host held => ?_⟩,
    fun slot served other => ?_,
    fun t cause => ⟨fun stopped => seqHalt_stopped stopped cause, fun running => seqHalt_running running cause, seqStart_shed⟩,
    fun active => ⟨fun rests => exec_psqRemapPoint active (Eq.refl _) (Eq.refl _) (Eq.refl _) rests, ?_⟩,
    fun m sound => ⟨fun spare => exec_psqSmFail_spare sound (Eq.refl _) spare, fun l new rest serving =>
      ⟨fun spare => exec_psqSmFail_moves sound (Eq.refl _) serving (Eq.refl _) spare,
        fun none => exec_psqSmFail_sheds sound (Eq.refl _) serving (Eq.refl _) none⟩⟩⟩
  · exact (exec_psqSeqCtrl reached).1
  · exact (exec_psqSeqCtrl reached).2.1
  · exact (exec_psqSeqCtrl reached).2.2
  · rw [exec_psqInject reached, seqInject_running running]
  · rw [exec_psqInject reached, seqInject_illegal stopped illegal]
  · rw [exec_psqInject reached, seqInject_stalls stopped legal stalls]
  · rw [exec_psqInject reached, seqInject_acts stopped legal acts goes]
  · obtain ⟨push, pop⟩ := exec_psqFifos reached may value
    refine ⟨fun room => ?_, fun full => ?_, fun empty => ?_, fun v vs waits => ?_⟩
    · rw [push, txfPush_room room]
    · rw [push, txfPush_full full]
    · rw [pop, rxfRead_empty empty]
    · rw [pop, rxfRead_word waits]
  · show execPsqRxfPop who seq s = _
    rw [execPsqRxfPop, onSeq_reached reached, if_neg (not_lt.mpr host), hostFifo_held held]
  · show execPsqSeqStart who seq s = _
    rw [execPsqSeqStart, onSeq_other slot served other]
  · exact congrArg Host.Outcome.next (if_pos active)

end Sys2Proof.Machine
end

section
/-! The safety configuration, its password and the safety commands (R920 to R935). -/

namespace Sys2Proof.Machine

/-! ## Taking a safety command -/

section
variable {s : State} {ring code : Nat} {modes : Mode → Bool} {body : State → State}

theorem safetyCmd_m10 (m10 : s.m10 = true) (takes : s.canTake ring = true) :
    done (s.safetyCmd ring code modes body) = .next (settle ((s.take ring).finish ring code stUnsupported 0)) :=
  congrArg done (if_pos (by simp [m10, takes]))

theorem safetyCmd_is (m00 : s.m10 = false) (takes : s.takes ring modes = true) {t : State} (effect : body (s.take ring) = t) :
    done (s.safetyCmd ring code modes body) = .next (settle t) :=
  (congrArg done (if_neg (by simp [m00]))).trans (command_is takes effect)

end

/-! ## The configuration -/

section
variable {s : State} {off : Nat} {v : Word}

theorem sioCfgWrite_open (config : s.mode = .config) (free : s.m10 = true ∨ s.flag SIO_STAT SIO_STAT_UNLOCKED = true) :
    s.sioCfgWrite off v = ((s.regWrite off v).sioPend).sioSync :=
  if_pos (by simpa [State.sioMayWrite, config] using free)

theorem sioCfgWrite_guarded (guarded : s.mode ≠ .config ∨ (s.m10 = false ∧ s.flag SIO_STAT SIO_STAT_UNLOCKED = false)) :
    s.sioCfgWrite off v = s.raiseSio F_SIO_CFG_WRITE 0 := by
  refine if_neg ?_
  rcases guarded with elsewhere | ⟨m00, locked⟩
  · simp [State.sioMayWrite, elsewhere]
  · simp [State.sioMayWrite, m00, locked]

end

section
variable {t : State} {ring : Nat}

/-! ## Unlocking -/

section
variable {a : Nat} {dma : Option (List Byte)}

theorem cmdSioUnlock_noPwd (unset : t.nvm.sio.pwd = none) : t.cmdSioUnlock ring a dma = t.finish ring 0xA0 stBadState 0 :=
  if_pos (by simp [unset])

variable (set_ : t.nvm.sio.pwd ≠ none)
include set_

theorem cmdSioUnlock_lockedOut (lockout : t.sio.lockout = true) : t.cmdSioUnlock ring a dma = t.finish ring 0xA0 stRefused 0 :=
  (if_neg (by simpa using set_)).trans (if_pos lockout)

variable (lockout : t.sio.lockout = false)
include lockout

theorem cmdSioUnlock_dmaError : t.cmdSioUnlock ring a none = (t.dmaError (t.ring ring).port a 8).finish ring 0xA0 stDmaErr 0 :=
  (if_neg (by simpa using set_)).trans (if_neg (by simp [lockout]))

variable {bs cs : List Byte}

theorem cmdSioUnlock_malformed (malformed : pwdOf bs = none) : t.cmdSioUnlock ring a (some bs) = t.finish ring 0xA0 stBadParam 0 := by
  refine (if_neg (by simpa using set_)).trans ((if_neg (by simp [lockout])).trans ?_)
  rw [withDma_some, malformed]

variable (given : pwdOf bs = some cs)
include given

theorem cmdSioUnlock_right (right : t.pwdOk cs = true) :
    t.cmdSioUnlock ring a (some bs) = (t.rightPwd.wr SIO_STAT SIO_STAT_UNLOCKED 1).finish ring 0xA0 stOk 0 := by
  refine (if_neg (by simpa using set_)).trans ((if_neg (by simp [lockout])).trans ?_)
  rw [withDma_some, given]
  exact if_pos right

theorem cmdSioUnlock_wrong (wrong : t.pwdOk cs = false) :
    t.cmdSioUnlock ring a (some bs) = t.wrongPwd.finish ring 0xA0 stBadParam 0 := by
  refine (if_neg (by simpa using set_)).trans ((if_neg (by simp [lockout])).trans ?_)
  rw [withDma_some, given]
  exact if_neg (ne_true_of_eq_false wrong)

end

/-! ## Locking and committing -/

section
variable {p0 p1 : Nat}

section
variable (locked : t.flag SIO_STAT SIO_STAT_UNLOCKED = false)
include locked

theorem cmdSioLock_locked : t.cmdSioLock ring = t.finish ring 0xA1 stBadState 0 :=
  if_pos (by simp [locked])

theorem cmdSioCommit_locked : t.cmdSioCommit ring p0 p1 = t.finish ring 0xA2 stBadState 0 :=
  if_pos (by simp [locked])

end

variable (unlocked : t.flag SIO_STAT SIO_STAT_UNLOCKED = true)
include unlocked

theorem sioRelock_unlocked : t.sioRelock = ((t.wr SIO_STAT SIO_STAT_UNLOCKED 0).sioReload).sioSync :=
  if_pos unlocked

theorem cmdSioLock_unlocked :
    t.cmdSioLock ring = ((t.wr SIO_STAT SIO_STAT_UNLOCKED 0).sioReload).sioSync.finish ring 0xA1 stOk 0 := by
  rw [← sioRelock_unlocked unlocked]
  exact if_neg (by simp [unlocked])

theorem cmdSioCommit_unsound (unsound : t.commitOk (p0 % 2 ^ 32) (p1 % 2 ^ 32) = false) :
    t.cmdSioCommit ring p0 p1 = t.finish ring 0xA2 stBadParam 0 :=
  (if_neg (by simp [unlocked])).trans (if_pos (by rw [unsound]; rfl))

/-- A commit writes both copies, logs, shows the new CRC and version, and locks. -/
theorem cmdSioCommit_sound (sound : t.commitOk (p0 % 2 ^ 32) (p1 % 2 ^ 32) = true) {ver : Nat} (version : p0 % 2 ^ 32 = ver) {c : SioCopy}
    (copy : (⟨t.sioWords, ver, true⟩ : SioCopy) = c) {a b : State}
    (stored : ({ t with nvm := { t.nvm with sio := { t.nvm.sio with a := c, b := c } }, sio := { t.sio with badCfg := false } } : State) = a)
    (logged : a.sioLog 1 (t.ring ring).port (cfgCrc c.words) (t.reg SIO_CFG_VER).toNat ver = b) :
    t.cmdSioCommit ring p0 p1 = (((b.setReg SIO_CFG_CRC (BitVec.ofNat 32 (cfgCrc c.words))).setReg SIO_CFG_VER (BitVec.ofNat 32 ver)).wr
      SIO_STAT SIO_STAT_UNLOCKED 0).sioSync.finish ring 0xA2 stOk 0 := by
  subst logged stored copy version
  exact (if_neg (by simp [unlocked])).trans (if_neg (by rw [sound]; decide))

end

/-! ## Setting the password -/

section
variable {a : Nat} {bs cs new : List Byte}

theorem cmdSioPwdSet_lockedOut (lockout : t.sio.lockout = true) (dma : Option (List Byte)) :
    t.cmdSioPwdSet ring a dma = t.finish ring 0xA3 stRefused 0 :=
  if_pos lockout

variable (lockout : t.sio.lockout = false)
include lockout

theorem cmdSioPwdSet_malformed (malformed : pwdOf (bs.drop 33) = none) :
    t.cmdSioPwdSet ring a (some bs) = t.finish ring 0xA3 stBadParam 0 := by
  refine (if_neg (by simp [lockout])).trans ?_
  rw [withDma_some, malformed]

variable (given : pwdOf (bs.drop 33) = some new)
include given

theorem cmdSioPwdSet_allowed (allowed : t.nvm.sio.pwd = none ∨ (pwdOf bs = some cs ∧ t.pwdOk cs = true)) {u w : State}
    (salted : t.rightPwd.salt.2 = u)
    (stored : ({ u with nvm := { u.nvm with sio := { u.nvm.sio with
      pwd := some (t.rightPwd.salt.1, Config.sha384 (t.rightPwd.salt.1 ++ new)) } } } : State) = w)
    {v : Nat} (version : (w.reg SIO_CFG_VER).toNat = v) :
    t.cmdSioPwdSet ring a (some bs) = ((w.sioLog 2 (w.ring ring).port (w.reg SIO_CFG_CRC).toNat v v).wr SIO_STAT
      SIO_STAT_PWD_SET 1).finish ring 0xA3 stOk 0 := by
  subst version stored salted
  refine (if_neg (by simp [lockout])).trans ?_
  rw [withDma_some, given]
  refine if_pos ?_
  rcases allowed with unset | ⟨old, right⟩
  · simp [unset]
  · simp [old, right]

theorem cmdSioPwdSet_refused (set_ : t.nvm.sio.pwd ≠ none) (refused : pwdOf bs = none ∨ (pwdOf bs = some cs ∧ t.pwdOk cs = false)) :
    t.cmdSioPwdSet ring a (some bs) = t.wrongPwd.finish ring 0xA3 stBadParam 0 := by
  refine (if_neg (by simp [lockout])).trans ?_
  rw [withDma_some, given]
  refine if_neg ?_
  rcases refused with malformed | ⟨old, wrong⟩
  · simp [set_, malformed]
  · simp [set_, old, wrong]

end

/-! ## Acknowledging, enabling, reading the log and testing -/

section
variable {crc high : Nat}

theorem cmdSioAck_otherCrc (other : crc % 2 ^ 32 ≠ (t.reg SIO_CFG_CRC).toNat) :
    t.cmdSioAck ring crc high = t.finish ring 0xA4 stBadParam 0 :=
  if_pos other

variable (same : crc % 2 ^ 32 = (t.reg SIO_CFG_CRC).toNat) {stuck : Bool}
  (checked : ((List.range 8).any fun m => bitOf high m && !(t.dq m).on && !(t.dq m).test) = stuck)
include same checked

theorem cmdSioAck_refused (refused : t.sstate = 0 ∨ t.sio.badCfg = true ∨ t.flag SIO_STAT SIO_STAT_COMM_OK = false ∨
    t.flag SIO_STAT SIO_STAT_L1_OK = false ∨ stuck = true) : t.cmdSioAck ring crc high = t.finish ring 0xA4 stBadState 0 := by
  subst checked
  exact (if_neg (not_not_intro same)).trans (if_pos (by simpa only [Bool.not_eq_true'] using refused))

theorem cmdSioAck_clears (runs : t.sstate ≠ 0) (sound : t.sio.badCfg = false) (comm : t.flag SIO_STAT SIO_STAT_COMM_OK = true)
    (supplied : t.flag SIO_STAT SIO_STAT_L1_OK = true) (loose : stuck = false) {a b : State}
    (inputs : (List.range 16).foldl (fun t ch =>
      if (t.di ch).failed = true then t.setDi ch { t.di ch with
        failed := (t.feed ch).isSome, acked := (t.feed ch).isSome, missed := 0 } else t) t = a)
    (outputs : (a.allDq fun t m => t.onDq m fun x =>
      if x.fail ≠ 0 then { x with fail := 0, missed := 1, wait := true, seen := false } else x) = b) :
    t.cmdSioAck ring crc high = (((b.wr SIO_STAT SIO_STAT_ACK_OK 1).recoveryWindows).sioSync).finish ring 0xA4 stOk 0 := by
  subst outputs inputs checked
  exact (if_neg (not_not_intro same)).trans (if_neg (by simp only [runs, sound, comm, supplied, loose]; decide))

end

theorem cmdSioOutEnable_down (down : t.flag SIO_STAT SIO_STAT_L2_OK = false) :
    t.cmdSioOutEnable ring = t.finish ring 0xA5 stBadState 0 :=
  if_pos (by simp [down])

theorem cmdSioOutEnable_up (up : t.flag SIO_STAT SIO_STAT_L2_OK = true) : t.cmdSioOutEnable ring =
    ((((t.wr SIO_STAT SIO_STAT_L2_LATCH 0).allDq fun t m => if (t.dq m).on = true then t else t.dqHold m).recoveryWindows).sioSync).finish
      ring 0xA5 stOk 0 :=
  if_neg (by simp [up])

section
variable {p0 p1 p2 : Nat}

theorem cmdSioLogRead_badCount (bad : p1 % 512 < 1 ∨ 256 < p1 % 512) :
    t.cmdSioLogRead ring p0 p1 p2 = t.finish ring 0xA6 stBadParam 0 :=
  if_pos bad

theorem cmdSioLogRead_writes (least : 1 ≤ p1 % 512) (most : p1 % 512 ≤ 256) : t.cmdSioLogRead ring p0 p1 p2 =
    t.writeHost ring 0xA6 p2 ((t.nvm.sio.log.reverse.drop (p0 % 256)).take (p1 % 512)).flatten 0 :=
  if_neg (by omega)

variable {outs pairs : List Nat} (singles : ((List.range 8).filter fun m => bitOf p0 m) = outs)
  (pairing : ((List.range 4).filter fun j => bitOf p0 (8 + j)) = pairs) {off : Bool}
  (any : ((outs.any fun m => !(t.dq m).on) || pairs.any fun j => !(t.dq (2 * j)).on || !(t.dq (2 * j + 1)).on) = off)
include singles pairing any

theorem cmdSioTest_refused (refused : t.sstate ≠ 2 ∨ off = true) : t.cmdSioTest ring p0 = t.finish ring 0xA7 stBadState 0 := by
  subst any pairing singles
  exact if_pos (by simpa only [Bool.or_eq_true] using refused)

theorem cmdSioTest_tests (enabled : t.sstate = 2) (on : off = false) : t.cmdSioTest ring p0 =
    ((outs.foldl State.dqTest (pairs.foldl (fun t j =>
      if t.joinAble j then t.joinWindow j 2 else t.raiseSio F_SIO_PAR_WINDOW j) t)).sioSync).finish ring 0xA7 stOk 0 := by
  subst any pairing singles
  obtain ⟨allOn, pairsOn⟩ := Bool.or_eq_false_iff.mp on
  refine if_neg (not_or.mpr ⟨not_not_intro enabled, not_or.mpr ⟨ne_true_of_eq_false allOn, ne_true_of_eq_false pairsOn⟩⟩)

end

end

/-- Settles O57: each command is its body on the state after it was taken, decided by the lock, the lockout and the password. -/
theorem safetyConfigurationAndCommands : Obligations.SafetyConfigurationAndCommands := by
  intro s port reg value ring p0 p1 p2 bs cs new high pair to_ u off unlocked
  refine ⟨fun hears => ⟨fun config free => ?_, fun guarded => ?_⟩,
    fun m10 takes => ⟨safetyCmd_m10 m10 takes, safetyCmd_m10 m10 takes, safetyCmd_m10 m10 takes, safetyCmd_m10 m10 takes,
      safetyCmd_m10 m10 takes⟩,
    fun m00 takes => ⟨fun unset => ?_, fun set_ lockout => ?_, fun set_ lockout => ⟨?_, fun malformed => ?_, fun given =>
      ⟨fun right => ?_, fun wrong => ?_⟩⟩, fun locked => ⟨?_, ?_⟩, fun open_ => ⟨?_, ?_⟩, fun lockout => ?_,
      fun lockout => ⟨fun malformed => ?_, ?_, fun given set_ refused => ?_⟩⟩,
    fun takes => ?_,
    fun m00 unlocked => ?_, fun lockout => ?_, rfl, rfl⟩
  · exact (onMw0_hears hears _ _).trans (congrArg done (sioCfgWrite_open config free))
  · exact (onMw0_hears hears _ _).trans (congrArg done (sioCfgWrite_guarded guarded))
  · exact safetyCmd_is m00 takes (cmdSioUnlock_noPwd unset)
  · exact safetyCmd_is m00 takes (cmdSioUnlock_lockedOut set_ lockout)
  · exact safetyCmd_is m00 takes (cmdSioUnlock_dmaError set_ lockout)
  · exact safetyCmd_is m00 takes (cmdSioUnlock_malformed set_ lockout malformed)
  · exact safetyCmd_is m00 takes (cmdSioUnlock_right set_ lockout given right)
  · exact safetyCmd_is m00 takes (cmdSioUnlock_wrong set_ lockout given wrong)
  · exact safetyCmd_is m00 takes (cmdSioLock_locked locked)
  · exact safetyCmd_is m00 takes (cmdSioCommit_locked locked)
  · exact safetyCmd_is m00 takes (cmdSioLock_unlocked open_)
  · intro ver
    refine ⟨fun unsound => ?_, fun sound => ?_⟩
    · exact safetyCmd_is m00 takes (cmdSioCommit_unsound open_ unsound)
    · intro c a b d
      exact safetyCmd_is m00 takes (cmdSioCommit_sound open_ sound (Eq.refl ver) (Eq.refl c) (Eq.refl a) (Eq.refl b))
  · exact safetyCmd_is m00 takes (cmdSioPwdSet_lockedOut lockout _)
  · exact safetyCmd_is m00 takes (cmdSioPwdSet_malformed lockout malformed)
  · intro given allowed t w v
    exact safetyCmd_is m00 takes (cmdSioPwdSet_allowed lockout given allowed (Eq.refl t) (Eq.refl w) (Eq.refl v))
  · exact safetyCmd_is m00 takes (cmdSioPwdSet_refused lockout given set_ refused)
  · intro low stuck held
    refine ⟨fun m00 => ⟨fun other => ?_, fun same => ⟨fun refused => ?_, ?_⟩⟩, fun down => ?_, fun up => ?_, ⟨fun bad => ?_,
      fun least most => ?_⟩, ?_⟩
    · exact safetyCmd_is m00 takes (cmdSioAck_otherCrc other)
    · exact safetyCmd_is m00 takes (cmdSioAck_refused same (Eq.refl stuck) refused)
    · intro runs sound comm supplied loose a b
      exact safetyCmd_is m00 takes (cmdSioAck_clears same (Eq.refl stuck) runs sound comm supplied loose (Eq.refl a) (Eq.refl b))
    · exact command_is takes (cmdSioOutEnable_down down)
    · exact command_is takes (cmdSioOutEnable_up up)
    · exact command_is takes (cmdSioLogRead_badCount bad)
    · exact command_is takes (cmdSioLogRead_writes least most)
    · intro outs pairs off
      exact ⟨fun refused => command_is takes (cmdSioTest_refused (Eq.refl outs) (Eq.refl pairs) (Eq.refl off) refused),
        fun enabled on => command_is takes (cmdSioTest_tests (Eq.refl outs) (Eq.refl pairs) (Eq.refl off) enabled on)⟩
  · exact (if_neg (ne_true_of_eq_false m00)).trans (congrArg done (sioRelock_unlocked unlocked))
  · show execPwdLockoutEnd s = _
    rw [execPwdLockoutEnd, if_pos lockout]

end Sys2Proof.Machine
end

section
/-! Forced and acknowledged faults, the fault log, and the health of the units (R945 to R990). -/

namespace Sys2Proof.Machine

/-! ## Forced and acknowledged faults -/

section
variable {s : State} {port : Fin 2} {blk : BitVec 12}

section
variable {b : BlkId} (names : blkOf blk.toNat = some b) (hears : s.hears port b = true)
include names hears

theorem exec_faultForce_hears (v : Word) : exec (.faultForce port blk v) s = .next (settle (s.forceFaults b v)) := by
  show execFaultForce port blk v s = _
  rw [execFaultForce, names]
  exact onMw0_hears hears _ _

theorem exec_fstatWrite_hears (v : Word) : exec (.fstatWrite port blk v) s = .next (s.ackFaults b v) := by
  show execFstatWrite port blk v s = _
  rw [execFstatWrite, names]
  exact onMw0_hears hears _ _

end

section
variable (names : blkOf blk.toNat = none)
include names

theorem exec_faultForce_unmapped (v : Word) : exec (.faultForce port blk v) s =
    .next (settle (s.raise .hif F_HIF_REG_UNMAPPED [blk.toNat * 4096 + 0xF08, 20 + port.val, 5])) := by
  show execFaultForce port blk v s = _
  rw [execFaultForce, names]
  rfl

theorem exec_fstatWrite_unmapped (v : Word) : exec (.fstatWrite port blk v) s =
    .next (settle (s.raise .hif F_HIF_REG_UNMAPPED [blk.toNat * 4096 + 0xF00, 20 + port.val, 5])) := by
  show execFstatWrite port blk v s = _
  rw [execFstatWrite, names]
  rfl

end

theorem forceFaults_asleep (asleep : s.mode = .boot ∨ s.mode = .standby) (b : BlkId) (v : Word) : s.forceFaults b v = s :=
  if_pos asleep

theorem forceFaults_awake (boots : s.mode ≠ .boot) (waits : s.mode ≠ .standby) (b : BlkId) (v : Word) :
    s.forceFaults b v = b.sources.foldl (fun t r =>
      if bitOf v.toNat r.bit && s.mayForce b r.bit then t.later (.occur b r.bit [0, 0, 0] 255 true) else t) s :=
  if_neg (not_or.mpr ⟨boots, waits⟩)

section
variable {b : BlkId} {v : Word} {keys : List Nat} (clears : ((List.range 24).filter fun i => bitOf v.toNat i).map (srcKey b) = keys)
  {t : State} (written : s.regWrite (FSTAT b) v = t) {u : State}
  (forgets : ({ t with faults := { t.faults with
    srcs := keys.foldl (fun m i => SMap.set (fun _ => none) m i none) t.faults.srcs } } : State) = u)
include clears written forgets

theorem ackFaults_quiet (none : s.faults.outageSrc = none) : s.ackFaults b v = u.fltSettle := by
  subst forgets written clears
  rw [State.ackFaults, none]
  rfl

variable {c : Nat} (outage : s.faults.outageSrc = some c)
include outage

theorem ackFaults_other (other : c ∉ keys) : s.ackFaults b v = u.fltSettle := by
  subst forgets written clears
  rw [State.ackFaults, outage]
  exact congrArg State.fltSettle (if_neg (by simpa [List.contains_iff_mem] using other))

theorem ackFaults_ends (cleared : c ∈ keys) : s.ackFaults b v =
    ({ u.availEnd with faults := { u.availEnd.faults with outageSrc := none } } : State).fltSettle := by
  subst forgets written clears
  rw [State.ackFaults, outage]
  exact congrArg State.fltSettle (if_pos (List.contains_iff_mem.mpr cleared))

end

end

/-! ## Worn latches and logs -/

section
variable {s : State} {v : Word}

theorem wornClear_recovered {k n : Nat} (kind : s.rd HLTH_SEL HLTH_SEL_KIND = k) (unit : s.rd HLTH_SEL HLTH_SEL_UNIT = n)
    (asked : bitOf v.toNat 30 = true) (known : n < kindUnits.getD k 0) (recovered : s.swapThr k ≤ s.health k n) :
    s.wornClear v = s.setWear k n { s.wear k n with worn := false } := by
  subst kind unit
  exact if_pos (by simp only [asked, known, recovered, decide_true, Bool.and_self])

theorem wornClear_stays {k n : Nat} (kind : s.rd HLTH_SEL HLTH_SEL_KIND = k) (unit : s.rd HLTH_SEL HLTH_SEL_UNIT = n)
    (stays : bitOf v.toNat 30 = false ∨ kindUnits.getD k 0 ≤ n ∨ s.health k n < s.swapThr k) : s.wornClear v = s := by
  subst kind unit
  refine if_neg ?_
  simp only [Bool.and_eq_true, decide_eq_true_eq, not_and, not_le]
  rcases stays with unasked | unknown | worn
  · exact fun asked => absurd asked.1 (ne_true_of_eq_false unasked)
  · exact fun asked => absurd asked.2 (not_lt.mpr unknown)
  · exact fun _ => worn

variable {ring : Fin 512} (takes : s.takes ring Mode.working = true) {p0 p1 p2 : BitVec 64}
include takes

theorem exec_hlthLogRead_badCount (bad : p1.toNat % 256 < 1 ∨ 128 < p1.toNat % 256) :
    exec (.hlthLogRead ring p0 p1 p2) s = .next (settle ((s.take ring).finish ring 0xB0 stBadParam 0)) :=
  command_is takes (if_pos bad)

theorem exec_hlthLogRead_writes {u : State} (taken : s.take ring = u) {n : Nat} (count : p1.toNat % 256 = n) (least : 1 ≤ n) (most : n ≤ 128)
    {es : List LogEntry} (entries : (u.faultLog.drop (p0.toNat % 128)).take n = es) :
    exec (.hlthLogRead ring p0 p1 p2) s =
      .next (settle (u.writeHost ring 0xB0 p2.toNat (es.map LogEntry.bytes).flatten es.length)) := by
  subst entries count taken
  exact command_is takes (if_neg (by omega))

end

/-! ## Periods and measures -/

section
variable {s : State} {measures : List (Fin 13 × Fin 128 × Option Nat)} {cycles : List (Fin 16 × Nat)}

theorem exec_decisionPeriodEnd_running (firmware : s.firmware = true) {closed t : State}
    (closes : ((s.setReg WADI_PERIOD (s.reg WADI_PERIOD + 1)).memPeriod).enginePeriod = closed)
    (measured : measures.foldl (fun t e => t.measureUnit e.1 e.2.1 e.2.2) (cycles.foldl (fun t e => t.thermalCycles e.1 e.2) closed) = t) :
    exec (.decisionPeriodEnd measures cycles) s = .next (settle
      (if t.rd (WADI_FUNC 7) WADI_FUNC_CUR = 1 then t else (List.range 16).foldl State.accumulate t).sioSync) := by
  subst measured closes
  exact if_neg (by simp [firmware])

variable {kind unit : Nat} (known : unit < kindUnits.getD kind 0) (up : kind ≠ kMac ∨ s.linkUp unit = true) {raw r : Option Nat}
  (own : s.ownMeasure kind unit raw = r) {t : State} (shown : (s.showMeasure kind unit r).measure kind unit r = t)
include known up own shown

/-- A unit that exists, a MAC only with its link up, is measured; what its block raises depends on the swap threshold. -/
theorem measureUnit_known : s.measureUnit kind unit raw =
    if decide (s.swapThr kind ≤ s.health kind unit) && decide (t.health kind unit < t.swapThr kind) then t.crossed kind unit else t := by
  subst shown own
  refine if_neg ?_
  rcases up with other | linked
  · simp only [not_le.mpr known, beq_eq_false_iff_ne.mpr other, decide_false, Bool.false_and, Bool.or_self, Bool.false_eq_true,
      not_false_eq_true]
  · simp only [not_le.mpr known, linked, Bool.not_true, decide_false, Bool.and_false, Bool.or_self, Bool.false_eq_true,
      not_false_eq_true]

theorem measureUnit_crosses (above : s.swapThr kind ≤ s.health kind unit) (below : t.health kind unit < t.swapThr kind) :
    s.measureUnit kind unit raw = t.crossed kind unit := by
  rw [measureUnit_known known up own shown, if_pos (by simp only [above, below, decide_true, Bool.and_self])]

theorem measureUnit_keeps (keeps : s.health kind unit < s.swapThr kind ∨ t.swapThr kind ≤ t.health kind unit) :
    s.measureUnit kind unit raw = t := by
  rw [measureUnit_known known up own shown, if_neg]
  simp only [Bool.and_eq_true, decide_eq_true_eq]
  omega

end

/-- Settles O58: each access is decided by its block and mode, and each measure by the swap threshold. -/
theorem faultRegistersLogsAndWear : Obligations.FaultRegistersLogsAndWear := by
  intro s port blk b value k ring p0 p1 p2 measures cycles kind unit raw to_ u
  refine ⟨fun names hears => ⟨fun asleep => ?_, fun boots waits => ?_, ?_⟩,
    fun names => ⟨exec_faultForce_unmapped names value, exec_fstatWrite_unmapped names value⟩, rfl, rfl,
    fun hears => ⟨fun asked known recovered => ?_, fun stays => ?_⟩,
    fun takes => ⟨fun bad => exec_hlthLogRead_badCount takes bad,
      fun least most => exec_hlthLogRead_writes takes (Eq.refl u) (Eq.refl _) least most (Eq.refl _)⟩,
    fun runs => ⟨if_neg (ne_true_of_eq_false runs), if_neg (ne_true_of_eq_false runs)⟩, fun firmware => ?_, fun known up => ?_⟩
  · rw [exec_faultForce_hears names hears, forceFaults_asleep asleep]
  · rw [exec_faultForce_hears names hears, forceFaults_awake boots waits]
  · intro keys s1 s2
    rw [exec_fstatWrite_hears names hears]
    refine ⟨fun none => ?_, fun c outage => ⟨fun other => ?_, fun cleared => ?_⟩⟩
    · rw [ackFaults_quiet (Eq.refl keys) (Eq.refl s1) (Eq.refl s2) none]
    · rw [ackFaults_other (Eq.refl keys) (Eq.refl s1) (Eq.refl s2) outage other]
    · rw [ackFaults_ends (Eq.refl keys) (Eq.refl s1) (Eq.refl s2) outage cleared]
  · exact (onMw0_hears hears _ _).trans
      (congrArg Host.Outcome.next (wornClear_recovered (Eq.refl _) (Eq.refl _) asked known recovered))
  · exact (onMw0_hears hears _ _).trans (congrArg Host.Outcome.next (wornClear_stays (Eq.refl _) (Eq.refl _) stays))
  · intro s1 s3
    have closed := exec_decisionPeriodEnd_running firmware (Eq.refl s1) (Eq.refl s3)
    refine ⟨fun hardware => ?_, fun assisted => ?_⟩
    · rw [closed, if_pos hardware]
    · rw [closed, if_neg assisted]
  · intro r t
    exact ⟨measureUnit_crosses known up (Eq.refl r) (Eq.refl t), measureUnit_keeps known up (Eq.refl r) (Eq.refl t)⟩

end Sys2Proof.Machine
end

section
/-! Soft start, supplies and the temperature of the module (R1000 to R1012). -/

namespace Sys2Proof.Machine

section
variable {s : State}

/-! ## Soft start -/

section
variable (off : s.pwr.on = false) (idle : s.pwr.charging = false)
include off idle

theorem exec_inputSupplyApplied_off :
    exec .inputSupplyApplied s = .next { s with pwr := { s.pwr with charging := true, fails := 0 } } :=
  if_neg (by simp [off, idle])

theorem exec_softStartRetry_again (failed : 1 ≤ s.pwr.fails) (few : s.pwr.fails < 3) :
    exec .softStartRetry s = .next { s with pwr := { s.pwr with charging := true } } :=
  if_pos (by simp [off, idle, failed, few])

theorem exec_softStartRetry_stays (spent : s.pwr.fails = 0 ∨ 3 ≤ s.pwr.fails) : exec .softStartRetry s = .next s := by
  refine if_neg ?_
  simp only [off, idle, Bool.not_false, Bool.and_self, Bool.true_and, decide_eq_true_eq]
  omega

end

theorem exec_softStartOn_charging (charging : s.pwr.charging = true) : exec .softStartOn s =
    .next ((({ s with pwr := { s.pwr with
      charging := false, on := true, fails := 0, supply := true, rails := true, low := false, powerUp := true } } : State).driveFlt).pwrShow) :=
  if_neg (by simp [charging])

theorem exec_softStartTimeout_charging (charging : s.pwr.charging = true) : exec .softStartTimeout s =
    .next (({ s with pwr := { s.pwr with charging := false, fails := s.pwr.fails + 1 } } : State).bump PWR_CNT PWR_CNT_SS_FAIL 1) :=
  if_neg (by simp [charging])

/-! ## Supplies -/

section
variable (on : s.pwr.on = true) {mv : BitVec 16}
include on

theorem exec_logicSupplyLow_dips (least : 10000 ≤ mv.toNat) (most : mv.toNat < 10800) :
    exec (.logicSupplyLow mv) s = .next (settle ((s.wr PWR_VMON PWR_VMON_V12 mv.toNat).logicLow mv.toNat)) :=
  (if_neg (by simp [on, most])).trans (if_pos least)

theorem exec_logicSupplyLow_fails (brown : mv.toNat < 10000) : exec (.logicSupplyLow mv) s =
    .next (if s.boot.porst then ({ s with pwr := { s.pwr with supply := false } } : State)
      else ({ s with pwr := { s.pwr with supply := false } } : State).porst false true).pwrShow :=
  (if_neg (by simp only [on, Bool.not_true, Bool.false_or, decide_eq_true_eq]; omega)).trans (if_neg (not_le.mpr brown))

end

theorem logicLow_onset {t : State} (first : t.pwr.low = false) (runs : t.boot.porst = false) (v : Nat) :
    t.logicLow v = ({ t with pwr := { t.pwr with low := true } } : State).pwrShow.raise .pwr F_PWR_LOGIC_LOW [v] :=
  if_neg (by simp [first, runs])

theorem logicLow_known {t : State} (known : t.pwr.low = true ∨ t.boot.porst = true) (v : Nat) :
    t.logicLow v = ({ t with pwr := { t.pwr with low := true } } : State).pwrShow :=
  if_pos (by simpa using known)

theorem exec_logicSupplyRecover_high {mv : BitVec 16} (high : 10800 ≤ mv.toNat) : exec (.logicSupplyRecover mv) s =
    .next ((({ s with pwr := { s.pwr with supply := true, low := false } } : State).release).wr PWR_VMON PWR_VMON_V12 mv.toNat).pwrShow :=
  (if_neg (by omega)).trans (if_neg (not_lt.mpr high))

theorem exec_railFail_raises (rails : s.pwr.rails = true) (runs : s.boot.porst = false) (rail : Fin 16) : exec (.railFail rail) s =
    .next (settle (({ s with pwr := { s.pwr with rails := false } } : State).pwrShow.raise .pwr F_PWR_RAIL_FAIL [rail.val])) :=
  if_neg (by simp [rails, runs])

theorem exec_railFail_silent (silent : s.pwr.rails = false ∨ s.boot.porst = true) (rail : Fin 16) : exec (.railFail rail) s =
    .next ({ s with pwr := { s.pwr with rails := false } } : State).pwrShow :=
  if_pos (by simpa using silent)

/-! ## Temperature -/

section
variable {temp mv v33 : BitVec 16} {hot high crit : Bool}
  (isHot : (if 1080 ≤ temp.toInt then true else if temp.toInt < 800 then false else s.pwr.hot) = hot)
include isHot

theorem exec_tempSample_reset (held : s.boot.porst = true) :
    exec (.tempSample temp mv v33) s = .next { s with pwr := { s.pwr with hot := hot } } := by
  subst isHot
  exact if_pos held

variable (runs : s.boot.porst = false) (isHigh : decide (s.tempHigh ≤ temp.toInt) = high) (isCrit : decide (1000 ≤ temp.toInt) = crit)
  {old : Int} (oldest : signedOf 16 (s.rd PWR_TEMP PWR_TEMP_MAX) = old) {shown : State}
  (shows : (((s.wr PWR_VMON PWR_VMON_V12 mv.toNat).wr PWR_VMON PWR_VMON_V33 v33.toNat).wr PWR_TEMP PWR_TEMP_NOW temp.toNat).wr PWR_TEMP
    PWR_TEMP_MAX (if old < temp.toInt then temp.toNat else toBits 16 old) = shown) {now : State}
  (sampled : { shown with pwr := { s.pwr with hot := hot, high := high, crit := crit } } = now)
include runs isHigh isCrit oldest shows sampled

/-- A sample outside a reset shows what it measured; then the module is reset or the crossed limits are raised. -/
theorem exec_tempSample_runs : exec (.tempSample temp mv v33) s =
    if hot then .next (now.porst false false).pwrShow
    else
      let warned := if high && !s.pwr.high then now.raise .pwr F_PWR_TEMP_HIGH [temp.toNat] else now
      .next (settle (if crit && !s.pwr.crit then warned.raise .pwr F_PWR_TEMP_CRIT [temp.toNat] else warned)) := by
  subst sampled shows oldest isCrit isHigh isHot
  exact if_neg (ne_true_of_eq_false runs)

end

end

/-- Settles O59: each event is decided by the state of the supply, and a sample by the limits it crosses. -/
theorem suppliesSoftStartAndTemperature : Obligations.SuppliesSoftStartAndTemperature := by
  intro s mv temp v33 rail to_ x with_ v seen
  refine ⟨fun off idle => ⟨exec_inputSupplyApplied_off off idle, fun failed few => exec_softStartRetry_again off idle failed few,
      fun spent => exec_softStartRetry_stays off idle spent⟩,
    fun charging => ⟨exec_softStartOn_charging charging, exec_softStartTimeout_charging charging⟩,
    fun on => ⟨fun least most => ⟨fun first runs => ?_, fun known => ?_⟩, fun brown => ⟨fun runs => ?_, fun held => ?_⟩⟩,
    fun high => exec_logicSupplyRecover_high high,
    fun rails runs => ?_, fun down => ?_, ?_⟩
  · exact (exec_logicSupplyLow_dips on least most).trans (congrArg done (logicLow_onset (t := seen) first runs v))
  · exact (exec_logicSupplyLow_dips on least most).trans (congrArg done (logicLow_known (t := seen) known v))
  · rw [exec_logicSupplyLow_fails on brown, if_neg (ne_true_of_eq_false runs)]
  · rw [exec_logicSupplyLow_fails on brown, if_pos held]
  · exact exec_railFail_raises rails runs rail
  · exact exec_railFail_silent down rail
  · intro t hot high crit old shown now
    have sampled (runs : s.boot.porst = false) := exec_tempSample_runs (temp := temp) (mv := mv) (v33 := v33) (Eq.refl hot) runs
      (Eq.refl high) (Eq.refl crit) (Eq.refl old) (Eq.refl shown) (Eq.refl now)
    refine ⟨exec_tempSample_reset (Eq.refl hot), fun runs => ⟨fun isHot => ?_, fun cool => ⟨fun h c => ?_, fun h c => ?_, fun h c => ?_,
      fun h c => ?_⟩⟩⟩
    · rw [sampled runs, if_pos isHot]
    all_goals rw [sampled runs, if_neg (ne_true_of_eq_false cool)]
    · exact congrArg done ((if_neg (ne_true_of_eq_false c)).trans (if_neg (ne_true_of_eq_false h)))
    · exact congrArg done ((if_neg (ne_true_of_eq_false c)).trans (if_pos h))
    · exact congrArg done ((if_pos c).trans (congrArg (State.raise · .pwr F_PWR_TEMP_CRIT _) (if_neg (ne_true_of_eq_false h))))
    · exact congrArg done ((if_pos c).trans (congrArg (State.raise · .pwr F_PWR_TEMP_CRIT _) (if_pos h)))

end Sys2Proof.Machine
end
